-- ==== Sys2Proof/Word.lean ====
section
/-! DEFINITION. The word types of the QD7128 and their plainest arithmetic: 32-bit registers (R18), 64-bit stream
elements, bit fields of a register word, and numbers read from and placed into them. -/

namespace Sys2Proof

/-- A register, mailbox word or pattern word (R18). -/
abbrev Word := BitVec 32

/-- A byte of an addressed memory (R18: little-endian). -/
abbrev Byte := BitVec 8

/-- A bit field `[hi:lo]` of a 32-bit word (R16). -/
structure Fld where
  hi : Nat
  lo : Nat
  deriving DecidableEq, Repr

/-- Bits `[hi:lo]` of the number `n`. -/
def bitsOf (n hi lo : Nat) : Nat := n / 2 ^ lo % 2 ^ (hi + 1 - lo)

/-- `n` with its bits `[hi:lo]` replaced by the low bits of `v`. -/
def putBits (n hi lo v : Nat) : Nat :=
  n / 2 ^ (hi + 1) * 2 ^ (hi + 1) + v % 2 ^ (hi + 1 - lo) * 2 ^ lo + n % 2 ^ lo

/-- The number held in field `f` of word `w`. -/
def Fld.get (f : Fld) (w : Word) : Nat := bitsOf w.toNat f.hi f.lo

/-- Word `w` with field `f` holding `v`. -/
def Fld.put (f : Fld) (w : Word) (v : Nat) : Word := BitVec.ofNat 32 (putBits w.toNat f.hi f.lo v)

/-- Bit `i` of a word. -/
def Word.bit (w : Word) (i : Nat) : Bool := w.getLsbD i

/-- Bits `[hi:lo]` of a word as a number. -/
def Word.bits (w : Word) (hi lo : Nat) : Nat := bitsOf w.toNat hi lo

/-- A word from a number. -/
def word (n : Nat) : Word := BitVec.ofNat 32 n

/-- The low word of a number. -/
def loWord (n : Nat) : Word := BitVec.ofNat 32 n

/-- Bits [63:32] of a number. -/
def hiWord (n : Nat) : Word := BitVec.ofNat 32 (n / 2 ^ 32)

/-- 1 for true, 0 for false. -/
def b2n (b : Bool) : Nat := if b then 1 else 0

/-- The signed value of the low `w` bits of `n` (two's complement). -/
def sgn (w n : Nat) : Int :=
  let m := n % 2 ^ w
  if 2 * m < 2 ^ w then (m : Int) else (m : Int) - 2 ^ w

/-- The low `w` bits of an integer, as a number (two's complement). -/
def unsgn (w : Nat) (v : Int) : Nat := (v % 2 ^ w).toNat

/-- `v` limited to the range of a signed `w`-bit number. -/
def satInt (w : Nat) (v : Int) : Int := max (-(2 ^ (w - 1))) (min (2 ^ (w - 1) - 1) v)

/-- `v` limited to the range of an unsigned `w`-bit number. -/
def satNat (w : Nat) (v : Nat) : Nat := min (2 ^ w - 1) v

/-- Exclusive or of all bits of a number of `w` bits. -/
def parity (w n : Nat) : Bool := (List.range w).foldl (fun p i => p != n.testBit i) false

end Sys2Proof
end

