-- ==== Sys2Proof/Syntax.lean ====
section
/-! DEFINITION. The commands and events of the QD7128 (spec/opcode_table.json), one constructor per row. A row that is a
Ubtor command carries the mailbox its message stands in: its fields are the message's words, which the state holds. Every
other row carries what its sender or surroundings supply. -/

namespace Sys2Proof

/-- The masters of the internal address space (Table 1-10), the host, and the units that write on their own. -/
inductive Master where
  | ubtor | host | jtag | dma
  | sheet (s : Nat)
  | tile (t : Nat)
  | swatch | loader | datum
  deriving DecidableEq, Repr

/-- The supply rails (Table 25-2). -/
inductive Rail where
  | vddBase | vddFab | vddStitch | vddChart | vddStore | vppStore | vddaLn | vddhLn | vddqLp | vdd2Lp
  | vddio (b : Nat)
  | vddAon | vddDatum | vppFuse
  deriving DecidableEq, Repr

/-- What one try of a firmware image found (Table 3-5): the first failing check (1 to 4), or a pass with its version. -/
inductive ImageOutcome where
  | pass (version : Word)
  | fail (check : Nat)
  deriving DecidableEq, Repr

/-- A stream element: 64 data bits and 8 sideband bits (R270). -/
structure Elem where
  data : BitVec 64
  sb : BitVec 8
  deriving DecidableEq, Repr

/-- What a graticule stream flit carries (R280): elements of the stream's producer on its own hop, or the next `k` elements of the stream
buffer on the hop to the consumer. -/
inductive FlitLoad where
  | producer (els : List Elem)
  | buffer (k : Nat)
  deriving DecidableEq, Repr

/-- A signal that an input of a multiplexer of a sheet may carry (R183, Tables 5-2 to 5-4): constant 0; an output of cell `i` (0 Y, 1 YE,
2 YO, 3 S, 4 CO, 5 FFA, 6 FFB); the wire that multiplexer `m` of cell `i` drives; bit `b` of a block RAM read output (72 CE, 73 DBE); the
incoming wire `w` of a border (side 0 N, 1 E, 2 S, 3 W); the receive signals and the returned credits of riser port `k`; I of slot `j`; a
bit of the stamp; a signal of the chart port or the graticule port. -/
inductive Net where
  | zero
  | cell (i out : Nat)
  | wire (i m : Nat)
  | ram (block port b : Nat)
  | border (side w : Nat)
  | rxAvail (k h : Nat)
  | rxData (k b : Nat)
  | rxSb (k b : Nat)
  | txCredit (k h : Nat)
  | io (j : Nat)
  | stamp (b : Nat)
  | port (b : Nat)
  deriving DecidableEq, Repr, Inhabited

/-- A block RAM port's access of one cycle (R188). -/
structure BramReq where
  addr : Nat
  we : Bool
  re : Bool
  data : Nat
  deriving DecidableEq, Repr

/-! What a MAC has parsed of a received frame (R395 to R399). eCPRI, O-RAN, PTP and ESMC byte layouts are those standards';
the model takes their fields. -/

/-- A compressed resource block as received: its parameter byte and 24 codes, I then Q per resource element (R339, R341). -/
structure Prb where
  param : Nat
  codes : List Nat
  deriving DecidableEq, Repr

/-- A U-plane section: first PRB, its PRBs, and the compression method and width it names, where it names one. -/
structure UpSection where
  startPrb : Nat
  prbs : List Prb
  comp : Option (Nat × Nat)
  deriving DecidableEq, Repr

/-- Weights of one bundle from extension 1 or 11: bundle, bfwCompMeth, component bits, bfwCompParam, components as received. -/
structure BundleWeights where
  bundle : Nat
  meth : Nat
  width : Nat
  param : Nat
  codes : List Nat
  deriving DecidableEq, Repr

/-- A scaler of modulation compression: the resource elements of a block it is for (bit `i`: element `i`), modCompScaler's mantissa and
exponent, csf. -/
structure ModScaler where
  elems : Nat
  mant : Nat
  ex : Nat
  csf : Bool
  deriving DecidableEq, Repr

/-- A section extension (Table 12-3): 1 and 11, 2, 4 and 5, 6 with the blocks and the symbols of the slot (bit `i`: symbol `i`) it
names, 10 with the further eAxC IDs, and any other by its number. -/
inductive CpExt where
  | weights (l : List BundleWeights)
  | attributes
  | scalers (l : List ModScaler)
  | blocks (prbs : List Nat) (syms : Nat)
  | ports (eaxcs : List Nat)
  | other (n : Nat)
  deriving DecidableEq, Repr

/-- A C-plane section: type, direction (downlink), number of symbols, PRB range, extensions, and its bytes. -/
structure CpSection where
  stype : Nat
  downlink : Bool
  numSym : Nat
  startPrb : Nat
  numPrb : Nat
  exts : List CpExt
  bytes : List (BitVec 8)
  deriving DecidableEq, Repr

/-- The body of an eCPRI message by its type (R398); `sym` is its (first) symbol within the frame. -/
inductive EcpriBody where
  | iq (frameId sym : Nat) (secs : List UpSection)
  | control (frameId sym : Nat) (secs : List CpSection)
  | delay (action : Nat)
  | other
  deriving DecidableEq, Repr

/-- An eCPRI message: revision, eAxC ID, sequence number, radio-transport fragmentation, the device stamp of its start at the
PCS, its body. -/
structure Ecpri where
  rev : Nat
  eaxc : Nat
  seq : Nat
  frag : Bool
  at_ : Nat
  body : EcpriBody
  deriving DecidableEq, Repr

/-- A PTP message after R432: what it says. `best` tells that the alternate BMCA chooses its master. -/
inductive PtpKind where
  | announce (clockClass : Nat) (best : Bool) (leap : Option (BitVec 32))
  | sync
  | delayResp
  | management
  | unsupported
  deriving DecidableEq, Repr

/-- A PTP message: over UDP (G.8275.2) or IEEE 802.3, domain, master, the address it comes from (IPv4) and the one it goes to (IPv4 or MAC),
kind. -/
structure PtpMsg where
  udp : Bool
  domain : Nat
  master : Nat
  src : Nat
  dst : Nat
  kind : PtpKind
  deriving DecidableEq, Repr

/-- What a frame that its EtherType tells to be eCPRI, PTP or ESMC carries (Table 12-2). -/
inductive EthContent where
  | ecpri (msgs : List Ecpri)
  | ptp (m : PtpMsg)
  | esmc (ql : Nat)
  | other
  deriving DecidableEq, Repr

/-- A received frame: FCS good, RS-FEC codewords corrected and not correctable since the frame before it, its bytes from the
destination address to the FCS, and the content parsed of those bytes. -/
structure EthFrame where
  fcs : Bool
  corrected : Nat
  uncorrectable : Nat
  bytes : List (BitVec 8)
  content : EthContent
  deriving DecidableEq, Repr

/-- A CTRL unit of yarn virtual lane 2 (Table 18-5). -/
structure CtrlUnit where
  ack : Bool
  dst : Nat
  src : Nat
  last : Bool
  first : Nat
  words : List (BitVec 32)
  deriving DecidableEq, Repr

/-- A valid data unit of a yarn codeword (R576, Tables 18-4 and 18-5). -/
inductive YarnUnit where
  | elems (channel : Nat) (els : List Elem)
  | ctrl (u : CtrlUnit)
  | time (txOwn echoTx echoRx : Nat)
  | bcast (value : BitVec 32) (swap : Bool) (at_ : Nat)
  | heartbeat (position state mer : Nat)
  deriving DecidableEq, Repr

/-- A credit return of a yarn header (Table 18-1). -/
structure YCredit where
  channel : Nat
  count : Nat
  deriving DecidableEq, Repr

/-- A yarn codeword on a port (Table 18-1): correctable, corrected, and its header and valid units. -/
structure YarnCodeword where
  good : Bool
  corrected : Bool
  seq : Nat
  ackSeq : Nat
  nak : Bool
  ackValid : Bool
  idle : Bool
  creditA : Option YCredit
  creditB : Option YCredit
  ctrlCredit : Nat
  units : List YarnUnit
  deriving DecidableEq, Repr

/-- A yarn training frame as a lane receives it: the pair crossed, and the 64-bit control word after its marker (Table 18-3a). -/
structure YarnFrame where
  crossed : Bool
  control : BitVec 64
  deriving DecidableEq, Repr

/-- What training finds at one lane's receiver (R372, R373): the pair crossed, the partner lane's position where the class
tells it. -/
structure LaneObs where
  lane : Nat
  crossed : Bool
  pos : Option Nat
  deriving DecidableEq, Repr

/-- What LANE_UP observes: the lanes whose link layer reports the link established, and the taps the training set in the transmitter of
each lane (R365). -/
structure LaneUpSeen where
  /-- The lanes, with what R372 and R373 detect on each. -/
  obs : List LaneObs
  /-- Each lane with the LNE_TXFFE word its training set. -/
  ffe : List (Nat × Word)
  deriving DecidableEq, Repr

/-- One adaptation step of a receiver (R366): the CTLE's and the taps' moves, and the eye margins when measured; on a yarn lane in training
its requests to the partner's FFE (8 bits, as FFE_REQ of Table 18-3a), and whether it has finished. -/
structure AdaptStep where
  ctle : Int
  taps : List Int
  eye : Option (Nat × Nat)
  ffeReq : Nat
  ready : Bool
  deriving DecidableEq, Repr

/-- What the PLL has measured by a local second boundary (R435 to R442): time error of the selected reference and filtered time
error in ns, mean magnitude plus three standard deviations over the last 300 s in ns, and in 10⁻¹² the frequency of the selected
reference, the mean of the frequency steered over the last 100 s and the SyncE frequency. -/
structure PllSecond where
  te : Int
  filtered : Int
  window : Nat
  freq : Int
  y100 : Int
  synce : Int
  deriving DecidableEq, Repr

/-- A time-of-day message as received (R434): the 16 bytes of an Eloarel binary message (Table 13-4), or NMEA ZDA with the UTC second it
names. -/
inductive TodMsg where
  | binary (bytes : List Byte)
  | zda (valid timePresent : Bool) (utc : Int)
  deriving DecidableEq, Repr

/-- A time-of-day message and the baud rate it came at (R434). -/
structure TodSeen where
  rate : Nat
  msg : TodMsg
  deriving DecidableEq, Repr

/-- A unit's turn at LUT16: the unit, and what the ECC of the entry it reads shows (0 nothing, 1 corrected, 2 uncorrectable: R142). -/
structure LutTurn where
  unit : Nat
  ecc : Nat
  deriving DecidableEq, Repr

/-- A memory request as its source interface sends it (R495, R529, Table 15-3): source NI, master class, attribute KeyID when KA
is 1, 48-bit address, WRITE or READ, bytes, write data, and the TAG to echo when it came over the graticule. -/
structure MemReq where
  src : Nat
  cls : Nat
  key : Option Nat
  addr : Nat
  write : Bool
  len : Nat
  data : List (BitVec 8)
  tag : Option Nat
  deriving DecidableEq, Repr

/-- What the ECC of a memory finds in the words an access touches. -/
inductive EccSeen where
  | clean
  | corrected
  | uncorrectable
  deriving DecidableEq, Repr

/-- How the external memory returns 64 bytes with their metadata (R526, R531, R538): reads whose link ECC failed first, what the ECC
found, and, when the board's memory no longer holds what the guard wrote, the bytes and the tag it returns. -/
structure ExtRead where
  rereads : Nat
  ecc : EccSeen
  other : Option (List (BitVec 8) × BitVec 64)
  deriving DecidableEq, Repr

/-- What the guard meets while it serves one line: the line's read, the reads of the nodes at the levels listed (a level not listed
reads clean), the levels whose backing copy is uncorrectable, and the upset root copies (root, copy 0 to 2, value). -/
structure GuardSeen where
  line : ExtRead
  nodes : List (Nat × ExtRead)
  backingBad : List Nat
  roots : List (Nat × Nat × Nat)
  deriving DecidableEq, Repr

/-- What a swatch step finds at its end: the time it took in ns, the bound of the next step (none after the last), the first failing
place and bit, or that the resource could not be tested (R618, R623, R628). -/
structure StepSeen where
  ns : Nat
  next : Option Nat
  found : Option (Nat × Nat)
  notRun : Bool
  deriving DecidableEq, Repr

/-- A sensor whose reading, in 0.25 °C, is not the common one; none when it did not convert (R639). -/
structure SensorVal where
  sensor : Nat
  raw : Option Int
  deriving DecidableEq, Repr

/-- Corrected and received FEC symbols of a MAC (0 to 15) or yarn port (16, 17) over a 600 s interval (R655). -/
structure SerSample where
  unit : Nat
  corrected : Nat
  received : Nat
  deriving DecidableEq, Repr

/-- A host request to a BAR (R551, R553): byte offset, words asked for or written, and whether its byte enables cover whole words. -/
structure BarReq where
  bar : Nat
  off : Nat
  write : Bool
  count : Nat
  data : List (BitVec 32)
  whole : Bool
  deriving DecidableEq, Repr

/-- How a host read of the engine ends (R555, Table 17-5). -/
inductive HostErr where
  | unsupported | abort | poison
  deriving DecidableEq, Repr

/-- What the engine meets while it works on a descriptor: the host's data, an error that ended the host read after them, the outcome
of each internal request in order, and the descriptors it fetches to abort them. -/
structure DmaSeen where
  host : List (BitVec 8)
  hostErr : Option HostErr
  ecc : List EccSeen
  ext : List ExtRead
  guard : List GuardSeen
  later : List (List (BitVec 32))
  deriving DecidableEq, Repr

/-- What the fetch of a firmware update brings (R92): an error completion or a completion timeout, or the image. -/
inductive FwSeen where
  | fetchFailed
  | fetched (image : List (BitVec 8))
  deriving DecidableEq, Repr

/-- What the hardware checks of a commit find (R108): BUS × 16 + SEL of the AVSBus rails that do not reply, whether the oscillator's
sensor replies, the supply of each bank in mV, MREF measured against XTAL in Hz (0 when absent), GiB found on each LPDDR5X channel (0
when absent or untrained) with the rate code trained, the density of each flash device in MiB. -/
structure CommitSeen where
  avsSilent : List Nat
  sensorReplies : Bool
  bankMv : List Nat
  mrefHz : Nat
  gib : List Nat
  rate : Nat
  flashMib : List Nat
  deriving DecidableEq, Repr

/-- The commands and events of the block, one constructor per row of the table. -/
inductive Instr where
  /-- A monitored supply rail becomes valid, which starts the 2 ms count to power-on reset release once it is the
  last one. (R99) -/
  | supplyValid (r : Rail)
  /-- Power-on reset releases 2 ms after the last monitored supply is valid; IRO runs and the device enters BOOT.
  (R98) -/
  | powerOnResetRelease (bootSrc xtalWait cascadeMaster ioPull : Nat)
  /-- A monitored rail stays below its valid level for 10 µs; outputs go high impedance and the device restarts as
  after loss of VDD_AON. (R706) -/
  | supplyLoss (r : Rail)
  /-- VDD_AON is lost and the device enters OFF. (R44) -/
  | vddAonLost
  /-- PERST# is asserted, returning the device toward step 3 of start-up. (R100) -/
  | perstAssert
  /-- PERST# is released; the device enters BOOT and the PCIe link trains again. (R100) -/
  | perstRelease
  /-- XTAL_WAIT expires; base-tier clocks move from IRO to XTAL and the boot ROM starts reading flash. (R98) -/
  | xtalStable
  /-- The boot ROM finishes checking one firmware image and either starts it (READY) or records its rejection and
  tries the next. (R104) -/
  | bootImageTried (o : ImageOutcome)
  /-- The PCIe endpoint completes link training without firmware. (R100) -/
  | pcieLinkTrained (speed width : Nat)
  /-- A sender writes a non-zero word of a mailbox. (R63) -/
  | mbxWordWrite (m : Master) (mb k : Nat) (v : BitVec 32)
  /-- A word-0 write posts the message, sets FULL and clears ACK. (R63) -/
  | mbxPost (m : Master) (mb : Nat) (v : BitVec 32)
  /-- A fabric mailbox claim lapses after 100 µs without a write from the sheet. (R61) -/
  | fabricClaimTimeout (mb : Nat)
  /-- The receiver writes MBX_ACKCODE, storing the code, setting ACK and clearing FULL in one step. (R63) -/
  | mbxAckcodeWrite (m : Master) (mb : Nat) (v : BitVec 32)
  /-- The sender writes 1 to its ACK bit in MBX_ACK to clear it. (R66) -/
  | mbxAckClear (m : Master) (v : BitVec 32)
  /-- The two cores of a lockstep pair disagree and the pair resets. (R56) -/
  | lockstepDisagreement (pair : Nat) (executing : Bool)
  /-- The reset pair resumes within 20 µs and continues the interrupted command from its first unrecorded effect.
  (R56) -/
  | lockstepPairResume (pair : Nat)
  /-- The expert session's idle timeout expires, closing the session and recording an event. (R80) -/
  | sessionIdleTimeout
  /-- A read of DEV_STAMP_LO latches stamp bits [63:32] into DEV_STAMP_HI. (R82) -/
  | devStampLoRead (m : Master)
  /-- A write to a register without a row of its own, applied by its access code. (R21) -/
  | registerWrite (m : Master) (a size : Nat) (v : BitVec 32)
  /-- SYS.STATUS returns the device state, firmware version, causes and stamp. (R84) -/
  | sysStatus (mb : Nat)
  /-- SYS.ECHO returns its data unchanged. (R85) -/
  | sysEcho (mb : Nat)
  /-- SYS.STATE orders QUIET, resumption or DORMANT. (R86) -/
  | sysState (mb : Nat)
  /-- SYS.RESET returns DONE and schedules entry to BOOT 10 µs later. (R88) -/
  | sysReset (mb : Nat)
  /-- 10 µs after SYS.RESET the device enters BOOT unless the reset was withdrawn. (R88) -/
  | sysResetDelayExpiry
  /-- SYS.CAUSE_CLEAR clears HALT_CAUSE and/or TRIP_CAUSE. (R89) -/
  | sysCauseClear (mb : Nat)
  /-- SYS.EXPERT_OPEN opens an expert session with a TRNG identifier. (R90) -/
  | sysExpertOpen (mb : Nat)
  /-- SYS.EXPERT_CLOSE closes the named session. (R91) -/
  | sysExpertClose (mb : Nat)
  /-- SYS.FW_UPDATE starts fetching a firmware image from host memory. (R92) -/
  | sysFwUpdate (mb : Nat)
  /-- The staged image is verified and written to the flash slot, or fails, and the completion is sent. (R92) -/
  | fwUpdateComplete (o : FwSeen)
  /-- SYS.REG_READ reads a range of registers. (R93) -/
  | sysRegRead (mb : Nat)
  /-- SYS.REG_WRITE writes a range of registers in ascending order. (R93) -/
  | sysRegWrite (mb : Nat)
  /-- SURVEY.LOAD writes words into the survey staging buffer. (R113) -/
  | surveyLoad (mb : Nat)
  /-- SURVEY.COMMIT starts validation and hardware checks of the staged survey. (R114) -/
  | surveyCommit (mb : Nat)
  /-- The hardware checks end; the survey is in force or the commit fails with its DETAIL. (R108) -/
  | surveyCommitComplete (h : CommitSeen)
  /-- SURVEY.ABORT clears the staging buffer and written marks. (R115) -/
  | surveyAbort (mb : Nat)
  /-- SURVEY.STATUS returns commit state, straps and mismatch counts. (R116) -/
  | surveyStatus (mb : Nat)
  /-- SURVEY.READ returns words of the committed survey. (R117) -/
  | surveyRead (mb : Nat)
  /-- SURVEY.MISMATCH returns entries of the mismatch list. (R118) -/
  | surveyMismatch (mb : Nat)
  /-- A lane's link layer reports the link established and the lane leaves TRAINING for UP. (R369) -/
  | laneUp (e : LaneUpSeen)
  /-- A training attempt passes its bound; the link is reported down and retried. (R101) -/
  | laneTrainingAttemptTimeout (n : Nat) (wrong : Option Nat)
  /-- The retry interval of a JESD or yarn link expires and a new training attempt starts. (R101) -/
  | laneRetryTimer (n : Nat)
  /-- The received signal stays below squelch for 1 µs in TRAINING or UP; the lane retrains. (R377) -/
  | laneLos (n : Nat)
  /-- The CDR loses lock in UP; the lane retrains. (R377) -/
  | cdrUnlock (n : Nat)
  /-- The lane PLL loses lock; the transmitter idles and the lane retrains after relock. (R377) -/
  | pllUnlock (n : Nat) (refOk : Bool)
  /-- A reference input departs more than ±300 ppm from its surveyed frequency, clearing REF_OK. (R362) -/
  | refClockOutOfRange (k : Nat)
  /-- Every 10 µs continuous adaptation moves the CTLE and DFE taps by at most one step. (R366) -/
  | adaptationStep (n : Nat) (a : AdaptStep)
  /-- A tap held at a range limit for 1 s raises ADAPT_LIMIT. (R366) -/
  | adaptLimit (n : Nat)
  /-- A lane completes entry to LP1 or LP2. (R371) -/
  | lowPowerEntryComplete (n : Nat)
  /-- A lane completes its low-power exit and leaves for UP or TRAINING. (R371) -/
  | lowPowerExitComplete (n : Nat)
  /-- A locked checker sees more than 32 errors in 64 bits, drops lock and relocks. (R376) -/
  | checkerLockLoss (n errors : Nat)
  /-- Complex multiply-accumulate into an accumulator. (R131) -/
  | cmac (t u : Nat)
  /-- Complex multiply with shift, rounding and saturation. (R131) -/
  | cmul (t u : Nat)
  /-- Real two-lane multiply-accumulate. (R130) -/
  | rmac (t u : Nat)
  /-- Four-lane 8-bit multiply-accumulate. (R130) -/
  | qmac (t u : Nat)
  /-- Accumulator read with narrowing, optionally clearing it. (R131) -/
  | accrd (t u : Nat)
  /-- Radix-2 butterfly with twiddle. (R132) -/
  | bfly2 (t u : Nat)
  /-- Radix-4 butterfly occupying the unit four cycles. (R132) -/
  | bfly4 (t u : Nat)
  /-- Lane-wise saturating add. (R130) -/
  | add (t u : Nat)
  /-- Lane-wise saturating subtract. (R130) -/
  | sub (t u : Nat)
  /-- Shift right with rounding and saturation. (R122) -/
  | srs (t u : Nat)
  /-- Saturating shift left. (R130) -/
  | sls (t u : Nat)
  /-- Compare writing a predicate. (R134) -/
  | cmp (t u : Nat)
  /-- Select by predicate. (R130) -/
  | sel (t u : Nat)
  /-- Complex conjugate. (R130) -/
  | conj (t u : Nat)
  /-- Redundant sign count of a register or accumulator. (R134) -/
  | norm (t u : Nat)
  /-- Interpolated table lookup from tile memory. (R135) -/
  | lut16 (t : Nat) (u : LutTurn)
  /-- Load from tile memory through an address generator. (R139) -/
  | ld (t u ecc : Nat)
  /-- Store to tile memory through an address generator. (R140) -/
  | st (t u : Nat)
  /-- Read the next element of an input channel, latching its sideband. (R155) -/
  | sin (t u : Nat)
  /-- Send an element on an output channel. (R155) -/
  | sout (t u : Nat)
  /-- Move an immediate into half a register. (R130) -/
  | movi (t u : Nat)
  /-- Read a twiddle ROM entry. (R133) -/
  | twr (t u : Nat)
  /-- FP32 add on U6 or U7. (R136) -/
  | fadd (t u : Nat)
  /-- FP32 subtract on U6 or U7. (R136) -/
  | fsub (t u : Nat)
  /-- FP32 multiply on U6 or U7. (R136) -/
  | fmul (t u : Nat)
  /-- Reciprocal square root seed or Newton step. (R137) -/
  | frsq (t u : Nat)
  /-- Conversion between 16-bit integer and FP32. (R137) -/
  | fcvt (t u : Nat)
  /-- An outside tile-memory access that has waited 16 cycles takes the bank and stalls the tile. (R142) -/
  | outsideAccessWaitExpiry (t addr : Nat) (store : List Byte) (ecc : Nat)
  /-- The drain ends at switch edge E; the token is forwarded and the incoming pattern takes effect. (R159) -/
  | tokenDrainEnd (t : Nat)
  /-- At the hard switch edge the incoming pattern's control block takes effect and the outgoing one stops
  issuing. (R157) -/
  | patternHardSwitchEdge (w : Nat)
  /-- An element arrives on a tile word link or riser link into a receive buffer. (R149) -/
  | wordLinkElement (t port : Nat)
  /-- A credit returns to a sender on a word link, releasing any reserved stalled SOUT. (R150) -/
  | wordLinkCredit (t port h : Nat)
  /-- A wale gate channel moves an element into or out of the wale. (R154) -/
  | gateChannelElement (w g : Nat)
  /-- The shift-bypass copy ends; SHIFT_AT takes its new value and issue resumes. (R163) -/
  | shiftCopyEnd (w : Nat)
  /-- A write with GO to WAL_SWITCH orders a hard switch of the named tiles. (R156) -/
  | walSwitchGo (w tiles pattern : Nat)
  /-- Setting LOCK in WAL_CTRL makes WAL_BANKMAP read only. (R165) -/
  | walCtrlLock (w : Nat)
  /-- WAL.STATUS returns a wale's status, active patterns and flags. (R167) -/
  | walStatus (mb : Nat)
  /-- WAL.SWITCH makes a hard switch through WAL_SWITCH. (R168) -/
  | walSwitch (mb : Nat)
  /-- WAL.BIND binds, enables or disables a gate channel. (R169) -/
  | walBind (mb : Nat)
  /-- WAL.STICKY_CLEAR clears sticky flags of named tiles. (R170) -/
  | walStickyClear (mb : Nat)
  /-- WAL.BANKMAP writes a tile's bank map. (R171) -/
  | walBankmap (mb : Nat)
  /-- WAL.FREEZE sets or clears FREEZE of a wale. (R172) -/
  | walFreeze (mb : Nat)
  /-- WAL.SHIFT starts a shift-bypass copy to a new SHIFT_AT. (R173) -/
  | walShift (mb : Nat)
  /-- WAL.COUNTERS returns and optionally clears wale counters. (R174) -/
  | walCounters (mb : Nat)
  /-- At the sheet switch edge the incoming plane takes effect, private flip-flops save and restore, and selvedge
  windows open. (R221) -/
  | sheetSwitchEdge (n : Nat) (pins : List Nat) (high : List Net)
  /-- A group switch at instant T reaches every member island, each switching at its own edge. (R236) -/
  | groupSwitch
  /-- A sheet releases a reset net on the third LCK0 rising edge after it falls. (R197) -/
  | resetNetRelease (n net : Nat)
  /-- User logic asserts RP_TX_VALID to send an element, discarded as NOCREDIT without credit. (R187) -/
  | riserTxElement (n k h : Nat) (e : Elem)
  /-- User logic asserts RP_RX_TAKE, removing the presented element and returning a credit. (R187) -/
  | riserRxTake (n k h : Nat)
  /-- The tile returns a credit pulse to user logic on RP_TX_CREDIT. (R187) -/
  | riserCreditPulse (n k h : Nat)
  /-- A block RAM port performs a read or write, with ECC in shape 4. (R190) -/
  | bramAccess (n block : Nat) (a b : Option BramReq) (upsA upsB : List Nat) (bFirst : Bool)
  /-- The sheet clock restarts after an SHT.CLOCK change with derived trees aligned. (R196) -/
  | sheetClockRestart (n : Nat)
  /-- Capture instant T reaches the islands; each snapshots its flip-flops at its first LCK0 edge at or after T.
  (R200) -/
  | captureInstant (lead edge : Nat)
  /-- An island with no edge within 1 µs after T is captured as it stands and marked EDGE_NONE. (R200) -/
  | captureEdgeNoneTimeout (lead : Nat)
  /-- A rising CAP_TRIG edge of the armed trigger sheet sets T to its stamp plus 32 ns. (R202) -/
  | capTrigEdge (n : Nat)
  /-- The block RAM copy completes over 512 cycles and the capture plane becomes HELD. (R201) -/
  | captureCopyComplete (lead : Nat)
  /-- Setting LOCK in SHT_CTRL makes SHT_CLK read only. (R204) -/
  | shtCtrlLock (n : Nat)
  /-- A read of SHT_STAMP_LO latches stamp bits [63:32] for the same master. (R204) -/
  | shtStampLoRead (m : Master) (n : Nat)
  /-- SHT.STATUS returns a sheet's status, clock, repair and sticky registers. (R206) -/
  | shtStatus (mb : Nat)
  /-- SHT.STICKY_CLEAR clears sheet sticky flags. (R207) -/
  | shtStickyClear (mb : Nat)
  /-- SHT.RESET pulses a reset net in every sheet for WIDTH_NS. (R208) -/
  | shtReset (mb : Nat)
  /-- The reset-net pulse width expires, the net falls and SHT.RESET returns DONE. (R208) -/
  | shtResetPulseEnd (net : Nat)
  /-- SHT.CLOCK stops the sheet clock and changes root or dividers. (R209) -/
  | shtClock (mb : Nat)
  /-- SHT.FREEZE writes FREEZE of a sheet. (R210) -/
  | shtFreeze (mb : Nat)
  /-- SHT.COUNTERS returns and optionally clears sheet counters. (R211) -/
  | shtCounters (mb : Nat)
  /-- SHT.SWITCH hands a group switch at T to the air schedule engine after a riser walk. (R240) -/
  | shtSwitch (mb : Nat)
  /-- SHT.RISERS returns the orientation state of a sheet's riser ports. (R241) -/
  | shtRisers (mb : Nat)
  /-- CAP.STATUS returns the capture plane's state and set. (R213) -/
  | capStatus (mb : Nat)
  /-- CAP.TAKE arms a capture of a set of sheets. (R214) -/
  | capTake (mb : Nat)
  /-- CAP.TAKE_X arms a capture with FF_ONLY or SHORT_LEAD options. (R215) -/
  | capTakeX (mb : Nat)
  /-- CAP.READ starts writing a sheet's capture record to host memory. (R216) -/
  | capRead (mb : Nat)
  /-- The capture record has been written to host memory and CAP.READ completes. (R216) -/
  | capReadComplete
  /-- CAP.RELEASE empties the capture plane. (R217) -/
  | capRelease (mb : Nat)
  /-- The orientation in force on a riser port changes in a cycle in which neither bundle carries a valid element.
  (R233) -/
  | riserOrientationChange (n k : Nat)
  /-- A run-time orientation disagreement lasting over 64 ns becomes a riser conflict fault. (R235) -/
  | riserConflictTimeout (n k : Nat)
  /-- A chart port beat transfers 16 stream bytes, the first claiming a context. (R257) -/
  | chartPortBeat (n : Nat) (beat : List (BitVec 8))
  /-- CP_ABORT abandons the port's stream. (R257) -/
  | chartPortAbort (n : Nat)
  /-- A chart-port stream with no beat for 10 ms is abandoned. (R258) -/
  | chartPortTimeout (n : Nat)
  /-- Stream bytes from flash or host arrive in a context's staging region and are hashed and decrypted. (R243) -/
  | stagingDataArrival (c : Nat) (bs : List (BitVec 8))
  /-- All bytes of a stream are staged and the context enters VERIFYING. (R249) -/
  | stagingComplete (c : Nat) (err : Bool)
  /-- Authentication and body checks end; the stream is rejected, held, or waits to commit. (R249) -/
  | verificationComplete (c : Nat)
  /-- A ready context takes the chart-tier write port and runs checks 13 to 16. (R254) -/
  | commitStart
  /-- The commit effects have landed; for FULL streams the start group switch is ordered and the context enters
  DONE. (R254) -/
  | commitComplete
  /-- Setting LOCK in LDR_CTRL makes the grant registers read only. (R260) -/
  | ldrCtrlLock (m : Master) (v : Word)
  /-- LDR.STATUS returns loader and context status. (R262) -/
  | ldrStatus (mb : Nat)
  /-- LDR.LOAD starts fetching a stream from host memory into a context. (R263) -/
  | ldrLoad (mb : Nat)
  /-- LDR.COMMIT commits a held context. (R264) -/
  | ldrCommit (mb : Nat)
  /-- LDR.ABORT abandons a context in staging, verifying or held. (R265) -/
  | ldrAbort (mb : Nat)
  /-- LDR.CASTON loads a flash stream as a cast-on load. (R266) -/
  | ldrCaston (mb : Nat)
  /-- LDR.GRANT writes a chart port's grant registers. (R267) -/
  | ldrGrant (mb : Nat)
  /-- LDR.LOCK sets LOCK. (R268) -/
  | ldrLock (mb : Nat)
  /-- LDR.COUNTERS returns and optionally clears loader counters. (R269) -/
  | ldrCounters (mb : Nat)
  /-- An element reaches a stream buffer's writer and is stored, or discarded as late, duplicate or outside the
  window. (R284) -/
  | streamElementArrival (n : Nat) (pos : Option Nat) (e : Elem)
  /-- A seam from the producer arrives at a SCHED or FREE buffer. (R292) -/
  | streamSeamArrival (n : Nat)
  /-- A released unit reaches its latest usable time and its empty positions become gaps. (R283) -/
  | latestUsableTime (n : Nat)
  /-- An element, gap or seam is delivered to the consumer as credit allows. (R288) -/
  | streamDelivery (n : Nat) (ue : Bool)
  /-- A stream flit reaches its receiver and its SEQ is checked. (R280) -/
  | graticuleStreamFlit (n seq : Nat) (load : FlitLoad)
  /-- After the last release's latest usable time the final seam is inserted at the seam point. (R296) -/
  | bindoffFinalSeam (n : Nat)
  /-- The consumer takes the final seam; the ring is freed and the stream CLOSED. (R296) -/
  | bindoffSeamTaken (n : Nat)
  /-- The bind-off timeout expires; held elements are discarded and the stream CLOSED. (R296) -/
  | bindoffTimeout (n : Nat)
  /-- A write of OPEN to STR_CFG opens the selected stream with its registers. (R298) -/
  | strCfgOpen (m : Master) (v : Word)
  /-- STR.STATUS returns a stream's registers. (R300) -/
  | strStatus (mb : Nat)
  /-- STR.OPEN opens a stream by profile. (R301) -/
  | strOpen (mb : Nat)
  /-- STR.SEAM inserts or queues a seam. (R302) -/
  | strSeam (mb : Nat)
  /-- STR.BINDOFF starts bind-off of a stream. (R303) -/
  | strBindoff (mb : Nat)
  /-- STR.OPEN_X opens a stream with explicit fields. (R304) -/
  | strOpenX (mb : Nat)
  /-- STR.COUNTERS returns and optionally clears stream counters. (R305) -/
  | strCounters (mb : Nat)
  /-- The engine dispatches the next schedule entry to its target ahead of its instant. (R317) -/
  | airEntryDispatch
  /-- A NOP entry reaches its instant and does nothing. (R310) -/
  | airActionNop
  /-- A PLANE entry orders a group switch of sheets at its instant. (R311) -/
  | airActionPlane
  /-- A PATTERN entry orders a group switch of tiles at its instant. (R311) -/
  | airActionPattern
  /-- A RELEASE entry releases units and inserts seams on its streams. (R312) -/
  | airActionRelease
  /-- A MUTE entry sets or clears the schedule mute of JESD links. (R313) -/
  | airActionMute
  /-- A PIN entry drives timed edges on timed-output pins. (R314) -/
  | airActionPin
  /-- A SAMPLE entry arms a tap buffer on a JSD_RX endpoint. (R315) -/
  | airActionSample
  /-- A CASCADE entry on the master sends a broadcast to every member. (R316) -/
  | airActionCascade
  /-- At the broadcast instant a member writes AIR_BCAST and may order a swap. (R316) -/
  | airBcastAct
  /-- At the starting boundary after AIR.ENABLE the schedule runs and the device enters ON-AIR. (R319) -/
  | airScheduleStart
  /-- At the swap boundary the incoming table becomes ACTIVE with its phase rewritten. (R320) -/
  | airSwapBoundary
  /-- At T_stop the schedule stops, mutes are set and pins take their idle levels. (R321) -/
  | airStop
  /-- A read of AIR_TIME_LO latches air time bits [63:32]. (R326) -/
  | airTimeLoRead (m : Master)
  /-- A read of AIR_SWAP_LO latches the swap boundary bits [63:32]. (R326) -/
  | airSwapLoRead (m : Master)
  /-- AIR.STATUS returns schedule status, air time and tables. (R328) -/
  | airStatus (mb : Nat)
  /-- AIR.PRESET builds a TDD table in the inactive table and starts sealing it. (R329) -/
  | airPreset (mb : Nat)
  /-- Sealing a table ends; it becomes READY or stays LOADING with a failure code. (R325) -/
  | tableSealComplete
  /-- AIR.ENABLE starts the active table at its next boundary. (R330) -/
  | airEnable (mb : Nat)
  /-- AIR.DISABLE stops the schedule now or at the next boundary. (R331) -/
  | airDisable (mb : Nat)
  /-- AIR.SWAP exchanges tables, orders a swap, or cancels one. (R332) -/
  | airSwap (mb : Nat)
  /-- AIR.LOAD writes entries into an inactive table. (R333) -/
  | airLoad (mb : Nat)
  /-- AIR.SEAL starts sealing a loaded table. (R334) -/
  | airSeal (mb : Nat)
  /-- AIR.READ returns table entries. (R335) -/
  | airRead (mb : Nat)
  /-- AIR.IDLE writes the idle levels of a bank of timed-output pins. (R336) -/
  | airIdle (mb : Nat)
  /-- AIR.COUNTERS returns and optionally clears schedule counters. (R337) -/
  | airCounters (mb : Nat)
  /-- AIR.TAP_READ starts writing a held tap to host memory. (R338) -/
  | airTapRead (mb : Nat)
  /-- The tap has been written to host memory and AIR.TAP_READ completes. (R338) -/
  | tapReadComplete
  /-- A MAC receives a frame, checks it and handles it by EtherType. (R395) -/
  | ethFrameReceived (mac : Nat) (f : EthFrame)
  /-- Clause 73 negotiation completes on a MAC. (R393) -/
  | ethAutonegComplete (mac bit : Nat) (fec : Bool)
  /-- A MAC transmitter picks the next frame by strict priority and round-robin. (R396) -/
  | ethFrameTransmit (mac : Nat) (ptp : Bool)
  /-- A transmit IQ flow takes a unit from its buffer and frames it into messages. (R404) -/
  | txIqUnitFraming (f : Nat)
  /-- A SYSREF edge aligns LEMCs and starts establishment of configured links. (R412) -/
  | sysrefEdge
  /-- A JESD receiver reaches sync header lock. (R410) -/
  | syncHeaderLock (k : Nat) (obs : List LaneObs)
  /-- A JESD receiver reaches extended multiblock lock. (R410) -/
  | embLock (k : Nat)
  /-- At the LEMC boundary plus RBD the receive buffers are released and the link is UP. (R410) -/
  | elasticBufferRelease (k : Nat)
  /-- A CRC-12 error marks a multiblock; 16 on a lane within 1 ms re-establish the link. (R415) -/
  | crc12Error (n : Nat)
  /-- Loss of extended multiblock lock takes the link back to step 1. (R415) -/
  | embLockLoss (n : Nat)
  /-- A JSD_TX endpoint plays out the sample due at its air time, or zero. (R413) -/
  | jsdTxSampleDue (k j g t : Nat)
  /-- A JSD_RX endpoint produces elements for received samples inside receive windows. (R414) -/
  | jsdRxSample (k j g t : Nat) (raw : List Nat)
  /-- FHE.STATUS returns a MAC's status and counters. (R419) -/
  | fheStatus (mb : Nat)
  /-- FHE.FLOW writes a flow table entry. (R420) -/
  | fheFlow (mb : Nat)
  /-- FHE.COUNTERS returns and optionally clears flow counters. (R421) -/
  | fheCounters (mb : Nat)
  /-- JSD.STATUS returns a link's configuration and status. (R422) -/
  | jsdStatus (mb : Nat)
  /-- JSD.LINK configures a JESD link. (R423) -/
  | jsdLink (mb : Nat)
  /-- JSD.SYSREF writes the SYSREF configuration. (R424) -/
  | jsdSysref (mb : Nat)
  /-- JSD.COUNTERS returns and optionally clears link counters. (R425) -/
  | jsdCounters (mb : Nat)
  /-- At each local second boundary validity changes act, a reference is selected and the meridian state is
  updated. (R431) -/
  | localSecondBoundary (p : PllSecond)
  /-- A 1PPS input edge is timestamped. (R434) -/
  | ppsInputEdge
  /-- A time-of-day message is received and labels a 1PPS edge. (R434) -/
  | todMessage (m : TodSeen)
  /-- A timestamped PTP message is handled by the meridian unit. (R432) -/
  | ptpMessage (mac : Nat) (m : PtpMsg)
  /-- An ESMC message updates the SyncE quality level. (R433) -/
  | esmcMessage (mac ql : Nat)
  /-- The oscillator temperature sensor is read once per second. (R427) -/
  | oscTempRead (r : Option Int)
  /-- Every 60 s a frequency-temperature sample is learned into the contour model. (R440) -/
  | contourLearnTick (y temp : Int)
  /-- Every 24 h the ageing rate d is fitted. (R440) -/
  | ageingFit
  /-- The contour model is stored in MRAM every 10 min. (R440) -/
  | modelStore
  /-- A pending leap second applies at the end of the UTC month. (R455) -/
  | leapSecondApply
  /-- A trim gate ends and IRO_TRIM moves by a step if the error exceeds 0.03 %. (R448) -/
  | iroTrimGate (mrefOk : Bool) (err : Int)
  /-- MER.STATUS returns meridian registers. (R451) -/
  | merStatus (mb : Nat)
  /-- MER.SELECT writes the reference profile and PTP settings. (R452) -/
  | merSelect (mb : Nat)
  /-- MER.OUTPUTS writes the timing output settings. (R453) -/
  | merOutputs (mb : Nat)
  /-- MER.MODEL returns contour model bins. (R454) -/
  | merModel (mb : Nat)
  /-- MER.LEAP writes leap second information. (R455) -/
  | merLeap (mb : Nat)
  /-- MER.BUDGET writes BUDGET_NS. (R456) -/
  | merBudget (mb : Nat)
  /-- MER.MODEL_CLEAR erases the contour model. (R457) -/
  | merModelClear (mb : Nat)
  /-- MER.COUNTERS returns and optionally clears meridian counters. (R458) -/
  | merCounters (mb : Nat)
  /-- A 10 ms XTAL check gate ends, counting failed and passed gates. (R460) -/
  | xtalGate (mref : Option Int) (iro : Int)
  /-- No XTAL edge for 2 µs is a crystal fault. (R460) -/
  | xtalEdgeTimeout
  /-- An island generator loses its reference and coasts on IRO. (R463) -/
  | generatorReferenceLoss (isl : Nat)
  /-- An island generator reports lock after a change of frequency or reference. (R462) -/
  | generatorLock (isl : Nat)
  /-- A gate write to CKI is judged against the tree and applied or refused. (R468) -/
  | ckiGateWrite (m : Master) (a : Nat) (v : BitVec 32)
  /-- The sequencer starts serving the next queued request by raising the rail. (R473) -/
  | sequencerRequestServe
  /-- A regulator acknowledges an AVSBus step and the sequencer proceeds. (R473) -/
  | avsAck (rail elapsed : Nat)
  /-- A regulator fails to acknowledge within 2 ms and the request ends. (R473) -/
  | avsAckTimeout
  /-- An island clock restarts at its new frequency after at most 2 µs stopped. (R474) -/
  | frequencyChangeRestart
  /-- After isolation the island power switch opens at the point of no return. (R475) -/
  | islandPowerSwitchOpen (isl : Nat)
  /-- The island is OFF and its PWR_PSW bit clears. (R475) -/
  | islandOff (isl : Nat)
  /-- Island power-up completes with registers reset and initial values loaded. (R477) -/
  | islandPowerUpComplete (isl : Nat)
  /-- Every sheet and wale power switch opens and the DORMANT completion DONE is sent. (R479) -/
  | dormantPointOfNoReturn
  /-- Rails drop, pairs 1-3 stop and the device enters DORMANT; a held wake then takes effect. (R479) -/
  | dormantEntryComplete
  /-- An enabled wake pin edge or host post aborts DORMANT entry or starts exit. (R480) -/
  | wakeEvent (src : Nat)
  /-- Power switches close and islands take initial values under the QUIET floor. (R479) -/
  | dormantExitPowerUp
  /-- The store tier leaves self-refresh, lanes take LP1 and the state becomes QUIET. (R479) -/
  | dormantExitComplete
  /-- CLK.STATUS returns clock island status. (R484) -/
  | clkStatus (mb : Nat)
  /-- CLK.GATE writes an island, group or tier gate. (R485) -/
  | clkGate (mb : Nat)
  /-- CLK.FREQ requests a frequency for an island. (R486) -/
  | clkFreq (mb : Nat)
  /-- PWR.STATUS returns sequencer and rail status. (R487) -/
  | pwrStatus (mb : Nat)
  /-- PWR.OP writes commanded operating points and queues the request. (R488) -/
  | pwrOp (mb : Nat)
  /-- PWR.ISLAND powers an island up or down. (R489) -/
  | pwrIsland (mb : Nat)
  /-- PWR.WAKE writes the wake input configuration. (R490) -/
  | pwrWake (mb : Nat)
  /-- PWR.AVS_READ reads a regulator over AVSBus. (R491) -/
  | pwrAvsRead (mb : Nat) (r : Option (Nat × Nat × Int))
  /-- A source NI injects a request once it has reserved its response sink space. (R504) -/
  | packetInjection (ni : Nat) (m : Master) (write : Bool) (addr len : Nat) (key : Option Nat) (data : List (BitVec 8))
  /-- A flit wins arbitration at a router and moves one hop. (R502) -/
  | graticuleFlitHop (r port : Nat)
  /-- A request reaches its destination NI and is delivered, held or answered by the destination's state. (R506)
  -/
  | requestAtDestination (ni : Nat) (ecc : EccSeen) (x : ExtRead)
  /-- A response drains into the source NI's reserved sink. (R504) -/
  | responseAtSource (ni : Nat)
  /-- A router island gates itself after 64 idle cycles. (R505) -/
  | routerSelfGate (isl : Nat)
  /-- A flit with a CRC error is retransmitted; three failures fail the link. (R507) -/
  | linkCrcError (l d : Nat)
  /-- A route change takes effect once the old route is empty. (R501) -/
  | routeChangeEffect (ni dst : Nat)
  /-- The 10 µs link test pattern ends and routes are restored or the link is failed. (R509) -/
  | linkTestEnd (pass : Bool)
  /-- GRT.STATUS returns graticule status and failed links. (R512) -/
  | grtStatus (mb : Nat)
  /-- GRT.LINK_TEST starts a test of one link. (R513) -/
  | grtLinkTest (mb : Nat)
  /-- GRT.LINK_RESTORE tests a failed link and clears its mark on a pass. (R514) -/
  | grtLinkRestore (mb : Nat)
  /-- GRT.ROUTE_READ returns route table entries. (R515) -/
  | grtRouteRead (mb : Nat)
  /-- GRT.ROUTE_WRITE writes a route table entry. (R516) -/
  | grtRouteWrite (mb : Nat)
  /-- GRT.COUNTERS returns and optionally clears graticule counters. (R517) -/
  | grtCounters (mb : Nat)
  /-- A store-tier access is checked by region and corrected or reported by ECC. (R522) -/
  | storeTierAccess (q : MemReq) (ecc : EccSeen)
  /-- A group completes a scrub pass of its share. (R523) -/
  | storeScrubPass (g corrected : Nat) (bad : List Nat)
  /-- A row's contents are copied to a spare and the remap takes effect. (R525) -/
  | spareRowRemap
  /-- A request to external memory resolves its KeyID and passes, is refused, or enters the guard. (R529) -/
  | externalAccess (q : MemReq) (x : ExtRead)
  /-- The guard reads, verifies and decrypts a protected line. (R535) -/
  | protectedRead (gs : List GuardSeen)
  /-- The guard increments the counter, encrypts, tags and writes a line, by read-modify-write for partial lines.
  (R536) -/
  | protectedWrite (gs : List GuardSeen)
  /-- A modified node leaves the counter cache and is written with its parent counter incremented. (R534) -/
  | counterCacheEviction (l n : Nat) (g : GuardSeen)
  /-- MEM.STATUS returns store and external memory status. (R545) -/
  | memStatus (mb : Nat)
  /-- MEM.COUNTERS returns and optionally clears memory counters. (R546) -/
  | memCounters (mb : Nat)
  /-- MGD.STATUS returns guard status and a partition. (R547) -/
  | mgdStatus (mb : Nat)
  /-- MGD.PARTITION sets a tenant partition while FRESH. (R548) -/
  | mgdPartition (mb : Nat)
  /-- MGD.COUNTERS returns and optionally clears guard counters. (R549) -/
  | mgdCounters (mb : Nat)
  /-- A host request to a BAR is completed as register accesses or reported. (R553) -/
  | pcieBarRequest (r : BarReq)
  /-- A host read of BAR4 returns tap buffer data or Unsupported Request. (R552) -/
  | bar4Read (r : BarReq) (ecc : EccSeen)
  /-- Unmasking a vector with its PBA bit set sends it once. (R554) -/
  | msixUnmask (v : Nat)
  /-- Host writes TAIL, posting descriptors or setting BAD_TAIL. (R557) -/
  | dmaQtailWrite (m : Master) (q : Nat) (v : BitVec 32)
  /-- RUN takes a queue from STOPPED to RUNNING. (R558) -/
  | dmaQctrlRun (m : Master) (q : Nat) (v : BitVec 32)
  /-- STOP takes a queue from RUNNING to STOPPING. (R558) -/
  | dmaQctrlStop (m : Master) (q : Nat) (v : BitVec 32)
  /-- The engine arbiter starts the next descriptor of a ready queue. (R558) -/
  | dmaDescriptorStart (d : Option (List (BitVec 32)))
  /-- A descriptor ends and its completion record is written in order. (R561) -/
  | dmaDescriptorComplete (q : Nat) (seen : DmaSeen)
  /-- A D2H stream descriptor completes 100 µs after its last element written. (R560) -/
  | d2hIdleTimeout (q : Nat)
  /-- A host read times out and its descriptor ends TIMEOUT. (R555) -/
  | hostReadTimeout (q : Nat) (seen : DmaSeen)
  /-- DMA.STATUS returns PCIe and queue status. (R566) -/
  | dmaStatus (mb : Nat)
  /-- DMA.QUEUE configures or disables a queue. (R567) -/
  | dmaQueue (mb : Nat)
  /-- DMA.COUNTERS returns and optionally clears PCIe counters. (R568) -/
  | dmaCounters (mb : Nat)
  /-- DMA.LINK sets the target speed and retrains the PCIe link. (R569) -/
  | dmaLink (mb : Nat)
  /-- LINK_UP is set again after the retrain and DMA.LINK completes. (R569) -/
  | dmaLinkRetrained (speed width : Nat)
  /-- A port fills and sends the next codeword from its virtual lanes. (R575) -/
  | yarnCodewordSend (p : Nat)
  /-- A codeword is received, acknowledged or NAKed, and its units delivered. (R578) -/
  | yarnCodewordReceived (p : Nat) (cw : YarnCodeword)
  /-- No acknowledgement progress for 2 µs replays from the oldest codeword. (R578) -/
  | yarnReplayTimeout (p : Nat)
  /-- A yarn training frame is received and advances the training phase. (R580) -/
  | yarnTrainingFrame (n : Nat) (f : YarnFrame)
  /-- The first header with ACK_VALID initialises credits and the port is UP. (R580) -/
  | yarnPortUp (p : Nat)
  /-- A port leaves UP; receive channels send gaps and transmit channels stall. (R587) -/
  | yarnPortDown (p : Nat)
  /-- Every millisecond an UP port sends a TIME unit. (R581) -/
  | yarnTimeUnitSend (p tx : Nat)
  /-- A TIME unit arrives and delay and offset are computed. (R581) -/
  | yarnTimeUnitReceived (p rx : Nat)
  /-- A broadcast unit arrives at a member and is forwarded and scheduled. (R583) -/
  | bcastReceived (p : Nat)
  /-- Every 1 ms a device sends a heartbeat upstream. (R586) -/
  | heartbeatSend
  /-- A heartbeat is relayed or, at the master, updates ALIVE and LOST. (R586) -/
  | heartbeatReceived (p : Nat)
  /-- No heartbeat from a position for 5 ms marks it lost. (R586) -/
  | heartbeatTimeout (k : Nat)
  /-- A whole forwarded message arrives and is posted or relayed. (R585) -/
  | forwardedMessageReceived (p : Nat)
  /-- A forwarded acknowledgement sets ACK in the sender's outgoing mailbox. (R585) -/
  | forwardedAckReceived (p : Nat)
  /-- YRN.STATUS returns cascade and port status. (R590) -/
  | yrnStatus (mb : Nat)
  /-- YRN.CHANNEL configures or clears a yarn channel. (R591) -/
  | yrnChannel (mb : Nat)
  /-- YRN.FORWARD sends an inner message to another cascade position. (R592) -/
  | yrnForward (mb : Nat)
  /-- The inner reply returns and YRN.FORWARD completes. (R592) -/
  | yrnForwardComplete (p : Nat)
  /-- YRN.ASYM writes a port's declared asymmetry. (R593) -/
  | yrnAsym (mb : Nat)
  /-- YRN.COUNTERS returns and optionally clears port counters. (R594) -/
  | yrnCounters (mb : Nat)
  /-- A fault report reaches the fault-window unit and is counted, classified and recorded. (R595) -/
  | faultEvent (src inst : Nat) (detail : List (BitVec 32))
  /-- A slot not marked lasting is freed once W has passed since its latest event. (R600) -/
  | windowSlotExpiry (slot : Nat)
  /-- A lasting outcome completes, clearing the mark or recording NO_SPARE. (R601) -/
  | lastingOutcomeEnd
  /-- FLT.STATUS returns fault-window status. (R613) -/
  | fltStatus (mb : Nat)
  /-- FLT.EVENTS returns event log records. (R614) -/
  | fltEvents (mb : Nat)
  /-- FLT.WINDOW writes a source's window and threshold. (R615) -/
  | fltWindow (mb : Nat)
  /-- FLT.SLOTS returns window slots. (R616) -/
  | fltSlots (mb : Nat)
  /-- FLT.COUNTERS returns and optionally clears fault counters. (R617) -/
  | fltCounters (mb : Nat)
  /-- The controller takes the next queued swatch whose run condition holds. (R624) -/
  | swatchStart (bound : Nat)
  /-- A swatch step ends; the next step starts or the swatch ends or is abandoned for budget. (R623) -/
  | swatchStepComplete (o : StepSeen)
  /-- A rotation step shifts a wale's SHIFT_AT at its scheduled instant. (R621) -/
  | rotationStep
  /-- SWT.STATUS returns swatch controller status. (R631) -/
  | swtStatus (mb : Nat)
  /-- SWT.RUN queues a swatch. (R632) -/
  | swtRun (mb : Nat)
  /-- SWT.RESULTS returns result records. (R633) -/
  | swtResults (mb : Nat)
  /-- SWT.ROTATE enables or stops the rotating spare. (R634) -/
  | swtRotate (mb : Nat)
  /-- SWT.FUSE starts programming soft repairs into fuses. (R635) -/
  | swtFuse (mb : Nat)
  /-- Every pending repair is fused and read back and SWT.FUSE completes. (R635) -/
  | swtFuseComplete
  /-- SWT.UNMARK erases every mark from MRAM. (R636) -/
  | swtUnmark (mb : Nat)
  /-- SWT.COUNTERS returns and optionally clears swatch counters. (R637) -/
  | swtCounters (mb : Nat)
  /-- Every millisecond the thermal island reads every sensor and updates rates, bands and failures. (R639) -/
  | sensorReading (base : Int) (xs : List SensorVal)
  /-- A tier cap steps down one point at the throttle temperature and every 100 ms thereafter. (R641) -/
  | capStepDown (c : Nat)
  /-- A tier cap steps up one point after 1 s at or below THROTTLE_C minus 3 °C. (R641) -/
  | capStepUp (c : Nat)
  /-- Every sensor below 85 °C for 60 s returns the device to BOOT. (R644) -/
  | tripRestart
  /-- THM.STATUS returns thermal status. (R647) -/
  | thmStatus (mb : Nat)
  /-- THM.SENSORS returns sensor registers. (R648) -/
  | thmSensors (mb : Nat)
  /-- THM.THROTTLE writes THROTTLE_C. (R649) -/
  | thmThrottle (mb : Nat)
  /-- THM.COUNTERS returns and optionally clears thermal counters. (R650) -/
  | thmCounters (mb : Nat)
  /-- Every 600 s, or at a trip or halt, Ubtor writes the accumulation to the other MRAM image. (R652) -/
  | gazImageWrite (ser : List SerSample)
  /-- An image write completes with IMSEQ one higher. (R652) -/
  | gazImageWriteComplete
  /-- GAZ.READ returns counters, histograms, records or registers. (R661) -/
  | gazRead (mb : Nat)
  /-- GAZ.EXPORT starts writing a signed gazetteer image to host memory. (R662) -/
  | gazExport (mb : Nat)
  /-- The export image has been written and GAZ.EXPORT completes. (R662) -/
  | gazExportComplete
  /-- GAZ.FLUSH starts an image write at once. (R663) -/
  | gazFlush (mb : Nat)
  /-- Each of 8 000 samples per second accumulates import or export energy per channel. (R667) -/
  | datumSample (v a : List Int)
  /-- VDD_DATUM falls through 1.70 V; accumulators are stored and POWER_DOWN logged. (R669) -/
  | datumPowerDown
  /-- The island restores its accumulators and logs POWER_UP. (R669) -/
  | datumPowerUp
  /-- Once per second the datum crystal is checked against the RC oscillator. (R668) -/
  | datumCrystalCheck (off : Option Int)
  /-- The mask ROM digest is recomputed and ROM_FAULT set on mismatch. (R665) -/
  | datumRomDigestCheck (digest : BitVec 32)
  /-- An OPEN frame opens a calibration session. (R672) -/
  | calOpen (operator : BitVec 32)
  /-- A MEASURE frame starts averaging raw codes over N samples. (R672) -/
  | calMeasure (ch n : Nat)
  /-- N samples have been averaged and the mean codes are replied. (R672) -/
  | calMeasureDone
  /-- A STAGE frame stores a staged calibration slot. (R672) -/
  | calStage (bs : List (BitVec 8))
  /-- A SEAL frame programs the staged slot into the lowest unprogrammed fuse slot. (R672) -/
  | calSeal (payload : List (BitVec 8))
  /-- The slot reads back and takes effect at the next sample, or the failure is logged. (R673) -/
  | sealProgramComplete (back : List (BitVec 8))
  /-- A CLOSE frame ends the session and discards anything staged. (R672) -/
  | calClose
  /-- DATUM_CAL_EN falls and the session closes as at CLOSE. (R673) -/
  | datumCalEnFall
  /-- Once per island second the island posts an energy record in MB28 if empty. (R676) -/
  | datumEnergyRecord
  /-- A waiting datum event is posted in MB29 once it is empty. (R676) -/
  | datumEventPost
  /-- An impulse is sent on DAT_PULSE for each energy quantum, at most one per 2 ms. (R674) -/
  | datumPulse
  /-- A read of DAT_ACC_LO latches DAT_ACC_HI for the same master. (R679) -/
  | datAccLoRead (m : Master) (c d : Nat)
  /-- DAT.STATUS returns datum identity and status. (R681) -/
  | datStatus (mb : Nat)
  /-- DAT.ENERGY returns the last energy record. (R681) -/
  | datEnergy (mb : Nat)
  /-- DAT.LOG returns datum events. (R681) -/
  | datLog (mb : Nat)
  /-- DAT.SPLIT returns informative tenant energy shares. (R681) -/
  | datSplit (mb : Nat)
  /-- A write to PIO_SET sets latch bits of pins within the writer's reach. (R689) -/
  | pioSet (m : Master) (b : Nat) (v : BitVec 32)
  /-- A write to PIO_CLR clears latch bits. (R689) -/
  | pioClr (m : Master) (b : Nat) (v : BitVec 32)
  /-- A write to PIO_TGL inverts latch bits. (R689) -/
  | pioTgl (m : Master) (b : Nat) (v : BitVec 32)
  /-- PIN.STATUS returns a pin's configuration. (R697) -/
  | pinStatus (mb : Nat)
  /-- PIN.ASSIGN changes a pin's owner, function, pull and enable by handover. (R698) -/
  | pinAssign (mb : Nat)
  /-- PIN.WRITE sets, clears or toggles latch bits of host-owned pins. (R699) -/
  | pinWrite (mb : Nat)
  /-- PIN.READ returns a bank's input, output and enable registers. (R697) -/
  | pinRead (mb : Nat)
  /-- PIN.PAD writes drive, slew and open-drain settings. (R700) -/
  | pinPad (mb : Nat)
  /-- PIN.COUNTERS returns and optionally clears pin counters. (R701) -/
  | pinCounters (mb : Nat)
  /-- A read of LNE_CHKBITS_LO latches compared bits [63:32]. (R379) -/
  | lneChkbitsLoRead (n : Nat)
  /-- Setting LOCK in LNE_CTRL makes LNE_RXEQ and LNE_TXFFE read only. (R379) -/
  | lneCtrlLock (m : Master) (n : Nat) (v : Word)
  /-- LNE.STATUS returns a lane's registers and checker counts. (R381) -/
  | lneStatus (mb : Nat)
  /-- LNE.POWER writes the commanded power state of a group. (R382) -/
  | lnePower (mb : Nat)
  /-- LNE.RETRAIN takes a group to TRAINING. (R383) -/
  | lneRetrain (mb : Nat)
  /-- LNE.BINDOFF binds off a group's streams and takes its lanes DOWN. (R384) -/
  | lneBindoff (mb : Nat)
  /-- LNE.UP ends test and starts training of a group. (R385) -/
  | lneUp (mb : Nat)
  /-- LNE.TEST puts a lane in TEST with a pattern and loop-back. (R386) -/
  | lneTest (mb : Nat)
  /-- LNE.EQ writes receive and transmit equalisation. (R387) -/
  | lneEq (mb : Nat)
  /-- LNE.ADAPT freezes or resumes adaptation. (R388) -/
  | lneAdapt (mb : Nat)
  /-- LNE.PATTERN writes the user pattern and test settings. (R389) -/
  | lnePattern (mb : Nat)
  /-- LNE.COUNTERS returns and optionally clears lane counters. (R390) -/
  | lneCounters (mb : Nat)
  /-- A tile issues a NOP slot, which has no effect but advances the issuing cycle. (R130) -/
  | nop (t u : Nat)
  /-- Ubtor reads a posted message whose CODE is undefined or whose header fails checks 1 to 3 and answers
  BAD_COMMAND or BAD_LENGTH. (R72) -/
  | undefinedCommand (mb : Nat)
  /-- Two bank-clock cycles after H the new OWNER, FUNC, PULL and EN apply and HANDOVER clears, and PIN.ASSIGN
  returns DONE. (R690) -/
  | pinHandoverComplete (p : Nat)
  /-- A reference input returns within ±300 ppm of its surveyed frequency, REF_OK is set and the lane PLL relocks
  and the lane retrains. (R362) -/
  | refClockRestored (k : Nat)
  /-- A test checker sees 64 consecutive error-free bits, sets CHK_LOCK (or CHK_INV) and starts counting errors
  and compared bits. (R376) -/
  | checkerLock (n : Nat) (inv : Bool)
  /-- DATUM_CAL_EN rises; the datum island sets CAL, starts accepting calibration frames and marks its records
  with CAL. (R96) -/
  | datumCalEnRise
  /-- A calibration frame with a bad CRC or undefined TYPE arrives while DATUM_CAL_EN is high and is answered with
  status 1. (R672) -/
  | calBadFrame (type : Nat)
  /-- At an active edge of LCK0 to LCK3 a sheet's flip-flops take D, keep their value or take SRVAL by their
  enables and set/reset. (R182) -/
  | flipFlopClockEdge (n tree : Nat) (falling : Bool) (high : List Net)
  deriving DecidableEq, Repr

end Sys2Proof
end

