-- ==== Sys2Proof/Decode.lean ====
section
/-! DEFINITION. Commands from words. The table gives no row any bits (the QD7128 is commanded by register accesses, mailbox messages and
events, not by instruction words), so no word spells a command. -/

namespace Sys2Proof

/-- The command that a word of `nbits` bits spells by the opcode table: none, since every row of the table has no bit fields. -/
def decodeTableWord (_nbits _w : Nat) : Option Instr := none

end Sys2Proof
end

