-- ==== Sys2Proof/Machine/Regs.lean ====
section
/-! DEFINITION. The register map: one address function per register, one bit field per named field, and the
table of every register's place, reset domain, access-code masks (Table 0-4) and reset value, taken from the
register tables of spec/02 to spec/24. Reset values marked F and S there are named in notes/assumptions/2.md. -/

namespace Sys2Proof.Machine

/-- Reset domains (R24). -/
inductive Dom where
  | powerOn | device | island
  deriving DecidableEq, Repr

/-- One register family: name, address of its first member, (count, stride) of each index from the outermost in,
reset domain, the bits of each access code of Table 0-4, and the reset value. -/
structure RegInfo where
  name : String
  base : Nat
  dims : List (Nat × Nat)
  dom : Dom
  rw : Nat
  rwl : Nat
  w1c : Nat
  w1s : Nat
  pulse : Nat
  reset : Nat
  deriving DecidableEq, Repr

def R.MBX_STATUS : Nat := 0x2000
def F.MBX_STATUS_FULL : Fld := ⟨31, 0⟩
def R.MBX_ACK : Nat := 0x2004
def F.MBX_ACK_ACK : Fld := ⟨31, 0⟩
def R.MBX_REJECT : Nat := 0x2008
def F.MBX_REJECT_REJECT : Fld := ⟨31, 0⟩
def R.MBX_ACKCODE (n : Nat) : Nat := 0x2100 + 0x4 * n
def F.MBX_ACKCODE_ACK : Fld := ⟨31, 31⟩
def F.MBX_ACKCODE_CODE : Fld := ⟨15, 0⟩
def R.DEV_ID : Nat := 0x3000
def F.DEV_ID_PART : Fld := ⟨31, 16⟩
def F.DEV_ID_STEP : Fld := ⟨15, 12⟩
def F.DEV_ID_GRADE : Fld := ⟨11, 8⟩
def R.DEV_STATE : Nat := 0x3004
def F.DEV_STATE_FW_SLOT : Fld := ⟨15, 14⟩
def F.DEV_STATE_EXPERT_OPEN : Fld := ⟨13, 13⟩
def F.DEV_STATE_SURVEY_COMMITTED : Fld := ⟨12, 12⟩
def F.DEV_STATE_SYS_READY : Fld := ⟨8, 8⟩
def F.DEV_STATE_STATE : Fld := ⟨3, 0⟩
def R.DEV_STAMP_LO : Nat := 0x3008
def F.DEV_STAMP_LO_STAMP_LO : Fld := ⟨31, 0⟩
def R.DEV_STAMP_HI : Nat := 0x300c
def F.DEV_STAMP_HI_STAMP_HI : Fld := ⟨31, 0⟩
def R.HALT_CAUSE : Nat := 0x3010
def F.HALT_CAUSE_VALID : Fld := ⟨31, 31⟩
def F.HALT_CAUSE_CHANNEL : Fld := ⟨23, 16⟩
def F.HALT_CAUSE_CAUSE : Fld := ⟨7, 0⟩
def R.TRIP_CAUSE : Nat := 0x3014
def F.TRIP_CAUSE_VALID : Fld := ⟨31, 31⟩
def F.TRIP_CAUSE_SENSOR : Fld := ⟨23, 16⟩
def F.TRIP_CAUSE_KIND : Fld := ⟨1, 0⟩
def R.WAL_CTRL (w : Nat) : Nat := 0xa00000 + 0x4000 * w
def F.WAL_CTRL_LOCK : Fld := ⟨31, 31⟩
def F.WAL_CTRL_GATE_EN : Fld := ⟨1, 1⟩
def F.WAL_CTRL_FREEZE : Fld := ⟨0, 0⟩
def R.WAL_STATUS (w : Nat) : Nat := 0xa00004 + 0x4000 * w
def F.WAL_STATUS_DONE : Fld := ⟨31, 16⟩
def F.WAL_STATUS_NULL : Fld := ⟨15, 0⟩
def R.WAL_SHIFT (w : Nat) : Nat := 0xa00008 + 0x4000 * w
def F.WAL_SHIFT_SHIFTING : Fld := ⟨31, 31⟩
def F.WAL_SHIFT_FUSED : Fld := ⟨30, 30⟩
def F.WAL_SHIFT_SHIFT_AT : Fld := ⟨4, 0⟩
def R.WAL_SWITCH (w : Nat) : Nat := 0xa0000c + 0x4000 * w
def F.WAL_SWITCH_TILES : Fld := ⟨31, 16⟩
def F.WAL_SWITCH_GO : Fld := ⟨8, 8⟩
def F.WAL_SWITCH_PATTERN : Fld := ⟨3, 0⟩
def R.WAL_ACTIVE (w : Nat) (k : Nat) : Nat := 0xa00010 + 0x4000 * w + 0x4 * k
def F.WAL_ACTIVE_PAT (j : Nat) : Fld := ⟨4*j + 3, 4*j⟩
def R.WAL_BANKMAP (w : Nat) (p : Nat) : Nat := 0xa00040 + 0x4000 * w + 0x4 * p
def F.WAL_BANKMAP_V3 : Fld := ⟨19, 19⟩
def F.WAL_BANKMAP_OWN3 : Fld := ⟨18, 15⟩
def F.WAL_BANKMAP_V2 : Fld := ⟨14, 14⟩
def F.WAL_BANKMAP_OWN2 : Fld := ⟨13, 10⟩
def F.WAL_BANKMAP_V1 : Fld := ⟨9, 9⟩
def F.WAL_BANKMAP_OWN1 : Fld := ⟨8, 5⟩
def F.WAL_BANKMAP_V0 : Fld := ⟨4, 4⟩
def F.WAL_BANKMAP_OWN0 : Fld := ⟨3, 0⟩
def R.WAL_STICKY (w : Nat) (p : Nat) : Nat := 0xa00080 + 0x4000 * w + 0x4 * p
def F.WAL_STICKY_BANKOWN : Fld := ⟨4, 4⟩
def F.WAL_STICKY_BADPAT : Fld := ⟨3, 3⟩
def F.WAL_STICKY_FPINV : Fld := ⟨2, 2⟩
def F.WAL_STICKY_ACCOV : Fld := ⟨1, 1⟩
def F.WAL_STICKY_SAT : Fld := ⟨0, 0⟩
def R.WAL_PATVALID (w : Nat) (p : Nat) : Nat := 0xa000c0 + 0x4000 * w + 0x4 * p
def F.WAL_PATVALID_VALID : Fld := ⟨15, 0⟩
def R.WAL_GATE (w : Nat) (g : Nat) : Nat := 0xa00100 + 0x4000 * w + 0x4 * g
def F.WAL_GATE_EN : Fld := ⟨31, 31⟩
def F.WAL_GATE_OUT : Fld := ⟨30, 30⟩
def F.WAL_GATE_FILL : Fld := ⟨18, 12⟩
def F.WAL_GATE_STREAM : Fld := ⟨11, 0⟩
def R.WAL_COUNT (w : Nat) (k : Nat) : Nat := 0xa00180 + 0x4000 * w + 0x4 * k
def F.WAL_COUNT_COUNT : Fld := ⟨31, 0⟩
def R.SHT_CTRL (s : Nat) : Nat := 0x800000 + 0x10000 * s
def F.SHT_CTRL_LOCK : Fld := ⟨31, 31⟩
def F.SHT_CTRL_FREEZE : Fld := ⟨0, 0⟩
def R.SHT_STATUS (s : Nat) : Nat := 0x800004 + 0x10000 * s
def F.SHT_STATUS_ISLAND : Fld := ⟨31, 24⟩
def F.SHT_STATUS_MERGED : Fld := ⟨23, 23⟩
def F.SHT_STATUS_RESET_HELD : Fld := ⟨22, 22⟩
def F.SHT_STATUS_FIRST_PENDING : Fld := ⟨15, 12⟩
def F.SHT_STATUS_PLANE_VALID : Fld := ⟨11, 8⟩
def F.SHT_STATUS_NONE_ACTIVE : Fld := ⟨2, 2⟩
def F.SHT_STATUS_ACTIVE_PLANE : Fld := ⟨1, 0⟩
def R.SHT_CLK (s : Nat) : Nat := 0x800008 + 0x10000 * s
def F.SHT_CLK_DIV3 : Fld := ⟨19, 16⟩
def F.SHT_CLK_DIV2 : Fld := ⟨15, 12⟩
def F.SHT_CLK_DIV1 : Fld := ⟨11, 8⟩
def F.SHT_CLK_ROOT : Fld := ⟨3, 0⟩
def R.SHT_REPAIR (s : Nat) : Nat := 0x80000c + 0x10000 * s
def F.SHT_REPAIR_FUSED : Fld := ⟨31, 31⟩
def F.SHT_REPAIR_SPARE_AT1 : Fld := ⟨15, 8⟩
def F.SHT_REPAIR_SPARE_AT0 : Fld := ⟨7, 0⟩
def R.SHT_STICKY (s : Nat) : Nat := 0x800010 + 0x10000 * s
def F.SHT_STICKY_RISER_CONFLICT : Fld := ⟨2, 2⟩
def F.SHT_STICKY_NOCREDIT : Fld := ⟨1, 1⟩
def F.SHT_STICKY_BRAM_UE : Fld := ⟨0, 0⟩
def R.SHT_CAP (s : Nat) : Nat := 0x800014 + 0x10000 * s
def F.SHT_CAP_STATE : Fld := ⟨31, 30⟩
def F.SHT_CAP_TRIG_EN : Fld := ⟨8, 8⟩
def F.SHT_CAP_IN_SET : Fld := ⟨0, 0⟩
def R.SHT_STAMP_LO (s : Nat) : Nat := 0x800018 + 0x10000 * s
def F.SHT_STAMP_LO_STAMP_LO : Fld := ⟨31, 0⟩
def R.SHT_STAMP_HI (s : Nat) : Nat := 0x80001c + 0x10000 * s
def F.SHT_STAMP_HI_STAMP_HI : Fld := ⟨31, 0⟩
def R.SHT_COUNT (s : Nat) (k : Nat) : Nat := 0x800040 + 0x10000 * s + 0x4 * k
def F.SHT_COUNT_COUNT : Fld := ⟨31, 0⟩
def R.LDR_CTRL : Nat := 0x70000
def F.LDR_CTRL_LOCK : Fld := ⟨31, 31⟩
def R.LDR_STATUS : Nat := 0x70004
def F.LDR_STATUS_WRITING : Fld := ⟨31, 31⟩
def F.LDR_STATUS_WR_CTX : Fld := ⟨29, 28⟩
def F.LDR_STATUS_FREE : Fld := ⟨3, 0⟩
def R.LDR_CASTON : Nat := 0x70008
def F.LDR_CASTON_ENDED : Fld := ⟨31, 31⟩
def F.LDR_CASTON_FALLBACK : Fld := ⟨30, 30⟩
def F.LDR_CASTON_BENCH_OK : Fld := ⟨29, 29⟩
def F.LDR_CASTON_SOURCE : Fld := ⟨28, 27⟩
def F.LDR_CASTON_REASON : Fld := ⟨23, 16⟩
def F.LDR_CASTON_CODE : Fld := ⟨15, 0⟩
def R.LDR_FUSE : Nat := 0x7000c
def F.LDR_FUSE_REVOKED : Fld := ⟨31, 28⟩
def F.LDR_FUSE_PRESENT : Fld := ⟨27, 24⟩
def F.LDR_FUSE_ENC_KEY : Fld := ⟨16, 16⟩
def F.LDR_FUSE_SVN_MIN : Fld := ⟨15, 0⟩
def R.LDR_CTX (c : Nat) : Nat := 0x70010 + 0x4 * c
def F.LDR_CTX_STATE : Fld := ⟨31, 28⟩
def F.LDR_CTX_SOURCE : Fld := ⟨27, 26⟩
def F.LDR_CTX_ENC : Fld := ⟨25, 25⟩
def F.LDR_CTX_PORT_SHEET : Fld := ⟨24, 20⟩
def F.LDR_CTX_PLANE : Fld := ⟨19, 18⟩
def F.LDR_CTX_REASON : Fld := ⟨15, 8⟩
def F.LDR_CTX_CLASS : Fld := ⟨5, 4⟩
def R.LDR_CTX_BYTES (c : Nat) : Nat := 0x70020 + 0x4 * c
def F.LDR_CTX_BYTES_BYTES : Fld := ⟨31, 0⟩
def R.LDR_CTX_WIRE (c : Nat) : Nat := 0x70030 + 0x4 * c
def F.LDR_CTX_WIRE_WIRE : Fld := ⟨31, 0⟩
def R.LDR_GRANT_SHEETS (s : Nat) : Nat := 0x70100 + 0x10 * s
def F.LDR_GRANT_SHEETS_SHEETS : Fld := ⟨31, 0⟩
def R.LDR_GRANT_WALES_LO (s : Nat) : Nat := 0x70104 + 0x10 * s
def F.LDR_GRANT_WALES_LO_WALES_LO : Fld := ⟨31, 0⟩
def R.LDR_GRANT_WALES_HI (s : Nat) : Nat := 0x70108 + 0x10 * s
def F.LDR_GRANT_WALES_HI_EN : Fld := ⟨31, 31⟩
def F.LDR_GRANT_WALES_HI_WALES_HI : Fld := ⟨7, 0⟩
def R.LDR_COUNT (k : Nat) : Nat := 0x70300 + 0x4 * k
def F.LDR_COUNT_COUNT : Fld := ⟨31, 0⟩
def R.STR_CTRL : Nat := 0xe8000
def F.STR_CTRL_WR_REFUSED : Fld := ⟨0, 0⟩
def R.STR_SEL : Nat := 0xe8004
def F.STR_SEL_STREAM : Fld := ⟨11, 0⟩
def R.STR_CFG : Nat := 0xe8008
def F.STR_CFG_OPEN : Fld := ⟨31, 31⟩
def F.STR_CFG_SCHED : Fld := ⟨30, 30⟩
def F.STR_CFG_BUFFERED : Fld := ⟨29, 29⟩
def F.STR_CFG_TENANT : Fld := ⟨28, 23⟩
def F.STR_CFG_GCRED : Fld := ⟨22, 16⟩
def F.STR_CFG_RELEASE_LEN : Fld := ⟨15, 0⟩
def R.STR_ENDS : Nat := 0xe800c
def F.STR_ENDS_PRODUCER : Fld := ⟨31, 16⟩
def F.STR_ENDS_CONSUMER : Fld := ⟨15, 0⟩
def R.STR_RING_BASE : Nat := 0xe8010
def F.STR_RING_BASE_BASE : Fld := ⟨31, 12⟩
def R.STR_RING_LEN : Nat := 0xe8014
def F.STR_RING_LEN_LEN : Fld := ⟨23, 0⟩
def R.STR_LATE : Nat := 0xe8018
def F.STR_LATE_LATE : Fld := ⟨19, 0⟩
def R.STR_STATUS : Nat := 0xe801c
def F.STR_STATUS_STATE : Fld := ⟨31, 30⟩
def F.STR_STATUS_SEAM_QUEUED : Fld := ⟨29, 29⟩
def F.STR_STATUS_FILL : Fld := ⟨23, 0⟩
def R.STR_SEQ : Nat := 0xe8020
def F.STR_SEQ_PEND : Fld := ⟨30, 24⟩
def F.STR_SEQ_DSEQ : Fld := ⟨23, 0⟩
def R.STR_COUNT (k : Nat) : Nat := 0xe8040 + 0x4 * k
def F.STR_COUNT_COUNT : Fld := ⟨31, 0⟩
def R.STR_OPENMAP (m : Nat) : Nat := 0xe8200 + 0x4 * m
def F.STR_OPENMAP_NOT_CLOSED : Fld := ⟨31, 0⟩
def R.AIR_STATUS : Nat := 0x80000
def F.AIR_STATUS_RUN : Fld := ⟨31, 31⟩
def F.AIR_STATUS_ACTIVE : Fld := ⟨30, 30⟩
def F.AIR_STATUS_SWAP_PENDING : Fld := ⟨29, 29⟩
def F.AIR_STATUS_TAPS : Fld := ⟨15, 0⟩
def R.AIR_TIME_LO : Nat := 0x80004
def F.AIR_TIME_LO_TIME_LO : Fld := ⟨31, 0⟩
def R.AIR_TIME_HI : Nat := 0x80008
def F.AIR_TIME_HI_TIME_HI : Fld := ⟨31, 0⟩
def R.AIR_PERIOD (t : Nat) : Nat := 0x80010 + 0x4 * t
def F.AIR_PERIOD_PERIOD : Fld := ⟨26, 0⟩
def R.AIR_PHASE (t : Nat) : Nat := 0x80018 + 0x4 * t
def F.AIR_PHASE_PHASE : Fld := ⟨26, 0⟩
def R.AIR_LEN (t : Nat) : Nat := 0x80020 + 0x4 * t
def F.AIR_LEN_STATE : Fld := ⟨31, 30⟩
def F.AIR_LEN_COUNT : Fld := ⟨12, 0⟩
def R.AIR_SWAP_LO : Nat := 0x80028
def F.AIR_SWAP_LO_SWAP_LO : Fld := ⟨31, 0⟩
def R.AIR_SWAP_HI : Nat := 0x8002c
def F.AIR_SWAP_HI_SWAP_HI : Fld := ⟨31, 0⟩
def R.AIR_BCAST : Nat := 0x80030
def F.AIR_BCAST_VALUE : Fld := ⟨31, 0⟩
def R.AIR_IDLE (b : Nat) : Nat := 0x80040 + 0x4 * b
def F.AIR_IDLE_LEVEL : Fld := ⟨31, 0⟩
def R.AIR_CNT (k : Nat) : Nat := 0x80080 + 0x4 * k
def F.AIR_CNT_COUNT : Fld := ⟨31, 0⟩
def R.LNE_CTRL (n : Nat) : Nat := 0x400000 + 0x4000 * n
def F.LNE_CTRL_LOCK : Fld := ⟨31, 31⟩
def F.LNE_CTRL_ADAPT_FREEZE : Fld := ⟨5, 5⟩
def F.LNE_CTRL_POWER : Fld := ⟨1, 0⟩
def R.LNE_STATUS (n : Nat) : Nat := 0x400004 + 0x4000 * n
def F.LNE_STATUS_STATE : Fld := ⟨31, 28⟩
def F.LNE_STATUS_PLL_LOCK : Fld := ⟨27, 27⟩
def F.LNE_STATUS_CDR_LOCK : Fld := ⟨26, 26⟩
def F.LNE_STATUS_SIGNAL : Fld := ⟨25, 25⟩
def F.LNE_STATUS_TX_IDLE : Fld := ⟨24, 24⟩
def F.LNE_STATUS_FLOOR : Fld := ⟨23, 22⟩
def F.LNE_STATUS_REF_OK : Fld := ⟨21, 21⟩
def R.LNE_RATE (n : Nat) : Nat := 0x400008 + 0x4000 * n
def F.LNE_RATE_PAM4 : Fld := ⟨31, 31⟩
def F.LNE_RATE_D_LOG : Fld := ⟨30, 28⟩
def F.LNE_RATE_N : Fld := ⟨24, 16⟩
def F.LNE_RATE_CLASS : Fld := ⟨7, 4⟩
def F.LNE_RATE_GROUP : Fld := ⟨3, 0⟩
def R.LNE_RXEQ (n : Nat) : Nat := 0x40000c + 0x4000 * n
def F.LNE_RXEQ_DFE_EN : Fld := ⟨8, 8⟩
def F.LNE_RXEQ_CTLE_NOW : Fld := ⟨7, 4⟩
def F.LNE_RXEQ_CTLE : Fld := ⟨3, 0⟩
def R.LNE_DFE (n : Nat) (k : Nat) : Nat := 0x400010 + 0x4000 * n + 0x4 * k
def F.LNE_DFE_TAP (j : Nat) : Fld := ⟨8*j + 7, 8*j⟩
def R.LNE_TXFFE (n : Nat) : Nat := 0x400020 + 0x4000 * n
def F.LNE_TXFFE_CM2 : Fld := ⟨29, 24⟩
def F.LNE_TXFFE_CM1 : Fld := ⟨21, 16⟩
def F.LNE_TXFFE_C0 : Fld := ⟨13, 8⟩
def F.LNE_TXFFE_C1 : Fld := ⟨5, 0⟩
def R.LNE_MAP (n : Nat) : Nat := 0x400024 + 0x4000 * n
def F.LNE_MAP_RX_INV_APPLIED : Fld := ⟨31, 31⟩
def F.LNE_MAP_TX_INV : Fld := ⟨30, 30⟩
def F.LNE_MAP_POS_FOUND : Fld := ⟨29, 28⟩
def F.LNE_MAP_POS_EXPECTED : Fld := ⟨27, 26⟩
def F.LNE_MAP_POS_DETECTED : Fld := ⟨25, 25⟩
def R.LNE_TEST (n : Nat) : Nat := 0x400028 + 0x4000 * n
def F.LNE_TEST_GEN_EN : Fld := ⟨31, 31⟩
def F.LNE_TEST_CHK_EN : Fld := ⟨30, 30⟩
def F.LNE_TEST_LOOP : Fld := ⟨29, 28⟩
def F.LNE_TEST_GEN_PAT : Fld := ⟨27, 24⟩
def F.LNE_TEST_CHK_PAT : Fld := ⟨23, 20⟩
def F.LNE_TEST_CHK_LOCK : Fld := ⟨19, 19⟩
def F.LNE_TEST_CHK_INV : Fld := ⟨18, 18⟩
def R.LNE_UPAT_LO (n : Nat) : Nat := 0x40002c + 0x4000 * n
def F.LNE_UPAT_LO_UPAT_LO : Fld := ⟨31, 0⟩
def R.LNE_UPAT_HI (n : Nat) : Nat := 0x400030 + 0x4000 * n
def F.LNE_UPAT_HI_UPAT_HI : Fld := ⟨31, 0⟩
def R.LNE_EYE (n : Nat) : Nat := 0x400034 + 0x4000 * n
def F.LNE_EYE_H_MARGIN : Fld := ⟨23, 16⟩
def F.LNE_EYE_V_MARGIN : Fld := ⟨15, 8⟩
def R.LNE_COUNT (n : Nat) (k : Nat) : Nat := 0x400040 + 0x4000 * n + 0x4 * k
def F.LNE_COUNT_COUNT : Fld := ⟨31, 0⟩
def R.LNE_CHKBITS_LO (n : Nat) : Nat := 0x400060 + 0x4000 * n
def F.LNE_CHKBITS_LO_BITS_LO : Fld := ⟨31, 0⟩
def R.LNE_CHKBITS_HI (n : Nat) : Nat := 0x400064 + 0x4000 * n
def F.LNE_CHKBITS_HI_BITS_HI : Fld := ⟨31, 0⟩
def R.FHE_MAC (m : Nat) : Nat := 0x120000 + 0x4 * m
def F.FHE_MAC_MODE : Fld := ⟨31, 28⟩
def F.FHE_MAC_UP : Fld := ⟨27, 27⟩
def F.FHE_MAC_AN_DONE : Fld := ⟨26, 26⟩
def F.FHE_MAC_FEC_ON : Fld := ⟨25, 25⟩
def R.FHE_MCOUNT (m : Nat) (k : Nat) : Nat := 0x120100 + 0x20 * m + 0x4 * k
def F.FHE_MCOUNT_COUNT : Fld := ⟨31, 0⟩
def R.FHE_FLOW_KEY (e : Nat) : Nat := 0x121000 + 0x10 * e
def F.FHE_FLOW_KEY_VALID : Fld := ⟨31, 31⟩
def F.FHE_FLOW_KEY_KIND : Fld := ⟨30, 28⟩
def F.FHE_FLOW_KEY_MAC : Fld := ⟨27, 24⟩
def F.FHE_FLOW_KEY_EARLY : Fld := ⟨23, 16⟩
def F.FHE_FLOW_KEY_EAXC : Fld := ⟨15, 0⟩
def R.FHE_FLOW_CFG (e : Nat) : Nat := 0x121004 + 0x10 * e
def F.FHE_FLOW_CFG_MU : Fld := ⟨31, 30⟩
def F.FHE_FLOW_CFG_COMP : Fld := ⟨29, 28⟩
def F.FHE_FLOW_CFG_WIDTH : Fld := ⟨27, 24⟩
def F.FHE_FLOW_CFG_WIN_US : Fld := ⟨23, 20⟩
def F.FHE_FLOW_CFG_REL_OFS : Fld := ⟨19, 0⟩
def R.FHE_FLOW_DST_LO (e : Nat) : Nat := 0x121008 + 0x10 * e
def F.FHE_FLOW_DST_LO_DST_LO : Fld := ⟨31, 0⟩
def R.FHE_FLOW_DST_HI (e : Nat) : Nat := 0x12100c + 0x10 * e
def F.FHE_FLOW_DST_HI_TCI : Fld := ⟨31, 16⟩
def F.FHE_FLOW_DST_HI_DST_HI : Fld := ⟨15, 0⟩
def R.FHE_FCOUNT (e : Nat) (k : Nat) : Nat := 0x124000 + 0x20 * e + 0x4 * k
def F.FHE_FCOUNT_COUNT : Fld := ⟨31, 0⟩
def R.JSD_SYSREF : Nat := 0x130000
def F.JSD_SYSREF_MODE : Fld := ⟨31, 30⟩
def F.JSD_SYSREF_COUNT : Fld := ⟨27, 24⟩
def F.JSD_SYSREF_PERIOD : Fld := ⟨19, 0⟩
def R.JSD_LINK (k : Nat) : Nat := 0x130100 + 0x10 * k
def F.JSD_LINK_VALID : Fld := ⟨31, 31⟩
def F.JSD_LINK_LANEID : Fld := ⟨30, 30⟩
def F.JSD_LINK_RATE_SEL : Fld := ⟨29, 28⟩
def F.JSD_LINK_L : Fld := ⟨27, 24⟩
def F.JSD_LINK_M : Fld := ⟨23, 18⟩
def F.JSD_LINK_NP16 : Fld := ⟨17, 17⟩
def F.JSD_LINK_F : Fld := ⟨16, 10⟩
def F.JSD_LINK_E : Fld := ⟨9, 6⟩
def F.JSD_LINK_G_LOG : Fld := ⟨5, 4⟩
def R.JSD_LAT (k : Nat) : Nat := 0x130104 + 0x10 * k
def F.JSD_LAT_CONV_TX : Fld := ⟨31, 20⟩
def F.JSD_LAT_CONV_RX : Fld := ⟨19, 8⟩
def R.JSD_RXWIN (k : Nat) : Nat := 0x130108 + 0x10 * k
def F.JSD_RXWIN_OPEN : Fld := ⟨31, 16⟩
def F.JSD_RXWIN_LEN : Fld := ⟨15, 0⟩
def R.JSD_STATUS (k : Nat) : Nat := 0x13010c + 0x10 * k
def F.JSD_STATUS_STATE : Fld := ⟨31, 29⟩
def F.JSD_STATUS_TX_MUTED : Fld := ⟨28, 28⟩
def F.JSD_STATUS_RX_OPEN : Fld := ⟨27, 27⟩
def F.JSD_STATUS_DEV_TX : Fld := ⟨19, 10⟩
def F.JSD_STATUS_DEV_RX : Fld := ⟨9, 0⟩
def R.JSD_COUNT (k : Nat) (i : Nat) : Nat := 0x130200 + 0x20 * k + 0x4 * i
def F.JSD_COUNT_COUNT : Fld := ⟨31, 0⟩
def R.MER_STATUS : Nat := 0x40000
def F.MER_STATUS_STATE : Fld := ⟨31, 28⟩
def F.MER_STATUS_REF : Fld := ⟨27, 24⟩
def F.MER_STATUS_HOLD_MODE : Fld := ⟨23, 22⟩
def F.MER_STATUS_SYNCE_OK : Fld := ⟨21, 21⟩
def F.MER_STATUS_MODEL_VALID : Fld := ⟨20, 20⟩
def F.MER_STATUS_TEMP_LEARNED : Fld := ⟨19, 19⟩
def F.MER_STATUS_SENSOR_OK : Fld := ⟨18, 18⟩
def F.MER_STATUS_BUDGET_MUTE : Fld := ⟨17, 17⟩
def F.MER_STATUS_GNSS_OK : Fld := ⟨16, 16⟩
def F.MER_STATUS_PTP_OK : Fld := ⟨15, 15⟩
def F.MER_STATUS_CLOCK_CLASS : Fld := ⟨7, 0⟩
def R.MER_CFG : Nat := 0x40004
def F.MER_CFG_PROFILE : Fld := ⟨31, 28⟩
def F.MER_CFG_MAC : Fld := ⟨27, 24⟩
def F.MER_CFG_DOMAIN : Fld := ⟨23, 16⟩
def F.MER_CFG_SYNCE_EN : Fld := ⟨15, 15⟩
def F.MER_CFG_SYNCE_LANE : Fld := ⟨14, 8⟩
def R.MER_TE : Nat := 0x40008
def F.MER_TE_TE : Fld := ⟨31, 0⟩
def R.MER_BOUND : Nat := 0x4000c
def F.MER_BOUND_BOUND : Fld := ⟨31, 0⟩
def R.MER_BUDGET : Nat := 0x40010
def F.MER_BUDGET_BUDGET_NS : Fld := ⟨15, 0⟩
def R.MER_HOLD : Nat := 0x40014
def F.MER_HOLD_SECONDS : Fld := ⟨31, 0⟩
def R.MER_TEMP : Nat := 0x40018
def F.MER_TEMP_TEMP : Fld := ⟨15, 0⟩
def R.MER_MODEL : Nat := 0x4001c
def F.MER_MODEL_LEARN_DAYS : Fld := ⟨31, 16⟩
def F.MER_MODEL_LOCKED_H : Fld := ⟨15, 0⟩
def R.MER_AGE : Nat := 0x40020
def F.MER_AGE_D : Fld := ⟨31, 0⟩
def R.MER_LEAP : Nat := 0x40024
def F.MER_LEAP_DIR : Fld := ⟨9, 9⟩
def F.MER_LEAP_PENDING : Fld := ⟨8, 8⟩
def F.MER_LEAP_LEAP : Fld := ⟨7, 0⟩
def R.MER_OUT : Nat := 0x40028
def F.MER_OUT_SQUELCH : Fld := ⟨31, 31⟩
def F.MER_OUT_TOD_ZDA : Fld := ⟨30, 30⟩
def F.MER_OUT_PPS_WIDTH : Fld := ⟨29, 24⟩
def F.MER_OUT_PPS_OFS : Fld := ⟨15, 0⟩
def R.MER_IRO : Nat := 0x4002c
def F.MER_IRO_TRIM_SRC : Fld := ⟨31, 30⟩
def F.MER_IRO_ERROR : Fld := ⟨15, 8⟩
def F.MER_IRO_IRO_TRIM : Fld := ⟨7, 0⟩
def R.MER_GNSS : Nat := 0x40030
def F.MER_GNSS_DELAY_NS : Fld := ⟨15, 0⟩
def R.MER_PTP_OWN : Nat := 0x40034
def F.MER_PTP_OWN_ADDR : Fld := ⟨31, 0⟩
def R.MER_PTP_GM : Nat := 0x40038
def F.MER_PTP_GM_ADDR : Fld := ⟨31, 0⟩
def R.MER_PTP_HOP_LO : Nat := 0x4003c
def F.MER_PTP_HOP_LO_HOP_LO : Fld := ⟨31, 0⟩
def R.MER_PTP_HOP_HI : Nat := 0x40060
def F.MER_PTP_HOP_HI_HOP_HI : Fld := ⟨15, 0⟩
def R.MER_COUNT (k : Nat) : Nat := 0x40040 + 0x4 * k
def F.MER_COUNT_COUNT : Fld := ⟨31, 0⟩
def R.MER_BIN (i : Nat) : Nat := 0x40100 + 0x4 * i
def F.MER_BIN_V : Fld := ⟨31, 8⟩
def F.MER_BIN_N : Fld := ⟨7, 0⟩
def R.CKI_STATUS : Nat := 0x10000
def F.CKI_STATUS_XTAL_OK : Fld := ⟨31, 31⟩
def F.CKI_STATUS_XTAL_FAULT : Fld := ⟨30, 30⟩
def F.CKI_STATUS_IRO_TRIMMED : Fld := ⟨29, 29⟩
def F.CKI_STATUS_STAMP_XTAL : Fld := ⟨28, 28⟩
def F.CKI_STATUS_REFUSED : Fld := ⟨27, 27⟩
def F.CKI_STATUS_XTAL_PPM : Fld := ⟨7, 0⟩
def R.CKI_GATE_TIER : Nat := 0x10004
def F.CKI_GATE_TIER_STITCH : Fld := ⟨3, 3⟩
def F.CKI_GATE_TIER_FABRIC : Fld := ⟨2, 2⟩
def F.CKI_GATE_TIER_STORE : Fld := ⟨1, 1⟩
def F.CKI_GATE_TIER_BASE : Fld := ⟨0, 0⟩
def R.CKI_GATE_GRP : Nat := 0x10008
def F.CKI_GATE_GRP_GROUP : Fld := ⟨21, 0⟩
def R.CKI_GATE_ISL (k : Nat) : Nat := 0x10010 + 0x4 * k
def F.CKI_GATE_ISL_ON : Fld := ⟨31, 0⟩
def R.CKI_ON_ISL (k : Nat) : Nat := 0x10030 + 0x4 * k
def F.CKI_ON_ISL_RUNNING : Fld := ⟨31, 0⟩
def R.CKI_REFLOST (k : Nat) : Nat := 0x10050 + 0x4 * k
def F.CKI_REFLOST_REFLOST : Fld := ⟨31, 0⟩
def R.CKI_COUNT (k : Nat) : Nat := 0x10080 + 0x4 * k
def F.CKI_COUNT_COUNT : Fld := ⟨31, 0⟩
def R.PWR_STATUS : Nat := 0x20000
def F.PWR_STATUS_SEQ_BUSY : Fld := ⟨31, 31⟩
def F.PWR_STATUS_QUEUED : Fld := ⟨30, 26⟩
def F.PWR_STATUS_FLOOR : Fld := ⟨25, 24⟩
def F.PWR_STATUS_CAP_FAB : Fld := ⟨19, 18⟩
def F.PWR_STATUS_CAP_STITCH : Fld := ⟨17, 16⟩
def F.PWR_STATUS_WAKE_SRC : Fld := ⟨4, 0⟩
def R.PWR_OP (k : Nat) : Nat := 0x20010 + 0x4 * k
def F.PWR_OP_OP (j : Nat) : Fld := ⟨2*j + 1, 2*j⟩
def R.PWR_OPEFF (k : Nat) : Nat := 0x20030 + 0x4 * k
def F.PWR_OPEFF_EFF (j : Nat) : Fld := ⟨2*j + 1, 2*j⟩
def R.PWR_RAIL (r : Nat) : Nat := 0x20050 + 0x4 * r
def F.PWR_RAIL_TARGET : Fld := ⟨31, 20⟩
def F.PWR_RAIL_PRESENT : Fld := ⟨19, 8⟩
def F.PWR_RAIL_OFFSET : Fld := ⟨4, 0⟩
def R.PWR_PSW (k : Nat) : Nat := 0x20060 + 0x4 * k
def F.PWR_PSW_POWERED : Fld := ⟨31, 0⟩
def R.PWR_WAKE : Nat := 0x20070
def F.PWR_WAKE_RISING : Fld := ⟨31, 16⟩
def F.PWR_WAKE_EN : Fld := ⟨15, 0⟩
def R.PWR_COUNT (k : Nat) : Nat := 0x20080 + 0x4 * k
def F.PWR_COUNT_COUNT : Fld := ⟨31, 0⟩
def R.GRT_STATUS : Nat := 0x60000
def F.GRT_STATUS_TESTING : Fld := ⟨31, 31⟩
def F.GRT_STATUS_TEST_LINK : Fld := ⟨30, 24⟩
def F.GRT_STATUS_FAILED : Fld := ⟨23, 16⟩
def F.GRT_STATUS_RUNNING : Fld := ⟨15, 0⟩
def R.GRT_FAIL (k : Nat) : Nat := 0x60010 + 0x4 * k
def F.GRT_FAIL_FAIL : Fld := ⟨31, 0⟩
def R.GRT_COUNT (k : Nat) : Nat := 0x60040 + 0x4 * k
def F.GRT_COUNT_COUNT : Fld := ⟨31, 0⟩
def R.STC_STATUS : Nat := 0xe0000
def F.STC_STATUS_BAND : Fld := ⟨31, 29⟩
def F.STC_STATUS_REFRESH : Fld := ⟨28, 27⟩
def F.STC_STATUS_SELF_REFRESH : Fld := ⟨26, 26⟩
def F.STC_STATUS_SCRUBBING : Fld := ⟨7, 0⟩
def R.STC_ECC_ADDR : Nat := 0xe0004
def F.STC_ECC_ADDR_OFFSET : Fld := ⟨31, 5⟩
def R.STC_COUNT (k : Nat) : Nat := 0xe0040 + 0x4 * k
def F.STC_COUNT_COUNT : Fld := ⟨31, 0⟩
def R.XMC_STATUS : Nat := 0xd0000
def F.XMC_STATUS_TRAINED : Fld := ⟨31, 28⟩
def F.XMC_STATUS_FITTED : Fld := ⟨27, 24⟩
def F.XMC_STATUS_GIB : Fld := ⟨20, 16⟩
def F.XMC_STATUS_RATE : Fld := ⟨15, 14⟩
def R.XMC_MAP : Nat := 0xd0004
def F.XMC_MAP_P_GIB : Fld := ⟨31, 26⟩
def F.XMC_MAP_PLAIN_BASE : Fld := ⟨10, 0⟩
def R.XMC_COUNT (k : Nat) : Nat := 0xd0040 + 0x4 * k
def F.XMC_COUNT_COUNT : Fld := ⟨31, 0⟩
def R.MGD_STATUS : Nat := 0xc0000
def F.MGD_STATUS_FRESH : Fld := ⟨31, 31⟩
def F.MGD_STATUS_KEYS : Fld := ⟨30, 30⟩
def R.MGD_COUNT (k : Nat) : Nat := 0xc0040 + 0x4 * k
def F.MGD_COUNT_COUNT : Fld := ⟨31, 0⟩
def R.MGD_PART (k : Nat) : Nat := 0xc0100 + 0x4 * k
def F.MGD_PART_VALID : Fld := ⟨31, 31⟩
def F.MGD_PART_UBTOR : Fld := ⟨30, 30⟩
def F.MGD_PART_BASE : Fld := ⟨29, 20⟩
def F.MGD_PART_SIZE : Fld := ⟨9, 0⟩
def R.DMA_QCFG (q : Nat) : Nat := 0x100000 + 0x100 * q
def F.DMA_QCFG_EN : Fld := ⟨31, 31⟩
def F.DMA_QCFG_DIR : Fld := ⟨30, 30⟩
def F.DMA_QCFG_MODE : Fld := ⟨29, 29⟩
def F.DMA_QCFG_KEYID : Fld := ⟨21, 16⟩
def F.DMA_QCFG_BOUND : Fld := ⟨15, 15⟩
def F.DMA_QCFG_STREAM : Fld := ⟨11, 0⟩
def R.DMA_QCTRL (q : Nat) : Nat := 0x100004 + 0x100 * q
def F.DMA_QCTRL_RUN : Fld := ⟨31, 31⟩
def F.DMA_QCTRL_STOP : Fld := ⟨30, 30⟩
def F.DMA_QCTRL_IRQ_EN : Fld := ⟨8, 8⟩
def F.DMA_QCTRL_SIZE_LOG : Fld := ⟨3, 0⟩
def R.DMA_QRING_LO (q : Nat) : Nat := 0x100008 + 0x100 * q
def F.DMA_QRING_LO_BASE : Fld := ⟨31, 12⟩
def R.DMA_QRING_HI (q : Nat) : Nat := 0x10000c + 0x100 * q
def F.DMA_QRING_HI_BASE_HI : Fld := ⟨31, 0⟩
def R.DMA_QCPL_LO (q : Nat) : Nat := 0x100010 + 0x100 * q
def F.DMA_QCPL_LO_BASE : Fld := ⟨31, 12⟩
def R.DMA_QCPL_HI (q : Nat) : Nat := 0x100014 + 0x100 * q
def F.DMA_QCPL_HI_BASE_HI : Fld := ⟨31, 0⟩
def R.DMA_QTAIL (q : Nat) : Nat := 0x100018 + 0x100 * q
def F.DMA_QTAIL_TAIL : Fld := ⟨15, 0⟩
def R.DMA_QHEAD (q : Nat) : Nat := 0x10001c + 0x100 * q
def F.DMA_QHEAD_DONE : Fld := ⟨31, 16⟩
def F.DMA_QHEAD_HEAD : Fld := ⟨15, 0⟩
def R.DMA_QSTATUS (q : Nat) : Nat := 0x100020 + 0x100 * q
def F.DMA_QSTATUS_STATE : Fld := ⟨31, 30⟩
def F.DMA_QSTATUS_ERR : Fld := ⟨29, 29⟩
def F.DMA_QSTATUS_BAD_TAIL : Fld := ⟨28, 28⟩
def F.DMA_QSTATUS_CAUSE : Fld := ⟨7, 0⟩
def R.PCI_STATUS : Nat := 0xf0000
def F.PCI_STATUS_SPEED : Fld := ⟨31, 29⟩
def F.PCI_STATUS_WIDTH : Fld := ⟨28, 25⟩
def F.PCI_STATUS_LINK_UP : Fld := ⟨24, 24⟩
def F.PCI_STATUS_PM : Fld := ⟨23, 22⟩
def R.PCI_COUNT (k : Nat) : Nat := 0xf0040 + 0x4 * k
def F.PCI_COUNT_COUNT : Fld := ⟨31, 0⟩
def R.YRN_STATUS : Nat := 0x110000
def F.YRN_STATUS_MASTER : Fld := ⟨31, 31⟩
def F.YRN_STATUS_POSITION : Fld := ⟨30, 28⟩
def F.YRN_STATUS_COUNT : Fld := ⟨27, 24⟩
def F.YRN_STATUS_TOPOLOGY : Fld := ⟨23, 22⟩
def F.YRN_STATUS_MODE : Fld := ⟨21, 20⟩
def F.YRN_STATUS_TIME_VALID : Fld := ⟨19, 19⟩
def F.YRN_STATUS_TIME_PORT : Fld := ⟨18, 18⟩
def F.YRN_STATUS_LOST : Fld := ⟨15, 8⟩
def F.YRN_STATUS_ALIVE : Fld := ⟨7, 0⟩
def R.YRN_PORT (p : Nat) : Nat := 0x110010 + 0x4 * p
def F.YRN_PORT_STATE : Fld := ⟨31, 29⟩
def F.YRN_PORT_STEP : Fld := ⟨28, 26⟩
def F.YRN_PORT_WIDTH8 : Fld := ⟨25, 25⟩
def F.YRN_PORT_PEER : Fld := ⟨24, 21⟩
def F.YRN_PORT_ID_OK : Fld := ⟨20, 20⟩
def F.YRN_PORT_LANES_UP : Fld := ⟨19, 12⟩
def F.YRN_PORT_UNACKED : Fld := ⟨11, 6⟩
def R.YRN_OFFSET (p : Nat) : Nat := 0x110020 + 0x4 * p
def F.YRN_OFFSET_OFFSET : Fld := ⟨31, 0⟩
def R.YRN_DELAY (p : Nat) : Nat := 0x110028 + 0x4 * p
def F.YRN_DELAY_DELAY : Fld := ⟨31, 0⟩
def R.YRN_ASYM (p : Nat) : Nat := 0x110030 + 0x4 * p
def F.YRN_ASYM_ASYM : Fld := ⟨31, 0⟩
def R.YRN_CHAN (i : Nat) : Nat := 0x110100 + 0x4 * i
def F.YRN_CHAN_VALID : Fld := ⟨31, 31⟩
def F.YRN_CHAN_DIR : Fld := ⟨30, 30⟩
def F.YRN_CHAN_VL : Fld := ⟨29, 29⟩
def F.YRN_CHAN_BOUND : Fld := ⟨28, 28⟩
def F.YRN_CHAN_STREAM : Fld := ⟨11, 0⟩
def R.YRN_COUNT (p : Nat) (k : Nat) : Nat := 0x110400 + 0x20 * p + 0x4 * k
def F.YRN_COUNT_COUNT : Fld := ⟨31, 0⟩
def R.FLT_STATUS : Nat := 0x90000
def F.FLT_STATUS_USED : Fld := ⟨31, 24⟩
def F.FLT_STATUS_MARKED : Fld := ⟨23, 16⟩
def F.FLT_STATUS_LOG_FILL : Fld := ⟨10, 0⟩
def R.FLT_SEQ : Nat := 0x90004
def F.FLT_SEQ_NEXT : Fld := ⟨31, 0⟩
def R.FLT_OLDEST : Nat := 0x90008
def F.FLT_OLDEST_OLDEST : Fld := ⟨31, 0⟩
def R.FLT_COUNT (k : Nat) : Nat := 0x90040 + 0x4 * k
def F.FLT_COUNT_COUNT : Fld := ⟨31, 0⟩
def R.FLT_WIN (s : Nat) : Nat := 0x90400 + 0x4 * s
def F.FLT_WIN_UNIT : Fld := ⟨31, 30⟩
def F.FLT_WIN_W : Fld := ⟨29, 16⟩
def F.FLT_WIN_FIXED : Fld := ⟨15, 15⟩
def F.FLT_WIN_T : Fld := ⟨14, 0⟩
def R.FLT_SLOT_KEY (i : Nat) : Nat := 0x91000 + 0x8 * i
def F.FLT_SLOT_KEY_VALID : Fld := ⟨31, 31⟩
def F.FLT_SLOT_KEY_LASTING : Fld := ⟨30, 30⟩
def F.FLT_SLOT_KEY_SRC : Fld := ⟨23, 16⟩
def F.FLT_SLOT_KEY_INSTANCE : Fld := ⟨15, 0⟩
def R.FLT_SLOT_CNT (i : Nat) : Nat := 0x91004 + 0x8 * i
def F.FLT_SLOT_CNT_COUNT_B : Fld := ⟨31, 16⟩
def F.FLT_SLOT_CNT_COUNT_A : Fld := ⟨15, 0⟩
def R.SWT_STATUS : Nat := 0xa0000
def F.SWT_STATUS_BUSY : Fld := ⟨31, 31⟩
def F.SWT_STATUS_KIND : Fld := ⟨30, 27⟩
def F.SWT_STATUS_QUEUED : Fld := ⟨26, 20⟩
def F.SWT_STATUS_TARGET : Fld := ⟨15, 0⟩
def R.SWT_ROT : Nat := 0xa0004
def F.SWT_ROT_EN : Fld := ⟨31, 31⟩
def F.SWT_ROT_WALE : Fld := ⟨30, 25⟩
def F.SWT_ROT_AT : Fld := ⟨24, 20⟩
def F.SWT_ROT_ROT_OFS : Fld := ⟨19, 0⟩
def R.SWT_FUSE : Nat := 0xa0008
def F.SWT_FUSE_VPP_OK : Fld := ⟨31, 31⟩
def F.SWT_FUSE_PENDING : Fld := ⟨24, 16⟩
def F.SWT_FUSE_USED : Fld := ⟨8, 0⟩
def R.SWT_MARKS : Nat := 0xa000c
def F.SWT_MARKS_TILES : Fld := ⟨31, 24⟩
def F.SWT_MARKS_SHEETS : Fld := ⟨23, 18⟩
def F.SWT_MARKS_BLOCKS : Fld := ⟨17, 10⟩
def F.SWT_MARKS_ROWS : Fld := ⟨9, 4⟩
def F.SWT_MARKS_GROUPS : Fld := ⟨3, 0⟩
def R.SWT_COUNT (k : Nat) : Nat := 0xa0040 + 0x4 * k
def F.SWT_COUNT_COUNT : Fld := ⟨31, 0⟩
def R.THM_STATUS : Nat := 0x30000
def F.THM_STATUS_WARN : Fld := ⟨31, 31⟩
def F.THM_STATUS_THROTTLING : Fld := ⟨30, 30⟩
def F.THM_STATUS_RESTART_HELD : Fld := ⟨29, 29⟩
def F.THM_STATUS_HOT_SENSOR : Fld := ⟨23, 16⟩
def F.THM_STATUS_HOT_TEMP : Fld := ⟨15, 0⟩
def R.THM_CFG : Nat := 0x30004
def F.THM_CFG_RESTART_S : Fld := ⟨31, 24⟩
def F.THM_CFG_RESTART_C : Fld := ⟨23, 16⟩
def F.THM_CFG_TRIP_C : Fld := ⟨15, 8⟩
def F.THM_CFG_THROTTLE_C : Fld := ⟨7, 0⟩
def R.THM_BAND : Nat := 0x30008
def F.THM_BAND_BAND (j : Nat) : Fld := ⟨3*j + 2, 3*j⟩
def R.THM_FAIL (k : Nat) : Nat := 0x30010 + 0x4 * k
def F.THM_FAIL_FAILED : Fld := ⟨31, 0⟩
def R.THM_COUNT (k : Nat) : Nat := 0x30040 + 0x4 * k
def F.THM_COUNT_COUNT : Fld := ⟨31, 0⟩
def R.THM_SENSOR (i : Nat) : Nat := 0x30100 + 0x4 * i
def F.THM_SENSOR_FAILED : Fld := ⟨31, 31⟩
def F.THM_SENSOR_WARN : Fld := ⟨30, 30⟩
def F.THM_SENSOR_BAND : Fld := ⟨18, 16⟩
def F.THM_SENSOR_TEMP : Fld := ⟨15, 0⟩
def R.GAZ_STATUS : Nat := 0xb0000
def F.GAZ_STATUS_IMAGE : Fld := ⟨31, 31⟩
def F.GAZ_STATUS_FULL : Fld := ⟨30, 30⟩
def F.GAZ_STATUS_WRITING : Fld := ⟨29, 29⟩
def F.GAZ_STATUS_JFILL : Fld := ⟨12, 0⟩
def R.GAZ_IMSEQ : Nat := 0xb0004
def F.GAZ_IMSEQ_IMSEQ : Fld := ⟨31, 0⟩
def R.DAT_STATUS : Nat := 0x140000
def F.DAT_STATUS_UNCAL : Fld := ⟨31, 31⟩
def F.DAT_STATUS_CAL : Fld := ⟨30, 30⟩
def F.DAT_STATUS_SESSION : Fld := ⟨29, 29⟩
def F.DAT_STATUS_XTAL_FAULT : Fld := ⟨28, 28⟩
def F.DAT_STATUS_ROM_FAULT : Fld := ⟨27, 27⟩
def F.DAT_STATUS_OVERRANGE : Fld := ⟨3, 0⟩
def R.DAT_IDENT : Nat := 0x140004
def F.DAT_IDENT_FW_ID : Fld := ⟨31, 0⟩
def R.DAT_DIGEST : Nat := 0x140008
def F.DAT_DIGEST_DIGEST : Fld := ⟨31, 0⟩
def R.DAT_SEAL : Nat := 0x14000c
def F.DAT_SEAL_ACTIVE : Fld := ⟨7, 4⟩
def F.DAT_SEAL_SEAL_COUNT : Fld := ⟨3, 0⟩
def R.DAT_SECONDS : Nat := 0x140010
def F.DAT_SECONDS_TIME : Fld := ⟨31, 0⟩
def R.DAT_LOG : Nat := 0x140014
def F.DAT_LOG_NEXT : Fld := ⟨31, 0⟩
def R.DAT_ACC_LO (c : Nat) (d : Nat) : Nat := 0x140020 + 0x10 * c + 0x8 * d
def F.DAT_ACC_LO_ACC_LO : Fld := ⟨31, 0⟩
def R.DAT_ACC_HI (c : Nat) (d : Nat) : Nat := 0x140024 + 0x10 * c + 0x8 * d
def F.DAT_ACC_HI_ACC_HI : Fld := ⟨31, 0⟩
def R.DAT_V (c : Nat) : Nat := 0x140060 + 0x4 * c
def F.DAT_V_MV : Fld := ⟨31, 0⟩
def R.DAT_I (c : Nat) : Nat := 0x140070 + 0x4 * c
def F.DAT_I_MA : Fld := ⟨31, 0⟩
def R.PIO_CFG (p : Nat) : Nat := 0x50000 + 0x4 * p
def F.PIO_CFG_EN : Fld := ⟨31, 31⟩
def F.PIO_CFG_OWNER : Fld := ⟨30, 28⟩
def F.PIO_CFG_SHEET : Fld := ⟨27, 23⟩
def F.PIO_CFG_HANDOVER : Fld := ⟨22, 22⟩
def F.PIO_CFG_PULL : Fld := ⟨21, 20⟩
def F.PIO_CFG_DRIVE : Fld := ⟨19, 18⟩
def F.PIO_CFG_SLEW_FAST : Fld := ⟨17, 17⟩
def F.PIO_CFG_OPEN_DRAIN : Fld := ⟨16, 16⟩
def F.PIO_CFG_SLOT : Fld := ⟨12, 8⟩
def F.PIO_CFG_FUNC : Fld := ⟨7, 0⟩
def R.PIO_OUT (b : Nat) : Nat := 0x50400 + 0x4 * b
def F.PIO_OUT_OUT : Fld := ⟨31, 0⟩
def R.PIO_SET (b : Nat) : Nat := 0x50420 + 0x4 * b
def F.PIO_SET_SET : Fld := ⟨31, 0⟩
def R.PIO_CLR (b : Nat) : Nat := 0x50440 + 0x4 * b
def F.PIO_CLR_CLR : Fld := ⟨31, 0⟩
def R.PIO_TGL (b : Nat) : Nat := 0x50460 + 0x4 * b
def F.PIO_TGL_TGL : Fld := ⟨31, 0⟩
def R.PIO_IN (b : Nat) : Nat := 0x50480 + 0x4 * b
def F.PIO_IN_IN : Fld := ⟨31, 0⟩
def R.PIO_OE (b : Nat) : Nat := 0x504a0 + 0x4 * b
def F.PIO_OE_OE : Fld := ⟨31, 0⟩
def R.PIO_COUNT (k : Nat) : Nat := 0x50540 + 0x4 * k
def F.PIO_COUNT_COUNT : Fld := ⟨31, 0⟩

def regsMbx : List RegInfo := [
  ⟨"MBX_STATUS", 0x2000, [], .device, 0x0, 0x0, 0x0, 0x0, 0x0, 0x0⟩,
  ⟨"MBX_ACK", 0x2004, [], .device, 0x0, 0x0, 0xffffffff, 0x0, 0x0, 0x0⟩,
  ⟨"MBX_REJECT", 0x2008, [], .device, 0x0, 0x0, 0xffffffff, 0x0, 0x0, 0x0⟩,
  ⟨"MBX_ACKCODE", 0x2100, [(32, 0x4)], .device, 0xffff, 0x0, 0x0, 0x0, 0x0, 0x0⟩,
  ⟨"DEV_ID", 0x3000, [], .powerOn, 0x0, 0x0, 0x0, 0x0, 0x0, 0x71280200⟩,
  ⟨"DEV_STATE", 0x3004, [], .device, 0x0, 0x0, 0x0, 0x0, 0x0, 0x1⟩,
  ⟨"DEV_STAMP_LO", 0x3008, [], .device, 0x0, 0x0, 0x0, 0x0, 0x0, 0x0⟩,
  ⟨"DEV_STAMP_HI", 0x300c, [], .device, 0x0, 0x0, 0x0, 0x0, 0x0, 0x0⟩,
  ⟨"HALT_CAUSE", 0x3010, [], .powerOn, 0x0, 0x0, 0x0, 0x0, 0x0, 0x0⟩,
  ⟨"TRIP_CAUSE", 0x3014, [], .powerOn, 0x0, 0x0, 0x0, 0x0, 0x0, 0x0⟩]

def regsWal : List RegInfo := [
  ⟨"WAL_CTRL", 0xa00000, [(40, 0x4000)], .device, 0x3, 0x0, 0x0, 0x80000000, 0x0, 0x0⟩,
  ⟨"WAL_STATUS", 0xa00004, [(40, 0x4000)], .island, 0x0, 0x0, 0x0, 0x0, 0x0, 0x0⟩,
  ⟨"WAL_SHIFT", 0xa00008, [(40, 0x4000)], .device, 0x0, 0x0, 0x0, 0x0, 0x0, 0x10⟩,
  ⟨"WAL_SWITCH", 0xa0000c, [(40, 0x4000)], .island, 0x0, 0x0, 0x0, 0x0, 0xffff010f, 0x0⟩,
  ⟨"WAL_ACTIVE", 0xa00010, [(40, 0x4000), (2, 0x4)], .device, 0x0, 0x0, 0x0, 0x0, 0x0, 0x0⟩,
  ⟨"WAL_BANKMAP", 0xa00040, [(40, 0x4000), (16, 0x4)], .device, 0x0, 0xfffff, 0x0, 0x0, 0x0, 0x0⟩,
  ⟨"WAL_STICKY", 0xa00080, [(40, 0x4000), (16, 0x4)], .island, 0x0, 0x0, 0x1f, 0x0, 0x0, 0x0⟩,
  ⟨"WAL_PATVALID", 0xa000c0, [(40, 0x4000), (16, 0x4)], .device, 0x0, 0x0, 0x0, 0x0, 0x0, 0x0⟩,
  ⟨"WAL_GATE", 0xa00100, [(40, 0x4000), (16, 0x4)], .device, 0x0, 0x0, 0x0, 0x0, 0x0, 0x0⟩,
  ⟨"WAL_COUNT", 0xa00180, [(40, 0x4000), (5, 0x4)], .island, 0x0, 0x0, 0x0, 0x0, 0x0, 0x0⟩]

def regsSht : List RegInfo := [
  ⟨"SHT_CTRL", 0x800000, [(32, 0x10000)], .device, 0x1, 0x0, 0x0, 0x80000000, 0x0, 0x0⟩,
  ⟨"SHT_STATUS", 0x800004, [(32, 0x10000)], .device, 0x0, 0x0, 0x0, 0x0, 0x0, 0x400004⟩,
  ⟨"SHT_CLK", 0x800008, [(32, 0x10000)], .device, 0x0, 0xfff0f, 0x0, 0x0, 0x0, 0x73100⟩,
  ⟨"SHT_REPAIR", 0x80000c, [(32, 0x10000)], .device, 0x0, 0x0, 0x0, 0x0, 0x0, 0xc0c0⟩,
  ⟨"SHT_STICKY", 0x800010, [(32, 0x10000)], .island, 0x0, 0x0, 0x7, 0x0, 0x0, 0x0⟩,
  ⟨"SHT_CAP", 0x800014, [(32, 0x10000)], .device, 0x0, 0x0, 0x0, 0x0, 0x0, 0x0⟩,
  ⟨"SHT_STAMP_LO", 0x800018, [(32, 0x10000)], .device, 0x0, 0x0, 0x0, 0x0, 0x0, 0x0⟩,
  ⟨"SHT_STAMP_HI", 0x80001c, [(32, 0x10000)], .device, 0x0, 0x0, 0x0, 0x0, 0x0, 0x0⟩,
  ⟨"SHT_COUNT", 0x800040, [(32, 0x10000), (4, 0x4)], .island, 0x0, 0x0, 0x0, 0x0, 0x0, 0x0⟩]

def regsLdr : List RegInfo := [
  ⟨"LDR_CTRL", 0x70000, [], .device, 0x0, 0x0, 0x0, 0x80000000, 0x0, 0x0⟩,
  ⟨"LDR_STATUS", 0x70004, [], .device, 0x0, 0x0, 0x0, 0x0, 0x0, 0xf⟩,
  ⟨"LDR_CASTON", 0x70008, [], .device, 0x0, 0x0, 0x0, 0x0, 0x0, 0x0⟩,
  ⟨"LDR_FUSE", 0x7000c, [], .device, 0x0, 0x0, 0x0, 0x0, 0x0, 0x1000000⟩,
  ⟨"LDR_CTX", 0x70010, [(4, 0x4)], .device, 0x0, 0x0, 0x0, 0x0, 0x0, 0x0⟩,
  ⟨"LDR_CTX_BYTES", 0x70020, [(4, 0x4)], .device, 0x0, 0x0, 0x0, 0x0, 0x0, 0x0⟩,
  ⟨"LDR_CTX_WIRE", 0x70030, [(4, 0x4)], .device, 0x0, 0x0, 0x0, 0x0, 0x0, 0x0⟩,
  ⟨"LDR_GRANT_SHEETS", 0x70100, [(32, 0x10)], .device, 0x0, 0xffffffff, 0x0, 0x0, 0x0, 0x0⟩,
  ⟨"LDR_GRANT_WALES_LO", 0x70104, [(32, 0x10)], .device, 0x0, 0xffffffff, 0x0, 0x0, 0x0, 0x0⟩,
  ⟨"LDR_GRANT_WALES_HI", 0x70108, [(32, 0x10)], .device, 0x0, 0x800000ff, 0x0, 0x0, 0x0, 0x0⟩,
  ⟨"LDR_COUNT", 0x70300, [(4, 0x4)], .device, 0x0, 0x0, 0x0, 0x0, 0x0, 0x0⟩]

def regsStr : List RegInfo := [
  ⟨"STR_CTRL", 0xe8000, [], .device, 0x0, 0x0, 0x1, 0x0, 0x0, 0x0⟩,
  ⟨"STR_SEL", 0xe8004, [], .device, 0xfff, 0x0, 0x0, 0x0, 0x0, 0x0⟩,
  ⟨"STR_CFG", 0xe8008, [], .device, 0x7fffffff, 0x0, 0x0, 0x0, 0x80000000, 0x100001⟩,
  ⟨"STR_ENDS", 0xe800c, [], .device, 0xffffffff, 0x0, 0x0, 0x0, 0x0, 0x0⟩,
  ⟨"STR_RING_BASE", 0xe8010, [], .device, 0xfffff000, 0x0, 0x0, 0x0, 0x0, 0x0⟩,
  ⟨"STR_RING_LEN", 0xe8014, [], .device, 0xffffff, 0x0, 0x0, 0x0, 0x0, 0x1000⟩,
  ⟨"STR_LATE", 0xe8018, [], .device, 0xfffff, 0x0, 0x0, 0x0, 0x0, 0x1000⟩,
  ⟨"STR_STATUS", 0xe801c, [], .device, 0x0, 0x0, 0x0, 0x0, 0x0, 0x0⟩,
  ⟨"STR_SEQ", 0xe8020, [], .device, 0x0, 0x0, 0x0, 0x0, 0x0, 0x0⟩,
  ⟨"STR_COUNT", 0xe8040, [(8, 0x4)], .device, 0x0, 0x0, 0x0, 0x0, 0x0, 0x0⟩,
  ⟨"STR_OPENMAP", 0xe8200, [(128, 0x4)], .device, 0x0, 0x0, 0x0, 0x0, 0x0, 0x0⟩]

def regsAir : List RegInfo := [
  ⟨"AIR_STATUS", 0x80000, [], .device, 0x0, 0x0, 0x0, 0x0, 0x0, 0x0⟩,
  ⟨"AIR_TIME_LO", 0x80004, [], .device, 0x0, 0x0, 0x0, 0x0, 0x0, 0x0⟩,
  ⟨"AIR_TIME_HI", 0x80008, [], .device, 0x0, 0x0, 0x0, 0x0, 0x0, 0x0⟩,
  ⟨"AIR_PERIOD", 0x80010, [(2, 0x4)], .device, 0x0, 0x0, 0x0, 0x0, 0x0, 0x0⟩,
  ⟨"AIR_PHASE", 0x80018, [(2, 0x4)], .device, 0x0, 0x0, 0x0, 0x0, 0x0, 0x0⟩,
  ⟨"AIR_LEN", 0x80020, [(2, 0x4)], .device, 0x0, 0x0, 0x0, 0x0, 0x0, 0x0⟩,
  ⟨"AIR_SWAP_LO", 0x80028, [], .device, 0x0, 0x0, 0x0, 0x0, 0x0, 0x0⟩,
  ⟨"AIR_SWAP_HI", 0x8002c, [], .device, 0x0, 0x0, 0x0, 0x0, 0x0, 0x0⟩,
  ⟨"AIR_BCAST", 0x80030, [], .device, 0x0, 0x0, 0x0, 0x0, 0x0, 0x0⟩,
  ⟨"AIR_IDLE", 0x80040, [(7, 0x4)], .device, 0xffffffff, 0x0, 0x0, 0x0, 0x0, 0x0⟩,
  ⟨"AIR_CNT", 0x80080, [(8, 0x4)], .device, 0x0, 0x0, 0x0, 0x0, 0x0, 0x0⟩]

def regsLne : List RegInfo := [
  ⟨"LNE_CTRL", 0x400000, [(96, 0x4000)], .device, 0x23, 0x0, 0x0, 0x80000000, 0x0, 0x2⟩,
  ⟨"LNE_STATUS", 0x400004, [(96, 0x4000)], .island, 0x0, 0x0, 0x0, 0x0, 0x0, 0x1000000⟩,
  ⟨"LNE_RATE", 0x400008, [(96, 0x4000)], .device, 0x0, 0x0, 0x0, 0x0, 0x0, 0x0⟩,
  ⟨"LNE_RXEQ", 0x40000c, [(96, 0x4000)], .device, 0x0, 0x10f, 0x0, 0x0, 0x0, 0x0⟩,
  ⟨"LNE_DFE", 0x400010, [(96, 0x4000), (3, 0x4)], .island, 0x0, 0x0, 0x0, 0x0, 0x0, 0x0⟩,
  ⟨"LNE_TXFFE", 0x400020, [(96, 0x4000)], .device, 0x0, 0x3f3f3f3f, 0x0, 0x0, 0x0, 0x0⟩,
  ⟨"LNE_MAP", 0x400024, [(96, 0x4000)], .island, 0x0, 0x0, 0x0, 0x0, 0x0, 0x0⟩,
  ⟨"LNE_TEST", 0x400028, [(96, 0x4000)], .device, 0xfff00000, 0x0, 0x0, 0x0, 0x0, 0x0⟩,
  ⟨"LNE_UPAT_LO", 0x40002c, [(96, 0x4000)], .device, 0xffffffff, 0x0, 0x0, 0x0, 0x0, 0x0⟩,
  ⟨"LNE_UPAT_HI", 0x400030, [(96, 0x4000)], .device, 0xffffffff, 0x0, 0x0, 0x0, 0x0, 0x0⟩,
  ⟨"LNE_EYE", 0x400034, [(96, 0x4000)], .island, 0x0, 0x0, 0x0, 0x0, 0x0, 0x0⟩,
  ⟨"LNE_COUNT", 0x400040, [(96, 0x4000), (6, 0x4)], .island, 0x0, 0x0, 0x0, 0x0, 0x0, 0x0⟩,
  ⟨"LNE_CHKBITS_LO", 0x400060, [(96, 0x4000)], .island, 0x0, 0x0, 0x0, 0x0, 0x0, 0x0⟩,
  ⟨"LNE_CHKBITS_HI", 0x400064, [(96, 0x4000)], .island, 0x0, 0x0, 0x0, 0x0, 0x0, 0x0⟩]

def regsFhe : List RegInfo := [
  ⟨"FHE_MAC", 0x120000, [(16, 0x4)], .device, 0x0, 0x0, 0x0, 0x0, 0x0, 0x0⟩,
  ⟨"FHE_MCOUNT", 0x120100, [(16, 0x20), (6, 0x4)], .device, 0x0, 0x0, 0x0, 0x0, 0x0, 0x0⟩,
  ⟨"FHE_FLOW_KEY", 0x121000, [(512, 0x10)], .device, 0x0, 0x0, 0x0, 0x0, 0x0, 0x0⟩,
  ⟨"FHE_FLOW_CFG", 0x121004, [(512, 0x10)], .device, 0x0, 0x0, 0x0, 0x0, 0x0, 0xd9000000⟩,
  ⟨"FHE_FLOW_DST_LO", 0x121008, [(512, 0x10)], .device, 0x0, 0x0, 0x0, 0x0, 0x0, 0x0⟩,
  ⟨"FHE_FLOW_DST_HI", 0x12100c, [(512, 0x10)], .device, 0x0, 0x0, 0x0, 0x0, 0x0, 0x0⟩,
  ⟨"FHE_FCOUNT", 0x124000, [(512, 0x20), (8, 0x4)], .device, 0x0, 0x0, 0x0, 0x0, 0x0, 0x0⟩,
  ⟨"JSD_SYSREF", 0x130000, [], .device, 0x0, 0x0, 0x0, 0x0, 0x0, 0x8103c000⟩,
  ⟨"JSD_LINK", 0x130100, [(16, 0x10)], .device, 0x0, 0x0, 0x0, 0x0, 0x0, 0x10000040⟩,
  ⟨"JSD_LAT", 0x130104, [(16, 0x10)], .device, 0x0, 0x0, 0x0, 0x0, 0x0, 0x0⟩,
  ⟨"JSD_RXWIN", 0x130108, [(16, 0x10)], .device, 0x0, 0x0, 0x0, 0x0, 0x0, 0x0⟩,
  ⟨"JSD_STATUS", 0x13010c, [(16, 0x10)], .device, 0x0, 0x0, 0x0, 0x0, 0x0, 0x10000000⟩,
  ⟨"JSD_COUNT", 0x130200, [(16, 0x20), (5, 0x4)], .device, 0x0, 0x0, 0x0, 0x0, 0x0, 0x0⟩]

def regsMer : List RegInfo := [
  ⟨"MER_STATUS", 0x40000, [], .device, 0x0, 0x0, 0x0, 0x0, 0x0, 0xff⟩,
  ⟨"MER_CFG", 0x40004, [], .device, 0x0, 0x0, 0x0, 0x0, 0x0, 0x180000⟩,
  ⟨"MER_TE", 0x40008, [], .device, 0x0, 0x0, 0x0, 0x0, 0x0, 0x80000000⟩,
  ⟨"MER_BOUND", 0x4000c, [], .device, 0x0, 0x0, 0x0, 0x0, 0x0, 0x0⟩,
  ⟨"MER_BUDGET", 0x40010, [], .device, 0x0, 0x0, 0x0, 0x0, 0x0, 0x5dc⟩,
  ⟨"MER_HOLD", 0x40014, [], .device, 0x0, 0x0, 0x0, 0x0, 0x0, 0x0⟩,
  ⟨"MER_TEMP", 0x40018, [], .device, 0x0, 0x0, 0x0, 0x0, 0x0, 0x0⟩,
  ⟨"MER_MODEL", 0x4001c, [], .device, 0x0, 0x0, 0x0, 0x0, 0x0, 0x0⟩,
  ⟨"MER_AGE", 0x40020, [], .device, 0x0, 0x0, 0x0, 0x0, 0x0, 0x0⟩,
  ⟨"MER_LEAP", 0x40024, [], .device, 0x0, 0x0, 0x0, 0x0, 0x0, 0x12⟩,
  ⟨"MER_OUT", 0x40028, [], .device, 0x0, 0x0, 0x0, 0x0, 0x0, 0x8a000000⟩,
  ⟨"MER_IRO", 0x4002c, [], .device, 0x0, 0x0, 0x0, 0x0, 0x0, 0x80⟩,
  ⟨"MER_GNSS", 0x40030, [], .device, 0x0, 0x0, 0x0, 0x0, 0x0, 0x0⟩,
  ⟨"MER_PTP_OWN", 0x40034, [], .device, 0x0, 0x0, 0x0, 0x0, 0x0, 0x0⟩,
  ⟨"MER_PTP_GM", 0x40038, [], .device, 0x0, 0x0, 0x0, 0x0, 0x0, 0x0⟩,
  ⟨"MER_PTP_HOP_LO", 0x4003c, [], .device, 0x0, 0x0, 0x0, 0x0, 0x0, 0x0⟩,
  ⟨"MER_PTP_HOP_HI", 0x40060, [], .device, 0x0, 0x0, 0x0, 0x0, 0x0, 0x0⟩,
  ⟨"MER_COUNT", 0x40040, [(8, 0x4)], .device, 0x0, 0x0, 0x0, 0x0, 0x0, 0x0⟩,
  ⟨"MER_BIN", 0x40100, [(131, 0x4)], .device, 0x0, 0x0, 0x0, 0x0, 0x0, 0x0⟩]

def regsCki : List RegInfo := [
  ⟨"CKI_STATUS", 0x10000, [], .device, 0x0, 0x0, 0x48000000, 0x0, 0x0, 0x0⟩,
  ⟨"CKI_GATE_TIER", 0x10004, [], .device, 0xc, 0x0, 0x0, 0x0, 0x0, 0xf⟩,
  ⟨"CKI_GATE_GRP", 0x10008, [], .device, 0x3fffff, 0x0, 0x0, 0x0, 0x0, 0x3fffff⟩,
  ⟨"CKI_GATE_ISL", 0x10010, [(5, 0x4)], .device, 0xffffffff, 0x0, 0x0, 0x0, 0x0, 0xffffffff⟩,
  ⟨"CKI_ON_ISL", 0x10030, [(5, 0x4)], .device, 0x0, 0x0, 0x0, 0x0, 0x0, 0x0⟩,
  ⟨"CKI_REFLOST", 0x10050, [(5, 0x4)], .device, 0x0, 0x0, 0xffffffff, 0x0, 0x0, 0x0⟩,
  ⟨"CKI_COUNT", 0x10080, [(3, 0x4)], .device, 0x0, 0x0, 0x0, 0x0, 0x0, 0x0⟩,
  ⟨"PWR_STATUS", 0x20000, [], .device, 0x0, 0x0, 0x0, 0x0, 0x0, 0xf0000⟩,
  ⟨"PWR_OP", 0x20010, [(5, 0x4)], .device, 0x0, 0x0, 0x0, 0x0, 0x0, 0x0⟩,
  ⟨"PWR_OPEFF", 0x20030, [(5, 0x4)], .device, 0x0, 0x0, 0x0, 0x0, 0x0, 0x0⟩,
  ⟨"PWR_RAIL", 0x20050, [(2, 0x4)], .device, 0x0, 0x0, 0x0, 0x0, 0x0, 0x28a28a00⟩,
  ⟨"PWR_PSW", 0x20060, [(3, 0x4)], .device, 0x0, 0x0, 0x0, 0x0, 0x0, 0xffffffff⟩,
  ⟨"PWR_WAKE", 0x20070, [], .device, 0xffffffff, 0x0, 0x0, 0x0, 0x0, 0x0⟩,
  ⟨"PWR_COUNT", 0x20080, [(4, 0x4)], .device, 0x0, 0x0, 0x0, 0x0, 0x0, 0x0⟩]

def regsGrt : List RegInfo := [
  ⟨"GRT_STATUS", 0x60000, [], .device, 0x0, 0x0, 0x0, 0x0, 0x0, 0x0⟩,
  ⟨"GRT_FAIL", 0x60010, [(4, 0x4)], .device, 0x0, 0x0, 0x0, 0x0, 0x0, 0x0⟩,
  ⟨"GRT_COUNT", 0x60040, [(6, 0x4)], .device, 0x0, 0x0, 0x0, 0x0, 0x0, 0x0⟩]

def regsMem : List RegInfo := [
  ⟨"STC_STATUS", 0xe0000, [], .device, 0x0, 0x0, 0x0, 0x0, 0x0, 0x20000000⟩,
  ⟨"STC_ECC_ADDR", 0xe0004, [], .device, 0x0, 0x0, 0x0, 0x0, 0x0, 0x0⟩,
  ⟨"STC_COUNT", 0xe0040, [(5, 0x4)], .device, 0x0, 0x0, 0x0, 0x0, 0x0, 0x0⟩,
  ⟨"XMC_STATUS", 0xd0000, [], .device, 0x0, 0x0, 0x0, 0x0, 0x0, 0x0⟩,
  ⟨"XMC_MAP", 0xd0004, [], .device, 0x0, 0x0, 0x0, 0x0, 0x0, 0x0⟩,
  ⟨"XMC_COUNT", 0xd0040, [(4, 0x4)], .device, 0x0, 0x0, 0x0, 0x0, 0x0, 0x0⟩,
  ⟨"MGD_STATUS", 0xc0000, [], .device, 0x0, 0x0, 0x0, 0x0, 0x0, 0x0⟩,
  ⟨"MGD_COUNT", 0xc0040, [(6, 0x4)], .device, 0x0, 0x0, 0x0, 0x0, 0x0, 0x0⟩,
  ⟨"MGD_PART", 0xc0100, [(64, 0x4)], .device, 0x0, 0x0, 0x0, 0x0, 0x0, 0x0⟩]

def regsDma : List RegInfo := [
  ⟨"DMA_QCFG", 0x100000, [(32, 0x100)], .device, 0x0, 0x0, 0x0, 0x0, 0x0, 0x0⟩,
  ⟨"DMA_QCTRL", 0x100004, [(32, 0x100)], .device, 0x10f, 0x0, 0x0, 0x0, 0xc0000000, 0x6⟩,
  ⟨"DMA_QRING_LO", 0x100008, [(32, 0x100)], .device, 0xfffff000, 0x0, 0x0, 0x0, 0x0, 0x0⟩,
  ⟨"DMA_QRING_HI", 0x10000c, [(32, 0x100)], .device, 0xffffffff, 0x0, 0x0, 0x0, 0x0, 0x0⟩,
  ⟨"DMA_QCPL_LO", 0x100010, [(32, 0x100)], .device, 0xfffff000, 0x0, 0x0, 0x0, 0x0, 0x0⟩,
  ⟨"DMA_QCPL_HI", 0x100014, [(32, 0x100)], .device, 0xffffffff, 0x0, 0x0, 0x0, 0x0, 0x0⟩,
  ⟨"DMA_QTAIL", 0x100018, [(32, 0x100)], .device, 0xffff, 0x0, 0x0, 0x0, 0x0, 0x0⟩,
  ⟨"DMA_QHEAD", 0x10001c, [(32, 0x100)], .device, 0x0, 0x0, 0x0, 0x0, 0x0, 0x0⟩,
  ⟨"DMA_QSTATUS", 0x100020, [(32, 0x100)], .device, 0x0, 0x0, 0x30000000, 0x0, 0x0, 0x0⟩,
  ⟨"PCI_STATUS", 0xf0000, [], .device, 0x0, 0x0, 0x0, 0x0, 0x0, 0x0⟩,
  ⟨"PCI_COUNT", 0xf0040, [(4, 0x4)], .device, 0x0, 0x0, 0x0, 0x0, 0x0, 0x0⟩]

def regsYrn : List RegInfo := [
  ⟨"YRN_STATUS", 0x110000, [], .device, 0x0, 0x0, 0xff00, 0x0, 0x0, 0x0⟩,
  ⟨"YRN_PORT", 0x110010, [(2, 0x4)], .device, 0x0, 0x0, 0x0, 0x0, 0x0, 0x0⟩,
  ⟨"YRN_OFFSET", 0x110020, [(2, 0x4)], .device, 0x0, 0x0, 0x0, 0x0, 0x0, 0x0⟩,
  ⟨"YRN_DELAY", 0x110028, [(2, 0x4)], .device, 0x0, 0x0, 0x0, 0x0, 0x0, 0x0⟩,
  ⟨"YRN_ASYM", 0x110030, [(2, 0x4)], .device, 0x0, 0x0, 0x0, 0x0, 0x0, 0x0⟩,
  ⟨"YRN_CHAN", 0x110100, [(128, 0x4)], .device, 0x0, 0x0, 0x0, 0x0, 0x0, 0x0⟩,
  ⟨"YRN_COUNT", 0x110400, [(2, 0x20), (8, 0x4)], .device, 0x0, 0x0, 0x0, 0x0, 0x0, 0x0⟩]

def regsFlt : List RegInfo := [
  ⟨"FLT_STATUS", 0x90000, [], .device, 0x0, 0x0, 0x0, 0x0, 0x0, 0x0⟩,
  ⟨"FLT_SEQ", 0x90004, [], .device, 0x0, 0x0, 0x0, 0x0, 0x0, 0x0⟩,
  ⟨"FLT_OLDEST", 0x90008, [], .device, 0x0, 0x0, 0x0, 0x0, 0x0, 0x0⟩,
  ⟨"FLT_COUNT", 0x90040, [(5, 0x4)], .device, 0x0, 0x0, 0x0, 0x0, 0x0, 0x0⟩,
  ⟨"FLT_WIN", 0x90400, [(256, 0x4)], .device, 0x0, 0x0, 0x0, 0x0, 0x0, 0x0⟩,
  ⟨"FLT_SLOT_KEY", 0x91000, [(128, 0x8)], .device, 0x0, 0x0, 0x0, 0x0, 0x0, 0x0⟩,
  ⟨"FLT_SLOT_CNT", 0x91004, [(128, 0x8)], .device, 0x0, 0x0, 0x0, 0x0, 0x0, 0x0⟩]

def regsSwt : List RegInfo := [
  ⟨"SWT_STATUS", 0xa0000, [], .device, 0x0, 0x0, 0x0, 0x0, 0x0, 0x0⟩,
  ⟨"SWT_ROT", 0xa0004, [], .device, 0x0, 0x0, 0x0, 0x0, 0x0, 0x1000000⟩,
  ⟨"SWT_FUSE", 0xa0008, [], .device, 0x0, 0x0, 0x0, 0x0, 0x0, 0x0⟩,
  ⟨"SWT_MARKS", 0xa000c, [], .device, 0x0, 0x0, 0x0, 0x0, 0x0, 0x0⟩,
  ⟨"SWT_COUNT", 0xa0040, [(6, 0x4)], .device, 0x0, 0x0, 0x0, 0x0, 0x0, 0x0⟩]

def regsThm : List RegInfo := [
  ⟨"THM_STATUS", 0x30000, [], .powerOn, 0x0, 0x0, 0x0, 0x0, 0x0, 0x0⟩,
  ⟨"THM_CFG", 0x30004, [], .powerOn, 0x0, 0x0, 0x0, 0x0, 0x0, 0x3c557369⟩,
  ⟨"THM_BAND", 0x30008, [], .powerOn, 0x0, 0x0, 0x0, 0x0, 0x0, 0x1249⟩,
  ⟨"THM_FAIL", 0x30010, [(4, 0x4)], .powerOn, 0x0, 0x0, 0x0, 0x0, 0x0, 0x0⟩,
  ⟨"THM_COUNT", 0x30040, [(5, 0x4)], .device, 0x0, 0x0, 0x0, 0x0, 0x0, 0x0⟩,
  ⟨"THM_SENSOR", 0x30100, [(120, 0x4)], .powerOn, 0x0, 0x0, 0x0, 0x0, 0x0, 0x10000⟩]

def regsGaz : List RegInfo := [
  ⟨"GAZ_STATUS", 0xb0000, [], .powerOn, 0x0, 0x0, 0x0, 0x0, 0x0, 0x0⟩,
  ⟨"GAZ_IMSEQ", 0xb0004, [], .powerOn, 0x0, 0x0, 0x0, 0x0, 0x0, 0x0⟩]

def regsDat : List RegInfo := [
  ⟨"DAT_STATUS", 0x140000, [], .island, 0x0, 0x0, 0x0, 0x0, 0x0, 0x80000000⟩,
  ⟨"DAT_IDENT", 0x140004, [], .island, 0x0, 0x0, 0x0, 0x0, 0x0, 0x44543130⟩,
  ⟨"DAT_DIGEST", 0x140008, [], .island, 0x0, 0x0, 0x0, 0x0, 0x0, 0x0⟩,
  ⟨"DAT_SEAL", 0x14000c, [], .island, 0x0, 0x0, 0x0, 0x0, 0x0, 0xf0⟩,
  ⟨"DAT_SECONDS", 0x140010, [], .island, 0x0, 0x0, 0x0, 0x0, 0x0, 0x0⟩,
  ⟨"DAT_LOG", 0x140014, [], .island, 0x0, 0x0, 0x0, 0x0, 0x0, 0x0⟩,
  ⟨"DAT_ACC_LO", 0x140020, [(4, 0x10), (2, 0x8)], .island, 0x0, 0x0, 0x0, 0x0, 0x0, 0x0⟩,
  ⟨"DAT_ACC_HI", 0x140024, [(4, 0x10), (2, 0x8)], .island, 0x0, 0x0, 0x0, 0x0, 0x0, 0x0⟩,
  ⟨"DAT_V", 0x140060, [(4, 0x4)], .island, 0x0, 0x0, 0x0, 0x0, 0x0, 0x0⟩,
  ⟨"DAT_I", 0x140070, [(4, 0x4)], .island, 0x0, 0x0, 0x0, 0x0, 0x0, 0x0⟩]

def regsPio : List RegInfo := [
  ⟨"PIO_CFG", 0x50000, [(224, 0x4)], .device, 0x0, 0x0, 0x0, 0x0, 0x0, 0x40000⟩,
  ⟨"PIO_OUT", 0x50400, [(7, 0x4)], .device, 0x0, 0x0, 0x0, 0x0, 0x0, 0x0⟩,
  ⟨"PIO_SET", 0x50420, [(7, 0x4)], .device, 0x0, 0x0, 0x0, 0x0, 0xffffffff, 0x0⟩,
  ⟨"PIO_CLR", 0x50440, [(7, 0x4)], .device, 0x0, 0x0, 0x0, 0x0, 0xffffffff, 0x0⟩,
  ⟨"PIO_TGL", 0x50460, [(7, 0x4)], .device, 0x0, 0x0, 0x0, 0x0, 0xffffffff, 0x0⟩,
  ⟨"PIO_IN", 0x50480, [(7, 0x4)], .device, 0x0, 0x0, 0x0, 0x0, 0x0, 0x0⟩,
  ⟨"PIO_OE", 0x504a0, [(7, 0x4)], .device, 0x0, 0x0, 0x0, 0x0, 0x0, 0x0⟩,
  ⟨"PIO_COUNT", 0x50540, [(3, 0x4)], .device, 0x0, 0x0, 0x0, 0x0, 0x0, 0x0⟩]

end Sys2Proof.Machine
end

