-- ==== Sys2Proof/Machine/Sparse.lean ====
section
/-! DEFINITION. Sparse data in one canonical form: a list of (key, value) pairs, keys strictly rising, no entry equal to
what an unlisted key reads as. Registers, memories and per-instance hidden state are all held so; the default of a key is a
function `d` of the key. -/

namespace Sys2Proof.Machine

/-- Sparse contents: (key, value) pairs. -/
abbrev Sparse (α : Type) := List (Nat × α)

/-- The value at key `k`; `d k` when nothing is listed. -/
def sget {α : Type} (d : Nat → α) : Sparse α → Nat → α
  | [], k => d k
  | (k', v) :: m, k => if k = k' then v else sget d m k

/-- Insert without regard to the default. -/
def sput {α : Type} : Sparse α → Nat → α → Sparse α
  | [], k, v => [(k, v)]
  | (k', v') :: m, k, v =>
    if k < k' then (k, v) :: (k', v') :: m
    else if k = k' then (k, v) :: m
    else (k', v') :: sput m k v

/-- Remove a key. -/
def sdel {α : Type} : Sparse α → Nat → Sparse α
  | [], _ => []
  | (k', v') :: m, k => if k = k' then m else (k', v') :: sdel m k

/-- Write `v` at `k`, keeping the canonical form: a value equal to the default is not listed. -/
def sset {α : Type} [DecidableEq α] (d : Nat → α) (m : Sparse α) (k : Nat) (v : α) : Sparse α :=
  if v = d k then sdel m k else sput m k v

/-- Keep the entries that satisfy `p` (the others return to their default). -/
def sfilter {α : Type} (p : Nat → Bool) (m : Sparse α) : Sparse α := m.filter (fun e => p e.1)

/-- Keys strictly rising, all above `lo`. -/
def srising {α : Type} : Sparse α → Option Nat → Bool
  | [], _ => true
  | (k, _) :: m, lo => (match lo with | none => true | some l => decide (l < k)) && srising m (some k)

/-- No entry equal to its default. -/
def snodefault {α : Type} [DecidableEq α] (d : Nat → α) (m : Sparse α) : Bool :=
  m.all (fun e => decide (e.2 ≠ d e.1))

/-- The canonical form. -/
def swf {α : Type} [DecidableEq α] (d : Nat → α) (m : Sparse α) : Bool := srising m none && snodefault d m

end Sys2Proof.Machine
end

