-- ==== Sys2Proof/Machine/TypesStream.lean ====
section
/-! DEFINITION. Hidden state of the streams (spec/08) and of the stitch tiles and wales (spec/04). -/

namespace Sys2Proof.Machine

/-- CLOSED, OPEN or BINDING (R274). -/
inductive StrState where
  | closed | open_ | binding
  deriving DecidableEq, Repr

/-- What a ring position holds. -/
inductive PosMark where
  | empty | elem | gap
  deriving DecidableEq, Repr

/-- A released unit before its latest usable time, which is given in units of 1/1536 ns of device stamp time: one air
sample of 1/491.52 MHz is 3125 of them (R283). -/
structure RelUnit where
  start : Nat
  len : Nat
  latest : Nat
  deriving DecidableEq, Repr

/-- One stream beside its configuration registers. Positions count from 0 at open. -/
structure Stream where
  st : StrState
  /-- next position of a sequential producer -/
  wpos : Nat
  /-- oldest undelivered position -/
  dpos : Nat
  /-- first position not yet released (SCHED) -/
  relTo : Nat
  marks : Sparse PosMark
  pend : List RelUnit
  /-- seams waiting for delivery: before which position, and whether the producer sent it (R291, R292) -/
  seams : List (Nat × Bool)
  seamNo : Nat
  seamQueued : Bool
  /-- expected SEQ on the producer's hop (R280) -/
  seqIn : Nat
  /-- consecutive losses of a non-stalling producer of an unbuffered stream (R279) -/
  losses : Nat
  /-- one past the highest position that an element has filled -/
  fillTo : Nat
  /-- elements that have reached the consumer's end and are not taken -/
  inbox : List Elem
  /-- elements of each flit of the last of them that the destination still holds, the oldest first (R278); those before stand in the gate
  channel's buffer -/
  flits : List Nat
  /-- expected SEQ on the hop from the buffer to the consumer (R280) -/
  seqMid : Nat
  /-- a stalling producer that restarted still has its gap of COUNT 0 to send (R295) -/
  gapDue : Bool
  /-- elements a gate channel GC8 to GC15 holds on their way into the stream (R154) -/
  outbox : List Elem
  /-- bind-off: discards of step 1, the command, the deadline, the place of the final seam, and its delivery -/
  bindDiscards : Nat
  bindOpen : Option Nat
  bindDeadline : Nat
  final : Option Nat
  finalSent : Bool
  deriving DecidableEq, Repr

/-- A CLOSED stream. -/
def Stream.closed : Stream :=
  { st := .closed, wpos := 0, dpos := 0, relTo := 0, marks := [], pend := [], seams := [], seamNo := 0,
    seamQueued := false, seqIn := 0, losses := 0, fillTo := 0, inbox := [], flits := [], seqMid := 0, gapDue := false,
    outbox := [], bindDiscards := 0, bindOpen := none,
    bindDeadline := 0, final := none, finalSent := false }

/-- Where an operation's result lands: a register (`main`: also the unit's exchange register), an accumulator, a predicate,
the latched sideband of an input channel. -/
inductive Target where
  | reg (r : Nat) (v : Word) (main : Bool)
  | acc (a : Nat) (dI dQ : Int) (clr : Bool)
  | pred (p : Nat) (v : Bool)
  | sband (c : Nat) (v : Nat)
  deriving DecidableEq, Repr

/-- A result in flight: the issuing cycle from which it is visible, the unit, and where it lands (R128). -/
structure Landing where
  due : Nat
  unit : Nat
  tgt : Target
  deriving DecidableEq, Repr

/-- A store of the present cycle (R140). -/
structure TileStore where
  unit : Nat
  addr : Nat
  bytes : List Byte
  deriving DecidableEq, Repr

/-- A drain in progress (R159): the channel, the pattern named, the token, issuing cycles left. -/
structure Drain where
  chan : Nat
  pattern : Nat
  token : Elem
  left : Nat
  deriving DecidableEq, Repr

/-- One logical tile beside its memory and WAL registers. -/
structure Tile where
  /-- key 64 × unit + register -/
  regs : Sparse Word
  /-- key 4 × unit + accumulator -/
  acc : Sparse (Int × Int)
  /-- key 8 × unit + predicate; p0 reads 1 whatever is held -/
  preds : Sparse Bool
  xr : Sparse Word
  /-- sideband last read on IC0 to IC3 -/
  sb : Sparse Nat
  agOffs : Sparse Nat
  /-- a pattern has been activated -/
  live : Bool
  /-- present slot, kernel iteration, level-1 and level-2 pass -/
  slot : Nat
  iter : Nat
  pass1 : Nat
  pass2 : Nat
  /-- issuing cycles counted, and the units that have issued in the present one -/
  cyc : Nat
  issued : List Nat
  /-- units that have met the present stall cycle -/
  stalled : List Nat
  /-- results in flight, in order of issue -/
  flight : List Landing
  /-- of the present cycle: stores, accumulators to clear (4 × unit + accumulator), generators used, banks accessed -/
  stores : List TileStore
  clears : List Nat
  agUsed : List Nat
  banks : List Nat
  drain : Option Drain
  /-- receive buffers, key 4 × port + channel; port 0 N, 1 E, 2 S, 3 W, 4 DN0, 5 DN1 -/
  inBuf : Sparse (List Elem)
  /-- output buffers with their reserve slots (R158), and credits spent, key 4 × port + channel -/
  outBuf : Sparse (List Elem)
  spent : Sparse Nat
  /-- buffer places freed whose credit has not yet gone back to the sender -/
  owed : Sparse Nat
  /-- output arbiter pointer per port (R151) -/
  rr : Sparse Nat
  /-- input channels that discard up to their next seam after a restart (R295) -/
  discard : Sparse Bool
  /-- a restart in progress, with the lowest SEAM_NO met so far; the tile issues nothing until it ends -/
  restart : Option (Option Nat)
  /-- SEAM_NO of the seam passed on last (R603) -/
  lastSeam : Option Nat
  /-- the switch window of the selvedge cells of DN0 and DN1: the stamp of its edge E; credits held in it, key 4 × port + channel (R229) -/
  dnEdge : Option Nat
  heldCredit : Sparse Nat
  deriving DecidableEq, Repr

/-- A tile as power-up leaves it. DESIGN CHOICE (log entry 13): the spec gives registers, accumulators, exchange registers, sideband
latches and generator offsets no contents at power-up; here they read 0. -/
def Tile.init : Tile :=
  { regs := [], acc := [], preds := [], xr := [], sb := [], agOffs := [], live := false, slot := 0, iter := 0,
    pass1 := 0, pass2 := 0, cyc := 0, issued := [], stalled := [], flight := [], stores := [], clears := [], agUsed := [], banks := [],
    drain := none, inBuf := [], outBuf := [], spent := [], owed := [], rr := [], discard := [], restart := none, lastSeam := none,
    dnEdge := none, heldCredit := [] }

/-- Where a switch order comes from: the air schedule, SHT.SWITCH's group, a command waiting for its edge, a register
write, or the loader at the end of a cast-on load. -/
inductive SwSrc where
  | air | group | cmd (id : Nat) | reg | loader
  deriving DecidableEq, Repr

/-- A pattern switch that waits for its edge: the tiles (a mask), the pattern (for the loader's start group four bits a tile), the instant its order reached or reaches the
island, its source, and whether it met a stopped clock (R238). -/
structure PatOrder where
  tiles : Nat
  pattern : Nat
  at_ : Nat
  src : SwSrc
  late : Bool
  deriving DecidableEq, Repr

/-- A plane switch that waits for its edge. -/
structure PlaneOrder where
  plane : Nat
  at_ : Nat
  src : SwSrc
  late : Bool
  deriving DecidableEq, Repr

/-- A shift copy in progress (R163): new SHIFT_AT and the command or rotation that asked for it. -/
structure Shift where
  upto : Nat
  openId : Option Nat
  rotation : Bool
  deriving DecidableEq, Repr

/-- Wale state beside its registers. -/
structure Wale where
  shift : Option Shift
  orders : List PatOrder
  deriving DecidableEq, Repr

/-- An idle wale. -/
def Wale.init : Wale := ⟨none, []⟩

/-- The stitch tier: tiles, tile memories, stored patterns and wales. -/
structure Stitch where
  tiles : Sparse Tile
  /-- tile memory bytes, key tile × 2^17 + address -/
  mem : Sparse Byte
  /-- chart-tier patterns, key (tile × 16 + pattern) × 6152 + byte; the riser record is bytes 6144 to 6151 -/
  pats : Sparse Byte
  wales : Sparse Wale
  deriving DecidableEq, Repr

/-- The stitch tier at power-on. -/
def Stitch.init : Stitch := ⟨[], [], [], []⟩

end Sys2Proof.Machine
end

