-- ==== Sys2Proof/Machine/TypesAir.lean ====
section
/-! DEFINITION. Hidden state of the air schedule engine and the tap buffers (spec/09), and of the configuration loader
(spec/07). -/

namespace Sys2Proof.Machine

/-- A schedule entry: four words (Table 9-2). -/
structure AirEntry where
  w0 : Word
  w1 : Word
  w2 : Word
  w3 : Word
  deriving DecidableEq, Repr

/-- An entry never written: NOP at offset 0 (R334). -/
def AirEntry.nop : AirEntry := ⟨0, 0, 0, 0⟩

/-- A dispatched entry and the air time at which it acts. -/
structure AirDue where
  at_ : Nat
  e : AirEntry
  deriving DecidableEq, Repr

/-- A sealing in progress (R325): table, COUNT, PERIOD, PHASE, the command. -/
structure AirSeal where
  table : Nat
  count : Nat
  period : Nat
  phase : Nat
  openId : Nat
  deriving DecidableEq, Repr

/-- A tap buffer (R315): FILLING while `left` elements are missing, HELD once none is. -/
structure Tap where
  source : Nat
  at_ : Nat
  left : Nat
  held : Nat
  first : Nat
  deriving DecidableEq, Repr

/-- A cascade broadcast received (R316): the air time at which it acts, VALUE, SWAP. -/
structure AirBcast where
  at_ : Nat
  value : Word
  swap : Bool
  deriving DecidableEq, Repr

/-- The engine beside its registers. -/
structure Air where
  /-- entries, key 4096 × table + index -/
  entries : Sparse AirEntry
  /-- starting boundary after AIR.ENABLE, with its command -/
  start : Option (Nat × Nat)
  /-- boundary of the period being dispatched and the next entry -/
  base : Nat
  next : Nat
  due : List AirDue
  /-- boundary of the pending swap, with the command that waits for it -/
  swap : Option (Nat × Option Nat)
  /-- T_stop in air time, with the command that waits for it -/
  stop : Option (Nat × Option Nat)
  sealing : Option AirSeal
  taps : Sparse (Option Tap)
  bcasts : List AirBcast
  /-- uplink regions of each table's TDD groups: offsets of their start and end (R322) -/
  tdd : Sparse (List (Nat × Nat))
  deriving DecidableEq, Repr

/-- The engine after device reset. -/
def Air.init : Air :=
  { entries := [], start := none, base := 0, next := 0, due := [], swap := none, stop := none, sealing := none, taps := [],
    bcasts := [], tdd := [] }

/-- Where a load context's stream comes from: flash (with the place it is read from, benchmark or cast-on area), host
(address, BYTES, HOLD), the chart port of a sheet. -/
inductive LdrSrc where
  | flash (bench : Bool)
  | host (addr bytes : Nat) (hold : Bool)
  | port (sheet : Nat)
  deriving DecidableEq, Repr

/-- A load context beside LDR_CTX (R242 to R244). -/
structure LdrCtx where
  src : LdrSrc
  /-- bytes as transmitted, in order; the staging region of the store tier holds the plaintext -/
  raw : List Byte
  /-- a cast-on load; the fall-back stream after a failure, whose reason, code and source it keeps -/
  cast : Bool
  failed : Option (Nat × Nat × Nat)
  /-- checks 6 to 12 have passed and the context waits for the write port -/
  ready : Bool
  openId : Option Nat
  /-- stamp of the last beat of a chart port -/
  lastBeat : Nat
  deriving DecidableEq, Repr

/-- The loader. -/
structure Ldr where
  ctx : Sparse (Option LdrCtx)
  /-- arbiter pointers: claims over sources 0 to 32, write port over LC0 to LC3 -/
  rrClaim : Nat
  rrWrite : Nat
  /-- context that holds the write port -/
  writing : Option Nat
  /-- bytes of a rejected stream that a chart port still takes and discards -/
  drop : Sparse Nat
  /-- last CP_CODE and CP_PLANE reported by each chart port with CP_DONE -/
  cpDone : Sparse (Option (Nat × Nat))
  /-- members of the start group whose edge has not passed (R254 order 6) -/
  startLeft : Nat
  /-- the commit in progress: stamp of its start, how many of its items have landed (Table 7-11) -/
  began : Nat
  landed : Nat
  deriving DecidableEq, Repr

/-- The loader after device reset. -/
def Ldr.init : Ldr :=
  { ctx := [], rrClaim := 0, rrWrite := 0, writing := none, drop := [], cpDone := [], startLeft := 0, began := 0, landed := 0 }

end Sys2Proof.Machine
end

