-- ==== Sys2Proof/Machine/TypesClock.lean ====
section
/-! DEFINITION. Hidden state of the clock islands, the sequencer and the island power switches (spec/14). -/

namespace Sys2Proof.Machine

/-- Where a sequencer request comes from (R473); a relock after coasting also goes through it (R461). -/
inductive SeqSrc where
  | pwrOp | clkFreq | cap | band | relock
  deriving DecidableEq, Repr

/-- A request to the sequencer: a CLK.FREQ setting (island and kHz), the islands whose earlier CLK.FREQ settings end when it is served
(those of a PWR.OP, R14, R486), and the command that waits for it. -/
structure SeqReq where
  src : SeqSrc
  freq : Option (Nat × Nat)
  drops : List Nat
  openId : Option Nat
  deriving DecidableEq, Repr

/-- The part of a request being served (R473 steps 1 to 3). -/
inductive SeqPhase where
  | raise | freq | lower
  deriving DecidableEq, Repr

/-- The request being served: old and new rail targets in mV, the islands still to change, each with the frequency in kHz that its point
had when the target was taken (the first of them stopped for its change), and the AVSBus step waiting for its acknowledgement (rail and
stamp sent). -/
structure SeqServe where
  req : SeqReq
  phase : SeqPhase
  old : Nat × Nat
  new : Nat × Nat
  todo : List (Nat × Nat)
  step : Option (Nat × Nat)
  deriving DecidableEq, Repr

/-- The power-switch stage of a sheet or wale island (Table 14-4, R477). -/
inductive PowStage where
  | on | closing | opened | off | powering
  deriving DecidableEq, Repr

/-- Progress of DORMANT entry and exit (Table 14-5): E1 to E3, E3 to E4, DORMANT, X1 to X2, X2 to X3. -/
inductive DormPhase where
  | none | entry | noReturn | dormant | exitPower | exitQuiet
  deriving DecidableEq, Repr

/-- Clocks, sequencer and power. -/
structure Pwr where
  /-- consecutive failed and passed crystal gates (R460) -/
  failRun : Nat
  passRun : Nat
  /-- islands whose generator coasts on IRO (R463) -/
  coast : Sparse Bool
  /-- present frequency of islands 0 to 71 in kHz -/
  khz : Sparse Nat
  /-- frequency set by CLK.FREQ until the next PWR.OP or cap change (R486) -/
  override : Sparse (Option Nat)
  queue : List SeqReq
  serving : Option SeqServe
  stage : Sparse PowStage
  /-- PWR.ISLAND command waiting for an island -/
  stageOpen : Sparse (Option Nat)
  /-- a graticule request that waits for an island past its point of no return (R476) -/
  held : Sparse Bool
  dorm : DormPhase
  dormOpen : Option Nat
  /-- a wake event that came at or after the point of no return (R479) -/
  heldWake : Bool
  /-- islands stopped by SHT.CLOCK (R196) -/
  clkStop : Sparse Bool
  /-- router islands that have gated their own clock (R505) -/
  selfGated : Sparse Bool
  deriving DecidableEq, Repr

/-- Clocks and power after device reset. -/
def Pwr.init : Pwr :=
  { failRun := 0, passRun := 0, coast := [], khz := [], override := [], queue := [], serving := none, stage := [],
    stageOpen := [], held := [], dorm := .none, dormOpen := none, heldWake := false, clkStop := [], selfGated := [] }

end Sys2Proof.Machine
end

