-- ==== Sys2Proof/Machine/TypesDat.lean ====
section
/-! DEFINITION. State of the datum island (spec/23) and of what Ubtor keeps of its records. -/

namespace Sys2Proof.Machine

/-- A datum event (Table 23-5): its words 0 to 3. -/
structure DatEvent where
  eseq : Nat
  time : Nat
  kind : Nat
  ch : Nat
  data : Nat
  deriving DecidableEq, Repr

/-- A measurement in progress (Table 23-4): channel, samples wanted, samples taken, sums of the raw codes. -/
structure CalMeasure where
  ch : Nat
  n : Nat
  taken : Nat
  v : Int
  i : Int
  deriving DecidableEq, Repr

/-- The island. Residues are in 2^-83 mJ, exact, keyed 2 × channel + direction (0 import, 1 export). -/
structure Dat where
  powered : Bool
  /-- level of DATUM_CAL_EN -/
  calEn : Bool
  residue : Sparse Nat
  acc : Sparse Nat
  /-- contents of the programmed slots, in order; a failed slot keeps what the fuses hold -/
  slots : List (List Byte)
  /-- the slot the last sample used -/
  active : Option Nat
  session : Bool
  staged : Option (List Byte)
  /-- the slot being programmed -/
  sealing : Option (List Byte)
  measure : Option CalMeasure
  /-- bytes last sent on DAT_CAL_TXD -/
  reply : List Byte
  /-- the last 1 024 events, oldest first -/
  log : List DatEvent
  eseq : Nat
  seconds : Nat
  /-- events not yet posted in MB29 -/
  waiting : List DatEvent
  /-- an energy record is due -/
  recDue : Bool
  /-- samples taken in the current second; sums of v and i numerators (2^-40 V or A) per channel; channels saturated in it -/
  inSecond : Nat
  sums : Sparse (Int × Int)
  overs : List Nat
  /-- channels in a run of saturated samples -/
  run : List Nat
  /-- sums of the last second, and channels saturated in it -/
  means : Sparse (Int × Int)
  overLast : List Nat
  onRc : Bool
  goodSecs : Nat
  romFault : Bool
  /-- the digest last recomputed -/
  digest : Option Word
  /-- import energy toward the pulse output in mJ × KP, impulses due, impulses sent, and the sample count at the last one -/
  pulseAcc : Nat
  pulsesDue : Nat
  pulses : Nat
  pulseAt : Option Nat
  /-- Ubtor's copy: words 2 to 19 of the last energy record; DAT_IDENT, DAT_DIGEST, DAT_SEAL and DAT_LOG read with it; the events
  received -/
  rec_ : List Word
  recSide : List Word
  events : List DatEvent
  /-- energy shares in mJ since survey commit, key 4 × tenant index + channel, and the import totals at the record before (R677) -/
  shares : Sparse Nat
  lastAcc : Sparse Nat
  deriving DecidableEq, Repr

/-- The island of a part without history, before its supply rises. -/
def Dat.init : Dat :=
  { powered := false, calEn := false, residue := [], acc := [], slots := [], active := none, session := false, staged := none,
    sealing := none, measure := none, reply := [], log := [], eseq := 0, seconds := 0, waiting := [], recDue := false,
    inSecond := 0, sums := [], overs := [], run := [], means := [], overLast := [], onRc := false, goodSecs := 0, romFault := false,
    digest := none, pulseAcc := 0, pulsesDue := 0, pulses := 0, pulseAt := none, rec_ := [], recSide := [], events := [],
    shares := [], lastAcc := [] }

end Sys2Proof.Machine
end

