-- ==== Sys2Proof/Machine/TypesFabric.lean ====
section
/-! DEFINITION. Hidden state of the fabric sheets, their planes, risers, reset nets, switches and the capture plane
(spec/05, spec/06). -/

namespace Sys2Proof.Machine

/-- A block RAM port's read output: data with the CE and DBE flags of shape 4. -/
structure BramOut where
  data : Nat
  ce : Bool
  dbe : Bool
  deriving DecidableEq, Repr

/-- States of the capture plane (R199). -/
inductive CapState where
  | empty | armed | copying | held
  deriving DecidableEq, Repr

/-- One sheet's capture record (R203). -/
structure CapRec where
  island : Nat
  plane : Nat
  incomplete : Bool
  edgeNone : Bool
  edge : Nat
  khz : Nat
  /-- flip-flops, key 2 × cell + (0 FFA, 1 FFB) -/
  ffs : Sparse Bool
  /-- block RAM bits, key 36864 × block + bit -/
  bram : Sparse Bool
  done : Bool
  deriving DecidableEq, Repr

/-- The capture plane. -/
structure Capture where
  st : CapState
  mode : Nat
  set : Nat
  trigSheet : Nat
  t : Nat
  trigger : Nat
  ffOnly : Bool
  /-- the sheet that posted it, for a fabric post -/
  poster : Option Nat
  openId : Option Nat
  recs : Sparse (Option CapRec)
  deriving DecidableEq, Repr

/-- An empty capture plane. -/
def Capture.init : Capture := ⟨.empty, 0, 0, 0, 0, 0, false, none, none, []⟩

/-- A group switch of SHT.SWITCH in progress: its command, members whose edge has not passed, and whether one was not
switched (R240). -/
structure GroupSw where
  openId : Nat
  left : Nat
  missed : Bool
  deriving DecidableEq, Repr

/-- A pulse of SHT.RESET on one net: when it falls (R208). -/
structure NetPulse where
  net : Nat
  until_ : Nat
  openId : Nat
  deriving DecidableEq, Repr

/-- What the crossing behind a border wire holds (R465): the value last delivered, the value the wire presents, the stamp since which it
has. -/
structure BorderRec where
  last : Bool
  cur : Bool
  since : Nat
  deriving DecidableEq, Repr

/-- The fabric tier. -/
structure Fabric where
  /-- flip-flops, key 2 × (36864 × sheet + cell) + (0 FFA, 1 FFB) -/
  ffs : Sparse Bool
  /-- shadows, key 2 × (36864 × (4 × sheet + plane) + cell) + (0, 1) -/
  shadow : Sparse Bool
  /-- cell records of the planes, key 36864 × (4 × sheet + plane) + cell (Table 7-8) -/
  cells : Sparse (BitVec 256)
  /-- plane control bytes, key 688 × (4 × sheet + plane) + byte (Table 7-9) -/
  ctrl : Sparse Byte
  /-- block RAM bits, key 36864 × (128 × sheet + block) + bit -/
  bram : Sparse Bool
  /-- read outputs, key 2 × (128 × sheet + block) + port -/
  bramOut : Sparse BramOut
  /-- riser receive buffers on the fabric side, key 4 × (40 × sheet + port) + channel -/
  rx : Sparse (List Elem)
  /-- credits user logic has spent toward the tile -/
  txSpent : Sparse Nat
  /-- credit pulses held in a switch window (R229) -/
  heldPulse : Sparse Nat
  /-- switch window open, with the outgoing plane (none before the first activation) -/
  window : Sparse (Option (Option Nat))
  /-- values the selvedge cells registered at E − 1, by wire (see selvMode) -/
  selv : Sparse Bool
  /-- signals of a sheet at 1 that the surroundings give (R183) -/
  high : Sparse (List Net)
  /-- local clock trees, key 8 × sheet + t: 1 while LCKt is high, t = 0 to 3; 4: rising edges of LCK0 since the trees were aligned (R195) -/
  lck : Sparse Nat
  /-- border wires on their way to another island, key 1536 × sheet + wire -/
  border : Sparse BorderRec
  orders : Sparse (List PlaneOrder)
  group : Option GroupSw
  /-- reset nets at each sheet, key 4 × sheet + net: 2 asserted, 1 fallen and not yet released on
  the third edge, 0 released (R197) -/
  nets : Sparse Nat
  pulses : List NetPulse
  /-- orientation in force and recorded, key 40 × sheet + port: 0 OFF, 1 NORMAL, 2 REVERSED -/
  orient : Sparse Nat
  recorded : Sparse Nat
  /-- stamp at which the two ends came to request different orientations; whether it has been counted -/
  disagree : Sparse (Option (Nat × Bool))
  cap : Capture
  deriving DecidableEq, Repr

/-- The fabric tier at power-on. -/
def Fabric.init : Fabric :=
  { ffs := [], shadow := [], cells := [], ctrl := [], bram := [], bramOut := [], rx := [], txSpent := [],
    heldPulse := [], window := [], selv := [], high := [], lck := [], border := [], orders := [], group := none, nets := [], pulses := [], orient := [],
    recorded := [], disagree := [], cap := Capture.init }

end Sys2Proof.Machine
end

