-- ==== Sys2Proof/Machine/TypesFault.lean ====
section
/-! DEFINITION. Hidden state of the fault-window unit, the swatch controller, the thermal island and the gazetteer
(spec/19 to 22). -/

namespace Sys2Proof.Machine

/-- A fault report on its way to the fault-window unit (R595), with the conflict cases of Table 19-5 it shows: case, kept
rank (0 for policy) and broken rank. -/
structure Report where
  src : Nat
  inst : Nat
  detail : List Word
  keeps : List (Nat × Nat × Nat)
  deriving DecidableEq, Repr

/-- A window slot: one key and the counts of its current A and B windows (R598, R600). -/
structure Slot where
  src : Nat
  inst : Nat
  winA : Nat
  cntA : Nat
  winB : Nat
  cntB : Nat
  lasting : Bool
  latest : Nat
  deriving DecidableEq, Repr

/-- A KEEP event already recorded in the current second (R609). -/
structure KeepKey where
  case : Nat
  broken : Nat
  inst : Nat
  second : Nat
  deriving DecidableEq, Repr

/-- A lasting outcome that has ended and whose record is still to be written (R601): its key, whether a spare was lacking, and
whether a tenant's resource was then marked unusable (conflict case 9). -/
structure FltEnd where
  src : Nat
  inst : Nat
  noSpare : Bool
  marked : Bool
  deriving DecidableEq, Repr

/-- The fault-window unit and the event log. -/
structure Flt where
  /-- reports waiting at the unit's inputs (R599) -/
  waiting : List Report
  slots : Sparse (Option Slot)
  /-- event records held, oldest first, eight words each (Table 19-6) -/
  log : List (List Word)
  seq : Nat
  kept : List KeepKey
  ended : List FltEnd
  deriving DecidableEq, Repr

/-- The unit and the log after device reset. -/
def Flt.init : Flt := ⟨[], [], [], 0, [], []⟩

/-- One completed MRAM image of counters and histograms (Table 22-1). -/
structure GazImage where
  seq : Nat
  ctr : Sparse Nat
  hist : Sparse Nat
  deriving DecidableEq, Repr

/-- An image write in progress, with the command that asked for it (R652, R663). -/
structure GazWrite where
  toB : Bool
  image : GazImage
  openId : Option Nat
  deriving DecidableEq, Repr

/-- A GAZ.EXPORT in progress: its command, the host address, the image. -/
structure GazExport where
  openId : Nat
  addr : Nat
  bytes : List Byte
  deriving DecidableEq, Repr

/-- The gazetteer: the accumulation in SRAM, the two images and the journal. -/
structure Gaz where
  ctr : Sparse Nat
  hist : Sparse Nat
  sramGood : Bool
  imgA : GazImage
  imgB : GazImage
  lastB : Bool
  writing : Option GazWrite
  /-- an image write that fell due while another was in progress -/
  dueAgain : Bool
  nextDue : Nat
  /-- records used, in JSEQ order, eight words each (Table 22-4) -/
  journal : List (List Word)
  exporting : List GazExport
  /-- nanoseconds of the current second not yet counted, per counter 0 to 41 -/
  secAcc : Sparse Nat
  /-- highest R500 of each tier in the current 600 s interval, 0.25 °C/s units -/
  peakR : Sparse Nat
  /-- MACs (0 to 15) and yarn ports (16, 17) that were UP at the start of the current interval and have been since -/
  steady : List Nat
  deriving DecidableEq, Repr

/-- The gazetteer of a part without history. -/
def Gaz.init : Gaz :=
  { ctr := [], hist := [], sramGood := true, imgA := ⟨0, [], []⟩, imgB := ⟨0, [], []⟩, lastB := false, writing := none, dueAgain := false,
    nextDue := 600000000000, journal := [], exporting := [], secAcc := [], peakR := [], steady := [] }

end Sys2Proof.Machine
end

