-- ==== Sys2Proof/Machine/TypesGrt.lean ====
section
/-! DEFINITION. Hidden state of the graticule (spec/15): route tables, router buffers and arbiters, the network interfaces'
queues, reservations and sinks, link tests. -/

namespace Sys2Proof.Machine

/-- A route table entry (R499): HOPS holds 3 bits a hop, the first lowest. -/
structure RouteEntry where
  valid : Bool
  dst : Nat
  len : Nat
  split : Nat
  hops : Nat
  deriving DecidableEq, Repr

/-- An entry after island reset. -/
def RouteEntry.none : RouteEntry := ⟨false, 0, 0, 0, 0⟩

/-- A route change that waits until the old route is empty (R501): the entry to write at an index, for a destination, and the
command that waits. -/
structure RouteChange where
  ni : Nat
  index : Nat
  dst : Nat
  entry : RouteEntry
  openId : Option Nat
  deriving DecidableEq, Repr

/-- A packet of REQ, RSP or CFG (Table 15-3). -/
structure GrtPkt where
  vn : Nat
  src : Nat
  dst : Nat
  op : Nat
  len : Nat
  key : Option Nat
  tag : Nat
  cls : Nat
  status : Nat
  addr : Nat
  data : List Byte
  /-- the master behind the source interface -/
  master : Master
  deriving DecidableEq, Repr

/-- A flit: its pair, remaining hops, hops left in segment 1, and the packet it ends (carried by the tail). -/
structure GrtFlit where
  vn : Nat
  vc : Nat
  head : Bool
  tail : Bool
  hops : List Nat
  seg1 : Nat
  pkt : GrtPkt
  deriving DecidableEq, Repr

/-- A request that waits for its response: destination and reserved flits of the sink (R504). -/
structure Outstanding where
  tag : Nat
  dst : Nat
  flits : Nat
  deriving DecidableEq, Repr

/-- A link test (Table 15-5): who asked for it (a command, the swatch controller or neither), whether it restores a failed
link, and the route tables before it. -/
structure LinkTest where
  link : Nat
  openId : Option Nat
  restore : Bool
  swatch : Bool
  prior : Sparse RouteEntry
  deriving DecidableEq, Repr

/-- The network. -/
structure Grt where
  /-- key 64 × NI + entry -/
  routes : Sparse RouteEntry
  changes : List RouteChange
  test : Option LinkTest
  /-- consecutive retransmissions, key 2 × link + direction -/
  retx : Sparse Nat
  /-- input buffers, key ((8 × router + port) × 4 + VN) × 2 + VC; ports N, E, S, W, L0 to L3 -/
  buf : Sparse (List GrtFlit)
  /-- the input port that holds a pair on an output port, key (8 × router + port) × 8 + pair -/
  lock : Sparse (Option Nat)
  /-- arbiter pointers: pair by output port, input by output port and pair, VN by interface -/
  rrPair : Sparse Nat
  rrIn : Sparse Nat
  rrInj : Sparse Nat
  /-- injection queues, key 4 × NI + VN -/
  inj : Sparse (List GrtFlit)
  /-- packets that have reached an interface -/
  arrived : Sparse (List GrtPkt)
  outstanding : Sparse (List Outstanding)
  nextTag : Sparse Nat
  /-- the last response taken at an interface -/
  answered : Sparse (Option GrtPkt)
  deriving DecidableEq, Repr

/-- The network after device reset. -/
def Grt.init : Grt :=
  { routes := [], changes := [], test := none, retx := [], buf := [], lock := [], rrPair := [], rrIn := [], rrInj := [],
    inj := [], arrived := [], outstanding := [], nextTag := [], answered := [] }

end Sys2Proof.Machine
end

