-- ==== Sys2Proof/Machine/TypesHost.lean ====
section
/-! DEFINITION. Hidden state of the PCIe endpoint and the DMA engine (spec/17). -/

namespace Sys2Proof.Machine

/-- A descriptor the engine has fetched and started (Table 17-3), with what it has done so far. -/
structure Desc where
  index : Nat
  op : Nat
  irq : Bool
  first : Bool
  last : Bool
  len : Nat
  host : Nat
  internal : Nat
  user : Word
  moved : Nat
  lastSeen : Bool
  lastWrite : Nat
  /-- status and INFO once it has ended (Table 17-5) -/
  ended : Option (Nat × Nat)
  deriving DecidableEq, Repr

/-- Queue state beside its registers: descriptors started and not completed, oldest first, and whether the completion ring is on a
pass of odd number, whose PHASE is 0. -/
structure DmaQ where
  started : List Desc
  inverted : Bool
  deriving DecidableEq, Repr

/-- A queue that has never run. -/
def DmaQ.init : DmaQ := ⟨[], false⟩

/-- Errors that AER reports (R555). -/
inductive AerErr where
  | receiver | badTlp | badDllp | replayRollover | replayTimeout | advisory
  | dataLink | poisoned | completionTimeout | completerAbort | unexpectedCompletion | overflow | malformed | ecrc | unsupported
  deriving DecidableEq, Repr

/-- What the endpoint answers a BAR request with: 0 success, 1 Unsupported Request, 2 Completer Abort; the words read. -/
structure HostReply where
  status : Nat
  data : List Word
  deriving DecidableEq, Repr

/-- The endpoint and the engine. -/
structure HostIf where
  queues : Sparse DmaQ
  /-- the queue after the arbiter's last winner -/
  rrQueue : Nat
  /-- MSI-X table words, key 4 × vector + word (R554) -/
  msixTable : Sparse Word
  pba : Sparse Bool
  /-- what the device has last written to host memory (completion records, data, exports, MSI-X writes) -/
  mem : Sparse Byte
  /-- vector writes sent, per vector -/
  msixSent : Sparse Nat
  /-- AER: the errors reported, oldest first, and the first TLP of the first error (R555) -/
  aer : List AerErr
  headerLog : Option BarReq
  targetSpeed : Nat
  /-- the last answer to a BAR request -/
  reply : HostReply
  deriving DecidableEq, Repr

/-- The endpoint and the engine after power-on reset. -/
def HostIf.init : HostIf :=
  { queues := [], rrQueue := 0, msixTable := [], pba := [], mem := [], msixSent := [], aer := [], headerLog := none,
    targetSpeed := 5, reply := ⟨0, []⟩ }

end Sys2Proof.Machine
end

