-- ==== Sys2Proof/Machine/TypesLink.lean ====
section
/-! DEFINITION. Hidden state of the serial lanes (spec/11), the fronthaul engine and the JESD204C links (spec/12), and the
yarn ports (spec/18). -/

namespace Sys2Proof.Machine

/-- Low-power entry or exit of a lane in progress (R371). -/
inductive LaneLp where
  | none
  | entering (target : Nat)
  | exiting
  deriving DecidableEq, Repr

/-- A lane beside its registers: low-power step in progress; DOWN behind a low-power state; bits compared up to `lockAt`,
the stamp since which the checker has been locked. -/
structure Lane where
  lp : LaneLp
  down : Bool
  bits : Nat
  lockAt : Option Nat
  deriving DecidableEq, Repr

/-- A lane after device reset. -/
def Lane.init : Lane := ⟨.none, false, 0, none⟩

/-- LNE.BINDOFF in progress: its command, lanes, streams not yet CLOSED, whether one took step 3′ (R384). -/
structure LaneBind where
  openId : Nat
  lanes : List Nat
  streams : List Nat
  late : Bool
  deriving DecidableEq, Repr

/-- The lanes. -/
structure Lanes where
  lane : Sparse Lane
  binds : List LaneBind
  deriving DecidableEq, Repr

/-- The lanes after device reset. -/
def Lanes.init : Lanes := ⟨[], []⟩

/-- An uplink or downlink C-plane section held for a flow (R400, R404): the air time of its symbol, its resource blocks, scalers. -/
structure HeldSection where
  sym : Nat
  prbs : List Nat
  scalers : List ModScaler
  deriving DecidableEq, Repr

/-- What a MAC has to send, by priority: 0 PTP and ESMC, 1 eCPRI, 2 HOST flow (R396). An eCPRI IQ message carries blocks `prbs` of numbers
`at_`; `due` is the end of its transmission window in air time. An answer to a delay measurement names no entry (512) and carries its
action type and the PCS stamp of the request (R398). A frame that has left has its source address and the device stamp of its start at
the PCS (R396, R397). -/
structure TxFrame where
  prio : Nat
  entry : Nat
  seq : Nat
  sym : Nat
  at_ : List Nat
  prbs : List Prb
  bytes : List Byte
  due : Option Nat
  delay : Option (Nat × Nat)
  src : Nat
  stamp : Nat
  deriving DecidableEq, Repr

/-- A frame of priority `p` for entry `e` with nothing in it. -/
def TxFrame.empty (p e : Nat) : TxFrame := ⟨p, e, 0, 0, [], [], [], none, none, 0, 0⟩

/-- The weights of one bundle, expanded (R405). -/
structure Weights where
  bundle : Nat
  comps : List Int
  deriving DecidableEq, Repr

/-- A weight set being formed: the air time at which its first weights came, and its bundles. -/
structure WeightSet where
  since : Nat
  bundles : List Weights
  deriving DecidableEq, Repr

/-- The fronthaul engine beside its registers. -/
structure Fhe where
  /-- last sequence number per receive flow; next per transmit flow -/
  seqLast : Sparse (Option Nat)
  seqNext : Sparse Nat
  held : Sparse (List HeldSection)
  /-- release instants (air time) of the units of a flow's stream not yet written off, with their start positions (R401) -/
  units : Sparse (List (Nat × Nat))
  /-- the set each WEIGHTS flow forms -/
  wset : Sparse (Option WeightSet)
  /-- a transmit flow that met a gap of COUNT 0 sends zeros up to its next seam -/
  gapToSeam : Sparse Bool
  /-- positions of the unit a transmit flow is taking, in order: `none` for a gap; after a gap of COUNT 0 the rest is gaps -/
  taking : Sparse (List (Option Elem))
  /-- bytes of the frame a transmit HOST flow is taking -/
  hostTx : Sparse (List Byte)
  txq : Sparse (List TxFrame)
  /-- the last frame each MAC has sent -/
  sent : Sparse (Option TxFrame)
  /-- eCPRI arbiter pointer per MAC (R396) -/
  rr : Sparse Nat
  /-- device stamps of the last PTP message each MAC has received and sent (R397) -/
  ptpRx : Sparse (Option Nat)
  ptpTx : Sparse (Option Nat)
  deriving DecidableEq, Repr

/-- The engine after device reset. -/
def Fhe.init : Fhe :=
  { seqLast := [], seqNext := [], held := [], units := [], wset := [], gapToSeam := [], taking := [], hostTx := [], txq := [],
    sent := [], rr := [], ptpRx := [], ptpTx := [] }

/-- A JSD_TX endpoint's play-out (R413): the schedule mute as its last sample met it, elements still to come whose samples
were due before them, zero elements of a gap still to send, zeros up to the next seam, discarding up to the next seam after a
mute, and the last element sent. -/
structure JsdTx where
  muted : Bool
  skip : Nat
  zeros : Nat
  zeroToSeam : Bool
  dropToSeam : Bool
  last : Nat
  deriving DecidableEq, Repr

/-- An idle endpoint. -/
def JsdTx.init : JsdTx := ⟨true, 0, 0, false, false, 0⟩

/-- A receive window in air time (R414), open at its end while LEN is 0 and no unmute has come, with the element streams
that have sent its seam. -/
structure JsdWin where
  from_ : Nat
  to_ : Option Nat
  seamed : List Nat
  deriving DecidableEq, Repr

/-- A link beside its registers (R406 to R415). -/
structure JsdLink where
  /-- lanes with sync header lock; with extended multiblock lock -/
  sync : List Nat
  emb : List Nat
  /-- stamps of the CRC-12 errors of the last millisecond, by lane -/
  crc : Sparse (List Nat)
  /-- schedule mute (R313) and the receive windows it has opened, the present one last -/
  muted : Bool
  wins : List JsdWin
  deriving DecidableEq, Repr

/-- A link after device reset: muted. -/
def JsdLink.init : JsdLink := { sync := [], emb := [], crc := [], muted := true, wins := [] }

/-- The JESD204C link layer. -/
structure Jsd where
  link : Sparse JsdLink
  tx : Sparse JsdTx
  /-- SYSREF settings waiting for their air time, and one-shot edges still to send -/
  sysref : Option (Nat × Word)
  shots : Nat
  /-- air time of the last SYSREF edge and the PERIOD it came with -/
  lastEdge : Option (Nat × Nat)
  deriving DecidableEq, Repr

/-- The link layer after device reset. -/
def Jsd.init : Jsd := ⟨[], [], none, 0, none⟩

/-- The echo a port keeps: TX_OWN and the arrival of the last TIME unit. -/
structure YEcho where
  tx : Nat
  rx : Nat
  deriving DecidableEq, Repr

/-- A broadcast as received: AT, VALUE, SWAP. -/
structure YBcast where
  at_ : Nat
  value : BitVec 32
  swap : Bool
  deriving DecidableEq, Repr

/-- A data codeword held for replay: its sequence number, the credits it returns and its units. -/
structure SentCw where
  seq : Nat
  creditA : Option YCredit
  creditB : Option YCredit
  ctrlCredit : Nat
  units : List YarnUnit
  deriving DecidableEq, Repr

/-- A message for another position, with the YRN.FORWARD it belongs to. -/
structure YMsg where
  dst : Nat
  words : List (BitVec 32)
  openId : Option Nat
  deriving DecidableEq, Repr

/-- A YRN.FORWARD of this device whose reply is awaited, with whether its target has acknowledged it. -/
structure Fwd where
  openId : Nat
  target : Nat
  port : Nat
  acked : Bool
  deriving DecidableEq, Repr

/-- A port beside its registers (R573 to R587). -/
structure YPort where
  /-- transmit side: next sequence number, codewords unacknowledged and those of them still to be replayed, replays without
  progress, stamp of the last progress, the last codeword sent -/
  nextSeq : Nat
  unacked : List SentCw
  resend : List SentCw
  replays : Nat
  ackAt : Nat
  sent : Option YarnCodeword
  /-- arbiter over VL0 to VL3, and the channel last served on VL0 and VL1 -/
  rr : Nat
  lastCh : Sparse Nat
  /-- queues of VL2 and VL3; messages waiting for the outgoing mailbox, and the one in it -/
  ctrl : List CtrlUnit
  time : List YarnUnit
  out : List YMsg
  cur : Option YMsg
  /-- credit held per transmit channel and for VL2 -/
  credit : Sparse Nat
  ctrlCredit : Nat
  /-- transmit channels that discard up to their next seam (R587) -/
  discard : Sparse Bool
  /-- receive side: last codeword in order, NAK standing, elements per channel, VL2 and VL3 units not yet taken, credits owed -/
  lastGood : Nat
  nak : Bool
  rxBuf : Sparse (List Elem)
  rxCtrl : List CtrlUnit
  rxTime : List YarnUnit
  owed : Sparse Nat
  ctrlOwed : Nat
  /-- last TIME unit received: TX_OWN and the local time of its arrival -/
  echo : Option YEcho
  /-- stamp of the last time transfer and of the first of the present run -/
  lastTime : Option Nat
  timeSince : Option Nat
  /-- training: consecutive good frames per lane, what the receivers have found, lanes whose partner is ready -/
  frames : Sparse Nat
  obs : List LaneObs
  ready : List Nat
  /-- by lane: own receivers that have finished adapting, their FFE_REQ, the FFE_STAT of the partner's last request, and the control word
  sent last (Table 18-3a) -/
  rxDone : List Nat
  reqs : Sparse Nat
  stats : Sparse Nat
  words : Sparse (BitVec 64)
  /-- the port has been UP and its leaving UP has not had its effects yet (R587) -/
  wasUp : Bool
  deriving DecidableEq, Repr

/-- A port before training. -/
def YPort.init : YPort :=
  { nextSeq := 0, unacked := [], resend := [], replays := 0, ackAt := 0, sent := none, rr := 0, lastCh := [], ctrl := [],
    time := [], out := [], cur := none, credit := [], ctrlCredit := 32, discard := [], lastGood := 65535, nak := false,
    rxBuf := [], rxCtrl := [], rxTime := [], owed := [], ctrlOwed := 0, echo := none, lastTime := none, timeSince := none,
    frames := [], obs := [], ready := [], rxDone := [], reqs := [], stats := [], words := [], wasUp := false }

/-- The cascade: forwards awaited, in posting order, heartbeat stamps by position at the master, the last broadcast received. -/
structure Yrn where
  port : Sparse YPort
  fwds : List Fwd
  beats : Sparse (Option Nat)
  lastBcast : Option YBcast
  deriving DecidableEq, Repr

/-- The cascade after device reset. -/
def Yrn.init : Yrn := ⟨[], [], [], none⟩

/-- The links' hidden state. -/
structure Links where
  lanes : Lanes
  fhe : Fhe
  jsd : Jsd
  yrn : Yrn
  deriving DecidableEq, Repr

/-- The links after device reset. -/
def Links.init : Links := ⟨Lanes.init, Fhe.init, Jsd.init, Yrn.init⟩

end Sys2Proof.Machine
end

