-- ==== Sys2Proof/Machine/TypesMem.lean ====
section
/-! DEFINITION. Hidden state of the memories and the memory guard (spec/16). -/

namespace Sys2Proof.Machine

/-- A response of a memory interface (Table 15-3): STATUS and the bytes read. -/
structure MemAns where
  status : Nat
  data : List Byte
  deriving DecidableEq, Repr

/-- A node of the counter tree in the counter cache: its eight counters, and whether it is modified (R534). -/
structure CNode where
  ctrs : List Nat
  modified : Bool
  deriving DecidableEq, Repr

/-- The memories and the guard. -/
structure Mem where
  /-- external memory by offset (R527): plain bytes, ciphertext, metadata and tree nodes as the parts hold them -/
  ext : Sparse Byte
  /-- the four roots of the counter tree, three copies each (R532) -/
  roots : List (Nat × Nat × Nat)
  /-- counter cache and backing copy, key level × 2^40 + node -/
  cache : Sparse (Option CNode)
  backing : Sparse (Option (List Nat))
  /-- keys of KeyIDs 1 to 63 and the tag key (R540) -/
  keys : Sparse (BitVec 256)
  tagKey : BitVec 256
  /-- requests admitted to the guard, in order (R537) -/
  guardQ : List MemReq
  /-- the last response sent to each source interface -/
  answers : Sparse (Option MemAns)
  /-- stamp of each group's last completed scrub pass -/
  scrubAt : Sparse Nat
  deriving DecidableEq, Repr

/-- The memories after device reset: external memory keeps nothing the model can name, the roots are 0. -/
def Mem.init : Mem :=
  { ext := [], roots := List.replicate 4 (0, 0, 0), cache := [], backing := [], keys := [], tagKey := 0, guardQ := [], answers := [],
    scrubAt := [] }

end Sys2Proof.Machine
end

