-- ==== Sys2Proof/Machine/TypesMer.lean ====
section
/-! DEFINITION. Hidden state of the meridian unit (spec/13): local time, references, holdover and the contour model. -/

namespace Sys2Proof.Machine

/-- A label waiting for the next 1PPS edge: seconds, fix good and accurate, stamp of its end. -/
structure TodLabel where
  seconds : Nat
  good : Bool
  ended : Nat
  deriving DecidableEq, Repr

/-- GNSS input (R430, R434): stamp of the last 1PPS edge, the label given to it (seconds, fix good and accurate), the label
waiting for the next edge, the last labelled time, consecutive good and bad seconds, a jump of the labelled time. -/
structure GnssIn where
  edge : Option Nat
  label : Option (Nat × Bool)
  next : Option TodLabel
  prev : Option Nat
  good : Nat
  bad : Nat
  /-- the labelled time stepped by other than 1 s -/
  jumped : Bool
  /-- the UART's rate in baud as detected, and the stamp of the last valid message at it -/
  rate : Option (Nat × Nat)
  deriving DecidableEq, Repr

/-- PTP input: the chosen grandmaster and its clockClass, since when; stamps of the last Announce, Sync and Delay_Resp; the
foreign masters seen (at most 8). -/
structure PtpIn where
  gm : Option (Nat × Nat)
  since : Nat
  announce : Option Nat
  sync : Option Nat
  delay : Option Nat
  foreign : List Nat
  deriving DecidableEq, Repr

/-- SyncE input: quality level, stamp of the last ESMC, since when the level is good. -/
structure SynceIn where
  ql : Nat
  last : Option Nat
  since : Option Nat
  deriving DecidableEq, Repr

/-- A sample of the contour model: local time in s, mean frequency, bin. -/
structure LearnSample where
  t : Nat
  y : Int
  k : Nat
  deriving DecidableEq, Repr

/-- The contour model beside MER_BIN: t0, seconds locked while learning, the samples of the last 14 days, d fitted. -/
structure Contour where
  t0 : Option Nat
  lockedS : Nat
  samples : List LearnSample
  fitted : Bool
  deriving DecidableEq, Repr

/-- An empty model. -/
def Contour.init : Contour := ⟨none, 0, [], false⟩

/-- The copy of the model in MRAM: the identity it carries (BOARD_ID; CLASS, MREF, SENSOR_BUS, SENSOR_ADDR), bins, ageing
rate, MER_MODEL, the rest. -/
structure ContourCopy where
  board : Nat
  osc : Nat
  bins : List Word
  age : Word
  model : Word
  hidden : Contour
  valid : Bool
  deriving DecidableEq, Repr

/-- The unit beside its registers. -/
structure Mer where
  /-- local time in 2⁻³² s at device stamp `at_`, and its frequency against the stamp in 10⁻¹² -/
  local_ : Nat
  at_ : Nat
  freq : Int
  gnss : GnssIn
  ptp : PtpIn
  synce : SynceIn
  /-- reference treated as invalid until this stamp (R437) -/
  banned : Option (Nat × Nat)
  /-- profile and outputs that take effect at the next boundary -/
  profile : Nat
  outNow : Word
  /-- B in ps, y_last and the contour correction c -/
  bound : Nat
  yLast : Int
  corr : Int
  lockedSince : Option Nat
  /-- LOCK_TE in ns; a step due at the next boundary (R438); timing outputs held low (R447) -/
  lockTe : Nat
  stepNext : Option Int
  squelched : Bool
  /-- an ESMC timeout has been counted -/
  esmcLost : Bool
  sensorFails : Nat
  contour : Contour
  mram : Option ContourCopy
  /-- leap word stored in MRAM -/
  leapStored : Option Word
  deriving DecidableEq, Repr

/-- The unit after device reset; what MRAM holds is kept apart. -/
def Mer.init : Mer :=
  { local_ := 0, at_ := 0, freq := 0, gnss := ⟨none, none, none, none, 0, 0, false, none⟩, ptp := ⟨none, 0, none, none, none, []⟩,
    synce := ⟨15, none, none⟩, banned := none, profile := 0, outNow := 0x8A000000, bound := 0, yLast := 0, corr := 0,
    lockedSince := none, lockTe := 0, stepNext := none, squelched := true, esmcLost := true, sensorFails := 0, contour := Contour.init, mram := none, leapStored := none }

end Sys2Proof.Machine
end

