-- ==== Sys2Proof/Machine/TypesPin.lean ====
section
/-! DEFINITION. Hidden state of the user pins (spec/24). -/

namespace Sys2Proof.Machine

/-- A handover in progress (Table 24-3): the stamp of H, what applies at its end, the PIN.ASSIGN that waits for it. -/
structure Handover where
  h : Nat
  owner : Nat
  sheet : Nat
  slot : Nat
  func : Nat
  pull : Nat
  en : Bool
  openId : Nat
  deriving DecidableEq, Repr

/-- What the air schedule drives on a timed-output pin since its start (R314). -/
structure AirPin where
  level : Bool
  oe : Bool
  deriving DecidableEq, Repr

/-- The pins beside their registers. A pin without an entry in `air` drives its AIR_IDLE bit: of `idle`, the AIR_IDLE words as they were when
the schedule started, while it runs (R319, R336). `edge` holds the stamp of the last scheduled edge that acted on a pin (R314). -/
structure Pins where
  hand : Sparse (Option Handover)
  air : Sparse (Option AirPin)
  idle : List Word
  edge : Sparse (Option Nat)
  deriving DecidableEq, Repr

/-- The pins after device reset. -/
def Pins.init : Pins := ⟨[], [], [], []⟩

end Sys2Proof.Machine
end

