-- ==== Sys2Proof/Machine/TypesSwatch.lean ====
section
/-! DEFINITION. Hidden state of the swatch controller, the rotating spare and repairs (spec/20). -/

namespace Sys2Proof.Machine

/-- Where a swatch request comes from, in order of service (R624). -/
inductive SwClass where
  | lasting | run | rotation
  deriving DecidableEq, Repr

/-- A swatch request: class, KIND and TARGET of Table 20-1, budget in µs, the stamp at which it reached the controller, the commands
that wait, the step to start at, whether it resumes an abandoned swatch, and the keys (source, instance) whose lasting outcome it is. -/
structure SwReq where
  cls : SwClass
  kind : Nat
  target : Nat
  budget : Nat
  stamp : Nat
  opens : List Nat
  step : Nat
  resumed : Bool
  keys : List (Nat × Nat)
  deriving DecidableEq, Repr

/-- The swatch in progress. -/
structure SwRun where
  req : SwReq
  step : Nat
  left : Nat
  start : Nat
  deriving DecidableEq, Repr

/-- A repair in force: kind (Table 20-1; 9 a tile-memory word), target, the place repaired (a position, column, row or word) and its
spare. -/
structure Repair where
  kind : Nat
  target : Nat
  place : Nat
  spare : Nat
  deriving DecidableEq, Repr

/-- A row or word found failing whose contents are being copied to a spare (R525), with what its journal record says and the keys of
its outcome. -/
structure Remap where
  repair : Repair
  where_ : Nat
  bit : Nat
  keys : List (Nat × Nat)
  deriving DecidableEq, Repr

/-- A tile to be retired to its wale's spare at the next rotation instant (R625): wale, logical position, keys of its outcome. -/
structure Retire where
  wale : Nat
  pos : Nat
  keys : List (Nat × Nat)
  deriving DecidableEq, Repr

/-- The swatch controller. -/
structure Swt where
  queue : List SwReq
  running : Option SwRun
  /-- result records, oldest first, eight words each (Table 20-4) -/
  log : List (List Word)
  rotMs : Nat
  rotLast : Nat
  /-- the wale whose spare a rotation holds -/
  rotating : Option Nat
  retire : List Retire
  /-- the retirement whose shift is in progress -/
  retiring : Option Retire
  remaps : List Remap
  soft : List Repair
  /-- repairs in the fuses (R626): in force from the next power-on reset -/
  fused : List Repair
  /-- the fused repairs of the last power-on reset, in force -/
  loaded : List Repair
  /-- marks in MRAM and those in force: KIND and TARGET (R627) -/
  marks : List (Nat × Nat)
  marked : List (Nat × Nat)
  fuseOpen : Option Nat
  deriving DecidableEq, Repr

/-- The controller of a device without repairs or marks. -/
def Swt.init : Swt :=
  { queue := [], running := none, log := [], rotMs := 1000, rotLast := 0, rotating := none, retire := [], retiring := none, remaps := [],
    soft := [],
    fused := [], loaded := [], marks := [], marked := [], fuseOpen := none }

end Sys2Proof.Machine
end

