-- ==== Sys2Proof/Machine/TypesSys.lean ====
section
/-! DEFINITION. Hidden state of the management side: masters, device states, return codes, mailboxes and open commands,
power-up and firmware, the staged and committed survey (spec/01, 02, 03). -/

namespace Sys2Proof.Machine

/-- A number for each master, to key what a register holds per master (latched high halves, STR_SEL). -/
def masterCode : Master → Nat
  | .ubtor => 0 | .host => 1 | .jtag => 2 | .dma => 3 | .swatch => 4 | .loader => 5 | .datum => 6
  | .sheet s => 16 + s
  | .tile t => 64 + t

/-- The device states (Table 1-7). -/
inductive DevState where
  | off | boot | ready | charted | onAir | quiet | dormant | halted | tripped
  deriving DecidableEq, Repr

/-- State codes of Table 1-7; OFF has none and reads 0. -/
def DevState.code : DevState → Nat
  | .off => 0 | .boot => 1 | .ready => 2 | .charted => 3 | .onAir => 4 | .quiet => 5 | .dormant => 6
  | .halted => 8 | .tripped => 9

/-- Return codes (Table 2-5). -/
inductive RetCode where
  | DONE | ACCEPTED | BUSY | REFUSED_IN_USE | BAD_COMMAND | BAD_LENGTH | BAD_FIELD | NOT_PERMITTED
  | EXPERT_REQUIRED | NOT_OWNER | AUTH_FAILED | REGION_VIOLATION | DRIVER_CONFLICT | SURVEY_MISSING
  | SURVEY_MISMATCH | SURVEY_INVALID | HALTED | TRIPPED | NO_SPARE | BUDGET_EXCEEDED
  deriving DecidableEq, Repr

/-- The numbers of Table 2-5. -/
def RetCode.num : RetCode → Nat
  | .DONE => 0x0000 | .ACCEPTED => 0x0001 | .BUSY => 0x0101 | .REFUSED_IN_USE => 0x0102
  | .BAD_COMMAND => 0x0201 | .BAD_LENGTH => 0x0202 | .BAD_FIELD => 0x0203
  | .NOT_PERMITTED => 0x0301 | .EXPERT_REQUIRED => 0x0302 | .NOT_OWNER => 0x0303
  | .AUTH_FAILED => 0x0401 | .REGION_VIOLATION => 0x0402 | .DRIVER_CONFLICT => 0x0403
  | .SURVEY_MISSING => 0x0501 | .SURVEY_MISMATCH => 0x0502 | .SURVEY_INVALID => 0x0503
  | .HALTED => 0x0601 | .TRIPPED => 0x0602 | .NO_SPARE => 0x0701 | .BUDGET_EXCEEDED => 0x0702

/-- The rails power-on reset monitors: every supply except VDD_DATUM and VPP_FUSE (R99). -/
def monitoredRails : List Rail :=
  [.vddBase, .vddFab, .vddStitch, .vddChart, .vddStore, .vppStore, .vddaLn, .vddhLn, .vddqLp, .vdd2Lp,
   .vddio 0, .vddio 1, .vddio 2, .vddio 3, .vddio 4, .vddio 5, .vddio 6, .vddAon]

/-- The regions of the flash (R103, Table 3-4). -/
inductive FlashRegion where
  | slotA | slotB | caston | benchmark
  deriving DecidableEq, Repr

/-- Chip select and byte offset of a region; `one` is BOOT_SRC[0], the arrangement with one device. -/
def FlashRegion.place (one : Bool) : FlashRegion → Nat × Nat
  | .slotA => (0, 0)
  | .slotB => (0, 0x800000)
  | .caston => (0, 0x1000000)
  | .benchmark => if one then (0, 0x4000000) else (1, 0)

/-- Size of a region in bytes. -/
def FlashRegion.size : FlashRegion → Nat
  | .slotA => 0x800000
  | .slotB => 0x800000
  | .caston => 0x3000000
  | .benchmark => 0x4000000

/-- Offset of the benchmark configuration stream within the benchmark image; its firmware lies before it. -/
def benchStream : Nat := 0x800000

/-- A fabric mailbox claim: the sheet and the stamp of its last write (R61). -/
structure Claim where
  sheet : Nat
  last : Nat
  deriving DecidableEq, Repr

/-- A completion or reply in posting order: `ready` holds its words once its outcome is known (R73, R76). -/
structure OutMsg where
  id : Nat
  /-- the command was answered ACCEPTED -/
  accepted : Bool
  sheet : Option Nat
  /-- position of the device that forwarded the command (R592) -/
  src : Option Nat
  ready : Option (List Word)
  deriving DecidableEq, Repr

/-- A command answered ACCEPTED and not yet completed, with the numbers its completion needs. -/
structure OpenCmd where
  id : Nat
  mb : Nat
  code : Nat
  tag : Nat
  session : Nat
  fence : Bool
  posted : Nat
  sheet : Option Nat
  args : List Nat
  deriving DecidableEq, Repr

/-- A command whose effects have landed while its pair was in reset, with the answer it gets on resumption (R56). -/
structure Parked where
  cmd : OpenCmd
  rc : RetCode
  data : List Word
  deriving DecidableEq, Repr

/-- Mailbox state beside the register file (R58 to R76). The words, FULL, ACK, REJECT and the codes are registers. -/
structure Mbx where
  /-- claim of MB16–MB19 -/
  claims : Sparse (Option Claim)
  /-- sheet that posted the message in MB16–MB19 -/
  poster : Sparse (Option Nat)
  /-- device stamp of the last word-0 write of each mailbox (R74) -/
  posted : Sparse Nat
  /-- sheet that may read and free MB20–MB23 (R62) -/
  receiver : Sparse (Option Nat)
  /-- replies and completions of each command mailbox, in posting order -/
  outq : Sparse (List OutMsg)
  open_ : List OpenCmd
  /-- commands started and answered only once their effect has passed, their messages still in their mailboxes -/
  running : List OpenCmd
  /-- those of them whose answer waits for their pair to resume -/
  parked : List Parked
  nextId : Nat
  /-- lockstep pairs between reset and resumption (R56) -/
  pairsInReset : List Nat
  /-- those of them that were executing a command (R607, case 8) -/
  pairsCut : List Nat
  deriving DecidableEq, Repr

/-- An expert session (R78 to R80). -/
structure Session where
  id : Nat
  idleS : Nat
  lastAck : Nat
  deriving DecidableEq, Repr

/-- Firmware images in trial order (R104). -/
inductive Image where
  | slotA | slotB | benchmark
  deriving DecidableEq, Repr

/-- FW_SLOT codes. -/
def Image.code : Image → Nat
  | .slotA => 0 | .slotB => 1 | .benchmark => 2

/-- Straps latched at power-on reset release (Table 3-1). -/
structure Straps where
  bootSrc : Nat
  xtalWait : Nat
  cascadeMaster : Nat
  ioPull : Nat
  deriving DecidableEq, Repr

/-- Mailboxes after device reset. -/
def Mbx.init : Mbx :=
  { claims := [], poster := [], posted := [], receiver := [], outq := [], open_ := [], running := [], parked := [], nextId := 0, pairsInReset := [], pairsCut := [] }

/-- The response to a register access: OK with the word read, or an ERR response (R18, R19, R54). -/
structure BusAns where
  ok : Bool
  data : Word
  deriving DecidableEq, Repr

/-- Power-up, firmware and session state. -/
structure Sys where
  dev : DevState
  rails : List Rail
  allValidAt : Option Nat
  hiZ : Bool
  perst : Bool
  straps : Straps
  xtalStable : Bool
  bootAt : Nat
  imagesLeft : List Image
  prefer : Image
  fwSlot : Image
  fwVersion : Word
  session : Option Session
  prevSession : Nat
  resetAt : Option Nat
  fwUpdate : Option Nat
  /-- bytes of the two flash devices that have been written, key 2³² × chip select + offset (R103) -/
  flash : Sparse Byte
  /-- the last response to a register access, by master code -/
  answers : Sparse BusAns
  deriving DecidableEq, Repr

/-- One record of a survey: type, byte offset of its header, and its words 1 onward (R105). -/
structure SvyRec where
  type : Nat
  off : Nat
  words : List Nat
  deriving DecidableEq, Repr

/-- A mismatch entry (R109). -/
structure Mismatch where
  type : Nat
  item : Nat
  kind : Nat
  expected : Nat
  found : Nat
  deriving DecidableEq, Repr

/-- The staged and committed survey (R105 to R118). -/
structure Survey where
  staged : Sparse Word
  written : Sparse Bool
  committing : Bool
  committed : Bool
  words : List Word
  recs : List SvyRec
  siteId : Word
  lastDetail : Nat
  mismatches : List Mismatch
  overflow : Bool
  deriving DecidableEq, Repr

/-- No survey, nothing staged. -/
def Survey.init : Survey :=
  { staged := [], written := [], committing := false, committed := false, words := [], recs := [], siteId := 0, lastDetail := 0,
    mismatches := [], overflow := false }

end Sys2Proof.Machine
end

