-- ==== Sys2Proof/Machine/TypesThm.lean ====
section
/-! DEFINITION. Hidden state of the thermal island (spec/21). -/

namespace Sys2Proof.Machine

/-- A sensor: its last four readings and its temperatures of the last 500 ms, newest first, in 0.25 °C; consecutive readings that did
not convert, good readings since it failed, consecutive readings with R50 above 8 °C/s (R639, R640, R644). -/
structure Sens where
  raws : List Int
  hist : List Int
  bad : Nat
  good : Nat
  run : Nat
  deriving DecidableEq, Repr

/-- A sensor after power-on. -/
def Sens.init : Sens := ⟨[], [], 0, 0, 0⟩

/-- What a cap waits for (R641): whether the last reading was at or above THROTTLE_C, the stamp of the last step down while it stays
so, and the stamp from which it has stayed cool (or of the last step up since). -/
structure CapRun where
  hot : Bool
  down : Option Nat
  cool : Option Nat
  deriving DecidableEq, Repr

/-- A cap that waits for nothing. -/
def CapRun.init : CapRun := ⟨false, none, none⟩

/-- The thermal island. -/
structure Thm where
  sensors : Sparse Sens
  /-- fabric cap 0, stitch cap 1 -/
  caps : Sparse CapRun
  lastRead : Nat
  /-- sensors that met a trip condition at the last reading -/
  met : List Nat
  /-- stamp from which every working sensor has been below RESTART_C (R644) -/
  restartSince : Option Nat
  /-- restart withheld by failed sensors, until PERST# or a power cycle (R644) -/
  held : Bool
  deriving DecidableEq, Repr

/-- The island after power-on reset. -/
def Thm.init : Thm := ⟨[], [], 0, [], none, false⟩

end Sys2Proof.Machine
end

