-- ==== Sys2Proof/Machine/State.lean ====
section
/-! DEFINITION. The state of the QD7128 as plain data, its reasons to stop, and the state after reset. -/

namespace Sys2Proof.Machine

/-- Reasons a step can stop with a fault. No command of this model raises one: every effect the spec gives is
modelled, and a bus error of the device is its ERR response. Kept closed and named for the interface. -/
inductive Fault where
  /-- an access to an address the spec says does not exist, made where no response exists; no meaning raises it (safe) -/
  | noSuchAddress (a : Nat)
  deriving DecidableEq, Repr

/-- Reasons a command has no meaning. -/
inductive Refusal where
  /-- the command has no meaning in the model yet; raised by the dispatch only (safe) -/
  | notModelled (mnemonic : String)
  deriving DecidableEq, Repr

/-- Everything the spec gives the device, and the queue of waiting commands. -/
structure State where
  pending : List Instr
  stamp : Nat
  regs : Sparse Word
  latch : Sparse Word
  /-- write-1-to-clear bits that hardware set, by register: the stamp of the last such event and the bits set at it (R22) -/
  raised : Sparse (Nat × Nat)
  /-- the model's own counter of open values consumed (a free value's argument) -/
  free : Nat
  sys : Sys
  mbx : Mbx
  svy : Survey
  host : HostIf
  flt : Flt
  gaz : Gaz
  pwr : Pwr
  streams : Sparse Stream
  /-- store-tier memory by byte offset (R518) -/
  store : Sparse Byte
  stitch : Stitch
  fabric : Fabric
  swt : Swt
  air : Air
  ldr : Ldr
  links : Links
  mer : Mer
  pins : Pins
  grt : Grt
  mem : Mem
  thm : Thm
  dat : Dat
  deriving DecidableEq, Repr

/-- The device right after reset (R44, R95, R98, R100): the first release of power-on reset, 2 ms after every monitored rail became valid
at time 0, with every strap low, in BOOT, before the boot ROM has tried an image. Every register reads its reset value (`regs` lists none), the gazetteer has counted this power-on reset and this entry
to BOOT. DESIGN CHOICE of the moment and of the strap levels (log entry 1); the registers the spec gives no reset value read what log entry 2
names. -/
def State.reset : State :=
  let sys : Sys := {
    dev := .boot, rails := monitoredRails, allValidAt := some 0, hiZ := false, perst := false, straps := ⟨0, 0, 0, 0⟩,
    xtalStable := false, bootAt := 2000000, imagesLeft := [.slotA, .slotB, .benchmark], prefer := .slotA, fwSlot := .slotA,
    fwVersion := 0, session := none, prevSession := 0, resetAt := none, fwUpdate := none, flash := [], answers := [] }
  let gaz : Gaz := { Gaz.init with ctr := [(1, 1), (3, 1)], nextDue := 600002000000 }
  { pending := [], stamp := 2000000, regs := [], latch := [], raised := [], free := 0, sys := sys, mbx := Mbx.init, svy := Survey.init,
    host := HostIf.init, flt := Flt.init, gaz := gaz, pwr := Pwr.init, streams := [], store := [], stitch := Stitch.init,
    fabric := Fabric.init, swt := Swt.init, air := Air.init, ldr := Ldr.init, links := Links.init, mer := Mer.init,
    pins := Pins.init, grt := Grt.init, mem := Mem.init, thm := Thm.init, dat := Dat.init }

end Sys2Proof.Machine
end

