-- ==== Sys2Proof/Machine/Ops.lean ====
section
/-! DEFINITION. The named operations over the state: registers and their fields, per-master latches, time, fault reports,
gazetteer counters and journal, MSI-X, and the handling of a Ubtor command from its reading to its acknowledgement, reply
and completion. -/

namespace Sys2Proof.Machine

/-! ### Registers -/

/-- The part of the register map that holds address `a` (Table 1-9). -/
def tableOf (a : Nat) : List RegInfo :=
  if a < 0x10000 then regsMbx
  else if a < 0x30000 then regsCki
  else if a < 0x40000 then regsThm
  else if a < 0x50000 then regsMer
  else if a < 0x60000 then regsPio
  else if a < 0x70000 then regsGrt
  else if a < 0x80000 then regsLdr
  else if a < 0x90000 then regsAir
  else if a < 0xA0000 then regsFlt
  else if a < 0xB0000 then regsSwt
  else if a < 0xC0000 then regsGaz
  else if a < 0xE8000 then regsMem
  else if a < 0xF0000 then regsStr
  else if a < 0x110000 then regsDma
  else if a < 0x120000 then regsYrn
  else if a < 0x140000 then regsFhe
  else if a < 0x150000 then regsDat
  else if a < 0x800000 then regsLne
  else if a < 0xA00000 then regsSht
  else regsWal

/-- Splits an offset over (count, stride) pairs; `none` when a count is passed or a remainder is left. -/
def splitOff : Nat → List (Nat × Nat) → Option (List Nat)
  | off, [] => if off = 0 then some [] else none
  | off, (c, st) :: ds =>
    if off / st < c then (splitOff (off % st) ds).map (fun r => off / st :: r) else none

/-- The indices at which register family `r` occupies address `a`, if it does. -/
def RegInfo.hit (r : RegInfo) (a : Nat) : Option (List Nat) :=
  if a < r.base then none else splitOff (a - r.base) r.dims

/-- The register family at address `a`, with its indices. -/
def regAt (a : Nat) : Option (RegInfo × List Nat) :=
  (tableOf a).findSome? (fun r => (r.hit a).map (fun ix => (r, ix)))

/-- The first key of the per-stream registers, above every register address. -/
def strBase : Nat := 2 ^ 48

/-- Where the registers of stream `n` are kept: the STR window shows one stream at a time (R298). -/
def strKey (n reg : Nat) : Nat := strBase + n * 0x1000 + reg % 0x1000

/-- The register address a key stands for: itself, or the STR window register of a stream's key. -/
def regOfKey (k : Nat) : Nat := if k < strBase then k else 0xE8000 + (k - strBase) % 0x1000

/-- The reset value at a key: the table's, with those that depend on the index (SHT_STATUS.ISLAND, WAL_GATE.OUT,
PWR_PSW[2], CKI_GATE_ISL[4] without the bits above island 143, FLT_WIN.FIXED of Table 19-2). -/
def resetWord (k : Nat) : Word :=
  match regAt (regOfKey k) with
  | none => 0
  | some (r, ix) =>
    if r.base = R.SHT_STATUS 0 then word (r.reset + ix.getD 0 0 * 2 ^ 24)
    else if r.base = R.WAL_GATE 0 0 then word (r.reset + b2n (decide (8 ≤ ix.getD 1 0)) * 2 ^ 30)
    else if r.base = R.PWR_PSW 0 then if ix.getD 0 0 = 2 then 0xFF else word r.reset
    else if r.base = R.CKI_GATE_ISL 0 then if ix.getD 0 0 = 4 then 0xFFFF else word r.reset
    else if r.base = R.FLT_WIN 0 then word (b2n (fltFixed (ix.getD 0 0)) * 2 ^ 15)
    else word r.reset
where
  /-- sources that are fixed, not windowed or not defined (Table 19-2, R597) -/
  fltFixed (src : Nat) : Bool :=
    !([0x01, 0x02, 0x03, 0x04, 0x10, 0x11, 0x20, 0x21, 0x31, 0x40, 0x41, 0x42, 0x43, 0x44, 0x50, 0x51, 0x52, 0x53].contains
      src)

/-- The word stored at key `k`. -/
def State.rd (s : State) (k : Nat) : Word := sget resetWord s.regs k

/-- Store a word at key `k`. -/
def State.wr (s : State) (k : Nat) (v : Word) : State := { s with regs := sset resetWord s.regs k v }

/-- The number in field `f` of the register at `k`. -/
def State.get (s : State) (k : Nat) (f : Fld) : Nat := f.get (s.rd k)

/-- Set field `f` of the register at `k`. -/
def State.put (s : State) (k : Nat) (f : Fld) (v : Nat) : State := s.wr k (f.put (s.rd k) v)

/-- A one-bit field as a truth value. -/
def State.flag (s : State) (k : Nat) (f : Fld) : Bool := s.get k f == 1

/-- Set bit `i` of the register at `k`. -/
def State.setBit (s : State) (k i : Nat) (b : Bool) : State := s.put k ⟨i, i⟩ (b2n b)

/-- Bit `i` of the register at `k`. -/
def State.bit (s : State) (k i : Nat) : Bool := (s.rd k).bit i

/-- A hardware event sets write-1-to-clear bit `i` of the register at `k`. -/
def State.raise (s : State) (k i : Nat) : State :=
  let e := sget (fun _ => (0, 0)) s.raised k
  let bits := if e.1 = s.stamp then e.2 else 0
  { s.setBit k i true with raised := sset (fun _ => (0, 0)) s.raised k (s.stamp, putBits bits i i 1) }

/-- Software writes 1 to the bits `m` of the write-1-to-clear register at `k`: they clear, but for those that a hardware event sets at
the same stamp, the nanosecond standing for the cycle (R22). -/
def State.clearBits (s : State) (k m : Nat) : State :=
  let e := sget (fun _ => (0, 0)) s.raised k
  let m := if e.1 = s.stamp then m &&& (2 ^ 32 - 1 - e.2) else m
  s.wr k (word ((s.rd k).toNat &&& (2 ^ 32 - 1 - m)))

/-- Advance a saturating 32-bit counter register. -/
def State.bump (s : State) (k : Nat) (n : Nat := 1) : State := s.wr k (word (satNat 32 ((s.rd k).toNat + n)))

/-- Read counter registers and, when asked, zero them afterwards (the COUNTERS commands). -/
def State.counters (s : State) (ks : List Nat) (clear : Bool) : List Word × State :=
  (ks.map s.rd, if clear then ks.foldl (fun t k => t.wr k 0) s else s)

/-- Key of a value latched for one master. -/
def latchKey (m : Master) (a : Nat) : Nat := masterCode m * 2 ^ 48 + a

/-- The word latched for master `m` at address `a`. -/
def State.latched (s : State) (m : Master) (a : Nat) : Word := sget (fun _ => (0 : Word)) s.latch (latchKey m a)

/-- Latch a word for master `m` at address `a`. -/
def State.setLatch (s : State) (m : Master) (a : Nat) (v : Word) : State :=
  { s with latch := sset (fun _ => 0) s.latch (latchKey m a) v }

/-! ### Time and open values -/

/-- Time has reached at least `t`. -/
def State.reach (s : State) (t : Nat) : State := { s with stamp := max s.stamp t }

/-- Take one open value: the counter of values consumed goes on. -/
def State.draw (s : State) : Nat × State := (s.free, { s with free := s.free + 1 })

/-! ### Fault reports, gazetteer, MSI-X -/

/-- Send a fault report to the fault-window unit (R595); FAULT_EVENT takes it there. -/
def State.report (s : State) (src inst : Nat) (detail : List Word := []) (keeps : List (Nat × Nat × Nat) := []) : State :=
  { s with flt := { s.flt with waiting := s.flt.waiting ++ [⟨src, inst, detail, keeps⟩] } }

/-- Gazetteer counter `i` (R653: 64 bits, saturating). -/
def State.gazCtr (s : State) (i : Nat) : Nat := sget (fun _ => 0) s.gaz.ctr i

/-- Advance gazetteer counter `i`. -/
def State.gazInc (s : State) (i : Nat) (n : Nat := 1) : State :=
  { s with gaz := { s.gaz with ctr := sset (fun _ => 0) s.gaz.ctr i (satNat 64 (s.gazCtr i + n)) } }

/-- Keep the highest value seen in counter `i` (counters 42 to 51 and 54). -/
def State.gazMax (s : State) (i v : Nat) : State :=
  { s with gaz := { s.gaz with ctr := sset (fun _ => 0) s.gaz.ctr i (satNat 64 (max (s.gazCtr i) v)) } }

/-- Add one sample to bin `b` of histogram `h` (R655). -/
def State.gazHist (s : State) (h b : Nat) : State :=
  let k := h * 32 + min b 31
  { s with gaz := { s.gaz with hist := sset (fun _ => 0) s.gaz.hist k (satNat 32 (sget (fun _ => 0) s.gaz.hist k + 1)) } }

/-- Append a journal record (R656), or count it as not stored when all 7 168 are used (R657). -/
def State.journal (s : State) (kind sub inst : Nat) (d0 d1 : Word) : State :=
  if s.gaz.journal.length < 7168 then
    let rec_ : List Word :=
      [word (kind * 2 ^ 24 + sub % 256 * 2 ^ 16 + inst % 2 ^ 16), word s.gaz.journal.length,
       loWord (s.gazCtr 0), hiWord (s.gazCtr 0), loWord s.stamp, hiWord s.stamp, d0, d1]
    { s with gaz := { s.gaz with journal := s.gaz.journal ++ [rec_] } }
  else s.gazInc 72

/-- Store bytes the device writes to host memory. -/
def State.hostWrite (s : State) (a : Nat) (bs : List Byte) : State :=
  { s with host := { s.host with
      mem := (bs.zipIdx).foldl (fun m p => sset (fun _ => (0 : Byte)) m (a + p.2) p.1) s.host.mem } }

/-- The four bytes of a word, little-endian (R18). -/
def bytesOfWord (w : Word) : List Byte :=
  [BitVec.ofNat 8 w.toNat, BitVec.ofNat 8 (w.toNat / 2 ^ 8), BitVec.ofNat 8 (w.toNat / 2 ^ 16),
   BitVec.ofNat 8 (w.toNat / 2 ^ 24)]

/-- What an MSI-X table word reads before the host writes it: vector control masked, the rest 0. -/
def msixDefault (k : Nat) : Word := if k % 4 = 3 then 1 else 0

/-- MSI-X table word `i` (0 to 3) of vector `v`. -/
def State.msixWord (s : State) (v i : Nat) : Word := sget msixDefault s.host.msixTable (4 * v + i)

/-- Send vector `v` now: write its data at its address. -/
def State.msixSend (s : State) (v : Nat) : State :=
  let s := s.hostWrite ((s.msixWord v 0).toNat + (s.msixWord v 1).toNat * 2 ^ 32) (bytesOfWord (s.msixWord v 2))
  { s with host := { s.host with
      msixSent := sset (fun _ => 0) s.host.msixSent v (sget (fun _ => 0) s.host.msixSent v + 1),
      pba := sset (fun _ => false) s.host.pba v false } }

/-- Vector `v` becomes due (R554): sent, or its PBA bit set while it is masked. -/
def State.msix (s : State) (v : Nat) : State :=
  if (s.msixWord v 3).bit 0 then { s with host := { s.host with pba := sset (fun _ => false) s.host.pba v true } }
  else s.msixSend v

/-- The device state becomes `d`; a change of the STATE field sends vector 32 (R554). -/
def State.enter (s : State) (d : DevState) : State :=
  if s.sys.dev = d then s else { s with sys := { s.sys with dev := d } }.msix 32

/-! ### Register accesses (R18, R54) -/

/-- The response to a register access with the state it leaves. -/
abbrev Access := BusAns × State

/-- An ERR response: no effect. -/
def State.busErr (s : State) : Access := (⟨false, 0⟩, s)

/-- An OK response. -/
def State.busOk (s : State) (v : Word := 0) : Access := (⟨true, v⟩, s)

/-- The response of a register access is kept for its master. -/
def State.answered (m : Master) (x : Access) : State :=
  { x.2 with sys := { x.2.sys with answers := sset (fun _ => (⟨true, 0⟩ : BusAns)) x.2.sys.answers (masterCode m) x.1 } }

/-! ### Survey records -/

/-- Survey records of one type. -/
def State.recsOf (s : State) (t : Nat) : List SvyRec := s.svy.recs.filter (fun r => r.type = t)

/-- Bits of word `i` (1 onward) of a record. -/
def SvyRec.f (r : SvyRec) (i hi lo : Nat) : Nat := bitsOf (r.words.getD (i - 1) 0) hi lo

/-- POLICY flag `b` of the committed survey, with the defaults of Table 3-7. -/
def State.policy (s : State) (b : Nat) : Bool :=
  s.svy.committed && (match s.recsOf 0x000A with
    | r :: _ => r.f 1 b b == 1
    | [] => b == 1)

/-- The tenant records. -/
def State.tenants (s : State) : List SvyRec := if s.svy.committed then s.recsOf 0x0009 else []

/-- The tenant whose SHEET_MASK holds sheet `n`. -/
def State.tenantOfSheet (s : State) (n : Nat) : Option SvyRec := s.tenants.find? (fun r => (r.words.getD 2 0).testBit n)

/-- The wale mask of a tenant record, 40 bits. -/
def SvyRec.waleMask (r : SvyRec) : Nat := r.words.getD 3 0 + r.f 5 7 0 * 2 ^ 32

/-- The tenant whose WALE_MASK holds wale `w`. -/
def State.tenantOfWale (s : State) (w : Nat) : Option SvyRec := s.tenants.find? (fun r => r.waleMask.testBit w)

/-- The KeyID of a tenant record. -/
def SvyRec.keyId (r : SvyRec) : Nat := r.f 1 5 0

/-- The KeyID of the tenant that holds sheet `n`; 0 for none. -/
def State.keyOfSheet (s : State) (n : Nat) : Nat := match s.tenantOfSheet n with | some r => r.keyId | none => 0

/-- The KeyID of the tenant that holds wale `w`; 0 for none. -/
def State.keyOfWale (s : State) (w : Nat) : Nat := match s.tenantOfWale w with | some r => r.keyId | none => 0

/-- A KeyID in use: 0, or that of a surveyed tenant. -/
def State.keyKnown (s : State) (k : Nat) : Bool := k == 0 || s.tenants.any (fun r => r.keyId == k)

/-! ### The cascade and its mailbox forwarding (R571, R585) -/

/-- A field of the CASCADE record, `d` without one. -/
def State.cascadeF (s : State) (i hi lo d : Nat) : Nat := match s.recsOf 8 with | r :: _ => r.f i hi lo | [] => d
/-- The position of this device in its cascade, and COUNT, TOPOLOGY and MODE. -/
def State.position (s : State) : Nat := s.cascadeF 1 30 28 0
def State.cascadeCount (s : State) : Nat := s.cascadeF 1 27 24 1
def State.topology (s : State) : Nat := s.cascadeF 1 21 20 0
def State.cascadeMode (s : State) : Nat := s.cascadeF 1 17 16 0

/-- A yarn port. -/
def State.yport (s : State) (p : Nat) : YPort := sget (fun _ => YPort.init) s.links.yrn.port p

/-- Replace a yarn port's hidden state. -/
def State.setYport (s : State) (p : Nat) (y : YPort) : State :=
  { s with links := { s.links with yrn := { s.links.yrn with port := sset (fun _ => YPort.init) s.links.yrn.port p y } } }

/-- Port `p` is UP. -/
def State.yarnUp (s : State) (p : Nat) : Bool := decide (p < 2) && s.get (R.YRN_PORT p) F.YRN_PORT_STATE == 2

/-- Devices to `dst` through port `p`, which is UP; none when it leads the other way. -/
def State.yarnDist (s : State) (p dst : Nat) : Option Nat :=
  let k := s.position
  let n := max 1 s.cascadeCount
  let peer := s.get (R.YRN_PORT p) F.YRN_PORT_PEER
  if !s.yarnUp p then none
  else if dst = peer then some 1
  else if s.topology = 2 then some (if peer = (k + 1) % n then (dst + n - k) % n else (k + n - dst) % n)
  else if k < peer ∧ k < dst then some (dst - k)
  else if peer < k ∧ dst < k then some (k - dst)
  else none

/-- The port toward position `dst`: the shorter path of UP ports, ties to port 0 (R585). -/
def State.yarnRoute (s : State) (dst : Nat) : Option Nat :=
  match s.yarnDist 0 dst, s.yarnDist 1 dst with
  | some a, some b => if b < a then some 1 else some 0
  | some _, none => some 0
  | none, some _ => some 1
  | none, none => none

/-- CTRL units for position `dst` join virtual lane 2 of the port that leads there; without one they are lost. -/
def State.yarnCtrl (s : State) (dst : Nat) (us : List CtrlUnit) : State :=
  match s.yarnRoute dst with
  | some p => s.setYport p { s.yport p with ctrl := (s.yport p).ctrl ++ us }
  | none => s

/-- A message as CTRL units of up to 7 words (Table 18-5). -/
def msgUnits (dst src : Nat) (ws : List Word) : List CtrlUnit :=
  let n := (ws.length + 6) / 7
  (List.range n).map (fun i => ⟨false, dst, src, decide (i + 1 = n), 7 * i, (ws.drop (7 * i)).take 7⟩)

/-! ### Ubtor commands -/

/-- What the message of a command says: its mailbox, the sheet that posted it (none for the host), the position of the device
that forwarded it, its 64 words. -/
structure Cmd where
  mb : Nat
  id : Nat
  sheet : Option Nat
  src : Option Nat
  posted : Nat
  words : List Word
  deriving DecidableEq, Repr

/-- Word `k` of the message. -/
def Cmd.w (c : Cmd) (k : Nat) : Word := c.words.getD k 0
/-- Bits of word `k` of the message. -/
def Cmd.n (c : Cmd) (k hi lo : Nat) : Nat := (c.w k).bits hi lo
/-- One bit of word `k` of the message. -/
def Cmd.b (c : Cmd) (k i : Nat) : Bool := (c.w k).bit i
/-- The header fields of Table 2-3. -/
def Cmd.code (c : Cmd) : Nat := c.n 0 31 16
def Cmd.length (c : Cmd) : Nat := c.n 0 7 0
def Cmd.replyWanted (c : Cmd) : Bool := c.b 0 10
def Cmd.fence (c : Cmd) : Bool := c.b 0 8 || c.code == 0x0202
def Cmd.tag (c : Cmd) : Nat := c.n 1 31 16
def Cmd.session (c : Cmd) : Nat := c.n 1 15 0
/-- Payload words from `k` to the message's end. -/
def Cmd.rest (c : Cmd) (k : Nat) : List Word := (c.words.take c.length).drop k
/-- A 64-bit number in words `k` and `k + 1`, low word first. -/
def Cmd.n64 (c : Cmd) (k : Nat) : Nat := (c.w k).toNat + (c.w (k + 1)).toNat * 2 ^ 32

/-- Posted in MB0 to MB7, or forwarded to be executed as if in MB0 (R592). -/
def Cmd.host (c : Cmd) : Bool := decide (c.mb < 8) || decide (24 ≤ c.mb)

/-- The KeyID of a fabric post's tenant; none for the host. -/
def Cmd.fabKey (c : Cmd) (s : State) : Option Nat := c.sheet.map s.keyOfSheet

/-- How a command answers: a return code with the state its effects leave and the reply's data; ACCEPTED with the
numbers its completion needs; or, where DONE waits for an effect to pass without ACCEPTED, a wait with such numbers; or not yet: an access
it needs waits at an island that powers up, and the message stays unanswered until the row comes again. -/
inductive Ans where
  | ans (rc : RetCode) (s : State) (data : List Word)
  | acc (s : State) (args : List Nat)
  | wait (s : State) (args : List Nat)
  | later (s : State)

/-- Answered with a code and no data. -/
abbrev Ans.code (rc : RetCode) (s : State) : Ans := .ans rc s []
/-- DONE. -/
abbrev Ans.ok (s : State) (data : List Word := []) : Ans := .ans .DONE s data

/-- What a command's code line and payload table fix. -/
structure CmdSpec where
  code : Nat
  lenLo : Nat
  lenHi : Nat
  survey : Bool
  data : Bool
  hostOnly : Bool
  masks : List Nat
  deriving DecidableEq, Repr

/-- The command mailboxes in ascending order: MB0–MB7 from the host, MB16–MB19 from the fabric (Table 2-2), and MB26 and MB27, in
which messages forwarded by other devices arrive to be executed (R585, R592). -/
def commandMbs : List Nat := [0, 1, 2, 3, 4, 5, 6, 7, 16, 17, 18, 19, 26, 27]

/-- The paired reply mailbox (Table 2-2). -/
def replyMb (mb : Nat) : Nat := if mb < 8 then mb + 8 else mb + 4

/-- The lockstep pair that serves a mailbox (Table 2-1). -/
def pairOf (mb : Nat) : Nat :=
  if mb < 16 then 0 else if mb < 24 then 1 else if mb < 28 then 2 else if mb < 30 then 1 else 3

/-- The register of word `k` of mailbox `mb`. -/
def mbWordAddr (mb k : Nat) : Nat := mb * 0x100 + 4 * k

/-- FULL of a mailbox. -/
def State.full (s : State) (mb : Nat) : Bool := s.bit R.MBX_STATUS mb

/-- ACK of a mailbox. -/
def State.acked (s : State) (mb : Nat) : Bool := s.bit R.MBX_ACK mb

/-- Set or clear ACK, and its mirror in MBX_ACKCODE. -/
def State.setAck (s : State) (mb : Nat) (b : Bool) : State :=
  (s.setBit R.MBX_ACK mb b).put (R.MBX_ACKCODE mb) F.MBX_ACKCODE_ACK (b2n b)

/-- The message held in mailbox `mb`. -/
def State.msg (s : State) (mb : Nat) : Cmd :=
  let from_ := sget (fun _ => none) s.mbx.poster mb
  { mb := mb, id := s.mbx.nextId, sheet := if 16 ≤ mb ∧ mb < 20 then from_ else none, src := if 24 ≤ mb then from_ else none,
    posted := sget (fun _ => 0) s.mbx.posted mb,
    words := (List.range 64).map (fun k => s.rd (mbWordAddr mb k)) }

/-- Mailbox `mb` holds a command that waits: any message of a command mailbox, but a reply that has come back over a yarn port
(REPLY_WANTED 0) is none. -/
def State.holds (s : State) (mb : Nat) : Bool := s.full mb && (decide (mb < 24) || s.bit (mbWordAddr mb 0) 10)

/-- Firmware serves command mailboxes (SYS_READY, Table 2-6). -/
def State.serving (s : State) : Bool :=
  match s.sys.dev with
  | .off => false
  | .boot => false
  | _ => true

/-- Pair `p` runs: it is not in reset, and in DORMANT only pair 0 does (R55, R56). -/
def State.pairRuns (s : State) (p : Nat) : Bool :=
  !(s.mbx.pairsInReset.contains p) && (decide (s.sys.dev ≠ .dormant) || p == 0)

/-- Work that the firmware of pair `p` does: it waits while the pair is in reset (Table 2-1, R56). -/
def State.duty (s : State) (p : Nat) (x : Host.Outcome State Fault Refusal) : Host.Outcome State Fault Refusal :=
  if s.mbx.pairsInReset.contains p then .next s else x

/-- Commands started and not yet answered. -/
def State.inHand (s : State) : List OpenCmd := s.mbx.running ++ s.mbx.parked.map Parked.cmd

/-- Posted earlier: by stamp, then by mailbox number (R74). -/
def earlier (p mb p' mb' : Nat) : Bool := decide (p < p') || (decide (p = p') && decide (mb < mb'))

/-- The message in `mb` may start (R67, R73): the device serves and is not DORMANT, the pair runs, and no fence stands
before it. -/
def State.startable (s : State) (mb : Nat) : Bool :=
  let c := s.msg mb
  s.serving && decide (s.sys.dev ≠ .dormant) && commandMbs.contains mb && s.holds mb &&
  s.pairRuns (pairOf mb) &&
  commandMbs.all (fun m =>
    let d := s.msg m
    !(s.holds m && earlier d.posted m c.posted mb && (c.fence || d.fence))) &&
  s.inHand.all (fun o => decide (o.mb ≠ mb)) &&
  (s.mbx.open_ ++ s.inHand).all (fun o => !(earlier o.posted o.mb c.posted mb && (c.fence || o.fence)))

/-- Checks 1 to 3 of Table 2-4, given the defined codes. -/
def headerCheck (codes : List Nat) (c : Cmd) : Option RetCode :=
  if c.length < 2 ∨ 64 < c.length then some .BAD_LENGTH
  else if !codes.contains c.code then some .BAD_COMMAND
  else if c.b 0 9 ≠ c.b 0 23 ∨ c.n 0 15 11 ≠ 0 then some .BAD_COMMAND
  else none

/-- The codes answered in HALTED and TRIPPED: SYS.STATUS and GAZ.READ (R49). -/
def servedWhenStopped (code : Nat) : Bool := code == 0x0101 || code == 0x1601

/-- Check 4 (R49). -/
def stateCheck (c : Cmd) (s : State) : Option RetCode :=
  if servedWhenStopped c.code then none
  else match s.sys.dev with
    | .halted => some .HALTED
    | .tripped => some .TRIPPED
    | _ => none

/-- Check 5 (R11, R12, R78). -/
def expertCheck (c : Cmd) (s : State) : Option RetCode :=
  if c.b 0 23 then
    match s.sys.session with
    | some e => if c.host ∧ c.session = e.id then none else some .EXPERT_REQUIRED
    | none => some .EXPERT_REQUIRED
  else none

/-- Reserved payload bits are 0 in every word of the message that the payload table lists (check 8, R20). -/
def reservedClear (masks : List Nat) (c : Cmd) : Bool :=
  masks.zipIdx.all (fun p => decide (c.length ≤ p.2 + 2) || decide ((c.w (p.2 + 2)).toNat &&& p.1 = (c.w (p.2 + 2)).toNat))

/-- A code of check 8. -/
def RetCode.ofField : RetCode → Bool
  | .BAD_FIELD => true
  | .BAD_LENGTH => true
  | _ => false

/-- Checks 4 to 9 of Table 2-4 in order. `fields` gives the first failure of check 8 beyond reserved bits and R71, or of check 9 beyond
the mailbox: a command for the host only is refused to the fabric before its target's ownership is judged. -/
def bodyCheck (sp : CmdSpec) (fields : Cmd → State → Option RetCode) (c : Cmd) (s : State) : Option RetCode :=
  stateCheck c s <|> expertCheck c s <|>
  (if sp.survey && !s.svy.committed then some .SURVEY_MISSING else none) <|>
  (if c.length < sp.lenLo ∨ sp.lenHi < c.length then some .BAD_LENGTH else none) <|>
  (if !reservedClear sp.masks c || (sp.data && !c.replyWanted) then some .BAD_FIELD else none) <|>
  (fields c s).filter RetCode.ofField <|>
  (if sp.hostOnly && !c.host then some .NOT_PERMITTED else none) <|>
  fields c s

/-- Write a posted message into a mailbox: its words, FULL set, ACK cleared, the post's stamp (R63). -/
def State.postInto (s : State) (mb : Nat) (ws : List Word) : State :=
  let s := ws.zipIdx.foldl (fun t p => t.wr (mbWordAddr mb p.2) p.1) s
  let s := (s.setBit R.MBX_STATUS mb true).setAck mb false
  { s with mbx := { s.mbx with posted := sset (fun _ => 0) s.mbx.posted mb s.stamp } }

/-- Port `p`'s outgoing mailbox is empty: the next message for it is posted there and travels on virtual lane 2 (R585). -/
def State.yarnPump (s : State) (p : Nat) : State :=
  let y := s.yport p
  if s.full (24 + p) then s
  else match y.out with
    | m :: rest =>
      (s.setYport p { y with out := rest, cur := some m, ctrl := y.ctrl ++ msgUnits m.dst s.position m.words }).postInto (24 + p) m.words
    | [] => s

/-- Ubtor sends a message to another position; without a path it is lost. -/
def State.yarnPost (s : State) (m : YMsg) : State :=
  match s.yarnRoute m.dst with
  | some p => (s.setYport p { s.yport p with out := (s.yport p).out ++ [m] }).yarnPump p
  | none => s

/-- The acknowledging write of MBX_ACKCODE: code, ACK, FULL in one step (R63). That of an incoming yarn mailbox travels back to the
device that sent the message (R585). -/
def State.ackWrite (s : State) (mb code : Nat) : State :=
  let s := ((s.put (R.MBX_ACKCODE mb) F.MBX_ACKCODE_CODE code).setAck mb true).setBit R.MBX_STATUS mb false
  match sget (fun _ => none) s.mbx.poster mb with
  | some d => if mb = 26 ∨ mb = 27 then s.yarnCtrl d [⟨true, d, s.position, true, 0, [word code]⟩] else s
  | none => s

/-- Ubtor acknowledges a command; the session's idle time counts from the last acknowledgement that carried its
identifier (R80). -/
def State.acknowledge (s : State) (c : Cmd) (rc : RetCode) : State :=
  let s := s.ackWrite c.mb rc.num
  match s.sys.session with
  | some e => if c.session = e.id then { s with sys := { s.sys with session := some { e with lastAck := s.stamp } } } else s
  | none => s

/-- The words of a reply or completion (R70). -/
def replyWords (code tag session : Nat) (rc : RetCode) (data : List Word) : List Word :=
  [word (code * 2 ^ 16 + (3 + data.length)), word (tag * 2 ^ 16 + session), word rc.num] ++ data

/-- The completions waiting for command mailbox `mb`. -/
def State.outq (s : State) (mb : Nat) : List OutMsg := sget (fun _ => []) s.mbx.outq mb

/-- Replace the completions waiting for command mailbox `mb`. -/
def State.setOutq (s : State) (mb : Nat) (q : List OutMsg) : State :=
  { s with mbx := { s.mbx with outq := sset (fun _ => []) s.mbx.outq mb q } }

/-- Completions queued for the reply mailbox (R76). -/
def State.queued (s : State) (mb : Nat) : Nat := ((s.outq mb).filter (fun m => m.ready.isSome)).length

/-- Post the oldest completion of `mb` if it is known, the pair that serves the mailbox runs and the reply mailbox is empty (R55, R73,
R76); that of a forwarded command goes back over a yarn port. -/
def State.flushOne (s : State) (mb : Nat) : State :=
  match s.outq mb with
  | m :: rest =>
    (match m.ready with
     | some ws =>
       if !s.serving || !s.pairRuns (pairOf mb) then s
       else match m.src with
         | some d => (s.setOutq mb rest).yarnPost ⟨d, ws, none⟩
         | none =>
           if s.full (replyMb mb) then s
           else
             let s := (s.setOutq mb rest).postInto (replyMb mb) ws
             { s with mbx := { s.mbx with receiver := sset (fun _ => none) s.mbx.receiver (replyMb mb) m.sheet } }
     | none => s)
  | [] => s

/-- Post what may be posted of the completions of `mb`, in order. -/
def State.flush (s : State) (mb : Nat) : State := (s.outq mb).foldl (fun t _ => t.flushOne mb) s

/-- The completions of the mailboxes that pair `p` serves. -/
def State.flushPair (s : State) (p : Nat) : State :=
  (commandMbs.filter (fun m => decide (pairOf m = p))).foldl State.flush s

/-- A reply or a promise of a completion joins its mailbox's order. -/
def State.pushOut (s : State) (mb : Nat) (m : OutMsg) : State := (s.setOutq mb (s.outq mb ++ [m])).flush mb

/-- A fresh command identity. -/
def State.takeId (s : State) : State := { s with mbx := { s.mbx with nextId := s.mbx.nextId + 1 } }

/-- Answer a command within its acknowledgement (R75): the code, and the reply when it was wanted (R69). -/
def State.answer (s : State) (c : Cmd) (rc : RetCode) (data : List Word) : State :=
  let s := (s.acknowledge c rc).takeId
  if c.replyWanted then
    s.pushOut c.mb ⟨c.id, false, c.sheet, c.src, some (replyWords c.code c.tag c.session rc data)⟩
  else s

/-- Answer ACCEPTED: the command stays open until its completion (R71, R75). -/
def State.accept (s : State) (c : Cmd) (args : List Nat) : State :=
  let s := (s.acknowledge c .ACCEPTED).takeId
  let o : OpenCmd := ⟨c.id, c.mb, c.code, c.tag, c.session, c.fence, c.posted, c.sheet, args⟩
  { s with mbx := { s.mbx with open_ := s.mbx.open_ ++ [o] } }.pushOut c.mb ⟨c.id, true, c.sheet, c.src, none⟩

/-- The first waiting command with code `code` that satisfies `p`. -/
def State.runningOf (s : State) (code : Nat) (p : OpenCmd → Bool := fun _ => true) : Option OpenCmd :=
  s.mbx.running.find? (fun o => decide (o.code = code) && p o)

/-- A waiting command's effect has passed: it is answered, once its pair runs. -/
def State.finishRun (s : State) (o : OpenCmd) (rc : RetCode) (data : List Word := []) : State :=
  let c := { s.msg o.mb with id := o.id }
  let s := { s with mbx := { s.mbx with running := s.mbx.running.filter (fun p => p.id ≠ o.id) } }
  if s.pairRuns (pairOf o.mb) then s.answer c rc data
  else { s with mbx := { s.mbx with parked := s.mbx.parked ++ [⟨o, rc, data⟩] } }

/-- Pair `p` runs again: commands whose effects landed while it did not are answered, and completions that waited are posted (R56). -/
def State.pairResumes (s : State) (p : Nat) : State :=
  let l := s.mbx.parked.filter (fun x => decide (pairOf x.cmd.mb = p))
  let s := { s with mbx := { s.mbx with parked := s.mbx.parked.filter (fun x => decide (pairOf x.cmd.mb ≠ p)) } }
  (l.foldl (fun s x => s.finishRun x.cmd x.rc x.data) s).flushPair p

/-- The open command with identity `id`. -/
def State.openById (s : State) (id : Nat) : Option OpenCmd := s.mbx.open_.find? (fun o => o.id = id)

/-- The first open command with code `code` that satisfies `p`. -/
def State.openOf (s : State) (code : Nat) (p : OpenCmd → Bool := fun _ => true) : Option OpenCmd :=
  s.mbx.open_.find? (fun o => decide (o.code = code) && p o)

/-- Replace the numbers that open command `id` keeps. -/
def State.setOpenArgs (s : State) (id : Nat) (args : List Nat) : State :=
  { s with mbx := { s.mbx with open_ := s.mbx.open_.map (fun o => if o.id = id then { o with args := args } else o) } }

/-- Complete open command `id` with a code and data; its reply follows in posting order (R71, R73). -/
def State.complete (s : State) (id : Nat) (rc : RetCode) (data : List Word := []) : State :=
  match s.openById id with
  | none => s
  | some o =>
    let s := { s with mbx := { s.mbx with open_ := s.mbx.open_.filter (fun p => p.id ≠ id) } }
    let ws := replyWords o.code o.tag o.session rc data
    (s.setOutq o.mb ((s.outq o.mb).map (fun m => if m.id = id then { m with ready := some ws } else m))).flush o.mb

/-- Complete the open command that holds identity `id`, when one is named. -/
def State.completeOpt (s : State) (id : Option Nat) (rc : RetCode) (data : List Word := []) : State :=
  match id with
  | some i => s.complete i rc data
  | none => s

/-- Abandon every command that has not sent its completion (R75). -/
def State.abandonOpen (s : State) : State :=
  { s with mbx := { s.mbx with
      open_ := [],
      running := [],
      parked := [],
      outq := commandMbs.foldl (fun q m => sset (fun _ => []) q m ((sget (fun _ => []) q m).filter (fun o => !o.accepted)))
        s.mbx.outq } }

/-- Ubtor reads and carries out the command in mailbox `mb` as descriptor `sp` says, when that command is there and may
start; otherwise nothing happens. R76 first, then Table 2-4, then the command's own effect. -/
def runCommand (sp : CmdSpec) (fields : Cmd → State → Option RetCode) (act : Cmd → State → Ans) (mb : Nat)
    (s : State) : State :=
  let c := s.msg mb
  if s.startable mb && decide (c.code = sp.code) && (headerCheck [sp.code] c).isNone then
    let isFull := decide (16 ≤ s.queued mb)
    if isFull && c.replyWanted then (s.acknowledge c .BUSY).takeId
    else match bodyCheck sp fields c s with
      | some rc => s.answer c rc []
      | none =>
        match act c s with
        | .ans rc s' data => s'.answer c rc data
        | .later s' => s'
        | .acc s' args => if isFull then (s.acknowledge c .BUSY).takeId else s'.accept c args
        | .wait s' args =>
          let o : OpenCmd := ⟨c.id, c.mb, c.code, c.tag, c.session, c.fence, c.posted, c.sheet, args⟩
          { s' with mbx := { s'.mbx with running := s'.mbx.running ++ [o], nextId := s'.mbx.nextId + 1 } }
  else s

/-- No field beyond reserved bits to check. -/
def noFields (_ : Cmd) (_ : State) : Option RetCode := none

/-- BAD_FIELD when the condition holds. -/
def badIf (p : Bool) : Option RetCode := if p then some .BAD_FIELD else none

/-- BAD_FIELD when `p`, then BAD_LENGTH when LENGTH is not the one the fields imply (check 8). -/
def badOrLength (p : Bool) (c : Cmd) (len : Nat) : Option RetCode :=
  if p then some .BAD_FIELD else if c.length ≠ len then some .BAD_LENGTH else none

end Sys2Proof.Machine
end

