-- ==== Sys2Proof/Machine/Commands.lean ====
section
/-! DEFINITION. One descriptor per Ubtor command, from the code lines, payload tables and permission rules of spec/02 to
spec/24: code, LENGTH range, whether it needs a survey (check 6), whether it returns data (R71), whether only MB0-MB7 may
issue it (check 9), and the bits of payload words 2 onward that a field names (any other bit is reserved, check 8; words
beyond the list carry data). -/

namespace Sys2Proof.Machine

/-- `SYS.STATUS`, code 0x0101 (02). -/
def spec_SYS_STATUS : CmdSpec := ⟨0x0101, 2, 2, false, true, false, []⟩

/-- `SYS.ECHO`, code 0x0102 (02). -/
def spec_SYS_ECHO : CmdSpec := ⟨0x0102, 2, 63, false, true, false, []⟩

/-- `SYS.STATE`, code 0x0103 (02). -/
def spec_SYS_STATE : CmdSpec := ⟨0x0103, 3, 3, true, false, false, [0x3]⟩

/-- `SYS.RESET`, code 0x0104 (02). -/
def spec_SYS_RESET : CmdSpec := ⟨0x0104, 3, 3, false, false, false, [0xffff]⟩

/-- `SYS.CAUSE_CLEAR`, code 0x0105 (02). -/
def spec_SYS_CAUSE_CLEAR : CmdSpec := ⟨0x0105, 3, 3, false, false, true, [0x3]⟩

/-- `SYS.EXPERT_OPEN`, code 0x0106 (02). -/
def spec_SYS_EXPERT_OPEN : CmdSpec := ⟨0x0106, 3, 3, true, true, true, [0xffff]⟩

/-- `SYS.EXPERT_CLOSE`, code 0x0107 (02). -/
def spec_SYS_EXPERT_CLOSE : CmdSpec := ⟨0x0107, 3, 3, false, false, false, [0xffff]⟩

/-- `SYS.FW_UPDATE`, code 0x0108 (02). -/
def spec_SYS_FW_UPDATE : CmdSpec := ⟨0x0108, 6, 6, false, false, true, [0xffffffff, 0xffffffff, 0xffffffff, 0x3]⟩

/-- `SYS.REG_READ`, code 0x0180 (02). -/
def spec_SYS_REG_READ : CmdSpec := ⟨0x0180, 5, 5, true, true, false, [0xffffffff, 0xffff, 0x3f]⟩

/-- `SYS.REG_WRITE`, code 0x0181 (02). -/
def spec_SYS_REG_WRITE : CmdSpec := ⟨0x0181, 6, 64, true, false, false, [0xffffffff, 0xffff, 0x3f]⟩

/-- `SURVEY.LOAD`, code 0x0201 (03). -/
def spec_SURVEY_LOAD : CmdSpec := ⟨0x0201, 4, 64, false, false, true, [0xffff]⟩

/-- `SURVEY.COMMIT`, code 0x0202 (03). -/
def spec_SURVEY_COMMIT : CmdSpec := ⟨0x0202, 3, 3, false, false, true, [0xffffffff]⟩

/-- `SURVEY.ABORT`, code 0x0203 (03). -/
def spec_SURVEY_ABORT : CmdSpec := ⟨0x0203, 2, 2, false, false, true, []⟩

/-- `SURVEY.STATUS`, code 0x0204 (03). -/
def spec_SURVEY_STATUS : CmdSpec := ⟨0x0204, 2, 2, false, true, true, []⟩

/-- `SURVEY.READ`, code 0x0205 (03). -/
def spec_SURVEY_READ : CmdSpec := ⟨0x0205, 4, 4, true, true, true, [0xffff, 0x3f]⟩

/-- `SURVEY.MISMATCH`, code 0x0206 (03). -/
def spec_SURVEY_MISMATCH : CmdSpec := ⟨0x0206, 3, 3, false, true, true, [0x3f]⟩

/-- `WAL.STATUS`, code 0x0a01 (04). -/
def spec_WAL_STATUS : CmdSpec := ⟨0x0a01, 3, 3, true, true, false, [0x3f]⟩

/-- `WAL.SWITCH`, code 0x0a02 (04). -/
def spec_WAL_SWITCH : CmdSpec := ⟨0x0a02, 4, 4, true, false, false, [0x3f, 0xffff000f]⟩

/-- `WAL.BIND`, code 0x0a03 (04). -/
def spec_WAL_BIND : CmdSpec := ⟨0x0a03, 4, 4, true, false, false, [0xf3f, 0x80000fff]⟩

/-- `WAL.STICKY_CLEAR`, code 0x0a04 (04). -/
def spec_WAL_STICKY_CLEAR : CmdSpec := ⟨0x0a04, 4, 4, true, false, false, [0x3f, 0xffff001f]⟩

/-- `WAL.BANKMAP`, code 0x0a80 (04). -/
def spec_WAL_BANKMAP : CmdSpec := ⟨0x0a80, 4, 4, true, false, false, [0xf3f, 0xfffff]⟩

/-- `WAL.FREEZE`, code 0x0a81 (04). -/
def spec_WAL_FREEZE : CmdSpec := ⟨0x0a81, 3, 3, true, false, false, [0x13f]⟩

/-- `WAL.SHIFT`, code 0x0a82 (04). -/
def spec_WAL_SHIFT : CmdSpec := ⟨0x0a82, 3, 3, true, false, false, [0x1f3f]⟩

/-- `WAL.COUNTERS`, code 0x0a83 (04). -/
def spec_WAL_COUNTERS : CmdSpec := ⟨0x0a83, 3, 3, true, true, false, [0x13f]⟩

/-- `SHT.STATUS`, code 0x0901 (05). -/
def spec_SHT_STATUS : CmdSpec := ⟨0x0901, 3, 3, true, true, false, [0x1f]⟩

/-- `SHT.STICKY_CLEAR`, code 0x0902 (05). -/
def spec_SHT_STICKY_CLEAR : CmdSpec := ⟨0x0902, 3, 3, true, false, false, [0x71f]⟩

/-- `SHT.RESET`, code 0x0903 (05). -/
def spec_SHT_RESET : CmdSpec := ⟨0x0903, 3, 3, true, false, true, [0x3ffff]⟩

/-- `SHT.CLOCK`, code 0x0980 (05). -/
def spec_SHT_CLOCK : CmdSpec := ⟨0x0980, 4, 4, true, false, false, [0x1f, 0xfffff]⟩

/-- `SHT.FREEZE`, code 0x0981 (05). -/
def spec_SHT_FREEZE : CmdSpec := ⟨0x0981, 3, 3, true, false, false, [0x11f]⟩

/-- `SHT.COUNTERS`, code 0x0982 (05). -/
def spec_SHT_COUNTERS : CmdSpec := ⟨0x0982, 3, 3, true, true, false, [0x11f]⟩

/-- `CAP.STATUS`, code 0x1801 (05). -/
def spec_CAP_STATUS : CmdSpec := ⟨0x1801, 2, 2, true, true, false, []⟩

/-- `CAP.TAKE`, code 0x1802 (05). -/
def spec_CAP_TAKE : CmdSpec := ⟨0x1802, 6, 6, true, false, false, [0xffffffff, 0x1f03, 0xffffffff, 0xffffffff]⟩

/-- `CAP.TAKE_X`, code 0x1880 (05). -/
def spec_CAP_TAKE_X : CmdSpec := ⟨0x1880, 7, 7, true, false, false, [0xffffffff, 0x1f03, 0xffffffff, 0xffffffff, 0x3]⟩

/-- `CAP.READ`, code 0x1803 (05). -/
def spec_CAP_READ : CmdSpec := ⟨0x1803, 6, 6, true, false, true, [0x1f, 0xffffffff, 0xffffffff, 0x0]⟩

/-- `CAP.RELEASE`, code 0x1804 (05). -/
def spec_CAP_RELEASE : CmdSpec := ⟨0x1804, 2, 2, true, false, false, []⟩

/-- `SHT.SWITCH`, code 0x0904 (06). -/
def spec_SHT_SWITCH : CmdSpec := ⟨0x0904, 9, 9, true, false, false, [0xffffffff, 0xffffffff, 0xffffffff, 0xffffffff, 0xffff0fff, 0xffffffff, 0xffffffff]⟩

/-- `SHT.RISERS`, code 0x0983 (06). -/
def spec_SHT_RISERS : CmdSpec := ⟨0x0983, 3, 3, true, true, false, [0x1f]⟩

/-- `LDR.STATUS`, code 0x0801 (07). -/
def spec_LDR_STATUS : CmdSpec := ⟨0x0801, 2, 2, false, true, true, []⟩

/-- `LDR.LOAD`, code 0x0802 (07). -/
def spec_LDR_LOAD : CmdSpec := ⟨0x0802, 6, 6, true, false, true, [0xffffffff, 0xffffffff, 0xffffffff, 0x1]⟩

/-- `LDR.COMMIT`, code 0x0803 (07). -/
def spec_LDR_COMMIT : CmdSpec := ⟨0x0803, 3, 3, true, false, true, [0x3]⟩

/-- `LDR.ABORT`, code 0x0804 (07). -/
def spec_LDR_ABORT : CmdSpec := ⟨0x0804, 3, 3, true, false, true, [0x3]⟩

/-- `LDR.CASTON`, code 0x0805 (07). -/
def spec_LDR_CASTON : CmdSpec := ⟨0x0805, 3, 3, true, false, true, [0x1]⟩

/-- `LDR.GRANT`, code 0x0806 (07). -/
def spec_LDR_GRANT : CmdSpec := ⟨0x0806, 6, 6, true, false, true, [0x11f, 0xffffffff, 0xffffffff, 0xff]⟩

/-- `LDR.LOCK`, code 0x0880 (07). -/
def spec_LDR_LOCK : CmdSpec := ⟨0x0880, 2, 2, true, false, true, []⟩

/-- `LDR.COUNTERS`, code 0x0881 (07). -/
def spec_LDR_COUNTERS : CmdSpec := ⟨0x0881, 3, 3, true, true, true, [0x1]⟩

/-- `STR.STATUS`, code 0x0c01 (08). -/
def spec_STR_STATUS : CmdSpec := ⟨0x0c01, 3, 3, true, true, false, [0xfff]⟩

/-- `STR.OPEN`, code 0x0c02 (08). -/
def spec_STR_OPEN : CmdSpec := ⟨0x0c02, 6, 6, true, true, false, [0x8f3f0fff, 0xffffffff, 0xffffffff, 0xffff]⟩

/-- `STR.SEAM`, code 0x0c03 (08). -/
def spec_STR_SEAM : CmdSpec := ⟨0x0c03, 3, 3, true, false, false, [0xfff]⟩

/-- `STR.BINDOFF`, code 0x0c04 (08). -/
def spec_STR_BINDOFF : CmdSpec := ⟨0x0c04, 3, 3, true, false, false, [0xffff0fff]⟩

/-- `STR.OPEN_X`, code 0x0c80 (08). -/
def spec_STR_OPEN_X : CmdSpec := ⟨0x0c80, 8, 8, true, true, false, [0xe03f0fff, 0xffffffff, 0xffffffff, 0xffffff, 0xfffff, 0x7fffff]⟩

/-- `STR.COUNTERS`, code 0x0c81 (08). -/
def spec_STR_COUNTERS : CmdSpec := ⟨0x0c81, 3, 3, true, true, false, [0x10fff]⟩

/-- `AIR.STATUS`, code 0x0b01 (09). -/
def spec_AIR_STATUS : CmdSpec := ⟨0x0b01, 2, 2, true, true, true, []⟩

/-- `AIR.PRESET`, code 0x0b02 (09). -/
def spec_AIR_PRESET : CmdSpec := ⟨0x0b02, 12, 12, true, false, true, [0xffffffff, 0xffffffff, 0xffffff0f, 0xffffffff, 0xffff00ff, 0xfff001f, 0xfff001f, 0xffffff, 0xffff, 0x7ffffff]⟩

/-- `AIR.ENABLE`, code 0x0b03 (09). -/
def spec_AIR_ENABLE : CmdSpec := ⟨0x0b03, 2, 2, true, false, true, []⟩

/-- `AIR.DISABLE`, code 0x0b04 (09). -/
def spec_AIR_DISABLE : CmdSpec := ⟨0x0b04, 3, 3, true, false, true, [0x1]⟩

/-- `AIR.SWAP`, code 0x0b05 (09). -/
def spec_AIR_SWAP : CmdSpec := ⟨0x0b05, 5, 5, true, false, true, [0x1, 0xffffffff, 0xffffffff]⟩

/-- `AIR.LOAD`, code 0x0b80 (09). -/
def spec_AIR_LOAD : CmdSpec := ⟨0x0b80, 7, 63, true, false, true, [0x80000fff]⟩

/-- `AIR.SEAL`, code 0x0b81 (09). -/
def spec_AIR_SEAL : CmdSpec := ⟨0x0b81, 5, 5, true, false, true, [0x80001fff, 0x7ffffff, 0x7ffffff]⟩

/-- `AIR.READ`, code 0x0b82 (09). -/
def spec_AIR_READ : CmdSpec := ⟨0x0b82, 3, 3, true, true, true, [0x800f0fff]⟩

/-- `AIR.IDLE`, code 0x0b83 (09). -/
def spec_AIR_IDLE : CmdSpec := ⟨0x0b83, 4, 4, true, false, true, [0x7, 0xffffffff]⟩

/-- `AIR.COUNTERS`, code 0x0b84 (09). -/
def spec_AIR_COUNTERS : CmdSpec := ⟨0x0b84, 3, 3, true, true, true, [0x1]⟩

/-- `AIR.TAP_READ`, code 0x0b85 (09). -/
def spec_AIR_TAP_READ : CmdSpec := ⟨0x0b85, 6, 6, true, false, true, [0x10f, 0xffffffff, 0xffffffff, 0x0]⟩

/-- `LNE.STATUS`, code 0x0d01 (11). -/
def spec_LNE_STATUS : CmdSpec := ⟨0x0d01, 3, 3, true, true, true, [0x7f]⟩

/-- `LNE.POWER`, code 0x0d02 (11). -/
def spec_LNE_POWER : CmdSpec := ⟨0x0d02, 3, 3, true, false, true, [0x3007f]⟩

/-- `LNE.RETRAIN`, code 0x0d03 (11). -/
def spec_LNE_RETRAIN : CmdSpec := ⟨0x0d03, 3, 3, true, false, true, [0x7f]⟩

/-- `LNE.BINDOFF`, code 0x0d04 (11). -/
def spec_LNE_BINDOFF : CmdSpec := ⟨0x0d04, 3, 3, true, false, true, [0xffff007f]⟩

/-- `LNE.UP`, code 0x0d05 (11). -/
def spec_LNE_UP : CmdSpec := ⟨0x0d05, 3, 3, true, false, true, [0x7f]⟩

/-- `LNE.TEST`, code 0x0d06 (11). -/
def spec_LNE_TEST : CmdSpec := ⟨0x0d06, 4, 4, true, false, true, [0x7f, 0xbf000000]⟩

/-- `LNE.EQ`, code 0x0d80 (11). -/
def spec_LNE_EQ : CmdSpec := ⟨0x0d80, 5, 5, true, false, true, [0x37f, 0x1ff, 0xffffffff]⟩

/-- `LNE.ADAPT`, code 0x0d81 (11). -/
def spec_LNE_ADAPT : CmdSpec := ⟨0x0d81, 3, 3, true, false, true, [0x17f]⟩

/-- `LNE.PATTERN`, code 0x0d82 (11). -/
def spec_LNE_PATTERN : CmdSpec := ⟨0x0d82, 6, 6, true, false, true, [0x7f, 0xfff00000, 0xffffffff, 0xffffffff]⟩

/-- `LNE.COUNTERS`, code 0x0d83 (11). -/
def spec_LNE_COUNTERS : CmdSpec := ⟨0x0d83, 3, 3, true, true, true, [0x17f]⟩

/-- `FHE.STATUS`, code 0x0e01 (12). -/
def spec_FHE_STATUS : CmdSpec := ⟨0x0e01, 3, 3, true, true, true, [0xf]⟩

/-- `FHE.FLOW`, code 0x0e02 (12). -/
def spec_FHE_FLOW : CmdSpec := ⟨0x0e02, 7, 7, true, false, true, [0x800000ff, 0xffffffff, 0xffffffff, 0xffffffff, 0xffffffff]⟩

/-- `FHE.COUNTERS`, code 0x0e80 (12). -/
def spec_FHE_COUNTERS : CmdSpec := ⟨0x0e80, 3, 3, true, true, true, [0x800001ff]⟩

/-- `JSD.STATUS`, code 0x0f01 (12). -/
def spec_JSD_STATUS : CmdSpec := ⟨0x0f01, 3, 3, true, true, true, [0xf]⟩

/-- `JSD.LINK`, code 0x0f02 (12). -/
def spec_JSD_LINK : CmdSpec := ⟨0x0f02, 6, 6, true, false, true, [0xf, 0xffffffff, 0xffffffff, 0xffffffff]⟩

/-- `JSD.SYSREF`, code 0x0f03 (12). -/
def spec_JSD_SYSREF : CmdSpec := ⟨0x0f03, 3, 3, true, false, true, [0xffffffff]⟩

/-- `JSD.COUNTERS`, code 0x0f80 (12). -/
def spec_JSD_COUNTERS : CmdSpec := ⟨0x0f80, 3, 3, true, true, true, [0x10f]⟩

/-- `MER.STATUS`, code 0x0601 (13). -/
def spec_MER_STATUS : CmdSpec := ⟨0x0601, 2, 2, true, true, true, []⟩

/-- `MER.SELECT`, code 0x0602 (13). -/
def spec_MER_SELECT : CmdSpec := ⟨0x0602, 8, 8, true, false, true, [0xffffffff, 0xffff, 0xffffffff, 0xffffffff, 0xffffffff, 0xffff]⟩

/-- `MER.OUTPUTS`, code 0x0603 (13). -/
def spec_MER_OUTPUTS : CmdSpec := ⟨0x0603, 3, 3, true, false, true, [0xffffffff]⟩

/-- `MER.MODEL`, code 0x0604 (13). -/
def spec_MER_MODEL : CmdSpec := ⟨0x0604, 3, 3, true, true, true, [0xffff]⟩

/-- `MER.LEAP`, code 0x0605 (13). -/
def spec_MER_LEAP : CmdSpec := ⟨0x0605, 3, 3, true, false, true, [0x3ff]⟩

/-- `MER.BUDGET`, code 0x0680 (13). -/
def spec_MER_BUDGET : CmdSpec := ⟨0x0680, 3, 3, true, false, true, [0xffff]⟩

/-- `MER.MODEL_CLEAR`, code 0x0681 (13). -/
def spec_MER_MODEL_CLEAR : CmdSpec := ⟨0x0681, 3, 3, true, false, true, [0xffff]⟩

/-- `MER.COUNTERS`, code 0x0682 (13). -/
def spec_MER_COUNTERS : CmdSpec := ⟨0x0682, 3, 3, true, true, true, [0x1]⟩

/-- `CLK.STATUS`, code 0x0301 (14). -/
def spec_CLK_STATUS : CmdSpec := ⟨0x0301, 2, 2, false, true, false, []⟩

/-- `CLK.GATE`, code 0x0302 (14). -/
def spec_CLK_GATE : CmdSpec := ⟨0x0302, 3, 3, true, false, false, [0x301ff]⟩

/-- `CLK.FREQ`, code 0x0380 (14). -/
def spec_CLK_FREQ : CmdSpec := ⟨0x0380, 4, 4, true, false, false, [0x7f, 0x1fffff]⟩

/-- `PWR.STATUS`, code 0x0401 (14). -/
def spec_PWR_STATUS : CmdSpec := ⟨0x0401, 2, 2, false, true, false, []⟩

/-- `PWR.OP`, code 0x0402 (14). -/
def spec_PWR_OP : CmdSpec := ⟨0x0402, 6, 6, true, false, false, [0xffffffff, 0xffffffff, 0xff, 0x3]⟩

/-- `PWR.ISLAND`, code 0x0403 (14). -/
def spec_PWR_ISLAND : CmdSpec := ⟨0x0403, 3, 3, true, false, false, [0x17f]⟩

/-- `PWR.WAKE`, code 0x0404 (14). -/
def spec_PWR_WAKE : CmdSpec := ⟨0x0404, 3, 3, true, false, true, [0xffffffff]⟩

/-- `PWR.AVS_READ`, code 0x0480 (14). -/
def spec_PWR_AVS_READ : CmdSpec := ⟨0x0480, 3, 3, true, false, false, [0x1]⟩

/-- `GRT.STATUS`, code 0x1901 (15). -/
def spec_GRT_STATUS : CmdSpec := ⟨0x1901, 2, 2, false, true, true, []⟩

/-- `GRT.LINK_TEST`, code 0x1980 (15). -/
def spec_GRT_LINK_TEST : CmdSpec := ⟨0x1980, 3, 3, true, false, true, [0x7f]⟩

/-- `GRT.LINK_RESTORE`, code 0x1981 (15). -/
def spec_GRT_LINK_RESTORE : CmdSpec := ⟨0x1981, 3, 3, true, false, true, [0x7f]⟩

/-- `GRT.ROUTE_READ`, code 0x1982 (15). -/
def spec_GRT_ROUTE_READ : CmdSpec := ⟨0x1982, 3, 3, true, true, true, [0x3f3fff]⟩

/-- `GRT.ROUTE_WRITE`, code 0x1983 (15). -/
def spec_GRT_ROUTE_WRITE : CmdSpec := ⟨0x1983, 6, 6, true, false, true, [0x3fff, 0x80ff0f0f, 0xffffffff, 0xffff]⟩

/-- `GRT.COUNTERS`, code 0x1984 (15). -/
def spec_GRT_COUNTERS : CmdSpec := ⟨0x1984, 3, 3, true, true, true, [0x1]⟩

/-- `MEM.STATUS`, code 0x1101 (16). -/
def spec_MEM_STATUS : CmdSpec := ⟨0x1101, 2, 2, true, true, true, []⟩

/-- `MEM.COUNTERS`, code 0x1180 (16). -/
def spec_MEM_COUNTERS : CmdSpec := ⟨0x1180, 3, 3, true, true, true, [0x1]⟩

/-- `MGD.STATUS`, code 0x1201 (16). -/
def spec_MGD_STATUS : CmdSpec := ⟨0x1201, 3, 3, true, true, true, [0x3f]⟩

/-- `MGD.PARTITION`, code 0x1280 (16). -/
def spec_MGD_PARTITION : CmdSpec := ⟨0x1280, 4, 4, true, false, true, [0x3f, 0x3ff03ff]⟩

/-- `MGD.COUNTERS`, code 0x1281 (16). -/
def spec_MGD_COUNTERS : CmdSpec := ⟨0x1281, 3, 3, true, true, true, [0x1]⟩

/-- `DMA.STATUS`, code 0x1301 (17). -/
def spec_DMA_STATUS : CmdSpec := ⟨0x1301, 3, 3, false, true, true, [0x1f]⟩

/-- `DMA.QUEUE`, code 0x1302 (17). -/
def spec_DMA_QUEUE : CmdSpec := ⟨0x1302, 3, 3, true, false, true, [0xe03f001f]⟩

/-- `DMA.COUNTERS`, code 0x1380 (17). -/
def spec_DMA_COUNTERS : CmdSpec := ⟨0x1380, 3, 3, true, true, true, [0x1]⟩

/-- `DMA.LINK`, code 0x1381 (17). -/
def spec_DMA_LINK : CmdSpec := ⟨0x1381, 3, 3, true, false, true, [0x7]⟩

/-- `YRN.STATUS`, code 0x1001 (18). -/
def spec_YRN_STATUS : CmdSpec := ⟨0x1001, 2, 2, false, true, true, []⟩

/-- `YRN.CHANNEL`, code 0x1002 (18). -/
def spec_YRN_CHANNEL : CmdSpec := ⟨0x1002, 3, 3, true, false, true, [0xe000007f]⟩

/-- `YRN.FORWARD`, code 0x1003 (18). -/
def spec_YRN_FORWARD : CmdSpec := ⟨0x1003, 5, 64, true, false, true, [0x7]⟩

/-- `YRN.ASYM`, code 0x1080 (18). -/
def spec_YRN_ASYM : CmdSpec := ⟨0x1080, 4, 4, true, false, true, [0x1, 0xffffffff]⟩

/-- `YRN.COUNTERS`, code 0x1081 (18). -/
def spec_YRN_COUNTERS : CmdSpec := ⟨0x1081, 3, 3, true, true, true, [0x101]⟩

/-- `FLT.STATUS`, code 0x1401 (19). -/
def spec_FLT_STATUS : CmdSpec := ⟨0x1401, 2, 2, false, true, true, []⟩

/-- `FLT.EVENTS`, code 0x1402 (19). -/
def spec_FLT_EVENTS : CmdSpec := ⟨0x1402, 3, 3, false, true, true, [0xffffffff]⟩

/-- `FLT.WINDOW`, code 0x1480 (19). -/
def spec_FLT_WINDOW : CmdSpec := ⟨0x1480, 4, 4, true, false, true, [0xff, 0xffffffff]⟩

/-- `FLT.SLOTS`, code 0x1481 (19). -/
def spec_FLT_SLOTS : CmdSpec := ⟨0x1481, 3, 3, true, true, true, [0x7f7f]⟩

/-- `FLT.COUNTERS`, code 0x1482 (19). -/
def spec_FLT_COUNTERS : CmdSpec := ⟨0x1482, 3, 3, true, true, true, [0x1]⟩

/-- `SWT.STATUS`, code 0x1501 (20). -/
def spec_SWT_STATUS : CmdSpec := ⟨0x1501, 2, 2, false, true, true, []⟩

/-- `SWT.RUN`, code 0x1502 (20). -/
def spec_SWT_RUN : CmdSpec := ⟨0x1502, 4, 4, true, false, true, [0xf000ffff, 0x7fff]⟩

/-- `SWT.RESULTS`, code 0x1503 (20). -/
def spec_SWT_RESULTS : CmdSpec := ⟨0x1503, 3, 3, false, true, true, [0x7]⟩

/-- `SWT.ROTATE`, code 0x1504 (20). -/
def spec_SWT_ROTATE : CmdSpec := ⟨0x1504, 4, 4, true, false, true, [0x8000ffff, 0xfffff]⟩

/-- `SWT.FUSE`, code 0x1580 (20). -/
def spec_SWT_FUSE : CmdSpec := ⟨0x1580, 3, 3, true, false, true, [0xffff]⟩

/-- `SWT.UNMARK`, code 0x1581 (20). -/
def spec_SWT_UNMARK : CmdSpec := ⟨0x1581, 3, 3, true, false, true, [0xffff]⟩

/-- `SWT.COUNTERS`, code 0x1582 (20). -/
def spec_SWT_COUNTERS : CmdSpec := ⟨0x1582, 3, 3, true, true, true, [0x1]⟩

/-- `THM.STATUS`, code 0x0501 (21). -/
def spec_THM_STATUS : CmdSpec := ⟨0x0501, 2, 2, false, true, true, []⟩

/-- `THM.SENSORS`, code 0x0502 (21). -/
def spec_THM_SENSORS : CmdSpec := ⟨0x0502, 3, 3, false, true, true, [0x7f7f]⟩

/-- `THM.THROTTLE`, code 0x0580 (21). -/
def spec_THM_THROTTLE : CmdSpec := ⟨0x0580, 3, 3, true, false, true, [0xff]⟩

/-- `THM.COUNTERS`, code 0x0581 (21). -/
def spec_THM_COUNTERS : CmdSpec := ⟨0x0581, 3, 3, true, true, true, [0x1]⟩

/-- `GAZ.READ`, code 0x1601 (22). -/
def spec_GAZ_READ : CmdSpec := ⟨0x1601, 3, 3, false, true, true, [0xdfff001f]⟩

/-- `GAZ.EXPORT`, code 0x1602 (22). -/
def spec_GAZ_EXPORT : CmdSpec := ⟨0x1602, 4, 4, false, false, true, [0xffffffff, 0xffffffff]⟩

/-- `GAZ.FLUSH`, code 0x1680 (22). -/
def spec_GAZ_FLUSH : CmdSpec := ⟨0x1680, 2, 2, true, false, true, []⟩

/-- `DAT.STATUS`, code 0x1701 (23). -/
def spec_DAT_STATUS : CmdSpec := ⟨0x1701, 2, 2, false, true, true, []⟩

/-- `DAT.ENERGY`, code 0x1702 (23). -/
def spec_DAT_ENERGY : CmdSpec := ⟨0x1702, 2, 2, false, true, true, []⟩

/-- `DAT.LOG`, code 0x1703 (23). -/
def spec_DAT_LOG : CmdSpec := ⟨0x1703, 3, 3, false, true, true, [0xffffffff]⟩

/-- `DAT.SPLIT`, code 0x1704 (23). -/
def spec_DAT_SPLIT : CmdSpec := ⟨0x1704, 3, 3, true, true, true, [0x3f000f]⟩

/-- `PIN.STATUS`, code 0x0701 (24). -/
def spec_PIN_STATUS : CmdSpec := ⟨0x0701, 3, 3, false, true, false, [0xff]⟩

/-- `PIN.READ`, code 0x0704 (24). -/
def spec_PIN_READ : CmdSpec := ⟨0x0704, 3, 3, false, true, false, [0x7]⟩

/-- `PIN.ASSIGN`, code 0x0702 (24). -/
def spec_PIN_ASSIGN : CmdSpec := ⟨0x0702, 4, 4, true, false, false, [0xff, 0xffb000ff]⟩

/-- `PIN.WRITE`, code 0x0703 (24). -/
def spec_PIN_WRITE : CmdSpec := ⟨0x0703, 4, 4, true, false, true, [0x307, 0xffffffff]⟩

/-- `PIN.PAD`, code 0x0780 (24). -/
def spec_PIN_PAD : CmdSpec := ⟨0x0780, 4, 4, true, false, true, [0xff, 0xf0000]⟩

/-- `PIN.COUNTERS`, code 0x0781 (24). -/
def spec_PIN_COUNTERS : CmdSpec := ⟨0x0781, 3, 3, true, true, true, [0x1]⟩

/-- Every defined command code (check 2 of Table 2-4). -/
def definedCodes : List Nat := [
  0x101, 0x102, 0x103, 0x104, 0x105, 0x106, 0x107, 0x108, 0x180, 0x181, 0x201, 0x202,
  0x203, 0x204, 0x205, 0x206, 0xa01, 0xa02, 0xa03, 0xa04, 0xa80, 0xa81, 0xa82, 0xa83,
  0x901, 0x902, 0x903, 0x980, 0x981, 0x982, 0x1801, 0x1802, 0x1880, 0x1803, 0x1804, 0x904,
  0x983, 0x801, 0x802, 0x803, 0x804, 0x805, 0x806, 0x880, 0x881, 0xc01, 0xc02, 0xc03,
  0xc04, 0xc80, 0xc81, 0xb01, 0xb02, 0xb03, 0xb04, 0xb05, 0xb80, 0xb81, 0xb82, 0xb83,
  0xb84, 0xb85, 0xd01, 0xd02, 0xd03, 0xd04, 0xd05, 0xd06, 0xd80, 0xd81, 0xd82, 0xd83,
  0xe01, 0xe02, 0xe80, 0xf01, 0xf02, 0xf03, 0xf80, 0x601, 0x602, 0x603, 0x604, 0x605,
  0x680, 0x681, 0x682, 0x301, 0x302, 0x380, 0x401, 0x402, 0x403, 0x404, 0x480, 0x1901,
  0x1980, 0x1981, 0x1982, 0x1983, 0x1984, 0x1101, 0x1180, 0x1201, 0x1280, 0x1281, 0x1301, 0x1302,
  0x1380, 0x1381, 0x1001, 0x1002, 0x1003, 0x1080, 0x1081, 0x1401, 0x1402, 0x1480, 0x1481, 0x1482,
  0x1501, 0x1502, 0x1503, 0x1504, 0x1580, 0x1581, 0x1582, 0x501, 0x502, 0x580, 0x581, 0x1601,
  0x1602, 0x1680, 0x1701, 0x1702, 0x1703, 0x1704, 0x701, 0x704, 0x702, 0x703, 0x780, 0x781]

/-! ### The defined codes -/

/-- The codes of every command (check 2 of Table 2-4). -/
def commandCodes : List Nat :=
  [spec_SYS_STATUS.code, spec_SYS_ECHO.code, spec_SYS_STATE.code, spec_SYS_RESET.code, spec_SYS_CAUSE_CLEAR.code,
   spec_SYS_EXPERT_OPEN.code, spec_SYS_EXPERT_CLOSE.code, spec_SYS_FW_UPDATE.code, spec_SYS_REG_READ.code, spec_SYS_REG_WRITE.code,
   spec_SURVEY_LOAD.code, spec_SURVEY_COMMIT.code, spec_SURVEY_ABORT.code, spec_SURVEY_STATUS.code, spec_SURVEY_READ.code,
   spec_SURVEY_MISMATCH.code, spec_WAL_STATUS.code, spec_WAL_SWITCH.code, spec_WAL_BIND.code, spec_WAL_STICKY_CLEAR.code] ++
  [spec_WAL_BANKMAP.code, spec_WAL_FREEZE.code, spec_WAL_SHIFT.code, spec_WAL_COUNTERS.code, spec_SHT_STATUS.code,
   spec_SHT_STICKY_CLEAR.code, spec_SHT_RESET.code, spec_SHT_CLOCK.code, spec_SHT_FREEZE.code, spec_SHT_COUNTERS.code,
   spec_CAP_STATUS.code, spec_CAP_TAKE.code, spec_CAP_TAKE_X.code, spec_CAP_READ.code, spec_CAP_RELEASE.code, spec_SHT_SWITCH.code,
   spec_SHT_RISERS.code, spec_LDR_STATUS.code, spec_LDR_LOAD.code, spec_LDR_COMMIT.code] ++
  [spec_LDR_ABORT.code, spec_LDR_CASTON.code, spec_LDR_GRANT.code, spec_LDR_LOCK.code, spec_LDR_COUNTERS.code, spec_STR_STATUS.code,
   spec_STR_OPEN.code, spec_STR_SEAM.code, spec_STR_BINDOFF.code, spec_STR_OPEN_X.code, spec_STR_COUNTERS.code, spec_AIR_STATUS.code,
   spec_AIR_PRESET.code, spec_AIR_ENABLE.code, spec_AIR_DISABLE.code, spec_AIR_SWAP.code, spec_AIR_LOAD.code, spec_AIR_SEAL.code,
   spec_AIR_READ.code, spec_AIR_IDLE.code] ++
  [spec_AIR_COUNTERS.code, spec_AIR_TAP_READ.code, spec_LNE_STATUS.code, spec_LNE_POWER.code, spec_LNE_RETRAIN.code,
   spec_LNE_BINDOFF.code, spec_LNE_UP.code, spec_LNE_TEST.code, spec_LNE_EQ.code, spec_LNE_ADAPT.code, spec_LNE_PATTERN.code,
   spec_LNE_COUNTERS.code, spec_FHE_STATUS.code, spec_FHE_FLOW.code, spec_FHE_COUNTERS.code, spec_JSD_STATUS.code,
   spec_JSD_LINK.code, spec_JSD_SYSREF.code, spec_JSD_COUNTERS.code, spec_MER_STATUS.code] ++
  [spec_MER_SELECT.code, spec_MER_OUTPUTS.code, spec_MER_MODEL.code, spec_MER_LEAP.code, spec_MER_BUDGET.code,
   spec_MER_MODEL_CLEAR.code, spec_MER_COUNTERS.code, spec_CLK_STATUS.code, spec_CLK_GATE.code, spec_CLK_FREQ.code,
   spec_PWR_STATUS.code, spec_PWR_OP.code, spec_PWR_ISLAND.code, spec_PWR_WAKE.code, spec_PWR_AVS_READ.code, spec_GRT_STATUS.code,
   spec_GRT_LINK_TEST.code, spec_GRT_LINK_RESTORE.code, spec_GRT_ROUTE_READ.code, spec_GRT_ROUTE_WRITE.code] ++
  [spec_GRT_COUNTERS.code, spec_MEM_STATUS.code, spec_MEM_COUNTERS.code, spec_MGD_STATUS.code, spec_MGD_PARTITION.code,
   spec_MGD_COUNTERS.code, spec_DMA_STATUS.code, spec_DMA_QUEUE.code, spec_DMA_COUNTERS.code, spec_DMA_LINK.code,
   spec_YRN_STATUS.code, spec_YRN_CHANNEL.code, spec_YRN_FORWARD.code, spec_YRN_ASYM.code, spec_YRN_COUNTERS.code,
   spec_FLT_STATUS.code, spec_FLT_EVENTS.code, spec_FLT_WINDOW.code, spec_FLT_SLOTS.code, spec_FLT_COUNTERS.code] ++
  [spec_SWT_STATUS.code, spec_SWT_RUN.code, spec_SWT_RESULTS.code, spec_SWT_ROTATE.code, spec_SWT_FUSE.code, spec_SWT_UNMARK.code,
   spec_SWT_COUNTERS.code, spec_THM_STATUS.code, spec_THM_SENSORS.code, spec_THM_THROTTLE.code, spec_THM_COUNTERS.code,
   spec_GAZ_READ.code, spec_GAZ_EXPORT.code, spec_GAZ_FLUSH.code, spec_DAT_STATUS.code, spec_DAT_ENERGY.code, spec_DAT_LOG.code,
   spec_DAT_SPLIT.code, spec_PIN_STATUS.code, spec_PIN_READ.code] ++
  [spec_PIN_ASSIGN.code, spec_PIN_WRITE.code, spec_PIN_PAD.code, spec_PIN_COUNTERS.code]

end Sys2Proof.Machine
end

