-- ==== Sys2Proof/Machine/ClockOps.lean ====
section
/-! DEFINITION. The shared operations over clock islands: merging, gates, floors, operating points, rail targets, the
sequencer's steps, and requests that meet a closing island (spec/14). -/

namespace Sys2Proof.Machine

/-! ### Merged sheet islands (R41, R195) -/

/-- The clock root of sheet `n`: 0 LOCAL, 8 to 15 GCK0 to GCK7. -/
def State.clkRoot (s : State) (n : Nat) : Nat := s.get (R.SHT_CLK n) F.SHT_CLK_ROOT

/-- The island sheet `n` belongs to: its own, or that of the lowest-numbered sheet on its global tree. -/
def State.lead (s : State) (n : Nat) : Nat :=
  if s.clkRoot n < 8 then n else ((List.range 32).find? (fun m => decide (s.clkRoot m = s.clkRoot n))).getD n

/-- The island that acts for island `i`. -/
def State.leadIsland (s : State) (i : Nat) : Nat := if i < 32 then s.lead i else i

/-- The sheets of the island led by sheet `n`. -/
def State.members (s : State) (n : Nat) : List Nat := (List.range 32).filter (fun m => decide (s.lead m = n))

/-! ### The gating tree (R467 to R469) -/

/-- The gate group of an island (Table 14-2); none outside the tree. -/
def groupOf (i : Nat) : Option Nat :=
  if i < 32 then some (i / 8)
  else if i < 72 then some (4 + (i - 32) / 5)
  else if i < 80 then some 12
  else if i < 96 then some 13
  else if i < 120 then some 14
  else if i < 124 then some 15
  else if i < 126 then some 16
  else if i < 129 then some 17
  else if i < 131 then some 18
  else if i < 133 then none
  else if i < 140 then some 19
  else if i < 142 then some 20
  else if i < 143 then some 21
  else none

/-- The tier root (bit of CKI_GATE_TIER) above a group. -/
def tierOfGroup (g : Nat) : Nat := if g < 4 then 2 else if g < 12 then 3 else if g = 12 then 1 else 0

/-- The islands of a group. -/
def islandsOf (g : Nat) : List Nat := (List.range 144).filter (fun i => decide (groupOf i = some g))

def State.tierGate (s : State) (t : Nat) : Bool := s.bit R.CKI_GATE_TIER t
def State.groupGate (s : State) (g : Nat) : Bool := s.bit R.CKI_GATE_GRP g
/-- The gate of island `i`; that of a sheet marked unusable is held off (Table 20-3). -/
def State.islandGate (s : State) (i : Nat) : Bool := s.bit (R.CKI_GATE_ISL (i / 32)) (i % 32) && !s.swt.marked.contains (2, i)

/-- The floor of the device state (PWR_STATUS.FLOOR): 0 none, 1 QUIET, 2 DORMANT, 3 HALTED or TRIPPED. -/
def State.floor (s : State) : Nat :=
  match s.sys.dev with
  | .quiet => 1
  | .dormant => 2
  | .halted => 3
  | .tripped => 3
  | _ => 0

/-- A floor stops island `i` (R469): every sheet and wale; in HALTED and TRIPPED also the graticule islands, each of which
holds a router that serves a sheet or a wale (Table 15-1). -/
def State.floorStops (s : State) (i : Nat) : Bool :=
  (decide (s.floor ≠ 0) && decide (i < 72)) || (decide (s.floor = 3) && decide (80 ≤ i) && decide (i < 96))

/-- Power-switch stage of a sheet or wale island. -/
def State.stage (s : State) (i : Nat) : PowStage := sget (fun _ => PowStage.on) s.pwr.stage (s.leadIsland i)

/-- Set the stage of an island. -/
def State.setStage (s : State) (i : Nat) (p : PowStage) : State :=
  { s with pwr := { s.pwr with stage := sset (fun _ => PowStage.on) s.pwr.stage (s.leadIsland i) p } }

/-- The island is stopped for a frequency change being served (R474). -/
def State.freqStopped (s : State) (i : Nat) : Bool :=
  match s.pwr.serving with
  | some v => decide (v.phase = .freq) && decide (v.todo.head?.map Prod.fst = some (s.leadIsland i))
  | none => false

/-- The clock of island `i` runs (R467): gates, floor, power, no stop in progress, no self-gating; every clock but those of
R459's start-up islands waits for XTAL to be judged stable. -/
def State.islandRuns (s : State) (i : Nat) : Bool :=
  let l := s.leadIsland i
  match groupOf i with
  | none => decide (i < 144)
  | some g =>
    s.tierGate (tierOfGroup g) && s.groupGate g && s.islandGate l && !s.floorStops i && decide (s.stage i = .on) &&
    !s.freqStopped i && !(sget (fun _ => false) s.pwr.clkStop i) && !(sget (fun _ => false) s.pwr.selfGated i) &&
    (s.sys.xtalStable || decide (124 ≤ i && i < 126) || decide (140 ≤ i))

/-- A word of CKI_ON_ISL. -/
def State.onIsl (s : State) (k : Nat) : Word :=
  word ((List.range 32).foldl (fun a j => a + b2n (decide (32 * k + j < 144) && s.islandRuns (32 * k + j)) * 2 ^ j) 0)

/-- Gates commands may not reach (R467): level 0 island, 1 group, 2 tier. -/
def State.gateClosed (s : State) (level index : Nat) : Bool :=
  match level with
  | 2 => !(index == 2 || index == 3)
  | 1 => !(decide (index < 12) || index == 14 || index == 15 || index == 19)
  | _ =>
    if index < 72 then false
    else if 96 ≤ index ∧ index < 120 then
      (s.recsOf 0x0002).any (fun r => s.svy.committed && decide (r.f 1 31 24 / 4 = index - 96))
    else if 120 ≤ index ∧ index < 124 then
      match s.recsOf 0x0001 with
      | r :: _ => !s.svy.committed || r.f 2 (index - 108) (index - 108) == 1
      | [] => true
    else if 133 ≤ index ∧ index < 140 then
      (List.range 32).any (fun p => s.flag (R.PIO_CFG (32 * (index - 133) + p)) F.PIO_CFG_EN) ||
      (decide (index = 133) && decide (s.get R.PWR_WAKE F.PWR_WAKE_EN ≠ 0))
    else true

/-- A gate write breaks the order of R468: off above an open gate, on below a closed one, or a merged member. The gate of the lowest
member stands for the gates of all. -/
def State.gateOrder (s : State) (level index : Nat) (on : Bool) : Bool :=
  match level with
  | 2 => !on && (List.range 22).any (fun g => decide (tierOfGroup g = index) && s.groupGate g)
  | 1 => if on then !s.tierGate (tierOfGroup index) else (islandsOf index).any (fun i => s.islandGate (s.leadIsland i))
  | _ => decide (s.leadIsland index ≠ index) ||
      (on && (match groupOf index with | some g => !(s.groupGate g && s.tierGate (tierOfGroup g)) | none => true))

/-- A refused gate write: ignored, REFUSED set, counted (R468). -/
def State.gateRefuse (s : State) : State := (s.raise R.CKI_STATUS F.CKI_STATUS_REFUSED.lo).bump (R.CKI_COUNT 1)

/-- Turn a gate on or off. -/
def State.setGate (s : State) (level index : Nat) (on : Bool) : State :=
  match level with
  | 2 => s.setBit R.CKI_GATE_TIER index on
  | 1 => s.setBit R.CKI_GATE_GRP index on
  | _ => s.setBit (R.CKI_GATE_ISL (index / 32)) (index % 32) on

/-! ### Operating points (R470 to R472) -/

/-- The thermal cap of the tier of a sheet or wale island. -/
def State.capOf (s : State) (i : Nat) : Nat :=
  if i < 32 then s.get R.PWR_STATUS F.PWR_STATUS_CAP_FAB else s.get R.PWR_STATUS F.PWR_STATUS_CAP_STITCH

/-- The commanded point of island `i`: that of its lead (R470). -/
def State.cmdPoint (s : State) (i : Nat) : Nat :=
  let l := s.leadIsland i
  s.get (R.PWR_OP (l / 16)) (F.PWR_OP_OP (l % 16))

/-- The generator of island `i` coasts. -/
def State.coasts (s : State) (i : Nat) : Bool := sget (fun _ => false) s.pwr.coast (s.leadIsland i)

/-- The effective point: the lower of the commanded point and the cap, OP0 while coasting (R463, R470). -/
def State.effPoint (s : State) (i : Nat) : Nat := if s.coasts i then 0 else min (s.cmdPoint i) (s.capOf i)

/-- A word of PWR_OPEFF. -/
def State.opEff (s : State) (k : Nat) : Word :=
  word ((List.range 16).foldl (fun a j => a + (if 16 * k + j < 72 then s.effPoint (16 * k + j) else 0) * 2 ^ (2 * j)) 0)

/-- Frequencies of Table 14-3 in kHz; grade 1 runs OP3 at those of Table 0-2 (R471). -/
def State.pointKhz (s : State) (i op : Nat) : Nat :=
  let grade1 := decide (s.get R.DEV_ID F.DEV_ID_GRADE = 1)
  if i < 32 then
    match op with
    | 0 => 200000
    | 1 => 400000
    | 2 => 600000
    | _ => if grade1 then 700000 else 800000
  else match op with
    | 0 => 300000
    | 1 => 600000
    | 2 => 900000
    | _ => if grade1 then 1050000 else 1250000

/-- Rail voltages of Table 14-3 in mV: rail 0 VDD_FAB, 1 VDD_STITCH. -/
def pointMv (rail op : Nat) : Nat :=
  match op with
  | 0 => 650
  | 1 => if rail = 0 then 700 else 710
  | 2 => if rail = 0 then 760 else 780
  | _ => if rail = 0 then 830 else 860

/-- The islands on a rail. -/
def railIslands (rail : Nat) : List Nat := if rail = 0 then List.range 32 else (List.range 40).map (· + 32)

/-- R472: the largest voltage any island of the rail needs, plus the band offset. An island counts at OP0 while it is off
or its clock does not run. `all` counts every island as running (DORMANT exit, X1). -/
def State.railTarget (s : State) (rail : Nat) (all : Bool := false) : Nat :=
  (railIslands rail).foldl
    (fun m i => max m (pointMv rail (if all || s.islandRuns i || s.freqStopped i then s.effPoint i else 0))) 0 +
  s.get (R.PWR_RAIL rail) F.PWR_RAIL_OFFSET

/-- Band offset of an isotherm band in mV (R472). -/
def bandOffset (b : Nat) : Nat :=
  match b with
  | 0 => 20
  | 3 => 10
  | 4 => 20
  | 5 => 20
  | _ => 0

/-- The fixed frequency in kHz of an island that has one (Table 14-1); the LPDDR5X islands run at an eighth of their data rate, the lane
quads at their lane PLLs and the datum and thermal islands on their own clocks. -/
def State.fixedKhz (s : State) (i : Nat) : Option Nat :=
  if i < 72 then none
  else if i < 80 then some 800000
  else if i < 96 then some 1500000
  else if i < 120 then none
  else if i < 124 then [none, some 800000, some 937500, some 1066625].getD (s.get R.XMC_STATUS F.XMC_STATUS_RATE) none
  else if i < 126 then some 1000000
  else if i < 129 then some 500000
  else if i = 129 then some (if s.sys.dev = .dormant then 100000 else 1000000)
  else if i = 130 then some 1000000
  else if i = 131 then none
  else if i = 132 then some 1000000
  else if i < 140 then some 250000
  else if i < 143 then some 100000
  else none

/-- The present frequency of island `i` in kHz. -/
def State.khzOf (s : State) (i : Nat) : Nat :=
  sget (fun i => if i < 32 then 200000 else 300000) s.pwr.khz (s.leadIsland i)

/-- The frequency island `i` shall run at: CLK.FREQ's setting, or that of its effective point. -/
def State.wantKhz (s : State) (i : Nat) : Nat :=
  match sget (fun _ => none) s.pwr.override i with
  | some k => min k (s.pointKhz i (s.effPoint i))
  | none => s.pointKhz i (s.effPoint i)

/-- Set the present frequency of an island. -/
def State.setKhz (s : State) (i k : Nat) : State :=
  { s with pwr := { s.pwr with khz := sset (fun i => if i < 32 then 200000 else 300000) s.pwr.khz i k } }

/-- The highest frequency of Table 14-3 that the present voltage of island `i`'s rail supports. -/
def State.railKhz (s : State) (i : Nat) : Nat :=
  let rail := if i < 32 then 0 else 1
  let spare := s.get (R.PWR_RAIL rail) F.PWR_RAIL_PRESENT - s.get (R.PWR_RAIL rail) F.PWR_RAIL_OFFSET
  ([0, 1, 2, 3].filter (fun op => decide (op = 0 ∨ pointMv rail op ≤ spare))).foldl (fun k op => max k (s.pointKhz i op)) 0

/-- Forget CLK.FREQ settings of the islands that satisfy `p`. -/
def State.dropOverride (s : State) (p : Nat → Bool) : State :=
  { s with pwr := { s.pwr with override := s.pwr.override.filter (fun e => !p e.1) } }

/-! ### The sequencer (R473) -/

/-- Add a request: caps ahead of all but earlier caps; a cap, band or relock request already waiting is not doubled. -/
def State.seqAdd (s : State) (q : SeqReq) : State :=
  if q.src = .cap then
    if s.pwr.queue.any (fun r => decide (r.src = .cap)) then s else { s with pwr := { s.pwr with queue := q :: s.pwr.queue } }
  else if (q.src = .band ∨ q.src = .relock) ∧ s.pwr.queue.any (fun r => decide (r.src = q.src)) then s
  else { s with pwr := { s.pwr with queue := s.pwr.queue ++ [q] } }

/-- A frequency is never above what the present voltage of its rail supports (R473): a clock that starts again while its rail stands lower
starts at what the rail supports, and the sequencer brings it to its point (DESIGN CHOICE, log entry 72). -/
def State.fitRail (s : State) (i : Nat) : State :=
  if s.leadIsland i = i ∧ s.islandRuns i = true ∧ s.railKhz i < s.khzOf i then
    (s.setKhz i (s.railKhz i)).seqAdd ⟨.relock, none, [], none⟩
  else s

/-- Every sheet and wale island within its rail. -/
def State.fitRails (s : State) : State := (List.range 72).foldl State.fitRail s

/-- Replace the request being served. -/
def State.setServing (s : State) (v : Option SeqServe) : State := { s with pwr := { s.pwr with serving := v } }

/-- Last acknowledged setting of a rail. -/
def State.railPresent (s : State) (rail : Nat) : Nat := s.get (R.PWR_RAIL rail) F.PWR_RAIL_PRESENT

/-- The rail with the next step to make in a phase: the first whose setting is not yet right. -/
def State.nextRail (s : State) (v : SeqServe) (up : Bool) : Option Nat :=
  if up then
    if s.railPresent 0 < v.new.1 then some 0 else if s.railPresent 1 < v.new.2 then some 1 else none
  else
    if v.new.1 < s.railPresent 0 then some 0 else if v.new.2 < s.railPresent 1 then some 1 else none

/-- The islands whose frequency must change, ascending, with their new frequencies; a merged member goes with its lead. -/
def State.freqTodo (s : State) : List (Nat × Nat) :=
  ((List.range 72).filter (fun i => decide (s.leadIsland i = i) && decide (s.khzOf i ≠ s.wantKhz i))).map (fun i => (i, s.wantKhz i))

/-- End the request being served. -/
def State.seqEnd (s : State) (v : SeqServe) (rc : RetCode) : State :=
  (s.setServing none).completeOpt v.req.openId rc

/-- Go on with the lowering steps, or end. -/
def State.seqLower (s : State) (v : SeqServe) : State :=
  match s.nextRail v false with
  | some r => s.setServing (some { v with phase := .lower, todo := [], step := some (r, s.stamp) })
  | none => s.seqEnd v .DONE

/-- Go on with the frequency changes, or lower. -/
def State.seqFreq (s : State) (v : SeqServe) : State :=
  match v.todo with
  | [] => s.seqLower v
  | _ => s.setServing (some { v with phase := .freq, step := none })

/-- Go on with the raising steps, or change frequencies. -/
def State.seqRaise (s : State) (v : SeqServe) : State :=
  match s.nextRail v true with
  | some r => s.setServing (some { v with phase := .raise, step := some (r, s.stamp) })
  | none => s.seqFreq v

/-- Start serving the first request of the queue. -/
def State.seqStart (s : State) : State :=
  match s.pwr.serving, s.pwr.queue with
  | none, q :: rest =>
    let s := ({ s with pwr := { s.pwr with queue := rest } }).dropOverride q.drops.contains
    let s := match q.freq with
      | some (i, k) => { s with pwr := { s.pwr with override := sset (fun _ => none) s.pwr.override i (some k) } }
      | none => s
    let old := (s.get (R.PWR_RAIL 0) F.PWR_RAIL_TARGET, s.get (R.PWR_RAIL 1) F.PWR_RAIL_TARGET)
    let new := (s.railTarget 0, s.railTarget 1)
    let s := (s.put (R.PWR_RAIL 0) F.PWR_RAIL_TARGET new.1).put (R.PWR_RAIL 1) F.PWR_RAIL_TARGET new.2
    s.seqRaise { req := q, phase := .raise, old := old, new := new, todo := s.freqTodo, step := none }
  | _, _ => s

/-- One 10 mV step of a rail toward its target. -/
def State.railStep (s : State) (rail target : Nat) : State :=
  let p := s.railPresent rail
  s.put (R.PWR_RAIL rail) F.PWR_RAIL_PRESENT (if p < target then min (p + 10) target else max (p - 10) target)

/-! ### Requests that meet a sleeping island (R476) -/

/-- A graticule request for a sheet or wale island arrives: it aborts a power-down before the point of no return, waits
after it, and powers an OFF island up. -/
def State.islandRequest (s : State) (i : Nat) : State :=
  let l := s.leadIsland i
  match s.stage i with
  | .closing =>
    let o := sget (fun _ => none) s.pwr.stageOpen l
    let s := (s.setStage l .on).bump (R.PWR_COUNT 3)
    let s := { s with pwr := { s.pwr with stageOpen := sset (fun _ => none) s.pwr.stageOpen l none } }
    s.completeOpt o .BUSY
  | .opened => { s with pwr := { s.pwr with held := sset (fun _ => false) s.pwr.held l true } }
  | .off => (s.setStage l .powering).bump (R.PWR_COUNT 3)
  | _ => s

end Sys2Proof.Machine
end

