-- ==== Sys2Proof/Config.lean ====
section
/-! DEFINITION. What an implementation fixes and the spec leaves open: opaque constants without a body. Nothing in Lean
can evaluate them, so a statement that holds of the model holds for every value of them. Each is named in a log entry. -/

namespace Sys2Proof.Config

/-- The TRNG (R79, R544): the n-th word drawn. -/
opaque trng : Nat → BitVec 64

/-- A value the spec leaves open after an operation that goes on: the n-th value consumed. -/
opaque freeWord : Nat → BitVec 64

/-- SHA-384 of a byte string (R104, R249, R658; FIPS 180-4 is not restated by the spec). -/
opaque sha384 : List (BitVec 8) → List (BitVec 8)

/-- ECDSA P-384 verification of (public key, digest, signature) (R104, R249). -/
opaque ecdsaVerify : List (BitVec 8) → List (BitVec 8) → List (BitVec 8) → Bool

/-- ECDSA P-384 signature by the fused attestation key over a digest (R658). -/
opaque attestSign : List (BitVec 8) → List (BitVec 8)

/-- Whether the ECDSA P-384 signature of a firmware image verifies against the fused public-key digest (R92, R104): where the image
holds its signature and key is not stated. -/
opaque fwVerifies : List (BitVec 8) → Bool

/-- The device attestation public key (R658). -/
opaque attestKey : List (BitVec 8)

/-- The fused 64-bit serial number (R658). -/
opaque serial : BitVec 64

/-- AES-256 encryption of one block under a key (R533, R247; FIPS 197 is not restated by the spec). -/
opaque aes256 : BitVec 256 → BitVec 128 → BitVec 128

/-- GHASH of a byte string under a hash key (R534; NIST SP 800-38D is not restated by the spec). -/
opaque ghash : BitVec 128 → List (BitVec 8) → BitVec 128

/-- The reciprocal square root seed of a positive finite operand: the spec bounds it but gives no value (R137). -/
opaque frsqSeed : BitVec 32 → BitVec 32

/-- The check bits a block RAM row of shape 4 stores beside 64 data bits (R188: the code is not in the spec). -/
opaque bramCheck : BitVec 64 → BitVec 8

/-- LNE_TXFFE from which the link training of a long-reach lane of a LOSS class starts (R365, R383: not in the spec). -/
opaque startFfe : Nat → BitVec 32

/-- DEV_TX and DEV_RX of a JESD204C configuration (R411: chosen by the device). -/
opaque jsdDevTx : BitVec 32 → BitVec 10
opaque jsdDevRx : BitVec 32 → BitVec 10

/-- RBD of a JESD204C configuration, in air samples (R410, R411: chosen by the device). -/
opaque jsdRbd : BitVec 32 → BitVec 10

/-- The fused base of the MACs' source addresses (R396). -/
opaque macBase : BitVec 48

/-- The shift register contents a pattern generator starts from, its first bit made 1 (R376: not in the spec), and bit `k` of the
SSPRQ pattern of IEEE 802.3 Clause 120, which is outside the spec. -/
opaque prbsSeed : Nat → BitVec 31
opaque ssprq : Nat → Bool

/-- The fused configuration key (R248). -/
opaque configKey : BitVec 256

/-- The public-key digest fused in a key slot (R248). -/
opaque keySlotDigest : Nat → List (BitVec 8)

/-- The sheet wire map (R183, published beside the spec): how many inputs multiplexer `m` of cell `i` has, and the signal that its select
value names. -/
opaque muxInputs : Nat → Nat → Nat
opaque wireMap : Nat → Nat → Nat → Net

/-- The sheet wire map: the cell and multiplexer that drive signal `w` on its way out of the sheet (numbered as State.selvMode does; 1700 +
2 × k + b is bit `b` of RP_RX_SEL of port `k`), and the riser port whose signal multiplexer `m` of cell `i` drives. -/
opaque outWire : Nat → Nat × Nat
opaque muxRiser : Nat → Nat → Option Nat

/-- A quotient rounded as the contour model rounds (R440: not stated). -/
opaque roundDiv : Int → Int → Int

/-- The tag of a counter-tree node: tag key, contents, level, index, counter in the parent (R532: its layout is not stated). -/
opaque nodeTag : BitVec 256 → List (BitVec 8) → Nat → Nat → Nat → BitVec 64

/-- The ECC bytes of a line's or node's metadata over its bytes and tag (R531: the code is not stated). -/
opaque lineEcc : List (BitVec 8) → BitVec 64 → BitVec 64

/-- A tenant's share of a channel's energy: energy, the tenant's sum of f × V², the sum of all, its WEIGHT, the sum of weights
(R677: informative, its rounding and the remainder are not stated). -/
opaque energyShare : Nat → Nat → Nat → Nat → Nat → Nat

/-- The first 32 bits of the mask ROM digest of the datum island, as fused at manufacture (R665). -/
opaque datDigest : BitVec 32

end Sys2Proof.Config
end

