-- ==== Sys2Proof/Machine/Flags.lean ====
section
/-! DEFINITION. The arithmetic of the function units and the sticky flags it sets: rounding and saturation (R120 to R122),
accumulator clamping (R121), complex products (R131, R132), comparison and sign counts (R134), and binary32 (R136, R137). -/

namespace Sys2Proof.Machine

/-- A shift right by `s` bits rounded as Table 4-3 gives: 0 TRN, 1 RHU, 2 RNE. -/
def shiftRound (rnd : Nat) (x : Int) (s : Nat) : Int :=
  let p : Int := 2 ^ s
  match rnd with
  | 1 => if s = 0 then x else (x + p / 2) / p
  | 2 =>
    let q := x / p
    let r := x % p
    if 2 * r < p then q else if p < 2 * r then q + 1 else if q % 2 = 0 then q else q + 1
  | _ => x / p

/-- A value narrowed to `w` bits, with whether saturation changed it (R122). -/
def narrow (w : Nat) (x : Int) : Int × Bool := (satInt w x, decide (satInt w x ≠ x))

/-- Shift, round and saturate to 16 bits. -/
def narrow16 (rnd shf : Nat) (x : Int) : Int × Bool := narrow 16 (shiftRound rnd x shf)

/-- A pair of 16-bit lanes as a word: the first in [15:0]. -/
def pack16 (a b : Int) : Word := word (unsgn 16 b * 2 ^ 16 + unsgn 16 a)

/-- Lane `i` of width `w` of a word, signed. -/
def lane (w : Nat) (v : Word) (i : Nat) : Int := sgn w (v.toNat / 2 ^ (w * i))

/-- Lane width of a data type (Table 4-2). -/
def laneWidth (ty : Nat) : Nat := match ty with | 2 => 8 | 3 => 32 | _ => 16

/-- A word from lanes of width `w`, lowest first. -/
def packLanes (w : Nat) (ls : List Int) : Word :=
  word (ls.foldr (fun x acc => acc * 2 ^ w + unsgn w x) 0)

/-- An operation applied lane by lane, with whether any lane saturated. -/
def perLane (ty : Nat) (f : Int → Int → Int) (a b : Word) : Word × Bool :=
  let w := laneWidth ty
  let rs := (List.range (32 / w)).map (fun i => narrow w (f (lane w a i) (lane w b i)))
  (packLanes w (rs.map (·.1)), rs.any (·.2))

/-- A complex number. -/
abbrev Cpx := Int × Int

def cOf (v : Word) : Cpx := (lane 16 v 0, lane 16 v 1)
def cAdd (a b : Cpx) : Cpx := (a.1 + b.1, a.2 + b.2)
def cSub (a b : Cpx) : Cpx := (a.1 - b.1, a.2 - b.2)
def cMul (a b : Cpx) : Cpx := (a.1 * b.1 - a.2 * b.2, a.1 * b.2 + a.2 * b.1)
def cConj (a : Cpx) : Cpx := (a.1, -a.2)
def cScale (k : Int) (a : Cpx) : Cpx := (k * a.1, k * a.2)
/-- j × a -/
def cJ (a : Cpx) : Cpx := (-a.2, a.1)

/-- Narrow both components (R122, R132). -/
def cNarrow (rnd shf : Nat) (a : Cpx) : Word × Bool :=
  let i := narrow16 rnd shf a.1
  let q := narrow16 rnd shf a.2
  (pack16 i.1 q.1, i.2 || q.2)

/-- A sum clamped to 40 bits, with whether the clamp changed it (R121). -/
def clamp40 (x : Int) : Int × Bool := narrow 40 x

/-- The number of redundant sign bits of a `w`-bit value (R134). -/
def redundantSigns (w : Nat) (x : Int) : Nat :=
  ((List.range w).filter (fun n => decide (0 < n) && decide (-(2 ^ (w - 1 - n)) ≤ x) && decide (x < 2 ^ (w - 1 - n)))).length

/-- A condition code (R134): EQ, NE, LT, LE, GT, GE of two integers. -/
def condHolds (cond : Nat) (a b : Int) : Bool :=
  match cond with
  | 0 => a == b
  | 1 => a != b
  | 2 => decide (a < b)
  | 3 => decide (a ≤ b)
  | 4 => decide (b < a)
  | 5 => decide (b ≤ a)
  | _ => false

/-! ### binary32 (R136, R137) -/

/-- A binary32 datum with subnormals replaced by zero: NaN, infinity, or sign and magnitude `m × 2^e`. -/
inductive F32 where
  | nan
  | inf (neg : Bool)
  | num (neg : Bool) (m : Nat) (e : Int)
  deriving DecidableEq, Repr

/-- The quiet NaN every NaN result is (R136). -/
def nanBits : Word := 0x7FC00000

/-- Read a word as binary32; a subnormal reads as zero of its sign. -/
def f32Of (w : Word) : F32 :=
  let s := w.bit 31
  let e := w.bits 30 23
  let m := w.bits 22 0
  if e = 255 then (if m = 0 then .inf s else .nan)
  else if e = 0 then .num s 0 0
  else .num s (m + 2 ^ 23) ((e : Int) - 150)

/-- A signalling NaN: an operand that is an invalid operation (IEEE 754). -/
def isSNaN (w : Word) : Bool := w.bits 30 23 == 255 && w.bits 22 0 != 0 && !w.bit 22

/-- Length of a number in bits. -/
def bitLen (n : Nat) : Nat := if n = 0 then 0 else n.log2 + 1

/-- The binary32 nearest to `(−1)^neg × m × 2^e`, ties to even; a subnormal result becomes zero of the same sign. -/
def f32Round (neg : Bool) (m : Nat) (e : Int) : Word :=
  let sign : Nat := b2n neg * 2 ^ 31
  if m = 0 then word sign
  else
    let ue := max ((bitLen m : Int) + e - 24) (-149)
    let sh := ue - e
    let q : Nat := if sh ≤ 0 then m * 2 ^ (-sh).toNat else (shiftRound 2 (m : Int) sh.toNat).toNat
    let (q, ue) := if q = 2 ^ 24 then (2 ^ 23, ue + 1) else (q, ue)
    if q < 2 ^ 23 then word sign
    else if 104 < ue then word (sign + 255 * 2 ^ 23)
    else word (sign + (ue + 150).toNat * 2 ^ 23 + (q - 2 ^ 23))

/-- A word for a datum already representable. -/
def F32.bits : F32 → Word
  | .nan => nanBits
  | .inf s => word (b2n s * 2 ^ 31 + 255 * 2 ^ 23)
  | .num s m e => f32Round s m e

/-- The signed value scaled to a common exponent. -/
def scaled (neg : Bool) (m : Nat) (e lo : Int) : Int := (if neg then -1 else 1) * ((m * 2 ^ (e - lo).toNat : Nat) : Int)

/-- Sum of two data, with the invalid flag. -/
def f32Add (a b : F32) : Word × Bool :=
  match a, b with
  | .nan, _ => (nanBits, false)
  | _, .nan => (nanBits, false)
  | .inf s, .inf t => if s = t then ((F32.inf s).bits, false) else (nanBits, true)
  | .inf s, _ => ((F32.inf s).bits, false)
  | _, .inf t => ((F32.inf t).bits, false)
  | .num s m e, .num t n f =>
    if m = 0 ∧ n = 0 then (word (b2n (s && t) * 2 ^ 31), false)
    else
      let lo := if m = 0 then f else if n = 0 then e else min e f
      let v := (if m = 0 then 0 else scaled s m e lo) + (if n = 0 then 0 else scaled t n f lo)
      (f32Round (decide (v < 0)) v.natAbs lo, false)

/-- The datum negated. -/
def F32.neg : F32 → F32
  | .nan => .nan
  | .inf s => .inf (!s)
  | .num s m e => .num (!s) m e

/-- Product of two data, with the invalid flag. -/
def f32Mul (a b : F32) : Word × Bool :=
  match a, b with
  | .nan, _ => (nanBits, false)
  | _, .nan => (nanBits, false)
  | .inf s, .inf t => ((F32.inf (s != t)).bits, false)
  | .inf s, .num t n _ => if n = 0 then (nanBits, true) else ((F32.inf (s != t)).bits, false)
  | .num s m _, .inf t => if m = 0 then (nanBits, true) else ((F32.inf (s != t)).bits, false)
  | .num s m e, .num t n f => (f32Round (s != t) (m * n) (e + f), false)

/-- 1.5 less a datum, exact. -/
def oneAndHalfLess (x : F32) : F32 :=
  match x with
  | .nan => .nan
  | .inf s => .inf (!s)
  | .num s m e =>
    if m = 0 then .num false 3 (-1)
    else
      let lo := min e (-1)
      let v := scaled false 3 (-1) lo - scaled s m e lo
      .num (decide (v < 0)) v.natAbs lo

/-- The step form of FRSQ for a positive finite a: b × (1.5 − 0.5 × a × b²), rounded after each multiplication (R137). -/
def frsqStep (a b : Word) : Word × Bool :=
  let b2 := f32Mul (f32Of b) (f32Of b)
  let ha := f32Mul (.num false 1 (-1)) (f32Of a)
  let p := f32Mul (f32Of ha.1) (f32Of b2.1)
  let y := f32Mul (f32Of b) (oneAndHalfLess (f32Of p.1))
  (y.1, b2.2 || ha.2 || p.2 || y.2)

/-- Integer square root of a number below 2^128. -/
def isqrt (n : Nat) : Nat :=
  (List.range 64).foldl (fun r i => let c := r + 2 ^ (63 - i); if c * c ≤ n then c else r) 0

/-- v approximates 1/√a, a = m × 2^e positive, with relative error below 2⁻¹² (R137): (1 − ε)² < v² × a < (1 + ε)². -/
def seedOk (m : Nat) (e : Int) (v : F32) : Bool :=
  match v with
  | .num false n f =>
    let x := 2 * f + e + 24
    let p := n * n * m * 2 ^ x.toNat
    let d := 2 ^ (-x).toNat
    decide (4095 * 4095 * d < p) && decide (p < 4097 * 4097 * d)
  | _ => false

/-- The seed: the implementation's value where it keeps the bound of R137, else 1/√a itself, rounded. -/
def frsqSeedOf (a : Word) (m : Nat) (e : Int) : Word :=
  let v := Config.frsqSeed a
  if seedOk m e (f32Of v) then v
  else
    let (m, e) := if e % 2 = 0 then (m, e) else (2 * m, e - 1)
    f32Round false (isqrt (2 ^ 100 / m)) (-50 - e / 2)

/-- FRSQ (R137): special values of a in both forms, else the seed or the step. -/
def frsq (seed : Bool) (a b : Word) : Word × Bool :=
  match f32Of a with
  | .nan => (nanBits, isSNaN a)
  | .inf false => (0, false)
  | .inf true => (nanBits, true)
  | .num neg m e =>
    if m = 0 then ((F32.inf neg).bits, false)
    else if neg then (nanBits, true)
    else if seed then (frsqSeedOf a m e, false)
    else
      let r := frsqStep a b
      (r.1, r.2 || isSNaN b)

/-- IEEE comparison; any NaN makes every condition false except NE (R134). -/
def f32Cond (cond : Nat) (a b : Word) : Bool :=
  match f32Of a, f32Of b with
  | .nan, _ => cond == 1
  | _, .nan => cond == 1
  | x, y => condHolds cond (order x) (order y)
where
  /-- an integer with the order of the datum: its magnitude's encoding with its sign -/
  order (x : F32) : Int :=
    match x with
    | .num s m e => if m = 0 then 0 else (if s then -1 else 1) * (((f32Round false m e).toNat : Nat) : Int)
    | .inf s => (if s then -1 else 1) * (255 * 2 ^ 23 : Int)
    | .nan => 0

/-- A signed 16-bit integer scaled by 2^−shf as binary32 (R137). -/
def f32OfInt (v : Int) (shf : Nat) : Word := f32Round (decide (v < 0)) v.natAbs (-(shf : Int))

/-- round_RNE(a × 2^shf) saturated to 16 bits, with the SAT and FPINV flags; a NaN converts to 0 (R137). -/
def f32ToInt (a : Word) (shf : Nat) : Int × Bool × Bool :=
  match f32Of a with
  | .nan => (0, false, true)
  | .inf s => (if s then -32768 else 32767, true, false)
  | .num s m e =>
    let x := e + shf
    let v : Int := if 0 ≤ x then (m * 2 ^ x.toNat : Nat) else shiftRound 2 (m : Int) (-x).toNat
    let r := narrow 16 (if s then -v else v)
    (r.1, r.2, false)

end Sys2Proof.Machine
end

