-- ==== Sys2Proof/Machine/LaneOps.lean ====
section
/-! DEFINITION. Operations over the serial lanes (spec/11): rates and survey presets, groups, low-power states and floors,
retraining, and the completion of the LNE commands that wait for them. -/

namespace Sys2Proof.Machine

/-- Lane states (Table 11-5). -/
abbrev laneUNUSED : Nat := 0
abbrev laneDOWN : Nat := 1
abbrev laneTRAINING : Nat := 2
abbrev laneUP : Nat := 3
abbrev laneLP1 : Nat := 4
abbrev laneLP2 : Nat := 5
abbrev laneTEST : Nat := 6
abbrev laneFORCED : Nat := 7

/-- The hidden part of lane `n`. -/
def State.lane (s : State) (n : Nat) : Lane := sget (fun _ => Lane.init) s.links.lanes.lane n

/-- Replace it. -/
def State.setLane (s : State) (n : Nat) (l : Lane) : State :=
  { s with links := { s.links with lanes := { s.links.lanes with
      lane := sset (fun _ => Lane.init) s.links.lanes.lane n l } } }

/-- The state of lane `n`. -/
def State.laneState (s : State) (n : Nat) : Nat := s.get (R.LNE_STATUS n) F.LNE_STATUS_STATE

/-- Enter a lane state; the transmitter is idle in every state but UP and TEST (Table 11-5, R101, R378), and in TEST with the PCS
loop-back (R375). -/
def State.setLaneState (s : State) (n v : Nat) : State :=
  (s.put (R.LNE_STATUS n) F.LNE_STATUS_STATE v).put (R.LNE_STATUS n) F.LNE_STATUS_TX_IDLE
    (b2n (decide (v ≠ laneUP ∧ ¬ (v = laneTEST ∧ s.get (R.LNE_TEST n) F.LNE_TEST_LOOP ≠ 3))))

/-- CLASS (1 Ethernet, 2 JESD204C, 3 yarn) and GROUP of lane `n`. -/
def State.laneClass (s : State) (n : Nat) : Nat := s.get (R.LNE_RATE n) F.LNE_RATE_CLASS
def State.laneGroup (s : State) (n : Nat) : Nat := s.get (R.LNE_RATE n) F.LNE_RATE_GROUP

/-- The lanes of group `g` of class `c`. -/
def State.groupLanes (s : State) (c g : Nat) : List Nat :=
  (List.range 96).filter (fun n => decide (c ≠ 0 ∧ s.laneClass n = c ∧ s.laneGroup n = g))

/-- The lanes of the group of lane `n`. -/
def State.lanesWith (s : State) (n : Nat) : List Nat := s.groupLanes (s.laneClass n) (s.laneGroup n)

/-! ### Rates and survey presets (R363 to R367) -/

/-- The line rate `kbps` from reference `fref` Hz: N and log₂ D (R364), equal to it within 1 kbit/s. -/
def laneRate (pam4 : Bool) (kbps fref : Nat) : Option (Nat × Nat) :=
  (if pam4 then [0] else [0, 1, 2, 3, 4]).findSome? (fun d =>
    let twofp := if pam4 then kbps * 1000 / 2 else kbps * 1000 * 2 ^ d
    let n := (twofp + fref / 2) / fref
    let r := if pam4 then 2 * n * fref else n * fref / 2 ^ d
    if 13000000000 ≤ twofp ∧ twofp ≤ 32500000000 ∧ 32 ≤ n ∧ n ≤ 400 ∧ r ≤ kbps * 1000 + 1000 ∧ kbps * 1000 ≤ r + 1000 ∧
        0 < fref then some (n, d) else none)

/-- Lane rate in kbit/s and modulation of the Ethernet mode of an ETH_SET bit, and its lanes (Table 12-1). -/
def ethMode (b : Nat) : Nat × Bool × Nat :=
  match b with
  | 0 => (10312500, false, 1)
  | 1 => (25781250, false, 1)
  | 2 => (53125000, true, 1)
  | 3 => (53125000, true, 2)
  | 4 => (53125000, true, 4)
  | _ => (53125000, true, 8)

/-- The LANE record of lane `n`. -/
def laneRecOf (recs : List SvyRec) (n : Nat) : Option SvyRec := recs.find? (fun r => decide (r.type = 2 ∧ r.f 1 31 24 = n))

/-- The surveyed frequency, in Hz, of the reference that serves lane `n`. -/
def laneRef (recs : List SvyRec) (n : Nat) : Option Nat :=
  (recs.find? (fun r => decide (r.type = 3 ∧ r.f 1 3 0 = n / 8))).map (fun r => r.words.getD 1 0)

/-- The rates a LANE record asks of its reference: every mode's of its ETH_SET for an Ethernet lane, else its own (R364). -/
def SvyRec.laneRates (r : SvyRec) : List (Nat × Bool) :=
  if r.f 1 23 20 = 1 then
    ((List.range 6).filter (fun b => r.f 3 (24 + b) (24 + b) == 1)).map (fun b => ((ethMode b).1, (ethMode b).2.1))
  else [(r.words.getD 1 0, r.f 3 3 3 == 1)]

/-- Every rate of a LANE record can be reached from its quad's reference (R364). -/
def laneReachable (recs : List SvyRec) (r : SvyRec) : Bool :=
  match laneRef recs (r.f 1 31 24) with
  | none => false
  | some f => r.laneRates.all (fun q => (laneRate q.2 q.1 f).isSome)

/-- LNE_TXFFE of a LOSS class (Table 11-4). -/
def ffePreset (loss : Nat) : Word :=
  let mk (m2 m1 : Int) (c0 : Nat) (c1 : Int) : Word :=
    word (unsgn 6 m2 * 2 ^ 24 + unsgn 6 m1 * 2 ^ 16 + c0 * 2 ^ 8 + unsgn 6 c1)
  match loss with
  | 0 => mk 0 0 63 0
  | 1 => mk 0 (-4) 55 (-4)
  | 2 => mk 0 (-6) 47 (-10)
  | _ => mk (-2) (-8) 39 (-14)

/-- The transmitter FFE a lane starts from: Table 11-4 for converter and yarn lanes (Table 18-3) and 400GAUI-8 (R393), else
its training's own. -/
def SvyRec.laneFfe (r : SvyRec) : Word :=
  if r.f 1 23 20 = 2 ∨ r.f 1 23 20 = 3 ∨ (r.f 1 23 20 = 1 ∧ r.f 3 29 29 = 1) then ffePreset (r.f 3 11 8) else Config.startFfe (r.f 3 11 8)

/-- Set the rate in use of lane `n`. -/
def State.setLaneRate (s : State) (n : Nat) (kbps : Nat) (pam4 : Bool) : State :=
  match (laneRef s.svy.recs n).bind (laneRate pam4 kbps) with
  | some (nn, d) =>
    ((s.put (R.LNE_RATE n) F.LNE_RATE_PAM4 (b2n pam4)).put (R.LNE_RATE n) F.LNE_RATE_D_LOG d).put
      (R.LNE_RATE n) F.LNE_RATE_N nn
  | none => s

/-- The registers of a surveyed lane at commit (R369, fields marked S); the lane enters LP2. -/
def State.laneSurvey (s : State) (r : SvyRec) : State :=
  let n := r.f 1 31 24
  let s := s.wr (R.LNE_RATE n) (word (r.f 1 23 20 * 16 + r.f 1 19 16))
  let s := s.setLaneRate n (r.words.getD 1 0) (r.f 3 3 3 == 1)
  let ctle := r.f 3 15 12
  let s := s.wr (R.LNE_RXEQ n) (word (b2n (decide (r.f 1 23 20 ≠ 2)) * 2 ^ 8 + ctle * 16 + ctle))
  let s := s.wr (R.LNE_TXFFE n) r.laneFfe
  let s := s.wr (R.LNE_MAP n)
    (word (r.f 3 5 5 * 2 ^ 31 + r.f 3 4 4 * 2 ^ 30 + r.f 3 7 6 * 2 ^ 28 + r.f 3 7 6 * 2 ^ 26))
  let s := (s.put (R.LNE_CTRL n) F.LNE_CTRL_POWER 0).put (R.LNE_STATUS n) F.LNE_STATUS_REF_OK 1
  s.setLaneState n laneLP2

/-- Every LANE record of the committed survey. -/
def State.lanesSurvey (s : State) : State := (s.recsOf 2).foldl State.laneSurvey s

/-! ### Mismatches (R109) -/

/-- Record a mismatch; the 65th and later are only counted. -/
def State.mismatch (s : State) (type item kind expected found : Nat) : State :=
  if s.svy.mismatches.length < 64 then
    { s with svy := { s.svy with mismatches := s.svy.mismatches ++ [⟨type, item, kind, expected, found⟩] } }
  else { s with svy := { s.svy with overflow := true } }

/-! ### Low-power states and floors (R370, R371) -/

/-- A lane of the group is marked (R627): the group is held DOWN. -/
def State.groupMarked (s : State) (n : Nat) : Bool := (s.lanesWith n).any (fun m => s.swt.marked.contains (7, m))

/-- The device's floor for lane `n`: 0 none, 1 LP1, 2 LP2, 3 FORCED (R370). A lane that is DOWN or in TEST has none in
QUIET; an unused one has only FORCED. -/
def State.laneFloor (s : State) (n : Nat) : Nat :=
  match s.floor with
  | 3 => 3
  | 2 => if s.laneClass n = 0 then 0 else 2
  | 1 =>
    if s.laneClass n = 0 ∨ s.laneState n = laneDOWN ∨ s.laneState n = laneTEST ∨ (s.lane n).down then 0 else 1
  | _ => 0

/-- The power lane `n` should be at: the deeper of floor and commanded state. A lane that is DOWN or in TEST follows only the
floor. -/
def State.laneWant (s : State) (n : Nat) : Nat :=
  if s.laneState n = laneDOWN ∨ s.laneState n = laneTEST ∨ (s.lane n).down then s.laneFloor n
  else max (s.laneFloor n) (s.get (R.LNE_CTRL n) F.LNE_CTRL_POWER)

/-- The power a lane is at. -/
def State.laneDepth (s : State) (n : Nat) : Nat :=
  match s.laneState n with
  | 4 => 1
  | 5 => 2
  | 7 => 3
  | _ => 0

/-- Yarn port `p` leaves UP with elements in flight: conflict case 7 of Table 19-5, caused by the lane or port fault just reported, else
an event of the port. -/
def State.yarnInFlight (s : State) (p : Nat) : State :=
  let y := s.yport p
  let flying := y.unacked.any (fun c => c.units.any (fun u => match u with | .elems _ _ => true | _ => false)) ||
    y.rxBuf.any (fun b => !b.2.isEmpty)
  if !flying then s
  else match s.flt.waiting.getLast? with
    | some r =>
      if (r.src = 0x50 ∧ s.laneClass r.inst = 3 ∧ s.laneGroup r.inst = p) ∨ (r.src = 0x52 ∧ r.inst = p) then
        { s with flt := { s.flt with waiting := s.flt.waiting.dropLast ++ [{ r with keeps := r.keeps ++ [(7, 5, 6)] }] } }
      else s.report 0x74 p [] [(7, 5, 6)]
    | none => s.report 0x74 p [] [(7, 5, 6)]

/-- A MAC (its number) or yarn port (16 and its number) has not been UP throughout the gazetteer's interval. -/
def State.unsteady (s : State) (u : Nat) : State := { s with gaz := { s.gaz with steady := s.gaz.steady.filter (· ≠ u) } }

/-- The Ethernet MAC, JESD204C link or yarn port of a lane is no longer established (R371, R378). -/
def State.linkDown (s : State) (c g : Nat) : State :=
  match c with
  | 1 => (s.unsteady g).wr (R.FHE_MAC g) 0
  | 2 =>
    if s.flag (R.JSD_LINK g) F.JSD_LINK_VALID then
      let s := if s.get (R.JSD_STATUS g) F.JSD_STATUS_STATE = 3 then (s.bump (R.JSD_COUNT g 1)).gazInc (169 + g) else s
      let l := sget (fun _ => JsdLink.init) s.links.jsd.link g
      { s with links := { s.links with jsd := { s.links.jsd with
          link := sset (fun _ => JsdLink.init) s.links.jsd.link g { l with sync := [], emb := [] } } } }.put
        (R.JSD_STATUS g) F.JSD_STATUS_STATE 1
    else s
  | 3 =>
    if s.yarnUp g then
      (((s.unsteady (16 + g)).yarnInFlight g).put (R.YRN_PORT g) F.YRN_PORT_STATE 3).put (R.YRN_PORT g) F.YRN_PORT_LANES_UP 0
    else if s.get (R.YRN_PORT g) F.YRN_PORT_STATE = 1 then s.put (R.YRN_PORT g) F.YRN_PORT_STATE 3
    else s
  | _ => s

/-- The checker of lane `n` stops: bits compared so far are kept. -/
def State.checkStop (s : State) (n : Nat) : State :=
  let l := s.lane n
  let s := match l.lockAt with
    | some t =>
      s.setLane n { l with bits := l.bits + (s.stamp - t) * (if s.flag (R.LNE_RATE n) F.LNE_RATE_PAM4 then
          s.get (R.LNE_RATE n) F.LNE_RATE_N * 2 * (laneRef s.svy.recs n).getD 0
        else s.get (R.LNE_RATE n) F.LNE_RATE_N * (laneRef s.svy.recs n).getD 0 /
          2 ^ s.get (R.LNE_RATE n) F.LNE_RATE_D_LOG) / 1000000000, lockAt := none }
    | none => s
  (s.put (R.LNE_TEST n) F.LNE_TEST_CHK_LOCK 0).put (R.LNE_TEST n) F.LNE_TEST_CHK_INV 0

/-- Bits compared since checker lock, as a read finds them (R376). -/
def State.chkBits (s : State) (n : Nat) : Nat := ((s.checkStop n).lane n).bits % 2 ^ 64

/-- Lane `n` starts to leave LP1 or LP2 (Table 11-7): its PLL locks while its reference is good and its transmitter leaves electrical
idle, at once (log entry 65); the transmitter of a lane on its way to DOWN stays idle. -/
def State.laneExit (s : State) (n : Nat) : State :=
  let s := s.setLane n { s.lane n with lp := .exiting }
  let s := s.put (R.LNE_STATUS n) F.LNE_STATUS_PLL_LOCK (s.get (R.LNE_STATUS n) F.LNE_STATUS_REF_OK)
  s.put (R.LNE_STATUS n) F.LNE_STATUS_TX_IDLE (b2n (s.lane n).down)

/-- Lane `n` goes toward the power it should be at. An order during an entry or exit waits for its end; FORCED acts at
once, and its link is no longer established or on its way (R49). -/
def State.laneMove (s : State) (n : Nat) : State :=
  let s := s.put (R.LNE_STATUS n) F.LNE_STATUS_FLOOR (s.laneFloor n)
  let want := s.laneWant n
  let l := s.lane n
  if want = 3 then
    let s := s.checkStop n
    let s := s.linkDown (s.laneClass n) (s.laneGroup n)
    (((s.setLane n { s.lane n with lp := .none }).put (R.LNE_STATUS n) F.LNE_STATUS_PLL_LOCK 0).put
      (R.LNE_STATUS n) F.LNE_STATUS_CDR_LOCK 0).setLaneState n laneFORCED
  else if s.laneClass n = 0 ∨ l.lp ≠ .none then s
  else if s.laneDepth n = want then s
  else if want = 0 then s.laneExit n
  else s.setLane n { l with lp := .entering want }

/-- Every used lane goes toward its power; in HALTED and TRIPPED every lane. -/
def State.lanesMove (s : State) : State := (List.range 96).foldl State.laneMove s

/-! ### Training -/

/-- Lane `n` enters TRAINING; after reset or a fault its receiver starts from its present coefficients. -/
def State.laneTrain (s : State) (n : Nat) : State :=
  (s.put (R.LNE_STATUS n) F.LNE_STATUS_CDR_LOCK 0).setLaneState n laneTRAINING

/-- The coefficients a commanded training starts from (R383): the surveyed CTLE preset, which on a converter lane is the value it
stays at, DFE taps at 0, the class's starting FFE. -/
def State.laneFresh (s : State) (n : Nat) : State :=
  match laneRecOf s.svy.recs n with
  | none => s
  | some r =>
    let s := s.put (R.LNE_RXEQ n) F.LNE_RXEQ_CTLE_NOW (r.f 3 15 12)
    let s := if s.laneClass n = 2 then s.put (R.LNE_RXEQ n) F.LNE_RXEQ_CTLE (r.f 3 15 12) else s
    let s := [0, 1, 2].foldl (fun s k => s.wr (R.LNE_DFE n k) 0) s
    s.wr (R.LNE_TXFFE n) r.laneFfe

/-- The tap sum of an LNE_TXFFE value (R367). -/
def ffeSum (v : Word) : Nat :=
  (sgn 6 (F.LNE_TXFFE_CM2.get v)).natAbs + (sgn 6 (F.LNE_TXFFE_CM1.get v)).natAbs + F.LNE_TXFFE_C0.get v +
    (sgn 6 (F.LNE_TXFFE_C1.get v)).natAbs

/-- An LNE_TXFFE value within R367: C(0) from 24, the other taps from −31 to 31, the sum at most 63. -/
def ffeOk (v : Word) : Bool :=
  decide (24 ≤ F.LNE_TXFFE_C0.get v) && decide (ffeSum v ≤ 63) &&
  [F.LNE_TXFFE_CM2, F.LNE_TXFFE_CM1, F.LNE_TXFFE_C1].all (fun f => decide (f.get v ≠ 32))

/-- The link layer of group `g` starts an attempt: a JESD204C link waits for SYSREF (Table 12-6), a yarn port is in step 1 of
its training. -/
def State.linkStart (s : State) (c g : Nat) : State :=
  match c with
  | 2 => if s.flag (R.JSD_LINK g) F.JSD_LINK_VALID then s.put (R.JSD_STATUS g) F.JSD_STATUS_STATE 1 else s
  | 3 =>
    let s := ((s.put (R.YRN_PORT g) F.YRN_PORT_STATE 1).put (R.YRN_PORT g) F.YRN_PORT_STEP 1).put (R.YRN_PORT g) F.YRN_PORT_ID_OK 0
    s.setYport g { s.yport g with frames := [], obs := [], ready := [], rxDone := [], reqs := [], stats := [] }
  | _ => s

/-- Lane `n` is in TRAINING or UP, and not on its way to a low-power state. -/
def State.laneActive (s : State) (n : Nat) : Bool :=
  decide ((s.laneState n = laneTRAINING ∨ s.laneState n = laneUP) ∧ (s.lane n).lp = .none)

/-- Lane `n` is in TRAINING or UP, and no floor is taking it to a low-power state: the state in which the faults of Table 11-6 are
raised (R377). An entry that LNE.POWER commanded does not end it. -/
def State.laneWatched (s : State) (n : Nat) : Bool :=
  decide (s.laneState n = laneTRAINING ∨ s.laneState n = laneUP) &&
  (match (s.lane n).lp with
   | .none => true
   | .entering t => decide (s.laneFloor n < t)
   | .exiting => false)

/-- The lanes of a group that a retrain takes to TRAINING: while one is in TRAINING or UP, those and the lanes its Ethernet
mode left DOWN (R393). -/
def State.trainable (s : State) (c g : Nat) : List Nat :=
  let ls := s.groupLanes c g
  if ls.any s.laneWatched then
    ls.filter (fun n => s.laneWatched n || decide (s.laneState n = laneDOWN ∧ (s.lane n).down = false)) else []

/-- A group is being bound off: faults no longer retrain it (R384). -/
def State.boundOff (s : State) (n : Nat) : Bool := s.links.lanes.binds.any (fun b => b.lanes.contains n)

/-- A fault of lane `n` takes its group to TRAINING (R377, R378); each lane's retrain is counted. -/
def State.groupFault (s : State) (n : Nat) : State :=
  if s.boundOff n then s
  else
    let c := s.laneClass n
    let g := s.laneGroup n
    let ls := s.trainable c g
    let s := ls.foldl (fun s m => ((s.bump (R.LNE_COUNT m 4)).gazInc (73 + m)).laneTrain m) s
    (s.linkDown c g).linkStart c g

/-- Start training of the lanes of a group after CHARTED (Table 3-3): from LP2 to TRAINING; a marked group goes DOWN. -/
def State.lanesCharted (s : State) : State :=
  let s := (s.recsOf 2).foldl (fun s r =>
    let n := r.f 1 31 24
    if s.laneState n = laneLP2 ∧ (s.lane n).lp = .none then
      let s := s.put (R.LNE_STATUS n) F.LNE_STATUS_PLL_LOCK (s.get (R.LNE_STATUS n) F.LNE_STATUS_REF_OK)
      if s.groupMarked n then s.setLaneState n laneDOWN else s.laneTrain n
    else s) s
  let s := (List.range 16).foldl (fun s g => s.linkStart 2 g) s
  let s := [0, 1].foldl (fun s g => if (s.trainable 3 g).isEmpty then s else s.linkStart 3 g) s
  s.lanesMove

/-! ### Polarity and lane order (R372 to R374) -/

/-- Polarity found at one receiver. -/
def State.polarity (s : State) (o : LaneObs) : State :=
  let k := R.LNE_MAP o.lane
  if s.get k F.LNE_MAP_RX_INV_APPLIED = b2n o.crossed then s
  else
    let exp := match laneRecOf s.svy.recs o.lane with | some r => r.f 3 5 5 | none => 0
    (s.put k F.LNE_MAP_RX_INV_APPLIED (b2n o.crossed)).mismatch 2 o.lane 1 exp (b2n o.crossed)

/-- The order found in one quad of a group: corrected when it is a re-ordering of EXP_POS, else recorded with kind 3 and the
group is not brought up. -/
def State.quadOrder (s : State) (os : List LaneObs) : Bool × State :=
  let seen := os.filter (fun o => o.pos.isSome)
  let exp := seen.map (fun o => s.get (R.LNE_MAP o.lane) F.LNE_MAP_POS_EXPECTED)
  let found := seen.map (fun o => o.pos.getD 0)
  let ok := (List.range 4).all (fun q => exp.count q == found.count q) && found.all (fun q => decide (q < 4))
  if ok then
    (true, seen.foldl (fun s o =>
      let k := R.LNE_MAP o.lane
      let q := o.pos.getD 0
      let s := s.put k F.LNE_MAP_POS_DETECTED 1
      if s.get k F.LNE_MAP_POS_FOUND = q then s
      else (s.put k F.LNE_MAP_POS_FOUND q).mismatch 2 o.lane 2 (s.get k F.LNE_MAP_POS_EXPECTED) q) s)
  else (false, seen.foldl (fun s o =>
    s.mismatch 2 o.lane 3 (s.get (R.LNE_MAP o.lane) F.LNE_MAP_POS_EXPECTED) (o.pos.getD 0)) s)

/-- Both detections for the lanes of a group: whether it may be brought up. -/
def State.laneDetect (s : State) (os : List LaneObs) : Bool × State :=
  let s := os.foldl State.polarity s
  (List.range 24).foldl (fun r q =>
    let here := os.filter (fun o => decide (o.lane / 4 = q))
    if here.isEmpty then r
    else
      let x := r.2.quadOrder here
      (r.1 && x.1, x.2)) (true, s)

/-- Lane `n` is UP. -/
def State.laneUpNow (s : State) (n : Nat) : State :=
  (((s.put (R.LNE_STATUS n) F.LNE_STATUS_PLL_LOCK 1).put (R.LNE_STATUS n) F.LNE_STATUS_CDR_LOCK 1).put
    (R.LNE_STATUS n) F.LNE_STATUS_SIGNAL 1).setLaneState n laneUP

/-! ### Completions -/

/-- LNE.POWER is done for lane `n`: it is where R370 puts it, or, for ACTIVE, out of its low-power state. -/
def State.laneSettled (s : State) (n : Nat) : Bool := decide ((s.lane n).lp = .none ∧ s.laneDepth n = s.laneWant n)

/-- A group's lanes are UP, apart from those its Ethernet mode leaves DOWN. -/
def State.groupUp (s : State) (ls : List Nat) : Bool :=
  ls.all (fun n => s.laneState n == laneUP || s.laneState n == laneDOWN) && ls.any (fun n => s.laneState n == laneUP)

/-- The open LNE.POWER, LNE.RETRAIN and LNE.UP commands whose condition now holds complete with DONE. -/
def State.lanesDone (s : State) : State :=
  s.mbx.open_.foldl (fun s o =>
    if o.code = 0x0D02 ∧ o.args.all s.laneSettled then s.complete o.id .DONE
    else if (o.code = 0x0D03 ∨ o.code = 0x0D05) ∧ s.groupUp o.args then s.complete o.id .DONE
    else s) s

/-- The streams of LNE.BINDOFF `b` are all CLOSED: its lanes enter DOWN, those in LP1 or LP2 by leaving it first (R384), and the link
they carried is down. -/
def State.bindDown (s : State) (b : LaneBind) : State :=
  let s := b.lanes.foldl (fun s n =>
    let s := s.setLane n { s.lane n with lp := .none, down := true }
    if s.laneState n = laneLP2 ∨ s.laneState n = laneLP1 then s.laneMove n else s.setLaneState n laneDOWN) s
  match b.lanes.head? with
  | none => s
  | some n =>
    let g := s.laneGroup n
    let s := s.linkDown (s.laneClass n) g
    if s.laneClass n = 2 ∧ s.flag (R.JSD_LINK g) F.JSD_LINK_VALID then s.put (R.JSD_STATUS g) F.JSD_STATUS_STATE 4 else s

/-- Every stream of LNE.BINDOFF `b` is CLOSED and every lane DOWN. -/
def State.bindDone (s : State) (b : LaneBind) : Bool := b.streams.isEmpty && b.lanes.all (fun n => s.laneState n == laneDOWN)

/-- The LNE.BINDOFF commands that are done complete (R384). -/
def State.bindsDone (s : State) : State :=
  let bs := s.links.lanes.binds
  let v := { s with links := { s.links with lanes := { s.links.lanes with binds := bs.filter (fun b => !s.bindDone b) } } }
  (bs.filter s.bindDone).foldl (fun v b => v.complete b.openId (if b.late then .BUDGET_EXCEEDED else .DONE)) v

/-- Stream `n` closed; `late` by step 3′. -/
def State.laneStreamClosed (s : State) (n : Nat) (late : Bool) : State :=
  let bs := s.links.lanes.binds.map (fun b =>
    if b.streams.contains n then { b with streams := b.streams.filter (· ≠ n), late := b.late || late } else b)
  let s := { s with links := { s.links with lanes := { s.links.lanes with binds := bs } } }
  ((bs.filter (fun b => b.streams.isEmpty)).foldl State.bindDown s).bindsDone

end Sys2Proof.Machine
end

