-- ==== Sys2Proof/Machine/StreamOps.lean ====
section
/-! DEFINITION. The shared operations over streams (spec/08): elements, endpoints, rings, arrival, release, delivery, seams,
gaps, opening, and bind-off. -/

namespace Sys2Proof

/-- A seam: SEAM set, whatever else is (R272). -/
def Elem.isSeam (e : Elem) : Bool := e.sb.getLsbD 3
/-- A gap: GAP set and SEAM clear (R272). -/
def Elem.isGap (e : Elem) : Bool := e.sb.getLsbD 2 && !e.isSeam
/-- A pattern switch token: TOKEN set, SEAM and GAP clear (R272). -/
def Elem.isToken (e : Elem) : Bool := e.sb.getLsbD 4 && !e.sb.getLsbD 3 && !e.sb.getLsbD 2
/-- COUNT of a gap element. -/
def Elem.count (e : Elem) : Nat := e.data.toNat % 2 ^ 32
/-- SEAM_NO of a seam element. -/
def Elem.seamNo (e : Elem) : Nat := e.data.toNat % 2 ^ 24

end Sys2Proof

namespace Sys2Proof.Machine

/-- A gap element standing for `n` elements; 0 for an unknown number up to the next seam (R272). -/
def mkGap (n : Nat) : Elem := ⟨BitVec.ofNat 64 (n % 2 ^ 32), 0x04⟩
/-- A seam element (R272). -/
def mkSeam (n : Nat) : Elem := ⟨BitVec.ofNat 64 (n % 2 ^ 24), 0x08⟩

/-- Stream `n` (R274). -/
def State.stream (s : State) (n : Nat) : Stream := sget (fun _ => Stream.closed) s.streams n

/-- Replace stream `n`'s record. -/
def State.setStream (s : State) (n : Nat) (x : Stream) : State :=
  { s with streams := sset (fun _ => Stream.closed) s.streams n x }

/-- A field of one of stream `n`'s registers (R298). -/
def State.strGet (s : State) (n reg : Nat) (f : Fld) : Nat := s.get (strKey n reg) f

def State.strSched (s : State) (n : Nat) : Bool := s.flag (strKey n R.STR_CFG) F.STR_CFG_SCHED
def State.strBuffered (s : State) (n : Nat) : Bool := s.flag (strKey n R.STR_CFG) F.STR_CFG_BUFFERED
def State.strTenant (s : State) (n : Nat) : Nat := s.strGet n R.STR_CFG F.STR_CFG_TENANT
def State.strUnit (s : State) (n : Nat) : Nat := s.strGet n R.STR_CFG F.STR_CFG_RELEASE_LEN
def State.strGcred (s : State) (n : Nat) : Nat := s.strGet n R.STR_CFG F.STR_CFG_GCRED
def State.strProducer (s : State) (n : Nat) : Nat := s.strGet n R.STR_ENDS F.STR_ENDS_PRODUCER
def State.strConsumer (s : State) (n : Nat) : Nat := s.strGet n R.STR_ENDS F.STR_ENDS_CONSUMER
def State.strRingBase (s : State) (n : Nat) : Nat := s.strGet n R.STR_RING_BASE F.STR_RING_BASE_BASE * 4096
def State.strRingLen (s : State) (n : Nat) : Nat := s.strGet n R.STR_RING_LEN F.STR_RING_LEN_LEN
def State.strLate (s : State) (n : Nat) : Nat := s.strGet n R.STR_LATE F.STR_LATE_LATE

/-- Advance STR_COUNT[k] of stream `n`. -/
def State.strCount (s : State) (n k : Nat) (amount : Nat := 1) : State := s.bump (strKey n (R.STR_COUNT k)) amount

/-- A contained fault of stream `n` counted in STR_COUNT[k] and reported as STR_LOSS (R289); a late discard is conflict
case 6 of Table 19-5. -/
def State.strLoss (s : State) (n k : Nat) : State :=
  (s.strCount n k).report 0x30 n [] (if k = 2 then [(6, 5, 6)] else [])

/-! ### Endpoints (Table 8-2) -/

/-- KIND and INDEX of an endpoint. -/
def epKind (ep : Nat) : Nat := ep / 4096
def epIndex (ep : Nat) : Nat := ep % 4096
/-- The endpoint of gate channel `g` of wale `w`. -/
def gateEp (w g : Nat) : Nat := 0x5000 + 16 * w + g

/-- The roles an endpoint may take: (producer, consumer). -/
def epRole (ep : Nat) : Bool × Bool :=
  let i := epIndex ep
  match epKind ep with
  | 1 => (decide (i ≤ 255), false)
  | 2 => (false, decide (i ≤ 255))
  | 3 => (decide (i ≤ 255), false)
  | 4 => (false, decide (i ≤ 255))
  | 5 => (decide (i ≤ 639) && decide (8 ≤ i % 16), decide (i ≤ 639) && decide (i % 16 < 8))
  | 6 => (decide (i ≤ 31), decide (i ≤ 31))
  | 7 => (decide (i ≤ 127), decide (i ≤ 127))
  | _ => (false, false)

/-- An endpoint's configuration does not contradict the role asked of it: a DMA queue that is enabled is a STREAM queue of
that direction, a yarn channel that is configured has that direction (R556, R576). -/
def State.epFits (s : State) (ep : Nat) (producer : Bool) : Bool :=
  let i := epIndex ep
  match epKind ep with
  | 6 => !s.flag (R.DMA_QCFG i) F.DMA_QCFG_EN ||
      (s.flag (R.DMA_QCFG i) F.DMA_QCFG_MODE && (s.flag (R.DMA_QCFG i) F.DMA_QCFG_DIR != producer))
  | 7 => !s.flag (R.YRN_CHAN i) F.YRN_CHAN_VALID || (s.flag (R.YRN_CHAN i) F.YRN_CHAN_DIR != producer)
  | _ => true

/-- The tenant rule of R274 for one endpoint: gates by wale, queues by KeyID, yarn channels only KeyID 0 (R577). -/
def State.epTenant (s : State) (ep key : Nat) : Bool :=
  let i := epIndex ep
  match epKind ep with
  | 5 => s.keyOfWale (i / 16) == key
  | 6 => s.get (R.DMA_QCFG i) F.DMA_QCFG_KEYID == key
  | 7 => key == 0
  | _ => true

/-- Streams that are not CLOSED. -/
def State.liveStreams (s : State) : List Nat := (s.streams.filter (fun p => decide (p.2.st ≠ .closed))).map (·.1)

/-- The stream, not CLOSED, that endpoint `ep` belongs to. -/
def State.epStream (s : State) (ep : Nat) : Option Nat :=
  s.liveStreams.find? (fun n => decide (s.strProducer n = ep) || decide (s.strConsumer n = ep))

/-- Gate channel `g` of wale `w` passes elements of stream `n`: bound to it, enabled, the wale gate on, and no shift of the wale in
progress (R154, R163, R275). -/
def State.gateOn (s : State) (w g n : Nat) : Bool :=
  s.flag (R.WAL_CTRL w) F.WAL_CTRL_GATE_EN && s.flag (R.WAL_GATE w g) F.WAL_GATE_EN &&
  decide (s.get (R.WAL_GATE w g) F.WAL_GATE_STREAM = n) && (sget (fun _ => Wale.init) s.stitch.wales w).shift.isNone

/-- The consumer of stream `n` is a gate channel that passes its elements. -/
def State.gateTakes (s : State) (n : Nat) : Bool :=
  let ep := s.strConsumer n
  decide (epKind ep = 5) && s.gateOn (epIndex ep / 16) (epIndex ep % 16) n

/-- Flits with `k` elements fewer, taken from the oldest. -/
def dropElems : Nat → List Nat → List Nat
  | _, [] => []
  | k, f :: rest => if f ≤ k then dropElems (k - f) rest else (f - k) :: rest

/-- The flits the destination holds once it has passed on what the gate channel's buffer of 64 has room for. -/
def Stream.toGate (x : Stream) : List Nat := dropElems (64 - (x.inbox.length - x.flits.sum)) x.flits

/-- The flits of stream `n` that its destination holds now (Table 8-3). -/
def State.strFlits (s : State) (n : Nat) : List Nat := if s.gateTakes n then (s.stream n).toGate else (s.stream n).flits

/-- The elements of stream `n` that stand in its gate channel's buffer. -/
def State.strAtGate (s : State) (n : Nat) : Nat := (s.stream n).inbox.length - (s.strFlits n).sum

/-- The destination grants credit for one more flit of stream `n` (Table 8-3): it holds GCRED of them. -/
def State.strRoom (s : State) (n : Nat) : Bool := decide ((s.strFlits n).length < s.strGcred n)

/-- One flit of the last `k` elements that reached the consumer's end. -/
def State.strFlit (s : State) (n k : Nat) : State :=
  let x := s.stream n
  let s := s.setStream n { x with flits := x.flits ++ [k] }
  s.setStream n { s.stream n with flits := s.strFlits n }

/-! ### Rings (R281) -/

/-- Positions of the ring as bytes: 8 of data at RING_BASE + 8 × (p mod LEN), the sideband after all data. -/
def State.ringPut (s : State) (n p : Nat) (e : Elem) : State :=
  let base := s.strRingBase n
  let len := max 1 (s.strRingLen n)
  let a := base + 8 * (p % len)
  let m := (List.range 8).foldl
    (fun m i => sset (fun _ => (0 : Byte)) m (a + i) (BitVec.ofNat 8 (e.data.toNat / 2 ^ (8 * i)))) s.store
  { s with store := sset (fun _ => (0 : Byte)) m (base + 8 * len + p % len) e.sb }

/-- The element the ring holds at position `p`. -/
def State.ringGet (s : State) (n p : Nat) : Elem :=
  let base := s.strRingBase n
  let len := max 1 (s.strRingLen n)
  let a := base + 8 * (p % len)
  let v := (List.range 8).foldr (fun i acc => acc * 256 + (sget (fun _ => (0 : Byte)) s.store (a + i)).toNat) 0
  ⟨BitVec.ofNat 64 v, sget (fun _ => (0 : Byte)) s.store (base + 8 * len + p % len)⟩

/-- What position `p` holds. -/
def Stream.mark (x : Stream) (p : Nat) : PosMark := sget (fun _ => PosMark.empty) x.marks p

/-- Change what position `p` holds. -/
def Stream.setMark (x : Stream) (p : Nat) (v : PosMark) : Stream :=
  { x with marks := sset (fun _ => PosMark.empty) x.marks p v }

/-- Positions holding elements (STR_STATUS.FILL). -/
def Stream.fill (x : Stream) : Nat := (x.marks.filter (fun p => decide (p.2 = .elem))).length

/-! ### Delivery to the consumer -/

/-- The consumer receives `e`: counted, with the owner's TAG (R273, Table 8-7). -/
def State.strPush (s : State) (n : Nat) (e : Elem) : State :=
  let e : Elem := { e with sb := BitVec.ofNat 8 (s.strTenant n % 8 * 32 + e.sb.toNat % 32) }
  let x := s.stream n
  let s := s.setStream n { x with inbox := x.inbox ++ [e] }
  if e.isSeam then s else if e.isGap then s.strCount n 1 else s.strCount n 0

/-- A seam passes the seam point: numbered, counted in STR_COUNT[6] (R290). -/
def State.strNumber (s : State) (n : Nat) : Elem × State :=
  let x := s.stream n
  (mkSeam x.seamNo, (s.setStream n { x with seamNo := (x.seamNo + 1) % 2 ^ 24 }).strCount n 6)

/-- Units of time of `RelUnit.latest` at the present stamp. -/
def State.fine (s : State) : Nat := s.stamp * 1536

/-- A unit reaches its latest usable time: every position still empty becomes a gap (R283). -/
def Stream.lapse (x : Stream) (u : RelUnit) : Stream :=
  (List.range u.len).foldl
    (fun x i => let p := u.start + i
      if x.dpos ≤ p ∧ x.mark p = .empty then x.setMark p .gap else x) x

/-- Bring every released unit whose latest usable time has come to it (R283). -/
def State.strSettle (s : State) (n : Nat) : State :=
  let x := s.stream n
  let due := x.pend.filter (fun u => decide (u.latest ≤ s.fine))
  let x := due.foldl Stream.lapse x
  s.setStream n { x with pend := x.pend.filter (fun u => !decide (u.latest ≤ s.fine)) }

/-- Length of the run of positions from `p` that hold no element, at most `fuel`, ending at a seam's place (R286). -/
def Stream.lostRun (x : Stream) : Nat → Nat → Nat
  | _, 0 => 0
  | p, fuel + 1 =>
    if x.mark p = .elem then 0
    else 1 + (if x.seams.any (fun q => q.1 == p + 1) then 0 else x.lostRun (p + 1) fuel)

/-- What stream `n` sends its consumer next, and the state without it: a seam in its place, a gap or an element (R279, R282 to R292). `ue`
says that the ring read shows an uncorrectable ECC error (R287); `more` that another element of an unbuffered stream follows. -/
def State.strSend (s : State) (n : Nat) (ue more : Bool) : Option Elem × State :=
  let x := s.stream n
  match x.seams with
  | (p, _) :: rest =>
    if p ≤ x.dpos then
      let r := (s.setStream n { x with seams := rest }).strNumber n
      (some r.1, r.2)
    else next s x p true
  | [] => next s x x.wpos (more || x.final.isSome)
where
  /-- what is lost before place `p`, the final seam, or what the next position holds -/
  next (s : State) (x : Stream) (p : Nat) (due : Bool) : Option Elem × State :=
    if !s.strBuffered n ∧ due ∧ x.dpos < p then
      (some (mkGap (p - x.dpos)), s.setStream n { x with losses := x.losses - (p - x.dpos), dpos := p })
    else if x.final = some x.dpos ∧ !x.finalSent then
      let r := (s.setStream n { x with finalSent := true }).strNumber n
      (some r.1, r.2)
    else if !s.strBuffered n then (none, s)
    else if s.strSched n then
      if x.dpos < x.relTo then
        let unit := max 1 (s.strUnit n)
        let fl := b2n (decide (x.dpos % unit = 0)) + 2 * b2n (decide (x.dpos % unit = unit - 1))
        let edge (e : Elem) : Elem := { e with sb := BitVec.ofNat 8 (e.sb.toNat / 4 * 4 + fl) }
        match x.mark x.dpos with
        | .empty => (none, s)
        | .gap => advance s x 1 (edge (mkGap 1)) false
        | .elem => advance s x 1 (edge (if ue then mkGap 1 else s.ringGet n x.dpos)) ue
      else (none, s)
    else match x.mark x.dpos with
      | .elem => advance s x 1 (if ue then mkGap 1 else s.ringGet n x.dpos) ue
      | _ =>
        if x.dpos < x.wpos then
          let k := x.lostRun x.dpos (x.wpos - x.dpos)
          advance s x k (mkGap k) false
        else (none, s)
  /-- `e` stands for `k` positions -/
  advance (s : State) (x : Stream) (k : Nat) (e : Elem) (ecc : Bool) : Option Elem × State :=
    let x := (List.range k).foldl (fun x i => x.setMark (x.dpos + i) .empty) x
    let s := s.setStream n { x with dpos := x.dpos + k }
    (some e, if ecc then s.strLoss n 4 else s)

/-- One flit of one element from the seam point or the buffer reaches the consumer's end, when its destination has credit and there is one
to send; SEQ of the hop goes on (R280, R282 to R292). -/
def State.strHop (s : State) (n : Nat) (ue more : Bool) : State :=
  if !s.strRoom n then s
  else match s.strSend n ue more with
    | (none, _) => s
    | (some e, s) =>
      let x := s.stream n
      ((s.setStream n { x with seqMid := (x.seqMid + 1) % 2 ^ 24 }).strPush n e).strFlit n 1

/-- One delivery of stream `n`. -/
def State.strDeliver (s : State) (n : Nat) (ue : Bool) : State :=
  let s := s.strSettle n
  if (s.stream n).st = .closed then s else s.strHop n ue false

/-- The endpoint belongs to a stalling producer (Table 8-2). -/
def epStalls (ep : Nat) : Bool := decide (5 ≤ epKind ep)

/-- What waits ahead of the next element of an unbuffered stream goes to the consumer, as credit allows: at most `k` seams and gaps. -/
def State.strAhead (s : State) (n : Nat) : Nat → State
  | 0 => s
  | k + 1 => (s.strHop n false true).strAhead n k

/-- An unbuffered stream has no credit for its next element, or something still waits ahead of it. -/
def State.strBlocked (s : State) (n : Nat) : Bool :=
  let x := s.stream n
  !s.strRoom n || !x.seams.isEmpty || decide (x.dpos < x.wpos)

/-- Element `e` of an unbuffered stream passes from the producer to the consumer's end. A seam of a wale gate keeps its number (R290, R293);
another is numbered. -/
def State.strPass (s : State) (n : Nat) (e : Elem) : State :=
  if e.isSeam then
    if epKind (s.strProducer n) = 5 then s.strPush n e
    else
      let r := s.strNumber n
      r.2.strPush n r.1
  else
    let x := s.stream n
    (s.setStream n { x with wpos := x.wpos + 1, dpos := x.wpos + 1 }).strPush n e

/-- The producer of stream `n` offers an element, at position `pos` when it is a positioned producer. Answers whether the
element was taken; a stalling producer without credit keeps it (R273, R276, R279, R282 to R286, R290, R292). -/
def State.strOffer (s : State) (n : Nat) (pos : Option Nat) (e : Elem) : Bool × State :=
  let s := s.strSettle n
  let x := s.stream n
  let stalls := epStalls (s.strProducer n)
  match x.st with
  | .closed => (false, s)
  | .binding =>
    if stalls then (false, s)
    else (true, (s.setStream n { x with bindDiscards := x.bindDiscards + 1 }).strCount n 7)
  | .open_ => if s.strBuffered n then intoRing s x stalls else direct s x stalls
where
  /-- an unbuffered stream: straight to the consumer, after the seams and losses that wait -/
  direct (s : State) (x : Stream) (stalls : Bool) : Bool × State :=
    let s := s.strAhead n (2 * x.seams.length + 1)
    if s.strBlocked n then lose s (s.stream n) stalls else (true, (s.strPass n e).strFlit n 1)
  /-- no credit -/
  lose (s : State) (x : Stream) (stalls : Bool) : Bool × State :=
    if stalls then (false, s)
    else (true, (s.setStream n { x with losses := x.losses + 1, wpos := x.wpos + 1 }).strLoss n 3)
  /-- a buffered stream: the buffer's writer -/
  intoRing (s : State) (x : Stream) (stalls : Bool) : Bool × State :=
    let sched := s.strSched n
    let unit := max 1 (s.strUnit n)
    let p := pos.getD x.wpos
    if !sched && decide (64 ≤ (x.seams.filter (·.2)).length) then
      if stalls then (false, s)
      else (true, (s.setStream n { x with wpos := if e.isSeam then x.wpos else x.wpos + 1 }).strLoss n 3)
    else if e.isSeam then
      if sched then
        let start := x.wpos / unit * unit
        (true, s.setStream n { x with wpos := if start < x.fillTo then start + unit else x.wpos })
      else (true, s.setStream n { x with seams := x.seams ++ [(x.wpos, true)] })
    else if e.isGap && decide (e.count = 0) then (true, s.strLoss n 3)
    else if stalls && decide (x.dpos + s.strRingLen n ≤ p) then (false, s)
    else
      let x := { x with wpos := max x.wpos (p + 1) }
      let s := s.setStream n x
      if p < x.dpos ∨ (sched ∧ p < x.relTo ∧ x.pend.all (fun u => !(decide (u.start ≤ p) && decide (p < u.start + u.len)))) then
        (true, s.strLoss n 2)
      else if x.dpos + s.strRingLen n ≤ p ∨ x.mark p ≠ .empty then (true, s.strLoss n 3)
      else
        let e : Elem := { e with sb := BitVec.ofNat 8 (s.strTenant n % 8 * 32 + e.sb.toNat % 32) }
        (true, (s.setStream n { x.setMark p .elem with fillTo := max x.fillTo (p + 1) }).ringPut n p e)

/-- The producer of stream `n` restarts: a gap of COUNT 0 (R295). A stalling producer without credit keeps it to send first. -/
def State.strRestart (s : State) (n : Nat) : State :=
  let r := s.strOffer n none (mkGap 0)
  if r.1 ∨ (s.stream n).st ≠ .open_ then r.2 else r.2.setStream n { r.2.stream n with gapDue := true }

/-- A stalling producer offers `e`, after the gap of a restart that it may still owe. -/
def State.strGive (s : State) (n : Nat) (e : Elem) : Bool × State :=
  if !(s.stream n).gapDue then s.strOffer n none e
  else
    let r := s.strOffer n none (mkGap 0)
    if r.1 then (r.2.setStream n { r.2.stream n with gapDue := false }).strOffer n none e else r

/-- A flit of elements `els` reaches the receiver of the producer's hop: the consumer's end of an unbuffered stream, where it takes one place,
or the stream buffer. None when the sender holds no credit for it, so that it waits (R278, R280, R288). -/
def State.strFlitIn (s : State) (n : Nat) (els : List Elem) : Option State :=
  if !s.strBuffered n ∧ (s.stream n).st = .open_ then
    let s := s.strAhead n (2 * (s.stream n).seams.length + 1)
    if s.strBlocked n then none else some ((els.foldl (fun s e => s.strPass n e) s).strFlit n els.length)
  else
    let r := els.foldl (fun (r : Bool × State) e => let q := r.2.strOffer n none e; (r.1 && q.1, q.2)) (true, s)
    if r.1 then some r.2 else none

/-- Take `k` elements out of the buffer of stream `n` for one flit to its consumer. -/
def State.strSendMany (s : State) (n : Nat) : Nat → List Elem × State
  | 0 => ([], s)
  | k + 1 =>
    let r := s.strSendMany n k
    match r.2.strSend n false false with
    | (some e, t) => (r.1 ++ [e], t)
    | (none, _) => r

/-- A fronthaul flow forgets the units and the elements of the stream that its endpoint `ep` belonged to. -/
def State.flowForget (s : State) (ep : Nat) : State :=
  if epKind ep = 1 ∨ epKind ep = 2 then
    let e := epIndex ep + (if epKind ep = 2 then 256 else 0)
    let f := s.links.fhe
    { s with links := { s.links with fhe := { f with
        units := sdel f.units e, taking := sdel f.taking e, gapToSeam := sdel f.gapToSeam e, hostTx := sdel f.hostTx e } } }
  else s

/-- Stream `n` closes: its ring is freed, what its gates hold is gone, and the bind-off command completes (Table 8-5). -/
def State.strClose (s : State) (n : Nat) (rc : RetCode) : State :=
  let x := s.stream n
  let s := [s.strProducer n, s.strConsumer n].foldl State.flowForget s
  ((s.setStream n Stream.closed).completeOpt x.bindOpen rc [word (satNat 32 x.bindDiscards)]).laneStreamClosed n
    (decide (rc = .BUDGET_EXCEEDED))

/-- The consumer takes the next element of stream `n`; taking the final seam closes the stream (Table 8-5 step 3). -/
def State.strTake (s : State) (n : Nat) : Option Elem × State :=
  let x := s.stream n
  match x.inbox with
  | [] => (none, s)
  | e :: rest =>
    let s := s.setStream n { x with inbox := rest, flits := dropElems (x.flits.sum - rest.length) x.flits }
    let s := s.setStream n { s.stream n with flits := s.strFlits n }
    if x.st = .binding ∧ x.finalSent ∧ rest = [] then (some e, s.strClose n .DONE) else (some e, s)

/-- A seam placed by command or by a NOREL entry (R291): queued for the next unit on SCHED, after the last element that
has passed the seam point on FREE. -/
def State.strSeam (s : State) (n : Nat) : State :=
  let x := s.stream n
  if s.strSched n then s.setStream n { x with seamQueued := true }
  else s.setStream n { x with seams := insertAt x.seams (if s.strBuffered n then x.dpos else x.wpos) }
where
  /-- after the seams already waiting there -/
  insertAt (l : List (Nat × Bool)) (p : Nat) : List (Nat × Bool) :=
    l.takeWhile (fun q => decide (q.1 ≤ p)) ++ (p, false) :: l.dropWhile (fun q => decide (q.1 ≤ p))

/-- A release event for stream `n` (R282, R285, R291); `none` when it is ignored. -/
def State.strRelease (s : State) (n : Nat) (seam norel : Bool) : Option State :=
  let s := s.strSettle n
  let x := s.stream n
  if x.st ≠ .open_ ∨ !(norel || s.strSched n) then none
  else if norel then some (s.strSeam n)
  else
    let overs := decide (64 ≤ x.pend.length)
    let x1 := match overs, x.pend with
      | true, u :: rest => { (x.lapse u) with pend := rest }
      | _, _ => x
    let s := if overs then s.strLoss n 5 else s
    let len := s.strUnit n
    let u : RelUnit := ⟨x1.relTo, len, s.fine + s.strLate n * 3125⟩
    some (s.setStream n { x1 with
      relTo := x1.relTo + len, pend := x1.pend ++ [u], seamQueued := false,
      seams := if seam || x1.seamQueued then x1.seams ++ [(x1.relTo, false)] else x1.seams })

/-! ### Opening and bind-off -/

/-- Store-tier bytes of the rings in use: (first, one past the last). -/
def State.rings (s : State) : List (Nat × Nat) :=
  (s.liveStreams.filter s.strBuffered).map (fun n => (s.strRingBase n, s.strRingBase n + 9 * s.strRingLen n))

/-- The store-tier bytes no ring may take: the rings in use, and the 64 KiB of each marked row (Table 20-3). -/
def State.ringTaken (s : State) : List (Nat × Nat) :=
  s.rings ++ (s.swt.marked.filter (fun m => decide (m.1 = 5))).map (fun m => (m.2 * 65536, (m.2 + 1) * 65536))

/-- The bytes [a, b) lie in the stream pool and meet no ring (R281). -/
def State.ringFree (s : State) (a b : Nat) : Bool :=
  decide (b ≤ 0xC0000000) && s.ringTaken.all (fun r => decide (b ≤ r.1) || decide (r.2 ≤ a))

/-- The lowest 4 KiB-aligned place for a ring (R297): offset 0 or the first such place after some ring. -/
def State.ringPlace (s : State) (len : Nat) : Option Nat :=
  let cands := 0 :: s.ringTaken.map (fun r => (r.2 + 4095) / 4096 * 4096)
  let good := cands.filter (fun a => s.ringFree a (a + 9 * len))
  good.foldl (fun m a => match m with | none => some a | some b => some (min a b)) none

/-- What an opening asks for. -/
structure OpenReq where
  sched : Bool
  buffered : Bool
  tenant : Nat
  prod : Nat
  cons : Nat
  base : Option Nat
  len : Nat
  late : Option Nat
  gcred : Nat
  /-- RELEASE_LEN, or none to keep it -/
  unit : Option Nat
  deriving DecidableEq, Repr

/-- The BAD_FIELD checks of R301 and R304. -/
def State.openBad (s : State) (q : OpenReq) : Bool :=
  !(epRole q.prod).1 || !(epRole q.cons).2 || !s.epFits q.prod true || !s.epFits q.cons false ||
  (q.sched && !q.buffered) || q.unit == some 0 || decide (q.gcred < 4) || decide (64 < q.gcred) ||
  (decide (epKind q.prod = 1) && !q.sched) ||
  (q.buffered && (decide (q.len % 4096 ≠ 0) || decide (q.len < 4096) || decide (8388608 < q.len))) ||
  (q.buffered && (match q.base with | some b => decide (b % 4096 ≠ 0) | none => false))

/-- The NOT_OWNER checks of R301. -/
def State.openForeign (s : State) (q : OpenReq) (fab : Option Nat) : Bool :=
  (match fab with | some k => decide (k ≠ q.tenant) | none => false) ||
  !s.epTenant q.prod q.tenant || !s.epTenant q.cons q.tenant

/-- The last checks, with the ring's place: REFUSED_IN_USE and BUDGET_EXCEEDED (R301, R304). -/
def State.openPlace (s : State) (n : Nat) (q : OpenReq) : Except RetCode Nat :=
  if (s.stream n).st ≠ .closed ∨ (s.epStream q.prod).isSome ∨ (s.epStream q.cons).isSome then .error .REFUSED_IN_USE
  else if !q.buffered then .ok 0
  else match q.base with
    | some b => if s.ringFree b (b + 9 * q.len) then .ok b else .error .REFUSED_IN_USE
    | none => match s.ringPlace q.len with
      | some b => .ok b
      | none => .error .BUDGET_EXCEEDED

/-- Open stream `n`: ring placed, configuration written, counters cleared, credits initialised, state OPEN (R299). -/
def State.strOpen (s : State) (n : Nat) (q : OpenReq) (base : Nat) : State :=
  let k := strKey n
  let s := if q.buffered then (s.put (k R.STR_RING_BASE) F.STR_RING_BASE_BASE (base / 4096)).put (k R.STR_RING_LEN) F.STR_RING_LEN_LEN q.len
    else s
  let s := s.wr (k R.STR_CFG)
    (word (b2n q.sched * 2 ^ 30 + b2n q.buffered * 2 ^ 29 + q.tenant * 2 ^ 23 + q.gcred * 2 ^ 16 + q.unit.getD (s.strUnit n)))
  let s := s.wr (k R.STR_ENDS) (word (q.prod * 2 ^ 16 + q.cons))
  let s := match q.late with | some l => s.put (k R.STR_LATE) F.STR_LATE_LATE l | none => s
  let s := (List.range 8).foldl (fun t i => t.wr (k (R.STR_COUNT i)) 0) s
  s.setStream n { Stream.closed with st := .open_ }

/-- What the registers of stream `n` would open (STR_CFG.OPEN, R298). -/
def State.openReqOf (s : State) (n : Nat) : OpenReq :=
  { sched := s.strSched n, buffered := s.strBuffered n, tenant := s.strTenant n, prod := s.strProducer n,
    cons := s.strConsumer n, base := some (s.strRingBase n), len := s.strRingLen n, late := none,
    gcred := s.strGcred n, unit := some (s.strUnit n) }

/-- Step 1 of bind-off (Table 8-5): state BINDING, units not yet released discarded. -/
def State.strBind (s : State) (n timeoutMs : Nat) (openId : Option Nat) : State :=
  let s := s.strSettle n
  let x := s.stream n
  let drop := if s.strSched n then (x.marks.filter (fun p => decide (x.relTo ≤ p.1) && decide (p.2 = .elem))).length else 0
  let x := { x with
    st := .binding, seamQueued := false, bindDiscards := drop, bindOpen := openId,
    bindDeadline := s.stamp + timeoutMs * 1000000,
    marks := if s.strSched n then x.marks.filter (fun p => decide (p.1 < x.relTo)) else x.marks }
  let s := s.setStream n x
  if drop = 0 then s else s.strCount n 7 drop

/-- Step 2 of bind-off: the final seam takes its place after the last deliverable element. -/
def State.strFinal (s : State) (n : Nat) : State :=
  let x := s.stream n
  let t := x.pend.foldl (fun t u => max t ((u.latest + 1535) / 1536)) s.stamp
  let s := (s.reach t).strSettle n
  let x := s.stream n
  s.setStream n { x with final := some (if s.strSched n then x.relTo else x.wpos) }

/-- Step 3′: the bind-off times out; what is still held is discarded and counted. -/
def State.strTimeout (s : State) (n : Nat) : State :=
  let x := s.stream n
  let s := s.reach x.bindDeadline
  let held := x.fill + x.inbox.length + x.outbox.length
  let s := if held = 0 then s else s.strCount n 7 held
  (s.report 0x30 n).strClose n .BUDGET_EXCEEDED

/-! ### Registers computed on reading -/

/-- STR_STATUS. -/
def State.strStatus (s : State) (n : Nat) : Word :=
  let x := s.stream n
  word ((match x.st with | .closed => 0 | .open_ => 1 | .binding => 2) * 2 ^ 30 + b2n x.seamQueued * 2 ^ 29 +
    min x.fill (2 ^ 24 - 1))

/-- STR_SEQ; units whose latest usable time has come no longer count. -/
def State.strSeq (s : State) (n : Nat) : Word :=
  let x := s.stream n
  word ((x.pend.filter (fun u => decide (s.fine < u.latest))).length * 2 ^ 24 + x.dpos % 2 ^ 24)

/-- STR_OPENMAP[m]. -/
def State.strOpenMap (s : State) (m : Nat) : Word :=
  word ((List.range 32).foldl (fun a j => a + b2n (decide ((s.stream (32 * m + j)).st ≠ .closed)) * 2 ^ j) 0)

end Sys2Proof.Machine
end

