-- ==== Sys2Proof/Machine/Operands.lean ====
section
/-! DEFINITION. What a tile's slot word names: the slot word and the pattern's control block (Tables 4-6 and 4-7), register
operands with bank privacy (R124 to R127), the operand codes (Table 4-8), tile memory and the address generators (R139,
R143). -/

namespace Sys2Proof.Machine

/-! ### Tiles, wales and registers -/

/-- Wale and position of logical tile `t` (R34). -/
def waleOf (t : Nat) : Nat := t / 16
def posOf (t : Nat) : Nat := t % 16

/-- Tile `t`. -/
def State.tile (s : State) (t : Nat) : Tile := sget (fun _ => Tile.init) s.stitch.tiles t

/-- Replace tile `t`. -/
def State.setTile (s : State) (t : Nat) (x : Tile) : State :=
  { s with stitch := { s.stitch with tiles := sset (fun _ => Tile.init) s.stitch.tiles t x } }

/-- Wale `w`. -/
def State.wale (s : State) (w : Nat) : Wale := sget (fun _ => Wale.init) s.stitch.wales w

/-- Replace wale `w`. -/
def State.setWale (s : State) (w : Nat) (x : Wale) : State :=
  { s with stitch := { s.stitch with wales := sset (fun _ => Wale.init) s.stitch.wales w x } }

/-- The pattern of tile `t` that the last switch named (WAL_ACTIVE). -/
def State.activePat (s : State) (t : Nat) : Nat :=
  s.get (R.WAL_ACTIVE (waleOf t) (posOf t / 8)) (F.WAL_ACTIVE_PAT (posOf t % 8))

/-- Pattern `p` of tile `t` is marked valid. -/
def State.patValid (s : State) (t p : Nat) : Bool := s.bit (R.WAL_PATVALID (waleOf t) (posOf t)) p

/-- Tile `t` runs the null pattern; has finished its loop nest. -/
def State.tileNull (s : State) (t : Nat) : Bool := s.bit (R.WAL_STATUS (waleOf t)) (posOf t)
def State.tileDone (s : State) (t : Nat) : Bool := s.bit (R.WAL_STATUS (waleOf t)) (16 + posOf t)

/-- Set a sticky flag of tile `t`: 0 SAT, 1 ACCOV, 2 FPINV, 3 BADPAT, 4 BANKOWN; the last two are contained faults of the
tile (R123). -/
def State.sticky (s : State) (t flag : Nat) : State :=
  let s := s.raise (R.WAL_STICKY (waleOf t) (posOf t)) flag
  if 3 ≤ flag then s.report 0x12 t else s

/-- Set a sticky flag when the condition holds. -/
def State.stickyIf (s : State) (t flag : Nat) (b : Bool) : State := if b then s.sticky t flag else s

/-! ### Stored patterns (R144) -/

/-- Byte `i` of pattern `p` of tile `t`; bytes 6144 to 6151 are its riser record (Table 6-6). -/
def State.patByte (s : State) (t p i : Nat) : Nat :=
  (sget (fun _ => (0 : Byte)) s.stitch.pats ((t * 16 + p) * 6152 + i)).toNat

/-- `n` bytes of a pattern from offset `i`, little-endian. -/
def State.patBytes (s : State) (t p i n : Nat) : Nat :=
  (List.range n).foldr (fun j acc => acc * 256 + s.patByte t p (i + j)) 0

/-- Bits of the control block word at offset `off` (Table 4-6). -/
def State.patF (s : State) (t p off hi lo : Nat) : Nat := bitsOf (s.patBytes t p off 4) hi lo

def State.patII (s : State) (t p : Nat) : Nat := s.patF t p 0 22 16
def State.patSC (s : State) (t p : Nat) : Nat := s.patF t p 0 12 8
def State.patBanks (s : State) (t p : Nat) : Nat := s.patF t p 0 3 0
def State.patL1 (s : State) (t p : Nat) : Nat := s.patF t p 4 31 16
def State.patL0 (s : State) (t p : Nat) : Nat := s.patF t p 4 15 0
def State.patL2 (s : State) (t p : Nat) : Nat := s.patF t p 8 31 16
/-- OC`c` forwards a switch token; IC`c` acts on switch tokens. -/
def State.tokenFwd (s : State) (t p c : Nat) : Bool := s.patF t p 8 (8 + c) (8 + c) == 1
def State.tokenEn (s : State) (t p c : Nat) : Bool := s.patF t p 8 c c == 1
/-- The receive buffer that feeds IC`c`: key 4 × port + channel. -/
def State.icKey (s : State) (t p c : Nat) : Nat :=
  let b := s.patByte t p (0x90 + c)
  4 * bitsOf b 6 4 + bitsOf b 1 0

/-- The routing byte of output port `P`, channel `h`: VALID, PASS, source. -/
def State.route (s : State) (t p port h : Nat) : Nat := s.patByte t p (0x98 + 4 * port + h)

/-- The output (key 4 × port + channel) that OC`c` drives. -/
def State.ocKey (s : State) (t p c : Nat) : Option Nat :=
  (List.range 24).find? (fun k =>
    let b := s.route t p (k / 4) (k % 4)
    b.testBit 7 && !b.testBit 6 && decide (b % 4 = c))

/-- A slot word (Table 4-7). -/
structure SlotWord where
  opc : Nat
  pinv : Bool
  psel : Nat
  stage : Nat
  dst : Nat
  a : Nat
  b : Nat
  c : Nat
  ty : Nat
  shf : Nat
  rnd : Nat
  mod : Nat
  ag : Nat
  imm : Nat
  deriving DecidableEq, Repr

/-- The fields of an 80-bit slot word. -/
def slotOf (n : Nat) : SlotWord :=
  { opc := bitsOf n 79 74, pinv := n.testBit 73, psel := bitsOf n 72 70, stage := bitsOf n 69 66, dst := bitsOf n 65 60,
    a := bitsOf n 59 53, b := bitsOf n 52 46, c := bitsOf n 45 39, ty := bitsOf n 38 37, shf := bitsOf n 36 32,
    rnd := bitsOf n 31 30, mod := bitsOf n 29 24, ag := bitsOf n 23 20, imm := bitsOf n 15 0 }

/-- A MOD bit of Table 4-4. -/
def SlotWord.m (w : SlotWord) (i : Nat) : Bool := w.mod.testBit i

/-- Slot `k` of unit `u` of pattern `p` of tile `t`. -/
def State.slotWord (s : State) (t p u k : Nat) : SlotWord := slotOf (s.patBytes t p (0x400 + 10 * (64 * u + k)) 10)

/-! ### Operands -/

/-- Where an operation executes: the state and the tile at the start of its cycle, its tile, unit, pattern and slot word. -/
structure OpCtx where
  s : State
  x : Tile
  t : Nat
  u : Nat
  p : Nat
  w : SlotWord

/-- Bank `b` of tile `t` is private to another pattern than `p` (R125, R126). -/
def State.bankForeign (s : State) (t p b : Nat) : Bool :=
  let m := s.rd (R.WAL_BANKMAP (waleOf t) (posOf t))
  m.bit (5 * b + 4) && decide (m.bits (5 * b + 3) (5 * b) ≠ p)

/-- Register `r` of the unit: 0 when its bank belongs to another pattern. DESIGN CHOICE (log entry 64): numbers past 63 start again
at 0. -/
def OpCtx.reg (e : OpCtx) (r : Nat) : Word :=
  if e.s.bankForeign e.t e.p (r % 64 / 16) then 0 else sget (fun _ => (0 : Word)) e.x.regs (64 * e.u + r % 64)

/-- Accumulator `a` of the unit: 0 when its bank belongs to another pattern. -/
def OpCtx.acc (e : OpCtx) (a : Nat) : Int × Int :=
  if e.s.bankForeign e.t e.p a then (0, 0) else sget (fun _ => ((0, 0) : Int × Int)) e.x.acc (4 * e.u + a)

/-- Predicate `i` of the unit: p0 reads 1 (R127). -/
def Tile.pred (x : Tile) (u i : Nat) : Bool := i == 0 || sget (fun _ => false) x.preds (8 * u + i)

/-- The immediate by data type (Table 4-8). -/
def immOf (ty imm : Nat) : Word :=
  match ty with
  | 3 => word (unsgn 32 (sgn 16 imm))
  | 2 => word (imm % 256 * 0x01010101)
  | _ => word (imm % 65536 * 0x10001)

/-- The operand a code names (Table 4-8), `k` registers on for a register of a pair or group. DESIGN CHOICE (log entry 64): a + k past
register 63 wraps to register 0, and an operand that is no register gives its own value for every k. -/
def OpCtx.operand (e : OpCtx) (code : Nat) (k : Nat := 0) : Word :=
  if code < 0x40 then e.reg (code + k)
  else if code = 0x41 then immOf e.w.ty e.w.imm
  else if 0x44 ≤ code ∧ code ≤ 0x47 then word (sget (fun _ => 0) e.x.sb (code - 0x44))
  else if 0x48 ≤ code ∧ code ≤ 0x4F then sget (fun _ => (0 : Word)) e.x.xr (code - 0x48)
  else 0

def OpCtx.a (e : OpCtx) (k : Nat := 0) : Word := e.operand e.w.a k
def OpCtx.b (e : OpCtx) : Word := e.operand e.w.b
def OpCtx.c (e : OpCtx) : Word := e.operand e.w.c

/-! ### Tile memory and address generators -/

/-- Byte `a` of the memory of tile `t` (addresses wrap modulo 131 072). -/
def State.tmem (s : State) (t a : Nat) : Byte := sget (fun _ => (0 : Byte)) s.stitch.mem (t * 131072 + a % 131072)

/-- Store a byte of the memory of tile `t`. -/
def State.setTmem (s : State) (t a : Nat) (b : Byte) : State :=
  { s with stitch := { s.stitch with mem := sset (fun _ => (0 : Byte)) s.stitch.mem (t * 131072 + a % 131072) b } }

/-- The 32-bit word of tile memory at a 4-byte boundary. -/
def State.tmem32 (s : State) (t a : Nat) : Word :=
  word ((List.range 4).foldr (fun i acc => acc * 256 + (s.tmem t (a / 4 * 4 + i)).toNat) 0)

/-- Store a list of bytes from address `a`. -/
def State.setTmems (s : State) (t a : Nat) (bs : List Byte) : State :=
  bs.zipIdx.foldl (fun s p => s.setTmem t (a + p.2) p.1) s

/-- Fields of generator `g` (Table 4-6). -/
def State.agBase (s : State) (t p g : Nat) : Nat := s.patF t p (0x10 + 16 * g) 16 0
def State.agMode (s : State) (t p g : Nat) : Nat := s.patF t p (0x10 + 16 * g) 19 18
def State.agPassReset (s : State) (t p g : Nat) : Bool := s.patF t p (0x10 + 16 * g) 20 20 == 1
def State.agBits (s : State) (t p g : Nat) : Nat := s.patF t p (0x10 + 16 * g) 27 24
def State.agStep (s : State) (t p g : Nat) : Int := sgn 18 (s.patF t p (0x14 + 16 * g) 17 0)
def State.agLen (s : State) (t p g : Nat) : Nat := s.patF t p (0x18 + 16 * g) 17 0
def State.agOffs0 (s : State) (t p g : Nat) : Nat := s.patF t p (0x1C + 16 * g) 16 0

/-- The low `n` bits of `v` reversed. -/
def revBits (n v : Nat) : Nat := (List.range n).foldl (fun a i => a * 2 + v / 2 ^ i % 2) 0

/-- OFFS of generator `g`. -/
def Tile.offs (x : Tile) (g : Nat) : Nat := sget (fun _ => 0) x.agOffs g

/-- The address generator `g` forms now (Table 4-5). -/
def State.agAddr (s : State) (t p : Nat) (x : Tile) (g : Nat) : Nat :=
  let base := s.agBase t p g
  match s.agMode t p g with
  | 2 => (((base : Int) + s.agStep t p g * (revBits (s.agBits t p g) (x.offs g) : Nat)) % 131072).toNat
  | _ => (base + x.offs g) % 131072

/-- OFFS after an access that executes (Table 4-5). -/
def State.agNext (s : State) (t p : Nat) (x : Tile) (g : Nat) : Nat :=
  let o : Int := x.offs g
  match s.agMode t p g with
  | 1 => ((o + s.agStep t p g) % (max 1 (s.agLen t p g) : Nat)).toNat
  | 2 => (x.offs g + 1) % 2 ^ s.agBits t p g
  | _ => ((o + s.agStep t p g) % 131072).toNat

/-- Set OFFS of generator `g`. -/
def Tile.setOffs (x : Tile) (g v : Nat) : Tile := { x with agOffs := sset (fun _ => 0) x.agOffs g v }

end Sys2Proof.Machine
end

