-- ==== Sys2Proof/Machine/SwatchOps.lean ====
section
/-! DEFINITION. The shared operations of the swatch controller (spec/20): holding a spare, marks, result records, ending and
abandoning a swatch. -/

namespace Sys2Proof.Machine

/-- The swatch controller holds the spare of wale `w` (R173, R622): a rotation of the wale is not over, a tile that a rotation step has isolated
is still to be tested, or a TILE swatch runs in the wale. -/
def State.spareHeld (s : State) (w : Nat) : Bool :=
  s.swt.rotating == some w ||
  s.swt.queue.any (fun q => q.cls == .rotation && decide (q.kind = 1 ∧ q.target / 32 = w)) ||
  (match s.swt.running with | some r => decide (r.req.kind = 1 ∧ r.req.target / 32 = w) | none => false)

/-- The rotation of wale `w`, if it is this wale's, is over: the next wale's turn comes (R621). -/
def State.rotationOver (s : State) (w : Nat) : State :=
  if s.swt.rotating = some w then { s with swt := { s.swt with rotating := none } }.put R.SWT_ROT F.SWT_ROT_WALE ((w + 1) % 40) else s

/-- The test of a rotation's last step, of the spare itself, has ended (R620). -/
def State.rotationPast (s : State) (q : SwReq) : State :=
  if q.cls = .rotation ∧ q.target % 32 = 16 then s.rotationOver (q.target / 32) else s

/-- Spare columns of a sheet after physical column `c` is taken out too; none when both are in use. With SPARE_AT0 ≤ SPARE_AT1 the columns
left out are SPARE_AT0 and SPARE_AT1 + 1 (R177, R625). -/
def spareColumns (a b c : Nat) : Option (Nat × Nat) :=
  if a = 192 then some (min c 192, 192)
  else if b = 192 then some (if c < a then (c, a - 1) else (a, c - 1))
  else none

/-- The physical column of logical column `x` under repair points `a` and `b` (R177). -/
def physColumn (a b x : Nat) : Nat := x + b2n (decide (a ≤ x)) + b2n (decide (b ≤ x))

/-- The physical column of logical column `x` of sheet `n` (R177). -/
def State.sheetColumn (s : State) (n x : Nat) : Nat :=
  physColumn (s.get (R.SHT_REPAIR n) F.SHT_REPAIR_SPARE_AT0) (s.get (R.SHT_REPAIR n) F.SHT_REPAIR_SPARE_AT1) x

/-- Physical column `c` of sheet `n` is taken out of use, where a spare is left. -/
def State.spareColumn (s : State) (n c : Nat) : Option State :=
  let k := R.SHT_REPAIR n
  (spareColumns (s.get k F.SHT_REPAIR_SPARE_AT0) (s.get k F.SHT_REPAIR_SPARE_AT1) c).map (fun p =>
    (s.put k F.SHT_REPAIR_SPARE_AT0 p.1).put k F.SHT_REPAIR_SPARE_AT1 p.2)

/-- A resource is marked unusable (Table 20-3). -/
def State.marked (s : State) (kind target : Nat) : Bool := s.swt.marked.contains (kind, target)

/-- Word 0 of a result record (Table 20-4). -/
def resultWord (kind status repair step target : Nat) : Word :=
  word (kind * 2 ^ 28 + status * 2 ^ 24 + repair * 2 ^ 20 + step * 2 ^ 16 + target % 2 ^ 16)

/-- Append a result record, the oldest going when 64 are held (R628). -/
def State.swtLog (s : State) (r : SwRun) (status repair where_ bit : Nat) : State :=
  let rec_ := [resultWord r.req.kind status repair r.step r.req.target, word where_, word bit, 0, loWord r.start, hiWord r.start,
    word ((s.stamp - r.start) / 1000), 0]
  let l := s.swt.log ++ [rec_]
  { s with swt := { s.swt with log := if 64 < l.length then l.drop 1 else l } }

/-! ### Repairs, marks and the ends of lasting outcomes (R601, R625 to R627) -/

/-- A repair takes effect: counted by kind, journalled with the failure found. -/
def State.softRepair (s : State) (r : Repair) (where_ bit : Nat) : State :=
  let s := { s with swt := { s.swt with soft := s.swt.soft ++ [r] } }
  let ctr := match r.kind with | 1 => 59 | 2 => 60 | 4 => 61 | 9 => 62 | _ => 63
  ((s.bump (R.SWT_COUNT 3)).gazInc ctr).journal 0x08 (if r.kind = 9 then 1 else r.kind) r.target (word where_) (word bit)

/-- The repairs in force: those of the fuses as last loaded and the soft ones. -/
def State.repairs (s : State) : List Repair := s.swt.loaded ++ s.swt.soft

/-- The lasting outcomes of keys have ended. -/
def State.outcomeEnd (s : State) (keys : List (Nat × Nat)) (noSpare marked : Bool) : State :=
  { s with flt := { s.flt with ended := s.flt.ended ++ keys.map (fun k => ⟨k.1, k.2, noSpare, marked⟩) } }

/-- Something is still to be done for a key. -/
def State.outcomeOpen (s : State) (k : Nat × Nat) : Bool :=
  s.swt.queue.any (fun q => q.keys.contains k) || s.swt.remaps.any (fun q => q.keys.contains k) ||
  s.swt.retire.any (fun q => q.keys.contains k) ||
  (match s.swt.running with | some r => r.req.keys.contains k | none => false) ||
  (match s.swt.retiring with | some r => r.keys.contains k | none => false)

/-- A part of the outcome of keys is done; those with nothing left to do have ended. -/
def State.outcomePart (s : State) (keys : List (Nat × Nat)) : State :=
  s.outcomeEnd (keys.filter (fun k => !s.outcomeOpen k)) false false

/-- Keys whose outcome has failed ask for nothing more. -/
def State.dropKeys (s : State) (keys : List (Nat × Nat)) : State :=
  let keep (l : List (Nat × Nat)) : List (Nat × Nat) := l.filter (fun k => !keys.contains k)
  { s with swt := { s.swt with
    queue := s.swt.queue.map (fun (q : SwReq) => { q with keys := keep q.keys }),
    remaps := s.swt.remaps.map (fun (q : Remap) => { q with keys := keep q.keys }) } }

/-- A resource is marked unusable, in MRAM and at once (R627): by its target, a store-tier row by the 64 KiB block it serves. -/
def State.markUnusable (s : State) (kind target where_ : Nat) : State :=
  let m : Nat × Nat := (kind, if kind = 5 then where_ / 65536 else target)
  if s.swt.marked.contains m then s
  else
    let s := { s with swt := { s.swt with
      marks := if s.swt.marks.contains m then s.swt.marks else s.swt.marks ++ [m],
      marked := s.swt.marked ++ [m] } }
    ((s.bump (R.SWT_COUNT 5)).gazInc 65).journal 0x09 kind target (word where_) 0

/-- A resource that COMPAT_MARK can mark (Table 20-3). -/
def markable (kind : Nat) : Bool := [1, 2, 4, 5, 7].contains kind

/-- A tenant has the resource to itself: a tile by its wale, a sheet, a block by its sheet. -/
def State.ofTenant (s : State) (kind target : Nat) : Bool :=
  match kind with
  | 1 => (s.tenantOfWale (target / 32)).isSome
  | 2 => (s.tenantOfSheet target).isSome
  | 4 => (s.tenantOfSheet (target / 128)).isSome
  | _ => false

/-- A failure without a spare: the resource is marked under COMPAT_MARK; its outcome ends with NO_SPARE. Answers REPAIR of the result
record. -/
def State.noSpareLeft (s : State) (kind target where_ : Nat) (keys : List (Nat × Nat)) : Nat × State :=
  let s := s.dropKeys keys
  if s.policy 2 && markable kind then
    (3, (s.markUnusable kind target where_).outcomeEnd keys true (s.ofTenant kind target))
  else (2, s.outcomeEnd keys true false)

/-! ### Requests -/

/-- A request joins the queue, or merges with one for the same resource (R624). -/
def State.swtRequest (s : State) (q : SwReq) : State :=
  if s.swt.queue.any (fun x => decide (x.kind = q.kind ∧ x.target = q.target)) then
    { s with swt := { s.swt with queue := s.swt.queue.map (fun (x : SwReq) =>
        if x.kind = q.kind ∧ x.target = q.target then
          { x with cls := if q.cls = .lasting then .lasting else x.cls, keys := x.keys ++ q.keys, opens := x.opens ++ q.opens }
        else x) } }
  else { s with swt := { s.swt with queue := s.swt.queue ++ [q] } }

/-- A swatch that a lasting outcome asks for. -/
def State.swtLasting (s : State) (kind target : Nat) (key : Nat × Nat) : State :=
  s.swtRequest ⟨.lasting, kind, target, 2000, s.stamp, [], 1, false, [key]⟩

/-- The swatch of the tile that a rotation step has isolated at position `upto` of wale `w` (R620). -/
def State.rotationTest (s : State) (w upto : Nat) : State := s.swtRequest ⟨.rotation, 1, 32 * w + upto, 2000, s.stamp, [], 1, false, []⟩

/-- The running swatch ends: its record is written, its commands complete with the record's word 0 (R628, R632). -/
def State.swtEnd (s : State) (r : SwRun) (status repair where_ bit : Nat) (rc : RetCode) : State :=
  let s := s.swtLog r status repair where_ bit
  let s := { s with swt := { s.swt with running := none } }
  let s := if status < 3 then s.bump (R.SWT_COUNT status) else s
  let s := if status = 2 then s else s.rotationPast r.req
  r.req.opens.foldl (fun s id => s.complete id rc [resultWord r.req.kind status repair r.step r.req.target]) s

/-- The running swatch is abandoned at once when it satisfies `p` (R624); a SWT.RUN of it completes with BUSY. -/
def State.swtAbandon (s : State) (p : SwReq → Bool) : State :=
  match s.swt.running with
  | some r => if p r.req then (s.swtEnd r 2 0 0 0 .BUSY).rotationPast r.req else s
  | none => s

end Sys2Proof.Machine
end

