-- ==== Sys2Proof/Machine/StitchOps.lean ====
section
/-! DEFINITION. How a tile issues: which slots execute in a cycle (R138, R146, R159), when it stalls (R147), where results
land (R128, R129), links, risers and gates (R149 to R154), seams at pass starts (R293) and pattern switches (R156 to R161). -/

namespace Sys2Proof.Machine

/-! ### Risers between tiles and sheets (R178, R231 to R235) -/

/-- The sheet above which tile `t` stands, and the riser port of its DN`d` (R178). -/
def riserOf (t d : Nat) : Nat × Nat :=
  let w := waleOf t
  let q := posOf t
  (8 * (q / 4) + w / 5, 8 * (w % 5) + 2 * (q % 4) + d)

/-- The tile and DN number behind riser port `k` of sheet `n`. -/
def tileOfRiser (n k : Nat) : Nat × Nat :=
  (16 * (5 * (n % 8) + k / 8) + 4 * (n / 8) + k % 8 / 2, k % 2)

/-- The orientation the tile end requests: that of its active pattern, OFF when none is active or the null pattern runs. -/
def State.tileOrient (s : State) (t d : Nat) : Nat :=
  if (s.tile t).live && !s.tileNull t then s.patByte t (s.activePat t) (6144 + d) % 4 else 0

/-- The active plane of sheet `n`, if any. -/
def State.activePlane (s : State) (n : Nat) : Option Nat :=
  if s.flag (R.SHT_STATUS n) F.SHT_STATUS_NONE_ACTIVE then none else some (s.get (R.SHT_STATUS n) F.SHT_STATUS_ACTIVE_PLANE)

/-- Byte `i` of the control of plane `p` of sheet `n` (Table 7-9). -/
def State.planeByte (s : State) (n p i : Nat) : Nat :=
  (sget (fun _ => (0 : Byte)) s.fabric.ctrl (688 * (4 * n + p) + i)).toNat

/-- The orientation plane `p` of sheet `n` requests for riser port `k` (RPORIENT). -/
def State.planeOrient (s : State) (n p k : Nat) : Nat := s.planeByte n p (0x19A + k / 4) / 4 ^ (k % 4) % 4

/-- The orientation the sheet end requests. -/
def State.sheetOrient (s : State) (n k : Nat) : Nat :=
  match s.activePlane n with
  | some p => s.planeOrient n p k
  | none => 0

/-- Both ends request different non-OFF orientations. -/
def State.riserClash (s : State) (n k : Nat) : Bool :=
  let (t, d) := tileOfRiser n k
  let a := s.sheetOrient n k
  let b := s.tileOrient t d
  a != 0 && b != 0 && a != b

/-- After a switch at either end of riser port `k`: a disagreement is timed from the edge at which it arises (R235);
a RISER swatch of a port that is now requested is abandoned (R624). -/
def State.riserTouch (s : State) (n k : Nat) : State :=
  let key := 40 * n + k
  let old := sget (fun _ => none) s.fabric.disagree key
  let new := if s.riserClash n k then (match old with | some x => some x | none => some (s.stamp, false)) else none
  let (t, d) := tileOfRiser n k
  let s := if s.sheetOrient n k ≠ 0 ∨ s.tileOrient t d ≠ 0 then
      s.swtAbandon (fun q => decide (q.kind = 3 ∧ q.target = 64 * n + k)) else s
  { s with fabric := { s.fabric with disagree := sset (fun _ => none) s.fabric.disagree key new } }

/-! ### Links -/

/-- Capacity of a receive buffer by input port (R150). -/
def inCap (port : Nat) : Nat := if port = 0 ∨ port = 2 then 4 else 12

/-- The neighbouring tile and input port that output `port` of tile `t` reaches, if it is a tile. -/
def linkTo (t port : Nat) : Option (Nat × Nat) :=
  let w := waleOf t
  let q := posOf t
  match port with
  | 0 => if q < 15 then some (t + 1, 2) else none
  | 1 => if w < 39 then some (t + 16, 3) else none
  | 2 => if 0 < q then some (t - 1, 0) else none
  | 3 => if 0 < w then some (t - 16, 1) else none
  | _ => none

/-- The gate channel that output `port`, channel `h` of tile `t` feeds (R154). -/
def gateOut (t port h : Nat) : Option Nat :=
  if port = 2 ∧ posOf t = 0 then some (8 + h) else if port = 0 ∧ posOf t = 15 then some (12 + h) else none

/-- The stream an enabled and bound gate channel passes: not CLOSED, with this channel as endpoint, and the wale not
shifting. -/
def State.gateStream (s : State) (w g : Nat) : Option Nat :=
  let n := s.get (R.WAL_GATE w g) F.WAL_GATE_STREAM
  let ep := if g < 8 then s.strConsumer n else s.strProducer n
  if s.gateOn w g n && decide ((s.stream n).st ≠ .closed) && decide (ep = gateEp w g) then some n
  else none

/-- Elements a tile's receive buffer holds. -/
def Tile.held (x : Tile) (key : Nat) : List Elem := sget (fun _ => []) x.inBuf key
/-- Elements an output buffer holds. -/
def Tile.out (x : Tile) (key : Nat) : List Elem := sget (fun _ => []) x.outBuf key

/-- Output `port`, channel `h` of tile `t` holds a credit: tile neighbours and risers count credits, a gate channel has
room for 64 elements while it passes a stream. -/
def State.linkRoom (s : State) (t port h : Nat) : Bool :=
  let x := s.tile t
  let spent := sget (fun _ => 0) x.spent (4 * port + h)
  if 4 ≤ port then decide (spent < 12) && decide (s.tileOrient t (port - 4) ≠ 0)
  else match linkTo t port with
    | some (_, rp) => decide (spent < inCap rp)
    | none => match gateOut t port h with
      | some g => (match s.gateStream (waleOf t) g with
        | some n => decide ((s.stream n).outbox.length < 64)
        | none => false)
      | none => false

/-- Send `e` from output `port`, channel `h` of tile `t`, spending a credit. -/
def State.linkSend (s : State) (t port h : Nat) (e : Elem) : State :=
  let key := 4 * port + h
  let x := s.tile t
  let spend := s.setTile t { x with spent := sset (fun _ => 0) x.spent key (sget (fun _ => 0) x.spent key + 1) }
  if 4 ≤ port then
    let (n, k) := riserOf t (port - 4)
    let rk := 4 * (40 * n + k) + h
    { spend with fabric := { spend.fabric with
        rx := sset (fun _ => []) spend.fabric.rx rk (sget (fun _ => []) spend.fabric.rx rk ++ [e]) } }
  else match linkTo t port with
    | some (t', rp) =>
      let y := spend.tile t'
      spend.setTile t' { y with inBuf := sset (fun _ => []) y.inBuf (4 * rp + h) (y.held (4 * rp + h) ++ [e]) }
    | none => match gateOut t port h with
      | some g => (match s.gateStream (waleOf t) g with
        | some n => s.setStream n { s.stream n with outbox := (s.stream n).outbox ++ [e] }
        | none => s)
      | none => s

/-- The switch window of the selvedge cells of tile `t`'s DN0 and DN1 is open: no wale clock period has passed since its edge (R227). -/
def State.dnOpen (s : State) (t : Nat) : Bool :=
  match (s.tile t).dnEdge with
  | some e => decide ((s.stamp - e) * s.khzOf (32 + waleOf t) < 1000000)
  | none => false

/-- It closes: credits held in it are delivered (R229). -/
def State.dnClose (s : State) (t : Nat) : State :=
  let x := s.tile t
  if x.dnEdge.isNone then s
  else s.setTile t { x with
    dnEdge := none, heldCredit := []
    spent := x.heldCredit.foldl (fun m e => sset (fun _ => 0) m e.1 (sget (fun _ => 0) m e.1 - e.2)) x.spent }

/-- It closes when its period has passed. -/
def State.dnSettle (s : State) (t : Nat) : State := if s.dnOpen t then s else s.dnClose t

/-- A credit comes back to output `key` of tile `t`; one from a riser is held while the window is open. -/
def State.creditBack (s : State) (t key : Nat) : State :=
  let s := s.dnSettle t
  let x := s.tile t
  s.setTile t (if s.dnOpen t && decide (16 ≤ key) then
      { x with heldCredit := sset (fun _ => 0) x.heldCredit key (sget (fun _ => 0) x.heldCredit key + 1) }
    else { x with spent := sset (fun _ => 0) x.spent key (sget (fun _ => 0) x.spent key - 1) })

/-- Replace an output buffer. -/
def State.setOut (s : State) (t key : Nat) (l : List Elem) : State :=
  let x := s.tile t
  s.setTile t { x with outBuf := sset (fun _ => []) x.outBuf key l }

/-- Take the head of a receive buffer; its place is owed to the sender as a credit. -/
def State.takeIn (s : State) (t key : Nat) : State :=
  let x := s.tile t
  match x.held key with
  | [] => s
  | _ :: rest => s.setTile t { x with
      inBuf := sset (fun _ => []) x.inBuf key rest
      owed := sset (fun _ => 0) x.owed key (sget (fun _ => 0) x.owed key + 1) }

/-- The stream that a receive buffer is fed from directly, where a gate channel feeds it. -/
def State.feedStream (s : State) (t key : Nat) : Option Nat :=
  if posOf t = 0 ∧ key / 4 = 2 then s.gateStream (waleOf t) (key % 4)
  else if posOf t = 15 ∧ key / 4 = 0 then s.gateStream (waleOf t) (4 + key % 4)
  else none

/-! ### Which slots execute -/

/-- The wale's clock runs, no shift is in progress, and FREEZE is clear. -/
def State.waleRuns (s : State) (w : Nat) : Bool :=
  s.islandRuns (32 + w) && (s.wale w).shift.isNone

/-- Tile `t` may issue but for FREEZE: a pattern is active and neither null nor done, the wale runs, and no drain has reached its end. -/
def State.tileRuns (s : State) (t : Nat) : Bool :=
  let x := s.tile t
  decide (t < 640) && x.live && !s.tileNull t && !s.tileDone t && s.waleRuns (waleOf t) &&
  (match x.drain with | some d => decide (d.left ≠ 0) | none => true)

/-- Tile `t` may issue: the wale is not frozen either. -/
def State.tileReady (s : State) (t : Nat) : Bool := s.tileRuns t && !s.flag (R.WAL_CTRL (waleOf t)) F.WAL_CTRL_FREEZE

/-- The slot word `w` of unit `u` executes in the present cycle (R138, R146), outside what a drain suppresses (R159). -/
def State.executes (s : State) (t u : Nat) (w : SlotWord) : Bool :=
  let x := s.tile t
  decide (w.stage ≤ x.iter) && decide (x.iter - w.stage < s.patL0 t (s.activePat t)) &&
  (x.pred u w.psel != w.pinv) &&
  (match x.drain with
    | some d => decide (w.stage ≠ 0) && !(decide (w.opc = 0x13) && decide (w.ag % 4 = d.chan))
    | none => true)

/-- The slots that execute in the present cycle, by unit. -/
def State.liveSlots (s : State) (t : Nat) : List (Nat × SlotWord) :=
  let x := s.tile t
  ((List.range 8).map (fun u => (u, s.slotWord t (s.activePat t) u x.slot))).filter (fun p => s.executes t p.1 p.2)

/-- Channel `h` of output `port` of tile `t` has an element and a credit: what its buffer holds, else a pass-through. -/
def State.linkReady (s : State) (t port h : Nat) : Option (Elem × Option Nat) :=
  let x := s.tile t
  if !s.linkRoom t port h then none
  else match x.out (4 * port + h) with
    | e :: _ => some (e, none)
    | [] =>
      let b := s.route t (s.activePat t) port h
      let key := 4 * (b / 8 % 8) + b % 4
      if b.testBit 7 && b.testBit 6 then
        match x.held key with
        | e :: _ => some (e, some key)
        | [] => none
      else none

/-- Channel `h` holds a credit and the arbiter of output `port` would take it before any other channel that is ready (R151). -/
def State.portWins (s : State) (t port h : Nat) : Bool :=
  let ptr := sget (fun _ => 0) (s.tile t).rr port
  s.linkRoom t port h &&
  ((List.range 4).map (fun i => (ptr + i) % 4)).find? (fun k => decide (k = h) || (s.linkReady t port k).isSome) == some h

/-- The arbiter's pointer moves past its winner (R151). -/
def State.portMoves (s : State) (t port h : Nat) : State :=
  let x := s.tile t
  s.setTile t { x with rr := sset (fun _ => 0) x.rr port ((h + 1) % 4) }

/-- Elements that OC `c` can take in one cycle: what its output buffer has room for, and one more when its channel wins the port. -/
def State.outSpace (s : State) (t c : Nat) : Nat :=
  match s.ocKey t (s.activePat t) c with
  | some k => 1 - ((s.tile t).out k).length + b2n (s.portWins t (k / 4) (k % 4))
  | none => 8

/-- Elements that IC `c` can deliver in one cycle: those it holds; at a seam, which stays, any number of gaps. -/
def State.inReady (s : State) (t c : Nat) : Nat :=
  let l := (s.tile t).held (s.icKey t (s.activePat t) c)
  if l.any Elem.isSeam then 8 else l.length

/-- An executing SIN finds its input channel empty, or an executing SOUT its output buffer full with no way on (R147); several on one
channel in one cycle need an element or a place each (log entry 64). -/
def State.slotStalls (s : State) (t : Nat) (w : SlotWord) : Bool :=
  let n := (s.liveSlots t).countP (fun l => decide (l.2.opc = w.opc ∧ l.2.ag % 4 = w.ag % 4))
  if w.opc = 0x13 then decide (s.inReady t (w.ag % 4) < n)
  else if w.opc = 0x14 then decide (s.outSpace t (w.ag % 4) < n)
  else false

/-- Advance WAL_COUNT[k] of the tile's wale. -/
def State.walCount (s : State) (t k : Nat) (n : Nat := 1) : State := s.bump (R.WAL_COUNT (waleOf t) k) n

/-! ### Seams (R293, R295) -/

/-- Add an element behind what output `key` still holds. -/
def State.queueOut (s : State) (t key : Nat) (e : Elem) : State := s.setOut t key ((s.tile t).out key ++ [e])

/-- The outputs that the OCs of pattern `p` drive. -/
def State.drivenKeys (s : State) (t p : Nat) : List Nat := (List.range 4).filterMap (s.ocKey t p)

/-- Remove every seam at the heads of the input channels of pattern `p`; answers the lowest SEAM_NO removed. -/
def State.removeSeams (s : State) (t p : Nat) : Option Nat × State :=
  (List.range 4).foldl (fun (m, s) c =>
    let key := s.icKey t p c
    ((s.tile t).held key).takeWhile Elem.isSeam |>.foldl (fun (m, s) e =>
      (match m with | some k => some (min k e.seamNo) | none => some e.seamNo, s.takeIn t key)) (m, s)) (none, s)

/-- Seam `k` goes out on every output that pattern `p` drives, after what stands there. -/
def State.sendSeam (s : State) (t p k : Nat) : State :=
  let s := (s.drivenKeys t p).foldl (fun s key => s.queueOut t key (mkSeam k)) s
  s.setTile t { s.tile t with lastSeam := some k }

/-- At the start of a level-1 pass or at a switch edge: head seams go, and one seam follows on every driven output. -/
def State.passSeams (s : State) (t p : Nat) : State :=
  match s.removeSeams t p with
  | (some k, s) => s.sendSeam t p k
  | (none, s) => s

/-- The input buffers that a SIN of pattern `p` reads. -/
def State.readKeys (s : State) (t p : Nat) : List Nat :=
  let ics := (List.range (s.patII t p)).flatMap (fun k => (List.range 8).filterMap (fun u =>
    let w := s.slotWord t p u k
    if w.opc = 0x13 then some (w.ag % 4) else none))
  ((List.range 4).filter ics.contains).map (s.icKey t p)

/-- A restarting tile sends a gap of COUNT 0 on its outputs, discards each input up to its next seam, and issues nothing until then
(R295). -/
def State.restartTile (s : State) (t : Nat) : State :=
  let p := s.activePat t
  let s := (s.drivenKeys t p).foldl (fun s key => s.queueOut t key (mkGap 0)) s
  let x := s.tile t
  s.setTile t { x with restart := some none, discard := (s.readKeys t p).foldl (fun d k => sset (fun _ => false) d k true) x.discard }

/-- Discard what input `key` holds, up to and including its next seam, in a restart. -/
def State.discardInput (s : State) (t key : Nat) : State :=
  let l := (s.tile t).held key
  let drop := (l.takeWhile (fun e => !e.isSeam)).length
  let seam := l.drop drop
  let gone := drop + min 1 seam.length
  let s := (List.range gone).foldl (fun s _ => s.takeIn t key) s
  let s := match s.feedStream t key with
    | some n => if gone = 0 then s else s.strCount n 7 gone
    | none => s
  match seam with
  | [] => s
  | e :: _ =>
    let x := s.tile t
    let k := match x.restart with | some (some m) => min m e.seamNo | _ => e.seamNo
    s.setTile t { x with discard := sset (fun _ => false) x.discard key false, restart := some (some k) }

/-- A restart goes on: its inputs are discarded; once each has met its seam, the lowest of them goes out, and a level-1 pass starts
(R293, R295). -/
def State.restartGoesOn (s : State) (t : Nat) : State :=
  match (s.tile t).restart with
  | none => s
  | some _ =>
    let s := ((s.tile t).discard.map (·.1)).foldl (fun s key => s.discardInput t key) s
    let x := s.tile t
    if x.discard ≠ [] then s
    else
      let s := match x.restart with | some (some k) => s.sendSeam t (s.activePat t) k | _ => s
      s.setTile t { s.tile t with restart := none, slot := 0, iter := 0 }

/-- Elements that output `port`, channel `h` of tile `t` has sent and that their receiver has not taken are lost, seams apart (R603). -/
def State.linkLost (s : State) (t port h : Nat) : State :=
  let key := 4 * port + h
  let keep (l : List Elem) : List Elem := l.filter Elem.isSeam
  let back (s : State) (n : Nat) : State :=
    let x := s.tile t
    s.setTile t { x with spent := sset (fun _ => 0) x.spent key (sget (fun _ => 0) x.spent key - n) }
  if 4 ≤ port then
    let rk := 4 * (40 * (riserOf t (port - 4)).1 + (riserOf t (port - 4)).2) + h
    let l := sget (fun _ => []) s.fabric.rx rk
    back { s with fabric := { s.fabric with rx := sset (fun _ => []) s.fabric.rx rk (keep l) } } (l.length - (keep l).length)
  else match linkTo t port with
    | some (t', rp) =>
      let y := s.tile t'
      let l := y.held (4 * rp + h)
      back (s.setTile t' { y with inBuf := sset (fun _ => []) y.inBuf (4 * rp + h) (keep l) }) (l.length - (keep l).length)
    | none => match gateOut t port h with
      | some g => (match s.gateStream (waleOf t) g with
        | some n => s.setStream n { s.stream n with outbox := keep (s.stream n).outbox }
        | none => s)
      | none => s

/-- A tile that faults hands its work over at its last seam: what it has sent and its receivers have not taken is lost, and it restarts
(R602, R603). -/
def State.handOver (s : State) (t : Nat) : State :=
  if !(s.tile t).live || s.tileNull t then s
  else
    let s := (s.drivenKeys t (s.activePat t)).foldl (fun s key =>
      (s.setOut t key (((s.tile t).out key).filter Elem.isSeam)).linkLost t (key / 4) (key % 4)) s
    s.restartTile t

/-! ### One cycle -/

/-- A result lands (R121, R127 to R129). -/
def State.land (s : State) (t : Nat) (l : Landing) : State :=
  let x := s.tile t
  match l.tgt with
  | .reg r v main =>
    let x := { x with regs := sset (fun _ => (0 : Word)) x.regs (64 * l.unit + r % 64) v }
    s.setTile t (if main then { x with xr := sset (fun _ => (0 : Word)) x.xr l.unit v } else x)
  | .acc a dI dQ clr =>
    let k := 4 * l.unit + a
    let old := if clr then (0, 0) else sget (fun _ => ((0, 0) : Int × Int)) x.acc k
    let i := clamp40 (old.1 + dI)
    let q := clamp40 (old.2 + dQ)
    (s.setTile t { x with acc := sset (fun _ => ((0, 0) : Int × Int)) x.acc k (i.1, q.1) }).stickyIf t 1 (i.2 || q.2)
  | .pred i v => if i = 0 then s else s.setTile t { x with preds := sset (fun _ => false) x.preds (8 * l.unit + i) v }
  | .sband c v => s.setTile t { x with sb := sset (fun _ => 0) x.sb c v }

/-- One more issuing cycle is counted and the results due land, in order of issue. -/
def State.tickLand (s : State) (t : Nat) : State :=
  let x := s.tile t
  let now := x.cyc + 1
  let due := x.flight.filter (fun l => decide (l.due ≤ now))
  let s := s.setTile t { x with cyc := now, flight := x.flight.filter (fun l => !decide (l.due ≤ now)) }
  due.foldl (fun s l => s.land t l) s

/-- The largest number of accesses of the cycle that fall in one bank (R141). -/
def maxPerBank (banks : List Nat) : Nat := (List.range 16).foldl (fun m b => max m (banks.count b)) 0

/-- The end of a cycle: stores in unit order (R140), conflict stalls counted (R141), accumulators cleared (R131),
generators updated once (R143), results landed. -/
def State.closeCycle (s : State) (t : Nat) : State :=
  let x := s.tile t
  let p := s.activePat t
  let stores := (List.range 8).flatMap (fun u => x.stores.filter (fun st => decide (st.unit = u)))
  let s := stores.foldl (fun s st => s.setTmems t st.addr st.bytes) s
  let stall := maxPerBank x.banks - 1
  let s := if stall = 0 then s else s.walCount t 0 stall
  let x := x.clears.foldl (fun x k => { x with acc := sset (fun _ => ((0, 0) : Int × Int)) x.acc k (0, 0) }) x
  let x0 := x
  let x := x.agUsed.foldl (fun x g => x.setOffs g (s.agNext t p x0 g)) x
  (s.setTile t { x with stores := [], clears := [], agUsed := [], banks := [], issued := [] }).tickLand t

/-- Go on to the next slot, iteration and pass; DONE after the last (R146). -/
def State.advance (s : State) (t : Nat) : State :=
  let x := s.tile t
  let p := s.activePat t
  let x := match x.drain with | some d => { x with drain := some { d with left := d.left - 1 } } | none => x
  if x.slot + 1 < s.patII t p then s.setTile t { x with slot := x.slot + 1 }
  else if x.iter + 1 < s.patL0 t p + s.patSC t p - 1 then s.setTile t { x with slot := 0, iter := x.iter + 1 }
  else
    let more1 := decide (x.pass1 + 1 < s.patL1 t p)
    let l2 := s.patL2 t p
    let fin := !more1 && decide (l2 ≠ 0) && decide (l2 ≤ x.pass2 + 1)
    let x := { x with slot := 0, iter := 0, pass1 := if more1 then x.pass1 + 1 else 0,
                      pass2 := if more1 || decide (l2 = 0) then x.pass2 else x.pass2 + 1 }
    if fin then (s.setTile t x).setBit (R.WAL_STATUS (waleOf t)) (16 + posOf t) true
    else
      let x := (List.range 8).foldl (fun x g => if s.agPassReset t p g then x.setOffs g (s.agOffs0 t p g) else x) x
      (s.setTile t x).passSeams t p

/-- Unit `u` meets a stall: the first unit to meet a stall cycle counts it in WAL_COUNT[1], and a unit that has met it opens the next. -/
def State.stallMet (s : State) (t u : Nat) : State :=
  let x := s.tile t
  if x.stalled = [] ∨ x.stalled.contains u = true then (s.setTile t { x with stalled := [u] }).walCount t 1
  else s.setTile t { x with stalled := x.stalled ++ [u] }

/-- The start of a cycle that unit `u` is the first to meet: discards of a restart, then stalls, then a switch token met by an executing
SIN (R147, R159). Answers whether units may issue. DESIGN CHOICE (log entry 64): a second token that a later-stage SIN meets during a drain
takes the drain's place, and one met in the same cycle as the first is delivered as an ordinary element. -/
def State.startCycle (s : State) (t u : Nat) : Bool × State :=
  let s := (s.dnClose t).restartGoesOn t
  let p := s.activePat t
  let live := s.liveSlots t
  if (s.tile t).restart.isSome then (false, s)
  else if live.any (fun l => s.slotStalls t l.2) then (false, s.stallMet t u)
  else
    let x := s.tile t
    let s := if x.stalled = [] then s else s.setTile t { x with stalled := [] }
    let x := s.tile t
    match live.find? (fun l => l.2.opc = 0x13 && s.tokenEn t p (l.2.ag % 4) &&
        (match x.held (s.icKey t p (l.2.ag % 4)) with | e :: _ => e.isToken | [] => false)) with
    | none => (true, s)
    | some l =>
      let c := l.2.ag % 4
      match x.held (s.icKey t p c) with
      | [] => (true, s)
      | e :: _ =>
        let s := s.takeIn t (s.icKey t p c)
        let left := (s.patSC t p - 1) * s.patII t p
        let x := s.tile t
        (decide (left ≠ 0), s.setTile t { x with drain := some ⟨c, e.data.toNat % 16, e, left⟩ })

/-- What one operation does: results with their latencies, flags, banks of the register file it names, a store, the
address generator and memory banks it uses, an accumulator it clears. -/
structure OpEff where
  lands : List (Nat × Target)
  sat : Bool
  fpinv : Bool
  names : List Nat
  store : Option (Nat × List Byte)
  ag : Option Nat
  banks : List Nat
  clear : Option Nat

/-- An operation with results only. -/
def OpEff.of (lands : List (Nat × Target)) (sat : Bool := false) (fpinv : Bool := false) : OpEff :=
  ⟨lands, sat, fpinv, [], none, none, [], none⟩

/-- Banks a register operand code names. -/
def codeBanks (code : Nat) : List Nat := if code < 0x40 then [code / 16] else []

/-- Banks named by a group of `n` registers from a register operand code. -/
def groupBanks (code n : Nat) : List Nat := if code < 0x40 then (List.range n).map (fun k => (code + k) % 64 / 16) else []

/-- The bank a target belongs to. -/
def Target.bank : Target → Option Nat
  | .reg r _ _ => some (r % 64 / 16)
  | .acc a _ _ _ => some a
  | _ => none

/-- Apply an operation's effects: foreign banks are neither written nor read and set BANKOWN (R126). -/
def State.applyEff (s : State) (t u : Nat) (f : OpEff) : State :=
  let p := s.activePat t
  let x := s.tile t
  let foreign := fun b => s.bankForeign t p b
  let own := f.lands.filter (fun l => match l.2.bank with | some b => !foreign b | none => true)
  let touched := f.names ++ f.lands.filterMap (fun l => l.2.bank)
  let clears := match f.clear with | some a => if foreign a then [] else [4 * u + a] | none => []
  let x := { x with
    flight := x.flight ++ own.map (fun l => ⟨x.cyc + l.1, u, l.2⟩)
    stores := match f.store with | some (a, bs) => x.stores ++ [⟨u, a, bs⟩] | none => x.stores
    agUsed := match f.ag with | some g => if x.agUsed.contains g then x.agUsed else x.agUsed ++ [g] | none => x.agUsed
    banks := x.banks ++ f.banks
    clears := x.clears ++ clears }
  (((s.setTile t x).stickyIf t 0 f.sat).stickyIf t 2 f.fpinv).stickyIf t 4 (touched.any foreign)

/-- Unit `u` of tile `t` issues opcode `opc` in the present cycle, when its slot holds it and it has not issued yet. `run`
gives the operation's effect; it runs only when the slot executes. The cycle ends once all eight units have issued. -/
def State.issue (s : State) (t u opc : Nat) (run : OpCtx → State → State) : State :=
  let x := s.tile t
  let w := s.slotWord t (s.activePat t) u x.slot
  if !s.tileReady t || decide (8 ≤ u) || decide (w.opc ≠ opc) || x.issued.contains u then s
  else
    let (go, s) := if x.issued = [] then s.startCycle t u else (true, s)
    if !go then s
    else
      let e : OpCtx := ⟨s, s.tile t, t, u, s.activePat t, w⟩
      let s := if s.executes t u w then run e s else s
      let x := s.tile t
      let s := s.setTile t { x with issued := x.issued ++ [u] }
      if x.issued.length + 1 = 8 then (s.closeCycle t).advance t else s

/-- An operation given by its effects. -/
def State.issueEff (s : State) (t u opc : Nat) (f : OpCtx → OpEff) : State :=
  s.issue t u opc (fun e s => s.applyEff t u (f e))

/-- What the ECC of a tile memory read shows (R142): 0 nothing, 1 corrected, 2 uncorrectable; both are reported, the second
with the address and the seam the tile is handed over at (R603), an open value before its first seam. -/
def State.tmemEcc (s : State) (t addr ecc : Nat) : State :=
  match ecc with
  | 1 => s.report 0x10 t
  | 2 =>
    let r := match (s.tile t).lastSeam with
      | some k => (word k, s)
      | none => let d := s.draw; ((Config.freeWord d.1).setWidth 32, d.2)
    (r.2.report 0x11 t [word addr, r.1]).handOver t
  | _ => s

/-! ### Switching (R156 to R161) -/

/-- The physical tile of logical tile `t` is marked unusable (Table 20-3, R162): KIND 1, TARGET 32 × wale + position. -/
def State.tileMarked (s : State) (t : Nat) : Bool :=
  let w := waleOf t
  let q := posOf t
  s.marked 1 (32 * w + q + b2n (decide (s.get (R.WAL_SHIFT w) F.WAL_SHIFT_SHIFT_AT ≤ q)))

/-- The incoming pattern's control block takes effect on tile `t`, or the null pattern runs when it is not valid (R157,
R161). -/
def State.activate (s : State) (t p : Nat) : State :=
  let w := waleOf t
  let q := posOf t
  let valid := s.patValid t p
  let ok := valid && !s.tileMarked t
  let s := s.put (R.WAL_ACTIVE w (q / 8)) (F.WAL_ACTIVE_PAT (q % 8)) p
  let s := (s.setBit (R.WAL_STATUS w) q (!ok)).setBit (R.WAL_STATUS w) (16 + q) false
  let s := if valid then s else s.sticky t 3
  let x := s.tile t
  let x := { x with live := true, preds := [], slot := 0, iter := 0, pass1 := 0, pass2 := 0, drain := none, issued := [], stalled := [],
                     restart := none, discard := [], dnEdge := some s.stamp }
  let x := (List.range 8).foldl (fun x g => x.setOffs g (s.agOffs0 t p g)) x
  let s := (s.setTile t x).tickLand t
  let s := if ok then s.passSeams t p else s
  [0, 1].foldl (fun s d => let (n, k) := riserOf t d; s.riserTouch n k) s

/-- The pattern whose channels a switch edge handles seams for: the outgoing one, or the incoming one when none ran. -/
def State.seamPattern (s : State) (t p : Nat) : Nat :=
  if (s.tile t).live && !s.tileNull t then s.activePat t else p

/-- The element a SOUT sends (R155): SEAM forced to 0 and counted (R273). -/
def OpCtx.soutElem (e : OpCtx) : Elem × Bool :=
  let sb := e.w.imm % 256 ||| (if e.w.m 5 then sget (fun _ => 0) e.x.sb (e.w.imm / 256 % 4) else 0)
  (⟨BitVec.ofNat 64 ((e.a 1).toNat * 2 ^ 32 + e.a.toNat), BitVec.ofNat 8 (if sb.testBit 3 then sb - 8 else sb)⟩, sb.testBit 3)

/-- At a hard switch, a SOUT stalled for credit is held in its output channel's reserve slot (R158), in a frozen wale too (R172). -/
def State.reserveSouts (s : State) (t : Nat) : State :=
  if !(s.tileRuns t) then s
  else
    let p := s.activePat t
    (s.liveSlots t).foldl (fun s' l =>
      if l.2.opc = 0x14 && s.slotStalls t l.2 then
        match s.ocKey t p (l.2.ag % 4) with
        | some key =>
          if ((s'.tile t).out key).length < 2 && !s.linkRoom t (key / 4) (key % 4) then
            let (e, seam) := (OpCtx.mk s (s.tile t) t l.1 p l.2).soutElem
            let s' := s'.queueOut t key e
            if seam then s'.walCount t 4 else s'
          else s'
        | none => s'
      else s') s

/-- A hard switch of tile `t` to pattern `p` at its edge, which falls between cycles: stalled SOUTs are reserved, a drain is cancelled,
head seams go on, the incoming pattern takes effect. The accesses of a cycle are served together: a switch falls before or after a
conflict stall, never within it (DESIGN CHOICE, log entry 64). -/
def State.hardSwitch (s : State) (t p : Nat) : State :=
  let s := s.reserveSouts t
  let s := match (s.tile t).drain with | some _ => s.walCount t 3 | none => s
  (s.passSeams t (s.seamPattern t p)).activate t p

/-- The end of a drain: the token goes on, then head seams, then the pattern it named takes effect (R159). -/
def State.tokenSwitch (s : State) (t : Nat) (d : Drain) : State :=
  let p := s.activePat t
  let s := (List.range 4).foldl (fun s c =>
    if s.tokenFwd t p c then (match s.ocKey t p c with | some key => s.queueOut t key d.token | none => s) else s) s
  ((s.passSeams t p).activate t d.pattern).walCount t 2

/-! ### Orders (R157, R160, R237, R238) -/

/-- Why an island takes no switch: a device-state floor, or closing, off or in DORMANT. -/
def State.islandRefuses (s : State) (i : Nat) : Bool := decide (s.floor ≠ 0) || decide (s.stage i ≠ .on)

/-- Members of an air schedule switch that are not switched are counted in AIR_CNT[1] (R238, R311, R477). -/
def State.airMissed (s : State) (src : SwSrc) (n : Nat := 1) : State :=
  match src with | .air => s.bump (R.AIR_CNT 1) n | _ => s

/-- Place an order among those waiting: by instant, the air schedule's first at one instant, else in order of arrival. -/
def insertOrder {α : Type} (at_ : α → Nat) (src : α → SwSrc) (l : List α) (o : α) : List α :=
  let before := fun q => decide (at_ q < at_ o) || (decide (at_ q = at_ o) && (src q == SwSrc.air || src o != SwSrc.air))
  l.takeWhile before ++ o :: l.dropWhile before

/-- The number of the first clock edge at or after stamp `t` of a clock of `khz`: edges fall at the multiples of the period in device
stamp time (DESIGN CHOICE, log entry 64: the spec gives no phase). -/
def edgeIndex (khz t : Nat) : Nat := (t * khz + 999999) / 1000000

/-- Of the orders that reach the first order's edge, the one that takes it: an air schedule's before any other (R160, R237), else the
first. -/
def nextOrder {α : Type} (at_ : α → Nat) (src : α → SwSrc) (khz now : Nat) (l : List α) : Option α :=
  match l with
  | [] => none
  | o :: _ =>
    let edge := fun q => edgeIndex khz (max (at_ q) now)
    some ((l.find? (fun q => decide (edge q = edge o) && (src q == SwSrc.air))).getD o)

/-- An order to switch tiles of wale `w`, reaching it at `at_`. -/
def State.orderWale (s : State) (w tiles pattern at_ : Nat) (src : SwSrc) : State :=
  let x := s.wale w
  let late := decide (at_ ≤ s.stamp) && !s.islandRuns (32 + w)
  s.setWale w { x with orders := insertOrder PatOrder.at_ PatOrder.src x.orders ⟨tiles, pattern, at_, src, late⟩ }

/-- Orders that stand before island `i` while its clock is stopped become late (R238): called before a clock restarts. -/
def State.markLate (s : State) (i : Nat) : State :=
  if i < 32 then
    { s with fabric := { s.fabric with orders := s.fabric.orders.map (fun e =>
        (e.1, if s.lead e.1 = s.lead i then e.2.map (fun o => if o.at_ ≤ s.stamp then { o with late := true } else o) else e.2)) } }
  else
    let x := s.wale (i - 32)
    s.setWale (i - 32) { x with orders := x.orders.map (fun o => if o.at_ ≤ s.stamp then { o with late := true } else o) }

/-- One member of the group switch has passed its edge; the last one completes SHT.SWITCH (R240). -/
def State.groupMember (s : State) (missed : Bool) : State :=
  match s.fabric.group with
  | none => s
  | some g =>
    let g := { g with left := g.left - 1, missed := g.missed || missed }
    if g.left = 0 then
      ({ s with fabric := { s.fabric with group := none } }).complete g.openId (if g.missed then .REFUSED_IN_USE else .DONE)
    else { s with fabric := { s.fabric with group := some g } }

/-- Host software's first configuration is in place: the state becomes CHARTED and lane training starts (R46, R254, R369). -/
def State.chart (s : State) : State := if s.sys.dev = .ready then (s.enter .charted).lanesCharted else s

/-- One member of the loader's start group has passed its edge; the last one makes the state CHARTED (R254 order 6). -/
def State.loaderMember (s : State) : State :=
  let n := s.ldr.startLeft
  let s := { s with ldr := { s.ldr with startLeft := n - 1 } }
  if n = 1 then s.chart else s

/-- A switch order of a group or of the loader's start group has passed its edge. -/
def State.memberPast (s : State) (src : SwSrc) (missed : Bool) : State :=
  match src with
  | .group => s.groupMember missed
  | .loader => s.loaderMember
  | _ => s

/-- A command waiting for a switch edge is answered. -/
def State.switchDone (s : State) (src : SwSrc) : State :=
  match src with
  | .cmd id => (match s.mbx.running.find? (fun o => o.id = id) with | some o => s.finishRun o .DONE | none => s)
  | _ => s

end Sys2Proof.Machine
end

