-- ==== Sys2Proof/Machine/FabricOps.lean ====
section
/-! DEFINITION. The shared operations of the fabric tier: cells and their flip-flops (R179 to R182), reset nets (R197), block
RAM words (R188 to R191), switch windows (R227 to R230), riser orientation (R231 to R235) and capture (R199 to R203). -/

namespace Sys2Proof.Machine

/-! ### Cells -/

/-- Key of the cell record `i` of plane `p` of sheet `n`, and of its shadows at twice that. -/
def cellKey (n p i : Nat) : Nat := 36864 * (4 * n + p) + i

/-- The record of cell `i` of plane `p` of sheet `n` (Table 7-8). -/
def State.cell (s : State) (n p i : Nat) : BitVec 256 := sget (fun _ => 0) s.fabric.cells (cellKey n p i)

/-- The cells of a plane whose record is not all zero, with their records. -/
def State.planeCells (s : State) (n p : Nat) : List (Nat × BitVec 256) :=
  (s.fabric.cells.filter (fun e => decide (e.1 / 36864 = 4 * n + p))).map (fun e => (e.1 % 36864, e.2))

/-- Fields of a cell record: route select `m`, TABLE, and the fields of Table 7-8 by bit. -/
def cRoute (r : BitVec 256) (m : Nat) : Nat := bitsOf r.toNat (100 + 5 * m) (96 + 5 * m)
def cCarry (r : BitVec 256) : Bool := r.getLsbD 64
def cCinsel (r : BitVec 256) : Nat := bitsOf r.toNat 66 65
def cClksel (r : BitVec 256) : Nat := bitsOf r.toNat 68 67
def cClkinv (r : BitVec 256) : Bool := r.getLsbD 69
def cSrsel (r : BitVec 256) : Nat := bitsOf r.toNat 72 70
def cDsel (r : BitVec 256) (b : Nat) : Nat := bitsOf r.toNat (75 + 3 * b) (73 + 3 * b)
def cCesel (r : BitVec 256) (b : Nat) : Bool := r.getLsbD (79 + b)
def cSrval (r : BitVec 256) (b : Nat) : Bool := r.getLsbD (81 + b)
def cSrsync (r : BitVec 256) (b : Nat) : Bool := r.getLsbD (83 + b)
def cInit (r : BitVec 256) (b : Nat) : Bool := r.getLsbD (85 + b)
def cPriv (r : BitVec 256) (b : Nat) : Bool := r.getLsbD (87 + b)

/-- What the inputs of a cell read: K5 to K0, X, CE, SR. -/
structure CellIn where
  k : Nat
  x : Bool
  ce : Bool
  sr : Bool
  deriving DecidableEq, Repr

/-- The even output YE, the odd output YO and the selected output Y of the table (R179). -/
def cellYE (r : BitVec 256) (c : CellIn) : Bool := r.getLsbD (2 * (c.k / 2 % 32))
def cellYO (r : BitVec 256) (c : CellIn) : Bool := r.getLsbD (2 * (c.k / 2 % 32) + 1)
def cellY (r : BitVec 256) (c : CellIn) : Bool := r.getLsbD (c.k % 64)

/-- The carry in of a cell whose south neighbour's carry out is `south` (Table 5-1). -/
def cellCI (r : BitVec 256) (c : CellIn) (south : Bool) : Bool :=
  match cCinsel r with
  | 0 => south
  | 1 => false
  | 2 => true
  | _ => c.k.testBit 0

/-- The carry out (R181). -/
def cellCO (r : BitVec 256) (c : CellIn) (south : Bool) : Bool :=
  if cCarry r then (if cellYE r c then cellCI r c south else cellYO r c) else cellCI r c south

/-- The sum (R181). -/
def cellS (r : BitVec 256) (c : CellIn) (south : Bool) : Bool := cCarry r && (cellYE r c != cellCI r c south)

/-- Key of a flip-flop: 0 FFA, 1 FFB. -/
def ffKey (n i b : Nat) : Nat := 2 * (36864 * n + i) + b

/-- A flip-flop's output. -/
def State.ff (s : State) (n i b : Nat) : Bool := sget (fun _ => false) s.fabric.ffs (ffKey n i b)

/-- Set a flip-flop. -/
def State.setFf (s : State) (n i b : Nat) (v : Bool) : State :=
  { s with fabric := { s.fabric with ffs := sset (fun _ => false) s.fabric.ffs (ffKey n i b) v } }

/-! ### Reset nets (R197) -/

/-- A net at power-on: RN0 asserted, the others released. -/
def netDefault (k : Nat) : Nat := if k % 4 = 0 then 2 else 0

/-- Net `net` as it stands at sheet `n`: 2 asserted, 1 fallen and awaiting the third edge, 0 released. -/
def State.net (s : State) (n net : Nat) : Nat := sget netDefault s.fabric.nets (4 * n + net)

/-- Set a net at a sheet. -/
def State.setNet (s : State) (n net v : Nat) : State :=
  { s with fabric := { s.fabric with nets := sset netDefault s.fabric.nets (4 * n + net) v } }

/-- The set/reset a cell sees: its routed input or the reset net it selects. -/
def State.cellSr (s : State) (n : Nat) (r : BitVec 256) (routed : Bool) : Bool :=
  match cSrsel r with
  | 0 => false
  | 1 => routed
  | 2 => s.net n 0 != 0
  | 3 => s.net n 1 != 0
  | 4 => s.net n 2 != 0
  | 5 => s.net n 3 != 0
  | _ => false

/-- Net `net` falls: each sheet releases it on its third edge. -/
def State.dropNet (s : State) (net : Nat) (sheets : List Nat) : State :=
  sheets.foldl (fun s n => if s.net n net = 2 then s.setNet n net 1 else s) s

/-! ### The clock edge of flip-flops (R182) -/

/-- Flip-flop D (Table 5-1). A select of 5 to 7 is reserved and never loads (R251): its value is left open. -/
def cellD (r : BitVec 256) (b : Nat) (c : CellIn) (south : Bool) (open_ : Bool) : Bool :=
  match cDsel r b with
  | 0 => cellY r c
  | 1 => cellYE r c
  | 2 => cellYO r c
  | 3 => cellS r c south
  | 4 => c.x
  | _ => open_

/-- The next value of flip-flop `b` of a cell at an active edge. -/
def cellNext (r : BitVec 256) (b : Nat) (c : CellIn) (south sr frozen old open_ : Bool) : Bool :=
  if sr then cSrval r b
  else if !frozen && (!cCesel r b || c.ce) then cellD r b c south open_
  else old

/-! ### The plane switch -/

/-- Switch window of sheet `n`: open with its outgoing plane, none before the first activation. -/
def State.window (s : State) (n : Nat) : Option (Option Nat) := sget (fun _ => none) s.fabric.window n

/-- Open or close the window. -/
def State.setWindow (s : State) (n : Nat) (w : Option (Option Nat)) : State :=
  { s with fabric := { s.fabric with window := sset (fun _ => none) s.fabric.window n w } }

/-- Selvedge mode of outgoing wire `w` of sheet `n` under plane `p` (Tables 6-4, 7-9): 0 to 1535 borders N, E, S, W of 384
each, 1536 + 2j O and 1537 + 2j OE of slot j, 1600 + k riser port k, 1680 CAP_TRIG. -/
def State.selvMode (s : State) (n p w : Nat) : Nat := s.planeByte n p (w / 4) / 4 ^ (w % 4) % 4

/-- Sheet `n` is isolated: its power switch has opened and power-up is not complete (R475, R477). -/
def State.isolated (s : State) (n : Nat) : Bool := decide (s.stage n ≠ .on ∧ s.stage n ≠ .closing)

/-- What the selvedge cell of wire `w` presents where the fabric drives `live` (R228, R230): what it registered before, while SHT.CLOCK has
stopped the clock (R196). -/
def State.selvedge (s : State) (n w : Nat) (live : Bool) : Bool :=
  let kept := sget (fun _ => false) s.fabric.selv (2048 * n + w)
  if s.marked 2 n || s.isolated n || s.flag (R.SHT_STATUS n) F.SHT_STATUS_NONE_ACTIVE then false
  else match s.window n with
    | none => if sget (fun _ => false) s.pwr.clkStop n then kept else live
    | some none => false
    | some (some p) =>
      match s.selvMode n p w with
      | 1 => false
      | 2 => true
      | _ => kept

/-- The chart port and the graticule port of sheet `n` transfer: a plane has been activated and no switch window is open (R229, R230). -/
def State.portsOpen (s : State) (n : Nat) : Bool := (s.activePlane n).isSome && (s.window n).isNone

/-- Every flip-flop of sheet `n` takes the INIT of plane `p` (R198). -/
def State.initFfs (s : State) (n p : Nat) : State :=
  let s := { s with fabric := { s.fabric with ffs := sfilter (fun k => decide (k / 2 / 36864 ≠ n)) s.fabric.ffs } }
  (s.planeCells n p).foldl (fun s e => [0, 1].foldl (fun s b => s.setFf n e.1 b (cInit e.2 b)) s) s

/-- Private flip-flops of outgoing plane `p` are saved to its shadow (Table 6-3). -/
def State.savePrivate (s : State) (n p : Nat) : State :=
  (s.planeCells n p).foldl (fun s e => [0, 1].foldl (fun s b =>
    if cPriv e.2 b then
      { s with fabric := { s.fabric with
          shadow := sset (fun _ => false) s.fabric.shadow (2 * cellKey n p e.1 + b) (s.ff n e.1 b) } }
    else s) s) s

/-- Private flip-flops of incoming plane `p` are restored from its shadow, or from INIT at its first activation. -/
def State.restorePrivate (s : State) (n p : Nat) (first : Bool) : State :=
  (s.planeCells n p).foldl (fun s e => [0, 1].foldl (fun s b =>
    if cPriv e.2 b then
      s.setFf n e.1 b (if first then cInit e.2 b else sget (fun _ => false) s.fabric.shadow (2 * cellKey n p e.1 + b))
    else s) s) s

/-- Plane `p` is valid and not yet activated since its load. -/
def State.planeValid (s : State) (n p : Nat) : Bool := (s.get (R.SHT_STATUS n) F.SHT_STATUS_PLANE_VALID).testBit p
def State.firstPending (s : State) (n p : Nat) : Bool := (s.get (R.SHT_STATUS n) F.SHT_STATUS_FIRST_PENDING).testBit p

/-- The end of a switch window, at E + 1: held credit pulses are delivered (R229). -/
def State.closeWindow (s : State) (n : Nat) : State :=
  match s.window n with
  | none => s
  | some _ =>
    let mine := s.fabric.heldPulse.filter (fun e => decide (e.1 / 160 = n))
    let s := s.setWindow n none
    { s with fabric := { s.fabric with
      heldPulse := sfilter (fun k => decide (k / 160 ≠ n)) s.fabric.heldPulse
      txSpent := mine.foldl (fun m e => sset (fun _ => 0) m e.1 (sget (fun _ => 0) m e.1 - e.2)) s.fabric.txSpent } }

/-- The plane switches that wait for sheet `n`. -/
def State.planeOrders (s : State) (n : Nat) : List PlaneOrder := sget (fun _ => []) s.fabric.orders n

/-- Replace them. -/
def State.setPlaneOrders (s : State) (n : Nat) (l : List PlaneOrder) : State :=
  { s with fabric := { s.fabric with orders := sset (fun _ => []) s.fabric.orders n l } }

/-- An order to switch sheet `n`, reaching it at `at_`. -/
def State.orderSheet (s : State) (n plane at_ : Nat) (src : SwSrc) : State :=
  let late := decide (at_ ≤ s.stamp) && !s.islandRuns n
  s.setPlaneOrders n (insertOrder PlaneOrder.at_ PlaneOrder.src (s.planeOrders n) ⟨plane, at_, src, late⟩)

/-! ### Block RAM (R188 to R191) -/

/-- Width of a word and number of words by shape (Table 5-5); shape 4 holds 64 data bits and 8 check bits a row. -/
def bramWidth (shape : Nat) : Nat := match shape with | 0 => 9 | 1 => 18 | 2 => 36 | _ => 72
def bramDepth (shape : Nat) : Nat := 36864 / bramWidth shape

/-- Key of bit `i` of block `b` of sheet `n`. -/
def bramKey (n b i : Nat) : Nat := 36864 * (128 * n + b) + i

/-- The `w` bits of a block from bit `i` on. -/
def State.bramBits (s : State) (n b i w : Nat) : Nat :=
  (List.range w).foldl (fun a j => a + b2n (sget (fun _ => false) s.fabric.bram (bramKey n b (i + j))) * 2 ^ j) 0

/-- Store `w` bits of `v` from bit `i` on. -/
def State.setBramBits (s : State) (n b i w v : Nat) : State :=
  { s with fabric := { s.fabric with
    bram := (List.range w).foldl (fun m j => sset (fun _ => false) m (bramKey n b (i + j)) (v.testBit j)) s.fabric.bram } }

/-- Configuration of port `port` of a block under plane `p` (Table 7-9): used, mode, tree, shape. -/
structure BramCfg where
  used : Bool
  rdw : Nat
  tree : Nat
  shape : Nat
  deriving DecidableEq, Repr

/-- The two bytes of a block's plane control. -/
def State.bramWord (s : State) (n p b : Nat) : Nat := s.planeByte n p (0x1B0 + 2 * b) + s.planeByte n p (0x1B1 + 2 * b) * 256

/-- A port's configuration. -/
def State.bramCfg (s : State) (n p b port : Nat) : BramCfg :=
  let w := s.bramWord n p b
  ⟨w.testBit (14 + port), bitsOf w (11 + 2 * port) (10 + 2 * port), bitsOf w (7 + 2 * port) (6 + 2 * port),
    bitsOf w (2 + 3 * port) (3 * port)⟩

/-- A block is in use by a plane. -/
def State.bramUsed (s : State) (n p b : Nat) : Bool := bitsOf (s.bramWord n p b) 15 14 != 0

/-- What a write puts into a row: in shape 4 the 64 data bits and their check bits. -/
def bramRow (shape data : Nat) : Nat :=
  if shape = 4 then data % 2 ^ 64 + (Config.bramCheck (BitVec.ofNat 64 data)).toNat * 2 ^ 64 else data % 2 ^ bramWidth shape

/-- A port's write. -/
def State.bramWrite (s : State) (n b : Nat) (c : BramCfg) (q : BramReq) : State :=
  if q.we && !s.flag (R.SHT_CTRL n) F.SHT_CTRL_FREEZE && !s.marked 4 (128 * n + b) then
    s.setBramBits n b (q.addr % bramDepth c.shape * bramWidth c.shape) (bramWidth c.shape) (bramRow c.shape q.data)
  else s

/-- The word a port's address holds, in the shapes without ECC. -/
def State.bramWordAt (s : State) (n b : Nat) (c : BramCfg) (q : BramReq) : Nat :=
  s.bramBits n b (q.addr % bramDepth c.shape * bramWidth c.shape) (bramWidth c.shape)

/-- The 72 bits of the row a port of shape 4 addresses. -/
def State.bramStored (s : State) (n b : Nat) (q : BramReq) : Nat := s.bramBits n b (q.addr % 512 * 72) 72

/-- A stored row agrees with its check bits. -/
def rowClean (r : Nat) : Bool := decide (Config.bramCheck (BitVec.ofNat 64 r) = BitVec.ofNat 8 (r / 2 ^ 64))

/-- What SEC-DED decoding makes of a stored row (R191): its data, corrected where flipping one bit makes the row clean, and 0 clean,
1 corrected, 2 not correctable, with the data as stored. -/
def rowDecode (r : Nat) : Nat × Nat :=
  if rowClean r then (r % 2 ^ 64, 0)
  else match (List.range 72).find? (fun i => rowClean (r ^^^ 2 ^ i)) with
    | some i => ((r ^^^ 2 ^ i) % 2 ^ 64, 1)
    | none => (r % 2 ^ 64, 2)

/-- A port's read output takes its value: `before` holds the contents before the cycle's writes; `apart`: the other port addresses none of
its bits in this cycle, or the accesses follow one another, so a WRITE_FIRST port that writes reads its new data (R189, R190). DESIGN CHOICE (log
entry 68): it reads that data under FREEZE too, although the write is ignored. -/
def State.bramRead (s before : State) (n b port : Nat) (c : BramCfg) (q : BramReq) (apart : Bool) : State :=
  if !q.re || (q.we && decide (2 ≤ c.rdw)) then s
  else
    let inst := 128 * n + b
    let row := word (q.addr % bramDepth c.shape * bramWidth c.shape / 72)
    let fresh := q.we && decide (c.rdw = 1) && apart
    let (data, ecc) :=
      if fresh then (q.data % 2 ^ (if c.shape = 4 then 64 else bramWidth c.shape), 0)
      else if s.marked 4 inst then (0, 0)
      else if c.shape = 4 then rowDecode (before.bramStored n b q) else (before.bramWordAt n b c q, 0)
    let s := { s with fabric := { s.fabric with
      bramOut := sset (fun _ => ⟨0, false, false⟩) s.fabric.bramOut (2 * inst + port) ⟨data, decide (ecc = 1), decide (ecc = 2)⟩ } }
    let s := if ecc = 1 then (s.bump (R.SHT_COUNT n 0)).report 0x20 inst [row] else s
    if ecc = 2 then ((s.raise (R.SHT_STICKY n) 0).bump (R.SHT_COUNT n 1)).report 0x21 inst [row] else s

/-- Stored bits `is` of a block change on their own. -/
def State.bramUpset (s : State) (n b : Nat) (is : List Nat) : State :=
  { s with fabric := { s.fabric with bram := is.foldl (fun m i =>
      sset (fun _ => false) m (bramKey n b i) (!sget (fun _ => false) m (bramKey n b i))) s.fabric.bram } }

/-- Two ports address overlapping bits in one cycle (R190). -/
def bramOverlap (ca cb : BramCfg) (a b : BramReq) : Bool :=
  let lo (c : BramCfg) (q : BramReq) : Nat := q.addr % bramDepth c.shape * bramWidth c.shape
  (a.we || a.re) && (b.we || b.re) && decide (lo ca a < lo cb b + bramWidth cb.shape) && decide (lo cb b < lo ca a + bramWidth ca.shape)

/-! ### Risers -/

/-- Table 6-8: the bundle both ends of port `k` of sheet `n` would drive. -/
def riserWire (n k plane pattern bundle : Nat) : Word :=
  word (2 * 2 ^ 28 + plane * 2 ^ 26 + pattern * 2 ^ 22 + n * 2 ^ 16 + k * 2 ^ 8 + bundle)

/-- The wire identifier of a port with the plane and pattern now active. -/
def State.wireNow (s : State) (n k : Nat) : Word :=
  riserWire n k (s.get (R.SHT_STATUS n) F.SHT_STATUS_ACTIVE_PLANE) (s.activePat (tileOfRiser n k).1)
    (b2n (decide (s.sheetOrient n k = 2)))

/-- Orientation in force on a port: what the last RISER_ORIENTATION_CHANGE left; OFF before the first. -/
def State.orientNow (s : State) (n k : Nat) : Nat := sget (fun _ => 0) s.fabric.orient (40 * n + k)

/-- The recorded orientation: NORMAL until a commit records another (R234). -/
def State.recorded (s : State) (n k : Nat) : Nat := sget (fun _ => 1) s.fabric.recorded (40 * n + k)

/-- The orientation R233 puts in force, given both requests, the one in force before and the recorded one. -/
def orientOf (sheet tile before recorded : Nat) : Nat :=
  if sheet = tile ∧ sheet ≠ 0 then sheet
  else if sheet = 0 ∧ tile = 0 then before
  else if sheet = 0 then tile
  else if tile = 0 then sheet
  else recorded

/-! ### Capture -/

/-- Replace the capture plane. -/
def State.setCap (s : State) (c : Capture) : State := { s with fabric := { s.fabric with cap := c } }

/-- The record of sheet `n` in the capture plane. -/
def Capture.rec_ (c : Capture) (n : Nat) : Option CapRec := sget (fun _ => none) c.recs n

/-- Snapshot of sheet `n` at its island's capture edge (R200, R201): flip-flops now, block RAM as it stands now. -/
def State.capSheet (s : State) (n edge : Nat) (none_ : Bool) : State :=
  let c := s.fabric.cap
  if c.set.testBit n && (c.rec_ n).isNone then
    let r : CapRec := {
      island := s.lead n, plane := s.get (R.SHT_STATUS n) F.SHT_STATUS_ACTIVE_PLANE, incomplete := false, edgeNone := none_,
      edge := edge, khz := s.khzOf n,
      ffs := (s.fabric.ffs.filter (fun e => decide (e.1 / 2 / 36864 = n))).map (fun e => (e.1 % 73728, e.2)),
      bram := if c.ffOnly then [] else
        (s.fabric.bram.filter (fun e => decide (e.1 / 36864 / 128 = n))).map (fun e => (e.1 % 4718592, e.2)),
      done := c.ffOnly }
    s.setCap { c with recs := sset (fun _ => none) c.recs n (some r) }
  else s

/-- Every record of the set is complete: the plane is HELD and CAP.TAKE completes (R214). -/
def State.capHeld (s : State) : State :=
  let c := s.fabric.cap
  if c.st = .copying ∧ (List.range 32).all (fun n => !c.set.testBit n || (match c.rec_ n with | some r => r.done | none => false))
  then (s.setCap { c with st := .held, openId := none }).completeOpt c.openId .DONE
  else s

/-- The capture instant has passed for the island led by sheet `lead`. -/
def State.capIsland (s : State) (lead edge : Nat) (none_ : Bool) : State :=
  let s := s.setCap { s.fabric.cap with st := .copying }
  ((s.members lead).foldl (fun s n => s.capSheet n edge none_) s).capHeld

/-- The copy of the sheets that satisfy `p` ends, complete or abandoned. -/
def State.capCopied (s : State) (p : Nat → Bool) (incomplete : Bool) : State :=
  let c := s.fabric.cap
  if c.st ≠ .copying then s
  else (s.setCap { c with recs := c.recs.map (fun e => (e.1, e.2.map (fun r =>
    if p e.1 && !r.done then { r with done := true, incomplete := incomplete } else r))) }).capHeld

/-- T is known: armed outside trigger mode, or its trigger has come. -/
def Capture.timed (c : Capture) : Bool := decide (c.st = .armed ∧ (c.mode ≠ 2 ∨ c.t ≠ 0)) || decide (c.st = .copying)

/-- The bytes of a capture record (R203). -/
def capBytes (n : Nat) (c : Capture) (r : CapRec) : List Byte :=
  let h : List Word := [0x43415054,
    word (n * 2 ^ 24 + r.island * 2 ^ 16 + r.plane * 2 ^ 8 + b2n r.incomplete * 4 + b2n r.edgeNone * 2 + b2n (!c.ffOnly)),
    loWord c.t, hiWord c.t, loWord r.edge, hiWord r.edge, loWord c.trigger, hiWord c.trigger, word r.khz,
    0, 0, 0, 0, 0, 0, 0]
  let byte := fun (m : Sparse Bool) (i : Nat) =>
    (BitVec.ofNat 8 ((List.range 8).foldl (fun a j => a + b2n (sget (fun _ => false) m (8 * i + j)) * 2 ^ j) 0) : Byte)
  h.flatMap bytesOfWord ++ (List.range 9216).map (byte r.ffs) ++
    (if c.ffOnly then [] else (List.range 589824).map (byte r.bram))

end Sys2Proof.Machine
end

