-- ==== Sys2Proof/Machine/AirWalk.lean ====
section
/-! DEFINITION. The schedule tables and the riser walk of R234. -/

namespace Sys2Proof.Machine

/-- Entry `i` of table `t`. -/
def State.airEntry (s : State) (t i : Nat) : AirEntry := sget (fun _ => AirEntry.nop) s.air.entries (4096 * t + i)

/-- Store entry `i` of table `t`. -/
def State.setAirEntry (s : State) (t i : Nat) (e : AirEntry) : State :=
  { s with air := { s.air with entries := sset (fun _ => AirEntry.nop) s.air.entries (4096 * t + i) e } }

/-- ACTION and OFFSET of an entry. -/
def AirEntry.action (e : AirEntry) : Nat := e.w0.bits 31 28
def AirEntry.offset (e : AirEntry) : Nat := e.w0.bits 26 0
/-- Word `k` (1 to 3) of an entry. -/
def AirEntry.w (e : AirEntry) (k : Nat) : Word := match k with | 1 => e.w1 | 2 => e.w2 | _ => e.w3
/-- PLANE: the plane of sheet `n`, if the entry names it. -/
def AirEntry.planeOf (e : AirEntry) (n : Nat) : Option Nat :=
  if e.action = 1 ∧ e.w1.bit n = true then
    some (if n < 16 then e.w2.bits (2 * n + 1) (2 * n) else e.w3.bits (2 * n - 31) (2 * n - 32))
  else none
/-- PATTERN: the wales named. -/
def AirEntry.wales (e : AirEntry) : Nat := e.w1.toNat + e.w2.bits 7 0 * 2 ^ 32
/-- PATTERN: the pattern of tile `t`, if the entry names it. -/
def AirEntry.patternOf (e : AirEntry) (t : Nat) : Option Nat :=
  if e.action = 2 ∧ e.wales.testBit (waleOf t) = true ∧ e.w2.bit (16 + posOf t) = true then some (e.w2.bits 11 8) else none

/-- Table state (Table 9-1) and parameters. -/
def State.airState (s : State) (t : Nat) : Nat := s.get (R.AIR_LEN t) F.AIR_LEN_STATE
def State.airCount (s : State) (t : Nat) : Nat := s.get (R.AIR_LEN t) F.AIR_LEN_COUNT
def State.airPeriod (s : State) (t : Nat) : Nat := s.get (R.AIR_PERIOD t) F.AIR_PERIOD_PERIOD
def State.airPhase (s : State) (t : Nat) : Nat := s.get (R.AIR_PHASE t) F.AIR_PHASE_PHASE
/-- The active and the inactive table. -/
def State.airActive (s : State) : Nat := s.get R.AIR_STATUS F.AIR_STATUS_ACTIVE
def State.airOther (s : State) : Nat := 1 - s.airActive
/-- Tables that count as loaded (R309). -/
def State.airLoaded (s : State) : List Nat := [0, 1].filter (fun t => decide (2 ≤ s.airState t))
/-- The first `n` entries of a table. -/
def State.airEntries (s : State) (t n : Nat) : List AirEntry := (List.range n).map (s.airEntry t)

/-! ### The walk -/

/-- A plane and a pattern in force at the two ends of a port; `none` for an inactive end. -/
abbrev Pair := Option Nat × Option Nat

/-- What the loaded tables do to one port, as (offset, change) lists: entries that name an invalid plane or pattern are left
out. -/
def State.walkSteps (s : State) (n t : Nat) (es : List AirEntry) : List (Nat × Pair) :=
  es.filterMap (fun e =>
    let p := (e.planeOf n).filter (s.planeValid n)
    let q := (e.patternOf t).filter (s.patValid t)
    if p.isSome || q.isSome then some (e.offset, (p, q)) else none)

/-- Apply a change. -/
def pairStep (c d : Pair) : Pair := (d.1.orElse (fun _ => c.1), d.2.orElse (fun _ => c.2))

/-- The pairs one period of a table passes through from `c`: one after each distinct offset. -/
def walkTable : List (Nat × Pair) → Pair → List Pair
  | [], _ => []
  | [(_, d)], c => [pairStep c d]
  | (o, d) :: (o', d') :: rest, c =>
    if o = o' then walkTable ((o', d') :: rest) (pairStep c d) else pairStep c d :: walkTable ((o', d') :: rest) (pairStep c d)

/-- Add pairs not yet in the set. -/
def addPairs (l new : List Pair) : List Pair := new.foldl (fun l p => if l.contains p then l else l ++ [p]) l

/-- The closure of a set of pairs under the tables; at most 5 × 17 pairs exist, so `fuel` 85 reaches it. -/
def walkAll (tabs : List (List (Nat × Pair))) : Nat → List Pair → List Pair
  | 0, l => l
  | k + 1, l =>
    let l' := addPairs l (tabs.flatMap (fun t => l.flatMap (walkTable t)))
    if l'.length = l.length then l else walkAll tabs k l'

/-- Orientation a plane (pattern) of a port requests; OFF for an inactive end. -/
def State.orientP (s : State) (n k : Nat) (p : Option Nat) : Nat := match p with | some p => s.planeOrient n p k | none => 0
def State.orientT (s : State) (t d : Nat) (q : Option Nat) : Nat :=
  match q with | some q => s.patByte t q (6144 + d) % 4 | none => 0

/-- The pair in force at a port now. -/
def State.pairNow (s : State) (n t : Nat) : Pair :=
  (s.activePlane n, if (s.tile t).live && !s.tileNull t then some (s.activePat t) else none)

/-- The walk of port `k` of sheet `n` from pair `c`: the wire identifier of the first conflicting pair, if any. Of several the first that the
walk meets is named, table A before table B (DESIGN CHOICE, log entry 34: the pairs of R234 are a set without an order). -/
def State.walkPort (s : State) (tabs : List (List AirEntry)) (n k : Nat) (c : Pair) : Option Word :=
  let (t, d) := tileOfRiser n k
  let pairs := walkAll (tabs.map (s.walkSteps n t)) 85 [c]
  (pairs.find? (fun pq =>
    let a := s.orientP n k pq.1
    let b := s.orientT t d pq.2
    a != 0 && b != 0 && a != b)).map (fun pq =>
      riserWire n k (pq.1.getD 0) (pq.2.getD 0) (b2n (decide (s.orientP n k pq.1 = 2))))

/-- The walk of every port that satisfies `on`, in ascending sheet and port order, `from_` giving the pair it starts at: the first port that
fails and its wire identifier. -/
def State.riserWalkAt (s : State) (tabs : List (List AirEntry)) (on : Nat → Nat → Bool) (from_ : Nat → Nat → Pair) :
    Option (Nat × Word) :=
  (List.range 1280).findSome? (fun i =>
    let n := i / 40
    let k := i % 40
    if on n k then (s.walkPort tabs n k (from_ n (tileOfRiser n k).1)).map (fun w => (i, w)) else none)

/-- The wire identifier of the first port that fails the walk. -/
def State.riserWalk (s : State) (tabs : List (List AirEntry)) (on : Nat → Nat → Bool) (from_ : Nat → Nat → Pair) :
    Option Word := (s.riserWalkAt tabs on from_).map (·.2)

/-- The tables loaded, as entry lists; table `x`, when named, as it would be with `cnt` entries. -/
def State.walkTables (s : State) (x : Option (Nat × Nat)) : List (List AirEntry) :=
  [0, 1].filterMap (fun t =>
    match x with
    | some (t', c) => if t = t' then some (s.airEntries t c) else if 2 ≤ s.airState t then some (s.airEntries t (s.airCount t)) else none
    | none => if 2 ≤ s.airState t then some (s.airEntries t (s.airCount t)) else none)

/-- The walk of a table brought in: every port from the pair in force (R234). -/
def State.walkEveryAt (s : State) (x : Option (Nat × Nat)) : Option (Nat × Word) :=
  s.riserWalkAt (s.walkTables x) (fun _ _ => true) s.pairNow
def State.walkEvery (s : State) (x : Option (Nat × Nat)) : Option Word := (s.walkEveryAt x).map (·.2)

/-- A pair conflicts on port `k` of sheet `n`. -/
def State.pairClash (s : State) (n k : Nat) (p : Pair) : Bool :=
  let a := s.orientP n k p.1
  let b := s.orientT (tileOfRiser n k).1 (tileOfRiser n k).2 p.2
  a != 0 && b != 0 && a != b

/-- The indexes of the entries after which, from pair `c`, a table passes through a conflicting pair: the last entry of each offset that
names the port, `steps` holding index, offset and change. -/
def clashAt (clash : Pair → Bool) : List (Nat × Nat × Pair) → Pair → List Nat
  | [], _ => []
  | [(i, _, d)], c => if clash (pairStep c d) then [i] else []
  | (i, o, d) :: (i', o', d') :: rest, c =>
    let here := if o ≠ o' ∧ clash (pairStep c d) = true then [i] else []
    here ++ clashAt clash ((i', o', d') :: rest) (pairStep c d)

/-- The entry of the table to be sealed at which port `i` (40 × sheet + port) fails the walk: the lowest index after which a pair that the
tables can reach conflicts; 0 when only entries of the other table bring such a pair (DESIGN CHOICE, log entry 37: R329 does not say which
entry is the failing one). -/
def State.clashEntry (s : State) (x : Nat × Nat) (i : Nat) : Nat :=
  let n := i / 40
  let k := i % 40
  let t := (tileOfRiser n k).1
  let pairs := walkAll ((s.walkTables (some x)).map (s.walkSteps n t)) 85 [s.pairNow n t]
  let steps := (s.airEntries x.1 x.2).zipIdx.filterMap (fun e =>
    let p := (e.1.planeOf n).filter (s.planeValid n)
    let q := (e.1.patternOf t).filter (s.patValid t)
    if p.isSome || q.isSome then some (e.2, e.1.offset, (p, q)) else none)
  match (pairs.flatMap (clashAt (s.pairClash n k) steps)) with
  | [] => 0
  | j :: l => l.foldl min j

end Sys2Proof.Machine
end

