-- ==== Sys2Proof/Machine/LoaderOps.lean ====
section
/-! DEFINITION. The configuration loader (spec/07): the stream format, decryption, the sixteen checks of Table 7-10, and what a
commit writes. -/

namespace Sys2Proof.Machine

/-! ### Contexts -/

/-- What context `c` is loading. -/
def State.ctx (s : State) (c : Nat) : Option LdrCtx := sget (fun _ => none) s.ldr.ctx c

/-- Replace it. -/
def State.setCtx (s : State) (c : Nat) (x : Option LdrCtx) : State :=
  { s with ldr := { s.ldr with ctx := sset (fun _ => none) s.ldr.ctx c x } }

/-- State of context `c` (Table 7-2). -/
def State.ctxState (s : State) (c : Nat) : Nat := s.get (R.LDR_CTX c) F.LDR_CTX_STATE

/-- Enter a state of Table 7-2. -/
def State.setCtxState (s : State) (c v : Nat) : State := s.put (R.LDR_CTX c) F.LDR_CTX_STATE v

/-! ### Bytes -/

/-- `n` bytes of a list from offset `off`, little-endian. -/
def le (bs : List Byte) (off n : Nat) : Nat := ((bs.drop off).take n).foldr (fun b a => a * 256 + b.toNat) 0

/-- `n` bytes from `off`. -/
def cut (bs : List Byte) (off n : Nat) : List Byte := (bs.drop off).take n

/-- Bytes as a number, big-endian. -/
def be (bs : List Byte) : Nat := bs.foldl (fun a b => a * 256 + b.toNat) 0

/-- The low `n` bytes of a number, big-endian. -/
def toBe (n v : Nat) : List Byte := (List.range n).map (fun i => BitVec.ofNat 8 (v / 256 ^ (n - 1 - i)))

/-- The IV of words 8 to 10 as it enters AES: bytes in stream order. -/
def ivBytes (bs : List Byte) : List Byte := cut bs 32 12

/-- Block `j` of the AES-256-GCM keystream of the configuration key (R248). -/
def keyBlock (iv : List Byte) (j : Nat) : BitVec 128 :=
  Config.aes256 Config.configKey (BitVec.ofNat 128 (be iv * 2 ^ 32 + j % 2 ^ 32))

/-- Header fields of Table 7-4. -/
def hdrClass (bs : List Byte) : Nat := le bs 5 1
def hdrEnc (bs : List Byte) : Bool := (le bs 4 1).testBit 7
def hdrTarget (bs : List Byte) : Nat := le bs 4 1 % 16
def hdrSheets (bs : List Byte) : Nat := le bs 8 4
def hdrWales (bs : List Byte) : Nat := le bs 12 5
def hdrFrames (bs : List Byte) : Nat := le bs 20 3
def hdrLength (bs : List Byte) : Nat := le bs 24 4
def hdrSvn (bs : List Byte) : Nat := le bs 28 2

/-- The plaintext of a stream as transmitted: the body decrypted when ENC is 1 (R248). -/
def plainOf (raw : List Byte) : List Byte :=
  if hdrEnc raw then
    let stop := hdrLength raw - 224
    let iv := ivBytes raw
    raw.zipIdx.map (fun p =>
      if 64 ≤ p.2 ∧ p.2 < stop then
        let j := p.2 - 64
        p.1 ^^^ BitVec.ofNat 8 ((keyBlock iv (2 + j / 16)).toNat / 256 ^ (15 - j % 16))
      else p.1)
  else raw

/-- The GCM tag over header and ciphertext body. -/
def gcmTag (raw : List Byte) : Nat :=
  let body := cut raw 64 (hdrLength raw - 288)
  let h := Config.aes256 Config.configKey 0
  let x := Config.ghash h (cut raw 0 64 ++ body ++ toBe 8 512 ++ toBe 8 (8 * body.length))
  (x ^^^ keyBlock (ivBytes raw) 1).toNat

/-! ### Frames (Tables 7-5 and 7-6) -/

/-- A frame: its header words 0 and 1, whether words 2 and 3 hold nonzero reserved bits, and its payload. -/
structure LFrame where
  w0 : Nat
  w1 : Nat
  extra : Bool
  pay : List Byte

def LFrame.kind (f : LFrame) : Nat := bitsOf f.w0 31 28
def LFrame.index (f : LFrame) : Nat := bitsOf f.w0 27 24
def LFrame.unit (f : LFrame) : Nat := bitsOf f.w0 21 16
def LFrame.row (f : LFrame) : Nat := bitsOf f.w1 23 16
def LFrame.col (f : LFrame) : Nat := bitsOf f.w1 7 0
def LFrame.block (f : LFrame) : Nat := bitsOf f.w1 6 0
def LFrame.tiles (f : LFrame) : Nat := bitsOf f.w1 31 16
/-- Cells of a CELLS frame. -/
def LFrame.cells (f : LFrame) : Nat := f.pay.length / 32
/-- Cell record `i` of a CELLS frame. -/
def LFrame.rec_ (f : LFrame) (i : Nat) : BitVec 256 := BitVec.ofNat 256 (le f.pay (32 * i) 32)
/-- A sheet kind. -/
def LFrame.sheetKind (f : LFrame) : Bool := decide (f.kind = 1 ∨ f.kind = 2 ∨ f.kind = 3 ∨ f.kind = 5)

/-- The frames between offset `off` and `stop`; none when they do not tile it exactly. -/
def parseFrames (bs : List Byte) (stop : Nat) : Nat → Nat → Option (List LFrame)
  | 0, off => if off = stop then some [] else none
  | fuel + 1, off =>
    if off = stop then some []
    else if stop < off + 16 then none
    else
      let n := le bs (off + 8) 3
      if stop < off + 16 + n then none
      else (parseFrames bs stop fuel (off + 16 + n)).map (fun l =>
        ⟨le bs off 4, le bs (off + 4) 4, le bs (off + 11) 5 != 0, cut bs (off + 16) n⟩ :: l)

/-- The frames of a plaintext stream. -/
def framesOf (bs : List Byte) : Option (List LFrame) := parseFrames bs (hdrLength bs - 224) (bs.length / 16) 64

/-! ### Checks 1 to 4 -/

/-- Check 1. -/
def hdrBad1 (bs : List Byte) : Bool :=
  decide (le bs 0 4 ≠ 0x51444346) || decide (le bs 6 2 ≠ 1) || bitsOf (le bs 4 1) 6 4 != 0 || le bs 17 3 != 0 ||
  le bs 23 1 != 0 || le bs 30 2 != 0 || le bs 44 20 != 0 || (!hdrEnc bs && le bs 32 12 != 0)

/-- Number of bits set among the low 40. -/
def ones (n : Nat) : Nat := ((List.range 40).filter n.testBit).length

/-- Check 2. -/
def hdrBad2 (bs : List Byte) : Bool :=
  let t := hdrTarget bs
  match hdrClass bs with
  | 1 => t != 0
  | 2 => !(decide (t < 4) || (decide (t = 15) && ones (hdrSheets bs) == 1))
  | 3 => t != 0
  | _ => true

/-- The class is permitted in the present state (R252). -/
def State.classOk (s : State) (cls : Nat) : Bool :=
  match s.sys.dev with
  | .ready => decide (cls = 1) && s.svy.committed
  | .charted => decide (cls = 2 ∨ cls = 3)
  | .onAir => decide (cls = 2 ∨ cls = 3)
  | .quiet => decide (cls = 2 ∨ cls = 3)
  | _ => false

/-- The masks lie within the grant of chart port `n` (R259). -/
def State.grantHolds (s : State) (n sheets wales : Nat) : Bool :=
  s.flag (R.LDR_GRANT_WALES_HI n) F.LDR_GRANT_WALES_HI_EN &&
  decide ((s.rd (R.LDR_GRANT_SHEETS n)).toNat &&& sheets = sheets) &&
  decide (((s.rd (R.LDR_GRANT_WALES_LO n)).toNat + s.get (R.LDR_GRANT_WALES_HI n) F.LDR_GRANT_WALES_HI_WALES_HI * 2 ^ 32)
    &&& wales = wales)

/-- Checks 1 to 4: reason and code of the first failure. -/
def State.headerFails (s : State) (x : LdrCtx) : Option (Nat × RetCode) :=
  let h := x.raw
  let n := hdrLength h
  if hdrBad1 h then some (0x01, .BAD_FIELD)
  else if hdrBad2 h then some (0x02, .BAD_FIELD)
  else if !s.classOk (hdrClass h) then some (0x12, .NOT_PERMITTED)
  else if n % 16 ≠ 0 ∨ n < 320 ∨ 67108864 < n then some (0x03, .BAD_LENGTH)
  else match x.src with
    | .host _ b _ => if n ≠ b then some (0x03, .BAD_LENGTH) else none
    | .port p => if s.grantHolds p (hdrSheets h) (hdrWales h) then none else some (0x0B, .REGION_VIOLATION)
    | .flash _ => none

/-! ### Check 10 -/

/-- Bits of word 1 a kind uses (Table 7-5). -/
def w1Used (kind : Nat) : Nat :=
  match kind with | 1 => 0xFF00FF | 3 => 0x7F | 4 => 0xFFFF0000 | _ => 0

/-- Payload length of a kind, where it is fixed. -/
def payFixed (kind : Nat) : Option Nat :=
  match kind with | 2 => some 688 | 3 => some 4608 | 4 => some 6160 | 5 => some 16 | 6 => some 16 | 7 => some 64 | _ => none

/-- The kind is defined and allowed in the class (Table 7-6). -/
def kindOk (cls kind : Nat) : Bool :=
  match kind with
  | 1 => decide (cls = 1 ∨ cls = 2)
  | 2 => decide (cls = 1 ∨ cls = 2)
  | 3 => decide (cls = 1 ∨ cls = 2)
  | 4 => decide (cls = 1 ∨ cls = 3)
  | 5 => decide (cls = 1)
  | 6 => decide (cls = 1)
  | 7 => decide (cls = 1)
  | _ => false

/-- INDEX as Table 7-6 and R246 give. -/
def indexOk (cls target : Nat) (f : LFrame) : Bool :=
  match f.kind with
  | 4 => true
  | 1 => if cls = 2 then f.index == 15 || f.index == target else decide (f.index < 4)
  | 2 => if cls = 2 then f.index == 15 || f.index == target else decide (f.index < 4)
  | _ => f.index == 0

/-- A frame's own rules of check 10. -/
def frameOk (cls target : Nat) (f : LFrame) : Bool :=
  kindOk cls f.kind && !f.extra && bitsOf f.w0 23 22 == 0 && f.w0 % 2 ^ 16 == 0 &&
  decide (f.w1 &&& w1Used f.kind = f.w1) && decide (f.pay.length % 16 = 0) &&
  decide (f.unit < if f.sheetKind then 32 else 40) && indexOk cls target f &&
  (match payFixed f.kind with
    | some n => decide (f.pay.length = n)
    | none => decide (f.pay.length % 32 = 0 ∧ 0 < f.cells ∧ f.row < 192 ∧ f.col + f.cells ≤ 192)) &&
  (match f.kind with
    | 1 => (List.range f.cells).all (fun i => bitsOf (f.rec_ i).toNat 95 89 == 0)
    | 2 => bitsOf (le f.pay 0x1A4 1) 7 2 == 0 && le f.pay 0x1A5 11 == 0
    | 4 => f.tiles != 0 && le f.pay 6152 8 == 0
    | 5 => decide (le f.pay 0 16 < 4)
    | 6 => le f.pay 10 6 == 0
    | _ => true)

/-- Two frames write one thing (R247). -/
def framesMeet (cls : Nat) (f g : LFrame) : Bool :=
  decide (f.kind = g.kind ∧ f.unit = g.unit) &&
  (match f.kind with
    | 1 => (cls == 2 || f.index == g.index) && f.row == g.row && decide (f.col < g.col + g.cells) &&
        decide (g.col < f.col + f.cells)
    | 2 => cls == 2 || f.index == g.index
    | 3 => f.block == g.block
    | 4 => f.index == g.index && (f.tiles &&& g.tiles) != 0
    | _ => true)

/-- No two frames of a list meet. -/
def framesApart (cls : Nat) : List LFrame → Bool
  | [] => true
  | f :: l => l.all (fun g => !framesMeet cls f g) && framesApart cls l

/-- Pattern of tile `j` and tiles to start of a START_WALE frame. -/
def LFrame.startPat (f : LFrame) (j : Nat) : Nat := bitsOf (le f.pay 0 8) (4 * j + 3) (4 * j)
def LFrame.startTiles (f : LFrame) : Nat := le f.pay 8 2
/-- Plane of a START_SHEET frame. -/
def LFrame.startPlane (f : LFrame) : Nat := le f.pay 0 1 % 4

/-- What START frames name is in the stream. -/
def startsPresent (l : List LFrame) : Bool :=
  l.all (fun f =>
    match f.kind with
    | 5 => l.any (fun g => decide ((g.kind = 1 ∨ g.kind = 2) ∧ g.unit = f.unit ∧ g.index = f.startPlane))
    | 6 => (List.range 16).all (fun j => !f.startTiles.testBit j ||
        l.any (fun g => decide (g.kind = 4 ∧ g.unit = f.unit ∧ g.index = f.startPat j) && g.tiles.testBit j))
    | _ => true)

/-- The trailer's reserved bits, and GCM_TAG when ENC is 0. -/
def trailerOk (bs : List Byte) : Bool :=
  let t := hdrLength bs - 224
  bitsOf (le bs (t + 0x70) 1) 7 2 == 0 && le bs (t + 0x71) 15 == 0 && (hdrEnc bs || le bs (t + 0x60) 16 == 0)

/-- Check 10: the reason of the failure. -/
def bodyFails (bs : List Byte) : Option Nat :=
  match framesOf bs with
  | none => some 0x04
  | some l =>
    if l.length ≠ hdrFrames bs then some 0x04
    else if l.all (frameOk (hdrClass bs) (hdrTarget bs)) && framesApart (hdrClass bs) l && startsPresent l && trailerOk bs then none
    else some 0x05

/-! ### Content rules (R251) -/

/-- The plane of a CELLS or PLANE_CTRL frame: the resolved target in PARTIAL. -/
def LFrame.planeIn (f : LFrame) (cls target : Nat) : Nat := if cls = 2 then target else f.index

/-- The planes a stream writes, ascending, as 4 × sheet + plane. -/
def planesOf (cls target : Nat) (l : List LFrame) : List Nat :=
  (List.range 128).filter (fun k => l.any (fun f => decide ((f.kind = 1 ∨ f.kind = 2) ∧ 4 * f.unit + f.planeIn cls target = k)))

/-- A plane is written whole (R247). -/
def State.writePlane (s : State) (cls target : Nat) (l : List LFrame) (k : Nat) : State :=
  let mine := l.filter (fun f => decide (4 * f.unit + f.planeIn cls target = k))
  let cells := mine.foldl (fun m f =>
    if f.kind = 1 then (List.range f.cells).foldl (fun m i =>
      sset (fun _ => (0 : BitVec 256)) m (36864 * k + 192 * f.row + f.col + i) (f.rec_ i)) m else m)
    (sfilter (fun i => decide (i / 36864 ≠ k)) s.fabric.cells)
  let ctrl := mine.foldl (fun m f =>
    if f.kind = 2 then f.pay.zipIdx.foldl (fun m p => sset (fun _ => (0 : Byte)) m (688 * k + p.2) p.1) m else m)
    (sfilter (fun i => decide (i / 688 ≠ k)) s.fabric.ctrl)
  { s with fabric := { s.fabric with cells := cells, ctrl := ctrl } }

/-- A two-bit field of plane control bytes `lo` to `hi` holds 3. -/
def State.ctrlThree (s : State) (n p lo hi : Nat) : Bool :=
  (List.range (hi + 1 - lo)).any (fun i =>
    let b := s.planeByte n p (lo + i)
    (List.range 4).any (fun j => decide (b / 4 ^ j % 4 = 3)))

/-- The riser ports of which multiplexer `m` of cell `i` at a non-zero select uses a signal (R183): the one whose signal its input carries,
the one whose signal it drives. -/
def muxPorts (i m sel : Nat) : List Nat :=
  if sel = 0 then []
  else (Config.muxRiser i m).toList ++ (match Config.wireMap i m sel with
    | .rxAvail k _ => [k] | .rxData k _ => [k] | .rxSb k _ => [k] | .txCredit k _ => [k]
    | _ => [])

/-- The plane `p` of sheet `n`, as written, breaks R251. -/
def State.planeBad (s : State) (n p : Nat) : Bool :=
  s.ctrlThree n p 0 0x1A3 || decide (s.planeByte n p 0x1A4 % 4 = 3) ||
  (s.planeCells n p).any (fun e =>
    decide (5 < cSrsel e.2) || decide (4 < cDsel e.2 0) || decide (4 < cDsel e.2 1) ||
    (List.range 32).any (fun m => decide (Config.muxInputs e.1 m < cRoute e.2 m) ||
      (muxPorts e.1 m (cRoute e.2 m)).any (fun k => decide (k < 40) && decide (s.planeOrient n p k = 0)))) ||
  (List.range 128).any (fun b =>
    let a := s.bramCfg n p b 0
    let c := s.bramCfg n p b 1
    decide (4 < a.shape) || decide (4 < c.shape) || decide (a.rdw = 3) || decide (c.rdw = 3) ||
    (a.used && c.used && (decide (3 ≤ a.shape) || decide (3 ≤ c.shape))))

/-- Pattern bytes and riser record of tile `t` replaced. -/
def State.writePattern (s : State) (t p : Nat) (bs : List Byte) : State :=
  { s with stitch := { s.stitch with pats := (bs.take 6152).zipIdx.foldl (fun m e =>
      sset (fun _ => (0 : Byte)) m ((t * 16 + p) * 6152 + e.2) e.1) s.stitch.pats } }

/-- Opcodes of Table 4-4. -/
def opDefined (o : Nat) : Bool := decide (o ≤ 0x16) || decide (0x20 ≤ o ∧ o ≤ 0x24)
/-- An operand code of Table 4-8. -/
def operandOk (v : Nat) : Bool := decide (v ≤ 0x41) || decide (0x44 ≤ v ∧ v ≤ 0x4F)

/-- Slot `k` of unit `u` breaks a rule (R124, R132, R134, R135, R145). The operand and rounding fields are judged whether or not the opcode
uses them. DESIGN CHOICE (log entry 33): a pair or group that R124 does not allow is refused, though R251 does not name R124. -/
def State.slotBad (s : State) (t p u k : Nat) : Bool :=
  let n := s.patBytes t p (0x400 + 10 * (64 * u + k)) 10
  let w := slotOf n
  let ii := s.patII t p
  bitsOf n 19 16 != 0 || !opDefined w.opc || (decide (0x20 ≤ w.opc) && decide (u < 6)) || decide (s.patSC t p ≤ w.stage) ||
  !operandOk w.a || !operandOk w.b || !operandOk w.c || decide (w.rnd = 3) || (decide (w.opc = 12) && decide (5 < w.ag)) ||
  (decide (w.opc = 0x11 ∨ w.opc = 0x12) && decide (7 < w.ag)) || (decide (w.opc = 0x13 ∨ w.opc = 0x14) && decide (3 < w.ag)) ||
  (decide (w.opc = 16) && !decide (8 ≤ w.shf ∧ w.shf ≤ 14)) ||
  (decide (w.opc = 6 ∨ w.opc = 0x13 ∨ (w.opc = 0x11 ∧ w.m 4 = true)) && decide (w.dst % 2 = 1)) ||
  (decide (w.opc = 7) && (decide (w.dst % 4 ≠ 0) ||
    [1, 2, 3].any (fun j => decide ((s.slotWord t p u ((k + j) % ii)).opc ≠ 0))))

/-- The source of a driven output: an output channel, or a pass-through input. -/
def routeSource (b : Nat) : Nat := if b.testBit 6 then 64 + bitsOf b 5 3 * 4 + b % 4 else b % 4

/-- DN`d` is routed by the pattern, as an input or an output. -/
def State.usesDn (s : State) (t p d : Nat) : Bool :=
  (List.range 4).any (fun c => decide (bitsOf (s.patByte t p (0x90 + c)) 6 4 = 4 + d)) ||
  (List.range 24).any (fun i =>
    let b := s.patByte t p (0x98 + i)
    b.testBit 7 && (decide (i / 4 = 4 + d) || (b.testBit 6 && decide (bitsOf b 5 3 = 4 + d))))

/-- Bits a control block word leaves reserved are clear (Table 4-6). -/
def State.cbClear (s : State) (t p off mask : Nat) : Bool :=
  let v := s.patBytes t p off 4
  decide (v &&& mask = v)

/-- Pattern `p` as written in tile `t` breaks R251. -/
def State.patBad (s : State) (t p : Nat) : Bool :=
  let ii := s.patII t p
  let sc := s.patSC t p
  decide (s.patByte t p 3 ≠ 1) || decide (ii = 0) || decide (64 < ii) || decide (sc = 0) || decide (16 < sc) ||
  decide (s.patL0 t p = 0) || decide (s.patL1 t p = 0) ||
  !s.cbClear t p 0 0xFF7F1F0F || !s.cbClear t p 8 0xFFFF0F0F || decide (s.patBytes t p 0xC 4 ≠ 0) ||
  (List.range 8).any (fun g =>
    !s.cbClear t p (0x10 + 16 * g) 0x0F1DFFFF || !s.cbClear t p (0x14 + 16 * g) 0x3FFFF ||
    !s.cbClear t p (0x18 + 16 * g) 0x3FFFF || !s.cbClear t p (0x1C + 16 * g) 0x1FFFF ||
    decide (s.agMode t p g = 3) ||
    (decide (s.agMode t p g = 1) &&
      (decide (s.agLen t p g < 4) || decide (131072 < s.agLen t p g) || decide (s.agLen t p g % 4 ≠ 0)))) ||
  (List.range 4).any (fun c =>
    let b := s.patByte t p (0x90 + c)
    b.testBit 7 || bitsOf b 3 2 != 0 || decide (5 < bitsOf b 6 4)) ||
  decide (s.patBytes t p 0x94 4 ≠ 0) || decide (s.patBytes t p 0xB0 0x350 ≠ 0) ||
  (List.range 24).any (fun i =>
    let b := s.patByte t p (0x98 + i)
    b.testBit 2 || (b.testBit 7 && b.testBit 6 && decide (5 < bitsOf b 5 3)) ||
    (b.testBit 7 && (List.range i).any (fun j =>
      let b' := s.patByte t p (0x98 + j)
      b'.testBit 7 && routeSource b' == routeSource b))) ||
  (List.range 2).any (fun d =>
    let r := s.patByte t p (6144 + d)
    decide (r / 16 ≠ 0) || decide (r % 4 = 3) || decide (r / 4 % 4 = 3) || (s.usesDn t p d && decide (r % 4 = 0))) ||
  decide (s.patBytes t p 6146 6 ≠ 0) ||
  (List.range 8).any (fun u => (List.range (min ii 64)).any (s.slotBad t p u))

/-- Check 12: the reason of the failure. The frames are tried on a copy of the state; `target` is any plane in PARTIAL. -/
def State.contentFails (s : State) (bs : List Byte) : Option Nat :=
  let l := (framesOf bs).getD []
  let cls := hdrClass bs
  let tg := if hdrTarget bs = 15 then 0 else hdrTarget bs
  let ps := planesOf cls tg l
  let h := ps.foldl (fun s k => s.writePlane cls tg l k) s
  if ps.any (fun k => h.planeBad (k / 4) (k % 4)) then some 0x0E
  else if l.any (fun f =>
      (decide (f.kind = 4) && (s.writePattern 0 0 f.pay).patBad 0 0) ||
      (decide (f.kind = 7) && (List.range 16).any (fun j => decide (2 ^ 20 ≤ le f.pay (4 * j) 4)))) then some 0x0C
  else none

/-- Checks 6 to 12: reason and code of the first failure. -/
def State.verifyFails (s : State) (raw : List Byte) : Option (Nat × RetCode) :=
  let n := hdrLength raw
  let t := n - 224
  let key := cut raw t 96
  let slot := le raw (t + 0x70) 1 % 4
  let bs := plainOf raw
  if hdrSvn raw < s.get R.LDR_FUSE F.LDR_FUSE_SVN_MIN then some (0x06, .AUTH_FAILED)
  else if (s.get R.LDR_FUSE F.LDR_FUSE_REVOKED).testBit slot ∨ ¬ (s.get R.LDR_FUSE F.LDR_FUSE_PRESENT).testBit slot ∨
      Config.sha384 key ≠ Config.keySlotDigest slot then some (0x07, .AUTH_FAILED)
  else if !Config.ecdsaVerify key (Config.sha384 (cut raw 0 (n - 96))) (cut raw (n - 96) 96) then some (0x08, .AUTH_FAILED)
  else if hdrEnc raw ∧ (¬ s.flag R.LDR_FUSE F.LDR_FUSE_ENC_KEY ∨ be (cut raw (t + 0x60) 16) ≠ gcmTag raw) then
    some (0x09, .AUTH_FAILED)
  else match bodyFails bs with
    | some r => some (r, .BAD_FIELD)
    | none =>
      let l := (framesOf bs).getD []
      if l.any (fun f => !((if f.sheetKind then hdrSheets raw else hdrWales raw).testBit f.unit)) then
        some (0x0A, .REGION_VIOLATION)
      else (s.contentFails bs).map (fun r => (r, .BAD_FIELD))

/-! ### Commit-time checks -/

/-- Plane `p` is active on sheet `n`. -/
def State.planeActive (s : State) (n p : Nat) : Bool := s.activePlane n == some p

/-- The plane TARGET 0xF stands for on sheet `n` (R253). -/
def State.anyPlane (s : State) (n : Nat) : Option Nat :=
  let idle := (List.range 4).filter (fun p => !s.planeActive n p)
  let named := fun p => s.airLoaded.any (fun t => (s.airEntries t (s.airCount t)).any (fun e => e.planeOf n == some p))
  (idle.find? (fun p => !s.planeValid n p)).orElse (fun _ => idle.find? (fun p => !named p))

/-- The plane a PARTIAL stream writes; 0 for the other classes. -/
def State.resolveTarget (s : State) (bs : List Byte) : Option Nat :=
  if hdrClass bs ≠ 2 then some 0
  else if hdrTarget bs < 4 then some (hdrTarget bs)
  else s.anyPlane (((List.range 32).find? (hdrSheets bs).testBit).getD 0)

/-- Pattern `p` is active in tile `t`. -/
def State.patActive (s : State) (t p : Nat) : Bool :=
  (s.tile t).live && !s.tileNull t && decide (s.activePat t = p)

/-- Check 14: the reason of the failure. -/
def State.useFails (s : State) (cls target : Nat) (l : List LFrame) : Option Nat :=
  l.findSome? (fun f =>
    match f.kind with
    | 1 => if s.planeActive f.unit (f.planeIn cls target) then some 0x10 else none
    | 2 => if s.planeActive f.unit (f.planeIn cls target) then some 0x10 else none
    | 3 => if cls = 2 ∧ s.planeActive f.unit target then some 0x10 else (match s.activePlane f.unit with
      | some p => if s.bramUsed f.unit p f.block then some 0x0F else none
      | none => none)
    | 4 => if (List.range 16).any (fun j => f.tiles.testBit j && s.patActive (16 * f.unit + j) f.index) then some 0x0F else none
    | _ => none)

/-- Order 1 of Table 7-11. -/
def State.writeBankmaps (s : State) (l : List LFrame) : State :=
  l.foldl (fun s f => if f.kind = 7 then
    (List.range 16).foldl (fun s j => s.wr (R.WAL_BANKMAP f.unit j) (word (le f.pay (4 * j) 4))) s else s) s

/-- Check 15. -/
def State.banksClash (s : State) (l : List LFrame) : Bool :=
  let m := s.writeBankmaps l
  l.any (fun f =>
    match f.kind with
    | 4 => (List.range 16).any (fun j => f.tiles.testBit j &&
        (List.range 4).any (fun b => (le f.pay 0 1).testBit b && m.bankForeign (16 * f.unit + j) f.index b))
    | 7 => s.flag (R.WAL_CTRL f.unit) F.WAL_CTRL_LOCK
    | _ => false)

/-- One thing that orders 1 to 4 of Table 7-11 write: the bank maps, block `block` of sheet `n`, plane `k` % 4 of sheet `k` / 4, pattern `p`
of tile `t`. -/
inductive CommitItem where
  | banks
  | block (n b : Nat)
  | plane (k : Nat)
  | pattern (t p : Nat)
  deriving DecidableEq, Repr

/-- What a commit writes, in the order of Table 7-11. -/
def commitItems (cls target : Nat) (l : List LFrame) : List CommitItem :=
  (if l.any (fun f => decide (f.kind = 7)) then [.banks] else []) ++
  ((List.range 4096).filter (fun k => l.any (fun f => decide (f.kind = 3 ∧ 128 * f.unit + f.block = k)))).map (fun k =>
    .block (k / 128) (k % 128)) ++
  (planesOf cls target l).map .plane ++
  ((List.range 10240).filter (fun i => l.any (fun f =>
    decide (f.kind = 4 ∧ f.unit = waleOf (i / 16) ∧ f.index = i % 16) && f.tiles.testBit (posOf (i / 16))))).map (fun i => .pattern (i / 16) (i % 16))

/-- Bytes an item takes on the write port (R245, R254). -/
def CommitItem.bytes : CommitItem → Nat
  | .banks => 64
  | .block _ _ => 4608
  | .plane _ => 36864 * 32 + 688
  | .pattern _ _ => 6152

/-- The writing of an item begins: its valid bit clears (R219, R254). -/
def State.itemBegin (s : State) (i : CommitItem) : State :=
  match i with
  | .plane k => s.setBit (R.SHT_STATUS (k / 4)) (F.SHT_STATUS_PLANE_VALID.lo + k % 4) false
  | .pattern t p => s.setBit (R.WAL_PATVALID (waleOf t) (posOf t)) p false
  | _ => s

/-- An item has landed: its valid bit is set, a plane's FIRST_PENDING bit with it. -/
def State.itemLand (s : State) (cls target : Nat) (l : List LFrame) (i : CommitItem) : State :=
  match i with
  | .banks => s.writeBankmaps l
  | .block n b => l.foldl (fun s f =>
      if f.kind = 3 ∧ f.unit = n ∧ f.block = b then s.setBramBits n b 0 36864 (le f.pay 0 4608) else s) s
  | .plane k =>
    let r := R.SHT_STATUS (k / 4)
    ((s.writePlane cls target l k).setBit r (F.SHT_STATUS_PLANE_VALID.lo + k % 4) true).setBit r (F.SHT_STATUS_FIRST_PENDING.lo + k % 4) true
  | .pattern t p => (l.foldl (fun s f =>
      if f.kind = 4 ∧ f.unit = waleOf t ∧ f.tiles.testBit (posOf t) ∧ f.index = p then s.writePattern t p f.pay else s) s).setBit
        (R.WAL_PATVALID (waleOf t) (posOf t)) p true

/-- Orders 1 to 4 of Table 7-11. -/
def State.writeFrames (s : State) (cls target : Nat) (l : List LFrame) : State :=
  (commitItems cls target l).foldl (fun s i => s.itemLand cls target l i) s

/-- How many items the write port, at 64 bytes a nanosecond, has written in `ns`. -/
def itemsIn (ns : Nat) : List CommitItem → Nat
  | [] => 0
  | i :: l => if i.bytes ≤ 64 * ns then 1 + itemsIn (ns - i.bytes / 64) l else 0

/-- The items of the commit in progress that have landed by now land, and the next begins (O5). -/
def State.commitLand (s : State) : State :=
  match s.ldr.writing.bind (fun c => (s.ctx c).map (fun x => (c, x))) with
  | none => s
  | some (c, x) =>
    let bs := plainOf x.raw
    let l := (framesOf bs).getD []
    let cls := hdrClass bs
    let tg := s.get (R.LDR_CTX c) F.LDR_CTX_PLANE
    let items := commitItems cls tg l
    let n := max s.ldr.landed (itemsIn (s.stamp - s.ldr.began) items)
    let s := ((items.take n).drop s.ldr.landed).foldl (fun s i => s.itemLand cls tg l i) s
    let s := { s with ldr := { s.ldr with landed := n } }
    match items.drop n with
    | i :: _ => s.itemBegin i
    | [] => s

/-- All that is left of a commit lands. -/
def State.commitRest (s : State) (cls target : Nat) (l : List LFrame) : State :=
  ((commitItems cls target l).drop s.ldr.landed).foldl (fun s i => s.itemLand cls target l i) s

/-- A commit touches port `k` of sheet `n`. -/
def touches (l : List LFrame) (n k : Nat) : Bool :=
  let t := (tileOfRiser n k).1
  l.any (fun f => decide ((f.kind = 1 ∨ f.kind = 2) ∧ f.unit = n) ||
    (decide (f.kind = 4 ∧ f.unit = waleOf t) && f.tiles.testBit (posOf t)))

/-- Plane and pattern active at a port once the commit, with its START frames, completes. -/
def State.pairAfter (s : State) (l : List LFrame) (n t : Nat) : Pair :=
  let now := s.pairNow n t
  ((l.findSome? (fun f => if f.kind = 5 ∧ f.unit = n then some f.startPlane else none)).orElse (fun _ => now.1),
   (l.findSome? (fun f => if f.kind = 6 ∧ f.unit = waleOf t ∧ f.startTiles.testBit (posOf t) then
      some (f.startPat (posOf t)) else none)).orElse (fun _ => now.2))

/-- Checks 13 to 16: reason, code, wire identifier. -/
def State.commitFails (s : State) (x : LdrCtx) : Except (Nat × RetCode × Word) Nat :=
  let bs := plainOf x.raw
  let l := (framesOf bs).getD []
  let cls := hdrClass bs
  let region := match x.src with | .port p => !s.grantHolds p (hdrSheets bs) (hdrWales bs) | _ => false
  if region then .error (0x0B, .REGION_VIOLATION, 0)
  else match s.resolveTarget bs with
    | none => .error (0x10, .REFUSED_IN_USE, 0)
    | some tg => match s.useFails cls tg l with
      | some r => .error (r, .REFUSED_IN_USE, 0)
      | none =>
        if s.banksClash l then .error (0x0D, .REFUSED_IN_USE, 0)
        else
          let h := s.writeFrames cls tg l
          match h.riserWalk (s.walkTables none) (touches l) (h.pairAfter l) with
          | some w => .error (0x11, .DRIVER_CONFLICT, w)
          | none => .ok tg

/-- Order 5: the orientation recorded for every port touched (R234). -/
def State.recordOrient (s : State) (l : List LFrame) : State :=
  (List.range 1280).foldl (fun s i =>
    let n := i / 40
    let k := i % 40
    if touches l n k then
      let (t, d) := tileOfRiser n k
      let c := s.pairAfter l n t
      let a := s.orientP n k c.1
      let b := s.orientT t d c.2
      let v := if a ≠ 0 then a else if b ≠ 0 then b else 1
      { s with fabric := { s.fabric with recorded := sset (fun _ => 1) s.fabric.recorded (40 * n + k) v } }
    else s) s

/-- Order 6: the start group, ordered 2 µs on; answers how many orders it holds. -/
def State.startGroup (s : State) (l : List LFrame) : Nat × State :=
  let at_ := s.stamp + 2000
  l.foldl (fun (n, s) f =>
    match f.kind with
    | 5 => (n + 1, s.orderSheet f.unit f.startPlane at_ .loader)
    | 6 => if f.startTiles = 0 then (n, s) else (n + 1, s.orderWale f.unit f.startTiles (le f.pay 0 8) at_ .loader)
    | _ => (n, s)) (0, s)

end Sys2Proof.Machine
end

