-- ==== Sys2Proof/Machine/Nets.lean ====
section
/-! DEFINITION. What the signals of a sheet carry (R183 to R186): multiplexers over the sheet wire map, carries, borders and their crossings
(R184, R465), risers, I/O slots; and the edges of a sheet's clocks: local trees (R195), asynchronous set/reset (R182), the flip-flops, the
switch edge (R221). -/

namespace Sys2Proof.Machine

/-! ### Pads of I/O slots (R193, R686, Table 24-4) -/

/-- FUNC of a pin. -/
def State.pinFunc (s : State) (p : Nat) : Nat := s.get (R.PIO_CFG p) F.PIO_CFG_FUNC

/-- Handover of a pin in progress. -/
def State.hand (s : State) (p : Nat) : Option Handover := sget (fun _ => none) s.pins.hand p

/-- OWNER and SHEET of a pin. -/
def State.pinOwner (s : State) (p : Nat) : Nat := s.get (R.PIO_CFG p) F.PIO_CFG_OWNER
def State.pinSheet (s : State) (p : Nat) : Nat := s.get (R.PIO_CFG p) F.PIO_CFG_SHEET
/-- EN of a pin. -/
def State.pinEn (s : State) (p : Nat) : Bool := s.flag (R.PIO_CFG p) F.PIO_CFG_EN
/-- Sheet `n` owns pin `p` as FABRIC. -/
def State.pinOf (s : State) (p n : Nat) : Bool := s.pinOwner p == 2 && s.pinSheet p == n

/-- The pins. -/
def allPins : List Nat := List.range 224

/-- Step 1 of a handover has passed (Table 24-3). -/
def State.handing (s : State) (p : Nat) : Bool := match s.hand p with | some h => decide (h.h ≤ s.stamp) | none => false

/-- Always open drain: I2C. -/
def funcI2c (f : Nat) : Bool := decide (0x20 ≤ f ∧ f ≤ 0x27)

/-- The latch of a pin. -/
def State.pinLatch (s : State) (p : Nat) : Bool := s.bit (R.PIO_OUT (p / 32)) (p % 32)

/-- HALTED or TRIPPED. -/
def State.pinsReleased (s : State) : Bool := decide (s.sys.dev = .halted ∨ s.sys.dev = .tripped)

/-- A pad's driver, open drain where that is set or the function is I2C. -/
def State.padOut (s : State) (p : Nat) (oe level : Bool) : Bool × Bool :=
  (oe && !((s.flag (R.PIO_CFG p) F.PIO_CFG_OPEN_DRAIN || funcI2c (s.pinFunc p)) && level), level)

/-- What drives a pad of function 1 (latch) or 2 (slot), where the slot's selvedge cells present `live` and `liveOe`. -/
def State.padSlot (s : State) (p : Nat) (live liveOe : Bool) : Bool × Bool :=
  if s.sys.hiZ ∨ s.handing p = true then (false, false)
  else if s.pinFunc p = 1 then s.padOut p (s.pinEn p && !s.pinsReleased) (s.pinLatch p)
  else if s.pinFunc p = 2 ∧ ¬ (s.pinsReleased = true ∨ s.sys.dev = .dormant) then s.padOut p liveOe live
  else (false, false)

/-! ### Signals (R183 to R186) -/

/-- DESIGN CHOICE (log entry 69): bit `i` of the open values that one evaluation of a sheet's signals may use. -/
def State.netOpen (s : State) (i : Nat) : Bool := (Config.freeWord (s.free + i / 64)).getLsbD (i % 64)

/-- The next evaluation uses others. -/
def State.netDrawn (s : State) : State := { s with free := s.free + 50 }

/-- What multiplexer `m` of cell `i` drives: 0 at select 0, else the signal its select names (R183). -/
def State.muxBit (s : State) (val : Nat → Net → Bool) (n p i m : Nat) : Bool :=
  let sel := cRoute (s.cell n p i) m
  decide (sel ≠ 0) && val n (Config.wireMap i m sel)

/-- What the inputs of cell `i` read: multiplexers 0 to 5 give K0 to K5, 6 X, 7 CE, 8 SR (Table 7-8). -/
def State.cellIn (s : State) (val : Nat → Net → Bool) (n p i : Nat) : CellIn :=
  let mux := s.muxBit val n p i
  ⟨(List.range 6).foldl (fun a m => a + b2n (mux m) * 2 ^ m) 0, mux 6, mux 7, mux 8⟩

/-- The carry that reaches cell `i` from the south; none crosses a sheet border (R181). -/
def cellSouth (val : Nat → Net → Bool) (n i : Nat) : Bool := decide (192 ≤ i) && val n (.cell (i - 192) 4)

/-- Output `out` of cell `i`. -/
def State.cellOut (s : State) (val : Nat → Net → Bool) (n p i out : Nat) : Bool :=
  let r := s.cell n p i
  let c := s.cellIn val n p i
  match out with
  | 0 => cellY r c
  | 1 => cellYE r c
  | 2 => cellYO r c
  | 3 => cellS r c (cellSouth val n i)
  | 4 => cellCO r c (cellSouth val n i)
  | 5 => s.ff n i 0
  | 6 => s.ff n i 1
  | _ => false

/-- What the fabric drives on signal `w` on its way out of sheet `n`. -/
def State.outLive (s : State) (val : Nat → Net → Bool) (n w : Nat) : Bool :=
  match s.activePlane n with
  | some p => s.muxBit val n p (Config.outWire w).1 (Config.outWire w).2
  | none => false

/-- The sheet across side `side` (0 N, 1 E, 2 S, 3 W) of sheet `n`; none at an edge of the tier (R175, R184). -/
def sheetBeside (n side : Nat) : Option Nat :=
  match side with
  | 0 => if n < 24 then some (n + 8) else none
  | 1 => if n % 8 < 7 then some (n + 1) else none
  | 2 => if 8 ≤ n then some (n - 8) else none
  | _ => if 0 < n % 8 then some (n - 1) else none

/-- A value presented since stamp `since` has been held for 6 cycles of the slower clock of sheets `n` and `m` (R465). -/
def State.heldSix (s : State) (n m since : Nat) : Bool := decide (6000000 ≤ (s.stamp - since) * min (s.khzOf n) (s.khzOf m))

/-- Border wire `wire` of sheet `m` as another island, sheet `n`, sees it (R465): the value last delivered while the sender is stopped or the
present one has not been delivered yet. DESIGN CHOICE (log entry 69): bit `i` of the open values tells whether a value held for less than 6 cycles has. -/
def State.crossed (s : State) (m n wire i : Nat) : Bool :=
  let r := sget (fun _ => ⟨false, false, 0⟩) s.fabric.border (1536 * m + wire)
  if s.islandRuns m && (s.heldSix n m r.since || s.netOpen i) then r.cur else r.last

/-- Incoming wire `w` of a border. DESIGN CHOICE (log entry 69): wire `w` of one sheet meets wire `w` of the other. -/
def State.borderIn (s : State) (val : Nat → Net → Bool) (n side w : Nat) : Bool :=
  match sheetBeside n side with
  | none => false
  | some m =>
    let wire := 384 * ((side + 2) % 4) + w
    if s.lead m = s.lead n then s.selvedge m wire (s.outLive val m wire) else s.crossed m n wire (1536 + 384 * side + w)

/-- A signal of sheet `n` that its surroundings hold at 1. -/
def State.highNet (s : State) (n : Nat) (x : Net) : Bool := (sget (fun _ => []) s.fabric.high n).contains x

/-- The surroundings hold the signals `l` of sheet `n` at 1, and no others. -/
def State.setHigh (s : State) (n : Nat) (l : List Net) : State :=
  { s with fabric := { s.fabric with high := sset (fun _ => []) s.fabric.high n l } }

/-- I of slot `j`: its pin's level, which its own driver gives where it drives (R193). -/
def State.slotIn (s : State) (val : Nat → Net → Bool) (n j : Nat) : Bool :=
  let outside := s.highNet n (.io j)
  match allPins.find? (fun p => s.pinOf p n && s.get (R.PIO_CFG p) F.PIO_CFG_SLOT == j) with
  | none => outside
  | some p =>
    let out (w : Nat) : Bool := s.selvedge n w (s.outLive val n w)
    let d := s.padSlot p (out (1536 + 2 * j)) (out (1537 + 2 * j))
    if d.1 then d.2 else outside

/-- The receive buffer of channel `h` of riser port `k`. -/
def State.rxHeld (s : State) (n k h : Nat) : List Elem := sget (fun _ => []) s.fabric.rx (4 * (40 * n + k) + h)

/-- The head element of the channel that RP_RX_SEL of port `k` picks (R186); an open value where it holds none. -/
def State.rxHead (s : State) (val : Nat → Net → Bool) (n k : Nat) (f : Elem → Bool) : Bool :=
  match s.rxHeld n k (b2n (s.outLive val n (1700 + 2 * k)) + 2 * b2n (s.outLive val n (1701 + 2 * k))) with
  | e :: _ => f e
  | [] => s.netOpen 3072

/-- The level of signal `x` of sheet `n`, by the wires that lead to it. DESIGN CHOICE (log entry 69): one that hangs on itself is left open, which the
fuel running out tells. -/
def State.netValue (s : State) : Nat → Nat → Net → Bool
  | 0, _, _ => s.netOpen 3072
  | fuel + 1, n, x =>
    match s.activePlane n, x with
    | none, _ => false
    | _, .zero => false
    | some p, .cell i out => s.cellOut (fun n x => s.netValue fuel n x) n p i out
    | some p, .wire i m => s.muxBit (fun n x => s.netValue fuel n x) n p i m
    | _, .ram block port b =>
      let o := sget (fun _ => ⟨0, false, false⟩) s.fabric.bramOut (2 * (128 * n + block) + port)
      if b < 72 then o.data.testBit b else if b = 72 then o.ce else o.dbe
    | _, .border side w => s.borderIn (fun n x => s.netValue fuel n x) n side w
    | _, .rxAvail k h => s.sheetOrient n k != 0 && !(s.rxHeld n k h).isEmpty
    | _, .rxData k b => s.rxHead (fun n x => s.netValue fuel n x) n k (fun e => e.data.getLsbD b)
    | _, .rxSb k b => s.rxHead (fun n x => s.netValue fuel n x) n k (fun e => e.sb.getLsbD b)
    | _, .txCredit k h => s.highNet n (.txCredit k h)
    | _, .io j => s.slotIn (fun n x => s.netValue fuel n x) n j
    | _, .stamp b => (s.stamp - (Config.freeWord (s.free + 49)).toNat % 5).testBit b
    | _, .port b => s.highNet n (.port b)

/-- The level of a signal: no path visits more multiplexers and carries than the tier has. -/
def State.signal (s : State) (n : Nat) (x : Net) : Bool := s.netValue 67108864 n x

/-- What the selvedge cell of signal `w` of sheet `n` presents. -/
def State.present (s : State) (n w : Nat) : Bool := s.selvedge n w (s.outLive s.signal n w)

/-! ### Asynchronous set/reset (R182, R197) -/

/-- The flip-flops of plane `p` that an asynchronous set/reset reaches take SRVAL. -/
def State.asyncOnce (s : State) (n p : Nat) : State :=
  (s.planeCells n p).foldl (fun t e =>
    if s.cellSr n e.2 (s.muxBit s.signal n p e.1 8) then
      [0, 1].foldl (fun t b => if cSrsync e.2 b then t else t.setFf n e.1 b (cSrval e.2 b)) t
    else t) s

/-- Whatever the clock, asynchronous set/reset acts until nothing changes: each round moves a flip-flop to its SRVAL or is the last. -/
def State.asyncSettle (s : State) (n : Nat) : State :=
  match s.activePlane n with
  | some p => ((List.range (2 * (s.planeCells n p).length)).foldl (fun s _ => s.asyncOnce n p) s).netDrawn
  | none => s

/-- Net `net` arrives asserted at every sheet. -/
def State.assertNet (s : State) (net : Nat) : State := (List.range 32).foldl (fun s n => (s.setNet n net 2).asyncSettle n) s

/-! ### Clock edges (R182, R195) -/

/-- DIV of LCK1 to LCK3; LCK0 has none. -/
def State.divOf (s : State) (n t : Nat) : Nat :=
  match t with
  | 0 => 0
  | 1 => s.get (R.SHT_CLK n) F.SHT_CLK_DIV1
  | 2 => s.get (R.SHT_CLK n) F.SHT_CLK_DIV2
  | _ => s.get (R.SHT_CLK n) F.SHT_CLK_DIV3

/-- The local trees that rise with the next rising edge of LCK0 (R195). -/
def State.treesRise (s : State) (n : Nat) : List Nat :=
  (List.range 4).filter (fun t => decide (sget (fun _ => 0) s.fabric.lck (8 * n + 4) % (s.divOf n t + 1) = 0))

/-- They have risen. -/
def State.risen (s : State) (n : Nat) : State :=
  let lck := s.fabric.lck
  { s with fabric := { s.fabric with
    lck := (s.treesRise n).foldl (fun m t => sset (fun _ => 0) m (8 * n + t) 1)
      (sset (fun _ => 0) lck (8 * n + 4) (sget (fun _ => 0) lck (8 * n + 4) + 1)) } }

/-- The local trees are low and aligned. -/
def State.lckAlign (s : State) (n : Nat) : State :=
  { s with fabric := { s.fabric with lck := sfilter (fun k => decide (k / 8 ≠ n)) s.fabric.lck } }

/-- Every flip-flop of sheet `n` that one of local trees `trees` clocks on this edge takes its next value from the values before the edge. A
cell with an all-zero record clocks 0 on the rising edge of LCK0. -/
def State.clockSheet (s : State) (n p : Nat) (trees : List Nat) (falling : Bool) : State :=
  let frozen := s.flag (R.SHT_CTRL n) F.SHT_CTRL_FREEZE
  let cells := s.planeCells n p
  let blank := trees.contains 0 && !falling && !frozen
  let kept := s.fabric.ffs.filter (fun e =>
    decide (e.1 / 2 / 36864 ≠ n) || !blank || cells.any (fun c => decide (c.1 = e.1 / 2 % 36864)))
  cells.foldl (fun t e =>
    if trees.contains (cClksel e.2) ∧ cClkinv e.2 = falling then
      let c := s.cellIn s.signal n p e.1
      let next (b : Nat) : Bool :=
        cellNext e.2 b c (cellSouth s.signal n e.1) (s.cellSr n e.2 c.sr) frozen (s.ff n e.1 b) (s.netOpen 3073)
      [0, 1].foldl (fun t b => t.setFf n e.1 b (next b)) t
    else t) { s with fabric := { s.fabric with ffs := kept } }

/-- The signals that leave a sheet through selvedge cells with a mode: border wires, O and OE of its slots, CAP_TRIG. -/
def selvWires : List Nat := List.range 1600 ++ [1680]

/-- Every selvedge cell of sheet `n` registers the value it passes (R221). -/
def State.selvRegister (s : State) (n : Nat) : State :=
  { s with fabric := { s.fabric with
    selv := (selvWires.filter (s.present n)).foldl (fun m w => sset (fun _ => false) m (2048 * n + w) true)
      (sfilter (fun k => decide (k / 2048 ≠ n)) s.fabric.selv) } }

/-- What the crossing behind border wire `w` of sheet `n` holds once the wire presents `v` (R465): a value held for 6 cycles is delivered;
**log entry 69**: of a shorter one an open value tells. -/
def State.borderNext (s : State) (n m w : Nat) (v : Bool) (r : BorderRec) : BorderRec :=
  let held := s.heldSix n m r.since
  if v = r.cur then (if held then { r with last := r.cur } else r)
  else ⟨if held || s.netOpen w then r.cur else r.last, v, s.stamp⟩

/-- The border wires of sheet `n` send what they now present. -/
def State.sendBorder (s : State) (n : Nat) : State :=
  { s with fabric := { s.fabric with
    border := (List.range 1536).foldl (fun b w =>
      match sheetBeside n (w / 384) with
      | some m =>
        sset (fun _ => ⟨false, false, 0⟩) b (1536 * n + w)
          (s.borderNext n m w (s.present n w) (sget (fun _ => ⟨false, false, 0⟩) b (1536 * n + w)))
      | none => b) s.fabric.border } }

/-- Both, after an edge. -/
def State.afterEdge (s : State) (n : Nat) : State := ((s.asyncSettle n).sendBorder n).netDrawn

/-- A rising edge of LCK0 of sheet `n`, and of the trees aligned to it: an open switch window ends, the selvedge cells register, the
flip-flops clock (R182, R195, R221). -/
def State.riseEdge (s : State) (n : Nat) : State :=
  let s := (s.closeWindow n).selvRegister n
  let trees := s.treesRise n
  let s := s.risen n
  match s.activePlane n with
  | some p => (s.clockSheet n p trees false).afterEdge n
  | none => s

/-- The falling edge of a tree of sheet `n` that is high; suppressed while a switch window is open (R222). -/
def State.fallEdge (s : State) (n t : Nat) : State :=
  if sget (fun _ => 0) s.fabric.lck (8 * n + t) = 0 then s
  else
    let s := { s with fabric := { s.fabric with lck := sset (fun _ => 0) s.fabric.lck (8 * n + t) 0 } }
    match s.activePlane n, s.window n with
    | some p, none => (s.clockSheet n p [t] true).asyncSettle n
    | _, _ => s

/-! ### The switch edge -/

/-- Plane `p` takes effect on sheet `n` at edge E (R221, R223, R225, R230). -/
def State.planeEdge (s : State) (n p : Nat) : State :=
  let out := s.activePlane n
  let s := s.risen n
  let s := match out with
    | none => s.initFfs n p
    | some o => (s.savePrivate n o).restorePrivate n p (s.firstPending n p)
  let st := R.SHT_STATUS n
  let s := ((s.put st F.SHT_STATUS_ACTIVE_PLANE p).put st F.SHT_STATUS_NONE_ACTIVE 0).setBit st (12 + p) false
  let s := s.asyncSettle n
  let s := if out.isNone then (s.put st F.SHT_STATUS_RESET_HELD 0).dropNet 0 [n] else s
  ((List.range 40).foldl (fun s k => s.riserTouch n k) (s.setWindow n (some out))).afterEdge n

end Sys2Proof.Machine
end

