-- ==== Sys2Proof/Machine/GrtOps.lean ====
section
/-! DEFINITION. The graticule's geometry and routes (spec/15): network interfaces, links, default routes, the rules a route
must obey, route tables, detours, failed links and link tests. -/

namespace Sys2Proof.Machine

/-! ### Network interfaces (Table 15-1) -/

/-- The network interface of sheet `n`. -/
def sheetNi (n : Nat) : Nat := 64 * (n / 8) + 4 * (n % 8)
/-- The network interface of wale `w`. -/
def waleNi (w : Nat) : Nat := 32 * (w % 5) + 4 * (w / 5) + 1
/-- The network interface of store group `g`. -/
def storeNi (g : Nat) : Nat := 193 + 4 * g
/-- The network interface of Ubtor pair `p`. -/
def pairNi (p : Nat) : Nat := [110, 114, 142, 146].getD p 110
/-- The register hub. -/
def hubNi : Nat := 106
/-- The LPDDR5X channels with the memory guard. -/
def lpNi (c : Nat) : Nat := [6, 26, 230, 250].getD c 6

/-- Every network interface. -/
def niList : List Nat :=
  (List.range 32).map sheetNi ++ (List.range 40).map waleNi ++ (List.range 8).map storeNi ++
  [110, 114, 142, 146, 111, 115, 143, 147, 106, 107, 138, 98, 130, 126, 158, 238, 226, 254, 6, 26, 230, 250]

/-- `ni` names a network interface. -/
def isNi (ni : Nat) : Bool := niList.contains ni

/-- The network interface of a stream endpoint (Tables 8-2, 15-1): fronthaul flows by their MAC, JSD links, wale gates, the DMA
engine, yarn ports. -/
def State.epNi (s : State) (ep : Nat) : Nat :=
  let i := epIndex ep
  match epKind ep with
  | 1 | 2 => if s.get (R.FHE_FLOW_KEY i) F.FHE_FLOW_KEY_MAC < 8 then 98 else 130
  | 3 | 4 => if i < 128 then 126 else 158
  | 5 => waleNi (i / 16)
  | 6 => 238
  | 7 => if i < 64 then 226 else 254
  | _ => hubNi

/-! ### Hops and links (R493, R498) -/

/-- The link a mesh hop crosses from router `r`, and the router it reaches; none off the mesh's edge. -/
def hopTo (r h : Nat) : Option (Nat × Nat) :=
  let x := r % 8
  let y := r / 8
  match h with
  | 0 => if y < 7 then some (56 + 8 * y + x, r + 8) else none
  | 1 => if x < 7 then some (7 * y + x, r + 1) else none
  | 2 => if 0 < y then some (56 + 8 * (y - 1) + x, r - 8) else none
  | 3 => if 0 < x then some (7 * y + (x - 1), r - 1) else none
  | _ => none

/-- The links a list of mesh hops crosses from router `r`, and the router at its end; none when it leaves the mesh. -/
def walk : Nat → List Nat → Option (List Nat × Nat)
  | r, [] => some ([], r)
  | r, h :: hs =>
    match hopTo r h with
    | some (l, r') => (walk r' hs).map (fun p => (l :: p.1, p.2))
    | none => none

/-- X hops, then Y hops, from router `a` to router `b` (R499). -/
def xyHops (a b : Nat) : List Nat :=
  List.replicate (b % 8 - a % 8) 1 ++ List.replicate (a % 8 - b % 8) 3 ++
  List.replicate (b / 8 - a / 8) 0 ++ List.replicate (a / 8 - b / 8) 2

/-- The default route between two interfaces. -/
def defaultHops (ni dst : Nat) : List Nat := xyHops (ni / 4) (dst / 4) ++ [4 + dst % 4]

/-- The hops a HOPS field holds. -/
def hopsOf (len v : Nat) : List Nat := (List.range len).map (fun i => v / 8 ^ i % 8)

/-- A HOPS field from hops. -/
def hopsWord (hs : List Nat) : Nat := (hs.zipIdx.map (fun p => p.1 * 8 ^ p.2)).foldl (· + ·) 0

/-- The links a route from `ni` crosses. -/
def routeLinks (ni : Nat) (hs : List Nat) : List Nat := match walk (ni / 4) hs.dropLast with | some p => p.1 | none => []

/-- Every E and W hop comes before any N or S hop. -/
def xBeforeY : List Nat → Bool
  | [] => true
  | h :: hs => (h % 2 == 1 || hs.all (fun k => k % 2 == 0)) && xBeforeY hs

/-- A route is legal (R498, R500, R516): it stays in the mesh, ends by ejection at `dst`, and each segment obeys the order. -/
def routeOk (ni dst split : Nat) (hs : List Nat) : Bool :=
  let mesh := hs.dropLast
  let a := if split = 0 then mesh else mesh.take split
  let b := if split = 0 then [] else mesh.drop split
  decide (1 ≤ hs.length) && decide (hs.length ≤ 16) && decide (split < hs.length) && hs.getLast? == some (4 + dst % 4) &&
  (match walk (ni / 4) mesh with | some p => decide (p.2 = dst / 4) | none => false) && xBeforeY a && xBeforeY b

/-! ### Route tables (R499) -/

/-- Entry `i` of the route table of `ni`. -/
def State.niRoute (s : State) (ni i : Nat) : RouteEntry := sget (fun _ => RouteEntry.none) s.grt.routes (64 * ni + i)

/-- Write entry `i` of the route table of `ni`. -/
def State.setRoute (s : State) (ni i : Nat) (e : RouteEntry) : State :=
  { s with grt := { s.grt with routes := sset (fun _ => RouteEntry.none) s.grt.routes (64 * ni + i) e } }

/-- The valid entry of `ni` that names `dst`. -/
def State.routeIndex (s : State) (ni dst : Nat) : Option Nat :=
  (List.range 64).find? (fun i => (s.niRoute ni i).valid && decide ((s.niRoute ni i).dst = dst))

/-- The route in force from `ni` to `dst`: hops and SPLIT. -/
def State.routeOf (s : State) (ni dst : Nat) : List Nat × Nat :=
  match s.routeIndex ni dst with
  | some i => (hopsOf (s.niRoute ni i).len (s.niRoute ni i).hops, (s.niRoute ni i).split)
  | none => (defaultHops ni dst, 0)

/-! ### Failed links and detours (R508, R509) -/

/-- Link `l` is marked failed. -/
def State.linkFailed (s : State) (l : Nat) : Bool := s.bit (R.GRT_FAIL (l / 32)) (l % 32)

/-- The links a new route must avoid: those failed and the one under test. -/
def State.avoided (s : State) (l : Nat) : Bool :=
  s.linkFailed l || (match s.grt.test with | some t => decide (t.link = l) | none => false)

/-- Length of the common beginning of two lists. -/
def common : List Nat → List Nat → Nat
  | a :: as, b :: bs => if a = b then common as bs + 1 else 0
  | _, _ => 0

/-- The detour chosen (DESIGN CHOICE, log entry 46, the rule that gives the worked example of spec/15): of the two-segment routes, X then Y to
a middle router and X then Y from it, that avoid the links `p` and have at most 16 hops, the one that follows the default route
longest, then the one with the fewest hops, then the one with the lowest-numbered middle router. -/
def detour (p : Nat → Bool) (ni dst : Nat) : Option (List Nat × Nat) :=
  let def_ := defaultHops ni dst
  let one (m : Nat) : Option (List Nat × Nat) :=
    let a := xyHops (ni / 4) m
    let hs := a ++ defaultHops (4 * m) dst
    if a = [] ∨ m = dst / 4 ∨ 16 < hs.length ∨ (routeLinks ni hs).any p then none else some (hs, a.length)
  let rank (r : List Nat × Nat) : Nat := common r.1 def_ * 32 + (31 - r.1.length)
  (((List.range 64).filterMap one).foldl (fun best r =>
    match best with
    | some b => if rank b < rank r then some r else some b
    | none => some r) none)

/-- The changes that route every pair affected by link `l` around the links `p`: a changed entry keeps its index, a default route
takes the lowest free one. The flag tells that some pair has no detour (or no free entry). -/
def State.detours (s : State) (p : Nat → Bool) (l : Nat) : List RouteChange × Bool :=
  niList.foldl (fun acc ni =>
    let free := (List.range 64).filter (fun i => !(s.niRoute ni i).valid)
    let r := niList.foldl (fun (a : List RouteChange × Bool × List Nat) dst =>
      let (hs, _) := s.routeOf ni dst
      if (routeLinks ni hs).contains l then
        match detour p ni dst, s.routeIndex ni dst, a.2.2 with
        | some d, some i, fr => (a.1 ++ [⟨ni, i, dst, ⟨true, dst, d.1.length, d.2, hopsWord d.1⟩, none⟩], a.2.1, fr)
        | some d, none, i :: fr => (a.1 ++ [⟨ni, i, dst, ⟨true, dst, d.1.length, d.2, hopsWord d.1⟩, none⟩], a.2.1, fr)
        | _, _, fr => (a.1, true, fr)
      else a) (acc.1, acc.2, free)
    (r.1, r.2.1)) ([], false)

/-- Queue route changes (R501). -/
def State.addChanges (s : State) (l : List RouteChange) : State := { s with grt := { s.grt with changes := s.grt.changes ++ l } }

/-- The outstanding requests of `ni`. -/
def State.grtWaiting (s : State) (ni : Nat) : List Outstanding := sget (fun _ => []) s.grt.outstanding ni

/-- The old route between two interfaces is empty (R501): no request waits for its response, and every credit of a stream bound
between them has returned. -/
def State.routeEmpty (s : State) (ni dst : Nat) : Bool :=
  (s.grtWaiting ni).all (fun o => decide (o.dst ≠ dst)) &&
  s.liveStreams.all (fun n => decide (s.epNi (s.strProducer n) ≠ ni) || decide (s.epNi (s.strConsumer n) ≠ dst) ||
    decide ((s.stream n).fill = 0))

/-- A route may be used: it crosses no failed link (R508: otherwise its destination is unreachable). -/
def State.reachable (s : State) (ni dst : Nat) : Bool := (routeLinks ni (s.routeOf ni dst).1).all (fun l => !s.linkFailed l)

/-- A link fails (R508): marked, counted, reported as the link's uncontained fault, and detours written. -/
def State.linkFail (s : State) (l : Nat) (detoured : Bool) : State :=
  if s.linkFailed l then s
  else
    let s := s.setBit (R.GRT_FAIL (l / 32)) (l % 32) true
    let s := s.put R.GRT_STATUS F.GRT_STATUS_FAILED (s.get R.GRT_STATUS F.GRT_STATUS_FAILED + 1)
    let s := ((s.bump (R.GRT_COUNT 2)).report 0x54 l).gazInc 187
    if detoured then s else s.addChanges (s.detours s.avoided l).1

/-- Step 1 of Table 15-5. -/
def State.testStart (s : State) (t : LinkTest) : State :=
  let s := { s with grt := { s.grt with test := some { t with prior := s.grt.routes } } }
  let s := (s.put R.GRT_STATUS F.GRT_STATUS_TESTING 1).put R.GRT_STATUS F.GRT_STATUS_TEST_LINK t.link
  (s.bump (R.GRT_COUNT 0)).addChanges (s.detours s.avoided t.link).1

/-- Changes that bring the route tables back to `prior` where they differ (R509 step 4). -/
def State.backTo (s : State) (prior : Sparse RouteEntry) : List RouteChange :=
  (s.grt.routes ++ prior).foldl (fun l e =>
    let old := sget (fun _ => RouteEntry.none) prior e.1
    if old = sget (fun _ => RouteEntry.none) s.grt.routes e.1 ∨ l.any (fun c => decide (64 * c.ni + c.index = e.1)) then l
    else l ++ [⟨e.1 / 64, e.1 % 64, (s.niRoute (e.1 / 64) (e.1 % 64)).dst, old, none⟩]) []

/-- Changes that restore the default routes a restored link's detours replaced (R514): entries whose default route crosses it and
no failed link. -/
def State.restoreDefaults (s : State) (l : Nat) : List RouteChange :=
  s.grt.routes.filterMap (fun e =>
    let links := routeLinks (e.1 / 64) (defaultHops (e.1 / 64) e.2.dst)
    if e.2.valid ∧ links.contains l ∧ (links.all (fun k => !s.linkFailed k)) then
      some ⟨e.1 / 64, e.1 % 64, e.2.dst, RouteEntry.none, none⟩
    else none)

/-- The end of a link test's pattern (R509 step 4, R513, R514); the code its command completes with. -/
def State.testFinish (s : State) (t : LinkTest) (pass : Bool) : State :=
  let s := { s with grt := { s.grt with test := none } }
  let s := (s.put R.GRT_STATUS F.GRT_STATUS_TESTING 0).put R.GRT_STATUS F.GRT_STATUS_TEST_LINK 0
  let s :=
    if pass then
      if t.restore then
        let s := s.setBit (R.GRT_FAIL (t.link / 32)) (t.link % 32) false
        let s := s.put R.GRT_STATUS F.GRT_STATUS_FAILED (s.get R.GRT_STATUS F.GRT_STATUS_FAILED - 1)
        s.addChanges (s.restoreDefaults t.link)
      else s.addChanges (s.backTo t.prior)
    else if t.restore then s else s.linkFail t.link true
  s.completeOpt t.openId (if pass then .DONE else .NO_SPARE)

/-- The router island of a router (R492). -/
def routerIsland (r : Nat) : Nat := 80 + 4 * (r / 16) + r % 8 / 2

/-- A router island is clocked: its clock runs and it has not gated itself. -/
def State.routerRuns (s : State) (i : Nat) : Bool := s.islandRuns i && !(sget (fun _ => false) s.pwr.selfGated i)

/-- GRT_STATUS as read. -/
def State.grtStatus (s : State) : Word :=
  F.GRT_STATUS_RUNNING.put (s.rd R.GRT_STATUS)
    ((List.range 16).foldl (fun n i => n + b2n (s.routerRuns (80 + i)) * 2 ^ i) 0)

/-! ### Packets (R496, R497) -/

/-- The flits of a packet on its route: a head flit and a data flit per 32 bytes. -/
def State.pktFlits (s : State) (p : GrtPkt) : List GrtFlit :=
  let r := s.routeOf p.src p.dst
  let n := (p.data.length + 31) / 32
  (List.range (n + 1)).map (fun j => ⟨p.vn, 0, decide (j = 0), decide (j = n), r.1, if r.2 = 0 then 16 else r.2, p⟩)

/-- The injection queue of an interface and network. -/
def State.injQ (s : State) (ni vn : Nat) : List GrtFlit := sget (fun _ => []) s.grt.inj (4 * ni + vn)

/-- Replace an injection queue. -/
def State.setInjQ (s : State) (ni vn : Nat) (q : List GrtFlit) : State :=
  { s with grt := { s.grt with inj := sset (fun _ => []) s.grt.inj (4 * ni + vn) q } }

/-- A packet joins its source interface's injection queue. -/
def State.sendPkt (s : State) (p : GrtPkt) : State := s.setInjQ p.src p.vn (s.injQ p.src p.vn ++ s.pktFlits p)

/-- A response from interface `from_` to a request (R497). -/
def State.respond (s : State) (from_ dst tag cls status len : Nat) (data : List Byte) : State :=
  s.sendPkt { vn := 1, src := from_, dst := dst, op := 8, len := len, key := none, tag := tag, cls := cls, status := status, addr := 0,
              data := data, master := .ubtor }

end Sys2Proof.Machine
end

