-- ==== Sys2Proof/Machine/Streams.lean ====
section
/-! DEFINITION. The rows of spec/08: arrival, delivery, release deadlines, bind-off and the STR commands. -/

namespace Sys2Proof.Machine

/-- The outcome of a meaning. -/
abbrev Out := Host.Outcome State Fault Refusal

/-- An element reaches a stream's entry hop (R273, R279, R283, R284). -/
def execStreamElementArrival (n : Nat) (pos : Option Nat) (e : Elem) (s : State) : Out :=
  .next (s.strOffer n pos e).2

/-- A seam reaches a stream's entry hop (R292). -/
def execStreamSeamArrival (n : Nat) (s : State) : Out := .next (s.strOffer n none (mkSeam 0)).2

/-- The oldest released unit of stream `n` reaches its latest usable time (R283). -/
def execLatestUsableTime (n : Nat) (s : State) : Out :=
  match (s.stream n).pend with
  | [] => .next s
  | u :: _ => .next ((s.reach ((u.latest + 1535) / 1536)).strSettle n)

/-- One element, gap or seam goes to the consumer as credit allows (R282, R286 to R288). -/
def execStreamDelivery (n : Nat) (ue : Bool) (s : State) : Out := .next (s.strDeliver n ue)

/-- The producer's hop: SEQ ahead, a gap of the number missed goes first; behind, the elements are discarded and counted. -/
def State.flitOfProducer (s : State) (n seq : Nat) (els : List Elem) : State :=
  let ahead := (seq + 2 ^ 24 - (s.stream n).seqIn % 2 ^ 24) % 2 ^ 24
  if ahead < 2 ^ 23 then
    match s.strFlitIn n (if ahead = 0 then els else mkGap ahead :: els) with
    | none => s
    | some t =>
      let t := if ahead = 0 then t else t.report 0x31 n
      t.setStream n { t.stream n with seqIn := (seq + els.length) % 2 ^ 24 }
  else (s.strCount n 3 els.length).report 0x31 n

/-- The hop from the stream buffer to the consumer, in the same way, with up to `k` elements that the buffer has to send. -/
def State.flitOfBuffer (s : State) (n seq k : Nat) : State :=
  let r := (s.strSettle n).strSendMany n k
  let ahead := (seq + 2 ^ 24 - (s.stream n).seqMid % 2 ^ 24) % 2 ^ 24
  if r.1 = [] ∨ !(s.strSettle n).strRoom n then s.strSettle n
  else if ahead < 2 ^ 23 then
    let t := r.2
    let els := if ahead = 0 then r.1 else mkGap ahead :: r.1
    let t := (els.foldl (fun t e => t.strPush n e) t).strFlit n els.length
    let t := if ahead = 0 then t else t.report 0x31 n
    t.setStream n { t.stream n with seqMid := (seq + r.1.length) % 2 ^ 24 }
  else (r.2.strCount n 3 r.1.length).report 0x31 n

/-- A stream's flits pass from its producer's interface to its consumer's: the route is whole (R508) and no change of it waits, while
which the interface holds new packets (R501). A stream within one interface needs no route. -/
def State.strRouted (s : State) (n : Nat) : Bool :=
  let ni := s.epNi (s.strProducer n)
  let dst := s.epNi (s.strConsumer n)
  decide (ni = dst) || (s.reachable ni dst && !s.grt.changes.any (fun c => decide (c.ni = ni ∧ c.dst = dst)))

/-- A flit of 1 to 3 elements reaches the receiver of a hop, which checks SEQ (R280). A flit for which its sender holds no credit waits
(R278). -/
def execGraticuleStreamFlit (n seq : Nat) (load : FlitLoad) (s : State) : Out :=
  if (s.stream n).st = .closed then .next s
  else match load with
    | .producer els => if els = [] ∨ 3 < els.length ∨ (s.strBuffered n = false ∧ s.strRouted n = false) then .next s else .next (s.flitOfProducer n seq els)
    | .buffer k => if s.strBuffered n = false ∨ 3 < k then .next s else .next (s.flitOfBuffer n seq k)

/-- Bind-off step 2: the final seam is inserted after the last deliverable element (Table 8-5). -/
def execBindoffFinalSeam (n : Nat) (s : State) : Out :=
  let x := s.stream n
  if x.st = .binding ∧ x.final = none then .next (s.strFinal n) else .next s

/-- Bind-off step 3: the consumer takes the final seam and the stream closes (Table 8-5). -/
def execBindoffSeamTaken (n : Nat) (s : State) : Out :=
  let x := s.stream n
  if x.st = .binding ∧ x.finalSent ∧ x.inbox.length = 1 then .next (s.strTake n).2 else .next s

/-- Bind-off step 3′: TIMEOUT passes first (Table 8-5). -/
def execBindoffTimeout (n : Nat) (s : State) : Out :=
  if (s.stream n).st = .binding then .next (s.strTimeout n) else .next s

/-- OPEN written to STR_CFG of stream `n`: the checks of STR.OPEN_X, then the stream opens; else WR_REFUSED (R298). -/
def State.strCfgOpen (s : State) (n : Nat) : State :=
  let q := s.openReqOf n
  let refuse := s.raise R.STR_CTRL F.STR_CTRL_WR_REFUSED.lo
  if s.openBad q || s.openForeign q none then refuse
  else match s.openPlace n q with
    | .ok b => s.strOpen n q b
    | .error _ => refuse

/-- A write of STR_CFG by a master, with its OPEN bit. -/
def State.strCfgWrite (s : State) (n : Nat) (v : Word) : State :=
  if (s.stream n).st ≠ .closed then s.raise R.STR_CTRL F.STR_CTRL_WR_REFUSED.lo
  else
    let s := s.wr (strKey n R.STR_CFG) (v &&& 0x7FFFFFFF)
    if v.bit 31 then s.strCfgOpen n else s

/-- The stream a master has selected (R298). -/
def State.strSel (s : State) (m : Master) : Nat := F.STR_SEL_STREAM.get (s.latched m R.STR_SEL)

/-- Ubtor or JTAG writes STR_CFG with OPEN set for the stream its STR_SEL selects (R298). -/
def execStrCfgOpen (m : Master) (v : Word) (s : State) : Out :=
  if m = .ubtor ∨ m = .jtag then .next (s.strCfgWrite (s.strSel m) (v ||| 0x80000000)) else .next s

/-- The stream a command names. -/
def Cmd.streamNo (c : Cmd) : Nat := c.n 2 11 0

/-- NOT_OWNER when a fabric post names a stream of another tenant (R299). -/
def notStreamOwner (c : Cmd) (s : State) : Option RetCode :=
  match c.fabKey s with
  | some k => if s.strTenant c.streamNo = k then none else some .NOT_OWNER
  | none => none

/-- STR.STATUS (R300). -/
def execStrStatus (mb : Nat) (s : State) : Out := .next <| runCommand spec_STR_STATUS
  (fun c s => if (s.stream c.streamNo).st = .closed then none else notStreamOwner c s)
  (fun c s =>
    let n := c.streamNo
    .ok s [s.strStatus n, s.rd (strKey n R.STR_CFG), s.rd (strKey n R.STR_ENDS), s.rd (strKey n R.STR_RING_BASE),
      s.rd (strKey n R.STR_RING_LEN), s.rd (strKey n R.STR_LATE), s.strSeq n]) mb s

/-- The lowest-numbered CLOSED stream. -/
def State.anyClosed (s : State) : Option Nat := (List.range 4096).find? (fun n => decide ((s.stream n).st = .closed))

/-- The stream an opening names: the lowest CLOSED one with ANY, else STREAM. -/
def openTarget (c : Cmd) (s : State) : Option Nat := if c.b 2 31 then s.anyClosed else some c.streamNo

/-- Table 8-6: buffered, SCHED, window in µs. -/
def profileOf : Nat → Option (Bool × Bool × Nat)
  | 0 => some (false, false, 0)
  | 1 => some (true, false, 125)
  | 2 => some (true, true, 250)
  | 3 => some (true, true, 1000)
  | 4 => some (true, true, 4000)
  | _ => none

/-- RING_LEN of R297, from RATE in thousands a second, W in µs and U; a result of 0 is taken as the least ring. -/
def ringLenOf (keps wus u : Nat) : Nat := max 4096 (4096 * ((keps * wus + 1000 * u + 4095999) / 4096000))

/-- NOT_OWNER of an opening: the checks of R301, and a fabric post that names a stream of another tenant that is not CLOSED (R299). -/
def openDenied (c : Cmd) (s : State) (q : OpenReq) : Bool :=
  s.openForeign q (c.fabKey s) ||
  (!c.b 2 31 && decide ((s.stream c.streamNo).st ≠ .closed) && (notStreamOwner c s).isSome)

/-- What STR.OPEN asks for. -/
def strOpenReq (c : Cmd) : Option OpenReq :=
  (profileOf (c.n 2 27 24)).map (fun (buf, sched, w) =>
    { sched := sched, buffered := buf, tenant := c.n 2 21 16, prod := c.n 3 31 16, cons := c.n 3 15 0, base := none,
      len := if buf then ringLenOf (c.w 4).toNat w (if sched then c.n 5 15 0 else 0) else 0,
      late := if sched then some 4096 else none, gcred := 16, unit := if sched then some (c.n 5 15 0) else none })

/-- Open the stream named, or answer the code of R301 or R304. -/
def openStream (c : Cmd) (s : State) (q : OpenReq) (data : Nat → List Word) : Ans :=
  match openTarget c s with
  | none => .code .REFUSED_IN_USE s
  | some n => match s.openPlace n q with
    | .error rc => .code rc s
    | .ok b => .ok (s.strOpen n q b) (data n)

/-- STR.OPEN (R297, R301). -/
def execStrOpen (mb : Nat) (s : State) : Out := .next <| runCommand spec_STR_OPEN
  (fun c s => match strOpenReq c with
    | none => some .BAD_FIELD
    | some q => if s.openBad q then some .BAD_FIELD else if openDenied c s q then some .NOT_OWNER else none)
  (fun c s => match strOpenReq c with
    | none => .code .BAD_FIELD s
    | some q => openStream c s q (fun n => [word n, word q.len])) mb s

/-- What STR.OPEN_X asks for. -/
def strOpenXReq (c : Cmd) : OpenReq :=
  { sched := c.b 2 30, buffered := c.b 2 29, tenant := c.n 2 21 16, prod := c.n 3 31 16, cons := c.n 3 15 0,
    base := some (c.w 4).toNat, len := c.n 5 23 0, late := some (c.n 6 19 0), gcred := c.n 7 22 16, unit := some (c.n 7 15 0) }

/-- STR.OPEN_X (R304). -/
def execStrOpenX (mb : Nat) (s : State) : Out := .next <| runCommand spec_STR_OPEN_X
  (fun c s =>
    let q := strOpenXReq c
    if s.openBad q then some .BAD_FIELD else if openDenied c s q then some .NOT_OWNER else none)
  (fun c s => openStream c s (strOpenXReq c) (fun n => [word n])) mb s

/-- STR.BINDOFF (R296, R303). -/
def execStrBindoff (mb : Nat) (s : State) : Out := .next <| runCommand spec_STR_BINDOFF notStreamOwner
  (fun c s =>
    let n := c.streamNo
    let ms := if c.n 2 31 16 = 0 then 10 else c.n 2 31 16
    if (s.stream n).st = .open_ then .acc (s.strBind n ms (some c.id)) [n] else .code .REFUSED_IN_USE s) mb s

/-- STR.COUNTERS (R305). -/
def execStrCounters (mb : Nat) (s : State) : Out := .next <| runCommand spec_STR_COUNTERS notStreamOwner
  (fun c s =>
    let (ws, s') := s.counters ((List.range 8).map (fun k => strKey c.streamNo (R.STR_COUNT k))) (c.b 2 16)
    .ok s' ws) mb s

end Sys2Proof.Machine
end

