-- ==== Sys2Proof/Machine/TileMemory.lean ====
section
/-! DEFINITION. The memory and stream rows of Table 4-4: LD, ST, SIN and SOUT. -/

namespace Sys2Proof.Machine

/-- LD: d, or d and d + 1 with W64, ← tile memory at AG (R139, R140). An uncorrectable word reads as an open value. -/
def effLd (ecc : Nat) (free : BitVec 64) (e : OpCtx) : OpEff :=
  let a := e.s.agAddr e.t e.p e.x (e.w.ag % 8)
  let bad := ecc == 2
  let ag := some (e.w.ag % 8)
  if e.w.m 4 then
    let a8 := a / 8 * 8
    let lo := if bad then free.setWidth 32 else e.s.tmem32 e.t a8
    let hi := if bad then (free >>> 32).setWidth 32 else e.s.tmem32 e.t (a8 + 4)
    { OpEff.of [(3, .reg e.w.dst lo true), (3, .reg (e.w.dst + 1) hi false)] with ag := ag, banks := [a / 8 % 16] }
  else
    { OpEff.of [(3, .reg e.w.dst (if bad then free.setWidth 32 else e.s.tmem32 e.t a) true)] with
      ag := ag, banks := [a / 8 % 16] }

/-- LD by unit `u` of tile `t`; `ecc` is what the word's ECC shows. -/
def execLd (t u ecc : Nat) (s : State) : Host.Outcome State Fault Refusal :=
  .next <| s.issue t u 0x11 (fun e s =>
    let (k, s) := if ecc = 2 then s.draw else (0, s)
    (s.applyEff t u (effLd ecc (Config.freeWord k) e)).tmemEcc t (s.agAddr t e.p e.x (e.w.ag % 8)) ecc)

/-- ST: tile memory at AG ← a, or a and a + 1 with W64 (R139, R140). -/
def effSt (e : OpCtx) : OpEff :=
  let a := e.s.agAddr e.t e.p e.x (e.w.ag % 8)
  let st := if e.w.m 4 then (a / 8 * 8, bytesOfWord (e.a 0) ++ bytesOfWord (e.a 1)) else (a / 4 * 4, bytesOfWord (e.a 0))
  { OpEff.of [] with names := groupBanks e.w.a (if e.w.m 4 then 2 else 1), store := some st, ag := some (e.w.ag % 8), banks := [a / 8 % 16] }

def execSt (t u : Nat) (s : State) : Host.Outcome State Fault Refusal := .next (s.issueEff t u 0x12 effSt)

/-- The results of reading element `v` on IC`c` (R155). -/
def effSin (c : Nat) (v : Elem) (e : OpCtx) : OpEff :=
  let flags : List (Nat × Target) :=
    if e.w.m 5 then [(1, .pred 5 (v.sb.getLsbD 0)), (1, .pred 6 (v.sb.getLsbD 1)), (1, .pred 7 (v.sb.getLsbD 2))] else []
  OpEff.of ([(1, .reg e.w.dst (word v.data.toNat) true), (1, .reg (e.w.dst + 1) (hiWord v.data.toNat) false),
    (1, .sband c v.sb.toNat)] ++ flags)

/-- SIN: d, d + 1 ← the next element of IC(CH); at a seam a gap of COUNT 0, the seam staying (R155, R293). -/
def execSin (t u : Nat) (s : State) : Host.Outcome State Fault Refusal :=
  .next <| s.issue t u 0x13 (fun e s =>
    let c := e.w.ag % 4
    let key := s.icKey t e.p c
    match (s.tile t).held key with
    | [] => s
    | v :: _ =>
      if v.isSeam then
        let s := s.walCount t 4
        let s := match s.feedStream t key with | some n => s.report 0x30 n | none => s
        s.applyEff t u (effSin c (mkGap 0) e)
      else (s.takeIn t key).applyEff t u (effSin c v e))

/-- SOUT: OC(CH) ← element a, a + 1 (R155); SEAM is forced to 0 and counted (R273). An element that the output buffer holds makes room
when its channel wins the port. On an OC that drives no output the element is dropped without a stall (DESIGN CHOICE, log entry 64). -/
def execSout (t u : Nat) (s : State) : Host.Outcome State Fault Refusal :=
  .next <| s.issue t u 0x14 (fun e s =>
    let (v, seam) := e.soutElem
    let s := s.applyEff t u { OpEff.of [] with names := groupBanks e.w.a 2 }
    let s := if seam then s.walCount t 4 else s
    match s.ocKey t e.p (e.w.ag % 4) with
    | none => s
    | some key =>
      match (s.tile t).out key with
      | [] => s.setOut t key [v]
      | old :: rest =>
        if s.portWins t (key / 4) (key % 4) then
          ((s.setOut t key (rest ++ [v])).linkSend t (key / 4) (key % 4) old).portMoves t (key / 4) (key % 4)
        else s.queueOut t key v)

end Sys2Proof.Machine
end

