-- ==== Sys2Proof/Machine/Stitch.lean ====
section
/-! DEFINITION. The rows of spec/04 beside the operations: outside accesses, drains and switches, word links and gates,
shifts, WAL registers and the WAL commands. -/

namespace Sys2Proof.Machine

/-- An access from outside the tile has waited 16 cycles: it takes its bank in the next cycle and the tile stalls for that
cycle (R142). `store` holds the bytes of a write; `ecc` is what a read's word shows. -/
def execOutsideAccessWaitExpiry (t addr : Nat) (store : List Byte) (ecc : Nat) (s : State) :
    Host.Outcome State Fault Refusal :=
  if 640 ≤ t then .next s else .next ((s.setTmems t addr store).tmemEcc t addr ecc)

/-- A drain has run its issuing cycles: the switch edge of its token falls (R159). -/
def execTokenDrainEnd (t : Nat) (s : State) : Host.Outcome State Fault Refusal :=
  match (s.tile t).drain with
  | some d => if d.left = 0 ∧ s.waleRuns (waleOf t) then .next (s.commitLand.tokenSwitch t d) else .next s
  | none => .next s

/-- The tiles of a mask in wale `w`. -/
def tilesOf (w mask : Nat) : List Nat := ((List.range 16).filter mask.testBit).map (fun q => 16 * w + q)

/-- The pattern that order `o` gives tile `t`: the loader's start group names one for each tile (R254). -/
def PatOrder.patOf (o : PatOrder) (t : Nat) : Nat :=
  if o.src = .loader then bitsOf o.pattern (4 * posOf t + 3) (4 * posOf t) else o.pattern

/-- Perform order `o` of wale `w` at its edge. A WAL.SWITCH whose order is not performed is answered DONE all the same (DESIGN CHOICE, log
entry 64: R238 gives no code). -/
def State.patternEdge (s : State) (w : Nat) (o : PatOrder) (rest : List PatOrder) : State :=
  let s := (s.reach o.at_).commitLand
  let x := s.wale w
  let s := s.setWale w { x with orders := rest }
  if s.islandRefuses (32 + w) then
    let s := s.airMissed o.src (tilesOf w o.tiles).length
    (s.memberPast o.src true).switchDone o.src
  else
    let ts := tilesOf w o.tiles
    let miss := ts.any (fun t => !s.patValid t (o.patOf t))
    let s := s.airMissed o.src (ts.filter (fun t => !s.patValid t (o.patOf t))).length
    let s := ts.foldl (fun s t => s.hardSwitch t (o.patOf t)) s
    let s := if ts = [] then s else s.bump (R.WAL_COUNT w 2)
    let s := if o.late then s.report 0x24 (32 + w) [word (satNat 32 (s.stamp - o.at_)), word (o.patOf (16 * w))] [(10, 5, 6)] else s
    (s.memberPast o.src miss).switchDone o.src

/-- The order of wale `w` whose edge comes next. -/
def State.nextPattern (s : State) (w : Nat) : Option PatOrder :=
  nextOrder PatOrder.at_ PatOrder.src (s.khzOf (32 + w)) s.stamp (s.wale w).orders

/-- No tile that order `o` names is in the middle of a cycle. -/
def State.betweenCycles (s : State) (w : Nat) (o : PatOrder) : Bool := (tilesOf w o.tiles).all (fun t => (s.tile t).issued == [])

/-- The hard switch edge of wale `w`'s next order: it waits for the clock, for the present cycle and for a shift to end (R157, R160,
R238). -/
def execPatternHardSwitchEdge (w : Nat) (s : State) : Host.Outcome State Fault Refusal :=
  match s.nextPattern w with
  | none => .next s
  | some o =>
    if (s.wale w).shift.isNone && (s.islandRefuses (32 + w) || (s.islandRuns (32 + w) && s.betweenCycles w o)) then
      .next (s.patternEdge w o ((s.wale w).orders.erase o))
    else .next s

/-- One element leaves output `port` of tile `t`: its arbiter takes the first ready channel from its pointer (R149 to
R151). -/
def execWordLinkElement (t port : Nat) (s : State) : Host.Outcome State Fault Refusal :=
  let x := s.tile t
  if 640 ≤ t ∨ 6 ≤ port ∨ !s.waleRuns (waleOf t) ∨ s.tileNull t ∨ !x.live ∨ (4 ≤ port ∧ s.dnOpen t) then .next s
  else
    let s := s.dnSettle t
    let x := s.tile t
    let ptr := sget (fun _ => 0) x.rr port
    match (List.range 4).findSome? (fun i => (s.linkReady t port ((ptr + i) % 4)).map (fun r => ((ptr + i) % 4, r))) with
    | none => .next s
    | some (h, (e, src)) =>
      let key := 4 * port + h
      let s := match src with
        | some k => s.takeIn t k
        | none => s.setOut t key (x.out key).tail
      .next ((s.linkSend t port h e).portMoves t port h)

/-- A credit for a place freed in input `port`, channel `h` of tile `t` goes back to the neighbour that sends there (R150);
a riser's goes through RISER_CREDIT_PULSE, a gate's is its free place itself. -/
def execWordLinkCredit (t port h : Nat) (s : State) : Host.Outcome State Fault Refusal :=
  let key := 4 * port + h
  let x := s.tile t
  let owed := sget (fun _ => 0) x.owed key
  if owed = 0 ∨ 4 ≤ port then .next s
  else
    let s := s.setTile t { x with owed := sset (fun _ => 0) x.owed key (owed - 1) }
    match linkTo t port with
    | none => .next s
    | some (t', p') =>
      let y := s.tile t'
      let k := 4 * p' + h
      .next (s.setTile t' { y with spent := sset (fun _ => 0) y.spent k (sget (fun _ => 0) y.spent k - 1) })

/-- One element moves through gate channel `g` of wale `w` (R154): into the wale from the stream it consumes, or out of it
into the stream it produces. -/
def execGateChannelElement (w g : Nat) (s : State) : Host.Outcome State Fault Refusal :=
  match s.gateStream w g with
  | none => .next s
  | some n =>
    if g < 8 then
      let t := if g < 4 then 16 * w else 16 * w + 15
      let key := (if g < 4 then 8 else 0) + g % 4
      let x := s.tile t
      if 4 ≤ (x.held key).length + sget (fun _ => 0) x.owed key then .next s
      else match s.strTake n with
        | (some e, s) =>
          let x := s.tile t
          .next (s.setTile t { x with inBuf := sset (fun _ => []) x.inBuf key (x.held key ++ [e]) })
        | (none, s) => .next s
    else match (s.stream n).outbox with
      | [] => .next s
      | e :: rest =>
        let (taken, s) := s.strOffer n none e
        let x := s.stream n
        .next (if taken then s.setStream n { x with outbox := rest } else s)

/-- A shift of wale `w` to `upto` has ended. A retirement is in effect, and the tile that the spare takes over restarts (R295, R602); a
rotation's isolated tile is tested next (R620, R625). -/
def State.shiftDone (s : State) (w upto : Nat) (rotation : Bool) : State :=
  if !rotation then s
  else match s.swt.retiring with
    | some r =>
      let s := { s with swt := { s.swt with retiring := none } }
      let t := 16 * r.wale + r.pos
      let s := if (s.tile t).live && !s.tileNull t then s.restartTile t else s
      (s.softRepair ⟨1, 32 * w + upto, upto, 0⟩ 0 0).outcomePart r.keys
    | none => s.rotationTest w upto

/-- The copy of a shift ends: SHIFT_AT takes its new value and issue resumes (R163). -/
def execShiftCopyEnd (w : Nat) (s : State) : Host.Outcome State Fault Refusal :=
  let x := s.wale w
  match x.shift with
  | none => .next s
  | some sh =>
    if !s.islandRuns (32 + w) then .next s
    else
      let s := s.setWale w { x with shift := none }
      let s := (s.put (R.WAL_SHIFT w) F.WAL_SHIFT_SHIFTING 0).put (R.WAL_SHIFT w) F.WAL_SHIFT_SHIFT_AT sh.upto
      .next ((s.completeOpt sh.openId .DONE).shiftDone w sh.upto sh.rotation)

/-- Start a shift copy of wale `w`. -/
def State.startShift (s : State) (w upto : Nat) (openId : Option Nat) (rotation : Bool) : State :=
  let x := s.wale w
  (s.setWale w { x with shift := some ⟨upto, openId, rotation⟩ }).put (R.WAL_SHIFT w) F.WAL_SHIFT_SHIFTING 1

/-- A write of WAL_SWITCH with GO set (R157). -/
def State.walSwitchWrite (s : State) (w : Nat) (v : Word) : State :=
  if v.bit 8 then s.orderWale w (F.WAL_SWITCH_TILES.get v) (F.WAL_SWITCH_PATTERN.get v) s.stamp .reg else s

/-- GO is written to WAL_SWITCH of wale `w` (R156). -/
def execWalSwitchGo (w tiles pattern : Nat) (s : State) : Host.Outcome State Fault Refusal :=
  if 40 ≤ w then .next s else .next (s.walSwitchWrite w (word (tiles % 65536 * 2 ^ 16 + 2 ^ 8 + pattern % 16)))

/-- LOCK is set in WAL_CTRL: WAL_BANKMAP becomes read only until device reset. -/
def execWalCtrlLock (w : Nat) (s : State) : Host.Outcome State Fault Refusal :=
  if 40 ≤ w then .next s else .next (s.put (R.WAL_CTRL w) F.WAL_CTRL_LOCK 1)

/-! ### WAL commands (R166 to R174) -/

/-- The KeyID rule of R166 and R205: a fabric post names only wales of its sheet's tenant. -/
def foreignWale (c : Cmd) (s : State) (w : Nat) : Bool :=
  match c.fabKey s with | some k => decide (s.keyOfWale w ≠ k) | none => false

/-- WALE in range, its own checks, and ownership. -/
def waleFields (bad : Cmd → State → Bool) (c : Cmd) (s : State) : Option RetCode :=
  let w := c.n 2 5 0
  if 40 ≤ w ∨ bad c s then some .BAD_FIELD else if foreignWale c s w then some .NOT_OWNER else none

/-- A WAL command's own effect, or BUSY while the wale shifts (R166). -/
def unlessShifting (act : Nat → Cmd → State → Ans) (c : Cmd) (s : State) : Ans :=
  let w := c.n 2 5 0
  if (s.wale w).shift.isSome then .code .BUSY s else act w c s

/-- Elements held by a gate channel (WAL_GATE.FILL), whether or not it passes them on now. -/
def State.gateFill (s : State) (w g : Nat) : Nat :=
  let n := s.get (R.WAL_GATE w g) F.WAL_GATE_STREAM
  if (if g < 8 then s.strConsumer n else s.strProducer n) = gateEp w g then
    if g < 8 then s.strAtGate n else min 64 (s.stream n).outbox.length
  else 0

/-- WAL.STATUS (R167). -/
def execWalStatus (mb : Nat) (s : State) : Host.Outcome State Fault Refusal := .next <| runCommand spec_WAL_STATUS
  (waleFields (fun _ _ => false))
  (fun c s =>
    let w := c.n 2 5 0
    let flags := (List.range 16).map (fun q => (s.rd (R.WAL_STICKY w q)).toNat % 32)
    let any := (List.range 16).foldl (fun m q => m + b2n (decide (flags.getD q 0 ≠ 0)) * 2 ^ q) 0
    .ok s [s.rd (R.WAL_STATUS w), s.rd (R.WAL_ACTIVE w 0), s.rd (R.WAL_ACTIVE w 1), s.rd (R.WAL_SHIFT w),
      word (flags.foldl (· ||| ·) 0 * 2 ^ 16 + any)]) mb s

/-- WAL.SWITCH (R168): answered once the switch edge has passed. -/
def execWalSwitch (mb : Nat) (s : State) : Host.Outcome State Fault Refusal := .next <| runCommand spec_WAL_SWITCH
  (waleFields (fun c s =>
    let w := c.n 2 5 0
    decide (c.n 3 31 16 = 0) ||
    ((s.wale w).shift.isNone && (tilesOf w (c.n 3 31 16)).any (fun t => !s.patValid t (c.n 3 3 0)))))
  (unlessShifting (fun w c s => .wait (s.orderWale w (c.n 3 31 16) (c.n 3 3 0) s.stamp (.cmd c.id)) [w])) mb s

/-- The stream's tenant is the wale's (R169, R274). -/
def bindForeign (s : State) (w n : Nat) : Bool :=
  decide ((s.stream n).st ≠ .closed) && decide (s.strTenant n ≠ s.keyOfWale w)

/-- WAL.BIND (R169). -/
def execWalBind (mb : Nat) (s : State) : Host.Outcome State Fault Refusal := .next <| runCommand spec_WAL_BIND
  (fun c s => match waleFields (fun _ _ => false) c s with
    | some rc => some rc
    | none => if bindForeign s (c.n 2 5 0) (c.n 3 11 0) then some .NOT_OWNER else none)
  (unlessShifting (fun w c s =>
    let g := c.n 2 11 8
    let n := c.n 3 11 0
    let r := R.WAL_GATE w g
    let on := s.flag r F.WAL_GATE_EN
    let bound := s.get r F.WAL_GATE_STREAM
    if on ∧ ((c.b 3 31 = true ∧ n ≠ bound) ∨ (c.b 3 31 = false ∧ (s.stream bound).st ≠ .closed)) then
      .code .REFUSED_IN_USE s
    else if c.b 3 31 then .ok ((s.put r F.WAL_GATE_EN 1).put r F.WAL_GATE_STREAM n)
    else .ok (s.put r F.WAL_GATE_EN 0))) mb s

/-- WAL.STICKY_CLEAR (R170). -/
def execWalStickyClear (mb : Nat) (s : State) : Host.Outcome State Fault Refusal := .next <| runCommand spec_WAL_STICKY_CLEAR
  (waleFields (fun _ _ => false))
  (unlessShifting (fun w c s =>
    .ok ((tilesOf w (c.n 3 31 16)).foldl (fun s t => s.clearBits (R.WAL_STICKY w (posOf t)) (c.n 3 4 0)) s))) mb s

/-- The banks that a WAL_BANKMAP value makes private to another pattern than `p`. -/
def foreignBanks (m : Word) (p : Nat) : List Nat :=
  (List.range 4).filter (fun b => m.bit (5 * b + 4) && decide (m.bits (5 * b + 3) (5 * b) ≠ p))

/-- WAL.BANKMAP (R171). -/
def execWalBankmap (mb : Nat) (s : State) : Host.Outcome State Fault Refusal := .next <| runCommand spec_WAL_BANKMAP
  (fun c s => match waleFields (fun _ _ => false) c s with
    | some rc => some rc
    | none => if s.flag (R.WAL_CTRL (c.n 2 5 0)) F.WAL_CTRL_LOCK then some .NOT_PERMITTED else none)
  (unlessShifting (fun w c s =>
    let t := 16 * w + c.n 2 11 8
    let map := word (c.n 3 19 0)
    let banks := if (s.tile t).live && !s.tileNull t then s.patBanks t (s.activePat t) else 0
    if (foreignBanks map (s.activePat t)).any banks.testBit then .code .REFUSED_IN_USE s
    else .ok (s.wr (R.WAL_BANKMAP w (c.n 2 11 8)) map))) mb s

/-- WAL.FREEZE (R172). -/
def execWalFreeze (mb : Nat) (s : State) : Host.Outcome State Fault Refusal := .next <| runCommand spec_WAL_FREEZE
  (waleFields (fun _ _ => false))
  (unlessShifting (fun w c s => .ok (s.put (R.WAL_CTRL w) F.WAL_CTRL_FREEZE (b2n (c.b 2 8))))) mb s

/-- WAL.SHIFT (R173). -/
def execWalShift (mb : Nat) (s : State) : Host.Outcome State Fault Refusal := .next <| runCommand spec_WAL_SHIFT
  (waleFields (fun c _ => decide (16 < c.n 2 12 8)))
  (unlessShifting (fun w c s =>
    let upto := c.n 2 12 8
    if s.flag (R.WAL_SHIFT w) F.WAL_SHIFT_FUSED ∧ upto ≠ s.get (R.WAL_SHIFT w) F.WAL_SHIFT_SHIFT_AT then .code .NO_SPARE s
    else if s.stage (32 + w) ≠ .on ∨ s.pwr.dorm ≠ .none then .code .REFUSED_IN_USE s
    else if s.spareHeld w then .code .BUSY s
    else .acc (s.startShift w upto (some c.id) false) [w])) mb s

/-- WAL.COUNTERS (R174). -/
def execWalCounters (mb : Nat) (s : State) : Host.Outcome State Fault Refusal := .next <| runCommand spec_WAL_COUNTERS
  (waleFields (fun _ _ => false))
  (unlessShifting (fun w c s =>
    let (ws, s') := s.counters ((List.range 5).map (R.WAL_COUNT w)) (c.b 2 8)
    .ok s' ws)) mb s

end Sys2Proof.Machine
end

