-- ==== Sys2Proof/Machine/Fabric.lean ====
section
/-! DEFINITION. The rows of spec/05 and spec/06: clock and switch edges of sheets, reset nets, riser signals, block RAM,
capture, and the SHT and CAP commands but SHT.SWITCH (Machine/Air.lean, with the schedule walk). -/

namespace Sys2Proof.Machine

/-- An edge of local tree `tree` of sheet `n` (R182, R195), `high` being the signals its surroundings now hold at 1. Asynchronous set/reset acts
whatever the clock; the rising edge of LCK0 carries the aligned edges of LCK1 to LCK3, which have no rising edge of their own. -/
def execFlipFlopClockEdge (n tree : Nat) (falling : Bool) (high : List Net) (s : State) : Out :=
  if 32 ≤ n ∨ 4 ≤ tree ∨ s.stage n ≠ .on then .next s
  else
    let s := (s.setHigh n high).asyncSettle n
    if !s.islandRuns n then .next s
    else if falling then .next (s.fallEdge n tree)
    else if tree = 0 then .next (s.riseEdge n)
    else .next s

/-- The order of sheet `n` whose edge comes next. -/
def State.nextPlane (s : State) (n : Nat) : Option PlaneOrder :=
  nextOrder PlaneOrder.at_ PlaneOrder.src (s.khzOf n) s.stamp (s.planeOrders n)

/-- The order `o` of sheet `n` at its edge (R220, R221, R238). An open window ends with a switch that is performed. DESIGN CHOICE (log entry 68): an order
that came late is recorded so even if the plane it names is invalid or active. -/
def State.switchEdge (s : State) (n : Nat) (o : PlaneOrder) : State :=
  let s := ((s.reach o.at_).setPlaneOrders n ((s.planeOrders n).erase o)).commitLand
  if s.islandRefuses n then (s.airMissed o.src).memberPast o.src true
  else
    let s := if o.late then s.report 0x24 (s.lead n) [word (satNat 32 (s.stamp - o.at_)), word o.plane] [(10, 5, 6)] else s
    if !s.planeValid n o.plane then ((s.report 0x22 n).airMissed o.src).memberPast o.src true
    else if s.activePlane n = some o.plane then s.memberPast o.src false
    else ((((s.closeWindow n).asyncSettle n).planeEdge n o.plane)).memberPast o.src false

/-- Sheet `n` takes the next of its orders: its clock runs, or a floor or its power state refuses it. -/
def State.switchReady (s : State) (n : Nat) : Bool := s.islandRuns n || s.islandRefuses n

/-- The switch edge of the next order that waits for sheet `n` (R237), `high` being as above and `pins` the slots whose pins the outside holds
at 1. -/
def execSheetSwitchEdge (n : Nat) (pins : List Nat) (high : List Net) (s : State) : Out :=
  match s.nextPlane n with
  | none => .next s
  | some o => if s.switchReady n then .next ((s.setHigh n (pins.map .io ++ high)).switchEdge n o) else .next s

/-- The switches whose edge falls at or before the present cycle are performed (R253). -/
def State.switchesDue (s : State) : State :=
  (List.range 32).foldl (fun s n =>
    match s.nextPlane n with
    | some o => if s.islandRuns n && decide (edgeIndex (s.khzOf n) o.at_ ≤ edgeIndex (s.khzOf n) s.stamp) then s.switchEdge n o else s
    | none => s) s

/-- The instant T of the pending SHT.SWITCH group: every member island has its order (R236, R240). The command keeps T,
SHEETS, the planes of sheets 0 to 31 at two bits each, WALES, TILES and PATTERN. -/
def execGroupSwitch (s : State) : Out :=
  match s.openOf 0x0904 (fun o => !o.args.isEmpty) with
  | none => .next s
  | some o =>
    let a := fun i => o.args.getD i 0
    let s := (s.reach (a 0)).setOpenArgs o.id []
    let s := ((List.range 32).filter (a 1).testBit).foldl
      (fun s n => s.orderSheet n (bitsOf (a 2) (2 * n + 1) (2 * n)) (a 0) .group) s
    .next (((List.range 40).filter (a 3).testBit).foldl (fun s w => s.orderWale w (a 4) (a 5) (a 0) .group) s)

/-- The third rising edge of LCK0 after net `net` fell: sheet `n` releases it (R197). -/
def execResetNetRelease (n net : Nat) (s : State) : Out :=
  if n < 32 ∧ net < 4 ∧ s.net n net = 1 ∧ s.islandRuns n then .next (s.setNet n net 0) else .next s

/-! ### Riser signals at the fabric (R186, R187, R229, R232) -/

/-- The sheet end of port `k` is in use: the sheet clocks, its plane requests an orientation, no window is open. -/
def State.riserOpen (s : State) (n k : Nat) : Bool :=
  decide (n < 32 ∧ k < 40) && s.islandRuns n && (s.window n).isNone && s.sheetOrient n k != 0 && !s.marked 2 n

/-- RP_TX_VALID on channel `h`. -/
def execRiserTxElement (n k h : Nat) (e : Elem) (s : State) : Out :=
  if !s.riserOpen n k ∨ 4 ≤ h then .next s
  else
    let key := 4 * (40 * n + k) + h
    let spent := sget (fun _ => 0) s.fabric.txSpent key
    if 12 ≤ spent then
      .next (((s.raise (R.SHT_STICKY n) 1).bump (R.SHT_COUNT n 2)).report 0x23 (64 * n + k) [0, s.wireNow n k])
    else
      let (t, d) := tileOfRiser n k
      let s := { s with fabric := { s.fabric with txSpent := sset (fun _ => 0) s.fabric.txSpent key (spent + 1) } }
      let x := s.tile t
      let tk := 4 * (4 + d) + h
      .next (s.setTile t { x with inBuf := sset (fun _ => []) x.inBuf tk (x.held tk ++ [e]) })

/-- RP_RX_TAKE with RP_RX_SEL at `h`: the head element goes and its credit returns to the tile. -/
def execRiserRxTake (n k h : Nat) (s : State) : Out :=
  let key := 4 * (40 * n + k) + h
  match sget (fun _ => []) s.fabric.rx key with
  | [] => .next s
  | _ :: rest =>
    if !s.riserOpen n k ∨ 4 ≤ h then .next s
    else
      let (t, d) := tileOfRiser n k
      let s := { s with fabric := { s.fabric with rx := sset (fun _ => []) s.fabric.rx key rest } }
      .next (s.creditBack t (4 * (4 + d) + h))

/-- RP_TX_CREDIT of channel `h`: a place the tile has freed; held while the sheet's window is open (R229). -/
def execRiserCreditPulse (n k h : Nat) (s : State) : Out :=
  if 32 ≤ n ∨ 40 ≤ k ∨ 4 ≤ h then .next s
  else
    let (t, d) := tileOfRiser n k
    let x := s.tile t
    let tk := 4 * (4 + d) + h
    let owed := sget (fun _ => 0) x.owed tk
    if owed = 0 then .next s
    else
      let key := 4 * (40 * n + k) + h
      let s := s.setTile t { x with owed := sset (fun _ => 0) x.owed tk (owed - 1) }
      if (s.window n).isSome then
        .next { s with fabric := { s.fabric with
          heldPulse := sset (fun _ => 0) s.fabric.heldPulse key (sget (fun _ => 0) s.fabric.heldPulse key + 1) } }
      else
        .next { s with fabric := { s.fabric with
          txSpent := sset (fun _ => 0) s.fabric.txSpent key (sget (fun _ => 0) s.fabric.txSpent key - 1) } }

/-- The orientation in force on port `k` of sheet `n` follows both requests (R233). -/
def execRiserOrientationChange (n k : Nat) (s : State) : Out :=
  if 32 ≤ n ∨ 40 ≤ k then .next s
  else
    let (t, d) := tileOfRiser n k
    let o := orientOf (s.sheetOrient n k) (s.tileOrient t d) (s.orientNow n k) (s.recorded n k)
    .next { s with fabric := { s.fabric with orient := sset (fun _ => 0) s.fabric.orient (40 * n + k) o } }

/-- A disagreement on port `k` has lasted longer than 64 ns (R235). -/
def execRiserConflictTimeout (n k : Nat) (s : State) : Out :=
  match sget (fun _ => none) s.fabric.disagree (40 * n + k) with
  | some (since, false) =>
    if 32 ≤ n ∨ 40 ≤ k then .next s
    else
      let s := s.reach (since + 65)
      let s := { s with fabric := { s.fabric with
        disagree := sset (fun _ => none) s.fabric.disagree (40 * n + k) (some (since, true)) } }
      .next (((s.raise (R.SHT_STICKY n) 2).bump (R.SHT_COUNT n 3)).report 0x23 (64 * n + k) [1, s.wireNow n k])
  | _ => .next s

/-! ### Block RAM (R188 to R191) -/

/-- The read of a port that has one, `before` being the state whose contents it reads. -/
def State.bramRd (s before : State) (n block port : Nat) (c : BramCfg) (q : Option BramReq) (apart : Bool) : State :=
  match q with | some q => s.bramRead before n block port c q apart | none => s

/-- The write of a port that has one. -/
def State.bramWr (s : State) (n block : Nat) (c : BramCfg) (q : Option BramReq) : State :=
  match q with | some q => s.bramWrite n block c q | none => s

/-- One port's cycle alone: its read, then its write. -/
def State.bramTurn (s : State) (n block port : Nat) (c : BramCfg) (q : Option BramReq) : State :=
  (s.bramRd s n block port c q true).bramWr n block c q

/-- Both ports' cycle on one tree: both reads see what stood before; port A's write is kept. -/
def State.bramBoth (s : State) (n block : Nat) (ca cb : BramCfg) (a b : Option BramReq) : State :=
  let apart := match a, b with | some qa, some qb => !bramOverlap ca cb qa qb | _, _ => true
  (((s.bramRd s n block 0 ca a apart).bramRd s n block 1 cb b apart).bramWr n block cb b).bramWr n block ca a

/-- One cycle of a block: the accesses of ports A and B; `upsA` and `upsB`: its stored bits that have changed on their own before
each. On one tree both read what stood before the cycle and port A's write is kept; on different trees they follow one another, B first where
`bFirst`. -/
def execBramAccess (n block : Nat) (a b : Option BramReq) (upsA upsB : List Nat) (bFirst : Bool) (s : State) : Out :=
  match s.activePlane n with
  | none => .next s
  | some p =>
    if 32 ≤ n ∨ 128 ≤ block ∨ !s.islandRuns n ∨ (s.window n).isSome then .next s
    else
      let ca := s.bramCfg n p block 0
      let cb := s.bramCfg n p block 1
      let a := if ca.used then a else none
      let b := if cb.used then b else none
      if ca.tree = cb.tree then .next ((s.bramUpset n block (upsA ++ upsB)).bramBoth n block ca cb a b)
      else if bFirst then .next ((((s.bramUpset n block upsB).bramTurn n block 1 cb b).bramUpset n block upsA).bramTurn n block 0 ca a)
      else .next ((((s.bramUpset n block upsA).bramTurn n block 0 ca a).bramUpset n block upsB).bramTurn n block 1 cb b)

/-! ### Registers -/

/-- LOCK is set in SHT_CTRL: SHT_CLK becomes read only until device reset. -/
def execShtCtrlLock (n : Nat) (s : State) : Out :=
  if 32 ≤ n then .next s else .next (s.put (R.SHT_CTRL n) F.SHT_CTRL_LOCK 1)

/-- A read of SHT_STAMP_LO latches the high word for its master. -/
def State.stampRead (s : State) (m : Master) (hi : Nat) : State := s.setLatch m hi (hiWord s.stamp)

/-- SHT_STATUS as it reads: the island a sheet belongs to follows the clock roots (R41). -/
def State.shtStatus (s : State) (n : Nat) : Word :=
  F.SHT_STATUS_MERGED.put (F.SHT_STATUS_ISLAND.put (s.rd (R.SHT_STATUS n)) (s.lead n)) (b2n (decide (s.lead n ≠ n)))

/-- Code of the capture plane's state. -/
def CapState.code : CapState → Nat
  | .empty => 0 | .armed => 1 | .copying => 2 | .held => 3

/-- SHT_CAP as it reads. -/
def State.shtCap (s : State) (n : Nat) : Word :=
  let c := s.fabric.cap
  word (c.st.code * 2 ^ 30 + b2n (decide (c.st = .armed ∧ c.mode = 2 ∧ c.trigSheet = n)) * 2 ^ 8 + b2n (c.set.testBit n))

/-! ### SHT commands (R205 to R211, R241) -/

/-- A fabric post names a sheet of another tenant (R205). -/
def foreignSheet (c : Cmd) (s : State) (n : Nat) : Bool :=
  match c.fabKey s with | some k => decide (s.keyOfSheet n ≠ k) | none => false

/-- The commands that name one sheet in word 2: NOT_OWNER for a sheet of another tenant. -/
def sheetFields (c : Cmd) (s : State) : Option RetCode := if foreignSheet c s (c.n 2 4 0) then some .NOT_OWNER else none

/-- SHT.STATUS (R206). -/
def execShtStatus (mb : Nat) (s : State) : Out := .next <| runCommand spec_SHT_STATUS sheetFields
  (fun c s =>
    let n := c.n 2 4 0
    .ok s [s.shtStatus n, s.rd (R.SHT_CLK n), s.rd (R.SHT_REPAIR n), s.rd (R.SHT_STICKY n)]) mb s

/-- SHT.STICKY_CLEAR (R207). -/
def execShtStickyClear (mb : Nat) (s : State) : Out := .next <| runCommand spec_SHT_STICKY_CLEAR sheetFields
  (fun c s => .ok (s.clearBits (R.SHT_STICKY (c.n 2 4 0)) (c.n 2 10 8))) mb s

/-- SHT.RESET (R208): answered once the net has fallen. -/
def execShtReset (mb : Nat) (s : State) : Out := .next <| runCommand spec_SHT_RESET
  (fun c _ => if c.n 2 17 16 = 0 ∨ c.n 2 15 0 < 10 then some .BAD_FIELD else if !c.host then some .NOT_PERMITTED else none)
  (fun c s =>
    let net := c.n 2 17 16
    if s.fabric.pulses.any (fun p => decide (p.net = net)) then .code .BUSY s
    else
      let p : NetPulse := ⟨net, s.stamp + c.n 2 15 0, c.id⟩
      let s := { s with fabric := { s.fabric with pulses := s.fabric.pulses ++ [p] } }
      .wait (s.assertNet net) [net]) mb s

/-- The pulse of net `net` has lasted WIDTH_NS: the net falls and SHT.RESET returns DONE. -/
def execShtResetPulseEnd (net : Nat) (s : State) : Out :=
  match s.fabric.pulses.find? (fun p => decide (p.net = net)) with
  | none => .next s
  | some p =>
    let s := (s.reach p.until_).dropNet net (List.range 32)
    let s := { s with fabric := { s.fabric with pulses := s.fabric.pulses.filter (fun q => decide (q.net ≠ net)) } }
    match s.mbx.running.find? (fun o => decide (o.id = p.openId)) with
    | some o => .next (s.finishRun o .DONE)
    | none => .next s

/-- The generator that would drive sheet `n` with root `root`: the lowest-numbered sheet on the tree. -/
def State.rootLead (s : State) (n root : Nat) : Nat :=
  if root < 8 then n
  else ((List.range 32).find? (fun m => decide (m = n ∨ s.clkRoot m = root))).getD n

/-- SHT.CLOCK (R196, R209): the sheet's clock stops; the change and the restart are SHEET_CLOCK_RESTART. -/
def execShtClock (mb : Nat) (s : State) : Out := .next <| runCommand spec_SHT_CLOCK
  (fun c s =>
    let n := c.n 2 4 0
    let root := c.n 3 3 0
    if (root ≠ 0 ∧ root < 8) ∨ c.n 3 7 4 ≠ 0 then some .BAD_FIELD
    else if s.flag (R.SHT_CTRL n) F.SHT_CTRL_LOCK then some .NOT_PERMITTED
    else sheetFields c s)
  (fun c s =>
    let n := c.n 2 4 0
    let root := c.n 3 3 0
    if root ≠ s.clkRoot n ∧ s.lead n = n ∧ 1 < (s.members n).length then .code .REFUSED_IN_USE s
    else
      let own := s.pointKhz n (min (s.get (R.PWR_OP (n / 16)) (F.PWR_OP_OP (n % 16))) (s.capOf n))
      if s.rootLead n root ≠ n ∧ own < s.khzOf (s.rootLead n root) then .code .BUDGET_EXCEEDED s
      else if sget (fun _ => false) s.pwr.clkStop n then .code .BUSY s
      else .wait { s with pwr := { s.pwr with clkStop := sset (fun _ => false) s.pwr.clkStop n true } } [n, c.n 3 19 0]) mb s

/-- The root and dividers of sheet `n` have changed and its clock restarts with all derived trees aligned (R196). -/
def execSheetClockRestart (n : Nat) (s : State) : Out :=
  match s.runningOf 0x0980 (fun o => decide (o.args.getD 0 0 = n)) with
  | none => .next s
  | some o =>
    let s := (s.markLate n).wr (R.SHT_CLK n) (word (o.args.getD 1 0))
    let s := { s with pwr := { s.pwr with clkStop := sset (fun _ => false) s.pwr.clkStop n false } }
    .next ((s.lckAlign n).finishRun o .DONE)

/-- SHT.FREEZE (R210). -/
def execShtFreeze (mb : Nat) (s : State) : Out := .next <| runCommand spec_SHT_FREEZE sheetFields
  (fun c s => .ok (s.put (R.SHT_CTRL (c.n 2 4 0)) F.SHT_CTRL_FREEZE (b2n (c.b 2 8)))) mb s

/-- SHT.COUNTERS (R211). -/
def execShtCounters (mb : Nat) (s : State) : Out := .next <| runCommand spec_SHT_COUNTERS sheetFields
  (fun c s =>
    let (ws, s') := s.counters ((List.range 4).map (R.SHT_COUNT (c.n 2 4 0))) (c.b 2 8)
    .ok s' ws) mb s

/-- One port of SHT.RISERS. -/
def State.riserNibble (s : State) (n k : Nat) : Nat :=
  s.orientNow n k + b2n (decide (s.recorded n k = 2)) * 4 + b2n (s.riserClash n k) * 8

/-- SHT.RISERS (R241). -/
def execShtRisers (mb : Nat) (s : State) : Out := .next <| runCommand spec_SHT_RISERS sheetFields
  (fun c s => .ok s ((List.range 5).map (fun i => word ((List.range 8).foldl
    (fun a j => a + s.riserNibble (c.n 2 4 0) (8 * i + j) * 16 ^ j) 0)))) mb s

/-! ### CAP commands (R212 to R217) -/

/-- Captures are permitted by the committed survey (POLICY CAPTURE_ALLOWED). -/
def capAllowed (s : State) : Option RetCode := if s.policy 3 then none else some .NOT_PERMITTED

/-- CAP.STATUS (R213). -/
def execCapStatus (mb : Nat) (s : State) : Out := .next <| runCommand spec_CAP_STATUS (fun _ s => capAllowed s)
  (fun _ s =>
    let c := s.fabric.cap
    .ok s [word (c.st.code * 2 ^ 30 + (if c.mode = 2 then c.trigSheet else 0) * 2 ^ 8 + c.mode), word c.set, loWord c.t,
      hiWord c.t]) mb s

/-- Checks of CAP.TAKE and CAP.TAKE_X: least lead in ns. -/
def capFields (lead : Cmd → Nat) (c : Cmd) (s : State) : Option RetCode :=
  let mode := c.n 3 1 0
  if (c.w 2).toNat = 0 ∨ mode = 3 ∨ (mode = 1 ∧ c.n64 4 < s.stamp + lead c) then some .BAD_FIELD
  else match capAllowed s with
    | some rc => some rc
    | none =>
      if (List.range 32).any (fun n => (c.b 2 n || (decide (mode = 2) && decide (c.n 3 12 8 = n))) && foreignSheet c s n)
      then some .NOT_OWNER else none

/-- CAP.TAKE's effect (R214, R215). -/
def capTake (lead : Nat) (ffOnly : Bool) (c : Cmd) (s : State) : Ans :=
  if s.fabric.cap.st ≠ .empty then .code .REFUSED_IN_USE s
  else
    let mode := c.n 3 1 0
    .acc (s.setCap {
      st := .armed, mode := mode, set := (c.w 2).toNat, trigSheet := c.n 3 12 8,
      t := if mode = 0 then s.stamp + lead else if mode = 1 then c.n64 4 else 0,
      trigger := 0, ffOnly := ffOnly, poster := c.sheet, openId := some c.id, recs := [] }) []

/-- CAP.TAKE (R214). -/
def execCapTake (mb : Nat) (s : State) : Out := .next <| runCommand spec_CAP_TAKE (capFields (fun _ => 2000))
  (capTake 2000 false) mb s

/-- The least lead that word 6 of CAP.TAKE_X gives. -/
def capLead (c : Cmd) : Nat := if c.b 6 1 then 200 else 2000

/-- CAP.TAKE_X (R215). -/
def execCapTakeX (mb : Nat) (s : State) : Out := .next <| runCommand spec_CAP_TAKE_X (capFields capLead)
  (fun c s => capTake (capLead c) (c.b 6 0) c s) mb s

/-- The first edge of the island led by sheet `lead` at or after T, at stamp `edge` (R200). -/
def execCaptureInstant (lead edge : Nat) (s : State) : Out :=
  let c := s.fabric.cap
  if c.timed ∧ c.t ≤ edge ∧ edge ≤ c.t + 1000 ∧ s.islandRuns lead ∧ s.lead lead = lead then
    .next ((s.reach edge).capIsland lead edge false)
  else .next s

/-- 1 µs after T without an edge of the island (R200). -/
def execCaptureEdgeNoneTimeout (lead : Nat) (s : State) : Out :=
  let c := s.fabric.cap
  if c.timed ∧ s.lead lead = lead then .next ((s.reach (c.t + 1000)).capIsland lead (c.t + 1000) true) else .next s

/-- A rising CAP_TRIG edge of sheet `n` reaches the capture controller (R202), where its selvedge cell passes one (R228, R230). -/
def execCapTrigEdge (n : Nat) (s : State) : Out :=
  let c := s.fabric.cap
  if c.st = .armed ∧ c.mode = 2 ∧ c.t = 0 ∧ c.trigSheet = n ∧ s.selvedge n 1680 true = true then
    .next (s.setCap { c with t := s.stamp + 32, trigger := s.stamp })
  else .next s

/-- The block RAM copies of the island led by `lead` end (R201). -/
def execCaptureCopyComplete (lead : Nat) (s : State) : Out := .next (s.capCopied (fun n => decide (s.lead n = lead)) false)

/-- CAP.READ (R216). -/
def execCapRead (mb : Nat) (s : State) : Out := .next <| runCommand spec_CAP_READ
  (fun c s => if !s.fabric.cap.set.testBit (c.n 2 4 0) || decide (c.n 3 11 0 ≠ 0) then some .BAD_FIELD else capAllowed s)
  (fun c s => if s.fabric.cap.st ≠ .held then .code .REFUSED_IN_USE s else .acc s [c.n 2 4 0, c.n64 3]) mb s

/-- The record is in host memory (R216). -/
def execCapReadComplete (s : State) : Out :=
  match s.openOf 0x1803 with
  | none => .next s
  | some o =>
    let n := o.args.getD 0 0
    let s := match s.fabric.cap.rec_ n with
      | some r => s.hostWrite (o.args.getD 1 0) (capBytes n s.fabric.cap r)
      | none => s
    .next (s.complete o.id .DONE)

/-- CAP.RELEASE (R217). BUSY while a CAP.READ is open (R77). DESIGN CHOICE (log entry 68): DONE where the plane is EMPTY. -/
def execCapRelease (mb : Nat) (s : State) : Out := .next <| runCommand spec_CAP_RELEASE
  (fun c s => match capAllowed s with
    | some rc => some rc
    | none => match s.fabric.cap.poster, c.fabKey s with
      | some p, some k => if s.keyOfSheet p ≠ k then some .NOT_OWNER else none
      | _, _ => none)
  (fun _ s =>
    let c := s.fabric.cap
    if (s.openOf 0x1803).isSome then .code .BUSY s
    else match c.st with
    | .copying => .code .REFUSED_IN_USE s
    | .armed => .ok ((s.setCap Capture.init).completeOpt c.openId .BUSY)
    | _ => .ok (s.setCap Capture.init)) mb s

end Sys2Proof.Machine
end

