-- ==== Sys2Proof/Machine/Loader.lean ====
section
/-! DEFINITION. The loader's contexts, the chart ports, verification, commits, cast-on with its fall-back, the LDR commands
(spec/07) and SHT.SWITCH (R240). -/

namespace Sys2Proof.Machine

/-! ### Contexts -/

/-- IDLE, DONE and REJECTED are free (R244). -/
def State.ctxFree (s : State) (c : Nat) : Bool := decide (s.ctxState c = 0 ∨ 5 ≤ s.ctxState c)

/-- The lowest-numbered free context. -/
def State.freeCtx (s : State) : Option Nat := (List.range 4).find? s.ctxFree

/-- LDR_STATUS as it reads. -/
def State.ldrStatus (s : State) : Word :=
  word ((match s.ldr.writing with | some c => 2 ^ 31 + c * 2 ^ 28 | none => 0) +
    (List.range 4).foldl (fun a c => a + b2n (s.ctxFree c) * 2 ^ c) 0)

/-- First byte of the staging region of context `c`, by store-tier offset (R243). -/
def stageBase (c : Nat) : Nat := 0xF0000000 + c * 0x04000000

/-- The staged data of context `c` is discarded. -/
def State.dropStaged (s : State) (c : Nat) : State :=
  { s with store := sfilter (fun k => decide (k < stageBase c ∨ stageBase (c + 1) ≤ k)) s.store }

/-- SOURCE of Table 7-13 and PORT_SHEET. -/
def LdrSrc.code : LdrSrc → Nat × Nat
  | .flash _ => (0, 0)
  | .host _ _ _ => (1, 0)
  | .port p => (2, p)

/-- Source `i` of the claim arbiter takes context `c` (R242). -/
def State.claimCtx (s : State) (c i : Nat) (x : LdrCtx) : State :=
  let (k, p) := x.src.code
  let s := (s.dropStaged c).wr (R.LDR_CTX c) (word (1 * 2 ^ 28 + k * 2 ^ 26 + p * 2 ^ 20))
  let s := ((s.wr (R.LDR_CTX_BYTES c) 0).wr (R.LDR_CTX_WIRE c) 0).setCtx c (some x)
  { s with ldr := { s.ldr with rrClaim := (i + 1) % 33 } }

/-- A new stream from a source. -/
def newCtx (src : LdrSrc) (cast : Bool) (openId : Option Nat) (now : Nat) : LdrCtx :=
  { src := src, raw := [], cast := cast, failed := none, ready := false, openId := openId, lastBeat := now }

/-- A cast-on load is in progress. -/
def State.casting (s : State) : Bool :=
  (List.range 4).any (fun c => !s.ctxFree c && (match s.ctx c with | some x => x.cast | none => false))

/-! ### Results -/

/-- Word 3 of a completion (Table 7-15). -/
def State.ldrWord (s : State) (c : Nat) (fallback held : Bool) (reason : Nat) : Word :=
  word (b2n fallback * 2 ^ 31 + b2n held * 2 ^ 30 + reason * 2 ^ 16 + s.get (R.LDR_CTX c) F.LDR_CTX_PLANE * 4 + c)

/-- The open command of a context completes. -/
def State.ldrDone (s : State) (c : Nat) (id : Option Nat) (rc : RetCode) (fallback held : Bool) (reason : Nat) : State :=
  s.completeOpt id rc [s.ldrWord c fallback held reason, s.rd (R.LDR_CTX_WIRE c)]

/-- A chart port reports its stream's end on CP_DONE (R258). -/
def State.portDone (s : State) (c : Nat) (x : LdrCtx) (rc : RetCode) : State :=
  match x.src with
  | .port p => { s with ldr := { s.ldr with
      cpDone := sset (fun _ => none) s.ldr.cpDone p (some (rc.num, s.get (R.LDR_CTX c) F.LDR_CTX_PLANE)) } }
  | _ => s

/-- LDR_CASTON source code: 0 host, 1 cast-on area, 2 benchmark image. -/
def LdrSrc.cast : LdrSrc → Nat
  | .flash true => 2
  | .flash false => 1
  | _ => 0

/-- LDR_CASTON. -/
def castonWord (ended fallback benchOk : Bool) (source reason code : Nat) : Word :=
  word (b2n ended * 2 ^ 31 + b2n fallback * 2 ^ 30 + b2n benchOk * 2 ^ 29 + source * 2 ^ 27 + reason * 2 ^ 16 + code)

/-- A cast-on failure reaches the journal once its whole outcome is known. -/
def State.castJournal (s : State) (reason code : Nat) : State := s.journal 3 reason code (s.rd R.LDR_CASTON) 0

/-- The stream of context `c` is rejected (R250, R256). -/
def State.reject (s : State) (c reason : Nat) (rc : RetCode) : State :=
  match s.ctx c with
  | none => s
  | some x =>
    let s := (s.setCtxState c 6).put (R.LDR_CTX c) F.LDR_CTX_REASON reason
    let s := (s.bump (R.LDR_COUNT 1)).gazInc 69
    let s := if rc = .REGION_VIOLATION then s.bump (R.LDR_COUNT 2) else s
    let s := if rc = .DRIVER_CONFLICT then s.bump (R.LDR_COUNT 3) else s
    let s := s.report 0x70 c [s.rd (R.LDR_CTX c), word rc.num, word x.src.code.1]
    let s := ({ s with ldr := { s.ldr with writing := if s.ldr.writing = some c then none else s.ldr.writing } }.setCtx c none).portDone
      c x rc
    if !x.cast then s.ldrDone c x.openId rc false false reason
    else match x.failed with
      | some (r0, code0, src0) =>
        -- the benchmark stream of a fall-back
        let s := (s.wr R.LDR_CASTON (castonWord true true false src0 r0 code0)).castJournal r0 code0
        (match x.openId with
          | some id =>
            (match s.openById id with
              | some _ => s.ldrDone c (some id) (rcOf code0) true false r0
              | none => s)
          | none => s)
      | none =>
        if reason = 0x14 then
          let old := s.rd R.LDR_CASTON
          let s := s.wr R.LDR_CASTON
            (castonWord true (old.bit 30) (old.bit 29) x.src.cast reason rc.num)
          s.ldrDone c x.openId rc (old.bit 30) false reason
        else
          let s := s.gazInc 66
          if x.src = .flash true then
            let s := (s.wr R.LDR_CASTON (castonWord true false false 2 reason rc.num)).castJournal reason rc.num
            s.ldrDone c x.openId rc false false reason
          else
            let s := (s.wr R.LDR_CASTON (castonWord false true false x.src.cast reason rc.num)).gazInc 67
            let held := match x.openId.bind s.openById with | some o => decide (o.code = 0x0803) | none => false
            let s := if held then s.ldrDone c x.openId rc true false reason else s
            let y : LdrCtx := { newCtx (.flash true) true (if held then none else x.openId) s.stamp with
              failed := some (reason, rc.num, x.src.cast) }
            (match s.freeCtx with
              | some k => s.claimCtx k 32 y
              | none => s)
where
  /-- the return code of a number among those a stream ends with -/
  rcOf (n : Nat) : RetCode :=
    ([.BUSY, .REFUSED_IN_USE, .BAD_LENGTH, .BAD_FIELD, .NOT_PERMITTED, .AUTH_FAILED, .REGION_VIOLATION,
      .DRIVER_CONFLICT] : List RetCode).find? (fun r => decide (r.num = n)) |>.getD .BUSY

/-! ### Staging -/

/-- What is left of a stream from a staging port, `n` bytes, is to be taken and discarded. -/
def State.dropRest (s : State) (src : LdrSrc) (n : Nat) : State :=
  match src with
  | .port p => { s with ldr := { s.ldr with drop := sset (fun _ => 0) s.ldr.drop p n } }
  | _ => s

/-- Bytes reach context `c`: staged decrypted, and the header judged once its 64 bytes are there (R249, R250). A FULL stream from the host is
a cast-on load where the state permits one (R252, R256). -/
def State.stageBytes (s : State) (c : Nat) (bs : List Byte) : State :=
  match s.ctx c with
  | none => s
  | some x =>
    let old := x.raw.length
    let raw := x.raw ++ bs
    let judged := decide (old < 64 ∧ 64 ≤ raw.length)
    let host := match x.src with | .host _ _ _ => true | _ => false
    let x' := { x with raw := raw, lastBeat := s.stamp, cast := x.cast || (judged && host && hdrClass raw == 1 && s.classOk 1) }
    let s := (s.setCtx c (some x')).wr (R.LDR_CTX_BYTES c) (word raw.length)
    let from_ := if old < 64 then 0 else old
    let staged := ((plainOf raw).zipIdx.drop from_).foldl (fun m p => sset (fun _ => (0 : Byte)) m (stageBase c + p.2) p.1)
      s.store
    let s := { s with store := staged }
    if raw.length < 64 then s
    else
      let s := if old < 64 then
          (s.put (R.LDR_CTX c) F.LDR_CTX_ENC (b2n (hdrEnc raw))).put (R.LDR_CTX c) F.LDR_CTX_CLASS (hdrClass raw % 4)
        else s
      match (if old < 64 then s.headerFails x' else none) with
      | some (r, rc) =>
        (s.dropRest x.src (hdrLength raw - raw.length)).reject c r rc
      | none => if hdrLength raw < raw.length then s.reject c 0x03 .BAD_LENGTH else s

/-- STAGING_DATA_ARRIVAL: bytes from flash or host memory. -/
def execStagingDataArrival (c : Nat) (bs : List Byte) (s : State) : Out :=
  match s.ctx c with
  | some x => (match x.src with
    | .port _ => .next s
    | _ => if s.ctxState c = 1 then .next (s.stageBytes c bs) else .next s)
  | none => .next s

/-- STAGING_COMPLETE: the source has ended, with an error or without (check 5). -/
def execStagingComplete (c : Nat) (err : Bool) (s : State) : Out :=
  match s.ctx c with
  | some x =>
    if s.ctxState c ≠ 1 then .next s
    else match x.src with
      | .port _ =>
        if 64 ≤ x.raw.length ∧ x.raw.length = hdrLength x.raw then .next (s.setCtxState c 2) else .next s
      | _ =>
        if err then .next (s.reject c 0x13 .BUSY)
        else if x.raw.length < 64 ∨ x.raw.length ≠ hdrLength x.raw then .next (s.reject c 0x03 .BAD_LENGTH)
        else .next (s.setCtxState c 2)
  | none => .next s

/-! ### The chart port (R257, R258) -/

/-- The context that holds the stream of chart port `n`. -/
def State.portCtx (s : State) (n : Nat) : Option Nat :=
  (List.range 4).find? (fun c => match s.ctx c with | some x => x.src == .port n | none => false)

/-- LCK1 of sheet `n` exceeds 500 MHz (R195). -/
def State.lck1Fast (s : State) (n : Nat) : Bool :=
  decide (500000 * (s.get (R.SHT_CLK n) F.SHT_CLK_DIV1 + 1) < s.khzOf n)

/-- A chart port may begin a stream: enabled, a context free, LCK1 in range, a state that permits PARTIAL. -/
def State.portOpen (s : State) (n : Nat) : Bool :=
  s.flag (R.LDR_GRANT_WALES_HI n) F.LDR_GRANT_WALES_HI_EN && s.freeCtx.isSome && !s.lck1Fast n && s.classOk 2

/-- CHART_PORT_BEAT: 16 bytes at an edge of LCK1, none while the port's grant has EN at 0 or LCK1 is too fast. Bytes left over from a rejected
stream are discarded; a first beat claims a context. -/
def execChartPortBeat (n : Nat) (beat : List Byte) (s : State) : Out :=
  if 32 ≤ n ∨ beat.length ≠ 16 ∨ ¬ s.islandRuns n ∨ ¬ s.portsOpen n ∨ s.lck1Fast n ∨
      ¬ s.flag (R.LDR_GRANT_WALES_HI n) F.LDR_GRANT_WALES_HI_EN then .next s
  else
    let left := sget (fun _ => 0) s.ldr.drop n
    if left ≠ 0 then .next { s with ldr := { s.ldr with drop := sset (fun _ => 0) s.ldr.drop n (left - 16) } }
    else match s.portCtx n with
      | some c =>
        (match s.ctx c with
          | some x =>
            let full := decide (64 ≤ x.raw.length) && x.raw.length == hdrLength x.raw
            if s.ctxState c = 1 ∧ ¬ full then
              .next (s.stageBytes c beat)
            else .next s
          | none => .next s)
      | none =>
        if s.portOpen n then
          match s.freeCtx with
          | some c => .next ((s.claimCtx c n (newCtx (.port n) false none s.stamp)).stageBytes c beat)
          | none => .next s
        else .next s

/-- The stream of chart port `n` is abandoned, in STAGING or VERIFYING. -/
def State.portAbandon (s : State) (n : Nat) : State :=
  let s := { s with ldr := { s.ldr with drop := sset (fun _ => 0) s.ldr.drop n 0 } }
  match s.portCtx n with
  | some c => if s.ctxState c = 1 ∨ s.ctxState c = 2 then s.reject c 0x13 .BUSY else s
  | none => s

/-- CHART_PORT_ABORT: CP_ABORT for one cycle. -/
def execChartPortAbort (n : Nat) (s : State) : Out := .next (s.portAbandon n)

/-- CHART_PORT_TIMEOUT: 10 ms without a beat. -/
def execChartPortTimeout (n : Nat) (s : State) : Out :=
  match s.portCtx n with
  | some c => (match s.ctx c with
    | some x => if s.ctxState c = 1 then .next ((s.reach (x.lastBeat + 10000000)).portAbandon n) else .next s
    | none => .next s)
  | none => .next s

/-! ### Verification and commit -/

/-- VERIFICATION_COMPLETE: checks 6 to 12 (R249, R250). -/
def execVerificationComplete (c : Nat) (s : State) : Out :=
  match s.ctx c with
  | some x =>
    if s.ctxState c ≠ 2 ∨ x.ready then .next s
    else match s.verifyFails x.raw with
      | some (r, rc) => .next (s.reject c r rc)
      | none => match x.src with
        | .host _ _ true =>
          .next (((s.setCtxState c 3).setCtx c (some { x with openId := none })).ldrDone c x.openId .DONE false true 0)
        | _ => .next (s.setCtx c (some { x with ready := true }))
  | none => .next s

/-- The context the commit arbiter serves next (R254). -/
def State.nextCommit (s : State) : Option Nat :=
  ((List.range 4).map (fun i => (s.ldr.rrWrite + i) % 4)).find? (fun c =>
    match s.ctx c with | some x => x.ready && decide (s.ctxState c = 2 ∨ s.ctxState c = 3) | none => false)

/-- COMMIT_START: the write port is free and a context takes it; switches due are performed first (R253); checks 13 to 16; a block RAM swatch
of a block initialised is abandoned (R624). -/
def execCommitStart (s : State) : Out :=
  match s.ldr.writing, s.nextCommit with
  | none, some c =>
    (match s.ctx c with
      | none => .next s
      | some x =>
        let s := { s with ldr := { s.ldr with rrWrite := (c + 1) % 4 } }.switchesDue
        match s.commitFails x with
        | .error (r, rc, wire) => .next ((s.wr (R.LDR_CTX_WIRE c) wire).reject c r rc)
        | .ok tg =>
          let bs := plainOf x.raw
          let l := (framesOf bs).getD []
          let s := (s.setCtxState c 4).put (R.LDR_CTX c) F.LDR_CTX_PLANE tg
          let s := s.swtAbandon (fun q => decide (q.kind = 4) &&
            l.any (fun f => decide (f.kind = 3 ∧ 128 * f.unit + f.block = q.target)))
          .next { s with ldr := { s.ldr with writing := some c, began := s.stamp, landed := 0 } }.commitLand)
  | _, _ => .next s

/-- The start group of a FULL stream passed at once or is on its way (R254 order 6). -/
def State.startFull (s : State) (l : List LFrame) : State :=
  let (n, s) := s.startGroup l
  let s := { s with ldr := { s.ldr with startLeft := n } }
  if n = 0 then s.chart else s

/-- COMMIT_COMPLETE: what is left of the effects of Table 7-11, in order; the context enters DONE. -/
def execCommitComplete (s : State) : Out :=
  match s.ldr.writing with
  | none => .next s
  | some c => match s.ctx c with
    | none => .next s
    | some x =>
      let bs := plainOf x.raw
      let l := (framesOf bs).getD []
      let cls := hdrClass bs
      let s := s.commitRest cls (s.get (R.LDR_CTX c) F.LDR_CTX_PLANE) l
      let s := s.recordOrient l
      let s := if cls = 1 then s.startFull l else s
      let s := ({ s with ldr := { s.ldr with writing := none } }.setCtx c none).setCtxState c 5
      let s := (s.bump (R.LDR_COUNT 0)).portDone c x .DONE
      if x.cast then
        match x.failed with
        | some (r0, code0, src0) =>
          let s := (s.wr R.LDR_CASTON (castonWord true true true src0 r0 code0)).castJournal r0 code0
          .next (s.ldrDone c x.openId (State.reject.rcOf code0) true false r0)
        | none =>
          let s := s.wr R.LDR_CASTON (castonWord true false (x.src == .flash true) x.src.cast 0 0)
          .next (s.ldrDone c x.openId .DONE false false 0)
      else .next (s.ldrDone c x.openId .DONE false false 0)

/-! ### Cast-on -/

/-- Start a cast-on load from flash in a free context (R110, R266). -/
def State.castLoad (s : State) (bench : Bool) (openId : Option Nat) : Option State :=
  s.freeCtx.map (fun c => s.claimCtx c 32 (newCtx (.flash bench) true openId s.stamp))

/-! ### Registers and commands -/

/-- LDR.STATUS (R262). -/
def execLdrStatus (mb : Nat) (s : State) : Out := .next <| runCommand spec_LDR_STATUS noFields
  (fun _ s => .ok s ([s.ldrStatus, s.rd R.LDR_CASTON] ++ (List.range 4).map (fun c => s.rd (R.LDR_CTX c)) ++
    (List.range 4).map (fun c => s.rd (R.LDR_CTX_BYTES c)))) mb s

/-- LDR.LOAD (R263). -/
def execLdrLoad (mb : Nat) (s : State) : Out := .next <| runCommand spec_LDR_LOAD
  (fun c _ => badIf (decide ((c.w 2).toNat % 16 ≠ 0 ∨ (c.w 4).toNat % 16 ≠ 0 ∨ (c.w 4).toNat < 320 ∨ 67108864 < (c.w 4).toNat)))
  (fun c s =>
    if !s.classOk 1 && !s.classOk 2 then .code .NOT_PERMITTED s
    else match s.freeCtx with
      | none => .code .BUSY s
      | some k => .acc (s.claimCtx k 32 (newCtx (.host (c.n64 2) (c.w 4).toNat (c.b 5 0)) false (some c.id) s.stamp)) [k]) mb s

/-- LDR.COMMIT (R264). -/
def execLdrCommit (mb : Nat) (s : State) : Out := .next <| runCommand spec_LDR_COMMIT noFields
  (fun c s =>
    let k := c.n 2 1 0
    match s.ctx k with
    | some x =>
      if s.ctxState k = 3 ∧ x.ready = false then .acc (s.setCtx k (some { x with ready := true, openId := some c.id })) [k]
      else .code .REFUSED_IN_USE s
    | none => .code .REFUSED_IN_USE s) mb s

/-- LDR.ABORT (R265). -/
def execLdrAbort (mb : Nat) (s : State) : Out := .next <| runCommand spec_LDR_ABORT noFields
  (fun c s =>
    let k := c.n 2 1 0
    if 1 ≤ s.ctxState k ∧ s.ctxState k ≤ 3 then .ok (s.reject k 0x14 .BUSY) else .code .REFUSED_IN_USE s) mb s

/-- LDR.CASTON (R266). -/
def execLdrCaston (mb : Nat) (s : State) : Out := .next <| runCommand spec_LDR_CASTON noFields
  (fun c s =>
    if s.sys.dev ≠ .ready then .code .NOT_PERMITTED s
    else if s.casting then .code .BUSY s
    else match s.castLoad (c.b 2 0 || s.sys.straps.bootSrc.testBit 1) (some c.id) with
      | some s' => .acc s' []
      | none => .code .BUSY s) mb s

/-- The grant breaks the tenant rule of R259. -/
def State.grantForeign (s : State) (n sheets wales : Nat) : Bool :=
  match s.tenantOfSheet n with
  | none => false
  | some r => decide (r.words.getD 2 0 &&& sheets ≠ sheets) || decide (r.waleMask &&& wales ≠ wales)

/-- LDR.GRANT (R267). -/
def execLdrGrant (mb : Nat) (s : State) : Out := .next <| runCommand spec_LDR_GRANT noFields
  (fun c s =>
    let n := c.n 2 4 0
    if s.flag R.LDR_CTRL F.LDR_CTRL_LOCK then .code .NOT_PERMITTED s
    else if s.grantForeign n (c.w 3).toNat (c.n64 4 % 2 ^ 40) then .code .NOT_OWNER s
    else .ok (((s.wr (R.LDR_GRANT_SHEETS n) (c.w 3)).wr (R.LDR_GRANT_WALES_LO n) (c.w 4)).wr (R.LDR_GRANT_WALES_HI n)
      (word (c.n 2 8 8 * 2 ^ 31 + c.n 5 7 0)))) mb s

/-- LDR.LOCK (R268). -/
def execLdrLock (mb : Nat) (s : State) : Out := .next <| runCommand spec_LDR_LOCK noFields
  (fun _ s => .ok (s.put R.LDR_CTRL F.LDR_CTRL_LOCK 1)) mb s

/-- LDR.COUNTERS (R269). -/
def execLdrCounters (mb : Nat) (s : State) : Out := .next <| runCommand spec_LDR_COUNTERS noFields
  (fun c s =>
    let (ws, s') := s.counters ((List.range 4).map R.LDR_COUNT) (c.b 2 0)
    .ok s' ws) mb s

/-! ### SHT.SWITCH (R240) -/

/-- SHEETS, planes, WALES, TILES and PATTERN of the message. -/
def swSheets (c : Cmd) : Nat := (c.w 2).toNat
def swPlane (c : Cmd) (n : Nat) : Nat := if n < 16 then c.n 3 (2 * n + 1) (2 * n) else c.n 4 (2 * n - 31) (2 * n - 32)
def swWales (c : Cmd) : Nat := (c.w 5).toNat + c.n 6 7 0 * 2 ^ 32
def swPattern (c : Cmd) : Nat := c.n 6 11 8
def swTiles (c : Cmd) : Nat := c.n 6 31 16

/-- Sheets, wales and tiles named. -/
def swSheetList (c : Cmd) : List Nat := (List.range 32).filter (swSheets c).testBit
def swWaleList (c : Cmd) : List Nat := (List.range 40).filter (swWales c).testBit
def swNames (c : Cmd) (t : Nat) : Bool := (swWales c).testBit (waleOf t) && (swTiles c).testBit (posOf t)

/-- BAD_FIELD, NOT_PERMITTED and NOT_OWNER of R240, in the order of R72. -/
def switchFields (c : Cmd) (s : State) : Option RetCode :=
  badIf (decide (swSheets c = 0 ∧ swWales c = 0) || decide (swWales c ≠ 0 ∧ swTiles c = 0) ||
    decide (c.n64 7 ≠ 0 ∧ c.n64 7 < s.stamp + 2000) ||
    (swSheetList c).any (fun n => !s.planeValid n (swPlane c n)) ||
    (List.range 640).any (fun t => swNames c t && !s.patValid t (swPattern c))) <|>
  (if s.sys.dev ≠ .charted ∧ s.sys.dev ≠ .onAir then some .NOT_PERMITTED else none) <|>
  (match c.fabKey s with
    | some k =>
      if (swSheetList c).any (fun n => decide (s.keyOfSheet n ≠ k)) || (swWaleList c).any (fun w => decide (s.keyOfWale w ≠ k))
      then some .NOT_OWNER else none
    | none => none)

/-- The pair the group would leave at a port. -/
def swPair (c : Cmd) (s : State) (n t : Nat) : Pair :=
  let p := s.pairNow n t
  (if (swSheets c).testBit n then some (swPlane c n) else p.1, if swNames c t then some (swPattern c) else p.2)

/-- What the group keeps: T (0 stands for 2 µs after the reading), sheets, planes, wales, tiles and pattern. -/
def swPlanes (c : Cmd) : Nat := (c.w 3).toNat + (c.w 4).toNat * 2 ^ 32
def swTime (c : Cmd) (now : Nat) : Nat := if c.n64 7 = 0 then now + 2000 else c.n64 7
def swArgs (c : Cmd) (now : Nat) : List Nat := [swTime c now, swSheets c, swPlanes c, swWales c, swTiles c, swPattern c]

/-- The group of command `id`, with `left` switches to come, waits. -/
def State.groupWaits (s : State) (id left : Nat) : State :=
  { s with fabric := { s.fabric with group := some ⟨id, left, false⟩ } }

/-- The walk over every port the group touches (R240). -/
def swWalk (c : Cmd) (s : State) : Option Word :=
  s.riserWalk (s.walkTables none) (fun n k => (swSheets c).testBit n || swNames c (tileOfRiser n k).1) (swPair c s)

/-- SHT.SWITCH: the group waits for T (GROUP_SWITCH hands it over). -/
def execShtSwitch (mb : Nat) (s : State) : Out := .next <| runCommand spec_SHT_SWITCH (fun c s => switchFields c s.commitLand)
  (fun c s =>
    let s := s.commitLand
    if s.fabric.group.isSome || (swWaleList c).any (fun w => (s.wale w).shift.isSome) then .code .BUSY s
    else match swWalk c s with
      | some w => .ans .DRIVER_CONFLICT s [w]
      | none => .acc (s.groupWaits c.id ((swSheetList c).length + (swWaleList c).length)) (swArgs c s.stamp)) mb s

end Sys2Proof.Machine
end

