-- ==== Sys2Proof/Machine/MerOps.lean ====
section
/-! DEFINITION. Operations of the meridian unit (spec/13): local and air time, references, the contour model and its MRAM copy,
holdover episodes. -/

namespace Sys2Proof.Machine

/-! ### Local time and air time (R426) -/

/-- The unit runs: not in HALTED, TRIPPED or without power (Table 1-7). -/
def State.merRuns (s : State) : Bool :=
  match s.sys.dev with | .halted => false | .tripped => false | .off => false | _ => true

/-- Local time at stamp `t`, in 2⁻³² s. -/
def Mer.localAt (m : Mer) (t : Nat) : Nat :=
  m.local_ + (((t - m.at_ : Nat) : Int) * (1000000000000 + m.freq) * 4294967296 / 1000000000000000000000).toNat

/-- Local time now. -/
def State.localNow (s : State) : Nat := if s.merRuns then s.mer.localAt s.stamp else s.mer.local_

/-- Air time of a local time, in samples. -/
def airOf (l : Nat) : Nat := l * 491520000 / 4294967296

/-- Air time now. -/
def State.airNow (s : State) : Nat := airOf s.localNow

/-- The device stamp at which local time reaches `l`; the present stamp when it has. -/
def State.stampOfLocal (s : State) (l : Nat) : Nat :=
  if l ≤ s.localNow then s.stamp
  else
    let d : Int := (l - s.mer.local_ : Nat)
    let k : Int := 1000000000000 + s.mer.freq
    s.mer.at_ + ((d * 1000000000000000000000 + k * 4294967296 - 1) / (k * 4294967296)).toNat

/-- The device stamp of air time `a` (R306). -/
def State.stampOfAir (s : State) (a : Nat) : Nat := s.stampOfLocal ((a * 4294967296 + 491519999) / 491520000)

/-- Local time is carried forward to the present stamp. -/
def State.merCarry (s : State) : State :=
  { s with mer := { s.mer with local_ := s.localNow, at_ := s.stamp } }

/-- Replace the unit's hidden state. -/
def State.setMer (s : State) (m : Mer) : State := { s with mer := m }

/-- State, selected reference and flags of MER_STATUS. -/
def State.merState (s : State) : Nat := s.get R.MER_STATUS F.MER_STATUS_STATE
def State.merRef (s : State) : Nat := s.get R.MER_STATUS F.MER_STATUS_REF
def State.budgetMute (s : State) : Bool := s.flag R.MER_STATUS F.MER_STATUS_BUDGET_MUTE

/-- Lock, or holdover within budget (R102, R438). -/
def State.merGood (s : State) : Bool := decide (s.merState = 2 ∨ s.merState = 3)

/-! ### Survey facts -/

/-- The OSC record's words. -/
def State.oscF (s : State) (i hi lo : Nat) : Nat := match s.recsOf 4 with | r :: _ => r.f i hi lo | [] => 0
def State.oscClass (s : State) : Nat := s.oscF 1 31 28
def State.oscMref (s : State) : Nat := s.oscF 1 27 24
def State.oscGnss (s : State) : Nat := s.oscF 2 9 8
/-- The words that identify a contour model (R441): BOARD_ID; CLASS, MREF, SENSOR_BUS and SENSOR_ADDR. -/
def State.modelId (s : State) : Nat × Nat :=
  ((match s.recsOf 1 with | r :: _ => r.words.getD 0 0 | [] => 0), (match s.recsOf 4 with | r :: _ => r.words.getD 0 0 | [] => 0))
/-- The upstream port (R571). -/
def State.upstream (s : State) : Option Nat :=
  let k := s.position
  if k = 0 then none
  else [0, 1].find? (fun p => decide (s.get (R.YRN_PORT p) F.YRN_PORT_PEER = k - 1))

/-! ### Inputs -/

/-- A PTP message is addressed as its profile asks (R432): to a PTP multicast address, or from the configured grandmaster to the own one. -/
def State.ptpForUs (s : State) (m : PtpMsg) : Bool :=
  if m.udp then decide (m.src = (s.rd R.MER_PTP_GM).toNat ∧ m.dst = (s.rd R.MER_PTP_OWN).toNat)
  else decide (m.dst = 0x011B19000000 ∨ m.dst = 0x0180C200000E)

/-- A PTP message reaches the unit (R430, R432). -/
def State.ptpMessage (s : State) (mac : Nat) (m : PtpMsg) : State :=
  let cfg := R.MER_CFG
  let partial_ := decide (s.get cfg F.MER_CFG_PROFILE = 3)
  let bad := decide (mac ≠ s.get cfg F.MER_CFG_MAC) || decide (m.domain ≠ s.get cfg F.MER_CFG_DOMAIN) || (m.udp != partial_) ||
    !s.ptpForUs m || m.kind == .management || m.kind == .unsupported
  if bad || !s.merRuns then s.bump (R.MER_COUNT 3)
  else
    let p := s.mer.ptp
    let mine := match p.gm with | some (g, _) => decide (g = m.master) | none => false
    match m.kind with
    | .announce cls best leap =>
      let fresh := decide (p.gm ≠ some (m.master, cls))
      let p := if best then { p with gm := some (m.master, cls), since := if fresh then s.stamp else p.since,
                                     announce := some s.stamp } else p
      let p := if p.foreign.contains m.master || decide (8 ≤ p.foreign.length) then p
        else { p with foreign := p.foreign ++ [m.master] }
      let s := s.setMer { s.mer with ptp := p }
      (match leap with
        | some l => if best && decide (s.merRef = 2) then s.wr R.MER_LEAP (l &&& 0x3FF) else s
        | none => s)
    | .sync => if mine then s.setMer { s.mer with ptp := { p with sync := some s.stamp } } else s
    | .delayResp => if mine then s.setMer { s.mer with ptp := { p with delay := some s.stamp } } else s
    | _ => s

/-- An ESMC message of MAC `mac` reaches the unit (R430, R433). -/
def State.esmcMessage (s : State) (mac ql : Nat) : State :=
  let lane := s.get R.MER_CFG F.MER_CFG_SYNCE_LANE
  if !s.flag R.MER_CFG F.MER_CFG_SYNCE_EN || decide (s.laneClass lane ≠ 1) || decide (s.laneGroup lane ≠ mac) || !s.merRuns then s
  else
    let e := s.mer.synce
    let good := decide (ql = 2 ∨ ql = 4)
    s.setMer { s.mer with
      synce := { ql := ql, last := some s.stamp, since := if good then (match e.since with | some t => some t | none => some s.stamp) else none },
      esmcLost := false }

/-! ### Validity (R430) -/

/-- A stamp no older than `d` ns. -/
def State.recent (s : State) (t : Option Nat) (d : Nat) : Bool := match t with | some t => decide (s.stamp ≤ t + d) | none => false

/-- The second that ends is judged for GNSS: counts of good and bad seconds, a jump of the labelled time. -/
def State.gnssSecond (s : State) : State :=
  let g := s.mer.gnss
  let g := match g.label with
    | some (t, ok) =>
      let jump := match g.prev with | some p => decide (t ≠ p + 1) | none => false
      { g with label := none, prev := some t, jumped := jump, good := if ok then (if jump then 1 else g.good + 1) else 0,
               bad := if ok then 0 else g.bad + 1 }
    | none => { g with prev := g.prev.map (· + 1), jumped := false, good := 0, bad := g.bad + 1 }
  s.setMer { s.mer with gnss := g }

/-- GNSS is valid at this boundary, given whether it was. -/
def State.gnssValid (s : State) (was : Bool) : Bool :=
  let g := s.mer.gnss
  let edge := s.recent g.edge 1500000000
  if was then edge && decide (g.bad < 2) && !g.jumped else edge && decide (3 ≤ g.good)

/-- What PTP must show (Table 13-3): a grandmaster of a good clockClass, Announce, Sync and Delay_Resp. -/
def State.ptpHolds (s : State) : Bool :=
  let p := s.mer.ptp
  (match p.gm with | some (_, c) => decide (c = 6 ∨ c = 7 ∨ c = 135) | none => false) &&
  s.recent p.announce 375000000 && s.recent p.sync 2000000000 && s.recent p.delay 2000000000

/-- PTP is valid: it has shown that for 8 s. -/
def State.ptpValid (s : State) : Bool := s.ptpHolds && decide (s.mer.ptp.since + 8000000000 ≤ s.stamp)

/-- Yarn port `p` offers valid time: UP, 3 s of transfers, the last within 1 s. -/
def State.portTime (s : State) (p : Nat) : Bool :=
  let y := sget (fun _ => YPort.init) s.links.yrn.port p
  decide (s.get (R.YRN_PORT p) F.YRN_PORT_STATE = 2) && s.recent y.lastTime 1000000000 &&
  (match y.timeSince with | some t => decide (t + 3000000000 ≤ s.stamp) | none => false)

/-- The port a member takes time from (R582): upstream, in a ring the other port while upstream is not valid. -/
def State.timePort (s : State) : Option Nat :=
  match s.upstream with
  | none => none
  | some p => if s.portTime p then some p else if s.topology = 2 ∧ s.portTime (1 - p) then some (1 - p) else none

/-- What SyncE must show beside a good quality level: ESMC, and its lane UP. -/
def State.synceHolds (s : State) : Bool :=
  s.flag R.MER_CFG F.MER_CFG_SYNCE_EN && decide (s.laneState (s.get R.MER_CFG F.MER_CFG_SYNCE_LANE) = laneUP) &&
  s.recent s.mer.synce.last 5000000000

/-- SyncE is valid: it has shown that, and a good level, for 10 s. -/
def State.synceValid (s : State) : Bool :=
  s.synceHolds && (match s.mer.synce.since with | some t => decide (t + 10000000000 ≤ s.stamp) | none => false)

/-- The second that ends is judged for every reference (R430): where PTP or SyncE did not hold, its time to become valid starts anew. -/
def State.refSecond (s : State) : State :=
  let s := s.gnssSecond
  let p := s.mer.ptp
  let e := s.mer.synce
  s.setMer { s.mer with
    ptp := if s.ptpHolds then p else { p with since := s.stamp }
    synce := if s.synceHolds then e else { e with since := none } }

/-- The time reference a profile selects (Table 13-2): 0 none, 1 GNSS, 2 PTP, 3 YARN. -/
def selectRef (profile : Nat) (gnss ptp yarn : Bool) : Nat :=
  match profile with
  | 0 => if gnss then 1 else if ptp then 2 else 0
  | 1 => if gnss then 1 else 0
  | 2 => if ptp then 2 else 0
  | 3 => if ptp then 2 else 0
  | 4 => if yarn then 3 else 0
  | _ => 0

/-- SyncE is used by a profile. -/
def synceUsed (profile : Nat) : Bool := decide (profile ≠ 3 ∧ profile ≠ 5)

/-! ### The contour model (R440, R441) -/

/-- V and N of bin `k`. -/
def State.binV (s : State) (k : Nat) : Int := sgn 24 (s.get (R.MER_BIN k) F.MER_BIN_V)
def State.binN (s : State) (k : Nat) : Nat := s.get (R.MER_BIN k) F.MER_BIN_N

/-- The last good oscillator temperature in 1/256 °C. -/
def State.oscTemp (s : State) : Int := sgn 16 (s.get R.MER_TEMP F.MER_TEMP_TEMP)

/-- Ageing rate in 10⁻¹² a day. -/
def State.ageRate (s : State) : Int := sgn 32 (s.rd R.MER_AGE).toNat

/-- Local time in whole seconds. -/
def State.localSec (s : State) : Nat := s.localNow / 4294967296

/-- Age since t₀ times d. -/
def State.ageing (s : State) : Int :=
  match s.mer.contour.t0 with
  | some t0 => Config.roundDiv (s.ageRate * ((s.localSec : Int) - t0)) 86400
  | none => 0

/-- The bins on either side of temperature `t` (1/256 °C), equal when it falls on a centre. -/
def binsAt (t : Int) : Option (Nat × Nat) :=
  let x := t + 40 * 256
  if x < 0 ∨ 130 * 256 < x then none
  else
    let k := (x / 256).toNat
    some (k, if x % 256 = 0 then k else k + 1)

/-- The temperature is learned. -/
def State.learned (s : State) (t : Int) : Bool :=
  match binsAt t with | some (a, b) => decide (10 ≤ s.binN a ∧ 10 ≤ s.binN b) | none => false

/-- The model's prediction at a temperature. -/
def State.predict (s : State) (t : Int) : Int :=
  match binsAt t with
  | some (a, b) =>
    let x := (t + 40 * 256) % 256
    (if a = b then s.binV a else Config.roundDiv (s.binV a * (256 - x) + s.binV b * x) 256) + s.ageing
  | none => s.ageing

/-- LEARN_DAYS, LOCKED_H and MODEL_VALID follow the model. -/
def State.modelFlags (s : State) : State :=
  let c := s.mer.contour
  let days := match c.t0 with | some t0 => satNat 16 ((s.localSec - t0) / 86400) | none => 0
  let s := (s.put R.MER_MODEL F.MER_MODEL_LEARN_DAYS days).put R.MER_MODEL F.MER_MODEL_LOCKED_H (satNat 16 (c.lockedS / 3600))
  if 14 ≤ days ∧ 72 ≤ c.lockedS / 3600 ∧ c.fitted then s.put R.MER_STATUS F.MER_STATUS_MODEL_VALID 1 else s

/-- The model is stored in MRAM (R440). -/
def State.modelStore (s : State) : State :=
  let (b, o) := s.modelId
  s.setMer { s.mer with mram := some {
    board := b, osc := o, bins := (List.range 131).map (fun k => s.rd (R.MER_BIN k)), age := s.rd R.MER_AGE,
    model := s.rd R.MER_MODEL, hidden := s.mer.contour, valid := s.flag R.MER_STATUS F.MER_STATUS_MODEL_VALID } }

/-- The model is empty again. -/
def State.modelClear (s : State) : State :=
  let s := (List.range 131).foldl (fun s k => s.wr (R.MER_BIN k) 0) s
  let s := ((s.wr R.MER_AGE 0).wr R.MER_MODEL 0).put R.MER_STATUS F.MER_STATUS_MODEL_VALID 0
  s.setMer { s.mer with contour := Contour.init }

/-- At survey commit: a copy of this board and oscillator is loaded, another is discarded and an event recorded (R441). -/
def State.modelCommit (s : State) : State :=
  match s.mer.mram with
  | none => s
  | some c =>
    if (c.board, c.osc) = s.modelId then
      let s := (c.bins.zipIdx).foldl (fun s p => s.wr (R.MER_BIN p.2) p.1) s
      let s := ((s.wr R.MER_AGE c.age).wr R.MER_MODEL c.model).put R.MER_STATUS F.MER_STATUS_MODEL_VALID (b2n c.valid)
      s.setMer { s.mer with contour := c.hidden }
    else
      let s := s.setMer { s.mer with mram := none }
      s.modelClear.report 0x72 3 [3, s.rd R.MER_BOUND, s.rd R.MER_HOLD]

/-- The profile in force at survey commit (R429). -/
def State.merCommit (s : State) : State :=
  let p := if s.position = 0 then 0 else 4
  (s.put R.MER_CFG F.MER_CFG_PROFILE p).setMer { s.mer with profile := p } |>.modelCommit

/-! ### Holdover (R442, R443) -/

/-- Growth of the bound in ps per second (Table 13-9); modes 1 CONTOUR, 2 PHASE, 3 SYNCE. -/
def State.growth (s : State) (mode : Nat) : Nat :=
  if mode = 3 then 5
  else if s.oscMref = 0 then 50000
  else match s.oscClass with
    | 2 => if mode = 1 then 36 else 1200
    | 1 => if mode = 1 then 100 else 6000
    | _ => 20000

/-- The holdover mode that applies (Table 13-8). -/
def State.holdMode (s : State) : Nat :=
  if s.synceValid && synceUsed s.mer.profile then 3
  else if s.flag R.MER_STATUS F.MER_STATUS_MODEL_VALID && s.flag R.MER_STATUS F.MER_STATUS_SENSOR_OK && s.learned s.oscTemp then 1
  else 2

/-! ### Steering (R435, R438) -/

/-- Phase bandwidth of the PLL in mHz for the selected reference (Table 13-5): 1 GNSS, 2 PTP, 3 YARN. -/
def State.pllBand (s : State) (ref : Nat) : Nat :=
  match ref with
  | 1 => if s.oscMref ≠ 0 ∧ s.oscClass = 2 then 10 else 100
  | 3 => 1000
  | _ => 100

/-- Where the PLL takes its frequency from: SyncE where it is valid and used, else the selected reference (Table 13-5). -/
def State.pllFreq (s : State) (p : PllSecond) : Int := if s.synceValid && synceUsed s.mer.profile then p.synce else p.freq

/-- The PLL pulls in a frequency within 50 ppm of nominal (R435). -/
def State.pllInRange (s : State) (p : PllSecond) : Bool := decide ((s.pllFreq p).natAbs ≤ 50000000)

/-- The part of a time error, in 10⁻⁶, that a loop of bandwidth `b` mHz removes in a second. DESIGN CHOICE (log entry 70): a loop of first order, which has
no peaking: 1 − e^(−2π × b / 1000). -/
def pllPart (b : Nat) : Int := if b = 10 then 60899 else if b = 1000 then 998133 else 466504

/-- The frequency steered, in 10⁻¹²: the estimate, within 50 ppm, and a slew of at most 50 ppb that takes the time error away at the bandwidth
of the reference (R435, R438). -/
def State.pllSteer (s : State) (p : PllSecond) (ref : Nat) : Int :=
  max (-50000000) (min 50000000 (s.pllFreq p)) + max (-50000) (min 50000 (p.te * pllPart (s.pllBand ref) / 1000))

/-- A picosecond bound in ns, rounded up. -/
def nsUp (ps : Nat) : Word := word (satNat 32 ((ps + 999) / 1000))

/-- The frequency a holdover mode steers. -/
def State.holdFreq (s : State) (mode : Nat) (p : PllSecond) : Int :=
  match mode with
  | 3 => p.synce
  | 1 => s.predict s.oscTemp + s.mer.corr
  | _ => s.mer.freq

/-- LOCKED changes to HOLDOVER (R437, R442): y_last, B₀, c, the counters and the event; the model is stored. -/
def State.enterHoldover (s : State) (p : PllSecond) : State :=
  let s := (s.put R.MER_STATUS F.MER_STATUS_STATE 3).bump (R.MER_COUNT 1)
  let s := (s.wr R.MER_HOLD 0).wr R.MER_BOUND (nsUp (s.mer.lockTe * 1000))
  let s := s.setMer { s.mer with bound := s.mer.lockTe * 1000, yLast := p.y100, freq := p.y100,
                                 corr := p.y100 - s.predict s.oscTemp, lockedSince := none }
  let s := (s.gazInc 52).report 0x72 1 [1, s.rd R.MER_BOUND, s.rd R.MER_HOLD]
  s.modelStore

/-- log₂ of a duration, for histogram 28. -/
def binOfSeconds (n : Nat) : Nat := if n < 2 then 0 else Nat.log2 n

/-- A holdover episode ends in LOCKED (R445, R654 to R656). -/
def State.endEpisode (s : State) : State :=
  let n := (s.rd R.MER_HOLD).toNat
  let out := decide (s.merState = 4)
  let s := s.journal 6 (s.get R.MER_STATUS F.MER_STATUS_HOLD_MODE) (b2n out) (s.rd R.MER_HOLD) (s.rd R.MER_BOUND)
  ((s.gazMax 54 n).gazHist 28 (binOfSeconds n)).gazHist 29 ((s.rd R.MER_BOUND).toNat / 50)

end Sys2Proof.Machine
end

