-- ==== Sys2Proof/Machine/AirOps.lean ====
section
/-! DEFINITION. Operations of the air schedule: instants and boundaries (R308), dispatch (R317), schedule mutes with their
receive windows (R313, R414), timed-output pins (R314, R319), starting, swapping and stopping (R319 to R321), sealing
(R325). -/

namespace Sys2Proof.Machine

/-- The schedule runs. -/
def State.airRuns (s : State) : Bool := s.flag R.AIR_STATUS F.AIR_STATUS_RUN

/-- It runs or its start is ordered, so entries are dispatched. -/
def State.airLive (s : State) : Bool := s.airRuns || s.air.start.isSome

/-- Replace the engine's hidden state. -/
def State.setAir (s : State) (a : Air) : State := { s with air := a }

/-- The first sample that begins at or after local time `l`. -/
def airFrom (l : Nat) : Nat := (l * 491520000 + 4294967295) / 4294967296

/-- The first sample that begins at least 100 µs from now (R319, R332). -/
def State.airIn100 (s : State) : Nat := airFrom (s.mer.localAt (s.stamp + 100000))

/-- First boundary of a table with period `p` and phase `phi` at or after air time `x` (R308). -/
def boundaryFrom (p phi x : Nat) : Nat := x + (phi + (p - x % p)) % p

/-- First boundary of the active table at or after `x`. -/
def State.airBoundary (s : State) (x : Nat) : Nat :=
  boundaryFrom (max 1 (s.airPeriod s.airActive)) (s.airPhase s.airActive) x

/-- The boundary at which a pending swap will take effect: none when the schedule stops there or before (R321, R331). -/
def State.airSwapAhead (s : State) : Option Nat :=
  match s.air.swap, s.air.stop with
  | some (b, _), some (x, _) => if x ≤ b then none else some b
  | some (b, _), none => some b
  | none, _ => none

/-- The table whose period is being dispatched: the incoming one once dispatch has passed a pending swap's boundary. -/
def State.airTable (s : State) : Nat :=
  match s.airSwapAhead with
  | some b => if b ≤ s.air.base then s.airOther else s.airActive
  | none => s.airActive

/-- Entries of table `t` from boundary `b` on for `k` periods: air times and entries, in order. -/
def State.airPeriods (s : State) (t b k : Nat) : List (Nat × AirEntry) :=
  (List.range k).flatMap (fun i =>
    (s.airEntries t (s.airCount t)).map (fun e => (b + i * s.airPeriod t + e.offset, e)))

/-- Entries still to act, dispatched ones first, up to air time `til`: the rest of the period being dispatched and later
periods, through a pending swap, up to the stop instant. -/
def State.airFuture (s : State) (til : Nat) : List (Nat × AirEntry) :=
  if !s.airLive then []
  else
    let a := s.air
    let t := s.airTable
    let p := max 1 (s.airPeriod t)
    let now := ((s.airEntries t (s.airCount t)).drop a.next).map (fun e => (a.base + e.offset, e))
    let b := a.base + p
    let later := match s.airSwapAhead with
      | some x =>
        if x ≤ a.base then s.airPeriods t b ((til - a.base) / p + 1)
        else
          let q := max 1 (s.airPeriod s.airOther)
          s.airPeriods t b ((min til x - a.base) / p + 1) |>.filter (fun e => decide (e.1 < x))
            |> (· ++ s.airPeriods s.airOther x ((til - x) / q + 1))
      | none => s.airPeriods t b ((til - a.base) / p + 1)
    let last := match a.stop with | some (x, _) => min til x | none => til
    (a.due.map (fun d => (d.at_, d.e)) ++ now ++ later).filter (fun e => decide (e.1 ≤ last))

/-- Dispatch goes on from boundary `b`: what has been dispatched for it is taken back. -/
def State.airRedispatch (s : State) (b : Nat) : State :=
  if b ≤ s.air.base then s.setAir { s.air with due := s.air.due.filter (fun d => decide (d.at_ < b)), base := b, next := 0 }
  else s

/-! ### Schedule mutes (R313, R413, R414) -/

/-- A JESD204C link. -/
def State.jsdLink (s : State) (k : Nat) : JsdLink := sget (fun _ => JsdLink.init) s.links.jsd.link k

/-- Replace a JESD204C link's hidden state. -/
def State.setJsdLink (s : State) (k : Nat) (l : JsdLink) : State :=
  { s with links := { s.links with jsd := { s.links.jsd with link := sset (fun _ => JsdLink.init) s.links.jsd.link k l } } }

/-- The windows of a link when its mute becomes `m` at air time `t`: a mute opens one, an unmute ends one. The last two are
kept, since samples arrive later than their air time. -/
def JsdLink.mute (l : JsdLink) (m : Bool) (t open_ len : Nat) : JsdLink :=
  if l.muted = m then l
  else if m then
    let w : JsdWin := ⟨t + open_ * 16, if len = 0 then none else some (t + open_ * 16 + len * 16), []⟩
    { l with muted := true, wins := (l.wins.drop (l.wins.length - 1)) ++ [w] }
  else
    { l with muted := false, wins := l.wins.map (fun w => match w.to_ with
        | some x => { w with to_ := some (min x t) }
        | none => { w with to_ := some t }) }

/-- Set or clear the schedule mute of the links of a mask at air time `t`. An unmute that meets a budget mute is counted. -/
def State.muteLinks (s : State) (mask : Nat) (m : Bool) (t : Nat) : State :=
  ((List.range 16).filter mask.testBit).foldl (fun s k =>
    let s := if !m && s.budgetMute then s.bump (R.AIR_CNT 4) else s
    s.setJsdLink k ((s.jsdLink k).mute m t (s.get (R.JSD_RXWIN k) F.JSD_RXWIN_OPEN) (s.get (R.JSD_RXWIN k) F.JSD_RXWIN_LEN))) s

/-- The schedule mute of link `k` for air time `t`, known ahead from the entries dispatched: at one instant the last decides. From T_stop on
it is set (R321). -/
def State.muteAt (s : State) (k t : Nat) : Bool :=
  (match s.air.stop with | some (x, _) => decide (x ≤ t) | none => false) ||
  (s.air.due.filter (fun d => decide (d.at_ ≤ t ∧ d.e.action = 4) && d.e.w1.bit k)).foldl (fun _ d => d.e.w2.bit 0)
    (s.jsdLink k).muted

/-- The device is ON-AIR at air time `t`: it is, or the starting boundary comes by then (R319). -/
def State.onAirAt (s : State) (t : Nat) : Bool :=
  decide (s.sys.dev = .onAir) || (match s.air.start with | some (b, _) => decide (b ≤ t) | none => false)

/-! ### Yarn broadcasts (R316, R583) -/

/-- A unit joins the time virtual lane of port `p` when it is UP. -/
def State.yarnTime (s : State) (p : Nat) (u : YarnUnit) : State :=
  if s.yarnUp p then s.setYport p { s.yport p with time := (s.yport p).time ++ [u] } else s

/-- A broadcast waits for its instant, earlier ones first; one already held is the same broadcast (a ring brings two copies). -/
def State.bcastAdd (s : State) (b : AirBcast) : State :=
  if s.air.bcasts.contains b then s
  else s.setAir { s.air with
    bcasts := s.air.bcasts.filter (fun x => decide (x.at_ ≤ b.at_)) ++ [b] ++ s.air.bcasts.filter (fun x => decide (b.at_ < x.at_)) }

/-! ### Timed-output pins (R314, R319, R321) -/

/-- The AIR_IDLE level of a pin: while the schedule runs, as it was at the start (R319, R336). -/
def State.airIdle (s : State) (p : Nat) : Bool :=
  if s.airRuns then (s.pins.idle.getD (p / 32) 0).bit (p % 32) else s.bit (R.AIR_IDLE (p / 32)) (p % 32)

/-- What the schedule drives on a pin. -/
def State.airPin (s : State) (p : Nat) : AirPin :=
  match sget (fun _ => none) s.pins.air p with
  | some x => x
  | none => ⟨s.airIdle p, true⟩

/-- One PIN slot: drive 0, drive 1, toggle, release. A slot that names no timed output is counted in AIR_CNT[3]. A pin with
its toggle ordered while released drives again. -/
def State.pinSlot (s : State) (w : Word) : State :=
  if !w.bit 31 then s
  else
    let p := w.bits 7 0
    if 224 ≤ p ∨ s.pinFunc p ≠ 3 then s.bump (R.AIR_CNT 3)
    else
      let x := s.airPin p
      let y : AirPin := match w.bits 9 8 with
        | 0 => ⟨false, true⟩
        | 1 => ⟨true, true⟩
        | 2 => ⟨!x.level, true⟩
        | _ => ⟨x.level, false⟩
      { s with pins := { s.pins with air := sset (fun _ => none) s.pins.air p (some y),
                                     edge := sset (fun _ => none) s.pins.edge p (some s.stamp) } }

/-! ### Starting, swapping, stopping -/

/-- Count one entry executed. -/
def State.airDone (s : State) : State := s.bump (R.AIR_CNT 0)

/-- A pending swap is withdrawn; its command completes with BUSY (R332). -/
def State.airCancelSwap (s : State) : State :=
  match s.air.swap with
  | none => s
  | some (b, id) =>
    let s := if b ≤ s.air.base then s.airRedispatch b else s
    (((s.setAir { s.air with swap := none }).put R.AIR_STATUS F.AIR_STATUS_SWAP_PENDING 0)).completeOpt id .BUSY

/-- Densities at a swap: no window of 512 offsets across the end of the outgoing and the start of the incoming table holds
more than 512 entries (R317). -/
def densityAcross (out inn : List Nat) (pOut : Nat) : Bool :=
  let all := out ++ inn.map (pOut + ·)
  (List.range out.length).all (fun i =>
    match all[i + 512]? with
    | some y => decide (out.length ≤ i + 512 → out.getD i 0 + 512 ≤ y)
    | none => true)

/-- Offsets of a table. -/
def State.airOffsets (s : State) (t : Nat) : List Nat := (s.airEntries t (s.airCount t)).map AirEntry.offset

/-- The tables change places (R320). The outgoing one becomes READY unless it is empty. -/
def State.airExchange (s : State) : State :=
  let a := s.airActive
  let b := s.airOther
  let s := if s.airState a = 3 then s.put (R.AIR_LEN a) F.AIR_LEN_STATE 2 else s
  let s := s.put (R.AIR_LEN b) F.AIR_LEN_STATE 3
  (s.put R.AIR_STATUS F.AIR_STATUS_ACTIVE b).bump (R.AIR_CNT 7)

/-- What ordering a swap at or after air time `at_` answers, for AIR.SWAP and for a broadcast with SWAP (R316, R332): an
immediate exchange while stopped, or the pending swap. `id` is the command that waits; the schedule's actions of its instant, a boundary's too,
come before it (R318). -/
def State.airSwapOrder (s : State) (at_ : Nat) (id : Option Nat) : Except (RetCode × List Word) State :=
  if s.airState s.airOther ≠ 2 then .error (.REFUSED_IN_USE, [])
  else if !s.airLive then .ok s.airExchange
  else if s.air.swap.isSome then .error (.BUSY, [])
  else match s.walkEvery none with
    | some w => .error (.DRIVER_CONFLICT, [w])
    | none =>
      if !densityAcross (s.airOffsets s.airActive) (s.airOffsets s.airOther) (s.airPeriod s.airActive) then
        .error (.BUDGET_EXCEEDED, [])
      else
        let from_ := match s.air.start with | some (b, _) => max b at_ | none => max at_ (s.airNow + b2n id.isSome)
        let b := s.airBoundary from_
        .ok (((s.airRedispatch b).setAir { (s.airRedispatch b).air with swap := some (b, id) }).put
          R.AIR_STATUS F.AIR_STATUS_SWAP_PENDING 1)

/-- What holds once the schedule is stopped at air time `t` (R321): later actions withdrawn, mutes set, timed outputs at
AIR_IDLE, a pending swap cancelled. -/
def State.airHalt (s : State) (t : Nat) : State :=
  let s := s.airCancelSwap
  let s := s.setAir { s.air with due := [], start := none, stop := none }
  let s := (s.put R.AIR_STATUS F.AIR_STATUS_RUN 0).muteLinks 0xFFFF true t
  { s with pins := { s.pins with air := [], idle := [] } }

/-! ### Sealing -/

/-- Fields of one entry within their ranges and reserved bits 0 (check 2). -/
def AirEntry.ok (e : AirEntry) (p : Nat) : Bool :=
  let z (w : Word) (hi lo : Nat) : Bool := decide (w.bits hi lo = 0)
  let slot (w : Word) : Bool := z w 28 12
  let pin (w : Word) : Bool := z w 30 10 && (!w.bit 31 || decide (w.bits 7 0 < 224))
  !e.w0.bit 27 && decide (e.offset < p) &&
  (match e.action with
   | 0 => decide (e.w1 = 0 ∧ e.w2 = 0 ∧ e.w3 = 0)
   | 1 => true
   | 2 => z e.w2 15 12 && decide (e.w3 = 0)
   | 3 => slot e.w1 && slot e.w2 && slot e.w3
   | 4 => z e.w1 31 16 && z e.w2 31 1 && decide (e.w3 = 0)
   | 5 => pin e.w1 && pin e.w2 && pin e.w3
   | 6 => z e.w1 27 8 && z e.w2 31 22 && decide (1 ≤ e.w2.bits 21 0 ∧ e.w2.bits 21 0 ≤ 2097152 ∧ e.w3 = 0)
   | 7 => z e.w2 30 16 && decide (e.w3 = 0)
   | _ => false)

/-- Index of the first entry that fails `p`. -/
def firstBad (p : AirEntry → Bool) (l : List AirEntry) : Option Nat :=
  (l.zipIdx.find? (fun e => !p e.1)).map (·.2)

/-- The seal checks in order (Table 9-4): the first failure's code, entry index and wire identifier. -/
def State.sealFails (s : State) (x : AirSeal) : Option (RetCode × Nat × Word) :=
  let es := s.airEntries x.table x.count
  let offs := es.map AirEntry.offset
  if x.count = 0 ∨ 4096 < x.count ∨ x.period < 245760 ∨ 78643200 < x.period ∨ x.period ≤ x.phase then some (.BAD_FIELD, 0, 0)
  else match firstBad (fun e => e.ok x.period) es with
    | some i => some (.BAD_FIELD, i, 0)
    | none =>
      match (List.range (x.count - 1)).find? (fun i => decide (offs.getD (i + 1) 0 < offs.getD i 0)) with
      | some i => some (.BAD_FIELD, i + 1, 0)
      | none =>
        match (List.range x.count).find? (fun i =>
            decide (offs.getD ((i + 512) % x.count) 0 + x.period * ((i + 512) / x.count) < offs.getD i 0 + 512)) with
        | some i => some (.BUDGET_EXCEEDED, (i + 512) % x.count, 0)
        | none =>
          match firstBad (fun e => (e.action != 6 || s.policy 3) &&
              (e.action != 7 || (s.position == 0 && decide (1 < s.cascadeCount)))) es with
          | some i => some (.NOT_PERMITTED, i, 0)
          | none => (s.walkEveryAt (some (x.table, x.count))).map (fun w => (.DRIVER_CONFLICT, s.clashEntry (x.table, x.count) w.1, w.2))

/-- Start sealing a table. -/
def State.airSealStart (s : State) (x : AirSeal) : State :=
  (s.setAir { s.air with sealing := some x }).put (R.AIR_LEN x.table) F.AIR_LEN_STATE 1

/-! ### Tap buffers (R315) -/

/-- Tap `i`; none when EMPTY. -/
def State.tap (s : State) (i : Nat) : Option Tap := sget (fun _ => none) s.air.taps i

/-- Replace tap `i`; AIR_STATUS.TAPS shows whether it is EMPTY. -/
def State.setTap (s : State) (i : Nat) (t : Option Tap) : State :=
  (s.setAir { s.air with taps := sset (fun _ => none) s.air.taps i t }).setBit R.AIR_STATUS i t.isSome

/-- Store-tier byte at which tap `i` starts. -/
def tapBase (i : Nat) : Nat := 0xE0000000 + i * 0x01000000

/-- The JSD_RX endpoint `src` produces an element of air time `t`: every tap that copies from it takes the data. -/
def State.tapTake (s : State) (src t : Nat) (d : BitVec 64) : State :=
  (List.range 16).foldl (fun s i =>
    match s.tap i with
    | some x =>
      if x.source = src ∧ x.left ≠ 0 ∧ x.at_ ≤ t then
        let m := (List.range 8).foldl (fun m j =>
          sset (fun _ => (0 : Byte)) m (tapBase i + 8 * x.held + j) (BitVec.ofNat 8 (d.toNat / 2 ^ (8 * j)))) s.store
        ({ s with store := m }).setTap i
          (some { x with left := x.left - 1, held := x.held + 1, first := if x.held = 0 then t else x.first })
      else s
    | none => s) s

end Sys2Proof.Machine
end

