-- ==== Sys2Proof/Machine/WeightSets.lean ====
section
/-! DEFINITION. Elements that receive flows of the fronthaul engine send (spec/12), and the weight sets of the WEIGHTS flows with the
cut-off of their TDD group (R347, R405). -/

namespace Sys2Proof.Machine

/-- Replace the engine's hidden state. -/
def State.setFhe (s : State) (f : Fhe) : State := { s with links := { s.links with fhe := f } }

/-- A valid flow entry of this kind and MAC. -/
def State.flowOn (s : State) (e kind mac : Nat) : Bool :=
  s.flag (R.FHE_FLOW_KEY e) F.FHE_FLOW_KEY_VALID && s.get (R.FHE_FLOW_KEY e) F.FHE_FLOW_KEY_KIND == kind &&
  s.get (R.FHE_FLOW_KEY e) F.FHE_FLOW_KEY_MAC == mac

/-- Receive and transmit entries. -/
def rxEntries : List Nat := List.range 256
def txEntries : List Nat := (List.range 256).map (256 + ·)

/-- The endpoint of an entry, and the stream it belongs to. -/
def flowEp (e : Nat) : Nat := if e < 256 then 0x1000 + e else 0x2000 + (e - 256)
def State.flowStream (s : State) (e : Nat) : Option Nat := s.epStream (flowEp e)

/-- Two C16 values as an element's data, the first in [31:0]. -/
def c16Pair (a b c d : Int) : BitVec 64 :=
  BitVec.ofNat 64 (unsgn 16 d * 2 ^ 48 + unsgn 16 c * 2 ^ 32 + unsgn 16 b * 2 ^ 16 + unsgn 16 a)

/-- A receive flow offers elements to its stream in sequence. -/
def State.flowSend (s : State) (e : Nat) (els : List Elem) : State :=
  match s.flowStream e with
  | none => s
  | some n => els.foldl (fun s x => (s.strOffer n none x).2) s

/-- FIRST on the first element of a list and LAST on the last. -/
def markEnds (l : List Elem) : List Elem :=
  l.zipIdx.map (fun p => { p.1 with sb := BitVec.ofNat 8 (b2n (decide (p.2 = 0)) + 2 * b2n (decide (p.2 + 1 = l.length))) })

/-! ### TDD groups (R322, R347) -/

/-- The uplink regions of the active table's groups; none known for a table that AIR.PRESET did not build. -/
def State.tdd (s : State) : List (Nat × Nat) := sget (fun _ => []) s.air.tdd s.airActive

/-- The first boundary of the active table after air time `a`, and the offset of `a` in the period it ends. -/
def State.airAhead (s : State) (a : Nat) : Nat × Nat :=
  let p := max 1 (s.airPeriod s.airActive)
  let n := s.airBoundary (a + 1)
  (n, a + p - n)

/-- The start of the first uplink region after air time `a`: the cut-off of the weights that come then (R347). Where the table knows no
groups its period is taken for one, with the boundary for cut-off (log entry 67). -/
def State.cutAfter (s : State) (a : Nat) : Option Nat :=
  if !s.airRuns then none
  else
    let (n, o) := s.airAhead a
    match s.tdd with
    | [] => some n
    | c :: l =>
      match (c :: l).find? (fun r => decide (o < r.1)) with
      | some r => some (a + (r.1 - o))
      | none => some (n + c.1)

/-- Air time `a` lies in the uplink region of the present group: its cut-off has passed. -/
def State.inUplink (s : State) (a : Nat) : Bool :=
  s.airRuns && s.tdd.any (fun r => decide (r.1 ≤ (s.airAhead a).2 ∧ (s.airAhead a).2 < r.2))

/-! ### Weight sets -/

/-- A weight set leaves on its flow: bundles in ascending order, two C16 weights to an element (R405). -/
def State.sendSet (s : State) (e : Nat) (w : WeightSet) : State :=
  let sorted := (List.range (w.bundles.foldl (fun a b => max a (b.bundle + 1)) 0)).filterMap
    (fun b => w.bundles.find? (fun x => decide (x.bundle = b)))
  s.flowSend e (markEnds (sorted.flatMap (fun b =>
    (List.range ((b.comps.length + 3) / 4)).map (fun i =>
      ⟨c16Pair (b.comps.getD (4 * i) 0) (b.comps.getD (4 * i + 1) 0) (b.comps.getD (4 * i + 2) 0) (b.comps.getD (4 * i + 3) 0), 0⟩))))

/-- The set that receive entry `e` forms. -/
def State.wset (s : State) (e : Nat) : Option WeightSet := sget (fun _ => none) s.links.fhe.wset e
def State.setWset (s : State) (e : Nat) (w : Option WeightSet) : State :=
  s.setFhe { s.links.fhe with wset := sset (fun _ => none) s.links.fhe.wset e w }

/-- The cut-off of a set has passed. -/
def State.setDue (s : State) (w : WeightSet) : Bool := match s.cutAfter w.since with | some c => decide (c ≤ s.airNow) | none => false

/-- Every set whose cut-off has passed is formed and leaves (R347). -/
def State.setsDue (s : State) : State :=
  s.links.fhe.wset.foldl (fun v q =>
    match q.2 with
    | some w => if s.setDue w then (v.setWset q.1 none).sendSet q.1 w else v
    | none => v) s

/-- The oldest dispatched entry, if it has action `a` and its instant is not past the stop instant; it is taken from the list
and time reaches its instant, with the cut-offs up to it. -/
def State.airTake (s : State) (a : Nat) : Option (AirDue × State) :=
  match s.air.due with
  | d :: rest =>
    let stopped := match s.air.stop with | some (x, _) => decide (x < d.at_) | none => false
    if d.e.action = a ∧ s.airRuns ∧ !stopped then
      some (d, ((s.setAir { s.air with due := rest }).reach (s.stampOfAir d.at_)).setsDue.airDone)
    else none
  | [] => none

end Sys2Proof.Machine
end

