-- ==== Sys2Proof/Machine/Air.lean ====
section
/-! DEFINITION. The air schedule's rows (spec/09): dispatch and actions, start, swap and stop, presets and sealing, the AIR
commands. -/

namespace Sys2Proof.Machine

/-! ### Dispatch and actions (R310 to R318) -/

/-- The engine dispatches the next entry, no earlier than 1 024 samples before its instant (R317). -/
def execAirEntryDispatch (s : State) : Out :=
  let a := s.air
  let t := s.airTable
  let e := s.airEntry t a.next
  let at_ := a.base + e.offset
  let past : Bool := match a.stop with | some (x, _) => decide (x < at_) | none => false
  if !s.airLive ∨ past then .next s
  else
    let s := s.reach (s.stampOfAir (at_ - 1024))
    let last := decide (s.airCount t ≤ a.next + 1)
    .next (s.setAir { a with
      due := a.due ++ [⟨at_, e⟩], next := if last then 0 else a.next + 1,
      base := if last then a.base + s.airPeriod t else a.base })

/-- An entry that does nothing. -/
def execAirActionNop (s : State) : Out :=
  match s.airTake 0 with
  | none => .next s
  | some (_, s) => .next s

/-- PLANE (R311): each sheet named is ordered to switch at the entry's instant; a sheet without a clock is counted. -/
def State.airPlane (s : State) (d : AirDue) : State :=
  (List.range 32).foldl (fun s n =>
    match d.e.planeOf n with
    | some p => if s.islandRefuses (s.lead n) then s.airMissed .air else s.orderSheet n p (s.stampOfAir d.at_) .air
    | none => s) s

/-- PATTERN (R311). -/
def State.airPattern (s : State) (d : AirDue) : State :=
  let tiles := d.e.w2.bits 31 16
  ((List.range 40).filter d.e.wales.testBit).foldl (fun s w =>
    if tiles = 0 then s
    else if s.islandRefuses (32 + w) then s.airMissed .air ((List.range 16).countP tiles.testBit)
    else s.orderWale w tiles (d.e.w2.bits 11 8) (s.stampOfAir d.at_) .air) s

/-- The release of one slot (R312): units of fronthaul flows keep the air time of their release (R401). -/
def State.airSlot (s : State) (w : Word) (at_ : Nat) : State :=
  if !w.bit 31 then s
  else
    let n := w.bits 11 0
    match s.strRelease n (w.bit 30) (w.bit 29) with
    | none => s.bump (R.AIR_CNT 2)
    | some s' =>
      let ends := [s'.strProducer n, s'.strConsumer n].filter (fun ep => epKind ep = 1 ∨ epKind ep = 2)
      if w.bit 29 then s'
      else
        let start := (s.stream n).relTo
        let len := s.strUnit n
        ends.foldl (fun s ep =>
          let e := epIndex ep + (if epKind ep = 2 then 256 else 0)
          let l := (sget (fun _ => []) s.links.fhe.units e).filter (fun u => decide ((s.stream n).dpos < u.2 + len ∨ epKind ep = 2))
          { s with links := { s.links with fhe := { s.links.fhe with
              units := sset (fun _ => []) s.links.fhe.units e (l ++ [(at_, start)]) } } }) s'

/-- RELEASE (R312): its slots in word order. -/
def State.airRelease (s : State) (d : AirDue) : State := [d.e.w1, d.e.w2, d.e.w3].foldl (fun s w => s.airSlot w d.at_) s

/-- MUTE (R313). -/
def State.airMute (s : State) (d : AirDue) : State := s.muteLinks (d.e.w1.bits 15 0) (d.e.w2.bit 0) d.at_

/-- PIN (R314): its slots in word order. -/
def State.airPins (s : State) (d : AirDue) : State := [d.e.w1, d.e.w2, d.e.w3].foldl State.pinSlot s

/-- SAMPLE (R315): arm a tap that is EMPTY for an endpoint of an open stream; otherwise counted. -/
def State.airSample (s : State) (d : AirDue) : State :=
  let t := d.e.w1.bits 31 28
  let src := d.e.w1.bits 7 0
  let open_ := match s.epStream (0x3000 + src) with
    | some n => decide ((s.stream n).st = .open_)
    | none => false
  if (s.tap t).isSome || !open_ then s.bump (R.AIR_CNT 5) else s.setTap t (some ⟨src, d.at_, d.e.w2.bits 21 0, 0, 0⟩)

/-- CASCADE (R316): sent on every UP port by the master, which acts on it itself at T + LEAD like every member. -/
def State.airCascade (s : State) (d : AirDue) : State :=
  if s.position ≠ 0 ∨ s.cascadeCount < 2 then s
  else
    let at_ := d.at_ + d.e.w2.bits 15 0
    let u : YarnUnit := .bcast d.e.w1 (d.e.w2.bit 31) at_
    let s := (s.yarnTime 0 u).yarnTime 1 u
    (s.bcastAdd ⟨at_, d.e.w1, d.e.w2.bit 31⟩).bump (R.AIR_CNT 6)

/-- An entry takes effect. -/
def State.airAct (s : State) (d : AirDue) : State :=
  match d.e.action with
  | 1 => s.airPlane d
  | 2 => s.airPattern d
  | 3 => s.airRelease d
  | 4 => s.airMute d
  | 5 => s.airPins d
  | 6 => s.airSample d
  | 7 => s.airCascade d
  | _ => s

def execAirActionPlane (s : State) : Out := match s.airTake 1 with | none => .next s | some (d, s) => .next (s.airPlane d)
def execAirActionPattern (s : State) : Out := match s.airTake 2 with | none => .next s | some (d, s) => .next (s.airPattern d)

/-- RELEASE: every release entry of the instant, so that their seams stand as one group (R291). -/
def execAirActionRelease (s : State) : Out :=
  match s.airTake 3 with
  | none => .next s
  | some (d, s) =>
    let same := fun (x : AirDue) => decide (x.e.action = 3 ∧ x.at_ = d.at_)
    let more := s.air.due.filter same
    let s := s.setAir { s.air with due := s.air.due.filter (fun x => !same x) }
    .next (more.foldl (fun s x => s.airDone.airRelease x) (s.airRelease d))

def execAirActionMute (s : State) : Out := match s.airTake 4 with | none => .next s | some (d, s) => .next (s.airMute d)
def execAirActionPin (s : State) : Out := match s.airTake 5 with | none => .next s | some (d, s) => .next (s.airPins d)
def execAirActionSample (s : State) : Out := match s.airTake 6 with | none => .next s | some (d, s) => .next (s.airSample d)
def execAirActionCascade (s : State) : Out := match s.airTake 7 with | none => .next s | some (d, s) => .next (s.airCascade d)

/-- Every entry dispatched whose instant has come takes effect: before a command of the same instant (R291, R318). -/
def State.airActDue (s : State) : State :=
  if !s.airRuns then s
  else
    let here := fun (d : AirDue) => decide (d.at_ ≤ s.airNow)
    let due := (s.air.due.takeWhile here).filter (fun d => match s.air.stop with | some (x, _) => decide (d.at_ ≤ x) | none => true)
    due.foldl (fun s d => s.airDone.airAct d) (s.setsDue.setAir { s.setsDue.air with due := s.air.due.dropWhile here })

/-- A broadcast takes effect (R316): VALUE to AIR_BCAST, and the swap it asks for. -/
def execAirBcastAct (s : State) : Out :=
  match s.air.bcasts with
  | [] => .next s
  | b :: rest =>
    let s := ((s.setAir { s.air with bcasts := rest }).reach (s.stampOfAir b.at_)).wr R.AIR_BCAST b.value
    if b.swap then
      match s.airSwapOrder b.at_ none with
      | .ok s' => .next s'
      | .error _ => .next s
    else .next s

/-! ### Start, swap, stop (R319 to R321) -/

/-- The schedule stops now, for QUIET, HALTED and TRIPPED (R321): what its entries order for now or before takes effect. An AIR.DISABLE that
waits has its stop; an AIR.ENABLE whose start is withdrawn completes with NOT_PERMITTED. -/
def State.airStopNow (s : State) : State :=
  let st := s.air.start
  let sp := s.air.stop
  let s := if s.airRuns then (s.airFuture s.airNow).foldl (fun s e => s.airDone.airAct ⟨e.1, e.2⟩) s else s
  let s := s.airHalt s.airNow
  let s := match st with | some (_, id) => s.complete id .NOT_PERMITTED | none => s
  match sp with | some (_, some id) => s.complete id .DONE | _ => s

/-- The starting boundary: the schedule runs, the state is ON-AIR, the pins hold their AIR_IDLE levels; with the time-error budget lost meanwhile
the start is refused (R102). -/
def execAirScheduleStart (s : State) : Out :=
  match s.air.start with
  | none => .next s
  | some (b, id) =>
    let s := (s.setAir { s.air with start := none }).reach (s.stampOfAir b)
    if !s.merGood then .next ((s.setAir { s.air with due := [] }).complete id .BUDGET_EXCEEDED)
    else
      let s := { s with pins := { s.pins with idle := (List.range 7).map (fun k => s.rd (R.AIR_IDLE k)) } }
      .next (((s.put R.AIR_STATUS F.AIR_STATUS_RUN 1).enter .onAir).complete id .DONE)

/-- The boundary of a pending swap, once every entry before it has acted (R320). -/
def execAirSwapBoundary (s : State) : Out :=
  match s.air.swap with
  | none => .next s
  | some (b, id) =>
    let stopped : Bool := match s.air.stop with | some (x, _) => decide (x ≤ b) | none => false
    if !s.airRuns ∨ stopped ∨ s.air.base < b ∨ s.air.due.any (fun d => decide (d.at_ < b)) then .next s
    else
      let s := (s.reach (s.stampOfAir b)).airExchange
      let t := s.airActive
      let s := s.put (R.AIR_PHASE t) F.AIR_PHASE_PHASE (b % max 1 (s.airPeriod t))
      .next (((s.setAir { s.air with swap := none }).put R.AIR_STATUS F.AIR_STATUS_SWAP_PENDING 0).completeOpt id .DONE)

/-- T_stop of AIR.DISABLE, once every entry at or before it has acted (R321, R331). -/
def execAirStop (s : State) : Out :=
  match s.air.stop with
  | none => .next s
  | some (t, id) =>
    if !(s.airFuture t).isEmpty then .next s
    else
      let s := (s.reach (s.stampOfAir t)).airHalt t
      let s := if s.sys.dev = .onAir then s.enter .charted else s
      .next (s.completeOpt id .DONE)

/-! ### Register reads with a latch -/

/-- Air time of the pending swap; 0 when none. -/
def State.airSwapAt (s : State) : Nat := match s.air.swap with | some (b, _) => b | none => 0

/-! ### Commands (R327 to R338) -/

/-- AIR.STATUS (R328). -/
def execAirStatus (mb : Nat) (s : State) : Out := .next <| runCommand spec_AIR_STATUS noFields
  (fun _ s => .ok s [s.rd R.AIR_STATUS, loWord s.airNow, hiWord s.airNow, s.rd (R.AIR_LEN 0), s.rd (R.AIR_LEN 1),
    loWord s.airSwapAt, hiWord s.airSwapAt]) mb s

/-- S(n) of R322. -/
def symStart (mu n : Nat) : Nat := n * 35072 / 2 ^ mu + 256 * ((n + 7 * 2 ^ mu - 1) / (7 * 2 ^ mu))

/-- What AIR.PRESET asks for. -/
structure Preset where
  d : Nat
  mu : Nat
  splitD : Nat
  splitG : Nat
  adv : Nat
  sheets : Nat
  tiles : Nat
  ulPat : Nat
  dlPat : Nat
  ulPlane : Nat
  dlPlane : Nat
  wales : Nat
  links : Nat
  dl : Nat × Nat
  ul : Nat × Nat
  tr : Nat
  lna : Nat
  pa : Nat
  lead : Nat
  deriving DecidableEq, Repr

/-- The preset a message describes. -/
def presetOf (c : Cmd) : Preset :=
  { d := 3 - c.n 2 31 30, mu := c.n 2 29 28, splitD := c.n 2 27 24, splitG := c.n 2 23 20, adv := c.n 2 15 0,
    sheets := (c.w 3).toNat, tiles := c.n 4 31 16, ulPat := c.n 4 15 12, dlPat := c.n 4 11 8, ulPlane := c.n 4 3 2,
    dlPlane := c.n 4 1 0, wales := (c.w 5).toNat + c.n 6 7 0 * 2 ^ 32, links := c.n 6 31 16,
    dl := (c.n 7 27 16, c.n 7 4 0), ul := (c.n 8 27 16, c.n 8 4 0), tr := c.n 9 23 16, lna := c.n 9 15 8, pa := c.n 9 7 0,
    lead := c.n 10 15 0 }

/-- The first guard, first uplink and end symbol of group `g`. -/
def Preset.nD (x : Preset) (g : Nat) : Nat := 70 * g + 14 * x.d + x.splitD
def Preset.nU (x : Preset) (g : Nat) : Nat := x.nD g + x.splitG
def Preset.nE (g : Nat) : Nat := 70 * g + 70

/-- The uplink regions of the groups, as offsets of their start and end. -/
def Preset.regions (x : Preset) : List (Nat × Nat) :=
  (List.range (2 ^ (x.mu - 1))).map (fun g => (symStart x.mu (x.nU g), symStart x.mu (Preset.nE g)))

/-- Offset `o - k` within the period of 1 228 800 samples. -/
def presetOff (o k : Nat) : Nat := (o + 1228800 - k % 1228800) % 1228800

/-- An entry from its action, offset and words. -/
def airEntryOf (a o w1 w2 w3 : Nat) : AirEntry := ⟨word (a * 2 ^ 28 + o % 2 ^ 27), word w1, word w2, word w3⟩

/-- PLANE and PATTERN entries of rows 1 and 7; empty target sets are left out. -/
def Preset.switch (x : Preset) (o plane pat : Nat) : List AirEntry :=
  let pl (lo : Nat) : Nat := (List.range 16).foldl (fun a i => a + (if x.sheets.testBit (lo + i) then plane * 4 ^ i else 0)) 0
  (if x.sheets = 0 then [] else [airEntryOf 1 o x.sheets (pl 0) (pl 16)]) ++
  (if x.wales = 0 ∨ x.tiles = 0 then [] else
    [airEntryOf 2 o (x.wales % 2 ^ 32) (x.tiles * 2 ^ 16 + pat * 2 ^ 8 + x.wales / 2 ^ 32) 0])

/-- A PIN entry; pins that are 0xFF leave their slots empty. -/
def presetPins (o : Nat) (l : List (Nat × Nat)) : List AirEntry :=
  let w (i : Nat) : Nat := match l[i]? with
    | some (p, v) => if p = 0xFF then 0 else 2 ^ 31 + v * 2 ^ 8 + p
    | none => 0
  if l.all (fun p => decide (p.1 = 0xFF)) then [] else [airEntryOf 5 o (w 0) (w 1) (w 2)]

/-- RELEASE entries of one symbol: COUNT streams from FIRST, three to an entry. -/
def presetRelease (o : Nat) (r : Nat × Nat) (seam : Bool) : List AirEntry :=
  let w (i : Nat) : Nat := if i < r.2 then 2 ^ 31 + b2n seam * 2 ^ 30 + (r.1 + i) else 0
  (List.range ((r.2 + 2) / 3)).map (fun j => airEntryOf 3 o (w (3 * j)) (w (3 * j + 1)) (w (3 * j + 2)))

/-- The entries of row `r` of Table 9-3 for group `g`. -/
def Preset.row (x : Preset) (r g : Nat) : List AirEntry :=
  let sym (n : Nat) : Nat := symStart x.mu n
  let n0 := 70 * g
  let nD := x.nD g
  let nU := x.nU g
  let mute (o m : Nat) : List AirEntry := if x.links = 0 then [] else [airEntryOf 4 o x.links m 0]
  match r with
  | 1 => x.switch (presetOff (sym n0) x.adv) x.dlPlane x.dlPat
  | 2 => presetPins (presetOff (sym n0) x.lead) [(x.lna, 0), (x.pa, 1), (x.tr, 1)]
  | 3 => mute (presetOff (sym n0) 0) 0
  | 4 => (List.range (nD - n0)).flatMap (fun i => presetRelease (presetOff (sym (n0 + i)) x.adv) x.dl (decide (i = 0)))
  | 5 => mute (presetOff (sym nD) 0) 1 ++ presetPins (presetOff (sym nD) 0) [(x.pa, 0), (x.tr, 0)]
  | 6 => presetPins (presetOff (sym nU) x.lead) [(x.lna, 1)]
  | 7 => x.switch (presetOff (sym nU) 0) x.ulPlane x.ulPat
  | _ => (List.range (Preset.nE g - nU)).flatMap (fun i => presetRelease ((sym (nU + i + 1) + x.adv) % 1228800) x.ul (decide (i = 0)))

/-- Insert an entry after those of equal or smaller offset. -/
def insertEntry (e : AirEntry) : List AirEntry → List AirEntry
  | [] => [e]
  | f :: l => if f.offset ≤ e.offset then f :: insertEntry e l else e :: f :: l

/-- The table of a preset: every group's entries sorted by offset, those of equal offset in the row order of Table 9-3 (R323). -/
def Preset.entries (x : Preset) : List AirEntry :=
  ([1, 2, 3, 4, 5, 6, 7, 8].flatMap (fun r => (List.range (2 ^ (x.mu - 1))).flatMap (x.row r))).foldl (fun l e => insertEntry e l) []

/-- What AIR.PRESET refuses (R324) and undefined field values (R329). -/
def presetBad (c : Cmd) : Bool :=
  let x := presetOf c
  let pin (p : Nat) : Bool := decide (224 ≤ p ∧ p ≠ 0xFF)
  decide (c.n 2 31 30 = 3) || decide (x.mu = 0) || decide (x.splitD + x.splitG + c.n 2 19 16 ≠ 14) || decide (x.splitG = 0) ||
  decide (16 < x.dl.2) || decide (16 < x.ul.2) || decide (4096 < x.dl.1 + x.dl.2) || decide (4096 < x.ul.1 + x.ul.2) ||
  pin x.tr || pin x.lna || pin x.pa ||
  (List.range (2 ^ (x.mu - 1))).any (fun g =>
    decide (symStart x.mu (x.nU g) < symStart x.mu (x.nD g) + x.lead) ||
    decide (symStart x.mu (Preset.nE g) ≤ symStart x.mu (x.nU g) + x.adv))

/-- AIR.PRESET (R322 to R324, R329). -/
def execAirPreset (mb : Nat) (s : State) : Out := .next <| runCommand spec_AIR_PRESET (fun c _ => badIf (presetBad c))
  (fun c s =>
    if s.air.swap.isSome then .code .REFUSED_IN_USE s
    else if s.air.sealing.isSome then .code .BUSY s
    else
      let x := presetOf c
      let t := s.airOther
      let es := x.entries
      let s := (es.zipIdx).foldl (fun s e => s.setAirEntry t e.2 e.1) s
      let s := s.setAir { s.air with tdd := sset (fun _ => []) s.air.tdd t x.regions }
      let s := [x.pa, x.lna, x.tr].foldl (fun s p => if p = 0xFF then s else s.setBit (R.AIR_IDLE (p / 32)) (p % 32) false) s
      .acc (s.airSealStart ⟨t, es.length, 1228800, c.n 11 26 0, c.id⟩) []) mb s

/-- Sealing ends: the table is READY, or stays LOADING with the failure reported (R325, R329, R334). -/
def execTableSealComplete (s : State) : Out :=
  match s.air.sealing with
  | none => .next s
  | some x =>
    let s := s.setAir { s.air with sealing := none }
    match s.sealFails x with
    | some (rc, i, w) => .next (s.complete x.openId rc [word i, w])
    | none =>
      let s := (s.put (R.AIR_PERIOD x.table) F.AIR_PERIOD_PERIOD x.period).put (R.AIR_PHASE x.table) F.AIR_PHASE_PHASE x.phase
      let s := (s.put (R.AIR_LEN x.table) F.AIR_LEN_COUNT x.count).put (R.AIR_LEN x.table) F.AIR_LEN_STATE 2
      .next (s.complete x.openId .DONE)

/-- AIR.ENABLE (R319, R330, R102). -/
def execAirEnable (mb : Nat) (s : State) : Out := .next <| runCommand spec_AIR_ENABLE noFields
  (fun c s =>
    if s.sys.dev ≠ .charted then .code .NOT_PERMITTED s
    else if s.airState s.airActive ≠ 3 then .code .REFUSED_IN_USE s
    else if s.air.start.isSome then .code .BUSY s
    else if !s.merGood then .code .BUDGET_EXCEEDED s
    else
      let b := s.airBoundary s.airIn100
      .acc (s.setAir { s.air with start := some (b, c.id), base := b, next := 0, due := [] }) []) mb s

/-- AIR.DISABLE (R331). -/
def execAirDisable (mb : Nat) (s : State) : Out := .next <| runCommand spec_AIR_DISABLE noFields
  (fun c s =>
    if s.sys.dev ≠ .onAir then .code .NOT_PERMITTED s
    else if s.air.stop.isSome then .code .BUSY s
    else
      let t := if c.b 2 0 then s.airNow else s.airBoundary (s.airNow + 1)
      -- a swap at that boundary or later is cancelled at T_stop, and what was dispatched for it is taken back
      let s := match s.air.swap with
        | some (b, _) => if t ≤ b then s.airRedispatch b else s
        | none => s
      .acc (s.setAir { s.air with stop := some (t, some c.id), due := s.air.due.filter (fun d => decide (d.at_ ≤ t)) }) []) mb s

/-- AIR.SWAP (R320, R332). -/
def execAirSwap (mb : Nat) (s : State) : Out := .next <| runCommand spec_AIR_SWAP noFields
  (fun c s =>
    if c.b 2 0 then
      if s.air.swap.isSome then .ok s.airCancelSwap else .code .REFUSED_IN_USE s
    else
      let at_ := if c.n64 3 = 0 then s.airIn100 else c.n64 3
      match s.airSwapOrder at_ (some c.id) with
      | .error (rc, d) => .ans rc s d
      | .ok s' => if s.airLive then .acc s' [] else .ok s') mb s

/-- TABLE of a command names the active table or one with a swap pending (R327). -/
def State.airHeld (s : State) (t : Nat) : Bool := decide (t = s.airActive) || s.air.swap.isSome

/-- AIR.LOAD (R333). -/
def execAirLoad (mb : Nat) (s : State) : Out := .next <| runCommand spec_AIR_LOAD
  (fun c _ => if (c.length - 3) % 4 ≠ 0 then some .BAD_LENGTH else badIf (decide (4096 < c.n 2 11 0 + (c.length - 3) / 4)))
  (fun c s =>
    let t := c.n 2 31 31
    if s.airHeld t then .code .REFUSED_IN_USE s
    else
      let s := (List.range ((c.length - 3) / 4)).foldl (fun s i =>
        s.setAirEntry t (c.n 2 11 0 + i) ⟨c.w (3 + 4 * i), c.w (4 + 4 * i), c.w (5 + 4 * i), c.w (6 + 4 * i)⟩) s
      let s := s.setAir { s.air with tdd := sset (fun _ => []) s.air.tdd t [] }
      .ok (s.put (R.AIR_LEN t) F.AIR_LEN_STATE 1)) mb s

/-- AIR.SEAL (R334): the checks run within 10 ms. -/
def execAirSeal (mb : Nat) (s : State) : Out := .next <| runCommand spec_AIR_SEAL noFields
  (fun c s =>
    let t := c.n 2 31 31
    if s.airHeld t then .code .REFUSED_IN_USE s
    else if s.air.sealing.isSome then .code .BUSY s
    else .acc (s.airSealStart ⟨t, c.n 2 12 0, c.n 3 26 0, c.n 4 26 0, c.id⟩) []) mb s

/-- AIR.READ (R335). -/
def execAirRead (mb : Nat) (s : State) : Out := .next <| runCommand spec_AIR_READ
  (fun c _ => badIf (decide (c.n 2 19 16 = 0) || decide (4096 < c.n 2 11 0 + c.n 2 19 16)))
  (fun c s => .ok s ((List.range (c.n 2 19 16)).flatMap (fun i =>
    let e := s.airEntry (c.n 2 31 31) (c.n 2 11 0 + i)
    [e.w0, e.w1, e.w2, e.w3]))) mb s

/-- AIR.IDLE (R336). -/
def execAirIdle (mb : Nat) (s : State) : Out := .next <| runCommand spec_AIR_IDLE (fun c _ => badIf (decide (6 < c.n 2 2 0)))
  (fun c s => .ok (s.wr (R.AIR_IDLE (c.n 2 2 0)) (c.w 3))) mb s

/-- AIR.COUNTERS (R337). -/
def execAirCounters (mb : Nat) (s : State) : Out := .next <| runCommand spec_AIR_COUNTERS noFields
  (fun c s =>
    let (d, s') := s.counters ((List.range 8).map R.AIR_CNT) (c.b 2 0)
    .ok s' d) mb s

/-- AIR.TAP_READ (R338). -/
def execAirTapRead (mb : Nat) (s : State) : Out := .next <| runCommand spec_AIR_TAP_READ
  (fun c _ => badIf (decide (c.n64 3 % 4096 ≠ 0)))
  (fun c s =>
    if !s.policy 3 then .code .NOT_PERMITTED s
    else match s.tap (c.n 2 3 0) with
      | some x => if x.left = 0 then .acc s [c.n 2 3 0, c.n 2 8 8, c.n64 3] else .code .REFUSED_IN_USE s
      | none => .code .REFUSED_IN_USE s) mb s

/-- The held elements are in host memory (R338). -/
def execTapReadComplete (s : State) : Out :=
  match s.openOf 0x0B85 with
  | none => .next s
  | some o =>
    let i := o.args.getD 0 0
    match s.tap i with
    | none => .next (s.complete o.id .REFUSED_IN_USE)
    | some x =>
      let bs := (List.range (8 * x.held)).map (fun j => sget (fun _ => (0 : Byte)) s.store (tapBase i + j))
      let s := s.hostWrite (o.args.getD 2 0) bs
      let s := if o.args.getD 1 0 = 1 then s.setTap i none else s
      .next (s.complete o.id .DONE [word x.held, loWord x.first, hiWord x.first])

/-- STR.SEAM (R291, R302): after the schedule's actions of its instant. -/
def execStrSeam (mb : Nat) (s : State) : Out := .next <| runCommand spec_STR_SEAM notStreamOwner
  (fun c s =>
    let s := s.airActDue
    if (s.stream c.streamNo).st = .open_ then .ok (s.strSeam c.streamNo) else .code .REFUSED_IN_USE s) mb s

end Sys2Proof.Machine
end

