-- ==== Sys2Proof/Machine/DatumOps.lean ====
section
/-! DEFINITION. Operations of the datum island (spec/23): slots, events, energy, pulses, calibration replies, registers computed on
reading, and what Ubtor keeps of its records. -/

namespace Sys2Proof.Machine

/-- Replace the island. -/
def State.setDat (s : State) (d : Dat) : State := { s with dat := d }

/-! ### Slots (R670, R671) -/

/-- A slot's CRC verifies. -/
def slotGood (bs : List Byte) : Bool := decide (bs.length = 64) && decide (leNat (bs.drop 60) = crc32 (bs.take 60))

/-- The active slot: the highest-numbered one whose CRC verifies. -/
def activeSlot (slots : List (List Byte)) : Option Nat :=
  ((List.range slots.length).filter (fun i => slotGood (slots.getD i []))).getLast?

/-- A signed field of a slot: `w` bytes at `o`. -/
def slotField (bs : List Byte) (o w : Nat) : Int := sgn (8 * w) (leNat ((bs.drop o).take w))

/-- OFS_V, GAIN_V, OFS_I and GAIN_I of channel `c`; all 0 without an active slot. -/
def Dat.gains (d : Dat) (c : Nat) : Int × Int × Int × Int :=
  match d.active with
  | some n =>
    let b := d.slots.getD n []
    (slotField b (14 * c) 3, slotField b (14 * c + 3) 4, slotField b (14 * c + 7) 3, slotField b (14 * c + 10) 4)
  | none => (0, 0, 0, 0)

/-- KP and PULSE_MASK of the active slot. -/
def Dat.kp (d : Dat) : Nat := match d.active with | some n => leNat (((d.slots.getD n []).drop 56).take 2) | none => 0
def Dat.pulseMask (d : Dat) : Nat := match d.active with | some n => leNat (((d.slots.getD n []).drop 58).take 1) | none => 0

/-! ### Events (R675) -/

/-- Log an event; it waits to be posted. One overwritten before it was posted is not posted (R676). -/
def Dat.event (d : Dat) (kind ch data : Nat) : Dat :=
  let e : DatEvent := ⟨d.eseq, d.seconds, kind, ch, data⟩
  let log := d.log ++ [e]
  { d with log := log.drop (log.length - 1024), eseq := d.eseq + 1,
           waiting := (d.waiting ++ [e]).filter (fun x => decide (d.eseq < x.eseq + 1024)) }

/-- Words of an event (Table 23-5). -/
def DatEvent.words (e : DatEvent) : List Word := [word e.eseq, word e.time, word (e.kind * 2 ^ 24 + e.ch * 2 ^ 16), word e.data]

/-! ### Energy (R667) -/

/-- A raw code limited to full scale, and whether it is there. -/
def fullScale (x : Int) : Int × Bool :=
  let m : Int := 2 ^ 23 - 1
  (max (-m) (min m x), decide (m ≤ (x.natAbs : Int)))

/-- Key of a channel's residue and accumulator: direction 0 import, 1 export. -/
def accKey (c dir : Nat) : Nat := 2 * c + dir

/-- Energy in 2⁻⁸³ mJ joins a residue; whole millijoules pass to the accumulator, and import of a masked channel to the pulses. -/
def Dat.addEnergy (d : Dat) (c dir e : Nat) : Dat :=
  let k := accKey c dir
  let r := sget (fun _ => 0) d.residue k + e
  let whole := r / 2 ^ 83
  let d := { d with residue := sset (fun _ => 0) d.residue k (r % 2 ^ 83),
                    acc := sset (fun _ => 0) d.acc k (sget (fun _ => 0) d.acc k + whole) }
  if dir = 0 ∧ d.pulseMask.testBit c then
    let p := d.pulseAcc + whole * d.kp
    { d with pulseAcc := p % 3600000000, pulsesDue := d.pulsesDue + p / 3600000000 }
  else d

/-- One sample of channel `c`. -/
def Dat.sample (d : Dat) (c : Nat) (vRaw iRaw : Int) : Dat :=
  let (v, vs) := fullScale vRaw
  let (i, is) := fullScale iRaw
  let (ov, gv, oi, gi) := d.gains c
  let a := (v - ov) * gv
  let b := (i - oi) * gi
  let d := if 0 < a * b then d.addEnergy c 0 (a * b).toNat else if a * b < 0 then d.addEnergy c 1 (-(a * b)).toNat else d
  let s := sget (fun _ => (0, 0)) d.sums c
  let d := { d with sums := sset (fun _ => (0, 0)) d.sums c (s.1 + a, s.2 + b) }
  let d := match d.measure with
    | some m => if m.ch = c ∧ m.taken < m.n then { d with measure := some { m with taken := m.taken + 1, v := m.v + v, i := m.i + i } } else d
    | none => d
  if vs || is then
    let d := if d.run.contains c then d else d.event 0x07 c 0
    { d with run := c :: d.run.filter (· ≠ c), overs := c :: d.overs.filter (· ≠ c) }
  else { d with run := d.run.filter (· ≠ c) }

/-- The end of an island second (8 000 samples). -/
def Dat.second (d : Dat) : Dat :=
  { d with inSecond := 0, seconds := d.seconds + 1, means := d.sums, sums := [], overLast := d.overs, overs := [], recDue := true }

/-! ### Calibration port (R672) -/

/-- The answer to a frame: TYPE + 0x80, the status byte, and data, as a frame. -/
def Dat.answer (d : Dat) (type status : Nat) (data : List Byte := []) : Dat :=
  let p : List Byte := [0xDA, BitVec.ofNat 8 (type + 0x80), BitVec.ofNat 8 (1 + data.length), BitVec.ofNat 8 status] ++ data
  let k := crc16 p
  { d with reply := p ++ [BitVec.ofNat 8 (k / 256), BitVec.ofNat 8 k] }

/-- The island receives frames. -/
def Dat.listens (d : Dat) : Bool := d.powered && d.calEn

/-- The session ends as at CLOSE. -/
def Dat.close (d : Dat) : Dat :=
  if d.session then { d with session := false, staged := none, measure := none }.event 0x04 0xFF 0 else d

/-! ### Registers (R679) -/

/-- DAT_STATUS. -/
def Dat.status (d : Dat) : Word :=
  word (b2n (activeSlot d.slots).isNone * 2 ^ 31 + b2n d.calEn * 2 ^ 30 + b2n d.session * 2 ^ 29 + b2n d.onRc * 2 ^ 28 +
    b2n d.romFault * 2 ^ 27 + ((List.range 4).filter d.overLast.contains).foldl (fun a c => a + 2 ^ c) 0)

/-- DAT_SEAL. -/
def Dat.sealWord (d : Dat) : Word :=
  word ((match d.active with | some n => n | none => 15) * 16 + d.slots.length)

/-- A mean over the last second in 10⁻³ units, signed. -/
def meanMilli (x : Int) : Word := word (unsgn 32 (if x % 2 ^ 43 = 0 then x / 2 ^ 43 else Config.roundDiv x (2 ^ 43)))

/-- A register of the DAT window, the accumulators' high words for master `m`; without VDD_DATUM it reads 0. -/
def State.datReg (s : State) (m : Master) (a : Nat) : Word :=
  let d := s.dat
  if !d.powered then 0
  else if a = R.DAT_STATUS then d.status
  else if a = R.DAT_IDENT then 0x44543130
  else if a = R.DAT_DIGEST then d.digest.getD Config.datDigest
  else if a = R.DAT_SEAL then d.sealWord
  else if a = R.DAT_SECONDS then word d.seconds
  else if a = R.DAT_LOG then word d.eseq
  else if R.DAT_V 0 ≤ a ∧ a < R.DAT_I 0 then meanMilli (sget (fun _ => (0, 0)) d.means ((a - R.DAT_V 0) / 4)).1
  else if R.DAT_I 0 ≤ a then meanMilli (sget (fun _ => (0, 0)) d.means ((a - R.DAT_I 0) / 4)).2
  else if a % 8 = 0 then loWord (sget (fun _ => 0) d.acc ((a - R.DAT_ACC_LO 0 0) / 8))
  else s.latched m a

/-- A read of DAT_ACC_LO latches DAT_ACC_HI for the same master. -/
def State.datLatch (s : State) (m : Master) (c dir : Nat) : State :=
  s.setLatch m (R.DAT_ACC_HI c dir) (if s.dat.powered then hiWord (sget (fun _ => 0) s.dat.acc (accKey c dir)) else 0)

/-! ### What Ubtor keeps (R677, R680) -/

/-- The tenants in ascending TENANT_ID order. -/
def State.tenantsById (s : State) : List SvyRec :=
  s.tenants.foldl (fun l t =>
    l.takeWhile (fun u => decide (u.f 1 31 16 < t.f 1 31 16)) ++ [t] ++ l.dropWhile (fun u => decide (u.f 1 31 16 < t.f 1 31 16))) []

/-- f × V² of an island at its effective point, in kHz mV². -/
def State.switchPower (s : State) (i : Nat) : Nat :=
  let p := s.effPoint i
  s.pointKhz i p * (pointMv (if i < 32 then 0 else 1) p) ^ 2

/-- The sum over the sheets and wales of a tenant's masks. -/
def State.tenantPower (s : State) (t : SvyRec) : Nat :=
  (List.range 72).foldl (fun a i =>
    if (if i < 32 then (t.words.getD 2 0).testBit i else t.waleMask.testBit (i - 32)) then a + s.switchPower i else a) 0

/-- The second's import energy of each channel is divided among the tenants. -/
def State.splitEnergy (s : State) : State :=
  let ts := s.tenantsById
  let all := (List.range 72).foldl (fun a i => a + s.switchPower i) 0
  let weights := ts.foldl (fun a t => a + t.f 2 15 0) 0
  (List.range 4).foldl (fun s c =>
    let now := (s.dat.rec_.getD (1 + 4 * c) 0).toNat + (s.dat.rec_.getD (2 + 4 * c) 0).toNat * 2 ^ 32
    let e := now - sget (fun _ => now) s.dat.lastAcc c
    let d := { s.dat with lastAcc := sput s.dat.lastAcc c now }
    s.setDat (ts.zipIdx.foldl (fun (d : Dat) p =>
      let k := 4 * p.2 + c
      let v := sget (fun _ => 0) d.shares k + Config.energyShare e (s.tenantPower p.1) all (p.1.f 2 15 0) weights
      { d with shares := sset (fun _ => 0) d.shares k v }) d)) s

/-- Ubtor takes the record in MB28 or the event in MB29 as it acknowledges it. -/
def State.datTaken (s : State) (mb : Nat) : State :=
  let w (k : Nat) : Word := s.rd (mbWordAddr mb k)
  if mb = 28 then
    (s.setDat { s.dat with
      rec_ := (List.range 18).map (fun k => w (k + 2)),
      recSide := [R.DAT_IDENT, R.DAT_DIGEST, R.DAT_SEAL, R.DAT_LOG].map (s.datReg .ubtor) }).splitEnergy
  else if mb = 29 then
    let e : DatEvent := ⟨(w 2).toNat, (w 3).toNat, (w 4).bits 31 24, (w 4).bits 23 16, (w 5).toNat⟩
    let l := s.dat.events ++ [e]
    s.setDat { s.dat with events := l.drop (l.length - 1024) }
  else s

/-- The ESEQ after the last event Ubtor knows of. -/
def State.datNext (s : State) : Nat :=
  max (s.dat.recSide.getD 3 0).toNat (match s.dat.events.getLast? with | some e => e.eseq + 1 | none => 0)

end Sys2Proof.Machine
end

