-- ==== Sys2Proof/Machine/Datum.lean ====
section
/-! DEFINITION. The rows of the datum island and the DAT commands (spec/23). -/

namespace Sys2Proof.Machine

/-! ### Measurement -/

/-- DATUM_SAMPLE (R667): one sample of the four channels, at the slot that is active from this sample on (R673). -/
def execDatumSample (v i : List Int) (s : State) : Out :=
  if s.dat.powered then
    let d := { s.dat with active := activeSlot s.dat.slots }
    let d := (List.range 4).foldl (fun (d : Dat) c => d.sample c (v.getD c 0) (i.getD c 0)) d
    let d := { d with inSecond := d.inSecond + 1 }
    .next (s.setDat (if 8000 ≤ d.inSecond then d.second else d))
  else .next s

/-- DATUM_POWER_DOWN (R669): accumulators, residues, seconds and the log are kept; a slot being programmed fails (R673). -/
def execDatumPowerDown (s : State) : Out :=
  let d := s.dat
  if d.powered then
    let d := match d.sealing with
      | some b => { d with slots := d.slots ++ [b.take 32] }.event 0x06 0xFF (16 * d.slots.length + d.slots.length + 1)
      | none => d
    let d := d.event 0x02 0xFF 0
    let old := s.dat
    .next ((s.setDat { Dat.init with
      calEn := old.calEn, residue := d.residue, acc := d.acc, slots := d.slots, log := d.log, eseq := d.eseq, seconds := d.seconds,
      waiting := d.waiting, pulses := d.pulses, rec_ := d.rec_, recSide := d.recSide, events := d.events, shares := d.shares,
      lastAcc := d.lastAcc }))
  else .next s

/-- DATUM_POWER_UP (R669). -/
def execDatumPowerUp (s : State) : Out :=
  if s.dat.powered then .next s
  else .next (s.setDat ({ s.dat with powered := true, active := activeSlot s.dat.slots }.event 0x01 0xFF 0))

/-- DATUM_CRYSTAL_CHECK (R668): the crystal's departure from the RC oscillator in ppm; none when it has stopped. -/
def execDatumCrystalCheck (off : Option Int) (s : State) : Out :=
  let d := s.dat
  let bad := match off with | some x => decide (20000 < x.natAbs) | none => true
  if !d.powered then .next s
  else if bad then
    .next (s.setDat (if d.onRc then { d with goodSecs := 0 } else { d with onRc := true, goodSecs := 0 }.event 0x08 0xFF 0))
  else if d.onRc then
    .next (s.setDat (if 10 ≤ d.goodSecs + 1 then { d with onRc := false, goodSecs := 0 }.event 0x09 0xFF 0
      else { d with goodSecs := d.goodSecs + 1 }))
  else .next s

/-- DATUM_ROM_DIGEST_CHECK (R665): the digest recomputed over the mask ROM. -/
def execDatumRomDigestCheck (digest : Word) (s : State) : Out :=
  if !s.dat.powered then .next s
  else
    let d := { s.dat with digest := some digest }
    .next (s.setDat (if digest = Config.datDigest then d else { d with romFault := true }.event 0x0A 0xFF 0))

/-! ### Calibration (R672, R673) -/

/-- DATUM_CAL_EN rises (R96). -/
def execDatumCalEnRise (s : State) : Out := .next (s.setDat { s.dat with calEn := true })

/-- DATUM_CAL_EN falls: a session closes as at CLOSE; a SEAL in progress goes on. -/
def execDatumCalEnFall (s : State) : Out := .next (s.setDat { s.dat.close with calEn := false })

/-- An OPEN frame. -/
def execCalOpen (operator : Word) (s : State) : Out :=
  if s.dat.listens then .next (s.setDat (({ s.dat with session := true }.event 0x03 0xFF operator.toNat).answer 0x01 0))
  else .next s

/-- A MEASURE frame: a channel or a count out of range is a bad frame. -/
def execCalMeasure (ch n : Nat) (s : State) : Out :=
  let d := s.dat
  if !d.listens then .next s
  else if !d.session then .next (s.setDat (d.answer 0x02 2))
  else if 3 < ch ∨ n = 0 ∨ 2 ^ 24 < n then .next (s.setDat (d.answer 0x02 1))
  else .next (s.setDat { d with measure := some ⟨ch, n, 0, 0, 0⟩ })

/-- The mean of a measurement in 2⁻¹⁶ code. -/
def meanCode (sum : Int) (n : Nat) : List Byte :=
  let x := sum * 65536
  leBytes (unsgn 64 (if x % (n : Int) = 0 then x / (n : Int) else Config.roundDiv x n)) 8

/-- CAL_MEASURE_DONE: the N samples have been taken; the mean codes are sent. -/
def execCalMeasureDone (s : State) : Out :=
  match s.dat.measure with
  | some m =>
    if s.dat.listens ∧ m.taken = m.n then
      .next (s.setDat ({ s.dat with measure := none }.answer 0x02 0 (meanCode m.v m.n ++ meanCode m.i m.n)))
    else .next s
  | none => .next s

/-- A STAGE frame: bytes 0 to 59 of a slot. -/
def execCalStage (bs : List Byte) (s : State) : Out :=
  let d := s.dat
  if !d.listens then .next s
  else if !d.session then .next (s.setDat (d.answer 0x03 2))
  else if bs.length ≠ 60 then .next (s.setDat (d.answer 0x03 1))
  else .next (s.setDat ({ d with staged := some bs }.answer 0x03 0))

/-- A SEAL frame: programming of the lowest unprogrammed slot starts. -/
def execCalSeal (payload : List Byte) (s : State) : Out :=
  let d := s.dat
  if !d.listens then .next s
  else if payload ≠ [0x5E, 0xA1] then .next (s.setDat (d.answer 0x04 1))
  else match d.staged with
    | some b =>
      if !d.session ∨ 4 ≤ d.slots.length ∨ d.sealing.isSome ∨ !s.sys.rails.contains .vppFuse then .next (s.setDat (d.answer 0x04 2))
      else .next (s.setDat ({ d with staged := none, sealing := some (b ++ leBytes (crc32 b) 4) }.answer 0x04 0))
    | none => .next (s.setDat (d.answer 0x04 2))

/-- SEAL_PROGRAM_COMPLETE (R673): `back` is what the slot reads back. -/
def execSealProgramComplete (back : List Byte) (s : State) : Out :=
  let d := s.dat
  match d.sealing with
  | some _ =>
    let n := d.slots.length
    let d := { d with sealing := none, slots := d.slots ++ [back] }
    .next (s.setDat (d.event (if slotGood back then 0x05 else 0x06) 0xFF (16 * n + n + 1)))
  | none => .next s

/-- A CLOSE frame. -/
def execCalClose (s : State) : Out :=
  let d := s.dat
  if !d.listens then .next s
  else if !d.session then .next (s.setDat (d.answer 0x05 2))
  else .next (s.setDat (d.close.answer 0x05 0))

/-- A frame with a bad CRC or an undefined TYPE. -/
def execCalBadFrame (type : Nat) (s : State) : Out :=
  if s.dat.listens then .next (s.setDat (s.dat.answer type 1)) else .next s

/-! ### Records and pulses (R674, R676) -/

/-- DATUM_ENERGY_RECORD: the record of the second goes to MB28 if that is empty, else it is skipped. -/
def execDatumEnergyRecord (s : State) : Out :=
  let d := s.dat
  if d.powered ∧ d.recDue = true then
    let s := s.setDat { d with recDue := false }
    if s.sys.dev = .off ∨ s.full 28 = true then .next s
    else
      let acc (k : Nat) : List Word := [loWord (sget (fun _ => 0) d.acc k), hiWord (sget (fun _ => 0) d.acc k)]
      .next (s.postInto 28 ([word 0x17400014, 0, word d.seconds] ++ (List.range 8).flatMap acc ++ [d.status]))
  else .next s

/-- DATUM_EVENT_POST: the oldest waiting event goes to MB29 once that is empty. -/
def execDatumEventPost (s : State) : Out :=
  match s.dat.waiting with
  | e :: rest =>
    if !s.dat.powered ∨ s.sys.dev = .off ∨ s.full 29 = true then .next s
    else .next ((s.setDat { s.dat with waiting := rest }).postInto 29 ([word 0x17410006, 0] ++ e.words))
  | [] => .next s

/-- DATUM_PULSE: an impulse that is due is sent, at most one per 2 ms (16 samples). -/
def execDatumPulse (s : State) : Out :=
  let d := s.dat
  let now := d.seconds * 8000 + d.inSecond
  let spaced := match d.pulseAt with | some t => decide (t + 16 ≤ now) | none => true
  if d.powered && decide (0 < d.pulsesDue) && spaced then
    .next (s.setDat { d with pulsesDue := d.pulsesDue - 1, pulses := d.pulses + 1, pulseAt := some now })
  else .next s

/-! ### Commands (R680, R681) -/

/-- DAT.STATUS: OVERWRITES is what ESEQ shows of the 1 024 entries. -/
def execDatStatus (mb : Nat) (s : State) : Out := .next <| runCommand spec_DAT_STATUS noFields
  (fun _ s =>
    let r := s.dat.rec_
    let x := s.dat.recSide
    .ok s [r.getD 17 0, x.getD 0 0, x.getD 1 0, x.getD 2 0, r.getD 0 0, word ((x.getD 3 0).toNat - 1024)]) mb s

/-- DAT.ENERGY. -/
def execDatEnergy (mb : Nat) (s : State) : Out := .next <| runCommand spec_DAT_ENERGY noFields
  (fun _ s => .ok s ((List.range 17).map (fun k => s.dat.rec_.getD k 0))) mb s

/-- DAT.LOG. -/
def execDatLog (mb : Nat) (s : State) : Out := .next <| runCommand spec_DAT_LOG
  (fun c s => badIf (decide (s.datNext < (c.w 2).toNat)))
  (fun c s =>
    let f := (c.w 2).toNat
    let oldest := match s.dat.events.head? with | some e => e.eseq | none => s.datNext
    let es := (s.dat.events.filter (fun e => decide (f ≤ e.eseq))).take 15
    .ok s (word (b2n (decide (f < oldest)) * 2 ^ 31 + es.length) :: es.flatMap DatEvent.words)) mb s

/-- DAT.SPLIT. -/
def execDatSplit (mb : Nat) (s : State) : Out := .next <| runCommand spec_DAT_SPLIT
  (fun c _ => badIf (decide (c.n 2 3 0 = 0 ∨ 62 < c.n 2 21 16)))
  (fun c s =>
    let ts := s.tenantsById
    let f := c.n 2 21 16
    let n := min 19 (ts.length - f)
    .ok s (word (2 ^ 31 + f * 2 ^ 16 + ts.length * 2 ^ 8 + n) :: (List.range n).flatMap (fun j =>
      let e := (List.range 4).foldl (fun a ch => if c.b 2 ch then a + sget (fun _ => 0) s.dat.shares (4 * (f + j) + ch) else a) 0
      [word ((match ts[f + j]? with | some t => t.f 1 31 16 | none => 0)), loWord e, hiWord e]))) mb s

end Sys2Proof.Machine
end

