-- ==== Sys2Proof/Machine/FltOps.lean ====
section
/-! DEFINITION. Operations of the fault-window unit and the event log (spec/19): classes and windows, slots, records, KEEP events,
lasting outcomes, registers computed on reading. -/

namespace Sys2Proof.Machine

/-! ### Sources (Tables 19-1 and 19-2) -/

/-- Defined sources and their classes. -/
def fltClass (src : Nat) : Option Nat :=
  if [0x10, 0x20, 0x40, 0x42, 0x43, 0x44, 0x53].contains src then some 0
  else if [0x04, 0x11, 0x12, 0x21, 0x22, 0x23, 0x30, 0x31, 0x41, 0x50, 0x51].contains src then some 1
  else if [0x01, 0x02, 0x03, 0x52, 0x54].contains src then some 2
  else if src = 0x60 then some 3
  else if src = 0x61 then some 4
  else if [0x24, 0x62, 0x70, 0x71, 0x72, 0x73, 0x74].contains src then some 5
  else none

/-- Sources whose lasting outcome is only reported (Table 19-2). -/
def fltReported (src : Nat) : Bool := [0x01, 0x02, 0x04, 0x42, 0x43, 0x44, 0x51, 0x52].contains src

/-- The source is windowed: FLT_WIN.FIXED is 0. -/
def State.fltWindowed (s : State) (src : Nat) : Bool := !s.flag (R.FLT_WIN src) F.FLT_WIN_FIXED

/-- Class default of W in ns and of T, or the value Table 19-2 gives the source. -/
def fltDefault (src : Nat) : Nat × Nat :=
  if src = 0x53 then (1000000000, 16)
  else match fltClass src with
    | some 0 => (3600000000000, 64)
    | some 1 => (600000000000, 4)
    | _ => (86400000000000, 3)

/-- W of a source in ns. -/
def State.fltW (s : State) (src : Nat) : Nat :=
  let w := s.get (R.FLT_WIN src) F.FLT_WIN_W
  if w = 0 then (fltDefault src).1
  else w * (match s.get (R.FLT_WIN src) F.FLT_WIN_UNIT with | 0 => 1000000 | 1 => 1000000000 | 2 => 60000000000 | _ => 3600000000000)

/-- T of a source. -/
def State.fltT (s : State) (src : Nat) : Nat :=
  let t := s.get (R.FLT_WIN src) F.FLT_WIN_T
  if t = 0 then (fltDefault src).2 else t

/-! ### Slots (R598, R600) -/

/-- A slot's key has been quiet for W, and is not LASTING: it is free. -/
def State.slotOver (s : State) (x : Slot) : Bool := !x.lasting && decide (x.latest + s.fltW x.src ≤ s.stamp)

/-- Slot `i` as it stands now. -/
def State.slot (s : State) (i : Nat) : Option Slot :=
  match sget (fun _ => none) s.flt.slots i with
  | some x => if s.slotOver x then none else some x
  | none => none

/-- Replace slot `i`. -/
def State.setSlot (s : State) (i : Nat) (x : Option Slot) : State :=
  { s with flt := { s.flt with slots := sset (fun _ => none) s.flt.slots i x } }

/-- The slot that holds a key. -/
def State.slotOf (s : State) (src inst : Nat) : Option Nat :=
  (List.range 128).find? (fun i => match s.slot i with | some x => decide (x.src = src ∧ x.inst = inst) | none => false)

/-- The slot not marked LASTING whose latest event is oldest, ties to the lowest index. -/
def State.oldestSlot (s : State) : Option Nat :=
  ((List.range 128).foldl (fun (b : Option (Nat × Nat)) i =>
    match s.slot i with
    | some x => if x.lasting then b
      else match b with
        | some (t, _) => if x.latest < t then some (x.latest, i) else b
        | none => some (x.latest, i)
    | none => b) none).map (·.2)

/-- The slot an event of the key takes: its own, the lowest free one, or an evicted one; none when every slot is LASTING. The flag tells
that FLT_COUNT[2] advances. -/
def State.slotFor (s : State) (src inst : Nat) : Option Nat × Bool :=
  match s.slotOf src inst with
  | some i => (some i, false)
  | none =>
    match (List.range 128).find? (fun i => (s.slot i).isNone) with
    | some i => (some i, false)
    | none => (s.oldestSlot, true)

/-- A slot's windows after one more event at stamp `t` with window length `w`. -/
def Slot.count (x : Slot) (t w : Nat) : Slot :=
  let a := t / w
  let b := (t + w / 2) / w
  { x with winA := a, cntA := if x.winA = a then satNat 16 (x.cntA + 1) else 1,
           winB := b, cntB := if x.winB = b then satNat 16 (x.cntB + 1) else 1, latest := t }

/-- The key of an event in slot `i`, new when the slot did not hold it. -/
def State.slotHeld (s : State) (i src inst : Nat) : Slot :=
  match s.slot i with
  | some x => if x.src = src ∧ x.inst = inst then x else ⟨src, inst, 0, 0, 0, 0, false, s.stamp⟩
  | none => ⟨src, inst, 0, 0, 0, 0, false, s.stamp⟩

/-! ### The event log (R610) -/

/-- Append a record: LASTING bit 20, NO_SPARE 19, UNSLOTTED 18, OUTCOME_END 17 in `flags`. -/
def State.logEvent (s : State) (src inst flags : Nat) (detail : List Word) : State :=
  let d (i : Nat) : Word := detail.getD i 0
  let r : List Word := [word s.flt.seq, loWord s.stamp, hiWord s.stamp,
    word (src * 2 ^ 24 + (fltClass src).getD 5 * 2 ^ 21 + flags * 2 ^ 17 + inst % 65536), d 0, d 1, d 2, d 3]
  let l := s.flt.log ++ [r]
  let s := if 1024 < l.length then s.bump (R.FLT_COUNT 3) else s
  { s with flt := { s.flt with log := l.drop (l.length - 1024), seq := s.flt.seq + 1 } }.msix 33

/-- A KEEP event of case `k`, kept and broken rank, for its causing source, at most once a second (R609). -/
def State.keepEvent (s : State) (k : Nat × Nat × Nat) (src inst : Nat) : State :=
  let x : KeepKey := ⟨k.1, k.2.2, inst, s.stamp / 1000000000⟩
  if s.flt.kept.contains x then s.bump (R.FLT_COUNT 4)
  else
    let s := { s with flt := { s.flt with kept := (s.flt.kept.filter (fun (y : KeepKey) => decide (y.second = x.second))) ++ [x] } }
    s.logEvent 0x74 k.1 0 [word (k.2.1 * 16 + k.2.2), word src, word inst]

/-! ### Lasting outcomes (Table 19-2) -/

/-- The links on a stream's route. -/
def State.streamLinks (s : State) (n : Nat) : List Nat :=
  let a := s.epNi (s.strProducer n)
  let b := s.epNi (s.strConsumer n)
  routeLinks a (s.routeOf a b).1

/-- The physical position of logical tile `t` (R162), and its TILE target. -/
def State.tileTarget (s : State) (t : Nat) : Nat :=
  let q := t % 16
  32 * (t / 16) + q + b2n (decide (s.get (R.WAL_SHIFT (t / 16)) F.WAL_SHIFT_SHIFT_AT ≤ q))

/-- Start the lasting outcome of a key. A TILE swatch in the tile's wale is abandoned (R624). -/
def State.startOutcome (s : State) (src inst : Nat) : State :=
  let key := (src, inst)
  match src with
  | 0x03 => s.swtLasting 8 inst key
  | 0x10 => (s.swtAbandon (fun q => decide (q.kind = 1 ∧ q.target / 32 = inst / 16))).swtLasting 1 (s.tileTarget inst) key
  | 0x11 =>
    let s := s.swtAbandon (fun q => decide (q.kind = 1 ∧ q.target / 32 = inst / 16))
    { s with swt := { s.swt with retire := s.swt.retire ++ [⟨inst / 16, inst % 16, [key]⟩] } }
  | 0x20 => s.swtLasting 4 inst key
  | 0x21 => s.swtLasting 4 inst key
  | 0x31 =>
    let ls := s.streamLinks inst
    if ls.isEmpty then s.outcomeEnd [key] false false else ls.foldl (fun s l => s.swtLasting 6 l key) s
  | 0x40 => (List.range 16).foldl (fun s c => s.swtLasting 5 (16 * inst + c) key) s
  | 0x41 => (List.range 16).foldl (fun s c => s.swtLasting 5 (16 * inst + c) key) s
  | 0x50 => s.swtLasting 7 inst key
  | _ => s.swtLasting 6 inst key

/-- Count a windowed event: its slot, whether it promotes its key, and whether it has no slot (R600, R601). -/
def State.windowEvent (s : State) (src inst : Nat) : Bool × Bool × State :=
  let (i, evict) := s.slotFor src inst
  let s := if evict then s.bump (R.FLT_COUNT 2) else s
  match i with
  | none => (false, true, s)
  | some i =>
    let x := (s.slotHeld i src inst).count s.stamp (s.fltW src)
    let promote := !x.lasting && (decide (s.fltT src ≤ x.cntA) || decide (s.fltT src ≤ x.cntB))
    let s := s.setSlot i (some { x with lasting := x.lasting || promote })
    if !promote then (false, false, s)
    else
      let s := (s.bump (R.FLT_COUNT 1)).gazInc (56 + (fltClass src).getD 0)
      (true, false, if fltReported src then s.setSlot i none else s)

/-- The unit takes an event: counted, windowed, recorded, its KEEP events recorded after it, its outcome started (R595 to R610). -/
def State.takeEvent (s : State) (r : Report) : State :=
  let keeps (s : State) (src inst : Nat) : State := r.keeps.foldl (fun s k => s.keepEvent k src inst) s
  if r.src = 0x74 then keeps s 0x52 r.inst
  else
    let s := s.bump (R.FLT_COUNT 0)
    if s.fltWindowed r.src then
      let (promoted, loose, s) := s.windowEvent r.src r.inst
      let ends := promoted && fltReported r.src
      let s := s.logEvent r.src r.inst (b2n promoted * 8 + b2n loose * 2 + b2n ends) r.detail
      let s := keeps s r.src r.inst
      if !promoted then s
      else
        let s := s.journal 0x07 r.src r.inst (r.detail.getD 0 0) 0
        if ends then s else s.startOutcome r.src r.inst
    else keeps (s.logEvent r.src r.inst 0 r.detail) r.src r.inst

/-! ### Registers computed on reading -/

/-- FLT_STATUS. -/
def State.fltStatus (s : State) : Word :=
  let live := (List.range 128).filterMap s.slot
  word (live.length * 2 ^ 24 + (live.filter Slot.lasting).length * 2 ^ 16 + s.flt.log.length)

/-- FLT_OLDEST. -/
def State.fltOldest (s : State) : Nat := s.flt.seq - s.flt.log.length

/-- FLT_SLOT_KEY and FLT_SLOT_CNT; a window that has passed counts 0. -/
def State.slotKey (s : State) (i : Nat) : Word :=
  match s.slot i with
  | some x => word (2 ^ 31 + b2n x.lasting * 2 ^ 30 + x.src * 2 ^ 16 + x.inst)
  | none => 0
def State.slotCnt (s : State) (i : Nat) : Word :=
  match s.slot i with
  | some x =>
    let w := s.fltW x.src
    word ((if x.winB = (s.stamp + w / 2) / w then x.cntB else 0) * 2 ^ 16 + (if x.winA = s.stamp / w then x.cntA else 0))
  | none => 0

end Sys2Proof.Machine
end

