-- ==== Sys2Proof/Machine/Faults.lean ====
section
/-! DEFINITION. The fault-window unit's events and the FLT commands (spec/19). -/

namespace Sys2Proof.Machine

/-- FAULT_EVENT (R595, R599): the arbiter takes a report of source `src` and instance `inst`: the first one waiting, with its own detail,
or one that now arrives with the detail given. -/
def execFaultEvent (src inst : Nat) (detail : List Word) (s : State) : Out := s.duty 3 <|
  if (fltClass src).isNone ∨ 65536 ≤ inst ∨ s.sys.dev = .off then .next s
  else
    match s.flt.waiting.find? (fun r => decide (r.src = src ∧ r.inst = inst)) with
    | some r => .next ({ s with flt := { s.flt with waiting := s.flt.waiting.erase r } }.takeEvent r)
    | none => .next (s.takeEvent ⟨src, inst, detail, []⟩)

/-- WINDOW_SLOT_EXPIRY (R600): W has passed since the latest event of slot `i`. -/
def execWindowSlotExpiry (i : Nat) (s : State) : Out := s.duty 3 <|
  match sget (fun _ => none) s.flt.slots i with
  | some x => if x.lasting then .next s else .next ((s.reach (x.latest + s.fltW x.src)).setSlot i none)
  | none => .next s

/-- LASTING_OUTCOME_END (R601): the record of the end; the slot is freed unless no spare was left. -/
def execLastingOutcomeEnd (s : State) : Out := s.duty 3 <|
  match s.flt.ended with
  | [] => .next s
  | e :: rest =>
    let s := { s with flt := { s.flt with ended := rest } }
    let s := s.logEvent e.src e.inst (b2n e.noSpare * 4 + 1) []
    let s := if e.marked then s.keepEvent (9, 5, 7) e.src e.inst else s
    .next (match s.slotOf e.src e.inst with
      | some i => if e.noSpare then s else s.setSlot i none
      | none => s)

/-- FLT.STATUS (R613). -/
def execFltStatus (mb : Nat) (s : State) : Out := .next <| runCommand spec_FLT_STATUS noFields
  (fun _ s => .ok s [s.fltStatus, word s.flt.seq, word s.fltOldest]) mb s

/-- FLT.EVENTS (R614). -/
def execFltEvents (mb : Nat) (s : State) : Out := .next <| runCommand spec_FLT_EVENTS
  (fun c s => badIf (decide (s.flt.seq < (c.w 2).toNat)))
  (fun c s =>
    let f := (c.w 2).toNat
    let l := (s.flt.log.drop (f - s.fltOldest)).take 7
    .ok s (word (b2n (decide (f < s.fltOldest)) * 2 ^ 31 + l.length) :: l.flatten)) mb s

/-- FLT.WINDOW (R615): the counts of every key of the source are cleared (R599). -/
def execFltWindow (mb : Nat) (s : State) : Out := .next <| runCommand spec_FLT_WINDOW
  (fun c _ => badIf (fltClass (c.n 2 7 0)).isNone)
  (fun c s =>
    let src := c.n 2 7 0
    if !s.fltWindowed src then .code .NOT_PERMITTED s
    else
      let s := s.wr (R.FLT_WIN src) (F.FLT_WIN_FIXED.put (c.w 3) 0)
      .ok ((List.range 128).foldl (fun s i =>
        match sget (fun _ => none) s.flt.slots i with
        | some x => if x.src = src then s.setSlot i (some { x with cntA := 0, cntB := 0 }) else s
        | none => s) s)) mb s

/-- FLT.SLOTS (R616). -/
def execFltSlots (mb : Nat) (s : State) : Out := .next <| runCommand spec_FLT_SLOTS
  (fun c _ =>
    let n := c.n 2 14 8
    badIf (decide (n = 0 ∨ 30 < n ∨ 128 < c.n 2 6 0 + n)))
  (fun c s => .ok s ((List.range (c.n 2 14 8)).flatMap (fun j => [s.slotKey (c.n 2 6 0 + j), s.slotCnt (c.n 2 6 0 + j)]))) mb s

/-- FLT.COUNTERS (R617). -/
def execFltCounters (mb : Nat) (s : State) : Out := .next <| runCommand spec_FLT_COUNTERS noFields
  (fun c s =>
    let r := s.counters ((List.range 5).map R.FLT_COUNT) (c.b 2 0)
    .ok r.2 r.1) mb s

end Sys2Proof.Machine
end

