-- ==== Sys2Proof/Machine/YarnOps.lean ====
section
/-! DEFINITION. Operations of the yarn ports (spec/18): channels, filling and acknowledging codewords, training, leaving UP. -/

namespace Sys2Proof.Machine

/-- The cascade as the committed survey gives it (R570, fields marked S of Table 18-7). -/
def State.yarnCommit (s : State) : State :=
  if (s.recsOf 8).isEmpty then s
  else
    let k := s.position
    let s := s.wr R.YRN_STATUS (word (b2n (decide (k = 0)) * 2 ^ 31 + k * 2 ^ 28 + s.cascadeCount * 2 ^ 24 + s.topology * 2 ^ 22 +
      s.cascadeMode * 2 ^ 20 + (if k = 0 then 0 else 2 ^ k)))
    [0, 1].foldl (fun s p =>
      (s.put (R.YRN_PORT p) F.YRN_PORT_PEER (if p = 0 then s.cascadeF 2 15 12 15 else s.cascadeF 2 11 8 15)).put
        (R.YRN_PORT p) F.YRN_PORT_WIDTH8 (s.cascadeF 2 p p 0)) s

/-- A device of a cascade, not a single one (R570). -/
def State.cascaded (s : State) : Bool := !(s.recsOf 8).isEmpty && decide (s.topology ≠ 0)

/-- The lanes of port `p`, in order of logical lane. -/
def State.yarnLanes (s : State) (p : Nat) : List Nat := s.groupLanes 3 p

/-- Logical lane of lane `n` in port `p`. -/
def State.yarnLaneNo (s : State) (p n : Nat) : Nat := ((s.yarnLanes p).filter (· < n)).length

/-- Channel `c` of port `p` is a valid receive (`false`) or transmit (`true`) channel (R576). -/
def State.yarnChan (s : State) (p c : Nat) (tx : Bool) : Bool :=
  s.flag (R.YRN_CHAN (64 * p + c)) F.YRN_CHAN_VALID && (s.flag (R.YRN_CHAN (64 * p + c)) F.YRN_CHAN_DIR == tx)

/-- The stream bound to a channel. -/
def State.yarnStream (s : State) (p c : Nat) : Option Nat := s.epStream (0x7000 + 64 * p + c)

/-- Elements held by receive channel `c`. -/
def YPort.held (y : YPort) (c : Nat) : List Elem := sget (fun _ => []) y.rxBuf c

/-- Credit of transmit channel `c`: 128 once the port is UP (Table 18-2). -/
def YPort.creditOf (y : YPort) (c : Nat) : Nat := sget (fun _ => 128) y.credit c

/-- Receive channel `c` passes what it holds to its stream as that takes it; each place freed is owed to the partner. -/
def State.yarnPass (s : State) (p c : Nat) : State :=
  match s.yarnStream p c with
  | none => s
  | some n =>
    (List.range ((s.yport p).held c).length).foldl (fun s _ =>
      let y := s.yport p
      match y.held c with
      | [] => s
      | e :: rest =>
        let (took, s) := s.strGive n e
        if took then
          s.setYport p { y with
            rxBuf := sset (fun _ => []) y.rxBuf c rest,
            owed := if e.isGap && decide (e.count = 0) then y.owed else sset (fun _ => 0) y.owed c (sget (fun _ => 0) y.owed c + 1) }
        else s) s

/-- Every receive channel of port `p` passes what it can. -/
def State.yarnPassAll (s : State) (p : Nat) : State :=
  ((s.yport p).rxBuf.map (·.1)).foldl (fun s c => s.yarnPass p c) s

/-! ### Sending (R575, R578) -/

/-- Transmit channel `c` discards up to and including its next seam, after its port has been down (R587); they count in STR_COUNT[7], and the seam is sent
first. -/
def State.yarnDiscard (s : State) (p c : Nat) : State :=
  match s.yarnStream p c with
  | none => s
  | some n =>
    let before := (s.stream n).inbox.takeWhile (fun e => !e.isSeam)
    let s := before.foldl (fun s _ => (s.strTake n).2) s
    let seam := !(s.stream n).inbox.isEmpty
    let k := before.length + (if seam then 1 else 0)
    let s := if k = 0 then s else s.strCount n 7 k
    if !seam then s
    else
      let y := s.yport p
      s.setYport p { y with discard := sset (fun _ => false) y.discard c false }

/-- Transmit channel `c` has an element to send on virtual lane `v`, and credit. -/
def State.yarnCan (s : State) (p v c : Nat) : Bool :=
  s.yarnChan p c true && decide (s.get (R.YRN_CHAN (64 * p + c)) F.YRN_CHAN_VL = v) &&
  !(sget (fun _ => false) (s.yport p).discard c) && decide (0 < (s.yport p).creditOf c) &&
  (match s.yarnStream p c with | some n => !(s.stream n).inbox.isEmpty | none => false)

/-- The channel virtual lane `v` serves next: the first after the one served last. -/
def State.yarnNextCh (s : State) (p v : Nat) : Option Nat :=
  let last := sget (fun _ => 63) (s.yport p).lastCh v
  ((List.range 64).map (fun i => (last + 1 + i) % 64)).find? (s.yarnCan p v)

/-- The logical lane that carries the next codeword of port `p` (R574). -/
def State.yarnCwLane (s : State) (p : Nat) : Nat := (s.yport p).nextSeq % max 1 (s.yarnLanes p).length

/-- One unit of virtual lane `v` of port `p`: up to 3 elements of one channel, a CTRL unit under its credit, a time unit; a TIME unit
waits for a codeword on logical lane 0 (R581). -/
def State.yarnUnit (s : State) (p v : Nat) : Option (YarnUnit × State) :=
  let y := s.yport p
  match v with
  | 2 =>
    match y.ctrl with
    | u :: rest => if y.ctrlCredit = 0 then none
      else some (.ctrl u, s.setYport p { y with ctrl := rest, ctrlCredit := y.ctrlCredit - 1 })
    | [] => none
  | 3 =>
    match y.time with
    | u :: rest =>
      let timed : Bool := match u with | .time _ _ _ => true | _ => false
      if timed ∧ s.yarnCwLane p ≠ 0 then none else some (u, s.setYport p { y with time := rest })
    | [] => none
  | _ =>
    match s.yarnNextCh p v with
    | none => none
    | some c =>
      match s.yarnStream p c with
      | none => none
      | some n =>
        let k := min 3 (y.creditOf c)
        let r := (List.range k).foldl (fun (r : List Elem × State) _ =>
          match r.2.strTake n with
          | (some e, s) => (r.1 ++ [e], s)
          | (none, s) => (r.1, s)) ([], s)
        let y := r.2.yport p
        some (.elems c r.1, r.2.setYport p { y with
          credit := sset (fun _ => 128) y.credit c (y.creditOf c - r.1.length), lastCh := sset (fun _ => 63) y.lastCh v c })

/-- The arbiter's next unit: VL0 to VL3 from its pointer on, which moves past the winner. -/
def State.yarnPick (s : State) (p : Nat) : Option (YarnUnit × State) :=
  let rr := (s.yport p).rr
  ([0, 1, 2, 3].map (fun i => (rr + i) % 4)).findSome? (fun v =>
    (s.yarnUnit p v).map (fun r => (r.1, r.2.setYport p { r.2.yport p with rr := (v + 1) % 4 })))

/-- Data units 1 to 19 of the next codeword. -/
def State.yarnFill (s : State) (p : Nat) : List YarnUnit × State :=
  (List.range 19).foldl (fun (r : List YarnUnit × State) _ =>
    match r.2.yarnPick p with
    | some (u, s) => (r.1 ++ [u], s)
    | none => r) ([], s)

/-- Up to two credit returns and the control units freed, taken from what is owed. -/
def YPort.returns (y : YPort) : Option YCredit × Option YCredit × Nat × YPort :=
  let due := (y.owed.filter (fun e => decide (e.2 ≠ 0))).take 2
  let mk (e : Nat × Nat) : YCredit := ⟨e.1, min 511 e.2⟩
  let a := (due.head?).map mk
  let b := (due[1]?).map mk
  let owed := due.foldl (fun m e => sset (fun _ => 0) m e.1 (e.2 - min 511 e.2)) y.owed
  (a, b, min 255 y.ctrlOwed, { y with owed := owed, ctrlOwed := y.ctrlOwed - min 255 y.ctrlOwed })

/-- The header and units that port `p` puts on its lanes. -/
def YPort.codeword (y : YPort) (c : SentCw) (idle : Bool) : YarnCodeword :=
  { good := true, corrected := false, seq := c.seq, ackSeq := y.lastGood, nak := y.nak, ackValid := true, idle := idle,
    creditA := c.creditA, creditB := c.creditB, ctrlCredit := c.ctrlCredit, units := c.units }

/-- UNACKED shows the codewords held. -/
def State.yarnUnacked (s : State) (p : Nat) : State := s.put (R.YRN_PORT p) F.YRN_PORT_UNACKED (s.yport p).unacked.length

/-! ### Retry (R578, R579) -/

/-- A fault of a port after eight replays without progress: reported, counted, the port retrains. -/
def State.yarnFault (s : State) (p : Nat) : State :=
  let s := (s.report 0x52 p).gazInc (185 + p)
  match (s.yarnLanes p).head? with
  | some n => s.groupFault n
  | none => s.linkDown 3 p

/-- Every codeword still unacknowledged is sent again, the oldest first. -/
def State.yarnReplay (s : State) (p : Nat) : State :=
  let y := s.yport p
  let s := (s.bump (R.YRN_COUNT p 4)).setYport p { y with resend := y.unacked, replays := y.replays + 1, ackAt := s.stamp }
  if 8 ≤ y.replays + 1 then s.yarnFault p else s

/-- How far `b` lies after `a`, modulo 65 536. -/
def seqAfter (a b : Nat) : Nat := (b + 65536 - a % 65536) % 65536

/-- The partner's acknowledgement: codewords up to ACK_SEQ leave the replay buffer; a NAK replays the rest. -/
def State.yarnAck (s : State) (p : Nat) (cw : YarnCodeword) : State :=
  if !cw.ackValid then s
  else
    let y := s.yport p
    let got := match y.unacked.head? with
      | some c => let d := seqAfter c.seq cw.ackSeq + 1; if d ≤ y.unacked.length then d else 0
      | none => 0
    let gone := (y.unacked.take got).map SentCw.seq
    let y := if got = 0 then y
      else { y with unacked := y.unacked.drop got, resend := y.resend.filter (fun c => !gone.contains c.seq), replays := 0,
                    ackAt := s.stamp }
    let s := s.setYport p y
    (if cw.nak && !y.unacked.isEmpty && y.resend.isEmpty then s.yarnReplay p else s).yarnUnacked p

/-! ### Receiving (R575, R576) -/

/-- Credits a header returns. -/
def YPort.credited (y : YPort) (cw : YarnCodeword) : YPort :=
  let one (y : YPort) (c : Option YCredit) : YPort := match c with
    | some c => { y with credit := sset (fun _ => 128) y.credit c.channel (y.creditOf c.channel + c.count) }
    | none => y
  let y := one (one y cw.creditA) cw.creditB
  { y with ctrlCredit := y.ctrlCredit + cw.ctrlCredit }

/-- One unit in order: elements to their receive channel, CTRL and time units to their virtual lane's queue. -/
def State.yarnDeliver (s : State) (p : Nat) (u : YarnUnit) : State :=
  let y := s.yport p
  match u with
  | .elems c es =>
    if s.yarnChan p c false then
      (s.setYport p { y with rxBuf := sset (fun _ => []) y.rxBuf c (y.held c ++ es) }).yarnPass p c
    else s.bump (R.YRN_COUNT p 6)
  | .ctrl u => s.setYport p { y with rxCtrl := y.rxCtrl ++ [u] }
  | u => s.setYport p { y with rxTime := y.rxTime ++ [u] }

/-! ### Training frames (R580, Table 18-3a) -/

/-- The CRC-16 over bits [63:16] of a control word, most significant byte first. -/
def controlCrc (v : Nat) : Nat := crc16 ((List.range 6).map (fun i => BitVec.ofNat 8 (v / 2 ^ (56 - 8 * i))))

/-- The control word that lane `n` of port `p` sends. -/
def State.yarnControl (s : State) (p n : Nat) : BitVec 64 :=
  let y := s.yport p
  let phase := match s.get (R.YRN_PORT p) F.YRN_PORT_STEP with
    | 3 => 1
    | 4 => 2
    | 5 => 3
    | _ => 0
  let v := s.yarnLaneNo p n % 8 * 2 ^ 61 + s.position * 2 ^ 58 + s.cascadeCount * 2 ^ 54 + s.get (R.YRN_PORT p) F.YRN_PORT_WIDTH8 * 2 ^ 53 +
    phase * 2 ^ 51 + b2n (y.rxDone.contains n) * 2 ^ 50 + sget (fun _ => 0) y.reqs n * 2 ^ 42 + sget (fun _ => 0) y.stats n * 2 ^ 34
  BitVec.ofNat 64 (v + controlCrc v)

/-- Lane `n` of port `p` sends its next frame. -/
def State.yarnFrameSent (s : State) (p n : Nat) : State :=
  s.setYport p { s.yport p with words := sset (fun _ => 0) (s.yport p).words n (s.yarnControl p n) }

/-! ### Leaving UP (R587) -/

/-- The forwards of port `p` or to position `k` end: BUSY before their target's acknowledgement, BUDGET_EXCEEDED after it. -/
def State.fwdsEnd (s : State) (hit : Fwd → Bool) : State :=
  let gone := s.links.yrn.fwds.filter hit
  let s := { s with links := { s.links with yrn := { s.links.yrn with fwds := s.links.yrn.fwds.filter (fun f => !hit f) } } }
  gone.foldl (fun s f => s.complete f.openId (if f.acked then .BUDGET_EXCEEDED else .BUSY)) s

/-- Each receive channel of port `p` sends a gap of COUNT 0 into its stream (R101, R587). -/
def State.yarnGaps (s : State) (p : Nat) : State :=
  (List.range 64).foldl (fun s c =>
    let y := s.yport p
    if s.yarnChan p c false ∧ (s.yarnStream p c).isSome then
      (s.setYport p { y with rxBuf := sset (fun _ => []) y.rxBuf c (y.held c ++ [mkGap 0]) }).yarnPass p c
    else s) s

/-- The effects of port `p` having left UP: gaps of COUNT 0, channels that will discard, codewords and messages dropped. -/
def State.yarnLost (s : State) (p : Nat) : State :=
  let s := (List.range 64).foldl (fun s c =>
    let y := s.yport p
    if s.yarnChan p c true then s.setYport p { y with discard := sset (fun _ => false) y.discard c true } else s) (s.yarnGaps p)
  let y := s.yport p
  let s := s.setYport p { YPort.init with
    rxBuf := y.rxBuf, discard := y.discard, lastTime := y.lastTime, frames := y.frames, obs := y.obs, ready := y.ready,
    rxDone := y.rxDone, reqs := y.reqs, stats := y.stats, words := y.words, rr := y.rr, lastCh := y.lastCh, sent := y.sent }
  let s := (s.yarnUnacked p).fwdsEnd (fun f => decide (f.port = p))
  if s.full (24 + p) then s.ackWrite (24 + p) RetCode.BUSY.num else s

/-! ### Member loss (R101, R586) -/

/-- The master marks position `k` lost. -/
def State.markLost (s : State) (k kind state : Nat) : State :=
  let s := (s.setBit R.YRN_STATUS k false).raise R.YRN_STATUS (8 + k)
  (s.report 0x73 k [word kind, word state]).fwdsEnd (fun f => decide (f.target = k))

/-- A training attempt of port `p` has failed (Table 3-3): its streams carry gaps, and at the master the positions that no UP port leads
to are lost, unless they are marked so. -/
def State.yarnUntrained (s : State) (p : Nat) : State :=
  let s := (s.yarnGaps p).put (R.YRN_PORT p) F.YRN_PORT_STATE 3
  if !s.cascaded ∨ s.position ≠ 0 then s
  else
    (List.range 8).foldl (fun s k =>
      if k = 0 ∨ s.cascadeCount ≤ k ∨ (s.yarnRoute k).isSome ∨ s.bit R.YRN_STATUS (8 + k) then s else s.markLost k 0 0) s

end Sys2Proof.Machine
end

