-- ==== Sys2Proof/Machine/Lanes.lean ====
section
/-! DEFINITION. Events of the serial lanes and the LNE commands (spec/11). -/

namespace Sys2Proof.Machine

/-! ### Training and faults -/

/-- The mode Ethernet MAC `g` comes up in: the one negotiated, else 400GAUI-8 where the survey gives it (R393); 0 none yet. -/
def State.macMode (s : State) (g n : Nat) : Nat :=
  let m := s.get (R.FHE_MAC g) F.FHE_MAC_MODE
  if m ≠ 0 then m
  else match laneRecOf s.svy.recs n with
    | some r => if r.f 3 29 29 = 1 then 6 else 0
    | none => 0

/-- The transmitter taps that the training of an Ethernet lane has settled on (R365, R367). -/
def State.trainedFfe (s : State) (n : Nat) (ffe : List (Nat × Word)) : State :=
  match ffe.find? (fun q => q.1 == n) with
  | some q => if ffeOk q.2 then s.wr (R.LNE_TXFFE n) (q.2 &&& 0x3F3F3F3F) else s
  | none => s

/-- LANE_UP: the link layer of an Ethernet group reports the link established (R369), with both detections of R372 and R373 and the
transmitter taps its training set; 400GAUI-8 does not train (R393). JESD204C links and yarn ports come up by their own rows. -/
def execLaneUp (e : LaneUpSeen) (s : State) : Out :=
  let os := e.obs.filter (fun o => decide (s.laneClass o.lane = 1 ∧ s.laneState o.lane = laneTRAINING ∧
    s.flag (R.LNE_STATUS o.lane) F.LNE_STATUS_REF_OK ∧ (s.lane o.lane).lp = .none))
  match os.head? with
  | none => .next s
  | some o0 =>
    let g := s.laneGroup o0.lane
    let os := os.filter (fun o => decide (s.laneGroup o.lane = g))
    let mode := s.macMode g o0.lane
    if mode = 0 then .next s
    else
      let (ok, s) := s.laneDetect os
      if !ok then .next s
      else
        let s := os.foldl (fun s o => (if mode = 6 then s else s.trainedFfe o.lane e.ffe).laneUpNow o.lane) s
        let s :=
          if s.groupUp (s.groupLanes 1 g) then
            let s := if mode = 6 then (s.put (R.FHE_MAC g) F.FHE_MAC_MODE 6).put (R.FHE_MAC g) F.FHE_MAC_FEC_ON 1 else s
            s.put (R.FHE_MAC g) F.FHE_MAC_UP 1
          else s
        .next s.lanesDone

/-- The first attempt of an open LNE.RETRAIN or LNE.UP of this group has failed: it completes with BUSY (R383, R385). -/
def State.lanesBusy (s : State) (n : Nat) : State :=
  s.mbx.open_.foldl (fun s o =>
    if (o.code = 0x0D03 ∨ o.code = 0x0D05) ∧ o.args.contains n then s.complete o.id .BUSY else s) s

/-- LANE_TRAINING_ATTEMPT_TIMEOUT (R101, Table 3-3): the attempt of lane `n`'s group passes its bound; `wrong` is a partner
class or protocol recognised that differs (kind 3), 0 for none. -/
def execLaneTrainingAttemptTimeout (n : Nat) (wrong : Option Nat) (s : State) : Out :=
  let c := s.laneClass n
  let g := s.laneGroup n
  if s.laneState n ≠ laneTRAINING ∨ (s.lane n).lp ≠ .none ∨ (c = 2 ∧ s.get (R.JSD_STATUS g) F.JSD_STATUS_STATE = 0) then
    .next s
  else
    let s := match wrong with
      | some w => s.mismatch 2 n 3 c w
      | none => s
    let s := s.lanesBusy n
    .next <| match c with
      | 1 => ((s.trainable 1 g).foldl (fun s m => ((s.bump (R.LNE_COUNT m 4)).gazInc (73 + m)).laneTrain m) s).linkDown 1 g
      | 2 => s.put (R.JSD_STATUS g) F.JSD_STATUS_STATE 4
      | _ => s.yarnUntrained g

/-- LANE_RETRY_TIMER (Table 3-3): a new attempt of a JESD204C link or yarn port that is down. -/
def execLaneRetryTimer (n : Nat) (s : State) : Out :=
  let c := s.laneClass n
  let g := s.laneGroup n
  let due := match c with
    | 2 => decide (s.get (R.JSD_STATUS g) F.JSD_STATUS_STATE = 4)
    | 3 => decide (s.get (R.YRN_PORT g) F.YRN_PORT_STATE = 3)
    | _ => false
  .next <| if due && decide (s.laneState n = laneTRAINING ∧ (s.lane n).lp = .none) then s.linkStart c g else s

/-- LANE_LOS (Table 11-6). -/
def execLaneLos (n : Nat) (s : State) : Out :=
  if s.laneWatched n then
    .next (((s.put (R.LNE_STATUS n) F.LNE_STATUS_SIGNAL 0).bump (R.LNE_COUNT n 3)).report 0x50 n [0] |>.groupFault n)
  else .next s

/-- CDR_UNLOCK (Table 11-6). -/
def execCdrUnlock (n : Nat) (s : State) : Out :=
  if s.laneWatched n ∧ s.laneState n = laneUP then
    .next (((s.put (R.LNE_STATUS n) F.LNE_STATUS_CDR_LOCK 0).bump (R.LNE_COUNT n 2)).report 0x50 n [1] |>.groupFault n)
  else .next s

/-- A lane's PLL loses lock (R362); a fault in TRAINING and UP (Table 11-6). -/
def State.pllLost (s : State) (n : Nat) : State :=
  let v := s.put (R.LNE_STATUS n) F.LNE_STATUS_PLL_LOCK 0
  if s.laneWatched n then (v.report 0x50 n [2]).groupFault n else v

/-- The PLL of lane `n` runs: not in LP2 or FORCED, nor of an unused lane (Table 11-5). -/
def State.pllRuns (s : State) (n : Nat) : Bool :=
  decide (s.laneClass n ≠ 0 ∧ s.laneState n ≠ laneLP2 ∧ s.laneState n ≠ laneFORCED)

/-- PLL_UNLOCK: while the reference is good the PLL relocks at once. -/
def execPllUnlock (n : Nat) (refOk : Bool) (s : State) : Out :=
  if !s.pllRuns n then .next s
  else
    let s := s.pllLost n
    .next <| if refOk && s.flag (R.LNE_STATUS n) F.LNE_STATUS_REF_OK then s.put (R.LNE_STATUS n) F.LNE_STATUS_PLL_LOCK 1 else s

/-- The used lanes that reference input `k` serves (R361). -/
def State.refLanes (s : State) (k : Nat) : List Nat :=
  ((List.range 8).map (· + 8 * k)).filter (fun n => decide (n < 96 ∧ s.laneClass n ≠ 0))

/-- REF_CLOCK_OUT_OF_RANGE (R362): REF_OK clears on every lane served, and those lanes lose PLL lock. -/
def execRefClockOutOfRange (k : Nat) (s : State) : Out :=
  let ls := s.refLanes k
  let s := ls.foldl (fun s n => s.put (R.LNE_STATUS n) F.LNE_STATUS_REF_OK 0) s
  .next (ls.foldl State.pllLost s)

/-- REF_CLOCK_RESTORED: REF_OK is set and the PLLs relock; the lanes wait in TRAINING. -/
def execRefClockRestored (k : Nat) (s : State) : Out :=
  .next ((s.refLanes k).foldl (fun s n =>
    let s := s.put (R.LNE_STATUS n) F.LNE_STATUS_REF_OK 1
    if s.pllRuns n then s.put (R.LNE_STATUS n) F.LNE_STATUS_PLL_LOCK 1 else s) s)

/-! ### Adaptation (R366) -/

/-- A move limited to one unit. -/
def oneStep (d : Int) : Int := max (-1) (min 1 d)

/-- The range limit of DFE tap `j`, 0 onward. -/
def dfeLimit (j : Nat) : Int := if j < 3 then 64 else 16

/-- DFE tap `j` of lane `n`. -/
def State.dfeTap (s : State) (n j : Nat) : Int := sgn 8 (s.get (R.LNE_DFE n (j / 4)) (F.LNE_DFE_TAP (j % 4)))

/-- Set DFE tap `j`. -/
def State.setDfeTap (s : State) (n j : Nat) (v : Int) : State :=
  s.put (R.LNE_DFE n (j / 4)) (F.LNE_DFE_TAP (j % 4)) (unsgn 8 v)

/-- The receiver of yarn lane `n` asks for steps of its partner's FFE in step 3 of training, and says when it has finished (R580). -/
def State.yarnAdapt (s : State) (n : Nat) (a : AdaptStep) : State :=
  let p := s.laneGroup n
  let y := s.yport p
  if s.laneClass n = 3 ∧ s.laneState n = laneTRAINING ∧ s.get (R.YRN_PORT p) F.YRN_PORT_STEP = 3 then
    s.setYport p { y with reqs := sset (fun _ => 0) y.reqs n (a.ffeReq % 256),
                          rxDone := if a.ready && !y.rxDone.contains n then y.rxDone ++ [n] else y.rxDone }
  else s

/-- ADAPTATION_STEP: on a long-reach lane in TRAINING or UP, not frozen, the CTLE moves by at most one setting and each tap by
at most one unit, within their ranges; the eye is measured in UP (LNE_EYE). -/
def execAdaptationStep (n : Nat) (a : AdaptStep) (s : State) : Out :=
  if !s.laneActive n then .next s
  else
    let s := match a.eye with
      | some (h, v) => if s.laneState n = laneUP then s.wr (R.LNE_EYE n) (word (h % 256 * 2 ^ 16 + v % 256 * 2 ^ 8)) else s
      | none => s
    if s.laneClass n = 2 ∨ s.flag (R.LNE_CTRL n) F.LNE_CTRL_ADAPT_FREEZE then .next s
    else
      let s := s.yarnAdapt n a
      let k := R.LNE_RXEQ n
      let now : Int := s.get k F.LNE_RXEQ_CTLE_NOW
      let s := s.put k F.LNE_RXEQ_CTLE_NOW (max 0 (min 15 (now + oneStep a.ctle))).toNat
      .next (if s.flag k F.LNE_RXEQ_DFE_EN then
        (a.taps.take 12).zipIdx.foldl (fun s p =>
          s.setDfeTap n p.2 (max (-dfeLimit p.2) (min (dfeLimit p.2) (s.dfeTap n p.2 + oneStep p.1)))) s
        else s)

/-- ADAPT_LIMIT: a tap at a range limit for 1 s; reported only. -/
def execAdaptLimit (n : Nat) (s : State) : Out :=
  if s.laneWatched n ∧ s.laneState n = laneUP ∧ s.laneClass n ≠ 2 ∧
      (List.range 12).any (fun j => decide (s.dfeTap n j = dfeLimit j ∨ s.dfeTap n j = -dfeLimit j)) then
    .next (s.report 0x50 n [3])
  else .next s

/-! ### Low-power states (R371) -/

/-- LOW_POWER_ENTRY_COMPLETE. -/
def execLowPowerEntryComplete (n : Nat) (s : State) : Out :=
  match (s.lane n).lp with
  | .entering t =>
    let st := s.laneState n
    let s := if st = laneUP then s.linkDown (s.laneClass n) (s.laneGroup n) else s
    let s := s.checkStop n
    let s := s.setLane n { s.lane n with lp := .none, down := (s.lane n).down || st == laneDOWN || st == laneTEST }
    let s := (s.setLaneState n (if t = 1 then laneLP1 else laneLP2)).bump (R.LNE_COUNT n 5)
    let s := if t = 1 then s.put (R.LNE_STATUS n) F.LNE_STATUS_PLL_LOCK (s.get (R.LNE_STATUS n) F.LNE_STATUS_REF_OK)
      else (s.put (R.LNE_STATUS n) F.LNE_STATUS_PLL_LOCK 0).put (R.LNE_STATUS n) F.LNE_STATUS_CDR_LOCK 0
    .next (s.laneMove n).lanesDone
  | _ => .next s

/-- LOW_POWER_EXIT_COMPLETE (Table 11-7), with the reference good: a converter lane leaves for UP, its link for the next SYSREF; a
long-reach lane for TRAINING, CDR locked and transmitting; a lane that was DOWN is DOWN. -/
def execLowPowerExitComplete (n : Nat) (s : State) : Out :=
  match (s.lane n).lp with
  | .exiting =>
    let l := s.lane n
    let c := s.laneClass n
    let g := s.laneGroup n
    if !s.flag (R.LNE_STATUS n) F.LNE_STATUS_REF_OK then .next s
    else
      let s := s.setLane n { l with lp := .none }
      let s := s.put (R.LNE_STATUS n) F.LNE_STATUS_PLL_LOCK 1
      let s :=
        if l.down then s.setLaneState n laneDOWN
        else if c = 2 then (s.laneUpNow n).linkStart c g
        else
          let s := s.laneTrain n
          let s := (s.put (R.LNE_STATUS n) F.LNE_STATUS_CDR_LOCK 1).put (R.LNE_STATUS n) F.LNE_STATUS_SIGNAL 1
          (s.put (R.LNE_STATUS n) F.LNE_STATUS_TX_IDLE 0).linkStart c g
      .next ((s.laneMove n).lanesDone.bindsDone)
  | _ => .next s

/-! ### The checker (R376) -/

/-- The checker of lane `n` runs: TEST, CHK_EN, not in far-end loop-back. -/
def State.checking (s : State) (n : Nat) : Bool :=
  decide (s.laneState n = laneTEST) && s.flag (R.LNE_TEST n) F.LNE_TEST_CHK_EN &&
  decide (s.get (R.LNE_TEST n) F.LNE_TEST_LOOP ≠ 2)

/-- The feedback taps of a PRBS code of Table 11-8: the exponents of its polynomial. -/
def prbsTaps (code : Nat) : List Nat :=
  match code with
  | 0 => [6, 7]
  | 1 => [5, 9]
  | 2 => [1, 2, 12, 13]
  | 3 => [14, 15]
  | 4 => [18, 23]
  | 5 => [28, 31]
  | _ => []

/-- Bits of a sequence whose every bit is the sum of those `taps` places before the last; `h` holds the bits sent so far, the last first. -/
def prbsBits (taps : List Nat) (h : List Bool) : Nat → List Bool
  | 0 => []
  | k + 1 =>
    let b := taps.foldl (fun a t => xor a (h.getD t false)) false
    b :: prbsBits taps (b :: h) k

/-- The first `k` bits of pattern `code` of lane `n` (Table 11-8); `upat` is its USER pattern. -/
def patternBits (code n : Nat) (upat : BitVec 64) (k : Nat) : List Bool :=
  match code with
  | 6 => (List.range k).map Config.ssprq
  | 7 => (List.range k).map (fun i => decide (i % 16 < 8))
  | 8 => (List.range k).map (fun i => upat.getLsbD (i % 64))
  | _ =>
    let seed := true :: (List.range 30).map (Config.prbsSeed n).getLsbD
    prbsBits ((prbsTaps code).map (· - 1)) seed k

/-- The level 0 to 3 of the PAM4 symbol that carries two pattern bits, the first the more significant, in Gray code (R376). -/
def graySymbol (b1 b0 : Bool) : Nat := if b1 then (if b0 then 2 else 3) else b2n b0

/-- What the generator of lane `n` sends in its first `k` unit intervals: bits of an NRZ lane, levels of a PAM4 lane. -/
def State.genSymbols (s : State) (n k : Nat) : List Nat :=
  let upat := s.rd (R.LNE_UPAT_HI n) ++ s.rd (R.LNE_UPAT_LO n)
  let code := s.get (R.LNE_TEST n) F.LNE_TEST_GEN_PAT
  if s.flag (R.LNE_RATE n) F.LNE_RATE_PAM4 then
    let bs := patternBits code n upat (2 * k)
    (List.range k).map (fun i => graySymbol (bs.getD (2 * i) false) (bs.getD (2 * i + 1) false))
  else (patternBits code n upat k).map b2n

/-- In the PCS loop-back the checker sees the generator's bits and no others (R375): it can lock while the generator runs the same
pattern, never inverted and never with an error. -/
def State.pcsMatch (s : State) (n : Nat) : Bool :=
  s.flag (R.LNE_TEST n) F.LNE_TEST_GEN_EN &&
  s.get (R.LNE_TEST n) F.LNE_TEST_GEN_PAT == s.get (R.LNE_TEST n) F.LNE_TEST_CHK_PAT

/-- CHECKER_LOCK: 64 error-free bits. -/
def execCheckerLock (n : Nat) (inv : Bool) (s : State) : Out :=
  if s.checking n ∧ ¬ s.flag (R.LNE_TEST n) F.LNE_TEST_CHK_LOCK ∧
      (s.get (R.LNE_TEST n) F.LNE_TEST_LOOP = 3 → s.pcsMatch n ∧ inv = false) then
    let s := s.setLane n { s.lane n with lockAt := some s.stamp, bits := 0 }
    .next ((s.put (R.LNE_TEST n) F.LNE_TEST_CHK_LOCK 1).put (R.LNE_TEST n) F.LNE_TEST_CHK_INV (b2n inv))
  else .next s

/-- CHECKER_LOCK_LOSS: a locked checker has compared 64 bits, `errors` of them wrong: they are counted, and more than 32 drop the lock,
which is counted too (R376). -/
def execCheckerLockLoss (n errors : Nat) (s : State) : Out :=
  if s.checking n ∧ s.flag (R.LNE_TEST n) F.LNE_TEST_CHK_LOCK ∧ errors ≤ 64 ∧ s.get (R.LNE_TEST n) F.LNE_TEST_LOOP ≠ 3 then
    let s := s.bump (R.LNE_COUNT n 0) errors
    .next (if 32 < errors then (s.checkStop n).bump (R.LNE_COUNT n 1) else s)
  else .next s

/-- A read of LNE_CHKBITS_LO latches bits [63:32] (R379). -/
def execLneChkbitsLoRead (n : Nat) (s : State) : Out := .next (s.wr (R.LNE_CHKBITS_HI n) (hiWord (s.chkBits n)))

/-- A write of LNE_CTRL: LOCK sets and stays; POWER 3 is ignored; a commanded power acts on the lane (R370, R379). -/
def State.lneCtrlWrite (s : State) (n : Nat) (v : Word) : State :=
  let k := R.LNE_CTRL n
  let s := if v.bit 31 then s.put k F.LNE_CTRL_LOCK 1 else s
  let s := s.put k F.LNE_CTRL_ADAPT_FREEZE (F.LNE_CTRL_ADAPT_FREEZE.get v)
  let p := F.LNE_CTRL_POWER.get v
  if p = 3 then s else (s.put k F.LNE_CTRL_POWER p).laneMove n

/-! ### Commands -/

/-- LANE. -/
def Cmd.lane (c : Cmd) : Nat := c.n 2 6 0

/-- NOT_PERMITTED for an UNUSED lane (R369). -/
def laneUnused (c : Cmd) (s : State) (k : Ans) : Ans := if s.laneClass c.lane = 0 then .code .NOT_PERMITTED s else k

/-- LANE above 95. -/
def badLane (c : Cmd) (_ : State) : Option RetCode := badIf (decide (95 < c.lane))

/-- LNE.STATUS (R381). -/
def execLneStatus (mb : Nat) (s : State) : Out := .next <| runCommand spec_LNE_STATUS badLane
  (fun c s =>
    let n := c.lane
    .ok s [s.rd (R.LNE_STATUS n), s.rd (R.LNE_RATE n), s.rd (R.LNE_RXEQ n), s.rd (R.LNE_TXFFE n), s.rd (R.LNE_MAP n),
      s.rd (R.LNE_EYE n), s.rd (R.LNE_TEST n), s.rd (R.LNE_COUNT n 0), loWord (s.chkBits n), hiWord (s.chkBits n)]) mb s

/-- Every lane of the group is DOWN or in TEST. -/
def State.groupIdle (s : State) (n : Nat) : Bool :=
  (s.lanesWith n).all (fun m => decide (s.laneState m = laneDOWN ∨ s.laneState m = laneTEST))

/-- LNE.POWER (R382). -/
def execLnePower (mb : Nat) (s : State) : Out := .next <| runCommand spec_LNE_POWER
  (fun c s => badLane c s <|> badIf (decide (c.n 2 17 16 = 3)))
  (fun c s => laneUnused c s <|
    let ls := s.lanesWith c.lane
    if s.groupIdle c.lane then .code .REFUSED_IN_USE s
    else
      let s := ls.foldl (fun s n => (s.put (R.LNE_CTRL n) F.LNE_CTRL_POWER (c.n 2 17 16)).laneMove n) s
      if ls.all s.laneSettled then .ok s else .acc s ls) mb s

/-- Training of lanes `ls` of one group starts (R383): their coefficients, TRAINING, the link layer. -/
def State.commandTrain (s : State) (ls : List Nat) : State :=
  match ls.head? with
  | none => s
  | some n =>
    let c := s.laneClass n
    let g := s.laneGroup n
    let s := s.swtAbandon (fun q => decide (q.kind = 7) && ls.contains q.target)
    let s := ls.foldl (fun s m => ((s.setLane m { s.lane m with down := false }).laneFresh m).laneTrain m) s
    ls.foldl State.laneMove ((s.linkDown c g).linkStart c g)

/-- LNE.RETRAIN (R383). -/
def execLneRetrain (mb : Nat) (s : State) : Out := .next <| runCommand spec_LNE_RETRAIN badLane
  (fun c s => laneUnused c s <|
    let ls := s.trainable (s.laneClass c.lane) (s.laneGroup c.lane)
    if ls.isEmpty then .code .REFUSED_IN_USE s else .acc (s.commandTrain ls) ls) mb s

/-- The FHE, JSD or YARN endpoint `ep` is carried by group `g` of class `c` (R384, R400, R408, R576). -/
def State.epCarried (s : State) (c g ep : Nat) : Bool :=
  let i := epIndex ep
  match c, epKind ep with
  | 1, 1 => s.flag (R.FHE_FLOW_KEY i) F.FHE_FLOW_KEY_VALID && s.get (R.FHE_FLOW_KEY i) F.FHE_FLOW_KEY_MAC == g
  | 1, 2 => s.flag (R.FHE_FLOW_KEY (256 + i)) F.FHE_FLOW_KEY_VALID && s.get (R.FHE_FLOW_KEY (256 + i)) F.FHE_FLOW_KEY_MAC == g
  | 2, 3 => i / 16 == g
  | 2, 4 => i / 16 == g
  | 3, 7 => i / 64 == g
  | _, _ => false

/-- LNE.BINDOFF (R384): every stream of the group not CLOSED is bound off; those already BINDING are waited for. It answers ACCEPTED and
completes once the lanes are DOWN. -/
def execLneBindoff (mb : Nat) (s : State) : Out := .next <| State.bindsDone <| runCommand spec_LNE_BINDOFF badLane
  (fun c s => laneUnused c s <|
    if s.groupIdle c.lane then .code .REFUSED_IN_USE s
    else
      let ms := if c.n 2 31 16 = 0 then 10 else c.n 2 31 16
      let cl := s.laneClass c.lane
      let g := s.laneGroup c.lane
      let st := s.liveStreams.filter (fun n => s.epCarried cl g (s.strProducer n) || s.epCarried cl g (s.strConsumer n))
      let b : LaneBind := ⟨c.id, s.lanesWith c.lane, st, false⟩
      let s := st.foldl (fun s n => if (s.stream n).st = .open_ then s.strBind n ms none else s) s
      let s := { s with links := { s.links with lanes := { s.links.lanes with binds := s.links.lanes.binds ++ [b] } } }
      .acc (if st.isEmpty then s.bindDown b else s) []) mb s

/-- LNE.UP (R385); a marked group stays DOWN (R627). -/
def execLneUp (mb : Nat) (s : State) : Out := .next <| runCommand spec_LNE_UP badLane
  (fun c s => laneUnused c s <|
    let ls := s.lanesWith c.lane
    if !s.groupIdle c.lane ∨ s.groupMarked c.lane then .code .REFUSED_IN_USE s
    else
      let s := ls.foldl (fun s n =>
        let s := s.checkStop n
        let k := R.LNE_TEST n
        ((s.put k F.LNE_TEST_GEN_EN 0).put k F.LNE_TEST_CHK_EN 0).put k F.LNE_TEST_LOOP 0) s
      .acc (s.commandTrain ls) ls) mb s

/-- SSPRQ on an NRZ lane, or a reserved pattern (Table 11-8). -/
def State.badPattern (s : State) (n p limit : Nat) : Bool :=
  decide (limit < p) || (decide (p = 6) && !s.flag (R.LNE_RATE n) F.LNE_RATE_PAM4)

/-- LNE.TEST (R386). -/
def execLneTest (mb : Nat) (s : State) : Out := .next <| runCommand spec_LNE_TEST
  (fun c s => badLane c s <|> badIf (s.badPattern c.lane (c.n 3 27 24) 7))
  (fun c s => laneUnused c s <|
    let n := c.lane
    let busy := ¬ (s.laneState n = laneDOWN ∨ s.laneState n = laneTEST) ∨
      (s.lanesWith n).any (fun m => decide (m ≠ n ∧ (s.laneState m = laneTRAINING ∨ s.laneState m = laneUP)))
    if busy then .code .REFUSED_IN_USE s
    else
      let s := s.checkStop n
      let s := if c.b 3 31 then
          ((s.wr (R.LNE_COUNT n 0) 0).wr (R.LNE_COUNT n 1) 0).setLane n { s.lane n with bits := 0 } else s
      let on := b2n (decide (c.n 3 29 28 ≠ 2))
      let p := c.n 3 27 24
      .ok ((s.wr (R.LNE_TEST n) (word (on * 2 ^ 31 + on * 2 ^ 30 + c.n 3 29 28 * 2 ^ 28 + p * 2 ^ 24 + p * 2 ^ 20))).setLaneState
        n laneTEST)) mb s

/-- LNE.EQ (R387). -/
def execLneEq (mb : Nat) (s : State) : Out := .next <| runCommand spec_LNE_EQ
  (fun c s => badLane c s <|>
    badIf ((c.b 2 8 && (!ffeOk (c.w 4) ||
        decide (c.w 4 &&& 0x3F3F3F3F ≠ c.w 4))) ||
      (c.b 2 9 && c.b 3 8 && decide (s.laneClass c.lane = 2))))
  (fun c s => laneUnused c s <|
    let n := c.lane
    let live := decide (s.laneClass n ≠ 2 ∧ (s.laneState n = laneTRAINING ∨ s.laneState n = laneUP))
    if s.flag (R.LNE_CTRL n) F.LNE_CTRL_LOCK then .code .NOT_PERMITTED s
    else if live && (c.b 2 8 || (c.b 2 9 && !s.flag (R.LNE_CTRL n) F.LNE_CTRL_ADAPT_FREEZE)) then .code .REFUSED_IN_USE s
    else
      let k := R.LNE_RXEQ n
      let s := if c.b 2 9 then
          let s := (s.put k F.LNE_RXEQ_DFE_EN (c.n 3 8 8)).put k F.LNE_RXEQ_CTLE (c.n 3 3 0)
          if s.laneClass n = 2 then s.put k F.LNE_RXEQ_CTLE_NOW (c.n 3 3 0) else s
        else s
      .ok (if c.b 2 8 then s.wr (R.LNE_TXFFE n) (c.w 4) else s)) mb s

/-- LNE.ADAPT (R388). -/
def execLneAdapt (mb : Nat) (s : State) : Out := .next <| runCommand spec_LNE_ADAPT badLane
  (fun c s => laneUnused c s <|
    if s.laneClass c.lane = 2 then .code .NOT_PERMITTED s
    else .ok (s.put (R.LNE_CTRL c.lane) F.LNE_CTRL_ADAPT_FREEZE (c.n 2 8 8))) mb s

/-- LNE.PATTERN (R389). -/
def execLnePattern (mb : Nat) (s : State) : Out := .next <| runCommand spec_LNE_PATTERN
  (fun c s => badLane c s <|>
    badIf (s.badPattern c.lane (c.n 3 27 24) 8 || s.badPattern c.lane (c.n 3 23 20) 8))
  (fun c s => laneUnused c s <|
    let n := c.lane
    if s.laneState n ≠ laneTEST then .code .REFUSED_IN_USE s
    else
      let s := s.checkStop n
      .ok ((((s.wr (R.LNE_UPAT_LO n) (c.w 4)).wr (R.LNE_UPAT_HI n) (c.w 5)).wr (R.LNE_TEST n) (c.w 3 &&& 0xFFF00000)).setLaneState
        n laneTEST)) mb s

/-- LNE.COUNTERS (R390). -/
def execLneCounters (mb : Nat) (s : State) : Out := .next <| runCommand spec_LNE_COUNTERS badLane
  (fun c s => laneUnused c s <|
    let n := c.lane
    let b := s.chkBits n
    let (ws, s) := s.counters ((List.range 6).map (R.LNE_COUNT n)) (c.b 2 8)
    let s := if c.b 2 8 then
        s.setLane n { s.lane n with bits := 0, lockAt := (s.lane n).lockAt.map (fun _ => s.stamp) } else s
    .ok s (ws ++ [loWord b, hiWord b])) mb s

end Sys2Proof.Machine
end

