-- ==== Sys2Proof/Machine/FheOps.lean ====
section
/-! DEFINITION. The fronthaul engine's operations (spec/12, R339 to R341): the symbol grid and the units of a flow, expansion
and compression of resource blocks, received messages, weight sets. -/

namespace Sys2Proof.Machine

/-- Fields of flow entry `e`. -/
def State.flowEaxc (s : State) (e : Nat) : Nat := s.get (R.FHE_FLOW_KEY e) F.FHE_FLOW_KEY_EAXC
def State.flowMu (s : State) (e : Nat) : Nat := s.get (R.FHE_FLOW_CFG e) F.FHE_FLOW_CFG_MU
def State.flowComp (s : State) (e : Nat) : Nat := s.get (R.FHE_FLOW_CFG e) F.FHE_FLOW_CFG_COMP
/-- Mantissa bits; 16 without compression. -/
def State.flowWidth (s : State) (e : Nat) : Nat :=
  if s.flowComp e = 0 then 16 else s.get (R.FHE_FLOW_CFG e) F.FHE_FLOW_CFG_WIDTH
def State.flowOfs (s : State) (e : Nat) : Int := sgn 20 (s.get (R.FHE_FLOW_CFG e) F.FHE_FLOW_CFG_REL_OFS)
/-- Count in FHE_FCOUNT. -/
def State.flowCount (s : State) (e k : Nat) (n : Nat := 1) : State := if n = 0 then s else s.bump (R.FHE_FCOUNT e k) n
/-- Count in FHE_MCOUNT. -/
def State.macCount (s : State) (m k : Nat) (n : Nat := 1) : State := if n = 0 then s else s.bump (R.FHE_MCOUNT m k) n

/-- The valid IQ entry among `es` with this MAC and eAxC ID. -/
def State.iqEntry (s : State) (es : List Nat) (mac eaxc : Nat) : Option Nat :=
  es.find? (fun e => s.flowOn e 0 mac && s.flowEaxc e == eaxc)

/-! ### Symbols and units (R401) -/

/-- Symbols in 245 760 samples. -/
def gridLen (mu : Nat) : Nat := 7 * 2 ^ mu

/-- Air time of grid symbol `n` counted from air time 0 (R322, repeated every 245 760 samples). -/
def gridAt (mu n : Nat) : Nat := n / gridLen mu * 245760 + symStart mu (n % gridLen mu)

/-- The last grid symbol that starts at or before air time `x`. -/
def gridOf (mu x : Nat) : Nat :=
  let r := x % 245760
  let m := (List.range (gridLen mu)).foldl (fun a i => if symStart mu i ≤ r then i else a) 0
  x / 245760 * gridLen mu + m

/-- Start of O-RAN frame `f` nearest to the present air time. -/
def State.frameStart (s : State) (f : Nat) : Nat :=
  let now := s.airNow
  let k0 := now / 4915200 / 256 * 256 + f % 256
  let cands := (if 256 ≤ k0 then [k0 - 256] else []) ++ [k0, k0 + 256]
  let far (k : Nat) : Nat := max (k * 4915200) now - min (k * 4915200) now
  (cands.foldl (fun a k => if far k < far a then k else a) k0) * 4915200

/-- Air time of symbol `sym` of O-RAN frame `f`. -/
def State.symTime (s : State) (mu f sym : Nat) : Nat := s.frameStart f + gridAt mu sym

/-- The symbol that a unit released at `t` carries; none before time 0. -/
def unitSym (mu : Nat) (ofs : Int) (t : Nat) : Option Nat :=
  let x := (t : Int) + ofs
  if x < 0 then none else some (gridAt mu (gridOf mu x.toNat))

/-- Entries yet to act that release stream `n`: their air times, in order. -/
def State.releasesOf (s : State) (n til : Nat) : List Nat :=
  (s.airFuture til).flatMap (fun e =>
    if e.2.action = 3 then
      ([e.2.w1, e.2.w2, e.2.w3].filter (fun w => w.bit 31 && !w.bit 29 && w.bits 11 0 == n)).map (fun _ => e.1) else [])

/-- The unit of entry `e`'s stream `n` that carries the symbol starting at `sym`: its first position and its latest usable
time in units of `RelUnit.latest`; 0 when that time has passed. -/
def State.unitFor (s : State) (e n sym : Nat) : Option (Nat × Nat) :=
  let mu := s.flowMu e
  let ofs := s.flowOfs e
  let x := s.stream n
  match (sget (fun _ => []) s.links.fhe.units e).find? (fun u => unitSym mu ofs u.1 == some sym) with
  | some u => some (u.2, match x.pend.find? (fun p => decide (p.start = u.2)) with | some p => p.latest | none => 0)
  | none =>
    let ts := s.releasesOf n (((sym : Int) - ofs + 35072).toNat)
    match ts.zipIdx.find? (fun t => unitSym mu ofs t.1 == some sym) with
    | some (t, i) => some (x.relTo + i * s.strUnit n, s.stampOfAir t * 1536 + s.strLate n * 3125)
    | none => none

/-! ### Resource blocks (R339 to R341) -/

/-- A block floating point component `m × 2^e`, saturated; whether it saturated. -/
def bfpValue (width code e : Nat) : Int × Bool := narrow 16 (sgn width code * 2 ^ e)

/-- K of modulation compression (Table 10-2). -/
def modK (m : Nat) : Int := match m with | 1 => 5793 | 2 => 2591 | 3 => 1264 | _ => 628

/-- A modulation-compressed component, shifted when csf is 1, times modCompScaler (Table 12-3). -/
def modValue (m code : Nat) (scaler : Option ModScaler) : Int × Bool :=
  let c : Int := ((code % 2 ^ m : Nat) : Int)
  match scaler with
  | none => narrow 16 ((2 * c + 1 - 2 ^ m) * modK m)
  | some x =>
    narrow 16 (shiftRound 2 ((2 * c + (if x.csf then 2 else 1) - 2 ^ m) * modK m * (x.mant % 2048 : Nat)) (11 + x.ex))

/-- The 24 components of a block, with how many saturated; each resource element by the scaler that is for it. -/
def expandPrb (comp width : Nat) (p : Prb) (scalers : List ModScaler) : List Int × Nat :=
  let vs := (List.range 24).map (fun i =>
    let c := p.codes.getD i 0
    if comp = 2 then modValue width c (scalers.find? (fun x => x.elems.testBit (i / 2))) else bfpValue width c (if comp = 1 then p.param % 16 else 0))
  (vs.map (·.1), vs.countP (·.2))

/-- The six elements of a block. -/
def prbElems (vs : List Int) : List Elem :=
  (List.range 6).map (fun i =>
    ⟨c16Pair (vs.getD (4 * i) 0) (vs.getD (4 * i + 1) 0) (vs.getD (4 * i + 2) 0) (vs.getD (4 * i + 3) 0), 0⟩)

/-- The least width from 1 to 16 that holds every component (R340 step 1). -/
def leastWidth (vs : List Int) : Nat :=
  ((List.range 16).map (· + 1)).foldl
    (fun a b => if a = 0 ∧ vs.all (fun v => decide (-(2 ^ (b - 1)) ≤ v ∧ v ≤ 2 ^ (b - 1) - 1)) then b else a) 0

/-- Compression of a block to mantissas of `m` bits (R340), with how many saturated. -/
def compressPrb (m : Nat) (vs : List Int) : Prb × Nat :=
  let e := leastWidth vs - m
  let cs := vs.map (fun v => narrow m (shiftRound 2 v e))
  (⟨e, cs.map (fun c => unsgn m c.1)⟩, cs.countP (·.2))

/-- Bytes of a block as sent (Table 10-1): a parameter byte unless uncompressed, and 24 mantissas. -/
def prbBytes (comp m : Nat) : Nat := (if comp = 0 then 0 else 1) + 3 * m

/-! ### Elements sent by receive flows -/

/-- Bytes eight to an element, the first in data [63:56], the last element padded with 0. -/
def packBytes (bs : List Byte) : List Elem :=
  (List.range ((bs.length + 7) / 8)).map (fun k =>
    ⟨BitVec.ofNat 64 ((List.range 8).foldl (fun a i => a * 256 + (bs.getD (8 * k + i) 0).toNat) 0), 0⟩)

/-! ### Received messages (R398 to R405) -/

/-- The sequence check of a flow (R403); U-plane and C-plane messages count separately. -/
def State.seqCheck (s : State) (e plane seq : Nat) : State :=
  let k := 2 * e + plane
  let bad := match sget (fun _ => none) s.links.fhe.seqLast k with
    | some last => decide (seq % 256 ≠ (last + 1) % 256)
    | none => false
  let s := s.setFhe { s.links.fhe with seqLast := sset (fun _ => none) s.links.fhe.seqLast k (some (seq % 256)) }
  if bad then s.flowCount e 3 else s

/-- Sections held for an entry, those of the last 10 ms. -/
def State.heldOf (s : State) (e : Nat) : List HeldSection := sget (fun _ => []) s.links.fhe.held e

/-- Hold a section for an entry. -/
def State.hold (s : State) (e : Nat) (h : HeldSection) : State :=
  let l := (s.heldOf e).filter (fun x => decide (s.airNow ≤ x.sym + 4915200))
  s.setFhe { s.links.fhe with held := sset (fun _ => []) s.links.fhe.held e (l ++ [h]) }

/-- The scalers that govern a block of a symbol: those of the last section that names it. -/
def State.scalersOf (s : State) (e sym p : Nat) : List ModScaler :=
  ((s.heldOf e).filter (fun h => decide (h.sym = sym) && h.prbs.contains p)).foldl
    (fun a h => if h.scalers.isEmpty then a else h.scalers) []

/-- COMP and mantissa bits of a U-plane section of flow `e`: those it names, else the flow's; none for what Table 12-3 does not list. -/
def State.upComp (s : State) (e : Nat) (x : UpSection) : Option (Nat × Nat) :=
  match x.comp with
  | none => some (s.flowComp e, s.flowWidth e)
  | some (0, w) => if w = 16 then some (0, 16) else none
  | some (1, w) => if [8, 9, 12, 14].contains w then some (1, w) else none
  | some (4, w) => if [1, 2, 3, 4].contains w then some (2, w) else none
  | some _ => none

/-- One U-plane section placed in its unit (R401). -/
def State.placeSection (s : State) (e n sym start : Nat) (x : UpSection) : State :=
  match s.upComp e x with
  | none => s.flowCount e 4
  | some (comp, width) =>
  if s.strUnit n < 6 * (x.startPrb + x.prbs.length) then s.flowCount e 4
  else x.prbs.zipIdx.foldl (fun s p =>
    let i := x.startPrb + p.2
    let (vs, sat) := expandPrb comp width p.1 (s.scalersOf e sym i)
    let s := s.flowCount e 6 sat
    ((prbElems vs).zipIdx).foldl (fun s q => (s.strOffer n (some (start + 6 * i + q.2)) q.1).2) s) s

/-- A U-plane message of entry `e` (R401 to R403). -/
def State.iqMessage (s : State) (e frame sym at_ : Nat) (secs : List UpSection) : State :=
  let t := s.symTime (s.flowMu e) frame sym
  if at_ + s.get (R.FHE_FLOW_KEY e) F.FHE_FLOW_KEY_EARLY * 10000 < s.stampOfAir t then s.flowCount e 1
  else
    let lost := s.flowCount e 5 secs.length
    match s.flowStream e with
    | none => lost
    | some n => match s.unitFor e n t with
      | none => lost
      | some (start, latest) =>
        let s := s.flowCount e (if latest ≤ at_ * 1536 then 2 else 0)
        secs.foldl (fun s x => s.placeSection e n t start x) s

/-- A record of a C-plane section on the CREC flow (Table 12-5). -/
def State.creRecord (s : State) (mac eaxc t : Nat) (x : CpSection) : State :=
  match rxEntries.find? (fun e => s.flowOn e 1 mac) with
  | none => s
  | some e =>
    let head : List Elem := [⟨BitVec.ofNat 64 t, 0⟩,
      ⟨BitVec.ofNat 64 (eaxc % 2 ^ 16 * 2 ^ 48 + x.stype % 256 * 2 ^ 40 + x.bytes.length % 2 ^ 16), 0⟩]
    s.flowSend e (markEnds (head ++ packBytes x.bytes))

/-! ### C-plane sections (R399, R402, R405) -/

end Sys2Proof.Machine

namespace Sys2Proof

/-- Weights of bundles come that say a compression of Table 12-3. -/
def BundleWeights.ok (b : BundleWeights) : Bool :=
  (decide (b.meth = 0) && decide (b.width = 16)) || (decide (b.meth = 1) && [8, 9, 12, 14].contains b.width)

/-- An extension of Table 12-3. -/
def CpExt.ok (x : CpExt) : Bool :=
  match x with
  | .weights l => l.all BundleWeights.ok
  | .other _ => false
  | _ => true

/-- The section names only what Table 12-3 lists (R399). -/
def CpSection.ok (x : CpSection) : Bool := [0, 1, 3, 5, 6].contains x.stype && x.exts.all CpExt.ok

/-- The resource blocks of a section: extension 6 names them where they are not contiguous. -/
def CpSection.prbs (x : CpSection) : List Nat :=
  (x.exts.findSome? (fun e => match e with | .blocks l _ => some l | _ => none)).getD
    ((List.range x.numPrb).map (x.startPrb + ·))

/-- The section is for the symbol at this place of its slot. -/
def CpSection.onSym (x : CpSection) (sym : Nat) : Bool :=
  x.exts.all (fun e => match e with | .blocks _ m => m.testBit (sym % 14) | _ => true)

/-- Scalers of extensions 4 and 5, weights of 1 and 11, further eAxC IDs of 10. -/
def CpSection.scalers (x : CpSection) : List ModScaler := x.exts.flatMap (fun e => match e with | .scalers l => l | _ => [])
def CpSection.weights (x : CpSection) : List BundleWeights := x.exts.flatMap (fun e => match e with | .weights l => l | _ => [])
def CpSection.ports (x : CpSection) : List Nat := x.exts.flatMap (fun e => match e with | .ports l => l | _ => [])

end Sys2Proof

namespace Sys2Proof.Machine

/-- Weights of a section join the set being formed; those that come in the present group's uplink region are late, so they are for the
next group's set and are counted (R347, R405). -/
def State.takeWeights (s : State) (mac at_ : Nat) (x : CpSection) : State :=
  match rxEntries.find? (fun e => s.flowOn e 3 mac) with
  | none => s
  | some e =>
    if x.weights.isEmpty then s
    else
      let a := airOf (s.mer.localAt at_)
      let s := if s.inUplink a then s.flowCount e 7 x.weights.length else s
      let new := x.weights.map (fun b => (b.bundle, b.codes.map (fun c => bfpValue b.width c (if b.meth = 0 then 0 else b.param % 16))))
      let s := s.flowCount e 6 ((new.map (fun q => q.2.countP (·.2))).sum)
      let new : List Weights := new.map (fun q => ⟨q.1, q.2.map (·.1)⟩)
      let (since, base) : Nat × List Weights := match s.wset e with
        | some w => (w.since, w.bundles)
        | none => (a, [])
      let all := base.filter (fun b => !(new.any (fun v => decide (v.bundle = b.bundle)))) ++ new
      s.setWset e (some ⟨since, all⟩)

/-- Section type 0: zero elements at the positions it names (R402). -/
def State.zeroPrbs (s : State) (e t : Nat) (x : CpSection) : State :=
  match s.flowStream e with
  | none => s
  | some n => match s.unitFor e n t with
    | none => s.flowCount e 5
    | some (start, _) =>
      if x.prbs.any (fun p => decide (s.strUnit n < 6 * (p + 1))) then s.flowCount e 4
      else x.prbs.foldl (fun s p => (List.range 6).foldl (fun s i => (s.strOffer n (some (start + 6 * p + i)) ⟨0, 0⟩).2) s) s

/-- One C-plane section whose first symbol is `sym` of frame `frame` (R399, R400, R402, R405); extension 10 makes it govern the flows of
further eAxC IDs. -/
def State.cpSection (s : State) (mac eaxc frame sym at_ : Nat) (x : CpSection) : State :=
  let rx := s.iqEntry rxEntries mac eaxc
  let crec := rxEntries.find? (fun e => s.flowOn e 1 mac)
  if !x.ok then
    match rx.orElse (fun _ => crec) with
    | some e => s.flowCount e 4
    | none => s
  else
    let keys := (eaxc :: x.ports).filterMap (s.iqEntry (if x.downlink then rxEntries else txEntries) mac)
    let mu := match (keys.head?.orElse (fun _ => crec)) with | some e => s.flowMu e | none => 3
    let s := s.creRecord mac eaxc (s.symTime mu frame sym) x
    let s := if x.stype = 5 ∨ x.stype = 6 then s
      else keys.foldl (fun s e => ((List.range x.numSym).filter (fun i => x.onSym (sym + i))).foldl (fun s i =>
          let t := s.symTime (s.flowMu e) frame (sym + i)
          if x.stype = 0 then (if x.downlink then s.zeroPrbs e t x else s)
          else s.hold e ⟨t, x.prbs, x.scalers⟩) s) s
    if x.stype = 1 ∨ x.stype = 3 then s.takeWeights mac at_ x else s

/-- A C-plane message of receive entry `rx` is classified by its first symbol (R402): whether it is early, and its count. -/
def State.cpClass (s : State) (rx frame sym at_ : Nat) : Bool × State :=
  let t := s.symTime (s.flowMu rx) frame sym
  if at_ + s.get (R.FHE_FLOW_KEY rx) F.FHE_FLOW_KEY_EARLY * 10000 < s.stampOfAir t then (true, s.flowCount rx 1)
  else
    let late := match s.flowStream rx with
      | none => false
      | some n => match s.unitFor rx n t with
        | some (_, latest) => decide (latest ≤ at_ * 1536)
        | none => false
    (false, s.flowCount rx (if late then 2 else 0))

/-- A frame joins a MAC's transmit queue. -/
def State.queueFrame (s : State) (mac : Nat) (f : TxFrame) : State :=
  s.setFhe { s.links.fhe with txq := sset (fun _ => []) s.links.fhe.txq mac (sget (fun _ => []) s.links.fhe.txq mac ++ [f]) }

/-- The action type of the answer to a delay measurement of type `a` (R398): a response, or the request that a remote request asks for,
with or without a follow-up (eCPRI 2.0). -/
def delayAnswer (a : Nat) : Nat := match a with | 3 => 0 | 4 => 1 | _ => 2

/-- An eCPRI message (R398, R400). -/
def State.ecpri (s : State) (mac : Nat) (m : Ecpri) : State :=
  let s := (s.reach m.at_).setsDue
  if m.rev ≠ 1 then s.macCount mac 4
  else match m.body with
    | .other => s.macCount mac 4
    | .delay a =>
      if 5 < a then s.macCount mac 4
      else s.queueFrame mac { TxFrame.empty 1 512 with seq := m.seq, delay := some (delayAnswer a, m.at_) }
    | .iq frame sym secs =>
      (match s.iqEntry rxEntries mac m.eaxc with
       | none => s.macCount mac 4
       | some e =>
         if m.frag then s.flowCount e 4 else (s.seqCheck e 0 m.seq).iqMessage e frame sym m.at_ secs)
    | .control frame sym secs =>
      let rx := s.iqEntry rxEntries mac m.eaxc
      let known := rx.isSome || (s.iqEntry txEntries mac m.eaxc).isSome ||
        rxEntries.any (fun e => s.flowOn e 1 mac || s.flowOn e 3 mac)
      if !known then s.macCount mac 4
      else if m.frag then (match rx with | some e => s.flowCount e 4 | none => s.macCount mac 4)
      else
        let (early, s) := match rx with
          | some e => (s.seqCheck e 1 m.seq).cpClass e frame sym m.at_
          | none => (false, s)
        if early then s else secs.foldl (fun s x => s.cpSection mac m.eaxc frame sym m.at_ x) s

end Sys2Proof.Machine
end

