-- ==== Sys2Proof/Machine/Fhe.lean ====
section
/-! DEFINITION. The fronthaul engine's rows (spec/12): frames received and sent, auto-negotiation, framing of transmit units,
the FHE commands. -/

namespace Sys2Proof.Machine

/-- The MAC carries frames. -/
def State.macUp (s : State) (m : Nat) : Bool := decide (m < 16) && s.flag (R.FHE_MAC m) F.FHE_MAC_UP

/-- How a frame is handled (Table 12-2). A second tag makes it a frame that is not accepted. -/
inductive EtherKind where
  | ecpri
  | ptp (udp : Bool)
  | esmc
  | macControl
  | twoTags
  | other
  deriving DecidableEq, Repr

/-- Two bytes of a frame, the first the more significant. -/
def be16 (bs : List Byte) (i : Nat) : Nat := (bs.getD i 0).toNat * 256 + (bs.getD (i + 1) 0).toNat

/-- The UDP destination port of an IPv4 or IPv6 packet that starts at byte `p` of a frame; 0 for any other. -/
def udpPort (bs : List Byte) (ether p : Nat) : Nat :=
  if ether = 0x0800 then
    if bs.getD (p + 9) 0 = 17 ∧ be16 bs (p + 6) % 8192 = 0 then be16 bs (p + (bs.getD p 0).toNat % 16 * 4 + 2) else 0
  else if ether = 0x86DD then (if bs.getD (p + 6) 0 = 17 then be16 bs (p + 42) else 0)
  else 0

/-- A frame's kind, by its bytes after at most one 802.1Q tag of TPID 0x8100 (R395). -/
def etherKind (bs : List Byte) : EtherKind :=
  let o := if be16 bs 12 = 0x8100 then 16 else 12
  let t := be16 bs o
  let port := udpPort bs t (o + 2)
  if t = 0xAEFE then .ecpri
  else if t = 0x88F7 then .ptp false
  else if port = 319 ∨ port = 320 then .ptp true
  else if t = 0x8809 ∧ bs.getD (o + 2) 0 = 0x0A then .esmc
  else if t = 0x8808 then .macControl
  else if t = 0x8100 then .twoTags
  else .other

/-- MAC `mac` has stamped a PTP message that it receives (R397). -/
def State.ptpStampRx (s : State) (mac : Nat) : State :=
  s.setFhe { s.links.fhe with ptpRx := sset (fun _ => none) s.links.fhe.ptpRx mac (some s.stamp) }

/-- A received frame (R395): FCS and length, then its content by its EtherType (Table 12-2). -/
def execEthFrameReceived (mac : Nat) (f : EthFrame) (s : State) : Out :=
  if !s.macUp mac then .next s
  else
    let s := (s.macCount mac 2 f.corrected).macCount mac 3 f.uncorrectable
    if !f.fcs ∨ f.bytes.length < 64 ∨ 9600 < f.bytes.length then .next (s.macCount mac 1)
    else
      let s := s.macCount mac 0
      match etherKind f.bytes, f.content with
      | .ecpri, .ecpri ms => .next (ms.foldl (fun s m => s.ecpri mac m) s)
      | .ecpri, _ => .next (s.macCount mac 4)
      | .ptp udp, .ptp m => .next ((s.ptpStampRx mac).ptpMessage mac { m with udp := udp })
      | .ptp _, _ => .next (s.ptpStampRx mac)
      | .esmc, .esmc ql => .next (s.esmcMessage mac ql)
      | .esmc, _ => .next s
      | .macControl, _ => .next (s.macCount mac 4)
      | .twoTags, _ => .next (s.macCount mac 4)
      | .other, _ =>
        match rxEntries.find? (fun e => s.flowOn e 2 mac) with
        | some e => .next (s.flowSend e (markEnds (packBytes f.bytes)))
        | none => .next (s.macCount mac 4)

/-- Clause 73 negotiation ends with the mode of ETH_SET bit `bit` (R393). `fec` is what a 25 Gbit/s mode has negotiated. -/
def execEthAutonegComplete (mac bit : Nat) (fec : Bool) (s : State) : Out :=
  let ls := s.groupLanes 1 mac
  match ls.head? with
  | none => .next s
  | some n0 =>
    match laneRecOf s.svy.recs n0 with
    | none => .next s
    | some r =>
      let offered := (List.range 5).filter (fun b => r.f 3 (24 + b) (24 + b) == 1 && decide ((ethMode b).2.2 ≤ ls.length))
      if s.laneState n0 ≠ laneTRAINING ∨ !(offered.contains bit) ∨ r.f 3 29 29 = 1 then .next s
      else
        let best := offered.foldl max 0
        let s := if bit < best then s.mismatch 2 n0 4 best bit else s
        let (kbps, pam4, k) := ethMode bit
        let s := (ls.take k).foldl (fun s n => s.setLaneRate n kbps pam4) s
        let s := (ls.drop k).foldl (fun s n => s.setLaneState n laneDOWN) s
        let on := if bit = 0 then false else if bit = 1 then fec else true
        .next (((s.put (R.FHE_MAC mac) F.FHE_MAC_MODE (1 + bit)).put (R.FHE_MAC mac) F.FHE_MAC_AN_DONE 1).put
          (R.FHE_MAC mac) F.FHE_MAC_FEC_ON (b2n on))

/-- The source address of MAC `m` (R396). -/
def macAddr (m : Nat) : Nat := (Config.macBase.toNat + m) % 2 ^ 48

/-- A frame leaves MAC `mac` with its source address, and with the device stamp of its start at the PCS (R396 to R398). -/
def State.frameOut (s : State) (mac : Nat) (f : TxFrame) : State :=
  let f := { f with src := macAddr mac, stamp := s.stamp }
  (s.setFhe { s.links.fhe with sent := sset (fun _ => none) s.links.fhe.sent mac (some f) }).macCount mac 5

/-- MAC `mac` has stamped a PTP message that it sends (R397). -/
def State.ptpStampTx (s : State) (mac : Nat) : State :=
  s.setFhe { s.links.fhe with ptpTx := sset (fun _ => none) s.links.fhe.ptpTx mac (some s.stamp) }

/-- The transmit HOST flow of a MAC takes elements up to the end of a frame (LAST); the frame's bytes once it is whole. -/
def State.hostFrame (s : State) (e : Nat) : Nat → Option (List Byte) × State
  | 0 => (none, s)
  | k + 1 =>
    match s.flowStream e with
    | none => (none, s)
    | some n =>
      match s.strTake n with
      | (none, s) => (none, s)
      | (some x, s) =>
        let held := sget (fun _ => []) s.links.fhe.hostTx e
        let bs : List Byte := if x.isSeam || x.isGap then []
          else (List.range 8).map (fun i => BitVec.ofNat 8 (x.data.toNat / 2 ^ (8 * (7 - i))))
        let all := if x.isSeam || x.isGap then [] else held ++ bs
        let last := !x.isSeam && !x.isGap && x.sb.getLsbD 1
        let s := s.setFhe { s.links.fhe with hostTx := sset (fun _ => []) s.links.fhe.hostTx e (if last then [] else all) }
        if last then (some all, s) else s.hostFrame e k

/-- The next entry after pointer `p` for which a frame is queued (R396). -/
def nextEntry (q : List TxFrame) (p : Nat) : Option Nat :=
  ((List.range 256).map (fun i => 256 + (p - 256 + i) % 256)).find? (fun e => q.any (fun f => decide (f.entry = e)))

/-- The MAC's transmitter picks a frame (R396): PTP first (`ptp` says the meridian unit has one), then eCPRI, answers to delay
measurements before flow entries in round-robin, then the HOST flow. -/
def execEthFrameTransmit (mac : Nat) (ptp : Bool) (s : State) : Out :=
  if !s.macUp mac then .next s
  else if ptp then .next ((s.ptpStampTx mac).frameOut mac (TxFrame.empty 0 0))
  else
    let q := sget (fun _ => []) s.links.fhe.txq mac
    let ptr := sget (fun _ => 256) s.links.fhe.rr mac
    let pick := if q.any (fun f => decide (f.entry = 512)) then some 512 else nextEntry q ptr
    match pick with
    | some e =>
      (match q.find? (fun f => decide (f.entry = e)) with
       | none => .next s
       | some f =>
         let s := s.setFhe { s.links.fhe with
           txq := sset (fun _ => []) s.links.fhe.txq mac (q.erase f),
           rr := sset (fun _ => 256) s.links.fhe.rr mac (if e = 512 then ptr else 256 + (e - 255) % 256) }
         let late := match f.due with | some d => decide (d < s.airNow) | none => false
         let s := if e = 512 then s else s.flowCount e 0
         .next ((if late then s.flowCount e 2 else s).frameOut mac f))
    | none =>
      match txEntries.find? (fun e => s.flowOn e 2 mac) with
      | none => .next s
      | some e =>
        let k := match s.flowStream e with | some n => (s.stream n).inbox.length | none => 0
        (match s.hostFrame e k with
         | (some bs, s) => .next ((s.flowCount e 0).frameOut mac { TxFrame.empty 2 e with bytes := bs })
         | (none, s) => .next s)

/-- One block of a unit taken, compressed: a block that holds a gap is sent as zeros (R404). -/
def State.txPrb (s : State) (e : Nat) (u : List (Option Elem)) (p : Nat) : Prb × State :=
  let els := (List.range 6).map (fun i => u.getD (6 * p + i) none)
  if els.any Option.isNone then (⟨0, List.replicate 24 0⟩, s.flowCount e 1)
  else
    let vs : List Int := els.flatMap (fun x => match x with
      | some x => [sgn 16 x.data.toNat, sgn 16 (x.data.toNat / 2 ^ 16), sgn 16 (x.data.toNat / 2 ^ 32), sgn 16 (x.data.toNat / 2 ^ 48)]
      | none => [0, 0, 0, 0])
    let (b, sat) := compressPrb (s.flowWidth e) vs
    (b, s.flowCount e 6 sat)

/-- Messages of one uplink section (R404): resource blocks that fit 9 600 bytes to a message, beside 18 bytes of eCPRI and
O-RAN headers. -/
def State.txSection (s : State) (e sym due : Nat) (u : List (Option Elem)) (h : HeldSection) : State :=
  let mac := s.get (R.FHE_FLOW_KEY e) F.FHE_FLOW_KEY_MAC
  let per := max 1 ((9600 - 18) / prbBytes (s.flowComp e) (s.flowWidth e))
  (List.range ((h.prbs.length + per - 1) / per)).foldl (fun s i =>
    let ps := (h.prbs.drop (i * per)).take per
    let (bs, s) := ps.foldl (fun (r : List Prb × State) p =>
      let (b, s) := r.2.txPrb e u p
      (r.1 ++ [b], s)) ([], s)
    let q := sget (fun _ => 0) s.links.fhe.seqNext e
    let s := s.setFhe { s.links.fhe with seqNext := sset (fun _ => 0) s.links.fhe.seqNext e ((q + 1) % 256) }
    s.queueFrame mac { TxFrame.empty 1 e with seq := q, sym := sym, at_ := ps, prbs := bs, due := some due }) s

/-- A whole unit of a transmit IQ flow is framed (R401, R404). -/
def State.txUnit (s : State) (e : Nat) (u : List (Option Elem)) : State :=
  let mu := s.flowMu e
  let units := sget (fun _ => []) s.links.fhe.units e
  let s := s.setFhe { s.links.fhe with units := sset (fun _ => []) s.links.fhe.units e (units.drop 1) }
  match units.head?.bind (fun r => unitSym mu (s.flowOfs e) r.1) with
  | none => s.flowCount e 5
  | some sym =>
    let secs := (s.heldOf e).filter (fun h => decide (h.sym = sym))
    if secs.isEmpty then s.flowCount e 5
    else
      let due := gridAt mu (gridOf mu sym + 1) + s.get (R.FHE_FLOW_CFG e) F.FHE_FLOW_CFG_WIN_US * 12288
      secs.foldl (fun s h => s.txSection e sym due u h) s

/-- The positions a transmit flow has taken of its present unit. -/
def State.taking (s : State) (e : Nat) : List (Option Elem) := sget (fun _ => []) s.links.fhe.taking e
def State.setTaking (s : State) (e : Nat) (l : List (Option Elem)) : State :=
  s.setFhe { s.links.fhe with taking := sset (fun _ => []) s.links.fhe.taking e l }

/-- One element of a transmit IQ flow's stream: positions up to RELEASE_LEN make a unit; a seam ends one; after a gap of COUNT 0
everything up to the seam is a gap (R404). -/
def State.txTake (s : State) (e len : Nat) (x : Elem) : State :=
  let cur := s.taking e
  let lost := sget (fun _ => false) s.links.fhe.gapToSeam e
  if x.isSeam then
    let s := (s.setTaking e []).setFhe { (s.setTaking e []).links.fhe with gapToSeam := sset (fun _ => false) s.links.fhe.gapToSeam e false }
    if cur.isEmpty && !lost then s else s.txUnit e cur
  else if x.isGap && decide (x.count = 0) then
    s.setFhe { s.links.fhe with gapToSeam := sset (fun _ => false) s.links.fhe.gapToSeam e true }
  else if lost then s
  else
    let new := if x.isGap then List.replicate x.count none else [some x]
    let all := cur ++ new
    if len ≤ all.length then (s.setTaking e []).txUnit e (all.take len) else s.setTaking e all

/-- A transmit IQ flow takes what its buffer has delivered, and frames each unit that is whole (R404). -/
def execTxIqUnitFraming (f : Nat) (s : State) : Out :=
  let e := 256 + f
  match s.flowStream e with
  | none => .next s
  | some n =>
    if 256 ≤ f ∨ !s.flag (R.FHE_FLOW_KEY e) F.FHE_FLOW_KEY_VALID ∨ s.get (R.FHE_FLOW_KEY e) F.FHE_FLOW_KEY_KIND ≠ 0 then .next s
    else
      let len := max 1 (s.strUnit n)
      .next ((List.range (s.stream n).inbox.length).foldl (fun s _ =>
        match s.strTake n with
        | (some x, s) => s.txTake e len x
        | (none, s) => s) s)

/-! ### Commands (R418 to R421) -/

/-- FHE.STATUS (R419). -/
def execFheStatus (mb : Nat) (s : State) : Out := .next <| runCommand spec_FHE_STATUS noFields
  (fun c s =>
    let m := c.n 2 3 0
    .ok s (s.rd (R.FHE_MAC m) :: (List.range 6).map (fun k => s.rd (R.FHE_MCOUNT m k)))) mb s

/-- What FHE.FLOW finds wrong with an entry that is to be valid (R420). -/
def flowBad (c : Cmd) (s : State) : Bool :=
  let kind := c.n 3 30 28
  let comp := c.n 4 29 28
  let w := c.n 4 27 24
  c.b 3 31 && (decide (3 < kind) || decide (comp = 3) || (c.b 2 31 && (decide (kind = 1) || decide (kind = 3))) ||
    (decide (comp = 1) && !([8, 9, 12, 14].contains w)) || (decide (comp = 2) && !([1, 2, 3, 4].contains w)) ||
    decide (c.n 4 31 30 = 0) || (s.groupLanes 1 (c.n 3 27 24)).isEmpty)

/-- FHE.FLOW (R400, R420). -/
def execFheFlow (mb : Nat) (s : State) : Out := .next <| runCommand spec_FHE_FLOW (fun c s => badIf (flowBad c s))
  (fun c s =>
    let e := (if c.b 2 31 then 256 else 0) + c.n 2 7 0
    let dir := if c.b 2 31 then txEntries else rxEntries
    let twin := c.b 3 31 && decide (c.n 3 30 28 = 0) &&
      (dir.filter (· ≠ e)).any (fun x => s.flowOn x 0 (c.n 3 27 24) && s.flowEaxc x == c.n 3 15 0)
    if (s.flowStream e).isSome || twin then .code .REFUSED_IN_USE s
    else
      let s := (((s.wr (R.FHE_FLOW_KEY e) (c.w 3)).wr (R.FHE_FLOW_CFG e) (c.w 4)).wr (R.FHE_FLOW_DST_LO e) (c.w 5)).wr
        (R.FHE_FLOW_DST_HI e) (c.w 6)
      let s := (List.range 8).foldl (fun s k => s.wr (R.FHE_FCOUNT e k) 0) s
      let f := s.links.fhe
      .ok (s.setFhe { f with
        seqLast := sdel (sdel f.seqLast (2 * e)) (2 * e + 1), seqNext := sdel f.seqNext e, held := sdel f.held e,
        units := sdel f.units e, wset := sdel f.wset e, gapToSeam := sdel f.gapToSeam e, taking := sdel f.taking e,
        hostTx := sdel f.hostTx e })) mb s

/-- FHE.COUNTERS (R421). -/
def execFheCounters (mb : Nat) (s : State) : Out := .next <| runCommand spec_FHE_COUNTERS noFields
  (fun c s =>
    let (d, s') := s.counters ((List.range 8).map (R.FHE_FCOUNT (c.n 2 8 0))) (c.b 2 31)
    .ok s' d) mb s

end Sys2Proof.Machine
end

