-- ==== Sys2Proof/Machine/MemOps.lean ====
section
/-! DEFINITION. The store tier and external memory (spec/16): regions and their reach, ECC outcomes, the external map, KeyID
resolution, partitions, and the memory guard's lines, counters and tree. -/

namespace Sys2Proof

/-- A read of external memory that finds what was written. -/
def ExtRead.ordinary : ExtRead := ⟨0, .clean, none⟩
/-- A line served with nothing amiss. -/
def GuardSeen.ordinary : GuardSeen := ⟨.ordinary, [], [], []⟩

/-- A request of 1 to 128 bytes with as many bytes of data when it writes. -/
def MemReq.ok (q : MemReq) : Bool :=
  decide (1 ≤ q.len) && decide (q.len ≤ 128) && decide (q.addr < 2 ^ 48) && (!q.write || decide (q.data.length = q.len))

end Sys2Proof

namespace Sys2Proof.Machine

/-! ### Store tier (R518 to R524) -/

/-- The tenant that holds a KeyID has UBTOR set. -/
def State.ubtorMay (s : State) (k : Nat) : Bool := s.tenants.any (fun r => decide (r.keyId = k) && r.f 1 15 15 == 1)

/-- Bits 47:42 of an address: its KeyID (R53). -/
def keyIdOf (a : Nat) : Nat := a / 2 ^ 42

/-- Bits 35:0 of an address: the offset in external memory (R53). -/
def extOff (a : Nat) : Nat := a % 2 ^ 36

/-- The KeyID of a request's address (R53) and the one it resolves to (R529); none when both are non-zero and differ, or Ubtor names a
KeyID it may not use. -/
def State.keyOf (s : State) (q : MemReq) (a : Nat) : Option Nat :=
  match q.key with
  | none => some a
  | some k =>
    if q.cls = 0 ∧ k ≠ 0 ∧ s.ubtorMay k = false then none
    else if a = k ∨ k = 0 then some a
    else if a = 0 then some k
    else none

/-- A request of class `cls` under KeyID `k` reaches store-tier offset `o` (Table 16-1, R520). -/
def State.storeReach (s : State) (cls k o : Nat) : Bool :=
  if o < 0xC0000000 then decide (cls = 0 ∨ cls = 1)
  else if o < 0xC1000000 then decide (cls = 0)
  else if o < 0xC8000000 then decide (cls = 0 ∨ cls = 1 ∨ ((cls = 3 ∨ cls = 5) ∧ k = 0))
  else if o < 0xCFE00000 then
    decide (k ≠ 0 ∧ k = (o - 0xC8000000) / 0x200000 + 1) && (decide (cls = 3 ∨ cls = 5) || (decide (cls = 0) && s.ubtorMay k))
  else if o < 0xE0000000 then false
  else if o < 0xF0000000 then decide (cls = 0)
  else decide (cls = 4)

/-- Bytes of a sparse memory. -/
def bytesAt (m : Sparse Byte) (a n : Nat) : List Byte := (List.range n).map (fun i => sget (fun _ => (0 : Byte)) m (a + i))

/-- A sparse memory with bytes written. -/
def putBytes (m : Sparse Byte) (a : Nat) (bs : List Byte) : Sparse Byte :=
  bs.zipIdx.foldl (fun m p => sset (fun _ => (0 : Byte)) m (a + p.2) p.1) m

/-- A corrected store-tier word (R522). -/
def State.storeCe (s : State) (o : Nat) : State := (s.bump (R.STC_COUNT 0)).report 0x40 (o / 256 % 8)

/-- An uncorrectable store-tier word (R522). -/
def State.storeUe (s : State) (o : Nat) : State :=
  let w := word (o / 32 * 32)
  ((s.bump (R.STC_COUNT 1)).wr R.STC_ECC_ADDR w).report 0x41 (o / 256 % 8) [w]

/-- A store-tier request (R519, R522). -/
def State.storeAccess (s : State) (q : MemReq) (ecc : EccSeen) : State × MemAns :=
  let o := q.addr % 2 ^ 32
  match s.keyOf q 0 with
  | none => (s, ⟨2, []⟩)
  | some k =>
    if o + q.len ≤ 2 ^ 32 ∧ (List.range q.len).all (fun i => s.storeReach q.cls k (o + i)) then
      if q.write then ({ s with store := putBytes s.store o (q.data.take q.len) }, ⟨0, []⟩)
      else match ecc with
        | .clean => (s, ⟨0, bytesAt s.store o q.len⟩)
        | .corrected => (s.storeCe o, ⟨0, bytesAt s.store o q.len⟩)
        | .uncorrectable => (s.storeUe o, ⟨6, []⟩)
    else (s, ⟨2, []⟩)

/-- The refresh code of a band (Table 16-2). -/
def refreshOf (b : Nat) : Nat := if b < 3 then 0 else if b = 3 then 1 else 2

/-- The store tier follows band `b` (R524); a change of the refresh rate is counted. -/
def State.storeBand (s : State) (b : Nat) : State :=
  let old := s.get R.STC_STATUS F.STC_STATUS_REFRESH
  let s := (s.put R.STC_STATUS F.STC_STATUS_BAND b).put R.STC_STATUS F.STC_STATUS_REFRESH (refreshOf b)
  if old = refreshOf b then s else s.bump (R.STC_COUNT 2)

/-- The scrub period of a band in ns (R523). -/
def scrubPeriod (b : Nat) : Nat := (if b < 3 then 8 else if b = 3 then 4 else 2) * 3600000000000

/-- The groups are in self-refresh: from E1 of Table 14-5 until X3, and in TRIPPED. -/
def State.selfRefresh (s : State) : Bool := decide (s.pwr.dorm ≠ .none) || decide (s.sys.dev = .tripped)

/-- The groups scrub: the store tier runs and is not in self-refresh. -/
def State.scrubs (s : State) : Bool := decide (s.sys.dev ≠ .off) && decide (s.sys.dev ≠ .boot) && !s.selfRefresh

/-- STC_STATUS as read: scrub passes follow one another while the groups scrub; self-refresh in DORMANT and TRIPPED. -/
def State.stcStatus (s : State) : Word :=
  let w := F.STC_STATUS_SCRUBBING.put (s.rd R.STC_STATUS) (if s.scrubs then 0xFF else 0)
  F.STC_STATUS_SELF_REFRESH.put w (b2n s.selfRefresh)

/-! ### The external map (R527, R528) -/

/-- The fitted channels. -/
def State.fitted (s : State) : List Nat := (List.range 4).filter (fun c => (s.get R.XMC_STATUS F.XMC_STATUS_FITTED).testBit c)

/-- The installed capacity in bytes. -/
def State.extSize (s : State) : Nat := s.fitted.length * s.get R.XMC_STATUS F.XMC_STATUS_GIB * 2 ^ 30

/-- The channel of an offset. -/
def State.extChannel (s : State) (o : Nat) : Nat :=
  match s.fitted with
  | [a, b] => if o / 256 % 2 = 0 then a else b
  | [a] => a
  | l => l.getD (o / 256 % 4) 0

/-- The protected payload and the plain base in bytes. -/
def State.extP (s : State) : Nat := s.get R.XMC_MAP F.XMC_MAP_P_GIB * 2 ^ 30
def State.plainBase (s : State) : Nat := s.get R.XMC_MAP F.XMC_MAP_PLAIN_BASE * 2 ^ 26

/-- Nodes at a level of the tree of payload `p` (R532); level 0 counts lines. -/
def treeN (p : Nat) : Nat → Nat
  | 0 => p / 64
  | l + 1 => (treeN p l + 7) / 8

/-- The start of the nodes of level `l + 1` (Table 16-5). -/
def treeBase (p : Nat) : Nat → Nat
  | 0 => p + p / 4
  | l + 1 => treeBase p l + 64 * treeN p (l + 1)

/-- The metadata of a node of level `l`. -/
def nodeMeta (p l n : Nat) : Nat :=
  treeBase p 9 + 16 * (((List.range (l - 1)).map (fun j => treeN p (j + 1))).foldl (· + ·) 0 + n)

/-- C(P), a multiple of 64 MiB (R528). -/
def carve (p : Nat) : Nat :=
  let i := ((List.range 8).map (fun j => treeN p (j + 2))).foldl (· + ·) 0
  (p / 4 + p / 8 + p / 32 + 80 * i + 2 ^ 26 - 1) / 2 ^ 26 * 2 ^ 26

/-- P for an installed capacity with tenants (R528). -/
def payloadOf (m : Nat) : Nat :=
  (([32, 16, 8, 4, 2, 1].map (fun g => g * 2 ^ 30)).find? (fun p => decide (p + carve p ≤ m))).getD 0

/-- How a request for external memory is handled (R529, Table 16-4). -/
inductive ExtRoute where
  | refuse (status : Nat)
  | plain
  | guard (k : Nat)
  deriving DecidableEq, Repr

/-- The partition of a KeyID: base and size in bytes. -/
def State.part (s : State) (k : Nat) : Option (Nat × Nat) :=
  if s.flag (R.MGD_PART k) F.MGD_PART_VALID then
    some (s.get (R.MGD_PART k) F.MGD_PART_BASE * 2 ^ 26, s.get (R.MGD_PART k) F.MGD_PART_SIZE * 2 ^ 26)
  else none

/-- A master class may use a KeyID other than 0 (R529). -/
def State.classMay (s : State) (q : MemReq) (k : Nat) : Bool :=
  (decide (q.cls = 3 ∨ q.cls = 5) && q.key == some k) || (decide (q.cls = 0) && s.ubtorMay k)

/-- Table 16-4, the request at offset `o` with the KeyID `key` it resolves to. -/
def State.routeAt (s : State) (q : MemReq) (o : Nat) (key : Option Nat) : ExtRoute :=
  if s.extSize < o + q.len then .refuse 1
  else match key with
    | none => .refuse 5
    | some 0 => if s.plainBase ≤ o then .plain else .refuse 5
    | some k =>
      match s.part k with
      | some (b, n) => if s.classMay q k && decide (b ≤ o) && decide (o + q.len ≤ b + n) then .guard k else .refuse 5
      | none => .refuse 5

/-- Table 16-4. -/
def State.extRoute (s : State) (q : MemReq) : ExtRoute := s.routeAt q (extOff q.addr) (s.keyOf q (keyIdOf q.addr))

/-! ### Lines and nodes (R531 to R538) -/

/-- What the guard obtains: a value, an integrity failure (cause and channel), or a read whose link ECC failed three times. -/
inductive Got (α : Type) where
  | ok (v : α) (s : State)
  | halt (cause chan : Nat) (s : State)
  | noEcc (chan : Nat) (s : State)

/-- Go on with a value obtained. -/
def Got.bind {α β : Type} (g : Got α) (f : α → State → Got β) : Got β :=
  match g with
  | .ok v s => f v s
  | .halt c ch s => .halt c ch s
  | .noEcc ch s => .noEcc ch s

/-- Link ECC re-reads of a read (R526): at most two, then ERR_ECC. -/
def State.rereads (s : State) (x : ExtRead) (ch : Nat) : Bool × State :=
  let s := (List.range (min x.rereads 2)).foldl (fun s _ => (s.bump (R.XMC_COUNT 0)).report 0x42 ch) s
  if 3 ≤ x.rereads then (false, s.bump (R.XMC_COUNT 1)) else (true, s)

/-- The guard reads 64 bytes and their tag (R531): data, tag and whether the ECC found an uncorrectable error. -/
def State.guardFetch (s : State) (x : ExtRead) (a m : Nat) : Got (List Byte × BitVec 64 × Bool) :=
  let ch := s.extChannel a
  let (good, s) := s.rereads x ch
  if !good then .noEcc ch s
  else
    let s := if x.ecc = .corrected then (s.bump (R.MGD_COUNT 1)).report 0x43 ch else s
    let d := match x.other with
      | some o => o
      | none => (bytesAt s.mem.ext a 64, BitVec.ofNat 64 (le (bytesAt s.mem.ext m 8) 0 8))
    .ok (d.1, d.2, decide (x.ecc = .uncorrectable)) s

/-- The guard writes 64 bytes with their tag and ECC (R531). -/
def State.guardStore (s : State) (a m : Nat) (bs : List Byte) (tag : BitVec 64) : State :=
  let e := putBytes s.mem.ext a (bs.take 64)
  let tagB := (List.range 8).map (fun i => BitVec.ofNat 8 (tag.toNat / 2 ^ (8 * i)))
  let ecc := Config.lineEcc bs tag
  let eccB := (List.range 8).map (fun i => BitVec.ofNat 8 (ecc.toNat / 2 ^ (8 * i)))
  { s with mem := { s.mem with ext := putBytes e m (tagB ++ eccB) } }

/-- The eight counters of a node's bytes, little-endian. -/
def nodeCtrs (bs : List Byte) : List Nat := (List.range 8).map (fun i => le bs (8 * i) 8)

/-- A node's bytes. -/
def nodeBytes (cs : List Nat) : List Byte :=
  (List.range 8).flatMap (fun i => (List.range 8).map (fun b => BitVec.ofNat 8 (cs.getD i 0 / 2 ^ (8 * b))))

/-- Key of node `n` of level `l` in the caches. -/
def nodeKey (l n : Nat) : Nat := l * 2 ^ 40 + n

/-- The node in the counter cache. -/
def State.cached (s : State) (l n : Nat) : Option CNode := sget (fun _ => none) s.mem.cache (nodeKey l n)

/-- Put a node into the counter cache. -/
def State.setCached (s : State) (l n : Nat) (c : Option CNode) : State :=
  { s with mem := { s.mem with cache := sset (fun _ => none) s.mem.cache (nodeKey l n) c } }

/-- The node in the backing copy. -/
def State.backed (s : State) (l n : Nat) : Option (List Nat) := sget (fun _ => none) s.mem.backing (nodeKey l n)

/-- Keep an unmodified node in the backing copy, which holds 4 194 304; when it is full the entry of the lowest key goes. -/
def State.setBacked (s : State) (l n : Nat) (c : Option (List Nat)) : State :=
  let b := sset (fun _ => none) s.mem.backing (nodeKey l n) c
  { s with mem := { s.mem with backing := if 4194304 < b.length then b.drop 1 else b } }

/-- Upset copies of the root counters, as the guard will find them. -/
def State.upset (s : State) (u : List (Nat × Nat × Nat)) : State :=
  u.foldl (fun s x =>
    let r := s.mem.roots.getD x.1 (0, 0, 0)
    let r := match x.2.1 with
      | 0 => (x.2.2, r.2.1, r.2.2)
      | 1 => (r.1, x.2.2, r.2.2)
      | _ => (r.1, r.2.1, x.2.2)
    { s with mem := { s.mem with roots := s.mem.roots.set x.1 r } }) s

/-- The use of root counter `r` (R538): a single copy that differs is rewritten; three different values halt. -/
def State.rootUse (s : State) (r : Nat) : Got Nat :=
  let (a, b, c) := s.mem.roots.getD r (0, 0, 0)
  if a = b ∧ b = c then .ok a s
  else if a = b ∨ a = c ∨ b = c then
    let v := if b = c then b else a
    .ok v ((({ s with mem := { s.mem with roots := s.mem.roots.set r (v, v, v) } }).bump (R.MGD_COUNT 2)).report 0x44 r)
  else .halt 4 0xFF s

/-- The backing copy of a node proves uncorrectable (R522, R534): it is discarded. Where it lies in the backing copy's 256 MiB the
spec does not say: the offset is open. -/
def State.backingLost (s : State) (l n : Nat) : State :=
  let (i, s) := (s.setBacked l n none).draw
  (s.storeUe (0xD0000000 + (Config.freeWord i).toNat % 2 ^ 28)).bump (R.MGD_COUNT 5)

/-- Node `n` of level 9 − `up`, brought into the counter cache and verified (R533, R534, R535). -/
def State.node (g : GuardSeen) : Nat → Nat → State → Got (List Nat)
  | up, n, s =>
    match s.cached (9 - up) n with
    | some c => .ok c.ctrs s
    | none =>
      let l := 9 - up
      let s := s.bump (R.MGD_COUNT 4)
      match s.backed l n, g.backingBad.contains l with
      | some cs, false => .ok cs (s.setCached l n (some ⟨cs, false⟩))
      | b, _ =>
        let s := if b.isSome then s.backingLost l n else s
        let up1 : Got Nat := match up with
          | 0 => s.rootUse n
          | k + 1 => (State.node g k (n / 8) s).bind (fun cs s => .ok (cs.getD (n % 8) 0) s)
        up1.bind (fun c s =>
          if c = 0 then .ok (List.replicate 8 0) (s.setCached l n (some ⟨List.replicate 8 0, false⟩))
          else
            let p := s.extP
            let a := treeBase p (l - 1) + 64 * n
            let x := ((g.nodes.find? (fun e => decide (e.1 = l))).map (·.2)).getD .ordinary
            (s.guardFetch x a (nodeMeta p l n)).bind (fun d s =>
              if d.2.2 then .halt 3 (s.extChannel a) s
              else if Config.nodeTag s.mem.tagKey d.1 l n c ≠ d.2.1 then .halt 2 (s.extChannel a) s
              else .ok (nodeCtrs d.1) (s.setCached l n (some ⟨nodeCtrs d.1, false⟩))))

/-- The counter block of block `j` of line `i` under KeyID `k` with counter `c` (R531). -/
def ctrBlock (k i j c : Nat) : BitVec 128 :=
  BitVec.ofNat 128 (k % 64 * 2 ^ 122 + i % 2 ^ 29 * 2 ^ 93 + j % 4 * 2 ^ 91 + c % 2 ^ 64)

/-- The key of a KeyID (R540). -/
def State.tenantKey (s : State) (k : Nat) : BitVec 256 := sget (fun _ => (0 : BitVec 256)) s.mem.keys k

/-- AES-256 in counter mode over a line: encryption and decryption alike. -/
def State.lineCrypt (s : State) (k i c : Nat) (bs : List Byte) : List Byte :=
  (List.range 4).flatMap (fun j =>
    toBe 16 ((BitVec.ofNat 128 (be (cut bs (16 * j) 16)) ^^^ Config.aes256 (s.tenantKey k) (ctrBlock k i j c)).toNat))

/-- A line's tag over its ciphertext (R531). -/
def State.lineTag (s : State) (k i c : Nat) (ct : List Byte) : BitVec 64 :=
  let h := Config.aes256 s.mem.tagKey 0
  BitVec.ofNat 64 ((Config.aes256 s.mem.tagKey (Config.ghash h ct ^^^ ctrBlock k i 0 c)).toNat / 2 ^ 64)

/-- The counter of line `i`, its leaf brought into the counter cache. -/
def State.lineCtr (s : State) (g : GuardSeen) (i : Nat) : Got Nat :=
  (State.node g 8 (i / 8) s).bind (fun cs s => .ok (cs.getD (i % 8) 0) s)

/-- A verified line's plaintext, given its counter (R533, R535, R538). -/
def State.lineRead (s : State) (g : GuardSeen) (k i c : Nat) : Got (List Byte) :=
  if c = 0 then .ok (List.replicate 64 0) s
  else
    let a := 64 * i
    (s.guardFetch g.line a (s.extP + 16 * i)).bind (fun d s =>
      if d.2.2 then .halt 5 (s.extChannel a) s
      else if s.lineTag k i c d.1 ≠ d.2.1 then .halt 1 (s.extChannel a) s
      else .ok (s.lineCrypt k i c d.1) s)

/-- A protected read of line `i` (R535). -/
def State.guardRead (s : State) (g : GuardSeen) (k i : Nat) : Got (List Byte) :=
  ((s.upset g.roots).lineCtr g i).bind (fun c s => (s.lineRead g k i c).bind (fun bs s => .ok bs (s.bump (R.MGD_COUNT 0))))

/-- A protected write of `bs` at offset `o` within line `i` (R536): a partial line is read and verified first. -/
def State.guardWrite (s : State) (g : GuardSeen) (k i o : Nat) (bs : List Byte) : Got Unit :=
  ((s.upset g.roots).lineCtr g i).bind (fun c s =>
    let old : Got (List Byte) :=
      if bs.length = 64 then .ok [] s
      else if c = 0 then .ok (List.replicate 64 0) s
      else (s.lineRead g k i c).bind (fun b s => .ok b (s.bump (R.MGD_COUNT 0)))
    old.bind (fun b s =>
      let line := b.take o ++ bs ++ b.drop (o + bs.length)
      let n := i / 8
      let cs := match s.cached 1 n with | some x => x.ctrs | none => List.replicate 8 0
      let c := c + 1
      let s := s.setCached 1 n (some ⟨cs.set (i % 8) c, true⟩)
      let ct := s.lineCrypt k i c line
      .ok () (s.guardStore (64 * i) (s.extP + 16 * i) ct (s.lineTag k i c ct))))

/-- The lines a request touches: line index, offset in the line, bytes. -/
def linesOf (o len : Nat) : List (Nat × Nat × Nat) :=
  if len = 0 then []
  else (List.range ((o + len - 1) / 64 - o / 64 + 1)).map (fun j =>
    let i := o / 64 + j
    let a := max o (64 * i)
    (i, a - 64 * i, min (o + len) (64 * i + 64) - a))

/-- The guard serves a request line by line (R535, R536). -/
def State.guardServe (s : State) (gs : List GuardSeen) (k : Nat) (q : MemReq) : Got (List Byte) :=
  let o := extOff q.addr
  (linesOf o q.len).zipIdx.foldl (fun acc x =>
    acc.bind (fun out s =>
      let g := gs.getD x.2 .ordinary
      if q.write then
        (s.guardWrite g k x.1.1 x.1.2.1 ((q.data.drop (64 * x.1.1 + x.1.2.1 - o)).take x.1.2.2)).bind (fun _ s => .ok out s)
      else (s.guardRead g k x.1.1).bind (fun bs s => .ok (out ++ cut bs x.1.2.1 x.1.2.2) s))) (.ok [] s)

/-- A modified node leaves the counter cache: its counter in the parent goes up, the node is written with a new tag (R534). -/
def State.evict (s : State) (g : GuardSeen) (l n : Nat) (cs : List Nat) : Got Unit :=
  let s := s.upset g.roots
  let up : Got Nat :=
    if l = 9 then
      (s.rootUse n).bind (fun c s => .ok (c + 1) { s with mem := { s.mem with roots := s.mem.roots.set n (c + 1, c + 1, c + 1) } })
    else
      (State.node g (8 - l) (n / 8) s).bind (fun ps s =>
        let c := ps.getD (n % 8) 0 + 1
        .ok c (s.setCached (l + 1) (n / 8) (some ⟨ps.set (n % 8) c, true⟩)))
  up.bind (fun c s =>
    let bs := nodeBytes cs
    let s := s.guardStore (treeBase s.extP (l - 1) + 64 * n) (nodeMeta s.extP l n) bs (Config.nodeTag s.mem.tagKey bs l n c)
    .ok () ((s.setCached l n none).setBacked l n (some cs)))

/-! ### Responses -/

/-- A memory interface answers a request: the response is kept for its source, and sent over the graticule when it came that way. -/
def State.memAnswer (s : State) (q : MemReq) (a : MemAns) : State :=
  let s := { s with mem := { s.mem with answers := sset (fun _ => none) s.mem.answers q.src (some a) } }
  match q.tag with
  | some t =>
    let ni := if q.addr < 2 ^ 33 then storeNi (q.addr / 256 % 8) else lpNi (s.extChannel (extOff q.addr))
    s.respond ni q.src t q.cls a.status q.len a.data
  | none => s

/-- The memory interfaces answer: the device is neither off nor HALTED (R539). -/
def State.memServes (s : State) : Bool := decide (s.sys.dev ≠ .off) && decide (s.sys.dev ≠ .halted)

/-! ### Survey commit (R527, R528, R530, R533) -/

/-- The tenants in ascending KeyID order. -/
def State.keyOrder (s : State) : List SvyRec := s.tenants.mergeSort (fun a b => decide (a.keyId ≤ b.keyId))

/-- The external map, partitions and roots at survey commit; `rate` is the trained rate code. -/
def State.memCommit (s : State) (rate : Nat) : State :=
  let b := (s.recsOf 0x0001).headD ⟨1, 0, []⟩
  let mask := b.f 2 15 12
  let s := (s.put R.XMC_STATUS F.XMC_STATUS_FITTED mask).put R.XMC_STATUS F.XMC_STATUS_GIB (b.f 2 4 0)
  let s := (s.put R.XMC_STATUS F.XMC_STATUS_TRAINED mask).put R.XMC_STATUS F.XMC_STATUS_RATE (if mask = 0 then 0 else rate)
  let p := if s.tenants.isEmpty then 0 else payloadOf s.extSize
  let base := if p = 0 then 0 else p + carve p
  let s := (s.put R.XMC_MAP F.XMC_MAP_P_GIB (p / 2 ^ 30)).put R.XMC_MAP F.XMC_MAP_PLAIN_BASE (base / 2 ^ 26)
  let share := if s.tenants.isEmpty then 0 else p / (2 ^ 26 * s.tenants.length)
  let s := s.keyOrder.zipIdx.foldl (fun s x =>
    let k := R.MGD_PART x.1.keyId
    let s := (s.put k F.MGD_PART_VALID (b2n (decide (0 < share)))).put k F.MGD_PART_UBTOR (x.1.f 1 15 15)
    (s.put k F.MGD_PART_BASE (share * x.2)).put k F.MGD_PART_SIZE share) s
  { s.put R.MGD_STATUS F.MGD_STATUS_FRESH 1 with mem := { s.mem with
      roots := List.replicate 4 (0, 0, 0), cache := [], backing := [], guardQ := [] } }

/-- Zeroise the keys (R539). -/
def State.zeroKeys (s : State) : State :=
  { s.put R.MGD_STATUS F.MGD_STATUS_KEYS 0 with mem := { s.mem with keys := [], tagKey := 0 } }

/-- Draw fresh keys from the TRNG (R540): four words each, KeyIDs 1 to 63, then the tag key. -/
def State.drawKeys (s : State) : State :=
  let key (j : Nat) : BitVec 256 :=
    BitVec.ofNat 256 ((List.range 4).foldl (fun n i => n * 2 ^ 64 + (Config.trng (s.free + 4 * j + i)).toNat) 0)
  { s.put R.MGD_STATUS F.MGD_STATUS_KEYS 1 with
      free := s.free + 256,
      mem := { s.mem with keys := (List.range 63).foldl (fun m j => sset (fun _ => (0 : BitVec 256)) m (j + 1) (key j)) [], tagKey := key 63 } }

end Sys2Proof.Machine
end

