-- ==== Sys2Proof/Machine/PinOps.lean ====
section
/-! DEFINITION. User pins (spec/24): functions and owners, I/O slots, what a pad shows, the latches, the survey's pins. -/

namespace Sys2Proof.Machine

/-- Owners of a function (Table 24-1), by code: 0 HOST, 1 UBTOR, 2 FABRIC, 3 MERIDIAN, 4 DATUM; none for a reserved code. -/
def funcOwners (f : Nat) : List Nat :=
  if f = 0 then [0, 1, 2, 3, 4]
  else if f = 1 then [0, 1, 2]
  else if f = 2 then [2]
  else if f = 3 then [0]
  else if (0x10 ≤ f ∧ f ≤ 0x17) ∨ (0x20 ≤ f ∧ f ≤ 0x27) ∨ (0x30 ≤ f ∧ f ≤ 0x37) ∨ (0x40 ≤ f ∧ f ≤ 0x43) ∨ (0x48 ≤ f ∧ f ≤ 0x4D) then [1]
  else if 0x50 ≤ f ∧ f ≤ 0x55 then [3]
  else if f = 0x60 then [4]
  else []

/-- Held by at most one pin (R684). -/
def funcSingle (f : Nat) : Bool := decide (3 < f)

/-- Inputs only. -/
def funcInput (f : Nat) : Bool :=
  [0x12, 0x16, 0x31, 0x33, 0x35, 0x37, 0x4A, 0x4D, 0x50].contains f

/-- MER_SYSREF sits on an even pin and MER_SYSREF_N on the next (R684); `other` is where the other of the pair sits. -/
def sysrefOk (f p : Nat) (other : Option Nat) : Bool :=
  if f = 0x54 then decide (p % 2 = 0) && (match other with | some q => q == p + 1 | none => true)
  else if f = 0x55 then decide (p % 2 = 1) && (match other with | some q => q + 1 == p | none => true)
  else true

/-- Replace the handover of a pin. -/
def State.setHand (s : State) (p : Nat) (h : Option Handover) : State :=
  { s with pins := { s.pins with hand := sset (fun _ => none) s.pins.hand p h } }

/-- PULL code of the pull that IO_PULL selects (Table 3-1). -/
def State.strapPull (s : State) : Nat := match s.sys.straps.ioPull with | 0 => 1 | 1 => 2 | 2 => 3 | _ => 0

/-- The pull of pin `p`: before the survey's commit the one that IO_PULL selects, then its PULL (R4, R111). -/
def State.pinPull (s : State) (p : Nat) : Nat := if s.svy.committed then s.get (R.PIO_CFG p) F.PIO_CFG_PULL else s.strapPull

/-- PIO_CFG as read: PULL is the pull in force, HANDOVER is set from H on. -/
def State.pinCfg (s : State) (p : Nat) : Word :=
  F.PIO_CFG_PULL.put (F.PIO_CFG_HANDOVER.put (s.rd (R.PIO_CFG p)) (b2n (s.handing p))) (s.pinPull p)

/-- I/O slots of sheet `n` in use, pin `p` left aside: a pin that leaves the sheet frees its slot at H, a pin on its way to the
sheet has one (R688). -/
def State.slotsUsed (s : State) (n p : Nat) : List Nat :=
  (allPins.filter (· ≠ p)).flatMap (fun q =>
    let now := if s.pinOf q n && !(s.handing q && (match s.hand q with | some h => h.owner != 2 || h.sheet != n | none => false))
      then [s.get (R.PIO_CFG q) F.PIO_CFG_SLOT] else []
    let next := match s.hand q with | some h => if h.owner = 2 ∧ h.sheet = n then [h.slot] else [] | none => []
    now ++ next)

/-- The lowest free slot of sheet `n` for pin `p`. -/
def State.freeSlot (s : State) (n p : Nat) : Option Nat :=
  let used := s.slotsUsed n p
  (List.range 32).find? (fun i => !used.contains i)

/-- The pin that holds function `f`, or is being given it, other than `p`. -/
def State.funcHolder (s : State) (f p : Nat) : Option Nat :=
  (allPins.filter (· ≠ p)).find? (fun q =>
    match s.hand q with | some h => h.func == f | none => s.pinFunc q == f)

/-- Functions that the hardware checks of R108 use, from the committed records (R684). -/
def rolesOf (recs : List SvyRec) : List Nat :=
  let osc := recs.find? (fun r => decide (r.type = 4))
  let vrm := recs.find? (fun r => decide (r.type = 5))
  let bus := match osc with
    | some r => if r.f 1 31 28 = 1 ∨ r.f 1 31 28 = 2 then [0x20 + 2 * r.f 1 15 8, 0x21 + 2 * r.f 1 15 8] else []
    | none => []
  let uart := match osc with
    | some r => if r.f 2 9 8 ≠ 0 then [0x31 + 2 * r.f 2 3 0] else []
    | none => []
  let avs := match vrm with
    | some r => [0, 1].flatMap (fun b => if r.words.any (fun w => bitsOf w 20 20 == b) then [0, 1, 2].map (0x48 + 3 * b + ·) else [])
    | none => []
  bus ++ uart ++ avs

/-! ### Pads (R686, R693, Table 24-4) -/

/-- SYSREF: high for min(PERIOD / 2, 4 096) samples from each edge (Table 13-11). -/
def State.sysrefHigh (s : State) : Bool :=
  match s.links.jsd.lastEdge with
  | some (a, p) => decide (a ≤ s.airNow ∧ s.airNow < a + min (p / 2) 4096)
  | none => false

/-- The level of a meridian output (Table 13-11, R447): 0x51 1PPS, 0x52 10 MHz, 0x54 and 0x55 SYSREF; time of day, `live`, is low while
squelched. -/
def State.merLevel (s : State) (f : Nat) (live : Bool) : Bool :=
  let ns : Int := (s.localNow % 4294967296 * 1000000000 / 4294967296 : Nat)
  let w := s.mer.outNow
  match f with
  | 0x51 => !s.mer.squelched && decide ((ns - sgn 16 (w.bits 15 0)) % 1000000000 < (w.bits 29 24 * 10000 : Nat))
  | 0x52 => !s.mer.squelched && decide (ns % 100 < 50)
  | 0x53 => !s.mer.squelched && live
  | 0x54 => s.sysrefHigh
  | _ => !s.sysrefHigh

/-- What drives pad `p`: output enable and level (Table 24-4). `live` and `liveOe` are what a peripheral, whose output the spec does not
give, presents. -/
def State.padDrive (s : State) (p : Nat) (live liveOe : Bool) : Bool × Bool :=
  let f := s.pinFunc p
  let en := s.pinEn p
  if f = 1 ∨ f = 2 then
    let n := s.pinSheet p
    let j := s.get (R.PIO_CFG p) F.PIO_CFG_SLOT
    s.padSlot p (s.present n (1536 + 2 * j)) (s.present n (1537 + 2 * j))
  else if s.sys.hiZ ∨ s.handing p = true ∨ f = 0 ∨ funcInput f = true then (false, false)
  else if f = 3 then s.padOut p (en && (s.airPin p).oe) (s.airPin p).level
  else if f = 0x60 then s.padOut p en live
  else if 0x51 ≤ f ∧ f ≤ 0x55 then s.padOut p (en && !s.pinsReleased) (s.merLevel f live)
  else s.padOut p (en && !s.pinsReleased && (decide (0x50 ≤ f) || liveOe)) live

/-- PIO_OE of a bank; open values fill what the model does not know. -/
def State.pioOe (s : State) (b : Nat) (free : Nat) : Word :=
  word ((List.range 32).foldl (fun a i =>
    a + b2n (s.padDrive (32 * b + i) ((Config.freeWord free).getLsbD i) ((Config.freeWord free).getLsbD (32 + i))).1 * 2 ^ i) 0)

/-- PIO_IN of a bank: a driven pad shows its level, any other what stands on it outside, an open value. -/
def State.pioIn (s : State) (b : Nat) (free : Nat) : Word :=
  word ((List.range 32).foldl (fun a i =>
    let d := s.padDrive (32 * b + i) ((Config.freeWord free).getLsbD i) ((Config.freeWord free).getLsbD (32 + i))
    a + b2n (if d.1 then d.2 else (Config.freeWord (free + 1)).getLsbD i) * 2 ^ i) 0)

/-! ### Latches (R689) -/

/-- Pins of bank `b` that a master may write, as a mask (Table 24-2). `pinWrite` is a write on behalf of PIN.WRITE. -/
def State.latchReach (s : State) (m : Master) (b : Nat) (pinWrite : Bool) : Nat :=
  (List.range 32).foldl (fun a i =>
    let p := 32 * b + i
    let ok := match m with
      | .ubtor => if pinWrite then s.pinOwner p == 0 else s.pinOwner p == 1
      | .sheet n => s.pinOf p n
      | .jtag => true
      | _ => false
    a + b2n ok * 2 ^ i) 0

/-- Every 1 of a mask lies within another. -/
def within (v m : Nat) : Bool := decide (v &&& m = v)

/-- A write to PIO_SET (0), PIO_CLR (1) or PIO_TGL (2) of bank `b`; whether it was taken. -/
def State.latchWrite (s : State) (m : Master) (op b v : Nat) : Bool × State :=
  if !within v (s.latchReach m b false) then (false, s.bump (R.PIO_COUNT 1))
  else
    let old := (s.rd (R.PIO_OUT b)).toNat
    let new := match op with
      | 0 => old ||| v
      | 1 => old &&& (2 ^ 32 - 1 - v)
      | _ => old ^^^ v
    (true, s.wr (R.PIO_OUT b) (word new))

/-! ### Survey commit (R111, R193, R685) -/

/-- Words of a PINS record, one per pin. -/
def pinWords (r : SvyRec) : List Nat := r.words.drop 1

/-- The pins at commit: every pin UBTOR, no function, strap pull; then the PINS record's owners, pulls, functions and I/O slots
in ascending pin order; EN only on the roles that R684 requires. -/
def State.pinsSurvey (s : State) : State :=
  let ws := match s.recsOf 6 with | r :: _ => pinWords r | [] => []
  let roles := rolesOf s.svy.recs
  allPins.foldl (fun s p =>
    match ws.find? (fun w => bitsOf w 31 24 == p) with
    | none => s.wr (R.PIO_CFG p) (word (2 ^ 28 + s.strapPull * 2 ^ 20 + 2 ^ 18))
    | some w =>
      let owner := bitsOf w 23 20
      let sheet := bitsOf w 19 15
      let f := bitsOf w 7 0
      let slot := if owner = 2 then
        ws.countP (fun v => decide (bitsOf v 31 24 < p ∧ bitsOf v 23 20 = 2 ∧ bitsOf v 19 15 = sheet)) else 0
      s.wr (R.PIO_CFG p) (word (b2n (roles.contains f) * 2 ^ 31 + owner * 2 ^ 28 + sheet * 2 ^ 23 +
        bitsOf w 14 13 * 2 ^ 20 + 2 ^ 18 + slot * 2 ^ 8 + f))) s

/-- The rules of R683, R684 and R193 for a PINS record (commit check 12 with DETAIL 0x0C). -/
def pinsOk (recs : List SvyRec) : Bool :=
  let ws := match recs.find? (fun r => decide (r.type = 6)) with | some r => pinWords r | none => []
  let funcs := ws.map (fun w => bitsOf w 7 0)
  let at_ (f : Nat) : Option Nat := (ws.find? (fun w => bitsOf w 7 0 == f)).map (fun w => bitsOf w 31 24)
  ws.all (fun w =>
    let p := bitsOf w 31 24
    let f := bitsOf w 7 0
    ws.countP (fun v => bitsOf v 31 24 == p) == 1 &&
    (funcOwners f).contains (bitsOf w 23 20) && (decide (bitsOf w 23 20 = 2) || decide (bitsOf w 19 15 = 0)) &&
    (!funcSingle f || funcs.count f == 1) && sysrefOk f p (if f = 0x54 then at_ 0x55 else at_ 0x54)) &&
  (List.range 32).all (fun n => decide (ws.countP (fun w => bitsOf w 23 20 == 2 && bitsOf w 19 15 == n) ≤ 32)) &&
  (rolesOf recs).all funcs.contains

end Sys2Proof.Machine
end

