-- ==== Sys2Proof/Machine/Pins.lean ====
section
/-! DEFINITION. The pins' rows (spec/24): latch writes, the end of a handover, the PIN commands. -/

namespace Sys2Proof.Machine

/-- A PIN field out of range. -/
def badPin (c : Cmd) (_ : State) : Option RetCode := badIf (decide (223 < c.n 2 7 0))

/-- PIN.STATUS (R697). -/
def execPinStatus (mb : Nat) (s : State) : Out := .next <| runCommand spec_PIN_STATUS badPin
  (fun c s => .ok s [s.pinCfg (c.n 2 7 0)]) mb s

/-- PIN.READ (R697). -/
def execPinRead (mb : Nat) (s : State) : Out := .next <| runCommand spec_PIN_READ (fun c _ => badIf (decide (6 < c.n 2 2 0)))
  (fun c s =>
    let b := c.n 2 2 0
    let n := s.free
    .ok { s with free := n + 2 } [s.pioIn b n, s.rd (R.PIO_OUT b), s.pioOe b n]) mb s

/-- H of a handover read now (Table 24-3, R691): the first 4 ns bank-clock edge, moved past timed edges it would meet. `edges`
are their stamps in ascending order. -/
def handoverAt (h : Nat) : List Nat → Nat
  | [] => h
  | e :: es => if h < e + 8 ∧ e < h + 8 then handoverAt ((e + 8 + 3) / 4 * 4) es else handoverAt h es

/-- Stamps of the timed edges scheduled on pin `p`: the last that acted, and those of the next 4 000 ns. -/
def State.pinEdges (s : State) (p : Nat) : List Nat :=
  if s.pinFunc p ≠ 3 then []
  else (sget (fun _ => none) s.pins.edge p).toList ++ ((s.airFuture (s.airNow + 1966)).filter (fun e => decide (e.2.action = 5) &&
    [e.2.w1, e.2.w2, e.2.w3].any (fun w => w.bit 31 && w.bits 7 0 == p))).map (fun e => s.stampOfAir e.1)

/-- What PIN.ASSIGN finds wrong with its fields (R698). -/
def assignBad (c : Cmd) (s : State) : Option RetCode :=
  let p := c.n 2 7 0
  let f := c.n 3 7 0
  let other := if f = 0x54 then s.funcHolder 0x55 p else if f = 0x55 then s.funcHolder 0x54 p else none
  badIf (decide (223 < p) || !(funcOwners f).contains (c.n 3 30 28) ||
    (funcSingle f && (s.funcHolder f p).isSome) || !sysrefOk f p other)

/-- PIN.ASSIGN (R687, R688, R690, R691, R698): answered once the handover has passed. -/
def execPinAssign (mb : Nat) (s : State) : Out := .next <| runCommand spec_PIN_ASSIGN assignBad
  (fun c s =>
    let p := c.n 2 7 0
    let f := c.n 3 7 0
    let owner := c.n 3 30 28
    let sheet := c.n 3 27 23
    let foreign := match c.sheet with | some n => !s.pinOf p n | none => false
    let moves := c.sheet.isSome && (decide (owner ≠ 2) || decide (c.sheet ≠ some sheet))
    if moves then .code .NOT_PERMITTED s
    else if foreign then .code .NOT_OWNER s
    else if (s.hand p).isSome then .code .BUSY s
    else
      let slot := if owner ≠ 2 then some 0
        else if s.pinOf p sheet then some (s.get (R.PIO_CFG p) F.PIO_CFG_SLOT) else s.freeSlot sheet p
      match slot with
      | none => .code .REFUSED_IN_USE s
      | some slot =>
        if (rolesOf s.svy.recs).contains (s.pinFunc p) ∧ f ≠ s.pinFunc p then .code .REFUSED_IN_USE s
        else
          let first := (s.stamp / 4 + 1) * 4
          let h := handoverAt first (s.pinEdges p)
          let s := if h = first then s else s.bump (R.PIO_COUNT 2)
          .wait (s.setHand p (some ⟨h, owner, if owner = 2 then sheet else 0, slot, f, c.n 3 21 20, c.b 3 31, c.id⟩)) [p]) mb s

/-- Step 2 of the handover of pin `p` (Table 24-3): the new owner, function, pull and enable apply; PIN.ASSIGN is answered. -/
def execPinHandoverComplete (p : Nat) (s : State) : Out :=
  match s.hand p with
  | none => .next s
  | some h =>
    let s := (s.reach (h.h + 8)).setHand p none
    let k := R.PIO_CFG p
    let v := (s.rd k).toNat
    let s := (s.wr k (word (b2n h.en * 2 ^ 31 + h.owner * 2 ^ 28 + h.sheet * 2 ^ 23 + h.pull * 2 ^ 20 +
      bitsOf v 19 16 * 2 ^ 16 + h.slot * 2 ^ 8 + h.func))).bump (R.PIO_COUNT 0)
    match s.mbx.running.find? (fun o => o.id = h.openId) with
    | some o => .next (s.finishRun o .DONE)
    | none => .next s

/-- PIN.WRITE (R699). -/
def execPinWrite (mb : Nat) (s : State) : Out := .next <| runCommand spec_PIN_WRITE
  (fun c _ => badIf (decide (c.n 2 9 8 = 3) || decide (6 < c.n 2 2 0)))
  (fun c s =>
    let b := c.n 2 2 0
    let v := (c.w 3).toNat
    if !within v (s.latchReach .ubtor b true) then .code .NOT_OWNER s
    else
      let old := (s.rd (R.PIO_OUT b)).toNat
      let new := match c.n 2 9 8 with
        | 0 => old ||| v
        | 1 => old &&& (2 ^ 32 - 1 - v)
        | _ => old ^^^ v
      .ok (s.wr (R.PIO_OUT b) (word new))) mb s

/-- PIN.PAD (R692, R700). -/
def execPinPad (mb : Nat) (s : State) : Out := .next <| runCommand spec_PIN_PAD
  (fun c s => badIf (decide (223 < c.n 2 7 0) || decide (c.n 3 19 18 = 3) ||
    (!c.b 3 16 && funcI2c (s.pinFunc (c.n 2 7 0)))))
  (fun c s => .ok (s.put (R.PIO_CFG (c.n 2 7 0)) ⟨19, 16⟩ (c.n 3 19 16))) mb s

/-- PIN.COUNTERS (R701). -/
def execPinCounters (mb : Nat) (s : State) : Out := .next <| runCommand spec_PIN_COUNTERS noFields
  (fun c s =>
    let (d, s') := s.counters ((List.range 3).map R.PIO_COUNT) (c.b 2 0)
    .ok s' d) mb s

end Sys2Proof.Machine
end

