-- ==== Sys2Proof/Machine/PowerOps.lean ====
section
/-! DEFINITION. Operations of clocks and power (spec/14): what an island holds after power-up (R477, R51), crystal faults and
coasting generators (R460 to R463), gate writes (R468), island power switches and wake events (R475 to R480). -/

namespace Sys2Proof.Machine

/-! ### Island power-up (R24, R51, R477) -/

/-- Registers at their reset values. -/
def State.resetKeys (s : State) (ks : List Nat) : State := ks.foldl (fun s k => s.wr k (resetWord k)) s

/-- Sheet `n` after power-up: island registers reset, flip-flops and block RAM lost, its active plane as at its first
activation. -/
def State.sheetInit (s : State) (n : Nat) : State :=
  let s := s.resetKeys (R.SHT_STICKY n :: (List.range 4).map (R.SHT_COUNT n))
  let f := s.fabric
  let s := { s with fabric := { f with
    bram := sfilter (fun k => decide (k / 36864 / 128 ≠ n)) f.bram,
    bramOut := sfilter (fun k => decide (k / 2 / 128 ≠ n)) f.bramOut,
    rx := sfilter (fun k => decide (k / 160 ≠ n)) f.rx,
    txSpent := sfilter (fun k => decide (k / 160 ≠ n)) f.txSpent,
    ffs := sfilter (fun k => decide (k / 2 / 36864 ≠ n)) f.ffs } }
  let s := s.lckAlign n
  match s.activePlane n with
  | some p => (s.initFfs n p).asyncSettle n
  | none => s

/-- The memory of tile `t` reads 0. -/
def State.tmemCleared (s : State) (t : Nat) : State :=
  { s with stitch := { s.stitch with mem := sfilter (fun k => decide (k / 2 ^ 17 ≠ t)) s.stitch.mem } }

/-- Tile `t` after power-up: empty, then its active pattern as at its first activation, restarting at a seam (R295). -/
def State.tileInit (s : State) (t : Nat) : State :=
  let v := (s.setTile t Tile.init).tmemCleared t
  if (s.tile t).live then (v.activate t (s.activePat t)).restartTile t else v

/-- Wale `w` after power-up. -/
def State.waleInit (s : State) (w : Nat) : State :=
  let s := s.resetKeys ([R.WAL_STATUS w, R.WAL_SWITCH w] ++ (List.range 16).map (R.WAL_STICKY w) ++ (List.range 5).map (R.WAL_COUNT w))
  (List.range 16).foldl (fun s q => s.tileInit (16 * w + q)) s

/-- The sheets and wales of the island led by `l`. -/
def State.islandParts (s : State) (l : Nat) : List Nat := if l < 32 then s.members l else [l]

/-- A powered-up island's contents. -/
def State.islandInit (s : State) (l : Nat) : State :=
  (s.islandParts l).foldl (fun s i => if i < 32 then s.sheetInit i else s.waleInit (i - 32)) s

/-- The running swatch is abandoned when it satisfies `p`; a sheet is then as at DORMANT exit (R624). -/
def State.swtBreak (s : State) (p : SwReq → Bool) : State :=
  match s.swt.running with
  | some r => if p r.req then (if r.req.kind = 2 then (s.swtAbandon p).sheetInit r.req.target else s.swtAbandon p) else s
  | none => s

/-- Set the power-switch bits of an island. -/
def State.setPsw (s : State) (l : Nat) (on : Bool) : State :=
  (s.islandParts l).foldl (fun s i => s.setBit (R.PWR_PSW (i / 32)) (i % 32) on) s

/-! ### Generators and the crystal (R460 to R463) -/

/-- Islands whose generator is locked to XTAL: all but the lane quads, the datum island and the thermal island. -/
def xtalIslands : List Nat := (List.range 143).filter (fun i => decide (i < 96 ∨ (120 ≤ i ∧ i ≠ 131)))

/-- A generator loses its reference and coasts (R463). -/
def State.coastNow (s : State) (i : Nat) : State :=
  let s := { s with pwr := { s.pwr with coast := sset (fun _ => false) s.pwr.coast i true } }
  let s := ((s.raise (R.CKI_REFLOST (i / 32)) (i % 32)).bump (R.CKI_COUNT 2)).report 0x03 i
  if i < 72 ∧ s.leadIsland i = i then s.setKhz i (s.pointKhz i 0) else s

/-- A crystal fault (R460, R461). -/
def State.crystalFault (s : State) : State :=
  let s := (s.put R.CKI_STATUS F.CKI_STATUS_XTAL_OK 0).raise R.CKI_STATUS F.CKI_STATUS_XTAL_FAULT.lo
  let s := ((s.put R.CKI_STATUS F.CKI_STATUS_STAMP_XTAL 0).bump (R.CKI_COUNT 0)).report 0x02 0
  (xtalIslands.filter (fun i => !(sget (fun _ => false) s.pwr.coast i))).foldl State.coastNow { s with pwr := { s.pwr with failRun := 0, passRun := 0 } }

/-! ### Gates (R467, R468) -/

/-- Islands below a gate. -/
def gateScope (level index : Nat) : List Nat :=
  match level with
  | 2 => (List.range 144).filter (fun i => match groupOf i with | some g => decide (tierOfGroup g = index) | none => false)
  | 1 => islandsOf index
  | _ => [index]

/-- A gate write that is taken: orders that met a stopped clock are late once it restarts (R238); a SHEET swatch of a sheet whose
gate turns on is abandoned (R624). -/
def State.gateTaken (s : State) (level index : Nat) (on : Bool) : State :=
  let scope := (gateScope level index).filter (fun i => decide (i < 72))
  let s := if on then scope.foldl (fun s i => if s.islandRuns i then s else s.markLate i) s else s
  let s := s.setGate level index on
  if on then s.fitRails.swtBreak (fun r => decide (r.kind = 2) && scope.contains r.target) else s

/-- A write to a gate register: bits that change, judged against the state before the write; one refused bit refuses it. -/
def State.gateWrite (s : State) (level base width : Nat) (key : Nat) (v : Word) : State :=
  let bits := (List.range width).filter (fun j => decide (base + j < 144) && s.bit key j != v.bit j)
  if bits.any (fun j => s.gateClosed level (base + j) || s.gateOrder level (base + j) (v.bit j)) then s.gateRefuse
  else bits.foldl (fun s j => s.gateTaken level (base + j) (v.bit j)) s

/-! ### Wake events (R480, R50) -/

/-- WAKE_SRC keeps the first wake event. -/
def State.wakeSrc (s : State) (src : Nat) : State :=
  if s.get R.PWR_STATUS F.PWR_STATUS_WAKE_SRC = 0 then s.put R.PWR_STATUS F.PWR_STATUS_WAKE_SRC src else s

/-- Change the stage of every sheet and wale island. -/
def State.stageMap (s : State) (f : PowStage → PowStage) : State :=
  (List.range 72).foldl (fun s i => if s.leadIsland i = i then s.setStage i (f (s.stage i)) else s) s

/-- Every power switch is open. -/
def State.allOpen (s : State) : State := ((s.wr (R.PWR_PSW 0) 0).wr (R.PWR_PSW 1) 0).wr (R.PWR_PSW 2) 0

/-- Set every sheet and wale island to a stage. -/
def State.stageAll (s : State) (p : PowStage) : State := s.stageMap (fun _ => p)

/-- The PWR.ISLAND command that waits for an island completes. -/
def State.stageDone (s : State) (l : Nat) (rc : RetCode) : State :=
  let id := sget (fun _ => none) s.pwr.stageOpen l
  ({ s with pwr := { s.pwr with stageOpen := sset (fun _ => none) s.pwr.stageOpen l none } }).completeOpt id rc

/-- The PWR.ISLAND command that waits for an island asks for OFF. -/
def State.stageAsksOff (s : State) (l : Nat) : Bool :=
  match sget (fun _ => none) s.pwr.stageOpen l with
  | some id => (match s.openById id with | some o => o.args == [0] | none => false)
  | none => false

/-- Every waiting PWR.ISLAND command whose island satisfies `p` completes. -/
def State.stagesDone (s : State) (p : State → Nat → Bool) (rc : RetCode) : State :=
  (List.range 72).foldl (fun s l => if p s l then s.stageDone l rc else s) s

/-- The SYS.STATE to DORMANT that waits. -/
def State.dormDone (s : State) (rc : RetCode) : State :=
  let id := s.pwr.dormOpen
  ({ s with pwr := { s.pwr with dormOpen := none } }).completeOpt id rc

/-- A wake event (R50, R479): before the point of no return it aborts the entry, after it it is held, in DORMANT it starts the
exit. -/
def State.wake (s : State) (src : Nat) : State :=
  match s.pwr.dorm with
  | .entry =>
    let s := (s.wakeSrc src).bump (R.PWR_COUNT 3)
    let s := s.stagesDone (fun s l => decide (s.stage l = .closing)) .BUSY
    let s := s.stageMap (fun p => if p = .closing then .on else p)
    (({ s with pwr := { s.pwr with dorm := .none } }).dormDone .BUSY).lanesMove
  | .noReturn => { s.wakeSrc src with pwr := { s.pwr with heldWake := true } }
  | .dormant => { s.wakeSrc src with pwr := { s.pwr with dorm := .exitPower } }
  | _ => s

end Sys2Proof.Machine
end

