-- ==== Sys2Proof/Machine/DeviceState.lean ====
section
/-! DEFINITION. Changes of device state (spec/01, 02): what entry to QUIET, HALTED, TRIPPED and BOOT does to every block, and the
gazetteer's image writes that a trip or halt starts. -/

namespace Sys2Proof.Machine

/-! ### Gazetteer images (R652) -/

/-- An image write starts: the accumulation, to the image not written last. One that falls due during a write follows it. -/
def State.gazWrite (s : State) (openId : Option Nat) : State :=
  if s.gaz.writing.isSome then { s with gaz := { s.gaz with dueAgain := true } }
  else
    let seq := (if s.gaz.lastB then s.gaz.imgB else s.gaz.imgA).seq + 1
    { s with gaz := { s.gaz with writing := some ⟨!s.gaz.lastB, ⟨seq, s.gaz.ctr, s.gaz.hist⟩, openId⟩ } }

/-- The boot ROM loads the valid image with the higher IMSEQ (power-on reset, or an accumulation whose CRC fails). -/
def State.gazLoad (s : State) : State :=
  let b := decide (s.gaz.imgA.seq < s.gaz.imgB.seq)
  let i := if b then s.gaz.imgB else s.gaz.imgA
  { s with gaz := { s.gaz with ctr := i.ctr, hist := i.hist, lastB := b, writing := none, dueAgain := false, sramGood := true } }

/-! ### Leaving the states that serve commands (R75, R80, R88) -/

/-- Open commands are abandoned, the session closes, a pending SYS.RESET is withdrawn, a commit in progress leaves no survey. -/
def State.dropWork (s : State) : State :=
  let s := s.abandonOpen
  { s with
    sys := { s.sys with
      session := none, resetAt := none, fwUpdate := none,
      prevSession := match s.sys.session with | some e => e.id | none => s.sys.prevSession },
    svy := { s.svy with committing := false },
    gaz := { s.gaz with exporting := [] } }

/-- Switch orders of SHT.SWITCH are withdrawn; those of other sources stay when `all` is false. -/
def State.dropOrders (s : State) (all : Bool) : State :=
  let s := (List.range 32).foldl (fun s n =>
    s.setPlaneOrders n ((s.planeOrders n).filter (fun o => !all && decide (o.src ≠ .group)))) s
  let s := (List.range 40).foldl (fun s w =>
    s.setWale w { s.wale w with orders := (s.wale w).orders.filter (fun o => !all && decide (o.src ≠ .group)) }) s
  { s with fabric := { s.fabric with group := none } }

/-- Whatever swatch runs is abandoned and its resource restored, a link under test with its routes (R624). -/
def State.swtStop (s : State) : State :=
  let s := s.swtBreak (fun _ => true)
  match s.grt.test with
  | some t =>
    if t.swatch then
      let s := { s with grt := { s.grt with test := none } }
      ((s.put R.GRT_STATUS F.GRT_STATUS_TESTING 0).put R.GRT_STATUS F.GRT_STATUS_TEST_LINK 0).addChanges (s.backTo t.prior)
    else s
  | none => s

/-! ### QUIET (R86, R321, R624) -/

/-- Entry to QUIET: the schedule stops, a pending group switch completes with REFUSED_IN_USE, a swatch is abandoned, lanes follow the
floor. -/
def State.enterQuiet (s : State) : State :=
  let s := s.airStopNow
  let s := match s.openOf 0x0904 with
    | some o => s.complete o.id .REFUSED_IN_USE
    | none => s
  (((s.dropOrders false).swtStop).enter .quiet).lanesMove

/-! ### HALTED and TRIPPED (R48, R49, R539, R644) -/

/-- What HALTED and TRIPPED share: commands abandoned, the schedule stopped, a swatch abandoned. -/
def State.stopAll (s : State) : State :=
  ((s.dropWork.airStopNow).dropOrders true).swtStop

/-- An integrity failure (R538, R539): no further responses, keys zeroised, HALT_CAUSE, gazetteer, HALTED. -/
def State.enterHalted (s : State) (cause channel : Nat) : State :=
  if s.sys.dev = .halted ∨ s.sys.dev = .off then s
  else
    let w := word (2 ^ 31 + channel * 2 ^ 16 + cause)
    let s := { s.zeroKeys with mem := { s.zeroKeys.mem with guardQ := [] } }
    let s := ((s.wr R.HALT_CAUSE w).report 0x60 channel [w]).journal 0x05 cause channel w 0
    let s := (s.gazInc 71).stopAll.gazWrite none
    ({ s with pwr := { s.pwr with dorm := .none } }.enter .halted).lanesMove

/-- Hardware actions of a trip (Table 21-2 steps 2 and 3): power switches open, VDD_FAB and VDD_STITCH requested at 0.65 V. -/
def State.tripPower (s : State) : State :=
  let s := ((List.range 32).foldl State.portAbandon s).capCopied (fun _ => true) true
  let s := { s with pwr := { s.pwr with dorm := .none, queue := [], serving := none, held := [] } }.stageAll .off
  s.allOpen.resetKeys [R.PWR_RAIL 0, R.PWR_RAIL 1]

/-- A thermal trip (R644, R48): TRIP_CAUSE and the trip record, the hardware actions, TRIPPED; in HALTED the state stays. -/
def State.enterTripped (s : State) (sensor kind : Nat) (hottest : Int) : State :=
  if s.sys.dev = .off then s
  else
    let w := word (2 ^ 31 + sensor * 2 ^ 16 + kind)
    let s := ((s.wr R.TRIP_CAUSE w).report 0x61 sensor [w]).journal 0x04 kind sensor w (word (unsgn 32 hottest))
    let s := ((s.gazInc 70).gazWrite none)
    let s := { s with thm := { s.thm with restartSince := none } }
    if s.sys.dev = .halted then s.tripPower
    else if s.sys.dev = .tripped then s
    else (s.stopAll.tripPower.enter .tripped).lanesMove

/-! ### BOOT (R24, R46, R100, R111, R610, R627) -/

/-- A register keeps its value at an entry to BOOT: those of the power-on domain; and PCI_STATUS, whose
fields hardware keeps writing, while the link stays up (R22, R49). -/
def keepAtBoot (link : Bool) (k : Nat) : Bool :=
  decide (k < strBase) && (match regAt k with
    | some (r, _) => decide (r.dom = .powerOn) || (link && decide (r.base = R.PCI_STATUS))
    | none => false)

/-- The images the boot ROM will try (R104). -/
def bootOrder (straps : Straps) (prefer : Image) : List Image :=
  if straps.bootSrc.testBit 1 then [.benchmark]
  else [prefer, if prefer = .slotB then .slotA else .slotB, .benchmark]

/-- A fused repair in force: a tile's SHIFT_AT, a sheet's spare columns, a store-tier row in use (R626). -/
def State.fusedRepair (s : State) (r : Repair) : State :=
  match r.kind with
  | 1 => (s.put (R.WAL_SHIFT (r.target / 32)) F.WAL_SHIFT_SHIFT_AT r.place).put (R.WAL_SHIFT (r.target / 32)) F.WAL_SHIFT_FUSED 1
  | 2 =>
    ((s.spareColumn r.target r.place).getD s).put (R.SHT_REPAIR r.target) F.SHT_REPAIR_FUSED 1
  | 5 => s.wr (R.STC_COUNT 4) (word ((s.rd (R.STC_COUNT 4)).toNat + 1))
  | _ => s

/-- What an entry to BOOT discards: the survey, the configuration, the work in hand, the device reset domain, every mailbox's contents, data
staged for the loader (R243).
What MRAM, fuses and the memories hold stays; so do the datum and thermal islands. -/
def State.bootCleared (s : State) (link : Bool) : State :=
  { s with
    regs := sfilter (keepAtBoot link) s.regs, latch := [], raised := [], store := sfilter (fun k => decide (k < stageBase 0)) s.store,
    sys := { s.sys with bootAt := s.stamp, imagesLeft := bootOrder s.sys.straps s.sys.prefer,
                        xtalStable := false, fwSlot := .slotA },
    mbx := { Mbx.init with nextId := s.mbx.nextId },
    svy := Survey.init,
    host := if link then { s.host with queues := [], rrQueue := 0 }
      else { HostIf.init with mem := s.host.mem, msixSent := s.host.msixSent },
    flt := Flt.init,
    gaz := { s.gaz with steady := [], writing := s.gaz.writing.map (fun (w : GazWrite) => { w with openId := none }) },
    pwr := Pwr.init, streams := [], stitch := Stitch.init, fabric := Fabric.init,
    swt := { Swt.init with fused := s.swt.fused, loaded := s.swt.loaded, marks := s.swt.marks },
    air := Air.init, ldr := Ldr.init, links := Links.init, pins := Pins.init, grt := Grt.init,
    mer := { Mer.init with mram := s.mer.mram, leapStored := s.mer.leapStored },
    mem := { Mem.init with ext := s.mem.ext, scrubAt := s.mem.scrubAt },
    thm := { s.thm with restartSince := none, held := false },
    dat := { s.dat with rec_ := [], recSide := [], events := [], shares := [], lastAcc := [] } }

/-- Entry to BOOT: what it discards, then the loading of gazetteer, fused repairs and leap second. `link` tells that the PCIe link stays
up. -/
def State.enterBoot (s : State) (link : Bool) : State :=
  let old := s.dropWork
  let s := old.bootCleared link
  let s := (if old.gaz.sramGood then s else s.gazLoad).gazInc 3
  let s := s.swt.loaded.foldl State.fusedRepair s
  let s := match s.mer.leapStored with | some w => s.wr R.MER_LEAP w | none => s
  if link then s.enter .boot else { s with sys := { s.sys with dev := .boot } }

/-! ### Loss and return of power (R44, R98, R706) -/

/-- Loss of VDD_AON or of a monitored rail: everything volatile is lost, the outputs go to high impedance, OFF. MRAM, fuses, the datum
island and the host remain. -/
def State.powerLost (s : State) : State :=
  { s with
    regs := [], latch := [], raised := [],
    sys := { s.sys with dev := .off, allValidAt := none, hiZ := true, xtalStable := false, imagesLeft := [], fwSlot := .slotA, fwVersion := 0,
                        session := none, prevSession := 0, resetAt := none, fwUpdate := none, answers := [] },
    mbx := { Mbx.init with nextId := s.mbx.nextId }, svy := Survey.init,
    host := { HostIf.init with mem := s.host.mem, msixSent := s.host.msixSent },
    flt := Flt.init,
    gaz := { Gaz.init with imgA := s.gaz.imgA, imgB := s.gaz.imgB, journal := s.gaz.journal, sramGood := false },
    pwr := Pwr.init, streams := [], store := [], stitch := Stitch.init, fabric := Fabric.init,
    swt := { Swt.init with fused := s.swt.fused, marks := s.swt.marks },
    air := Air.init, ldr := Ldr.init, links := Links.init,
    mer := { Mer.init with mram := s.mer.mram, leapStored := s.mer.leapStored },
    pins := Pins.init, grt := Grt.init, mem := Mem.init, thm := Thm.init,
    dat := { s.dat with rec_ := [], recSide := [], events := [], shares := [], lastAcc := [] } }

/-- Release of power-on reset with the straps then sampled: the fused repairs and the newer gazetteer image are loaded; BOOT. -/
def State.powerOn (s : State) (st : Straps) : State :=
  let s := { s with sys := { s.sys with straps := st, hiZ := false }, swt := { s.swt with loaded := s.swt.fused },
                    gaz := { s.gaz with nextDue := s.stamp + 600000000000 } }
  (s.enterBoot false).gazInc 1

end Sys2Proof.Machine
end

