-- ==== Sys2Proof/Machine/Thermal.lean ====
section
/-! DEFINITION. The thermal island: sensor readings, bands, caps, trip and restart, and the THM commands (spec/21). -/

namespace Sys2Proof.Machine

/-! ### Sensors (R638 to R640, R643) -/

/-- Hidden state of a sensor. -/
def State.sens (s : State) (i : Nat) : Sens := sget (fun _ => Sens.init) s.thm.sensors i
def State.setSens (s : State) (i : Nat) (x : Sens) : State :=
  { s with thm := { s.thm with sensors := sset (fun _ => Sens.init) s.thm.sensors i x } }

/-- Temperature of a sensor in 0.25 °C, its failed mark, and the band of it and of a tier. -/
def State.tempOf (s : State) (i : Nat) : Int := sgn 16 (s.get (R.THM_SENSOR i) F.THM_SENSOR_TEMP)
def State.sensFailed (s : State) (i : Nat) : Bool := s.flag (R.THM_SENSOR i) F.THM_SENSOR_FAILED
def State.tierBand (s : State) (t : Nat) : Nat := s.get R.THM_BAND (F.THM_BAND_BAND t)

/-- The sensors of a tier, and its working ones. -/
def tierSensors (t : Nat) : List Nat := (List.range 24).map (· + 24 * t)
def State.working (s : State) (t : Nat) : List Nat := (tierSensors t).filter (fun i => !s.sensFailed i)

/-- 12 or more sensors of the tier are failed. -/
def State.tierLost (s : State) (t : Nat) : Bool := decide ((s.working t).length ≤ 12)

/-- The hottest of some sensors, the lowest-numbered on a tie. -/
def State.hottest (s : State) (is : List Nat) : Option Nat :=
  is.foldl (fun (b : Option Nat) i =>
    match b with
    | some j => if s.tempOf j < s.tempOf i then some i else b
    | none => some i) none

/-- Lower edges of IB1 to IB5 in 0.25 °C. -/
def bandEdges : List Int := [0, 240, 340, 400, 440]

/-- The band a sensor moves to (R643): warmer at an edge, cooler only below 2 °C under it. -/
def nextBand (b : Nat) (t : Int) : Nat :=
  let up := (bandEdges.filter (fun e => decide (e ≤ t))).length
  let down := (bandEdges.filter (fun e => decide (e - 8 ≤ t))).length
  if b < up then up else min b down

/-- Mark or unmark a sensor as failed (R639). -/
def State.markSensor (s : State) (i : Nat) (failed : Bool) : State :=
  if s.sensFailed i = failed then s
  else
    let s := (s.put (R.THM_SENSOR i) F.THM_SENSOR_FAILED (b2n failed)).setBit (R.THM_FAIL (i / 32)) (i % 32) failed
    if failed then (s.bump (R.THM_COUNT 3)).report 0x62 i else s

/-- T of a sensor from its last readings: their mean, in 0.25 °C. -/
def meanOf (raws : List Int) : Int :=
  let t := raws.foldl (· + ·) 0
  let n : Int := raws.length
  if n = 0 then 0 else if t % n = 0 then t / n else Config.roundDiv t n

/-- One reading of a sensor: its temperature and failed mark. -/
def State.convert (s : State) (i : Nat) (raw : Option Int) : State :=
  let x := s.sens i
  match raw with
  | none =>
    let s := s.setSens i { x with bad := x.bad + 1, good := 0, hist := (s.tempOf i :: x.hist).take 501 }
    if 10 ≤ x.bad + 1 then s.markSensor i true else s
  | some v =>
    if v < -220 ∨ 600 < v then
      (s.setSens i { x with bad := 0, good := 0, hist := (s.tempOf i :: x.hist).take 501 }).markSensor i true
    else
      let raws := (v :: x.raws).take 4
      let t := meanOf raws
      let good := if s.sensFailed i then x.good + 1 else 0
      let s := s.put (R.THM_SENSOR i) F.THM_SENSOR_TEMP (unsgn 16 t)
      let s := s.setSens i { x with raws := raws, bad := 0, good := if 1000 ≤ good then 0 else good, hist := (t :: x.hist).take 501 }
      if 1000 ≤ good then s.markSensor i false else s

/-- Rise of a sensor's temperature over the last `n` readings; none before they exist. -/
def Sens.rise (x : Sens) (n : Nat) : Int :=
  match x.hist.head?, x.hist[n]? with
  | some a, some b => a - b
  | _, _ => 0

/-- R500 sets WARN and records one notice (R640); R50 counts its run; the band follows (R643). A failed sensor takes no part. -/
def State.rates (s : State) (i : Nat) : State :=
  if s.sensFailed i then (s.put (R.THM_SENSOR i) F.THM_SENSOR_WARN 0).setSens i { s.sens i with run := 0 }
  else
    let x := s.sens i
    let w := decide (8 < 2 * x.rise 500)
    let s := if w && !s.flag (R.THM_SENSOR i) F.THM_SENSOR_WARN then (s.bump (R.THM_COUNT 0)).report 0x62 i else s
    let s := s.put (R.THM_SENSOR i) F.THM_SENSOR_WARN (b2n w)
    let s := s.setSens i { x with run := if 32 < 20 * x.rise 50 then min 250 (x.run + 1) else 0 }
    s.put (R.THM_SENSOR i) F.THM_SENSOR_BAND (nextBand (s.get (R.THM_SENSOR i) F.THM_SENSOR_BAND) (s.tempOf i))

/-! ### Gazetteer totals of time (R654) -/

/-- `ns` more nanoseconds count toward seconds counter `c`. -/
def State.gazSeconds (s : State) (c ns : Nat) : State :=
  let a := sget (fun _ => 0) s.gaz.secAcc c + ns
  let s := { s with gaz := { s.gaz with secAcc := sset (fun _ => 0) s.gaz.secAcc c (a % 1000000000) } }
  if a / 1000000000 = 0 then s else s.gazInc c (a / 1000000000)

/-- The time since the last reading reaches counters 0 to 41. -/
def State.lifeTime (s : State) (ns : Nat) : State :=
  let s := s.gazSeconds 0 ns
  let s := (List.range 5).foldl (fun s t => s.gazSeconds (4 + 6 * t + s.tierBand t) ns) s
  let at_ (r : List Nat) (p : Nat) : Nat := (r.filter (fun i => decide (s.effPoint i = p))).length
  (List.range 4).foldl (fun s p => (s.gazSeconds (34 + p) (at_ (railIslands 0) p * ns)).gazSeconds (38 + p) (at_ (railIslands 1) p * ns)) s

/-- Highest rate and temperature of tier `t` (counters 42 to 51), and the interval's highest rate (histograms 23 to 27). -/
def State.tierPeaks (s : State) (t : Nat) : State :=
  let r := ((s.working t).foldl (fun (m : Int) i => max m (2 * (s.sens i).rise 500)) 0).toNat
  let s := s.gazMax (42 + t) r
  let s := { s with gaz := { s.gaz with peakR := sset (fun _ => 0) s.gaz.peakR t (max r (sget (fun _ => 0) s.gaz.peakR t)) } }
  match s.hottest (s.working t) with
  | some i => s.gazMax (47 + t) (s.tempOf i + 160).toNat
  | none => s

/-! ### Tier bands (R643) -/

/-- The band of tier `t` becomes that of its warmest working sensor. -/
def State.moveTier (s : State) (t : Nat) : State :=
  let w := s.working t
  let b := w.foldl (fun m i => max m (s.get (R.THM_SENSOR i) F.THM_SENSOR_BAND)) 0
  if w.isEmpty ∨ b = s.tierBand t then s
  else (s.put R.THM_BAND (F.THM_BAND_BAND t) b).bump (R.THM_COUNT 4)

/-- A rail's offset follows the tier on it (R472): a change is a request to the sequencer. -/
def State.railBand (s : State) (rail : Nat) : State :=
  let o := bandOffset (s.tierBand (2 + 2 * rail))
  if s.get (R.PWR_RAIL rail) F.PWR_RAIL_OFFSET = o then s
  else (s.put (R.PWR_RAIL rail) F.PWR_RAIL_OFFSET o).seqAdd ⟨.band, none, [], none⟩

/-- The blocks follow the bands of their tiers (Table 21-1). -/
def State.followBands (s : State) : State :=
  let s := (s.railBand 0).railBand 1
  if s.get R.STC_STATUS F.STC_STATUS_BAND = s.tierBand 1 then s else s.storeBand (s.tierBand 1)

/-! ### Caps (R641, R642) -/

/-- Cap 0 is CAP_FAB, 1 CAP_STITCH. -/
def capField (c : Nat) : Fld := if c = 0 then F.PWR_STATUS_CAP_FAB else F.PWR_STATUS_CAP_STITCH
def State.cap (s : State) (c : Nat) : Nat := s.get R.PWR_STATUS (capField c)

/-- The tiers that govern a cap. -/
def capTiers (c : Nat) : List Nat := if c = 0 then [0, 1, 2, 3] else [0, 1, 3, 4]

def State.capRun (s : State) (c : Nat) : CapRun := sget (fun _ => CapRun.init) s.thm.caps c
def State.setCapRun (s : State) (c : Nat) (x : CapRun) : State :=
  { s with thm := { s.thm with caps := sset (fun _ => CapRun.init) s.thm.caps c x } }

/-- The working sensors that govern a cap. -/
def State.governors (s : State) (c : Nat) : List Nat := (capTiers c).flatMap s.working

/-- A tier that governs the cap is in IB5. -/
def State.capFloored (s : State) (c : Nat) : Bool := (capTiers c).any (fun t => decide (s.tierBand t = 5))

/-- The governing temperature is at or above THROTTLE_C; a tier of 12 failed sensors counts as at it (R639). -/
def State.capHot (s : State) (c : Nat) : Bool :=
  (capTiers c).any s.tierLost ||
  (s.governors c).any (fun i => decide (4 * (s.get R.THM_CFG F.THM_CFG_THROTTLE_C : Int) ≤ s.tempOf i))

/-- The governing temperature is at or below THROTTLE_C − 3 °C. -/
def State.capCool (s : State) (c : Nat) : Bool :=
  !(capTiers c).any s.tierLost &&
  (s.governors c).all (fun i => decide (s.tempOf i ≤ 4 * (s.get R.THM_CFG F.THM_CFG_THROTTLE_C : Int) - 12))

/-- A cap steps to `to` (R641): counted, noticed, a request to the sequencer; a step down while ON-AIR breaks K6 (case 1). CLK.FREQ
settings of the tier's islands end (R486). -/
def State.capStep (s : State) (c upto : Nat) : State :=
  let down := decide (upto < s.cap c)
  let hot := (s.hottest (s.governors c)).getD 0
  let s := (s.put R.PWR_STATUS (capField c) upto).bump (R.THM_COUNT (if down then 1 else 2))
  let s := s.report 0x62 hot [] (if down && decide (s.sys.dev = .onAir) then [(1, 1, 6)] else [])
  (s.dropOverride (fun i => (railIslands c).contains i)).seqAdd ⟨.cap, none, [], none⟩

/-- What a reading tells a cap; IB5 takes it to OP0 and holds it there (R642). -/
def State.capRead (s : State) (c : Nat) : State :=
  let x := s.capRun c
  let hot := s.capHot c
  let s := s.setCapRun c ⟨hot, if hot then x.down else none, if s.capCool c then some (x.cool.getD s.stamp) else none⟩
  if s.capFloored c ∧ s.cap c ≠ 0 then s.capStep c 0 else s

/-- The caps at a reading. -/
def State.capsRead (s : State) : State := (s.capRead 0).capRead 1

/-! ### Trip and restart (R644) -/

/-- KIND bits of the trip conditions a working sensor meets: 1 absolute, 2 rate. -/
def State.tripKind (s : State) (i : Nat) : Nat :=
  if s.sensFailed i then 0
  else b2n (decide (4 * (s.get R.THM_CFG F.THM_CFG_TRIP_C : Int) ≤ s.tempOf i)) + 2 * b2n (decide (250 ≤ (s.sens i).run))

/-- The trip of a reading: at the lowest-numbered sensor that meets a condition; in HALTED and TRIPPED only one that newly meets it. -/
def State.tripRead (s : State) : State :=
  let is := (List.range 120).filter (fun i => decide (s.tripKind i ≠ 0))
  let old := s.thm.met
  let s := { s with thm := { s.thm with met := is } }
  let stopped := decide (s.sys.dev = .halted ∨ s.sys.dev = .tripped)
  match is.find? (fun i => !stopped || !old.contains i) with
  | some i =>
    let hot := (s.hottest ((List.range 5).flatMap s.working)).getD i
    s.enterTripped i (s.tripKind i) (s.tempOf hot)
  | none => s

/-- Every working sensor is below RESTART_C. -/
def State.coolEnough (s : State) : Bool :=
  ((List.range 5).flatMap s.working).all (fun i => decide (s.tempOf i < 4 * (s.get R.THM_CFG F.THM_CFG_RESTART_C : Int)))

/-- The restart count starts, goes on or starts again. -/
def State.restartRead (s : State) : State :=
  let r := if s.sys.dev = .tripped ∧ s.coolEnough = true then some (s.thm.restartSince.getD s.stamp) else none
  { s with thm := { s.thm with restartSince := r } }

/-! ### Rows -/

/-- SENSOR_READING (R639): the reading of every sensor, 1 ms after the last one at the earliest; those in `xs` read what it gives, the
others `base`. -/
def execSensorReading (base : Int) (xs : List SensorVal) (s : State) : Out :=
  if s.sys.dev = .off then .next s
  else
    let last := s.thm.lastRead
    let s := s.reach (last + 1000000)
    let s := { s.lifeTime (s.stamp - last) with thm := { s.thm with lastRead := s.stamp } }
    let raw (i : Nat) : Option Int := match xs.find? (fun x => x.sensor == i) with | some x => x.raw | none => some base
    let s := (List.range 120).foldl (fun s i => (s.convert i (raw i)).rates i) s
    let s := (List.range 5).foldl State.tierPeaks s
    let s := ((List.range 5).foldl State.moveTier s).followBands
    .next (s.tripRead.capsRead.restartRead)

/-- CAP_STEP_DOWN (R641): at the first hot reading, then every 100 ms while it stays hot. -/
def execCapStepDown (c : Nat) (s : State) : Out := s.duty 3 <|
  let x := s.capRun c
  if 2 ≤ c ∨ s.sys.dev = .off ∨ x.hot = false ∨ s.cap c = 0 then .next s
  else
    let s := match x.down with | some t => s.reach (t + 100000000) | none => s
    .next ((s.setCapRun c { x with down := some s.stamp }).capStep c (s.cap c - 1))

/-- CAP_STEP_UP (R641): after 1 s at or below THROTTLE_C − 3 °C, then every 1 s. -/
def execCapStepUp (c : Nat) (s : State) : Out := s.duty 3 <|
  let x := s.capRun c
  match x.cool with
  | some t =>
    if 2 ≤ c ∨ s.sys.dev = .off ∨ s.capFloored c = true ∨ s.cap c = 3 then .next s
    else
      let s := s.reach (t + 1000000000)
      .next ((s.setCapRun c { x with cool := some s.stamp }).capStep c (s.cap c + 1))
  | none => .next s

/-- TRIP_RESTART (Table 21-2 step 4): BOOT, or restart withheld by failed sensors. -/
def execTripRestart (s : State) : Out :=
  match s.thm.restartSince with
  | some t =>
    if s.sys.dev ≠ .tripped ∨ s.thm.held = true then .next s
    else
      let s := s.reach (t + s.get R.THM_CFG F.THM_CFG_RESTART_S * 1000000000)
      if (List.range 5).any s.tierLost then .next { s with thm := { s.thm with held := true } } else .next (s.enterBoot true)
  | none => .next s

/-! ### Registers computed on reading, commands -/

/-- THM_STATUS. -/
def State.thmStatus (s : State) : Word :=
  let warn := (List.range 120).any (fun i => s.flag (R.THM_SENSOR i) F.THM_SENSOR_WARN)
  let capped := decide (s.cap 0 < 3 ∨ s.cap 1 < 3)
  let hot := match s.hottest ((List.range 5).flatMap s.working) with
    | some i => i * 2 ^ 16 + unsgn 16 (s.tempOf i)
    | none => 0
  word (b2n warn * 2 ^ 31 + b2n capped * 2 ^ 30 + b2n s.thm.held * 2 ^ 29 + hot)

/-- THM.STATUS (R647). -/
def execThmStatus (mb : Nat) (s : State) : Out := .next <| runCommand spec_THM_STATUS noFields
  (fun _ s => .ok s [s.thmStatus, s.rd R.THM_CFG, s.rd R.THM_BAND]) mb s

/-- THM.SENSORS (R648). -/
def execThmSensors (mb : Nat) (s : State) : Out := .next <| runCommand spec_THM_SENSORS
  (fun c _ =>
    let n := c.n 2 14 8
    badIf (decide (n = 0 ∨ 61 < n ∨ 120 < c.n 2 6 0 + n)))
  (fun c s => .ok s ((List.range (c.n 2 14 8)).map (fun j => s.rd (R.THM_SENSOR (c.n 2 6 0 + j))))) mb s

/-- THM.THROTTLE (R649). -/
def execThmThrottle (mb : Nat) (s : State) : Out := .next <| runCommand spec_THM_THROTTLE
  (fun c _ => badIf (decide (c.n 2 7 0 < 85 ∨ 105 < c.n 2 7 0)))
  (fun c s => .ok (s.put R.THM_CFG F.THM_CFG_THROTTLE_C (c.n 2 7 0))) mb s

/-- THM.COUNTERS (R650). -/
def execThmCounters (mb : Nat) (s : State) : Out := .next <| runCommand spec_THM_COUNTERS noFields
  (fun c s =>
    let r := s.counters ((List.range 5).map R.THM_COUNT) (c.b 2 0)
    .ok r.2 r.1) mb s

end Sys2Proof.Machine
end

