-- ==== Sys2Proof/Machine/Gazetteer.lean ====
section
/-! DEFINITION. The gazetteer: interval samples, image writes, the signed export, and the GAZ commands (spec/22). -/

namespace Sys2Proof.Machine

/-! ### Histograms (R655) -/

/-- Bin of a symbol error ratio: ⌊2 × (17 + log₁₀ SER)⌋ + 1 limited to 1 to 31; 0 without corrected symbols. The logarithm is exact:
the highest power of ten not above SER² × 10³⁴. -/
def serBin (corrected received : Nat) : Nat :=
  if corrected = 0 then 0
  else
    let m := ((List.range 31).filter (fun k => decide (10 ^ k * received ^ 2 ≤ corrected ^ 2 * 10 ^ 34))).length
    min 31 (max 1 m)

/-- The unit is UP: a MAC, or from 16 a yarn port. -/
def State.serUp (s : State) (u : Nat) : Bool :=
  if u < 16 then s.flag (R.FHE_MAC u) F.FHE_MAC_UP else s.yarnUp (u - 16)

/-- Samples at the end of a 600 s interval. -/
def State.gazSamples (s : State) (ser : List SerSample) : State :=
  let s := (ser.filter (fun x => s.gaz.steady.contains x.unit && s.serUp x.unit)).foldl
    (fun (s : State) x => s.gazHist x.unit (serBin x.corrected x.received)) s
  let s := (List.range 5).foldl (fun s t =>
    match s.hottest (s.working t) with
    | some i => s.gazHist (18 + t) ((s.tempOf i + 160) / 20).toNat
    | none => s) s
  let s := (List.range 5).foldl (fun s t => s.gazHist (23 + t) (sget (fun _ => 0) s.gaz.peakR t)) s
  let s := [0, 1].foldl (fun (s : State) r => s.gazHist (30 + r) ((s.get (R.PWR_RAIL r) F.PWR_RAIL_TARGET - 650) / 10)) s
  { s with gaz := { s.gaz with peakR := [], steady := (List.range 18).filter s.serUp } }

/-! ### Export (R658) -/

/-- `bs` cut or filled with zeros to `n` bytes. -/
def fitBytes (n : Nat) (bs : List Byte) : List Byte := (bs ++ List.replicate (n - bs.length) 0).take n

/-- The image written last. -/
def State.gazLast (s : State) : GazImage := if s.gaz.lastB then s.gaz.imgB else s.gaz.imgA

/-- GAZ_STATUS and GAZ_IMSEQ. -/
def State.gazStatus (s : State) : Word :=
  let j := s.gaz.journal.length
  word (b2n s.gaz.lastB * 2 ^ 31 + b2n (decide (7168 ≤ j)) * 2 ^ 30 + b2n s.gaz.writing.isSome * 2 ^ 29 + j)
def State.gazImseq (s : State) : Word := word s.gazLast.seq

/-- The header of an export: its fields in R658's order, filled with zeros to 256 bytes. -/
def State.exportHeader (s : State) : List Byte :=
  fitBytes 256 (leBytes 0x47415A58 4 ++ bytesOfWord (s.rd R.DEV_ID) ++ leBytes Config.serial.toNat 8 ++
    leBytes (match s.recsOf 1 with | r :: _ => r.words.getD 0 0 | [] => 0) 4 ++ leBytes s.stamp 8 ++ bytesOfWord s.gazImseq ++
    leBytes s.gaz.journal.length 4 ++ fitBytes 96 Config.attestKey)

/-- The image of R658: header, counters, histograms, records, signature. -/
def State.exportImage (s : State) : List Byte :=
  let i := s.gazLast
  let body := s.exportHeader ++ (List.range 256).flatMap (fun k => leBytes (sget (fun _ => 0) i.ctr k) 8) ++
    (List.range (48 * 32)).flatMap (fun k => leBytes (sget (fun _ => 0) i.hist k) 4) ++
    s.gaz.journal.flatMap (fun r => r.flatMap bytesOfWord)
  body ++ fitBytes 96 (Config.attestSign (Config.sha384 body))

/-! ### Rows -/

/-- GAZ_IMAGE_WRITE (R652): the write due every 600 s of device stamp time, after the interval's samples. -/
def execGazImageWrite (ser : List SerSample) (s : State) : Out := s.duty 3 <|
  if s.sys.dev = .off ∨ s.sys.dev = .boot then .next s
  else
    let s := (s.reach s.gaz.nextDue).gazSamples ser
    .next ({ s with gaz := { s.gaz with nextDue := s.gaz.nextDue + 600000000000 } }.gazWrite none)

/-- GAZ_IMAGE_WRITE_COMPLETE (R652): the image is complete; one that fell due meanwhile follows it. -/
def execGazImageWriteComplete (s : State) : Out :=
  match s.gaz.writing with
  | none => .next s
  | some w =>
    let g := s.gaz
    let g := if w.toB then { g with imgB := w.image } else { g with imgA := w.image }
    let s := { s with gaz := { g with lastB := w.toB, writing := none, dueAgain := false } }
    let s := s.completeOpt w.openId .DONE
    .next (if g.dueAgain then s.gazWrite none else s)

/-- GAZ.READ (R661). -/
def execGazRead (mb : Nat) (s : State) : Out := .next <| runCommand spec_GAZ_READ
  (fun c s =>
    let f := c.n 2 28 16
    let n := c.n 2 4 0
    badIf (match c.n 2 31 30 with
      | 0 => decide (n = 0 ∨ 30 < n ∨ 256 < f + n)
      | 1 => decide (47 < f)
      | 2 => decide (n = 0 ∨ 7 < n ∨ s.gaz.journal.length < f + n)
      | _ => false))
  (fun c s =>
    let f := c.n 2 28 16
    let n := c.n 2 4 0
    .ok s (match c.n 2 31 30 with
      | 0 => (List.range n).flatMap (fun i => [loWord (s.gazCtr (f + i)), hiWord (s.gazCtr (f + i))])
      | 1 => (List.range 32).map (fun b => word (sget (fun _ => 0) s.gaz.hist (32 * f + b)))
      | 2 => ((s.gaz.journal.drop f).take n).flatten
      | _ => [s.gazStatus, s.gazImseq])) mb s

/-- GAZ.EXPORT (R662). -/
def execGazExport (mb : Nat) (s : State) : Out := .next <| runCommand spec_GAZ_EXPORT
  (fun c _ => badIf (decide (c.n64 2 % 4096 ≠ 0)))
  (fun c s => .acc { s with gaz := { s.gaz with exporting := s.gaz.exporting ++ [⟨c.id, c.n64 2, s.exportImage⟩] } } []) mb s

/-- GAZ_EXPORT_COMPLETE (R662): the oldest export is in host memory. -/
def execGazExportComplete (s : State) : Out :=
  match s.gaz.exporting with
  | x :: rest =>
    .next ((({ s with gaz := { s.gaz with exporting := rest } }).hostWrite x.addr x.bytes).complete x.openId .DONE)
  | [] => .next s

/-- GAZ.FLUSH (R663). -/
def execGazFlush (mb : Nat) (s : State) : Out := .next <| runCommand spec_GAZ_FLUSH noFields
  (fun c s => if s.gaz.writing.isSome then .code .BUSY s else .acc (s.gazWrite (some c.id)) []) mb s

end Sys2Proof.Machine
end

