-- ==== Sys2Proof/Machine/Graticule.lean ====
section
/-! DEFINITION. The rows of the graticule's routes and link tests and the GRT commands (spec/15). -/

namespace Sys2Proof.Machine

/-- The oldest waiting change of the route from `ni` to `dst` takes effect once the old route is empty (R501). -/
def execRouteChangeEffect (ni dst : Nat) (s : State) : Out :=
  match s.grt.changes.find? (fun c => decide (c.ni = ni ∧ c.dst = dst)) with
  | none => .next s
  | some c =>
    if s.routeEmpty ni dst && (!(s.niRoute ni c.index).valid || s.routeEmpty ni (s.niRoute ni c.index).dst) then
      let s := { s with grt := { s.grt with changes := s.grt.changes.erase c } }
      .next ((s.setRoute ni c.index c.entry).completeOpt c.openId .DONE)
    else .next s

/-- The 10 µs pattern of a link test ends (R509). It ran only once every detour was in effect. -/
def execLinkTestEnd (pass : Bool) (s : State) : Out :=
  match s.grt.test with
  | some t => if s.grt.changes = [] ∧ t.swatch = false then .next (s.testFinish t pass) else .next s
  | none => .next s

/-- GRT.STATUS (R512). -/
def execGrtStatus (mb : Nat) (s : State) : Out := .next <| runCommand spec_GRT_STATUS noFields
  (fun _ s => .ok s (s.grtStatus :: (List.range 4).map (fun k => s.rd (R.GRT_FAIL k)))) mb s

/-- GRT.LINK_TEST (R513). -/
def execGrtLinkTest (mb : Nat) (s : State) : Out := .next <| runCommand spec_GRT_LINK_TEST
  (fun c _ => badIf (decide (111 < c.n 2 6 0)))
  (fun c s =>
    let l := c.n 2 6 0
    if s.grt.test.isSome then .code .BUSY s
    else if (s.detours (fun k => s.linkFailed k || decide (k = l)) l).2 then .code .BUDGET_EXCEEDED s
    else .acc (s.testStart ⟨l, some c.id, false, false, []⟩) []) mb s

/-- GRT.LINK_RESTORE (R514). -/
def execGrtLinkRestore (mb : Nat) (s : State) : Out := .next <| runCommand spec_GRT_LINK_RESTORE
  (fun c _ => badIf (decide (111 < c.n 2 6 0)))
  (fun c s =>
    let l := c.n 2 6 0
    if !s.linkFailed l then .code .REFUSED_IN_USE s
    else if s.grt.test.isSome then .code .BUSY s
    else .acc (s.testStart ⟨l, some c.id, true, false, []⟩) []) mb s

/-- GRT.ROUTE_READ (R515); a LEN of 16 reads as 0. -/
def execGrtRouteRead (mb : Nat) (s : State) : Out := .next <| runCommand spec_GRT_ROUTE_READ
  (fun c _ => badIf (!isNi (c.n 2 7 0) || decide (c.n 2 21 16 = 0 ∨ 20 < c.n 2 21 16 ∨ 64 < c.n 2 13 8 + c.n 2 21 16)))
  (fun c s => .ok s ((List.range (c.n 2 21 16)).flatMap (fun i =>
    let e := s.niRoute (c.n 2 7 0) (c.n 2 13 8 + i)
    [word (b2n e.valid * 2 ^ 31 + e.dst * 2 ^ 16 + e.split * 2 ^ 8 + e.len % 16), loWord e.hops, word (e.hops / 2 ^ 32)]))) mb s

/-- The entry a GRT.ROUTE_WRITE holds. -/
def writtenRoute (c : Cmd) : RouteEntry :=
  ⟨c.b 3 31, c.n 3 23 16, if c.n 3 3 0 = 0 then 16 else c.n 3 3 0, c.n 3 11 8, c.n64 4⟩

/-- GRT.ROUTE_WRITE (R516). -/
def execGrtRouteWrite (mb : Nat) (s : State) : Out := .next <| runCommand spec_GRT_ROUTE_WRITE
  (fun c s =>
    let e := writtenRoute c
    let ni := c.n 2 7 0
    let hs := hopsOf e.len e.hops
    badIf (!isNi ni || (e.valid && (!isNi e.dst || !routeOk ni e.dst e.split hs || (routeLinks ni hs).any s.linkFailed ||
      (List.range 64).any (fun i => decide (i ≠ c.n 2 13 8) && (s.niRoute ni i).valid && decide ((s.niRoute ni i).dst = e.dst))))))
  (fun c s =>
    let e := if (writtenRoute c).valid then writtenRoute c else RouteEntry.none
    let old := s.niRoute (c.n 2 7 0) (c.n 2 13 8)
    .acc (s.addChanges [⟨c.n 2 7 0, c.n 2 13 8, if e.valid then e.dst else old.dst, e, some c.id⟩]) []) mb s

/-- GRT.COUNTERS (R517). -/
def execGrtCounters (mb : Nat) (s : State) : Out := .next <| runCommand spec_GRT_COUNTERS noFields
  (fun c s =>
    let r := s.counters ((List.range 6).map R.GRT_COUNT) (c.b 2 0)
    .ok r.2 r.1) mb s

end Sys2Proof.Machine
end

