-- ==== Sys2Proof/Machine/Jsd.lean ====
section
/-! DEFINITION. The JESD204C link layer's rows (spec/12): SYSREF and link establishment, play-out and capture of samples, the
JSD commands. -/

namespace Sys2Proof.Machine

/-- STATE of a link. -/
def State.jsdState (s : State) (k : Nat) : Nat := s.get (R.JSD_STATUS k) F.JSD_STATUS_STATE
def State.setJsdState (s : State) (k v : Nat) : State := s.put (R.JSD_STATUS k) F.JSD_STATUS_STATE v

/-- Replace the link layer's hidden state. -/
def State.setJsd (s : State) (j : Jsd) : State := { s with links := { s.links with jsd := j } }

/-- JSD_LINK fields. -/
def jsdRate (w : Word) : Nat := 245760 * 2 ^ w.bits 29 28
def jsdM (w : Word) : Nat := w.bits 23 18
def jsdNp (w : Word) : Nat := if w.bit 17 then 16 else 12
def jsdF (w : Word) : Nat := w.bits 16 10
def jsdE (w : Word) : Nat := w.bits 9 6
def jsdG (w : Word) : Nat := 2 ^ w.bits 5 4

/-- Q × M·N′·(r / 245.76 Msps), the numerator of Q in air samples (R407). -/
def jsdQnum (w : Word) (l : Nat) : Nat := 4096 * jsdE w * l
def jsdQden (w : Word) : Nat := jsdM w * jsdNp w * 2 ^ w.bits 29 28
/-- Q in air samples. -/
def jsdQ (w : Word) (l : Nat) : Nat := jsdQnum w l / max 1 (jsdQden w)

/-- The conditions of R407 on a configuration for `l` lanes of these rates. -/
def jsdOk (w : Word) (l : Nat) (rates : List Nat) : Bool :=
  let m := jsdM w
  let mn := m * jsdNp w
  let f := jsdF w
  let q := jsdQ w l
  decide (w.bits 29 28 ≠ 3) && decide (1 ≤ l ∧ l ≤ 8) && decide (m % 2 = 0 ∧ 2 ≤ m ∧ m ≤ 32) &&
  decide (1 ≤ f ∧ f ≤ 64) && decide (8 * l * f % mn = 0 ∧ 1 ≤ 8 * l * f / mn ∧ 8 * l * f / mn ≤ 4) &&
  decide (1 ≤ jsdE w ∧ jsdE w ≤ 8 ∧ 256 * jsdE w % f = 0) &&
  decide (jsdQnum w l % jsdQden w = 0 ∧ 1 ≤ q ∧ 245760 % q = 0) &&
  rates.all (fun r => decide (mn * jsdRate w * 66 ≤ (r + 1) * 64 * l ∧ r * 64 * l ≤ mn * jsdRate w * 66 + 64 * l)) &&
  decide (m / 2 % jsdG w = 0 ∧ m / (2 * jsdG w) ≤ 16)

/-- L of a link: its LANE records. -/
def State.jsdLanes (s : State) (k : Nat) : List Nat := s.groupLanes 2 k

/-- Configured links. -/
def State.jsdLinks (s : State) : List Nat := (List.range 16).filter (fun k => s.flag (R.JSD_LINK k) F.JSD_LINK_VALID)

/-! ### SYSREF and establishment (R410, R412, R415) -/

/-- The next edge after the present air time under a JSD_SYSREF value. -/
def edgeAfter (w : Word) (now : Nat) : Nat :=
  let p := max 1 (w.bits 19 0)
  (now / p + 1) * p

/-- Lane `n` can carry its link: in TRAINING or UP, with a good reference (R49, R362). -/
def State.laneReady (s : State) (n : Nat) : Bool := s.laneActive n && s.flag (R.LNE_STATUS n) F.LNE_STATUS_REF_OK

/-- What lane `n` of a link sends in its command channel (R409): 0b10 and its lane number within the link, 7 bits. -/
def State.jsdCommand (s : State) (n : Nat) : Nat := 64 + ((s.jsdLanes (s.laneGroup n)).filter (· < n)).length % 32

/-- A SYSREF edge: each configured link that awaits it, its lanes in TRAINING or out of a low-power state (R371), starts its
establishment (Table 12-6 step 1). A setting that waits takes effect at its air time (R424). -/
def execSysrefEdge (s : State) : Out :=
  let j := s.links.jsd
  let now := s.airNow
  let w := s.rd R.JSD_SYSREF
  let old : Option (Nat × Word) := match j.sysref with
    | some (a, o) => if o.bits 31 30 ≠ 0 ∧ edgeAfter o now < a ∧ (o.bits 31 30 ≠ 1 ∨ j.shots ≠ 0) then some (a, o) else none
    | none => none
  let (w, t, j) : Word × Nat × Jsd := match old with
    | some (_, o) => (o, edgeAfter o now, j)
    | none => match j.sysref with
      | some (a, _) => (w, edgeAfter w (max now (a - 1)), { j with sysref := none, shots := if w.bits 31 30 = 1 then w.bits 27 24 else 0 })
      | none => (w, edgeAfter w now, j)
  if !s.merRuns ∨ w.bits 31 30 = 0 ∨ (w.bits 31 30 = 1 ∧ j.shots = 0) then .next s
  else
    let j := { j with shots := if w.bits 31 30 = 1 then j.shots - 1 else j.shots, lastEdge := some (t, w.bits 19 0) }
    let s := (s.setJsd j).reach (s.stampOfAir t)
    .next (s.jsdLinks.foldl (fun s k =>
      if s.jsdState k = 1 ∧ !(s.jsdLanes k).isEmpty ∧ (s.jsdLanes k).all s.laneReady then
        (s.setJsdLink k { s.jsdLink k with sync := [], emb := [] }).setJsdState k 2
      else s) s)

/-- Every receiver of link `k` holds sync header lock (step 2); `obs` is what they find of polarity and lane order (R372,
R373, R409). -/
def execSyncHeaderLock (k : Nat) (obs : List LaneObs) (s : State) : Out :=
  let ls := s.jsdLanes k
  if 16 ≤ k ∨ s.jsdState k ≠ 2 ∨ obs.map (·.lane) ≠ ls then .next s
  else
    let named := s.flag (R.JSD_LINK k) F.JSD_LINK_LANEID
    let (ok, s) := s.laneDetect (obs.map (fun o => { o with pos := if named then o.pos else none }))
    if ok then .next (s.setJsdLink k { s.jsdLink k with sync := ls }) else .next s

/-- Every receiver of link `k` holds extended multiblock lock (step 3). -/
def execEmbLock (k : Nat) (s : State) : Out :=
  if 16 ≤ k ∨ s.jsdState k ≠ 2 ∨ (s.jsdLink k).sync = [] then .next s
  else .next (s.setJsdLink k { s.jsdLink k with emb := (s.jsdLink k).sync })

/-- The instant of step 4: the next LEMC boundary, which SYSREF keeps at the multiples of Q, plus RBD. -/
def State.releaseAt (s : State) (k : Nat) : Nat :=
  let w := s.rd (R.JSD_LINK k)
  let q := max 1 (jsdQ w (s.jsdLanes k).length)
  (s.airNow / q + 1) * q + (Config.jsdRbd w).toNat

/-- The elastic buffers are released together: the receive direction and the lanes are UP (step 4). -/
def execElasticBufferRelease (k : Nat) (s : State) : Out :=
  if 16 ≤ k ∨ s.jsdState k ≠ 2 ∨ (s.jsdLink k).emb = [] ∨ !(s.jsdLanes k).all s.laneReady then .next s
  else
    let s := s.reach (s.stampOfAir (s.releaseAt k))
    .next (((s.jsdLanes k).foldl State.laneUpNow s).setJsdState k 3).lanesDone

/-- A link goes back to step 1 of Table 12-6 and the fault is reported (R415, R378). -/
def State.jsdAgain (s : State) (n : Nat) : State := (s.report 0x51 (s.laneGroup n)).groupFault n

/-- A CRC-12 error of one multiblock of lane `n`: counted; the sixteenth within 1 ms re-establishes the link (R415). -/
def execCrc12Error (n : Nat) (s : State) : Out :=
  let k := s.laneGroup n
  if s.laneClass n ≠ 2 ∨ s.jsdState k ≠ 3 then .next s
  else
    let s := s.bump (R.JSD_COUNT k 0)
    let l := s.jsdLink k
    let ts := (sget (fun _ => []) l.crc n).filter (fun t => decide (s.stamp < t + 1000000)) ++ [s.stamp]
    if 16 ≤ ts.length then .next ((s.setJsdLink k { l with crc := sdel l.crc n }).jsdAgain n)
    else .next (s.setJsdLink k { l with crc := sset (fun _ => []) l.crc n ts })

/-- Loss of extended multiblock lock of lane `n` (R415). -/
def execEmbLockLoss (n : Nat) (s : State) : Out :=
  if s.laneClass n ≠ 2 ∨ s.jsdState (s.laneGroup n) ≠ 3 then .next s else .next (s.jsdAgain n)

/-! ### Play-out (R408, R413) -/

/-- A JSD_TX endpoint. -/
def State.jsdTx (s : State) (i : Nat) : JsdTx := sget (fun _ => JsdTx.init) s.links.jsd.tx i
def State.setJsdTx (s : State) (i : Nat) (x : JsdTx) : State :=
  s.setJsd { s.links.jsd with tx := sset (fun _ => JsdTx.init) s.links.jsd.tx i x }

/-- L_JT and L_JR of a link (R411). -/
def State.ljt (s : State) (k : Nat) : Nat := s.get (R.JSD_STATUS k) F.JSD_STATUS_DEV_TX + s.get (R.JSD_LAT k) F.JSD_LAT_CONV_TX
def State.ljr (s : State) (k : Nat) : Nat := s.get (R.JSD_STATUS k) F.JSD_STATUS_DEV_RX + s.get (R.JSD_LAT k) F.JSD_LAT_CONV_RX

/-- A transmitted element: unchanged with N′ = 16; with N′ = 12 each component RNE(c / 16) in 12 bits. With the number of
saturations. -/
def txConvert (np16 : Bool) (d : BitVec 64) : Nat × Nat :=
  if np16 then (d.toNat, 0)
  else
    let cs := (List.range 4).map (fun i => narrow 12 (shiftRound 2 (sgn 16 (d.toNat / 2 ^ (16 * i))) 4))
    (cs.foldr (fun c a => a * 4096 + unsgn 12 c.1) 0, cs.countP (·.2))

/-- Elements a muted endpoint discards, up to and including the next seam; whether it met one, and how many. -/
def dropSeam : List Elem → List Elem × Bool × Nat
  | [] => ([], false, 0)
  | e :: l => if e.isSeam then (l, true, 1) else
    let (r, ok, n) := dropSeam l
    (r, ok, n + 1)

/-- Take `k` elements of stream `n`, which the endpoint does not play. -/
def State.takeMany (s : State) (n : Nat) : Nat → State
  | 0 => s
  | k + 1 => (s.strTake n).2.takeMany n k

/-- The endpoint goes through its queue to the next element to play: seams end a gap of COUNT 0, gaps become zero elements, late
elements are discarded. Answers the element's data, `some 0` for a zero of a gap, or none. -/
def State.jsdNext (s : State) (i n : Nat) : Nat → Option (BitVec 64) × State
  | 0 => (none, s)
  | fuel + 1 =>
    let x := s.jsdTx i
    if x.zeros ≠ 0 then (some 0, s.setJsdTx i { x with zeros := x.zeros - 1 })
    else match (s.stream n).inbox with
      | [] => if x.zeroToSeam then (some 0, s) else (none, s)
      | e :: _ =>
        let s := (s.strTake n).2
        if e.isSeam then (s.setJsdTx i { x with zeroToSeam := false }).jsdNext i n fuel
        else if x.zeroToSeam then s.jsdNext i n fuel
        else if e.isGap then
          if e.count = 0 then (s.setJsdTx i { x with zeroToSeam := true }).jsdNext i n fuel
          else
            let z := e.count - min e.count x.skip
            (s.setJsdTx i { x with zeros := z, skip := x.skip - min e.count x.skip }).jsdNext i n fuel
        else if x.skip ≠ 0 then (s.setJsdTx i { x with skip := x.skip - 1 }).jsdNext i n fuel
        else (some e.data, s)

/-- The samples that link `k` sends of two that an element gives, the earlier in the low half: zero in place of a muted one. -/
def halves (np16 m1 m2 : Bool) (v : Nat) : Nat :=
  let h := if np16 then 2 ^ 32 else 2 ^ 24
  (if m1 then 0 else v % h) + (if m2 then 0 else v / h % h * h)

/-- At a schedule mute endpoint `i` discards up to the next seam (R413). -/
def State.jsdMute (s : State) (i : Nat) : State :=
  s.setJsdTx i { s.jsdTx i with muted := true, dropToSeam := true, zeros := 0, skip := 0, zeroToSeam := false }

/-- The discard of a muted endpoint goes on with what its stream has delivered, counted in JSD_COUNT[4]. -/
def State.jsdDrop (s : State) (k i : Nat) : State :=
  match s.epStream (0x4000 + i) with
  | none => s
  | some n =>
    if !(s.jsdTx i).dropToSeam then s
    else
      let d := dropSeam (s.stream n).inbox
      let s := (s.takeMany n d.2.2).bump (R.JSD_COUNT k 4) d.2.2
      s.setJsdTx i { s.jsdTx i with dropToSeam := !d.2.1 }

/-- At an unmute play starts after the most recent seam received (R413). -/
def State.jsdUnmute (s : State) (i : Nat) : State :=
  let s := match s.epStream (0x4000 + i) with
    | none => s
    | some n => s.takeMany n ((s.stream n).inbox.zipIdx.foldl (fun (a : Nat) (e : Elem × Nat) => if e.1.isSeam then e.2 + 1 else a) 0)
  s.setJsdTx i { s.jsdTx i with muted := false }

/-- Two samples of antenna element `g` of element stream `j` of link `k` are due, the earlier at air time `t` (R413): each is muted by the
schedule mute of its own air time. Zero is sent before ON-AIR and while the link's transmit direction is not UP; a budget mute is seen
when the samples go out (`State.jsdSent`). -/
def execJsdTxSampleDue (k j g t : Nat) (s : State) : Out :=
  let i := 16 * k + j
  let cfg := s.rd (R.JSD_LINK k)
  if 16 ≤ k ∨ !s.flag (R.JSD_LINK k) F.JSD_LINK_VALID ∨ jsdG cfg ≤ g ∨ jsdM cfg / (2 * jsdG cfg) ≤ j ∨ s.jsdState k = 0 then .next s
  else
    let s := s.reach (s.stampOfAir (t - s.ljt k))
    let m1 := s.muteAt k t
    let m2 := s.muteAt k (t + 2 / 2 ^ cfg.bits 29 28)
    let was := (s.jsdTx i).muted
    if m1 && m2 then
      let s := (if was then s else s.jsdMute i).jsdDrop k i
      .next (s.setJsdTx i { s.jsdTx i with last := 0 })
    else
      let s := s.jsdDrop k i
      let s := if was then s.jsdUnmute i else s
      let out : Option (BitVec 64) × State := match s.epStream (0x4000 + i) with
        | some n => if (s.jsdTx i).dropToSeam then (none, s) else s.jsdNext i n ((s.stream n).inbox.length + 2)
        | none => (none, s)
      let s := match out with
        | (some d, s) =>
          let np16 := s.flag (R.JSD_LINK k) F.JSD_LINK_NP16
          let (v, sat) := txConvert np16 d
          let s := if sat = 0 then s else s.bump (R.JSD_COUNT k 3) sat
          let quiet := !s.onAirAt t || (s.jsdState k != 2 && s.jsdState k != 3)
          s.setJsdTx i { s.jsdTx i with last := if quiet then 0 else halves np16 m1 m2 v }
        | (none, s) =>
          let s := s.bump (R.JSD_COUNT k 2) 2
          let y := s.jsdTx i
          s.setJsdTx i { y with last := 0, skip := if y.dropToSeam then y.skip else y.skip + 1 }
      .next (if m2 then s.jsdMute i else s)

/-- What endpoint `i` of link `k` sends: zero while the holdover budget mute applies (R47, R413). -/
def State.jsdSent (s : State) (i : Nat) : Nat := if s.budgetMute then 0 else (s.jsdTx i).last

/-! ### Capture (R408, R414) -/

/-- A received element: N′ = 12 samples become 16 v. -/
def rxConvert (np16 : Bool) (raw : List Nat) : BitVec 64 :=
  let c (i : Nat) : Nat := if np16 then raw.getD i 0 % 2 ^ 16 else unsgn 16 (16 * sgn 12 (raw.getD i 0))
  BitVec.ofNat 64 (c 3 * 2 ^ 48 + c 2 * 2 ^ 32 + c 1 * 2 ^ 16 + c 0)

/-- The end of a window: its own, or an unmute already dispatched. -/
def State.winEnd (s : State) (k : Nat) (w : JsdWin) : Option Nat :=
  let un := s.air.due.filter (fun d => decide (d.e.action = 4) && d.e.w1.bit k && !d.e.w2.bit 0)
  match w.to_, un.head? with
  | some x, some d => some (min x d.at_)
  | some x, none => some x
  | none, some d => if w.from_ ≤ d.at_ then some d.at_ else none
  | none, none => none

/-- Two samples of antenna element `g` of stream `j` of link `k` arrive, the earlier of air time `t`, as four N′-bit components;
none while the link is not UP, when a gap takes their place (R378). -/
def execJsdRxSample (k j g t : Nat) (raw : List Nat) (s : State) : Out :=
  let i := 16 * k + j
  let cfg := s.rd (R.JSD_LINK k)
  if 16 ≤ k ∨ !s.flag (R.JSD_LINK k) F.JSD_LINK_VALID ∨ jsdG cfg ≤ g ∨ jsdM cfg / (2 * jsdG cfg) ≤ j then .next s
  else
    let l := s.jsdLink k
    match l.wins.find? (fun w => decide (w.from_ ≤ t) && (match s.winEnd k w with | some e => decide (t < e) | none => true)) with
    | none => .next s
    | some w =>
      match s.epStream (0x3000 + i) with
      | none => .next s
      | some n =>
        let s := s.reach (s.stampOfAir (t + s.ljr k))
        let first := !w.seamed.contains j
        let step := 4 / 2 ^ cfg.bits 29 28
        let last := decide (g + 1 = jsdG cfg) && (match s.winEnd k w with | some e => decide (e ≤ t + step) | none => false)
        let s := if first then (s.strOffer n none (mkSeam 0)).2 else s
        let s := if first then
            s.setJsdLink k { l with wins := l.wins.map (fun v => if v.from_ = w.from_ then { v with seamed := v.seamed ++ [j] } else v) }
          else s
        let sb : BitVec 8 := BitVec.ofNat 8 (b2n first + 2 * b2n last)
        let e : Elem := if s.jsdState k = 3 then ⟨rxConvert (cfg.bit 17) raw, sb⟩ else { mkGap 1 with sb := sb ||| 4 }
        .next ((s.strOffer n none e).2.tapTake i t e.data)

/-! ### Registers computed when read -/

/-- JSD_STATUS: TX_MUTED and RX_OPEN are what R313 and R414 make them now. -/
def State.jsdStatus (s : State) (k : Nat) : Word :=
  let now := s.airNow
  let mute := (s.jsdLink k).muted || s.budgetMute || decide (s.sys.dev ≠ .onAir)
  let open_ := (s.jsdLink k).wins.any (fun w => decide (w.from_ ≤ now) &&
    (match s.winEnd k w with | some e => decide (now < e) | none => true))
  F.JSD_STATUS_RX_OPEN.put (F.JSD_STATUS_TX_MUTED.put (s.rd (R.JSD_STATUS k)) (b2n mute)) (b2n open_)

/-! ### Commands (R418, R422 to R425) -/

/-- JSD.STATUS (R422). -/
def execJsdStatus (mb : Nat) (s : State) : Out := .next <| runCommand spec_JSD_STATUS noFields
  (fun c s =>
    let k := c.n 2 3 0
    .ok s [s.rd (R.JSD_LINK k), s.rd (R.JSD_LAT k), s.rd (R.JSD_RXWIN k), s.jsdStatus k,
      word (s.ljt k * 2 ^ 16 + s.ljr k), s.rd R.JSD_SYSREF]) mb s

/-- The rates of a link's lanes. -/
def State.jsdRates (s : State) (k : Nat) : List Nat :=
  (s.jsdLanes k).filterMap (fun n => (laneRecOf s.svy.recs n).map (fun r => r.words.getD 1 0))

/-- What JSD.LINK finds wrong (R407, R423): a link without lanes first. Lanes that the link layer does not support, PAM4 or above
32.5 Gbit/s (R406), are as wrong as a rate that does not fit. -/
def jsdLinkBad (c : Cmd) (s : State) : Option RetCode :=
  let k := c.n 2 3 0
  let l := (s.jsdLanes k).length
  if l = 0 then some .NOT_PERMITTED
  else badIf (!jsdOk (c.w 3) l (s.jsdRates k) || (s.jsdRates k).any (fun r => decide (32500000 < r)) ||
    (s.jsdLanes k).any (fun n => s.flag (R.LNE_RATE n) F.LNE_RATE_PAM4) || decide ((s.rd R.JSD_SYSREF).bits 19 0 % max 1 (jsdQ (c.w 3) l) ≠ 0))

/-- JSD.LINK (R423). -/
def execJsdLink (mb : Nat) (s : State) : Out := .next <| runCommand spec_JSD_LINK jsdLinkBad
  (fun c s =>
    let k := c.n 2 3 0
    let ls := s.jsdLanes k
    let used := (List.range 16).any (fun j => (s.epStream (0x3000 + 16 * k + j)).isSome || (s.epStream (0x4000 + 16 * k + j)).isSome)
    if used || ls.any (fun n => s.laneState n == laneUP) then .code .REFUSED_IN_USE s
    else
      let w := word (2 ^ 31 + c.n 3 30 28 * 2 ^ 28 + ls.length * 2 ^ 24 + c.n 3 23 4 * 2 ^ 4)
      let s := ((s.wr (R.JSD_LINK k) w).wr (R.JSD_LAT k) (word (c.n 4 31 8 * 2 ^ 8))).wr (R.JSD_RXWIN k) (c.w 5)
      let s := (s.put (R.JSD_STATUS k) F.JSD_STATUS_DEV_TX (Config.jsdDevTx w).toNat).put (R.JSD_STATUS k)
        F.JSD_STATUS_DEV_RX (Config.jsdDevRx w).toNat
      let down := ls.any (fun n => s.laneState n == laneDOWN)
      .ok (s.setJsdState k (if down then 4 else 1))) mb s

/-- JSD.SYSREF (R412, R424): the register at once, its effect at the next multiple of 245 760 samples. -/
def execJsdSysref (mb : Nat) (s : State) : Out := .next <| runCommand spec_JSD_SYSREF
  (fun c s =>
    let p := c.n 2 19 0
    badIf (decide (c.n 2 31 30 = 3) || (decide (c.n 2 31 30 = 1) && decide (c.n 2 27 24 = 0)) || decide (p = 0) ||
      decide (245760 % p ≠ 0) ||
      s.jsdLinks.any (fun k => decide (p % max 1 (jsdQ (s.rd (R.JSD_LINK k)) (s.jsdLanes k).length) ≠ 0))))
  (fun c s =>
    let old := match s.links.jsd.sysref with
      | some (a, o) => if s.airNow < a then o else s.rd R.JSD_SYSREF
      | none => s.rd R.JSD_SYSREF
    let s := s.setJsd { s.links.jsd with sysref := some ((s.airNow / 245760 + 1) * 245760, old) }
    .ok (s.wr R.JSD_SYSREF (word ((c.w 2).toNat &&& 0xCF0FFFFF)))) mb s

/-- JSD.COUNTERS (R425). -/
def execJsdCounters (mb : Nat) (s : State) : Out := .next <| runCommand spec_JSD_COUNTERS noFields
  (fun c s =>
    let (d, s') := s.counters ((List.range 5).map (R.JSD_COUNT (c.n 2 3 0))) (c.b 2 8)
    .ok s' d) mb s

end Sys2Proof.Machine
end

