-- ==== Sys2Proof/Machine/Power.lean ====
section
/-! DEFINITION. The rows of clocks and power (spec/14): the crystal and the generators, gates, the sequencer, island power
switches, DORMANT, the CLK and PWR commands. -/

namespace Sys2Proof.Machine

/-! ### Crystal and generators (R460 to R463) -/

/-- A 10 ms gate ends (R460). `mref` is XTAL's offset from MREF in ppm, where MREF is present, `iro` its offset from IRO. -/
def execXtalGate (mref : Option Int) (iro : Int) (s : State) : Out :=
  if !s.sys.xtalStable then .next s
  else
    let tol : Int := if s.flag R.CKI_STATUS F.CKI_STATUS_IRO_TRIMMED then 1200 else 50200
    let surveyed := s.svy.committed && s.oscMref != 0
    let m := if surveyed then mref else none
    let s := match m with
      | some d => s.put R.CKI_STATUS F.CKI_STATUS_XTAL_PPM (unsgn 8 (satInt 8 d))
      | none => s
    let bad := (match m with | some d => decide (200 < d.natAbs) | none => false) || decide (tol < (iro.natAbs : Int))
    let ok := s.flag R.CKI_STATUS F.CKI_STATUS_XTAL_OK
    if bad then
      if ok && decide (1 ≤ s.pwr.failRun) then .next s.crystalFault
      else .next { s with pwr := { s.pwr with failRun := s.pwr.failRun + 1, passRun := 0 } }
    else
      let n := s.pwr.passRun + 1
      let s := { s with pwr := { s.pwr with failRun := 0, passRun := n } }
      if !ok && decide (100 ≤ n) then
        .next ((s.put R.CKI_STATUS F.CKI_STATUS_XTAL_OK 1).put R.CKI_STATUS F.CKI_STATUS_STAMP_XTAL 1)
      else .next s

/-- No XTAL edge for 2 µs (R460). -/
def execXtalEdgeTimeout (s : State) : Out :=
  if s.sys.xtalStable && s.flag R.CKI_STATUS F.CKI_STATUS_XTAL_OK then .next s.crystalFault else .next s

/-- The generator of island `i` loses its reference (R463). -/
def execGeneratorReferenceLoss (i : Nat) (s : State) : Out :=
  if xtalIslands.contains i ∧ s.sys.xtalStable ∧ sget (fun _ => false) s.pwr.coast i = false then .next (s.coastNow i) else .next s

/-- The generator of island `i` locks to XTAL again (R461): its effective point follows through the sequencer. -/
def execGeneratorLock (i : Nat) (s : State) : Out :=
  if s.flag R.CKI_STATUS F.CKI_STATUS_XTAL_OK ∧ sget (fun _ => false) s.pwr.coast i = true then
    let s := { s with pwr := { s.pwr with coast := sset (fun _ => false) s.pwr.coast i false } }
    .next (if i < 72 then s.seqAdd ⟨.relock, none, [], none⟩ else s)
  else .next s

/-! ### The sequencer (R473, R474) -/

/-- The sequencer takes its next request. -/
def execSequencerRequestServe (s : State) : Out := .next s.seqStart

/-- The regulator of `rail` acknowledges a step `elapsed` ns after it was sent. -/
def execAvsAck (rail elapsed : Nat) (s : State) : Out :=
  match s.pwr.serving with
  | none => .next s
  | some v =>
    match v.step with
    | none => .next s
    | some (r, sent) =>
      if r ≠ rail ∨ 2000000 < elapsed then .next s
      else
        let s := s.reach (sent + elapsed)
        let s := if 20000 < elapsed then s.bump (R.PWR_COUNT 1) else s
        let s := s.railStep r (if r = 0 then v.new.1 else v.new.2)
        match v.phase with
        | .raise => .next (s.seqRaise v)
        | _ => .next (s.seqLower v)

/-- A regulator does not acknowledge within 2 ms: the request ends, the rails are held at the higher of old and new. -/
def execAvsAckTimeout (s : State) : Out :=
  match s.pwr.serving with
  | none => .next s
  | some v =>
    match v.step with
    | none => .next s
    | some (r, sent) =>
      let s := ((s.reach (sent + 2000000)).bump (R.PWR_COUNT 1)).report 0x04 r
      let s := (s.put (R.PWR_RAIL 0) F.PWR_RAIL_TARGET (max v.old.1 v.new.1)).put (R.PWR_RAIL 1) F.PWR_RAIL_TARGET
        (max v.old.2 v.new.2)
      .next (s.seqEnd v .SURVEY_MISMATCH)

/-- An island restarts at its new frequency (R474). -/
def execFrequencyChangeRestart (s : State) : Out :=
  match s.pwr.serving with
  | none => .next s
  | some v =>
    match v.phase, v.todo with
    | .freq, (i, k) :: rest =>
      let s := (s.islandParts i).foldl State.markLate s
      let s := (s.setKhz i (min k (s.wantKhz i))).bump (R.PWR_COUNT 0)
      .next (s.seqFreq { v with todo := rest })
    | _, _ => .next s

/-! ### Island power switches (R475 to R477) -/

/-- Step 3 of Table 14-4: the point of no return of island `i`; the copies of its captured sheets are abandoned (R201). -/
def execIslandPowerSwitchOpen (i : Nat) (s : State) : Out :=
  if i < 72 ∧ s.pwr.dorm = .none ∧ s.stage i = .closing then
    .next ((s.setStage i .opened).capCopied (fun n => decide (s.lead n = s.leadIsland i)) true)
  else .next s

/-- Step 4: the island is OFF. A request held at its gate powers it up again. -/
def execIslandOff (i : Nat) (s : State) : Out :=
  let l := s.leadIsland i
  let waits := (sget (fun _ => none) s.pwr.stageOpen l).isSome
  if 72 ≤ i ∨ s.pwr.dorm ≠ .none then .next s
  else match s.stage i with
    | .opened =>
      let s := ((s.setStage l .off).setPsw l false).stageDone l .DONE
      if sget (fun _ => false) s.pwr.held l then .next ((s.setStage l .powering).bump (R.PWR_COUNT 3))
      else .next s
    | .off => .next (if waits then s.stageDone l .DONE else s)
    | _ => .next s

/-- The end of power-up (R477). -/
def execIslandPowerUpComplete (i : Nat) (s : State) : Out :=
  let l := s.leadIsland i
  if 72 ≤ i ∨ s.pwr.dorm ≠ .none then .next s
  else match s.stage i with
    | .powering =>
      let s := ((s.setStage l .on).setPsw l true).islandInit l
      let s := { s with pwr := { s.pwr with held := sset (fun _ => false) s.pwr.held l false } }
      .next (s.fitRails.stageDone l .DONE)
    | .on => .next (s.stageDone l .DONE)
    | _ => .next s

/-! ### DORMANT (R479, R480) -/

/-- E3: every power switch opens; the entry can no longer be aborted. -/
def execDormantPointOfNoReturn (s : State) : Out :=
  if s.pwr.dorm = .entry then
    .next (((({ s with pwr := { s.pwr with dorm := .noReturn } }).stageAll .opened).capCopied (fun _ => true) true).dormDone .DONE)
  else .next s

/-- The device is in phase `p` of DORMANT. -/
def State.setDorm (s : State) (p : DormPhase) : State := { s with pwr := { s.pwr with dorm := p } }

/-- The device is in phase `p` of DORMANT, with no wake held. -/
def State.dormAt (s : State) (p : DormPhase) : State := { s with pwr := { s.pwr with dorm := p, heldWake := false, held := [] } }

/-- E4: rails at 0.65 V, state DORMANT; a held wake starts the exit at once. -/
def execDormantEntryComplete (s : State) : Out :=
  if s.pwr.dorm = .noReturn then
    let v := (((s.stageAll .off).resetKeys [R.PWR_RAIL 0, R.PWR_RAIL 1]).allOpen).stagesDone State.stageAsksOff .DONE
    .next ((v.dormAt (if v.pwr.heldWake then .exitPower else .dormant)).enter .dormant)
  else .next s

/-- A wake event (R480): 0x01 to 0x10 an enabled edge on PA00 to PA15 held for 100 ns, 0x11 a host post. -/
def execWakeEvent (src : Nat) (s : State) : Out :=
  if src = 0x11 ∨ (1 ≤ src ∧ src ≤ 16 ∧ s.bit R.PWR_WAKE (src - 1) = true) then .next (s.wake src) else .next s

/-- Rail `r` is at `v` and asks for it. -/
def State.railAt (s : State) (r v : Nat) : State := (s.put (R.PWR_RAIL r) F.PWR_RAIL_TARGET v).put (R.PWR_RAIL r) F.PWR_RAIL_PRESENT v

/-- Every sheet and wale as after power-up. -/
def State.allInit (s : State) : State := (List.range 72).foldl (fun s i => if i < 32 then s.sheetInit i else s.waleInit (i - 32)) s

/-- Every switched island on, its registers and contents as after power-up, VDD_FAB and VDD_STITCH at `v0` and `v1`. -/
def State.allPowered (s : State) (v0 v1 : Nat) : State :=
  (((((s.railAt 0 v0).railAt 1 v1).stageAll .on).resetKeys [R.PWR_PSW 0, R.PWR_PSW 1, R.PWR_PSW 2]).allInit).stagesDone (fun _ _ => true) .DONE

/-- X2: rails at their targets, power switches closed, islands reset with initial values. -/
def execDormantExitPowerUp (s : State) : Out :=
  if s.pwr.dorm = .exitPower then
    .next ((s.allPowered (s.railTarget 0 true) (s.railTarget 1 true)).setDorm .exitQuiet)
  else .next s

/-- X3: the state is QUIET, lanes at the LP1 floor. -/
def execDormantExitComplete (s : State) : Out :=
  if s.pwr.dorm = .exitQuiet then
    let s := ({ s with pwr := { s.pwr with dorm := .none } }.enter .quiet).lanesMove
    .next ([1, 2].foldl State.pairResumes (s.liveStreams.foldl (fun s n => if epKind (s.strProducer n) = 5 then s else s.strRestart n) s))
  else .next s

/-! ### Commands (R483 to R491) -/

/-- CLK.STATUS (R484). -/
def execClkStatus (mb : Nat) (s : State) : Out := .next <| runCommand spec_CLK_STATUS noFields
  (fun _ s => .ok s (s.rd R.CKI_STATUS :: (List.range 5).map s.onIsl ++ (List.range 5).map (fun k => s.rd (R.CKI_REFLOST k)))) mb s

/-- An island that a fabric post may not name (R205, R483). -/
def foreignIsland (c : Cmd) (s : State) (i : Nat) : Bool :=
  if i < 32 then foreignSheet c s i else if i < 72 then foreignWale c s (i - 32) else c.sheet.isSome

/-- CLK.GATE (R468, R485). -/
def execClkGate (mb : Nat) (s : State) : Out := .next <| runCommand spec_CLK_GATE
  (fun c s =>
    let top := match c.n 2 17 16 with | 0 => 143 | 1 => 21 | _ => 3
    if c.n 2 17 16 = 3 ∨ top < c.n 2 7 0 then some .BAD_FIELD
    else if c.sheet.isSome ∧ c.n 2 17 16 ≠ 0 then some .NOT_PERMITTED
    else if foreignIsland c s (c.n 2 7 0) then some .NOT_OWNER else none)
  (fun c s =>
    let l := c.n 2 17 16
    let i := c.n 2 7 0
    if s.gateClosed l i then .code .NOT_PERMITTED s.gateRefuse
    else if s.gateOrder l i (c.b 2 8) then .code .REFUSED_IN_USE s.gateRefuse
    else .ok (s.gateTaken l i (c.b 2 8))) mb s

/-- The sequencer's queue is full. -/
def State.seqFull (s : State) : Bool := decide (16 ≤ s.pwr.queue.length)

/-- CLK.FREQ (R486). -/
def execClkFreq (mb : Nat) (s : State) : Out := .next <| runCommand spec_CLK_FREQ
  (fun c _ => badIf (decide (71 < c.n 2 6 0) || decide (c.n 3 20 0 < 50000)))
  (fun c s =>
    let i := s.leadIsland (c.n 2 6 0)
    if s.pointKhz i (s.effPoint i) < c.n 3 20 0 then .code .BUDGET_EXCEEDED s
    else if s.seqFull then .code .BUSY s
    else .acc (s.seqAdd ⟨.clkFreq, some (i, c.n 3 20 0), [], some c.id⟩) []) mb s

/-- PWR_STATUS as read. -/
def State.pwrStatus (s : State) : Word :=
  let w := F.PWR_STATUS_FLOOR.put (s.rd R.PWR_STATUS) s.floor
  F.PWR_STATUS_SEQ_BUSY.put (F.PWR_STATUS_QUEUED.put w (min 16 s.pwr.queue.length)) (b2n s.pwr.serving.isSome)

/-- PWR.STATUS (R487). -/
def execPwrStatus (mb : Nat) (s : State) : Out := .next <| runCommand spec_PWR_STATUS noFields
  (fun _ s => .ok s [s.pwrStatus, s.rd (R.PWR_RAIL 0), s.rd (R.PWR_RAIL 1)]) mb s

/-- The islands PWR.OP names. -/
def opIslands (c : Cmd) : List Nat :=
  (List.range 72).filter (fun i => if i < 32 then c.b 2 i else if i < 64 then c.b 3 (i - 32) else c.b 4 (i - 64))

/-- PWR.OP (R470, R488). -/
def execPwrOp (mb : Nat) (s : State) : Out := .next <| runCommand spec_PWR_OP
  (fun c s =>
    if (opIslands c).isEmpty then some .BAD_FIELD
    else if (opIslands c).any (foreignIsland c s) then some .NOT_OWNER else none)
  (fun c s =>
    if s.seqFull then .code .BUSY s
    else
      let all := (opIslands c).flatMap (fun i => s.islandParts (s.leadIsland i))
      let s := all.foldl (fun s i => s.put (R.PWR_OP (i / 16)) (F.PWR_OP_OP (i % 16)) (c.n 5 1 0)) s
      .acc ((s.dropOverride all.contains).seqAdd ⟨.pwrOp, none, all, some c.id⟩) []) mb s

/-- A gate channel of a wale is enabled. -/
def State.gatesEnabled (s : State) (w : Nat) : Bool := (List.range 16).any (fun g => s.flag (R.WAL_GATE w g) F.WAL_GATE_EN)

/-- PWR.ISLAND (R475, R489). -/
def execPwrIsland (mb : Nat) (s : State) : Out := .next <| runCommand spec_PWR_ISLAND
  (fun c s =>
    if 71 < c.n 2 6 0 then some .BAD_FIELD
    else if s.sys.dev ≠ .charted ∧ s.sys.dev ≠ .onAir ∧ s.sys.dev ≠ .quiet then some .NOT_PERMITTED
    else if foreignIsland c s (c.n 2 6 0) then some .NOT_OWNER else none)
  (fun c s =>
    let i := c.n 2 6 0
    let l := s.leadIsland i
    let on := c.b 2 8
    let st := s.stage l
    if !on && decide (32 ≤ i) && s.gatesEnabled (i - 32) then .code .REFUSED_IN_USE s
    else if s.pwr.dorm ≠ .none ∨ (sget (fun _ => none) s.pwr.stageOpen l).isSome ∨ (st ≠ .on ∧ st ≠ .off) then .code .BUSY s
    else
      let s := { s with pwr := { s.pwr with stageOpen := sset (fun _ => none) s.pwr.stageOpen l (some c.id) } }
      let s := match on, st with
        | false, .on =>
          let s := s.setStage l .closing
          (s.islandParts l).foldl (fun s n => if n < 32 then s.portAbandon n else s) s
        | true, .off => s.setStage l .powering
        | _, _ => s
      .acc s [b2n on]) mb s

/-- PWR.WAKE (R490). -/
def execPwrWake (mb : Nat) (s : State) : Out := .next <| runCommand spec_PWR_WAKE noFields
  (fun c s => .ok (s.wr R.PWR_WAKE (c.w 2))) mb s

/-- PWR.AVS_READ (R491): `r` is the regulator's reply, in mV, mA and 1/256 °C; none when it does not reply within 2 ms. -/
def execPwrAvsRead (mb : Nat) (r : Option (Nat × Nat × Int)) (s : State) : Out := .next <| runCommand spec_PWR_AVS_READ
  (fun c _ => badIf (!c.replyWanted))
  (fun _ s => match r with
    | some (mv, ma, t) => .ok s [word (mv % 2 ^ 16), word ma, word (unsgn 16 t)]
    | none => .code .SURVEY_MISMATCH s) mb s

end Sys2Proof.Machine
end

