-- ==== Sys2Proof/Machine/Swatch.lean ====
section
/-! DEFINITION. Events of the swatch controller, repairs and the SWT commands (spec/20, R525). -/

namespace Sys2Proof.Machine

/-! ### Targets, run conditions and steps (Tables 20-1 and 20-2) -/

/-- TARGET names a resource of the kind. -/
def targetOk (kind target : Nat) : Bool :=
  match kind with
  | 1 => decide (target / 32 < 40 ∧ target % 32 ≤ 16)
  | 2 => decide (target < 32)
  | 3 => decide (target / 64 < 32 ∧ target % 64 < 40)
  | 4 => decide (target < 4096)
  | 5 => decide (target < 128)
  | 6 => decide (target < 112)
  | 7 => decide (target < 96)
  | 8 => xtalIslands.contains target
  | _ => false

/-- The run condition of a swatch holds. -/
def State.swtCond (s : State) (kind target : Nat) : Bool :=
  match kind with
  | 1 => decide (s.get (R.WAL_SHIFT (target / 32)) F.WAL_SHIFT_SHIFT_AT = target % 32) && (s.wale (target / 32)).shift.isNone
  | 2 => !s.islandGate (s.leadIsland target) && decide (s.fabric.cap.st = .empty)
  | 3 =>
    let (t, d) := tileOfRiser (target / 64) (target % 64)
    decide (s.sheetOrient (target / 64) (target % 64) = 0 ∧ s.tileOrient t d = 0)
  | 4 => (List.range 4).all (fun p => !(s.planeValid (target / 128) p && s.bramUsed (target / 128) p (target % 128)))
  | 7 => let ls := s.lanesWith target
         !ls.isEmpty && ls.all (fun n => s.laneState n == laneDOWN)
  | _ => true

/-- Cycles of the steps of a TILE swatch. -/
def tileSteps : List Nat := [1024, 4096, 10240, 2048, 1536]

/-- The bound in ns of step `k` of a swatch: of TILE by its wale's clock, of another kind as given. -/
def State.stepBound (s : State) (kind target k given : Nat) : Nat :=
  if kind = 1 then
    let f := max 1 (s.khzOf (32 + target / 32))
    (tileSteps.getD (k - 1) 0 * 1000000 + f - 1) / f
  else given

/-- Order of service (R624). -/
def SwClass.rank : SwClass → Nat
  | .lasting => 0 | .run => 1 | .rotation => 2

/-- Request `a` is served before `b`. -/
def SwReq.before (a b : SwReq) : Bool :=
  if a.cls.rank ≠ b.cls.rank then decide (a.cls.rank < b.cls.rank)
  else if a.resumed ≠ b.resumed then a.resumed
  else if a.stamp ≠ b.stamp then decide (a.stamp < b.stamp)
  else if a.kind ≠ b.kind then decide (a.kind < b.kind)
  else decide (a.target < b.target)

/-- The request served next: the first in order whose condition holds. -/
def State.swtNext (s : State) : Option SwReq :=
  (s.swt.queue.filter (fun q => s.swtCond q.kind q.target && (q.kind != 6 || s.grt.test.isNone))).foldl
    (fun b q => match b with | none => some q | some x => if q.before x then some q else some x) none

/-- The controller works: not before firmware serves, and not in DORMANT, HALTED or TRIPPED. -/
def State.swtWorks (s : State) : Bool :=
  match s.sys.dev with | .ready => true | .charted => true | .onAir => true | .quiet => true | _ => false

/-! ### Ending a swatch -/

/-- A sheet that was under test is as at DORMANT exit (R624). -/
def State.swtRestore (s : State) (r : SwRun) : State := if r.req.kind = 2 then s.sheetInit r.req.target else s

/-- The step that comes next would pass the budget: the swatch stops there, is recorded and resumes later (R623). -/
def State.swtPause (s : State) (r : SwRun) : State :=
  let s := (s.swtEnd r 2 0 0 0 .BUSY).swtRestore r
  { s with swt := { s.swt with queue := s.swt.queue ++ [{ r.req with step := r.step, resumed := true, opens := [] }] } }

/-- Rows and words already replaced in the unit a row or word belongs to, or being replaced. -/
def State.sparesUsed (s : State) (p : Repair → Bool) : Nat :=
  ((s.repairs ++ s.swt.remaps.map Remap.repair).filter p).length

/-- A spare of a row or word is taken and the copy to it starts. -/
def State.remapStart (s : State) (r : Repair) (where_ bit : Nat) (keys : List (Nat × Nat)) : Nat × State :=
  (1, { s with swt := { s.swt with remaps := s.swt.remaps ++ [⟨r, where_, bit, keys⟩] } })

/-- What a failure brings (R625, R627): REPAIR of its record and the state. A tile with a failing word takes a spare word of the bank;
one that fails otherwise, or has none left, stays isolated where the shift has it. -/
def State.swtFail (s : State) (kind target where_ bit : Nat) (keys : List (Nat × Nat)) : Nat × State :=
  let none_ := s.noSpareLeft kind target where_ keys
  match kind with
  | 1 =>
    let w := target / 32
    let a := where_ % 131072
    let used := s.sparesUsed (fun r => decide (r.kind = 9 ∧ r.target = target ∧ r.place % 16 = a / 8 % 16))
    if where_ / 2 ^ 28 = 15 ∧ used < 4 then s.remapStart ⟨9, target, a / 8, used⟩ where_ bit keys
    else if s.flag (R.WAL_SHIFT w) F.WAL_SHIFT_FUSED ∨ s.repairs.any (fun r => decide (r.kind = 1 ∧ r.target / 32 = w)) then none_
    else
      let s := s.softRepair ⟨1, target, target % 32, 0⟩ where_ bit
      (1, s.rotationOver w)
  | 2 =>
    let c := bitsOf where_ 22 15
    match s.spareColumn target c with
    | some s => (1, s.softRepair ⟨2, target, c, 0⟩ where_ bit)
    | none => none_
  | 4 =>
    let used := s.sparesUsed (fun r => decide (r.kind = 4 ∧ r.target = target))
    if used < 2 then s.remapStart ⟨4, target, bitsOf where_ 24 16, used⟩ where_ bit keys else none_
  | 5 =>
    let row := where_ / 65536
    let used := s.sparesUsed (fun r => decide (r.kind = 5 ∧ r.target = target ∧ r.place / 512 = row / 512))
    if used < 2 then s.remapStart ⟨5, target, row, used⟩ where_ bit keys else none_
  | _ => none_

/-! ### Events -/

/-- SWATCH_START (R623, R624): the first request in order whose condition holds; `bound` is the bound of its first step in ns where the
spec gives no cycles. A link without detours cannot be tested. -/
def execSwatchStart (bound : Nat) (s : State) : Out := s.duty 3 <|
  if s.swt.running.isSome ∨ !s.swtWorks then .next s
  else match s.swtNext with
    | none => .next s
    | some q =>
      let s := { s with swt := { s.swt with queue := s.swt.queue.erase q } }
      let r : SwRun := ⟨q, q.step, q.budget * 1000, s.stamp⟩
      let s := { s with swt := { s.swt with running := some r } }
      if q.kind = 6 ∧ (s.detours (fun k => s.linkFailed k || decide (k = q.target)) q.target).2 then
        .next ((s.swtEnd r 3 0 0 0 .DONE).outcomePart q.keys)
      else if q.budget * 1000 < s.stepBound q.kind q.target q.step bound then .next (s.swtPause r)
      else if q.kind = 6 then .next (s.testStart ⟨q.target, none, false, true, []⟩)
      else .next s

/-- SWATCH_STEP_COMPLETE (R623, R625, R628). A LINK swatch ends as its test does (R509). -/
def execSwatchStepComplete (o : StepSeen) (s : State) : Out :=
  match s.swt.running with
  | none => .next s
  | some r =>
    let q := r.req
    if q.kind = 6 ∧ !s.grt.changes.isEmpty then .next s
    else
      let s := s.reach (s.stamp + o.ns)
      let s := match q.kind, s.grt.test with
        | 6, some t => if t.swatch then s.testFinish t o.found.isNone else s
        | _, _ => s
      if o.notRun then .next (((s.swtEnd r 3 0 0 0 .DONE).swtRestore r).outcomePart q.keys)
      else match o.found with
        | some f =>
          let (rep, s) := s.swtFail q.kind q.target f.1 f.2 q.keys
          let s := (s.swtEnd r 1 rep f.1 f.2 (if rep = 1 then .DONE else .NO_SPARE)).swtRestore r
          .next (if rep = 1 then s.outcomePart q.keys else s)
        | none =>
          let left := r.left - o.ns
          let last := if q.kind = 1 then decide (5 ≤ r.step) else o.next.isNone
          if last then .next (((s.swtEnd r 0 0 0 0 .DONE).swtRestore r).outcomePart q.keys)
          else
            let r := { r with step := r.step + 1, left := left }
            if left < s.stepBound q.kind q.target r.step (o.next.getD 0) then .next (s.swtPause r)
            else .next { s with swt := { s.swt with running := some r } }

/-- SPARE_ROW_REMAP (R525): the copy of the oldest row or word found failing is complete and its spare serves it. -/
def execSpareRowRemap (s : State) : Out :=
  match s.swt.remaps with
  | [] => .next s
  | m :: rest =>
    let s := { s with swt := { s.swt with remaps := rest } }
    let s := s.softRepair m.repair m.where_ m.bit
    let s := if m.repair.kind = 5 then s.wr (R.STC_COUNT 4) (word ((s.rd (R.STC_COUNT 4)).toNat + 1)) else s
    .next (s.outcomePart m.keys)

/-- The first rotation instant at or after stamp `t` (R621): `t` itself while the schedule is stopped. -/
def State.rotInstant (s : State) (t : Nat) : Nat :=
  if !s.airRuns then t
  else
    let ofs := s.get R.SWT_ROT F.SWT_ROT_ROT_OFS
    let a := airOf (s.mer.localAt t)
    s.stampOfAir (s.airBoundary (a - ofs) + ofs)

/-- A wale can rotate: no fused or soft repair of it (R622). -/
def State.canRotate (s : State) (w : Nat) : Bool :=
  !s.flag (R.WAL_SHIFT w) F.WAL_SHIFT_FUSED && !s.repairs.any (fun r => decide (r.kind = 1 ∧ r.target / 32 = w))

/-- The wale that rotates next: the one rotating, else the first that can from SWT_ROT.WALE on. -/
def State.rotWale (s : State) : Option Nat :=
  match s.swt.rotating with
  | some w => if s.canRotate w then some w else none
  | none => ((List.range 40).map (fun i => (s.get R.SWT_ROT F.SWT_ROT_WALE + i) % 40)).find? s.canRotate

/-- ROTATION_STEP (R620 to R622, R625): at the next rotation instant a retirement shifts its tile out, ending any rotation of the wale; else
the rotation moves one step, once the tile isolated by the step before has been tested. -/
def execRotationStep (s : State) : Out := s.duty 3 <|
  if s.sys.dev ≠ .charted ∧ s.sys.dev ≠ .onAir then .next s
  else match s.swt.retire with
    | r :: rest =>
      let w := r.wale
      if (s.wale w).shift.isSome ∨ s.swt.retiring.isSome then .next s
      else
        let s := { s with swt := { s.swt with retire := rest } }
        let target := s.tileTarget (16 * w + r.pos)
        if !s.canRotate w then .next (s.noSpareLeft 1 target 0 r.keys).2
        else
          let s := s.reach (s.rotInstant s.stamp)
          let s := s.rotationOver w
          let s := { s with swt := { s.swt with retiring := some r } }
          .next (s.startShift w (target % 32) none true)
    | [] =>
      let busy := s.swt.queue.any (fun q => q.cls == .rotation) || (match s.swt.running with | some r => r.req.cls == .rotation | none => false)
      if !s.flag R.SWT_ROT F.SWT_ROT_EN ∨ busy then .next s
      else match s.rotWale with
        | none => .next s
        | some w =>
          if (s.wale w).shift.isSome then .next s
          else
            let s := s.reach (s.rotInstant (max s.stamp (s.swt.rotLast + s.swt.rotMs * 1000000)))
            let at_ := s.get (R.WAL_SHIFT w) F.WAL_SHIFT_SHIFT_AT
            let upto := if at_ = 16 then 0 else at_ + 1
            let s := { s with swt := { s.swt with rotating := some w, rotLast := s.stamp } }.put R.SWT_ROT F.SWT_ROT_WALE w
            .next (s.startShift w upto none true)

/-! ### Registers computed on reading (R629) -/

/-- SWT_STATUS. -/
def State.swtStatus (s : State) : Word :=
  let q := min 64 s.swt.queue.length * 2 ^ 20
  match s.swt.running with
  | some r => word (2 ^ 31 + r.req.kind * 2 ^ 27 + q + r.req.target)
  | none => word q

/-- SWT_ROT; AT is the SHIFT_AT of its wale. -/
def State.swtRot (s : State) : Word :=
  F.SWT_ROT_AT.put (s.rd R.SWT_ROT) (s.get (R.WAL_SHIFT (s.get R.SWT_ROT F.SWT_ROT_WALE)) F.WAL_SHIFT_SHIFT_AT)

/-- Soft repairs not yet fused. -/
def State.unfused (s : State) : List Repair := s.swt.soft.filter (fun r => !s.swt.fused.contains r)

/-- VPP_FUSE is within its limits. -/
def State.vppOk (s : State) : Bool := s.sys.rails.contains .vppFuse

/-- SWT_FUSE. -/
def State.swtFuse (s : State) : Word := word (b2n s.vppOk * 2 ^ 31 + s.unfused.length * 2 ^ 16 + s.swt.fused.length)

/-- SWT_MARKS: the marks in MRAM and in force, lanes by group. -/
def State.swtMarks (s : State) : Word :=
  let all := s.swt.marks ++ s.swt.marked.filter (fun m => !s.swt.marks.contains m)
  let n (k : Nat) : Nat := (all.filter (fun m => decide (m.1 = k))).length
  let groups := ((all.filter (fun m => decide (m.1 = 7))).map (fun m => (s.laneClass m.2, s.laneGroup m.2))).eraseDups.length
  word (min 255 (n 1) * 2 ^ 24 + min 63 (n 2) * 2 ^ 18 + min 255 (n 4) * 2 ^ 10 + min 63 (n 5) * 2 ^ 4 + min 15 groups)

/-! ### Commands -/

/-- SWT.STATUS (R631). -/
def execSwtStatus (mb : Nat) (s : State) : Out := .next <| runCommand spec_SWT_STATUS noFields
  (fun _ s => .ok s [s.swtStatus, s.swtRot, s.swtFuse, s.swtMarks]) mb s

/-- SWT.RUN (R632). -/
def execSwtRun (mb : Nat) (s : State) : Out := .next <| runCommand spec_SWT_RUN
  (fun c _ => badIf (!targetOk (c.n 2 31 28) (c.n 2 15 0) || decide (20000 < c.n 3 14 0)))
  (fun c s =>
    let k := c.n 2 31 28
    let t := c.n 2 15 0
    let b := if c.n 3 14 0 = 0 then 2000 else c.n 3 14 0
    if !s.swtCond k t then .code .REFUSED_IN_USE s
    else if 64 ≤ s.swt.queue.length ∧ !(s.swt.queue.any (fun q => decide (q.kind = k ∧ q.target = t))) then .code .BUSY s
    else .acc (s.swtRequest ⟨.run, k, t, b, s.stamp, [c.id], 1, false, []⟩) []) mb s

/-- SWT.RESULTS (R633): newest first. -/
def execSwtResults (mb : Nat) (s : State) : Out := .next <| runCommand spec_SWT_RESULTS
  (fun c _ => badIf (decide (c.n 2 2 0 = 0)))
  (fun c s =>
    let l := s.swt.log.reverse.take (c.n 2 2 0)
    .ok s (word l.length :: l.flatten)) mb s

/-- SWT.ROTATE (R634). -/
def execSwtRotate (mb : Nat) (s : State) : Out := .next <| runCommand spec_SWT_ROTATE
  (fun c s => badIf (decide (s.airPeriod s.airActive ≤ c.n 3 19 0 ∧ 0 < c.n 3 19 0)))
  (fun c s =>
    let s := { s with swt := { s.swt with
      rotMs := if c.n 2 15 0 = 0 then 1000 else c.n 2 15 0,
      rotating := if c.b 2 31 then s.swt.rotating else none } }
    .ok ((s.put R.SWT_ROT F.SWT_ROT_EN (b2n (c.b 2 31))).put R.SWT_ROT F.SWT_ROT_ROT_OFS (c.n 3 19 0))) mb s

/-- SWT.FUSE (R635). -/
def execSwtFuse (mb : Nat) (s : State) : Out := .next <| runCommand spec_SWT_FUSE
  (fun c _ => badIf (decide (c.n 2 15 0 ≠ 0xF05E)))
  (fun c s =>
    if !s.vppOk then .code .NOT_PERMITTED s
    else if s.swt.fuseOpen.isSome then .code .BUSY s
    else if 256 < s.swt.fused.length + s.unfused.length then .code .NO_SPARE s
    else .acc { s with swt := { s.swt with fuseOpen := some c.id } } []) mb s

/-- SWT_FUSE_COMPLETE (R626, R635): every pending repair is fused and read back. -/
def execSwtFuseComplete (s : State) : Out :=
  match s.swt.fuseOpen with
  | none => .next s
  | some id =>
    let l := s.unfused
    let s := { s with swt := { s.swt with fuseOpen := none, fused := s.swt.fused ++ l } }
    let s := ((s.bump (R.SWT_COUNT 4) l.length).gazInc 64 l.length).journal 0x0A 0 l.length (word s.swt.fused.length) 0
    .next (s.complete id .DONE)

/-- SWT.UNMARK (R636): the marks in force stay until BOOT. -/
def execSwtUnmark (mb : Nat) (s : State) : Out := .next <| runCommand spec_SWT_UNMARK
  (fun c _ => badIf (decide (c.n 2 15 0 ≠ 0x0A4C)))
  (fun _ s => .ok { s with swt := { s.swt with marks := [] } }) mb s

/-- SWT.COUNTERS (R637). -/
def execSwtCounters (mb : Nat) (s : State) : Out := .next <| runCommand spec_SWT_COUNTERS noFields
  (fun c s =>
    let r := s.counters ((List.range 6).map R.SWT_COUNT) (c.b 2 0)
    .ok r.2 r.1) mb s

end Sys2Proof.Machine
end

