-- ==== Sys2Proof/Machine/Yarn.lean ====
section
/-! DEFINITION. Events of the yarn ports and the YRN commands (spec/18). -/

namespace Sys2Proof

/-- A field of a training frame's control word (Table 18-3a). -/
def YarnFrame.bits (f : YarnFrame) (hi lo : Nat) : Nat := f.control.toNat / 2 ^ lo % 2 ^ (hi - lo + 1)

/-- The frame's CRC is good. -/
def YarnFrame.good (f : YarnFrame) : Bool := decide (Machine.controlCrc f.control.toNat = f.bits 15 0)
def YarnFrame.laneNo (f : YarnFrame) : Nat := f.bits 63 61
def YarnFrame.position (f : YarnFrame) : Nat := f.bits 60 58
def YarnFrame.count (f : YarnFrame) : Nat := f.bits 57 54
def YarnFrame.width8 (f : YarnFrame) : Bool := f.bits 53 53 == 1
def YarnFrame.rxReady (f : YarnFrame) : Bool := f.bits 50 50 == 1
/-- Requests to C(−2), C(−1), C(0) and C(1). -/
def YarnFrame.ffeReq (f : YarnFrame) : List Nat := [f.bits 49 48, f.bits 47 46, f.bits 45 44, f.bits 43 42]

end Sys2Proof

namespace Sys2Proof.Machine

/-! ### Codewords -/

/-- YARN_CODEWORD_SEND (R575, R578): a replay goes first; with 48 unacknowledged, or nothing to send, the codeword is IDLE. -/
def execYarnCodewordSend (p : Nat) (s : State) : Out :=
  if !s.yarnUp p then .next s
  else
    let s := s.yarnPassAll p
    let y := s.yport p
    match y.resend with
    | c :: rest =>
      .next ((s.bump (R.YRN_COUNT p 0)).setYport p { y with resend := rest, sent := some (y.codeword c false) })
    | [] =>
      let s := (y.discard.map (·.1)).foldl (fun s c => s.yarnDiscard p c) s
      let (us, s) := if 48 ≤ y.unacked.length then ([], s) else s.yarnFill p
      let (a, b, k, y) := (s.yport p).returns
      let c : SentCw := ⟨y.nextSeq, a, b, k, us⟩
      let y := { y with sent := some (y.codeword c us.isEmpty) }
      if us.isEmpty then .next (s.setYport p y)
      else
        .next (((s.setYport p { y with
          nextSeq := (y.nextSeq + 1) % 65536, unacked := y.unacked ++ [c],
          ackAt := if y.unacked.isEmpty then s.stamp else y.ackAt }).bump (R.YRN_COUNT p 0)).yarnUnacked p)

/-- YARN_CODEWORD_RECEIVED (R578): an uncorrectable codeword or one out of sequence is NAKed; a repeated one is dropped; the next in
order delivers its units. -/
def execYarnCodewordReceived (p : Nat) (cw : YarnCodeword) (s : State) : Out :=
  if !s.yarnUp p then .next s
  else if !cw.good then
    .next ((s.bump (R.YRN_COUNT p 3)).setYport p { s.yport p with nak := true })
  else
    let s := if cw.corrected then s.bump (R.YRN_COUNT p 2) else s
    let s := s.yarnAck p cw
    if !s.yarnUp p then .next s
    else
      let y := s.yport p
      let d := seqAfter y.lastGood cw.seq
      if d = 1 then
        if cw.idle then .next (s.setYport p ({ y with nak := false }.credited cw))
        else
          let s := (s.bump (R.YRN_COUNT p 1)).setYport p ({ y with lastGood := cw.seq, nak := false }.credited cw)
          .next (cw.units.foldl (fun s u => s.yarnDeliver p u) s)
      else if d = 0 ∨ 65536 - 48 ≤ d then .next s
      else .next (s.setYport p { y with nak := true })

/-- YARN_REPLAY_TIMEOUT (R578): 2 µs without progress. -/
def execYarnReplayTimeout (p : Nat) (s : State) : Out :=
  if !s.yarnUp p ∨ (s.yport p).unacked.isEmpty then .next s
  else .next ((s.reach ((s.yport p).ackAt + 2000)).yarnReplay p)

/-! ### Training (R580) -/

/-- An attempt fails at its identity check or lane order: mismatch recorded, the port is DOWN until its retry. -/
def State.yarnFail (s : State) (p n : Nat) : State := (s.lanesBusy n).yarnUntrained p

/-- The transmitter's taps as FFE_REQ and FFE_STAT order them. -/
def ffeFlds : List Fld := [F.LNE_TXFFE_CM2, F.LNE_TXFFE_CM1, F.LNE_TXFFE_C0, F.LNE_TXFFE_C1]

/-- The value of tap `i` in an LNE_TXFFE word: C(0) is unsigned. -/
def ffeTap (w : Word) (i : Nat) : Int :=
  let f := ffeFlds.getD i F.LNE_TXFFE_C0
  if i = 2 then (f.get w : Int) else sgn 6 (f.get w)

/-- What the partner's request `r` asks of tap `i`: hold, one up, one down, the preset of the lane's LOSS class. -/
def State.ffeAsked (s : State) (n i r : Nat) : Int :=
  let old := ffeTap (s.rd (R.LNE_TXFFE n)) i
  match r with
  | 1 => old + 1
  | 2 => old - 1
  | 3 => ffeTap (match laneRecOf s.svy.recs n with | some r => ffePreset (r.f 3 11 8) | none => 0) i
  | _ => old

/-- The partner's requests to the transmitter of lane `n`; a step past a limit of R367 is not taken. -/
def State.ffeRequests (s : State) (n : Nat) (req : List Nat) : State :=
  (List.range 4).foldl (fun s i =>
    let new := s.ffeAsked n i (req.getD i 0)
    let w := (ffeFlds.getD i F.LNE_TXFFE_C0).put (s.rd (R.LNE_TXFFE n)) (unsgn 6 new)
    if (-31 ≤ new ∧ new ≤ 63) ∧ (i ≠ 2 → new ≤ 31) ∧ ffeOk w then s.wr (R.LNE_TXFFE n) w else s) s

/-- The FFE_STAT that answers requests to lane `n`: per tap not updated, updated, or at a limit. -/
def State.ffeStat (s : State) (n : Nat) (req : List Nat) : Nat :=
  let w := (s.ffeRequests n req).rd (R.LNE_TXFFE n)
  (List.range 4).foldl (fun a i =>
    let r := req.getD i 0
    a * 4 + (if r = 0 then 0 else if ffeTap w i = s.ffeAsked n i r then 1 else 2)) 0

/-- What a good frame on lane `n` of port `p` does: steps 1 and 2 gather four of them per lane, then judge polarity, order and identity;
step 3 answers the partner's requests until every lane's partner is ready; step 4 waits for the first header. -/
def State.yarnFrameGood (s : State) (p n : Nat) (f : YarnFrame) : State :=
  let y := s.yport p
  let ls := s.yarnLanes p
  match s.get (R.YRN_PORT p) F.YRN_PORT_STEP with
  | 3 =>
    let v := s.ffeRequests n f.ffeReq
    let ready := if f.rxReady && !y.ready.contains n then y.ready ++ [n] else y.ready
    let v := v.setYport p { y with ready := ready, stats := sset (fun _ => 0) y.stats n (s.ffeStat n f.ffeReq) }
    if ls.all ready.contains then v.put (R.YRN_PORT p) F.YRN_PORT_STEP 4 else v
  | 4 => s
  | _ =>
    let s := s.put (R.YRN_PORT p) F.YRN_PORT_STEP 2
    let idOk := decide (f.position = s.get (R.YRN_PORT p) F.YRN_PORT_PEER ∧ f.count = s.cascadeCount) &&
      (f.width8 == s.flag (R.YRN_PORT p) F.YRN_PORT_WIDTH8)
    if !idOk then (s.mismatch 2 n 3 (s.get (R.YRN_PORT p) F.YRN_PORT_PEER) f.position).yarnFail p n
    else
      let i := s.yarnLaneNo p n
      let o : LaneObs := ⟨n, f.crossed, some (if f.laneNo / 4 = i / 4 then f.laneNo % 4 else 4)⟩
      let y := { y with
        frames := sset (fun _ => 0) y.frames n (min 4 (sget (fun _ => 0) y.frames n + 1)),
        obs := y.obs.filter (fun x => x.lane ≠ n) ++ [o] }
      let s := s.setYport p y
      if ls.all (fun m => sget (fun _ => 0) y.frames m == 4) then
        let (ok, s) := s.laneDetect y.obs
        if ok then (s.put (R.YRN_PORT p) F.YRN_PORT_ID_OK 1).put (R.YRN_PORT p) F.YRN_PORT_STEP 3 else s.yarnFail p n
      else s

/-- YARN_TRAINING_FRAME: a frame on lane `n` of a port in training, and the lane's own next frame. A bad CRC ends a run of good frames. -/
def execYarnTrainingFrame (n : Nat) (f : YarnFrame) (s : State) : Out :=
  let p := s.laneGroup n
  if s.laneClass n ≠ 3 ∨ 2 ≤ p ∨ s.laneState n ≠ laneTRAINING ∨ (s.lane n).lp ≠ .none ∨
      s.get (R.YRN_PORT p) F.YRN_PORT_STATE ≠ 1 then .next s
  else
    let y := s.yport p
    .next ((if f.good then s.yarnFrameGood p n f
      else s.setYport p { y with frames := sset (fun _ => 0) y.frames n 0 }).yarnFrameSent p n)

/-- YARN_PORT_DOWN (R587). -/
def execYarnPortDown (p : Nat) (s : State) : Out :=
  .next (if p < 2 ∧ (s.yport p).wasUp ∧ !s.yarnUp p then s.yarnLost p else s)

/-- YARN_PORT_UP (Table 18-3 step 5): the first header with ACK_VALID; credits start, the port and its lanes are UP. -/
def execYarnPortUp (p : Nat) (s : State) : Out :=
  let ls := s.yarnLanes p
  if 2 ≤ p ∨ ls.isEmpty ∨ s.get (R.YRN_PORT p) F.YRN_PORT_STATE ≠ 1 ∨ s.get (R.YRN_PORT p) F.YRN_PORT_STEP ≠ 4 ∨
      !(ls.all (fun n => s.laneState n == laneTRAINING && decide ((s.lane n).lp = .none))) then .next s
  else
    let s := if (s.yport p).wasUp then s.yarnLost p else s
    let y := s.yport p
    let s := s.setYport p { YPort.init with
      rxBuf := y.rxBuf, discard := y.discard, sent := y.sent, rr := y.rr, lastCh := y.lastCh, words := y.words, ackAt := s.stamp, wasUp := true }
    let s := ls.foldl State.laneUpNow s
    let s := ((s.put (R.YRN_PORT p) F.YRN_PORT_STATE 2).put (R.YRN_PORT p) F.YRN_PORT_STEP 5).put (R.YRN_PORT p)
      F.YRN_PORT_LANES_UP (2 ^ ls.length - 1)
    .next s.lanesDone

/-! ### Time transfer (R581) -/

/-- YARN_TIME_UNIT_SEND: `tx` is the local time at which the codeword's first symbol leaves the pad. -/
def execYarnTimeUnitSend (p tx : Nat) (s : State) : Out :=
  let e := match (s.yport p).echo with | some e => e | none => ⟨0, 0⟩
  .next (s.yarnTime p (.time tx e.tx e.rx))

/-- A difference of local times with ASYM taken off, in 2⁻³³ ps · s, as whole ps. -/
def yarnPs (d asym : Int) : Int := Config.roundDiv (d * 1000000000000 - asym * 4294967296) 8589934592

/-- YARN_TIME_UNIT_RECEIVED: `rx` is the local time of its arrival at the pad. -/
def execYarnTimeUnitReceived (p rx : Nat) (s : State) : Out :=
  let y := s.yport p
  match y.rxTime with
  | .time t3 t1 t2 :: rest =>
    let fresh := match y.lastTime with | some t => decide (t + 1000000000 < s.stamp) | none => true
    let s := s.setYport p { y with
      rxTime := rest, echo := some ⟨t3, rx⟩, lastTime := some s.stamp, timeSince := if fresh then some s.stamp else y.timeSince }
    if t1 = 0 then .next s
    else
      let a : Int := (t2 : Int) - t1
      let b : Int := (rx : Int) - t3
      let asym := sgn 32 (s.rd (R.YRN_ASYM p)).toNat
      let s := s.wr (R.YRN_DELAY p) (word (satNat 32 (yarnPs (a + b) asym).toNat))
      .next (s.wr (R.YRN_OFFSET p) (word (unsgn 32 (satInt 32 (yarnPs (a - b) asym)))))
  | _ => .next s

/-! ### Broadcasts (R583) and heartbeats (R586) -/

/-- The port beside `p`. -/
def otherPort (p : Nat) : Nat := 1 - p

/-- BCAST_RECEIVED: a member acts on the unit and forwards it, but not to position 0; a late one acts at once and is counted. -/
def execBcastReceived (p : Nat) (s : State) : Out :=
  let y := s.yport p
  match y.rxTime with
  | .bcast v sw a :: rest =>
    let s := s.setYport p { y with rxTime := rest }
    if s.position = 0 ∨ 2 ≤ p then .next s
    else
      let q := otherPort p
      let s := if s.get (R.YRN_PORT q) F.YRN_PORT_PEER = 0 then s else s.yarnTime q (.bcast v sw a)
      let b : YBcast := ⟨a, v, sw⟩
      if s.links.yrn.lastBcast = some b then .next s
      else
        let s := { s with links := { s.links with yrn := { s.links.yrn with lastBcast := some b } } }
        let s := if a ≤ s.airNow then s.bump (R.YRN_COUNT p 5) else s
        .next (s.bcastAdd ⟨a, v, sw⟩)
  | _ => .next s

/-- HEARTBEAT_SEND: upstream; in a ring whose upstream port is not UP, on the other port. -/
def execHeartbeatSend (s : State) : Out :=
  match s.upstream with
  | some p =>
    if !s.cascaded then .next s
    else
      let u : YarnUnit := .heartbeat s.position s.sys.dev.code s.merState
      .next (if s.yarnUp p then s.yarnTime p u else if s.topology = 2 then s.yarnTime (otherPort p) u else s)
  | none => .next s

/-- HEARTBEAT_RECEIVED: a member relays it away from where it came; the master keeps ALIVE and LOST. -/
def execHeartbeatReceived (p : Nat) (s : State) : Out :=
  let y := s.yport p
  match y.rxTime with
  | .heartbeat k st mer :: rest =>
    let s := s.setYport p { y with rxTime := rest }
    if s.position ≠ 0 then .next (s.yarnTime (otherPort p) (.heartbeat k st mer))
    else if k = 0 ∨ 8 ≤ k then .next s
    else
      let s := { s with links := { s.links with yrn := { s.links.yrn with
        beats := sset (fun _ => none) s.links.yrn.beats k (some s.stamp) } } }
      if st = 1 ∨ st = 8 ∨ st = 9 then
        .next (if s.bit R.YRN_STATUS k ∨ !s.bit R.YRN_STATUS (8 + k) then s.markLost k 1 st else s)
      else .next (if st = 3 ∨ st = 4 ∨ st = 5 then s.setBit R.YRN_STATUS k true else s)
  | _ => .next s

/-- HEARTBEAT_TIMEOUT: 5 ms without a heartbeat from `k`. -/
def execHeartbeatTimeout (k : Nat) (s : State) : Out :=
  match sget (fun _ => none) s.links.yrn.beats k with
  | some t =>
    let s := (s.reach (t + 5000000))
    let s := { s with links := { s.links with yrn := { s.links.yrn with beats := sset (fun _ => none) s.links.yrn.beats k none } } }
    .next (s.markLost k 0 0)
  | none => .next s

/-! ### Forwarding (R585, R587, R592) -/

/-- The whole message at the head of virtual lane 2: its units up to the one marked LAST. -/
def headMessage (l : List CtrlUnit) : Option (List CtrlUnit) :=
  let before := l.takeWhile (fun u => !u.last && !u.ack)
  match l[before.length]? with
  | some u => if u.ack then none else some (before ++ [u])
  | none => none

/-- FORWARDED_MESSAGE_RECEIVED: a whole message for this device fills the incoming mailbox of its port once that is empty; one for
another position is relayed. -/
def execForwardedMessageReceived (p : Nat) (s : State) : Out := s.duty 2 <|
  let y := s.yport p
  match headMessage y.rxCtrl with
  | none => .next s
  | some us =>
    match us.head? with
    | none => .next s
    | some u =>
      let taken := s.setYport p { y with rxCtrl := y.rxCtrl.drop us.length, ctrlOwed := y.ctrlOwed + us.length }
      if 2 ≤ p then .next s
      else if u.dst ≠ s.position then .next ((taken.bump (R.YRN_COUNT p 7)).yarnCtrl u.dst us)
      else if s.full (26 + p) then .next s
      else
        let s := { taken with mbx := { taken.mbx with poster := sset (fun _ => none) taken.mbx.poster (26 + p) (some u.src) } }
        .next (s.postInto (26 + p) (us.flatMap CtrlUnit.words))

/-- FORWARDED_ACK_RECEIVED: the acknowledgement of the message in an outgoing mailbox sets its ACK; one for another position is
relayed. -/
def execForwardedAckReceived (p : Nat) (s : State) : Out := s.duty 2 <|
  let y := s.yport p
  match y.rxCtrl with
  | u :: rest =>
    if !u.ack ∨ 2 ≤ p then .next s
    else
      let s := s.setYport p { y with rxCtrl := rest, ctrlOwed := y.ctrlOwed + 1 }
      if u.dst ≠ s.position then .next (s.yarnCtrl u.dst [u])
      else
        let waits (q : Nat) : Bool := match (s.yport q).cur with | some m => decide (m.dst = u.src) | none => false
        let q := if waits p then p else otherPort p
        if !waits q then .next s
        else
          let id := match (s.yport q).cur with | some m => m.openId | none => none
          let s := { s with links := { s.links with yrn := { s.links.yrn with
            fwds := s.links.yrn.fwds.map (fun (f : Fwd) => if some f.openId = id then { f with acked := true } else f) } } }
          let s := s.setYport q { s.yport q with cur := none }
          .next ((s.ackWrite (24 + q) (Word.bits (u.words.headD 0) 15 0)).yarnPump q)
  | [] => .next s

/-- The reply LENGTH a command's description fixes for its fields; the most it admits where the state decides (R592). -/
def replyLength (c : Cmd) : Nat :=
  match c.code with
  | 0x0102 => c.length + 1
  | 0x0180 => 3 + c.n 4 5 0
  | 0x0205 => 3 + c.n 3 5 0
  | 0x0206 => 4 + 2 * min 30 (64 - c.n 2 5 0)
  | 0x0B82 => 3 + 4 * c.n 2 19 16
  | 0x0604 => 4 + c.n 2 15 8
  | 0x1982 => 3 + 3 * c.n 2 21 16
  | 0x1402 => 60
  | 0x1503 => 60
  | 0x1481 => 3 + 2 * c.n 2 14 8
  | 0x0502 => 3 + c.n 2 14 8
  | 0x1601 => 3 + (match c.n 2 31 30 with | 0 => 2 * c.n 2 4 0 | 1 => 32 | 2 => 8 * c.n 2 4 0 | _ => 2)
  | 0x1703 => 64
  | 0x1704 => 61
  | _ => 20

/-- YRN.FORWARD (R592). -/
def execYrnForward (mb : Nat) (s : State) : Out := .next <| runCommand spec_YRN_FORWARD
  (fun c s =>
    let inner : Cmd := { c with words := c.rest 3 }
    if !s.cascaded then some .NOT_PERMITTED
    else badIf (decide (c.n 2 2 0 = s.position ∨ s.cascadeCount ≤ c.n 2 2 0 ∨ inner.length ≠ c.length - 3 ∨ inner.length < 2 ∨
      61 < replyLength inner)))
  (fun c s =>
    let t := c.n 2 2 0
    match s.yarnRoute t with
    | none => .code .REFUSED_IN_USE s
    | some p =>
      if s.bit R.YRN_STATUS (8 + t) ∨ !s.bit R.YRN_STATUS t then .code .REFUSED_IN_USE s
      else
        let ws := match c.rest 3 with | w :: r => (w ||| 0x400) :: r | [] => []
        let s := { s with links := { s.links with yrn := { s.links.yrn with fwds := s.links.yrn.fwds ++ [(⟨c.id, t, p, false⟩ : Fwd)] } } }
        .acc (s.yarnPost ⟨t, ws, some c.id⟩) []) mb s

/-- YRN_FORWARD_COMPLETE: a reply stands in the incoming mailbox of port `p`; the oldest forward to its sender completes. -/
def execYrnForwardComplete (p : Nat) (s : State) : Out := s.duty 2 <|
  let mb := 26 + p
  if 2 ≤ p ∨ !s.full mb ∨ s.holds mb ∨ !s.serving then .next s
  else
    let c := s.msg mb
    let s' := s.ackWrite mb 0
    match s.links.yrn.fwds.find? (fun f => decide (some f.target = c.src)) with
    | some f =>
      let s' := { s' with links := { s'.links with yrn := { s'.links.yrn with
        fwds := s'.links.yrn.fwds.filter (fun x => x.openId ≠ f.openId) } } }
      .next (s'.complete f.openId .DONE (c.rest 0))
    | none => .next s'

/-! ### Commands -/

/-- YRN_CHAN with BOUND and STREAM as they stand. -/
def State.yrnChan (s : State) (i : Nat) : Word :=
  match s.epStream (0x7000 + i) with
  | some n => ((s.rd (R.YRN_CHAN i)) &&& 0xE0000000) ||| word (2 ^ 28 + n)
  | none => (s.rd (R.YRN_CHAN i)) &&& 0xE0000000

/-- YRN.STATUS (R590). -/
def execYrnStatus (mb : Nat) (s : State) : Out := .next <| runCommand spec_YRN_STATUS noFields
  (fun _ s => .ok s (([R.YRN_STATUS, R.YRN_PORT 0, R.YRN_PORT 1, R.YRN_OFFSET 0, R.YRN_OFFSET 1, R.YRN_DELAY 0, R.YRN_DELAY 1,
    R.YRN_ASYM 0]).map s.rd)) mb s

/-- YRN.CHANNEL (R591). -/
def execYrnChannel (mb : Nat) (s : State) : Out := .next <| runCommand spec_YRN_CHANNEL
  (fun c s => badIf (s.cascaded && (s.yarnLanes (c.n 2 6 0 / 64)).isEmpty))
  (fun c s =>
    let i := c.n 2 6 0
    if !s.cascaded ∨ s.cascadeMode = 3 then .code .NOT_PERMITTED s
    else if (s.epStream (0x7000 + i)).isSome then .code .REFUSED_IN_USE s
    else .ok (s.wr (R.YRN_CHAN i) (if c.b 2 31 then (c.w 2) &&& 0xE0000000 else 0))) mb s

/-- YRN.ASYM (R593). -/
def execYrnAsym (mb : Nat) (s : State) : Out := .next <| runCommand spec_YRN_ASYM
  (fun c _ => badIf (decide (sgn 32 (c.w 3).toNat < -100000 ∨ 100000 < sgn 32 (c.w 3).toNat)))
  (fun c s => if !s.cascaded then .code .NOT_PERMITTED s else .ok (s.wr (R.YRN_ASYM (c.n 2 0 0)) (c.w 3))) mb s

/-- YRN.COUNTERS (R594). -/
def execYrnCounters (mb : Nat) (s : State) : Out := .next <| runCommand spec_YRN_COUNTERS noFields
  (fun c s =>
    if !s.cascaded then .code .NOT_PERMITTED s
    else
      let r := s.counters ((List.range 8).map (R.YRN_COUNT (c.n 2 0 0))) (c.b 2 8)
      .ok r.2 r.1) mb s

end Sys2Proof.Machine
end

