-- ==== Sys2Proof/Machine/BusOps.lean ====
section
/-! DEFINITION. Register accesses by any master: the blocks and their reach (R18, R19, R52, R54), the access codes (Table 0-4), the
mailbox rules (R58 to R66), the DMA control registers (R557, R558), and what every register reads as. -/

namespace Sys2Proof.Machine

/-! ### Mailboxes (R58 to R66) -/

/-- The claim on a fabric mailbox that stands now (R61). -/
def State.claim (s : State) (mb : Nat) : Option Claim :=
  match sget (fun _ => none) s.mbx.claims mb with
  | some c => if s.stamp < c.last + 100000 then some c else none
  | none => none

/-- Set or end a claim. -/
def State.setClaim (s : State) (mb : Nat) (c : Option Claim) : State :=
  { s with mbx := { s.mbx with claims := sset (fun _ => none) s.mbx.claims mb c } }

/-- The master is on the sender side of the mailbox (Table 2-2). -/
def mbxSender (m : Master) (mb : Nat) : Bool :=
  match m with
  | .host => decide (mb < 8)
  | .ubtor => decide ((8 ≤ mb ∧ mb < 16) ∨ (20 ≤ mb ∧ mb < 28))
  | .sheet _ => decide (16 ≤ mb ∧ mb < 20)
  | .datum => decide (mb = 28 ∨ mb = 29)
  | .jtag => decide (mb = 30 ∨ mb = 31)
  | _ => false

/-- The master is the mailbox's receiver; for MB20 to MB23 the sheet recorded with the reply (R62). -/
def State.mbxReceiver (s : State) (m : Master) (mb : Nat) : Bool :=
  match m with
  | .host => decide (8 ≤ mb ∧ mb < 16)
  | .ubtor => decide (mb < 8 ∨ (16 ≤ mb ∧ mb < 20) ∨ 26 ≤ mb) && decide (mb < 32)
  | .sheet n => decide (20 ≤ mb ∧ mb < 24) && decide (sget (fun _ => none) s.mbx.receiver mb = some n)
  | _ => false

/-- A rejected write (R64): REJECT; a host write is a Completer Abort. -/
def State.mbxReject (s : State) (m : Master) (mb : Nat) : Access :=
  let s := s.raise R.MBX_REJECT mb
  if m = .host then
    (⟨false, 0⟩, { s.bump (R.PCI_COUNT 0) with host := { s.host with aer := s.host.aer ++ [.completerAbort] } })
  else s.busErr

/-- The word write is rejected: FULL, not the sender, or claimed by another sheet. -/
def State.mbxRefuses (s : State) (m : Master) (mb : Nat) : Bool :=
  s.full mb || !mbxSender m mb ||
  (match m, s.claim mb with
   | .sheet n, some c => decide (c.sheet ≠ n)
   | _, _ => false)

/-- Ubtor's own post in MB24 or MB25 leaves over its yarn port as CTRL units (R585). -/
def State.mbxYarn (s : State) (mb : Nat) : State :=
  if mb = 24 ∨ mb = 25 then
    let p := mb - 24
    let y := s.yport p
    let dst := s.get (R.YRN_PORT p) F.YRN_PORT_PEER
    let ws := ((List.range 64).map (fun k => s.rd (mbWordAddr mb k))).take (s.msg mb).length
    s.setYport p { y with cur := some ⟨dst, ws, none⟩, ctrl := y.ctrl ++ msgUnits dst s.position ws }
  else s

/-- A write of word `k` of a mailbox: words other than 0 are stored, and a sheet's first one claims; word 0 posts: FULL set, ACK
cleared, the claim ended and the poster recorded (R61 to R63). A host post wakes DORMANT (R67). -/
def State.mbxWrite (s : State) (m : Master) (mb k : Nat) (v : Word) : Access :=
  if s.mbxRefuses m mb then s.mbxReject m mb
  else
    let s := s.wr (mbWordAddr mb k) v
    let sheet : Option Nat := match m with | .sheet n => some n | _ => none
    if k ≠ 0 then (s.setClaim mb (sheet.map (fun n => ⟨n, s.stamp⟩))).busOk
    else
      let s := (s.setClaim mb none).postInto mb []
      let s := { s with mbx := { s.mbx with poster := sset (fun _ => none) s.mbx.poster mb sheet } }
      let s := s.mbxYarn mb
      (if mb < 8 then s.wake 0x11 else s).busOk

/-- A write of MBX_ACKCODE (R63, R64): the code, ACK and FULL in one step; a freed reply mailbox takes the next completion. Ubtor keeps
the datum record it acknowledges. -/
def State.mbxAckcode (s : State) (m : Master) (mb : Nat) (v : Word) : Access :=
  if !s.mbxReceiver m mb || !s.full mb then s.mbxReject m mb
  else
    let s := (s.datTaken mb).ackWrite mb (v.bits 15 0)
    let s := if 20 ≤ mb ∧ mb < 24 then { s with mbx := { s.mbx with receiver := sset (fun _ => none) s.mbx.receiver mb none } } else s
    (if 8 ≤ mb ∧ mb < 16 then s.flush (mb - 8) else if 20 ≤ mb ∧ mb < 24 then s.flush (mb - 4) else s).busOk

/-- The master sent the message that the mailbox's ACK bit answers: for MB16 to MB19 the sheet that posted it (R62). -/
def State.ackOwner (s : State) (m : Master) (mb : Nat) : Bool :=
  match m with
  | .sheet n => decide (16 ≤ mb ∧ mb < 20) && decide (sget (fun _ => none) s.mbx.poster mb = some n)
  | _ => mbxSender m mb

/-- A write of MBX_ACK: a sender's 1 clears its ACK bit, any other is ignored (R66). -/
def State.mbxAckClear (s : State) (m : Master) (v : Word) : Access :=
  ((List.range 32).foldl (fun (s : State) mb => if v.bit mb && s.ackOwner m mb then s.setAck mb false else s) s).busOk

/-! ### DMA control (R557, R558) -/

/-- STATE of a queue: 0 DISABLED, 1 STOPPED, 2 RUNNING, 3 STOPPING. -/
def State.qState (s : State) (q : Nat) : Nat := s.get (R.DMA_QSTATUS q) F.DMA_QSTATUS_STATE
def State.setQState (s : State) (q n : Nat) : State := s.put (R.DMA_QSTATUS q) F.DMA_QSTATUS_STATE n
/-- Hidden state of a queue. -/
def State.dmaQ (s : State) (q : Nat) : DmaQ := sget (fun _ => DmaQ.init) s.host.queues q
def State.setDmaQ (s : State) (q : Nat) (x : DmaQ) : State :=
  { s with host := { s.host with queues := sset (fun _ => DmaQ.init) s.host.queues q x } }
/-- Entries of a queue's rings. -/
def State.qSize (s : State) (q : Nat) : Nat := 2 ^ s.get (R.DMA_QCTRL q) F.DMA_QCTRL_SIZE_LOG

/-- STOP: the queue finishes what it has started. -/
def State.dmaStop (s : State) (q : Nat) : State :=
  if s.qState q = 2 then s.setQState q (if (s.dmaQ q).started.isEmpty then 1 else 3) else s

/-- A write of DMA_QCTRL. -/
def State.dmaCtrlWrite (s : State) (q : Nat) (v : Word) : State :=
  let k := R.DMA_QCTRL q
  let st := s.qState q
  let s := s.put k F.DMA_QCTRL_IRQ_EN (F.DMA_QCTRL_IRQ_EN.get v)
  let s := if st ≤ 1 then s.put k F.DMA_QCTRL_SIZE_LOG (F.DMA_QCTRL_SIZE_LOG.get v) else s
  if st = 1 ∧ v.bit 31 then s.setQState q 2
  else if st = 2 ∧ v.bit 30 then s.dmaStop q
  else s

/-- A write of DMA_QTAIL: out of range it is ignored and sets BAD_TAIL. -/
def State.dmaTailWrite (s : State) (q : Nat) (v : Word) : State :=
  let t := F.DMA_QTAIL_TAIL.get v
  if s.qSize q ≤ t then s.raise (R.DMA_QSTATUS q) F.DMA_QSTATUS_BAD_TAIL.lo else s.put (R.DMA_QTAIL q) F.DMA_QTAIL_TAIL t

/-- DMA_QCFG as it reads. -/
def State.dmaCfg (s : State) (q : Nat) : Word :=
  match s.epStream (0x6000 + q) with
  | some n => F.DMA_QCFG_STREAM.put (F.DMA_QCFG_BOUND.put (s.rd (R.DMA_QCFG q)) 1) n
  | none => s.rd (R.DMA_QCFG q)

/-! ### Reach (R54, Table 1-10) -/

/-- The address lies in a register block (Table 1-9). -/
def inBlock (a : Nat) : Bool :=
  decide (a < 0x150000) || (decide (0x400000 ≤ a) && decide (a < 0x580000)) || (decide (0x800000 ≤ a) && decide (a < 0xAA0000))

/-- The sheet reads the MBX offset: MB16 to MB23, their MBX_ACKCODE, the three status registers, DEV_STATE. -/
def sheetMbx (a : Nat) : Bool :=
  (decide (0x1000 ≤ a) && decide (a < 0x1800)) || (decide (R.MBX_ACKCODE 16 ≤ a) && decide (a < R.MBX_ACKCODE 24)) ||
  a == R.MBX_STATUS || a == R.MBX_ACK || a == R.MBX_REJECT || a == R.DEV_STATE

/-- PIO_SET, PIO_CLR and PIO_TGL. -/
def pioOps (a : Nat) : Bool := decide (0x50420 ≤ a) && decide (a < 0x50480) && decide (a % 32 < 28)

/-- The master reaches the register block offset, to read or to write. -/
def busReach (m : Master) (write : Bool) (a : Nat) : Bool :=
  inBlock a &&
  match m with
  | .ubtor => !(write && decide (0x140000 ≤ a) && decide (a < 0x150000))
  | .jtag => true
  | .host => decide (a < 0x10000) || (decide (0x100000 ≤ a) && decide (a < 0x102000))
  | .swatch => decide (0x400000 ≤ a)
  | .loader => decide (0x70000 ≤ a) && decide (a < 0x80000)
  | .datum => write && decide (0x1C00 ≤ a) && decide (a < 0x1E00)
  | .sheet n =>
    (decide (a / 0x10000 = 0x80 + n) && (!write || a == R.SHT_STICKY n)) || pioOps a ||
    (sheetMbx a && (!write || !(a == R.MBX_STATUS || a == R.MBX_REJECT || a == R.DEV_STATE)))
  | _ => false

/-! ### What a register reads as -/

/-- DEV_STATE. -/
def State.devState (s : State) : Word :=
  word (s.sys.fwSlot.code * 2 ^ 14 + b2n s.sys.session.isSome * 2 ^ 13 + b2n s.svy.committed * 2 ^ 12 + b2n s.serving * 2 ^ 8 +
    s.sys.dev.code)

/-- A mailbox offset as master `m` reads it (R59, R62). -/
def State.mbxRead (s : State) (m : Master) (a : Nat) : Word :=
  let words := decide (a < 0x2000)
  let mb := if words then a / 0x100 else (a - R.MBX_ACKCODE 0) / 4
  let guarded := words || (decide (R.MBX_ACKCODE 0 ≤ a) && decide (a < R.MBX_ACKCODE 32))
  match m with
  | .host => if words && decide (16 ≤ mb) then 0 else s.rd a
  | .sheet n =>
    let mine := if mb < 20 then (match s.claim mb with | some c => decide (c.sheet = n) | none => false)
                else decide (sget (fun _ => none) s.mbx.receiver mb = some n)
    if guarded && !mine then 0 else s.rd a
  | _ => s.rd a

/-- The STR window as master `m` sees it: the stream its STR_SEL selects (R298). -/
def State.strRead (s : State) (m : Master) (a : Nat) : Word :=
  let n := s.strSel m
  if a = R.STR_CTRL then s.rd a
  else if a = R.STR_SEL then word n
  else if a = R.STR_STATUS then s.strStatus n
  else if a = R.STR_SEQ then s.strSeq n
  else if R.STR_OPENMAP 0 ≤ a then s.strOpenMap ((a - R.STR_OPENMAP 0) / 4)
  else s.rd (strKey n a)

/-- Registers whose value follows the state, by family and index; none for a register read as stored. -/
def State.computed (s : State) (m : Master) (base : Nat) (i j a : Nat) : Option Word :=
  if base = R.DEV_STATE then some s.devState
  else if base = R.DEV_STAMP_LO then some (loWord s.stamp)
  else if base = R.WAL_GATE 0 0 then some (F.WAL_GATE_FILL.put (s.rd a) (s.gateFill i j))
  else if base = R.SHT_STATUS 0 then some (s.shtStatus i)
  else if base = R.SHT_CAP 0 then some (s.shtCap i)
  else if base = R.SHT_STAMP_LO 0 then some (loWord s.stamp)
  else if base = R.SHT_STAMP_HI 0 ∨ base = R.AIR_TIME_HI ∨ base = R.AIR_SWAP_HI then some (s.latched m a)
  else if base = R.LDR_STATUS then some s.ldrStatus
  else if base = R.AIR_TIME_LO then some (loWord s.airNow)
  else if base = R.AIR_SWAP_LO then some (loWord s.airSwapAt)
  else if base = R.LNE_CHKBITS_LO 0 then some (loWord (s.chkBits i))
  else if base = R.JSD_STATUS 0 then some (s.jsdStatus i)
  else if base = R.CKI_ON_ISL 0 then some (s.onIsl i)
  else if base = R.PWR_STATUS then some s.pwrStatus
  else if base = R.PWR_OPEFF 0 then some (s.opEff i)
  else if base = R.GRT_STATUS then some s.grtStatus
  else if base = R.STC_STATUS then some s.stcStatus
  else if base = R.DMA_QCFG 0 then some (s.dmaCfg i)
  else if base = R.YRN_CHAN 0 then some (s.yrnChan i)
  else if base = R.FLT_STATUS then some s.fltStatus
  else if base = R.FLT_SEQ then some (word s.flt.seq)
  else if base = R.FLT_OLDEST then some (word s.fltOldest)
  else if base = R.FLT_SLOT_KEY 0 then some (s.slotKey i)
  else if base = R.FLT_SLOT_CNT 0 then some (s.slotCnt i)
  else if base = R.SWT_STATUS then some s.swtStatus
  else if base = R.SWT_ROT then some s.swtRot
  else if base = R.SWT_FUSE then some s.swtFuse
  else if base = R.SWT_MARKS then some s.swtMarks
  else if base = R.THM_STATUS then some s.thmStatus
  else if base = R.GAZ_STATUS then some s.gazStatus
  else if base = R.GAZ_IMSEQ then some s.gazImseq
  else if base = R.PIO_CFG 0 then some (s.pinCfg i)
  else if base = R.PIO_IN 0 then some (s.pioIn i s.free)
  else if base = R.PIO_OE 0 then some (s.pioOe i s.free)
  else none

/-- What a read of some registers latches for a later read. -/
def State.readLatch (s : State) (m : Master) (base i j : Nat) : State :=
  if base = R.DEV_STAMP_LO then s.wr R.DEV_STAMP_HI (hiWord s.stamp)
  else if base = R.SHT_STAMP_LO 0 then s.stampRead m (R.SHT_STAMP_HI i)
  else if base = R.AIR_TIME_LO then s.setLatch m R.AIR_TIME_HI (hiWord s.airNow)
  else if base = R.AIR_SWAP_LO then s.setLatch m R.AIR_SWAP_HI (hiWord s.airSwapAt)
  else if base = R.LNE_CHKBITS_LO 0 then s.wr (R.LNE_CHKBITS_HI i) (hiWord (s.chkBits i))
  else if base = R.DAT_ACC_LO 0 0 then s.datLatch m i j
  else if base = R.PIO_IN 0 ∨ base = R.PIO_OE 0 then { s with free := s.free + 1 }
  else s

/-- A register read by a master that reaches it; an offset no register occupies reads 0 (R19). -/
def State.regRead (s : State) (m : Master) (a : Nat) : Word × State :=
  if a < 0x2000 then (s.mbxRead m a, s)
  else match regAt a with
    | none => (0, s)
    | some (r, ix) =>
      let i := ix.getD 0 0
      let j := ix.getD 1 0
      let v := if a < 0x10000 ∧ r.base ≠ R.DEV_STATE ∧ r.base ≠ R.DEV_STAMP_LO then s.mbxRead m a
        else if 0xE8000 ≤ a ∧ a < 0xF0000 then s.strRead m a
        else if 0x140000 ≤ a ∧ a < 0x150000 then s.datReg m a
        else (s.computed m r.base i j a).getD (s.rd a)
      (v, s.readLatch m r.base i j)

/-- A 4-byte register read (R18, R54). -/
def State.busRead (s : State) (m : Master) (a : Nat) : Access :=
  if a % 4 ≠ 0 ∨ !busReach m false a then s.busErr
  else
    let r := s.regRead m a
    r.2.busOk r.1

/-! ### What a register write does -/

/-- The lock bit that governs the RWL fields of the block at address `a`. -/
def State.blockLocked (s : State) (a : Nat) : Bool :=
  if a < 0x80000 then s.bit R.LDR_CTRL 31
  else if a < 0x800000 then s.bit (R.LNE_CTRL ((a - 0x400000) / 0x4000)) 31
  else if a < 0xA00000 then s.bit (R.SHT_CTRL ((a - 0x800000) / 0x10000)) 31
  else s.bit (R.WAL_CTRL ((a - 0xA00000) / 0x4000)) 31

/-- A write by the access codes of Table 0-4. DEDUCED (log entry 68): SHT_CLK changes only through SHT.CLOCK (R196), although Table 5-8 calls its
dividers RWL. -/
def State.codeWrite (s : State) (r : RegInfo) (a : Nat) (v : Word) : State :=
  let rwl := if r.rwl ≠ 0 ∧ !s.blockLocked a then r.rwl else 0
  let rwl := if r.base = R.SHT_CLK 0 then 0 else rwl
  let take := r.rw ||| rwl
  let old := (s.rd a).toNat
  let w := v.toNat
  let kept := old &&& (2 ^ 32 - 1 - take)
  let s := s.wr a (word (kept ||| (w &&& take) ||| (w &&& r.w1s)))
  if r.w1c = 0 then s else s.clearBits a (w &&& r.w1c)

/-- A write in the STR window (R298). -/
def State.strWrite (s : State) (m : Master) (r : RegInfo) (v : Word) : State :=
  let n := s.strSel m
  if r.base = R.STR_CTRL then s.codeWrite r R.STR_CTRL v
  else if r.base = R.STR_SEL then s.setLatch m R.STR_SEL (v &&& 0xFFF)
  else if r.base = R.STR_CFG then s.strCfgWrite n v
  else if r.rw = 0 then s
  else if (s.stream n).st ≠ .closed then s.raise R.STR_CTRL F.STR_CTRL_WR_REFUSED.lo
  else s.wr (strKey n r.base) (word (v.toNat &&& r.rw))

/-- A write of LNE_TEST: a checker that changes starts over, and the transmitter of a lane in TEST follows LOOP (R375). -/
def State.lneTestWrite (s : State) (r : RegInfo) (n : Nat) (v : Word) : State :=
  if (s.rd (R.LNE_TEST n)).toNat / 2 ^ 20 = v.toNat / 2 ^ 20 then s
  else
    let s := (s.checkStop n).codeWrite r (R.LNE_TEST n) v
    if s.laneState n = laneTEST then s.setLaneState n laneTEST else s

/-- A write of LNE_TXFFE: a value outside R367 is ignored (log entry 66). -/
def State.lneFfeWrite (s : State) (r : RegInfo) (n : Nat) (v : Word) : State :=
  if ffeOk v then s.codeWrite r (R.LNE_TXFFE n) v else s

/-- A write of LNE_RXEQ: on a converter lane CTLE is the value in force (R365). -/
def State.lneRxWrite (s : State) (r : RegInfo) (n : Nat) (v : Word) : State :=
  let s := s.codeWrite r (R.LNE_RXEQ n) v
  if s.laneClass n = 2 then s.put (R.LNE_RXEQ n) F.LNE_RXEQ_CTLE_NOW (s.get (R.LNE_RXEQ n) F.LNE_RXEQ_CTLE) else s

/-- Writes whose effect goes beyond their bits; the rest follow the access codes. -/
def State.regWrite (s : State) (m : Master) (a : Nat) (v : Word) : Access :=
  if a < 0x2000 then s.mbxWrite m (a / 0x100) (a % 0x100 / 4) v
  else match regAt a with
    | none => s.busOk
    | some (r, ix) =>
      let i := ix.getD 0 0
      if r.base = R.MBX_ACK then s.mbxAckClear m v
      else if r.base = R.MBX_ACKCODE 0 then s.mbxAckcode m i v
      else if 0xE8000 ≤ a ∧ a < 0xF0000 then (s.strWrite m r v).busOk
      else if r.base = R.WAL_SWITCH 0 then (s.walSwitchWrite i v).busOk
      else if r.base = R.LNE_CTRL 0 then (s.lneCtrlWrite i v).busOk
      else if r.base = R.LNE_TEST 0 then (s.lneTestWrite r i v).busOk
      else if r.base = R.LNE_TXFFE 0 then (s.lneFfeWrite r i v).busOk
      else if r.base = R.LNE_RXEQ 0 then (s.lneRxWrite r i v).busOk
      else if r.base = R.CKI_GATE_TIER then (s.gateWrite 2 0 4 a v).busOk
      else if r.base = R.CKI_GATE_GRP then (s.gateWrite 1 0 22 a v).busOk
      else if r.base = R.CKI_GATE_ISL 0 then (s.gateWrite 0 (32 * i) 32 a v).busOk
      else if r.base = R.PIO_SET 0 ∨ r.base = R.PIO_CLR 0 ∨ r.base = R.PIO_TGL 0 then
        let x := s.latchWrite m (if r.base = R.PIO_SET 0 then 0 else if r.base = R.PIO_CLR 0 then 1 else 2) i v.toNat
        (⟨x.1, 0⟩, x.2)
      else if r.base = R.DMA_QCTRL 0 then (s.dmaCtrlWrite i v).busOk
      else if r.base = R.DMA_QTAIL 0 then (s.dmaTailWrite i v).busOk
      else if (r.base = R.DMA_QRING_LO 0 ∨ r.base = R.DMA_QRING_HI 0 ∨ r.base = R.DMA_QCPL_LO 0 ∨ r.base = R.DMA_QCPL_HI 0) ∧
          1 < s.qState i then s.busOk
      else (s.codeWrite r a v).busOk

/-- A 4-byte register write (R18, R54). -/
def State.busWrite (s : State) (m : Master) (a : Nat) (v : Word) : Access :=
  if a % 4 ≠ 0 ∨ !busReach m true a then s.busErr else s.regWrite m a v

end Sys2Proof.Machine
end

