-- ==== Sys2Proof/Machine/Memory.lean ====
section
/-! DEFINITION. The rows of the memories and the memory guard, and the MEM and MGD commands (spec/16). -/

namespace Sys2Proof.Machine

/-! ### Store tier -/

/-- The address lies in the store tier (Table 1-9). -/
def inStore (a : Nat) : Bool := decide (2 ^ 32 ≤ a) && decide (a < 2 ^ 33)

/-- The address decodes as external memory under some KeyID (R53). -/
def inExternal (a : Nat) : Bool := decide (a / 2 ^ 36 % 64 = 1)

/-- A request at a store group (R519 to R522). -/
def State.storeRequest (s : State) (q : MemReq) (ecc : EccSeen) : State :=
  let r := s.storeAccess q ecc
  r.1.memAnswer q r.2

/-- A store-tier access; `ecc` is what the ECC finds in the words it reads. -/
def execStoreTierAccess (q : MemReq) (ecc : EccSeen) (s : State) : Out :=
  if q.ok && inStore q.addr && s.memServes then .next (s.storeRequest q ecc) else .next s

/-- Group `g` completes a scrub pass (R523), in which it corrected words and met uncorrectable ones at the offsets `bad`. -/
def execStoreScrubPass (g corrected : Nat) (bad : List Nat) (s : State) : Out :=
  if 8 ≤ g ∨ s.scrubs = false then .next s
  else
    let s := s.reach (sget (fun _ => 0) s.mem.scrubAt g + scrubPeriod (s.get R.STC_STATUS F.STC_STATUS_BAND))
    let s := (List.range corrected).foldl (fun s _ => s.storeCe (256 * g)) s
    let s := (bad.filter (fun o => decide (o < 2 ^ 32 ∧ o / 256 % 8 = g))).foldl State.storeUe s
    .next ({ s with mem := { s.mem with scrubAt := sset (fun _ => 0) s.mem.scrubAt g s.stamp } }.bump (R.STC_COUNT 3))

/-! ### External memory -/

/-- A plain access (Table 16-4): read with link ECC, or written under the data mask. -/
def State.plainAccess (s : State) (q : MemReq) (x : ExtRead) : State × MemAns :=
  let o := extOff q.addr
  if q.write then ({ s with mem := { s.mem with ext := putBytes s.mem.ext o q.data } }, ⟨0, []⟩)
  else
    let (good, s) := s.rereads x (s.extChannel o)
    if good then (s, ⟨0, match x.other with | some d => (d.1 ++ bytesAt s.mem.ext (o + d.1.length) q.len).take q.len
                                            | none => bytesAt s.mem.ext o q.len⟩)
    else (s, ⟨6, []⟩)

/-- A request at a memory interface on its route `r`: refused, passed through, or admitted to the guard. -/
def State.extAlong (s : State) (q : MemReq) (x : ExtRead) (r : ExtRoute) : State :=
  match r with
  | .refuse st => (s.bump (if st = 1 then R.XMC_COUNT 3 else R.MGD_COUNT 3)).memAnswer q ⟨st, []⟩
  | .plain => (s.plainAccess q x).1.memAnswer q (s.plainAccess q x).2
  | .guard _ => { s with mem := { s.mem with guardQ := s.mem.guardQ ++ [q] } }

/-- A request at a memory interface (R527, R529, R537). -/
def State.extRequest (s : State) (q : MemReq) (x : ExtRead) : State := s.extAlong q x (s.extRoute q)

/-- An external access; `x` is how the memory returns a plain read. -/
def execExternalAccess (q : MemReq) (x : ExtRead) (s : State) : Out :=
  if q.ok && inExternal q.addr && s.memServes then .next (s.extRequest q x) else .next s

/-- The counter cache has room for the nodes one request may bring in (R534). -/
def State.cacheRoom (s : State) : Bool := decide (s.mem.cache.length + 30 ≤ 65536)

/-- How the guard ends a request: its data, the halt, or a response ERR_DATA. -/
def Got.finish (q : MemReq) : Got (List Byte) → State
  | .ok d s => s.memAnswer q ⟨0, d⟩
  | .halt c ch s => s.enterHalted c ch
  | .noEcc _ s => s.memAnswer q ⟨6, []⟩

/-- The guard serves request `q`, the rest of its queue being `rest`. -/
def State.guardTake (s : State) (q : MemReq) (rest : List MemReq) (gs : List GuardSeen) : State :=
  let u := s.put R.MGD_STATUS F.MGD_STATUS_FRESH 0
  let t := { u with mem := { u.mem with guardQ := rest } }
  (t.guardServe gs ((s.keyOf q (keyIdOf q.addr)).getD 0) q).finish q

/-- The guard serves the oldest request admitted, when it is a write or a read as asked (R537). -/
def State.guardNext (s : State) (write : Bool) (gs : List GuardSeen) : State :=
  match s.mem.guardQ with
  | q :: rest => if q.write ≠ write ∨ s.cacheRoom = false ∨ s.memServes = false then s else s.guardTake q rest gs
  | [] => s

/-- The guard reads, verifies and decrypts the lines of a read (R535, R538, R539). -/
def execProtectedRead (gs : List GuardSeen) (s : State) : Out := .next (s.guardNext false gs)

/-- The guard writes the lines of a write, partial lines by read-modify-write (R536, R538, R539). -/
def execProtectedWrite (gs : List GuardSeen) (s : State) : Out := .next (s.guardNext true gs)

/-- The state an eviction leaves: the halt where integrity failed. -/
def Got.settle : Got Unit → State
  | .ok _ s => s
  | .halt c ch s => s.enterHalted c ch
  | .noEcc _ s => s

/-- A node leaves the counter cache (R534): an unmodified one stays in the backing copy only. -/
def execCounterCacheEviction (l n : Nat) (g : GuardSeen) (s : State) : Out :=
  if l = 0 ∨ 9 < l ∨ s.memServes = false then .next s
  else match s.cached l n with
    | none => .next s
    | some c =>
      if c.modified then .next (s.evict g l n c.ctrs).settle
      else .next ((s.setCached l n none).setBacked l n (some c.ctrs))

/-! ### Commands (R544 to R549) -/

/-- MEM.STATUS (R545). -/
def execMemStatus (mb : Nat) (s : State) : Out := .next <| runCommand spec_MEM_STATUS noFields
  (fun _ s => .ok s [s.stcStatus, s.rd R.XMC_STATUS, s.rd R.XMC_MAP]) mb s

/-- MEM.COUNTERS (R546): STC_COUNT[4] is not cleared. -/
def execMemCounters (mb : Nat) (s : State) : Out := .next <| runCommand spec_MEM_COUNTERS noFields
  (fun c s =>
    let stc := (List.range 5).map (fun k => s.rd (R.STC_COUNT k))
    let xmc := (List.range 4).map (fun k => s.rd (R.XMC_COUNT k))
    let s := if c.b 2 0 then ((List.range 4).map R.STC_COUNT ++ (List.range 4).map R.XMC_COUNT).foldl (fun s k => s.wr k 0) s else s
    .ok s (stc ++ xmc)) mb s

/-- MGD.STATUS (R547). -/
def execMgdStatus (mb : Nat) (s : State) : Out := .next <| runCommand spec_MGD_STATUS
  (fun c _ => badIf (decide (c.n 2 5 0 = 0)))
  (fun c s => .ok s [s.rd R.MGD_STATUS, s.rd (R.MGD_PART (c.n 2 5 0))]) mb s

/-- MGD.PARTITION (R548). -/
def execMgdPartition (mb : Nat) (s : State) : Out := .next <| runCommand spec_MGD_PARTITION
  (fun c s =>
    let k := c.n 2 5 0
    let b := c.n 3 25 16 * 2 ^ 26
    let n := c.n 3 9 0 * 2 ^ 26
    badIf (!s.tenants.any (fun r => decide (r.keyId = k)) || decide (s.extP < b + n) ||
      (decide (n ≠ 0) && (List.range 64).any (fun j => decide (j ≠ k) &&
        (match s.part j with | some (b', n') => decide (b < b' + n' ∧ b' < b + n) | none => false)))))
  (fun c s =>
    if !s.flag R.MGD_STATUS F.MGD_STATUS_FRESH then .code .REFUSED_IN_USE s
    else
      let k := R.MGD_PART (c.n 2 5 0)
      let s := s.put k F.MGD_PART_VALID (b2n (decide (c.n 3 9 0 ≠ 0)))
      .ok ((s.put k F.MGD_PART_BASE (c.n 3 25 16)).put k F.MGD_PART_SIZE (c.n 3 9 0))) mb s

/-- MGD.COUNTERS (R549). -/
def execMgdCounters (mb : Nat) (s : State) : Out := .next <| runCommand spec_MGD_COUNTERS noFields
  (fun c s =>
    let r := s.counters ((List.range 6).map R.MGD_COUNT) (c.b 2 0)
    .ok r.2 r.1) mb s

end Sys2Proof.Machine
end

