-- ==== Sys2Proof/Machine/GrtNet.lean ====
section
/-! DEFINITION. Packets in the graticule (spec/15, R495 to R508): injection, hops and arbitration, requests at their destination,
responses, self-gating routers, link errors. -/

namespace Sys2Proof.Machine

/-! ### Sources and destinations (R494, R495) -/

/-- The interfaces a master's requests leave from (Table 15-1). -/
def masterNis (m : Master) : List Nat :=
  match m with
  | .ubtor => [110, 114, 142, 146]
  | .jtag => [138]
  | .swatch => [107]
  | .loader => [115]
  | .sheet n => if n < 32 then [sheetNi n] else []
  | .dma => [238]
  | _ => []

/-- The master class of Table 15-3. -/
def masterClass (m : Master) : Nat :=
  match m with
  | .ubtor => 0
  | .jtag => 1
  | .swatch => 2
  | .dma => 3
  | .loader => 4
  | _ => 5

/-- The address lies in the tile memories (Table 1-9). -/
def inTiles (a : Nat) : Bool := decide (0x200000000 ≤ a) && decide (a < 0x205000000)

/-- The interface an address decodes to (Tables 1-9 and 15-1). -/
def State.destNi (s : State) (a : Nat) : Option Nat :=
  if inStore a then some (storeNi (a / 256 % 8))
  else if inTiles a then some (waleNi ((a - 0x200000000) / 0x20000 / 16))
  else if inExternal a then some (lpNi (s.extChannel (extOff a)))
  else if !inBlock a then none
  else if 0xA00000 ≤ a then some (waleNi ((a - 0xA00000) / 0x4000))
  else if 0x800000 ≤ a then some (sheetNi ((a - 0x800000) / 0x10000))
  else match a / 0x10000 with
    | 0x0 => some 111
    | 0x4 => some 143
    | 0x7 => some 115
    | 0x8 => some 147
    | 0x10 => some 238
    | _ => some hubNi

/-- The flits a request reserves in its source's RSP sink (R504). -/
def sinkFlits (write : Bool) (len : Nat) : Nat := if write then 1 else 1 + (len + 31) / 32

/-- The flits reserved at an interface, of 64. -/
def State.sinkUsed (s : State) (ni : Nat) : Nat := (s.grtWaiting ni).foldl (fun n o => n + o.flits) 0

/-- A response that the interface itself gives. -/
def State.ownAnswer (s : State) (ni : Nat) (p : GrtPkt) (status : Nat) : State :=
  let r : GrtPkt := { p with vn := 1, src := ni, dst := ni, op := 8, status := status, data := [] }
  { s with grt := { s.grt with answered := sset (fun _ => none) s.grt.answered ni (some r) } }

/-- A master's request or response passes: a sheet's graticule port transfers nothing before its first activation and in a switch window
(R229, R230). -/
def State.sheetPasses (s : State) (m : Master) : Bool := match m with | .sheet n => s.portsOpen n | _ => true

/-- PACKET_INJECTION: interface `ni` issues a request of master `m` once its sink has room and no route change to the destination
waits. An address without a destination is answered ERR_DECODE there, a destination without a route ERR_GATED. -/
def execPacketInjection (ni : Nat) (m : Master) (write : Bool) (addr len : Nat) (key : Option Nat) (data : List Byte) (s : State) : Out :=
  if s.sys.dev = .off ∨ (masterNis m).contains ni = false ∨ len = 0 ∨ 128 < len ∨ 2 ^ 48 ≤ addr ∨ data.length ≠ (if write then len else 0) then
    .next s
  else if !s.sheetPasses m then .next s
  else
    let key := match m with | .sheet n => some (s.keyOfSheet n) | _ => key
    let cls := masterClass m
    let tag := sget (fun _ => 0) s.grt.nextTag ni
    let vn := if inBlock addr ∧ cls ≤ 2 then 2 else 0
    let p : GrtPkt := { vn := vn, src := ni, dst := ni, op := if write then 2 else 1, len := len, key := key, tag := tag, cls := cls,
                        status := 0, addr := addr, data := data, master := m }
    match s.destNi addr with
    | none => .next (s.ownAnswer ni p 1)
    | some dst =>
      if s.grt.changes.any (fun c => decide (c.ni = ni ∧ c.dst = dst)) then .next s
      else if !s.reachable ni dst then .next ((s.bump (R.GRT_COUNT 4)).ownAnswer ni p 3)
      else if 64 < s.sinkUsed ni + sinkFlits write len then .next s
      else
        let o : Outstanding := ⟨tag, dst, sinkFlits write len⟩
        let s := { s with grt := { s.grt with
          nextTag := sset (fun _ => 0) s.grt.nextTag ni ((tag + 1) % 1024),
          outstanding := sset (fun _ => []) s.grt.outstanding ni (s.grtWaiting ni ++ [o]) } }
        .next (s.sendPkt { p with dst := dst })

/-! ### Hops and arbitration (R496, R498, R502, R503) -/

/-- The buffer of input port `p` of router `r` for a pair. -/
def bufKey (r p vn vc : Nat) : Nat := ((8 * r + p) * 4 + vn) * 2 + vc
def State.grtBuf (s : State) (r p vn vc : Nat) : List GrtFlit := sget (fun _ => []) s.grt.buf (bufKey r p vn vc)
def State.setGrtBuf (s : State) (r p vn vc : Nat) (q : List GrtFlit) : State :=
  { s with grt := { s.grt with buf := sset (fun _ => []) s.grt.buf (bufKey r p vn vc) q } }

/-- Flits an input port buffers: 4 on VC 0, 2 on VC 1. -/
def bufCap (vc : Nat) : Nat := if vc = 0 then 4 else 2

/-- The VC a flit leaves a router on: 1 from the router at which segment 2 begins. -/
def GrtFlit.outVc (f : GrtFlit) : Nat := if f.vc = 1 ∨ f.seg1 = 0 then 1 else 0

/-- The input port that faces an output port. -/
def facing (out : Nat) : Nat := (out + 2) % 4

/-- Output `out` of router `r` has credit for a pair: an interface always takes a flit. -/
def State.hasCredit (s : State) (r out vn vc : Nat) : Bool :=
  if 4 ≤ out then true
  else match hopTo r out with
    | some (_, r') => decide ((s.grtBuf r' (facing out) vn vc).length < bufCap vc)
    | none => false

/-- Key of a pair on an output port. -/
def pairKey (r out pair : Nat) : Nat := (8 * r + out) * 8 + pair

/-- The flit that the input `i` = 2 × port + VC offers a pair of an output port, unless another input holds that pair. -/
def State.offers (s : State) (r out pair i : Nat) : Option GrtFlit :=
  match s.grtBuf r (i / 2) (pair / 2) (i % 2) with
  | f :: _ =>
    let free : Bool := match sget (fun _ => none) s.grt.lock (pairKey r out pair) with
      | some j => decide (j = i)
      | none => f.head
    if f.hops.head? = some out ∧ f.outVc = pair % 2 ∧ free then some f else none
  | [] => none

/-- The first of `n` indices from a pointer that satisfies `p`. -/
def roundRobin (ptr n : Nat) (p : Nat → Bool) : Option Nat := ((List.range n).map (fun k => (ptr + k) % n)).find? p

/-- A self-gated router island restarts (R505). -/
def State.wakeRouter (s : State) (r : Nat) : State :=
  let i := routerIsland r
  if sget (fun _ => false) s.pwr.selfGated i then
    { s with pwr := { s.pwr with selfGated := sset (fun _ => false) s.pwr.selfGated i false } }.bump (R.GRT_COUNT 5)
  else s

/-- A router's clock runs or restarts at a flit: no floor stops it. -/
def State.routerLive (s : State) (r : Nat) : Bool := (s.wakeRouter r).routerRuns (routerIsland r)

/-- A flit that leaves output `out` of router `r` arrives: at the next router, whose link error run ends, or at the interface, which
keeps the packet once its tail is there. -/
def State.grtArrive (s : State) (r out : Nat) (f : GrtFlit) : State :=
  let f' := { f with hops := f.hops.drop 1, seg1 := f.seg1 - 1, vc := f.outVc }
  match hopTo r out with
  | some (l, r') =>
    let s := (s.wakeRouter r').setGrtBuf r' (facing out) f.vn f'.vc (s.grtBuf r' (facing out) f.vn f'.vc ++ [f'])
    { s with grt := { s.grt with retx := sset (fun _ => 0) s.grt.retx (2 * l + out / 2) 0 } }
  | none =>
    if f.tail then
      let ni := 4 * r + (out - 4)
      { s with grt := { s.grt with arrived := sset (fun _ => []) s.grt.arrived ni (sget (fun _ => []) s.grt.arrived ni ++ [f.pkt]) } }
    else s

/-- An output port of a router serves one flit: a pair in turn, then an input port in turn within it. -/
def State.portServe (s : State) (r out : Nat) : State :=
  let ready (pair i : Nat) : Bool := (s.offers r out pair i).isSome && s.hasCredit r out (pair / 2) (pair % 2)
  match roundRobin (sget (fun _ => 0) s.grt.rrPair (8 * r + out)) 8 (fun pair => (List.range 16).any (ready pair)) with
  | none => s
  | some pair =>
    let k := pairKey r out pair
    match roundRobin (2 * sget (fun _ => 0) s.grt.rrIn k) 16 (ready pair) with
    | none => s
    | some i =>
      match s.offers r out pair i with
      | none => s
      | some f =>
        let s := s.setGrtBuf r (i / 2) (pair / 2) (i % 2) ((s.grtBuf r (i / 2) (pair / 2) (i % 2)).drop 1)
        let s := { s with grt := { s.grt with
          rrPair := sset (fun _ => 0) s.grt.rrPair (8 * r + out) ((pair + 1) % 8),
          rrIn := sset (fun _ => 0) s.grt.rrIn k ((i / 2 + 1) % 8),
          lock := sset (fun _ => none) s.grt.lock k (if f.tail then none else some i) } }
        s.grtArrive r out f

/-- An interface on local port `p` of router `r` offers a flit to it, its networks in turn. -/
def State.niServe (s : State) (r p : Nat) : State :=
  let ni := 4 * r + p
  let ready (vn : Nat) : Bool := !(s.injQ ni vn).isEmpty && decide ((s.grtBuf r (4 + p) vn 0).length < 4)
  match roundRobin (sget (fun _ => 0) s.grt.rrInj ni) 4 ready with
  | none => s
  | some vn =>
    match s.injQ ni vn with
    | [] => s
    | f :: rest =>
      let s := (s.setInjQ ni vn rest).wakeRouter r
      let s := { s with grt := { s.grt with rrInj := sset (fun _ => 0) s.grt.rrInj ni ((vn + 1) % 4) } }
      s.setGrtBuf r (4 + p) vn 0 (s.grtBuf r (4 + p) vn 0 ++ [f])

/-- GRATICULE_FLIT_HOP: one turn of output port `port` of router `r`, or, for `port` 8 to 11, of the interface on its local port
`port − 8`. A flit waits while its own or the next router's clock is stopped. -/
def execGraticuleFlitHop (r port : Nat) (s : State) : Out :=
  if 64 ≤ r ∨ 12 ≤ port ∨ s.routerLive r = false then .next s
  else if 8 ≤ port then .next (s.niServe r (port - 8))
  else
    let next := match hopTo r port with | some (_, r') => s.routerLive r' | none => decide (4 ≤ port)
    if next then .next (s.portServe r port) else .next s

/-! ### Requests at their destination (R505, R506) -/

/-- The sheet, wale or LPDDR5X island behind an interface. -/
def niIsland (ni : Nat) : Option Nat :=
  match (List.range 32).find? (fun n => decide (sheetNi n = ni)) with
  | some n => some n
  | none =>
    match (List.range 40).find? (fun w => decide (waleNi w = ni)) with
    | some w => some (32 + w)
    | none => ((List.range 4).find? (fun c => decide (lpNi c = ni))).map (120 + ·)

/-- How a request finds its destination (Table 15-4). -/
inductive AtDest where
  | deliver
  | gated
  | dormant
  | hold
  | abort
  deriving DecidableEq, Repr

/-- Table 15-4 for a request to a register or to a memory. -/
def State.atDest (s : State) (ni : Nat) (register : Bool) : AtDest :=
  match niIsland ni with
  | none => .deliver
  | some i =>
    let gate := match groupOf i with
      | some g => s.tierGate (tierOfGroup g) && s.groupGate g && s.islandGate (s.leadIsland i)
      | none => true
    if 72 ≤ i then (if gate then .deliver else .gated)
    else match s.pwr.dorm, s.stage i with
      | .none, .closing => .abort
      | .none, .on => if !gate || (!register && decide (s.floor ≠ 0)) then .gated else .deliver
      | .none, _ => .hold
      | .entry, _ => if gate && register then .deliver else .gated
      | _, _ => .dormant

/-- The request is held at the gate of an island, which powers up (R476); it is counted once. -/
def State.holdRequest (s : State) (i : Nat) : State :=
  let l := s.leadIsland i
  if sget (fun _ => false) s.pwr.held l then s
  else
    let s := { s with pwr := { s.pwr with held := sset (fun _ => false) s.pwr.held l true } }.bump (R.GRT_COUNT 3)
    if s.stage l = .off then (s.setStage l .powering).bump (R.PWR_COUNT 3) else s

/-- A tile memory access from outside the tile, by Ubtor, JTAG or the swatch controller (R142): its status and data. -/
def State.tileAccess (s : State) (p : GrtPkt) (ecc : EccSeen) : State × Nat × List Byte :=
  let o := p.addr - 0x200000000
  let t := o / 131072
  if 2 < p.cls then (s, 2, [])
  else if 640 * 131072 < o + p.len then (s, 1, [])
  else if p.op = 2 then
    (p.data.zipIdx.foldl (fun (s : State) x => s.setTmem ((o + x.2) / 131072) ((o + x.2) % 131072) x.1) s, 0, [])
  else match ecc with
    | .uncorrectable => (s.report 0x11 t [word (o % 131072)], 6, [])
    | .corrected => (s.report 0x10 t, 0, (List.range p.len).map (fun j => s.tmem ((o + j) / 131072) ((o + j) % 131072)))
    | .clean => (s, 0, (List.range p.len).map (fun j => s.tmem ((o + j) / 131072) ((o + j) % 131072)))

/-- A register access over the graticule: whole 32-bit words only (R18), within the master's reach (R54). -/
def State.hubAccess (s : State) (p : GrtPkt) : State × Nat × List Byte :=
  if p.len ≠ 4 then (s, 2, [])
  else
    let r := if p.op = 2 then s.busWrite p.master p.addr (word (leNat p.data)) else s.busRead p.master p.addr
    (r.2, if r.1.ok then 0 else 2, if r.1.ok ∧ p.op = 1 then bytesOfWord r.1.data else [])

/-- The request is delivered: registers and tile memories answer at once, the memory interfaces as they answer every request. -/
def State.deliverPkt (s : State) (ni : Nat) (p : GrtPkt) (ecc : EccSeen) (x : ExtRead) : State :=
  let q : MemReq := ⟨p.src, p.cls, p.key, p.addr, decide (p.op = 2), p.len, p.data, some p.tag⟩
  if inStore p.addr then (if s.memServes then s.storeRequest q ecc else s)
  else if inExternal p.addr then (if s.memServes then s.extRequest q x else s)
  else
    let r := if inTiles p.addr then s.tileAccess p ecc else s.hubAccess p
    r.1.respond ni p.src p.tag p.cls r.2.1 p.len r.2.2

/-- The packets that have reached an interface, and those without the first that satisfies `f`. -/
def State.arrivedAt (s : State) (ni : Nat) : List GrtPkt := sget (fun _ => []) s.grt.arrived ni
def State.dropArrived (s : State) (ni : Nat) (f : GrtPkt → Bool) : State :=
  { s with grt := { s.grt with arrived := sset (fun _ => []) s.grt.arrived ni ((s.arrivedAt ni).eraseP f) } }

/-- REQUEST_AT_DESTINATION: interface `ni` handles its oldest request; `ecc` and `x` are what a memory finds. -/
def execRequestAtDestination (ni : Nat) (ecc : EccSeen) (x : ExtRead) (s : State) : Out :=
  match (s.arrivedAt ni).find? (fun p => decide (p.op ≠ 8)) with
  | none => .next s
  | some p =>
    let taken := s.dropArrived ni (fun p => decide (p.op ≠ 8))
    let refuse (status : Nat) : State := (taken.bump (R.GRT_COUNT 4)).respond ni p.src p.tag p.cls status p.len []
    let i := (niIsland ni).getD 0
    match s.atDest ni (inBlock p.addr) with
    | .deliver => .next (taken.deliverPkt ni p ecc x)
    | .gated => .next (refuse 3)
    | .dormant => .next (refuse 4)
    | .hold => .next (s.holdRequest i)
    | .abort =>
      let s := ((taken.setStage i .on).bump (R.PWR_COUNT 3)).stageDone (s.leadIsland i) .BUSY
      let gated := decide (s.atDest ni (inBlock p.addr) = .gated)
      .next (if gated then (s.bump (R.GRT_COUNT 4)).respond ni p.src p.tag p.cls 3 p.len [] else s.deliverPkt ni p ecc x)

/-- RESPONSE_AT_SOURCE: the oldest response drains into the sink; its reservation ends. -/
def execResponseAtSource (ni : Nat) (s : State) : Out :=
  match (s.arrivedAt ni).find? (fun p => decide (p.op = 8)) with
  | none => .next s
  | some p =>
    if !s.sheetPasses p.master then .next s
    else
    let s := s.dropArrived ni (fun p => decide (p.op = 8))
    .next { s with grt := { s.grt with
      outstanding := sset (fun _ => []) s.grt.outstanding ni ((s.grtWaiting ni).eraseP (fun o => decide (o.tag = p.tag))),
      answered := sset (fun _ => none) s.grt.answered ni (some p) } }

/-! ### Routers and links (R505, R507, R508) -/

/-- The routers of a router island hold no flit and are offered none. -/
def State.routersIdle (s : State) (i : Nat) : Bool :=
  ((List.range 64).filter (fun r => decide (routerIsland r = i))).all (fun r =>
    (List.range 64).all (fun k => (s.grtBuf r (k / 8) (k / 2 % 4) (k % 2)).isEmpty) &&
    (List.range 4).all (fun p => (List.range 4).all (fun vn => (s.injQ (4 * r + p) vn).isEmpty)))

/-- ROUTER_SELF_GATE: router island `i` has been idle for 64 cycles. -/
def execRouterSelfGate (i : Nat) (s : State) : Out :=
  if 80 ≤ i ∧ i < 96 ∧ s.routerRuns i = true ∧ s.routersIdle i = true then
    .next { s with pwr := { s.pwr with selfGated := sset (fun _ => false) s.pwr.selfGated i true } }
  else .next s

/-- LINK_CRC_ERROR: a flit over link `l` in direction `d` (0 east or north, 1 west or south) fails its CRC. It is retransmitted; after
three failed retransmissions the link fails. -/
def execLinkCrcError (l d : Nat) (s : State) : Out :=
  if 112 ≤ l ∨ 2 ≤ d then .next s
  else
    let k := 2 * l + d
    let n := sget (fun _ => 0) s.grt.retx k
    if n < 3 then
      let s := { s with grt := { s.grt with retx := sset (fun _ => 0) s.grt.retx k (n + 1) } }
      .next ((s.bump (R.GRT_COUNT 1)).report 0x53 l)
    else
      .next ({ s with grt := { s.grt with retx := sset (fun _ => 0) s.grt.retx k 0 } }.linkFail l false)

end Sys2Proof.Machine
end

