-- ==== Sys2Proof/Machine/Mailbox.lean ====
section
/-! DEFINITION. The mailbox rows and register writes without a row of their own (spec/00, spec/02). -/

namespace Sys2Proof.Machine

/-- A register write by master `m`, with its response; nothing reaches a device without power. -/
def State.access (s : State) (m : Master) (a : Nat) (v : Word) : State :=
  if s.sys.dev = .off then s else State.answered m (s.busWrite m a v)

/-- A write by Ubtor in a mailbox comes from the pair that serves it, which then runs (Table 2-1, R55, R56). -/
def State.senderRuns (s : State) (m : Master) (mb : Nat) : Bool := decide (m ≠ .ubtor) || s.pairRuns (pairOf mb)

/-- MBX_WORD_WRITE (R61, R63, R64): word `k` (1 to 63) of mailbox `mb`. -/
def execMbxWordWrite (m : Master) (mb k : Nat) (v : Word) (s : State) : Out :=
  if mb < 32 ∧ 1 ≤ k ∧ k < 64 ∧ s.senderRuns m mb = true then .next (s.access m (mbWordAddr mb k) v) else .next s

/-- MBX_POST (R63): word 0. -/
def execMbxPost (m : Master) (mb : Nat) (v : Word) (s : State) : Out :=
  if mb < 32 ∧ s.senderRuns m mb = true then .next (s.access m (mbWordAddr mb 0) v) else .next s

/-- FABRIC_CLAIM_TIMEOUT (R61): 100 µs without a write from the sheet. -/
def execFabricClaimTimeout (mb : Nat) (s : State) : Out :=
  match sget (fun _ => none) s.mbx.claims mb with
  | some c => .next ((s.reach (c.last + 100000)).setClaim mb none)
  | none => .next s

/-- MBX_ACKCODE_WRITE (R63, R64). -/
def execMbxAckcodeWrite (m : Master) (mb : Nat) (v : Word) (s : State) : Out :=
  if mb < 32 ∧ s.senderRuns m mb = true then .next (s.access m (R.MBX_ACKCODE mb) v) else .next s

/-- MBX_ACK_CLEAR (R66). -/
def execMbxAckClear (m : Master) (v : Word) (s : State) : Out := .next (s.access m R.MBX_ACK v)

/-- A register read by master `m`, with its response. -/
def State.readBy (s : State) (m : Master) (a : Nat) : State :=
  if s.sys.dev = .off then s else State.answered m (s.busRead m a)

/-! ### Registers with a row of their own -/

/-- DEV_STAMP_LO_READ (R82): bits [63:32] are latched into DEV_STAMP_HI. -/
def execDevStampLoRead (m : Master) (s : State) : Out := .next (s.readBy m R.DEV_STAMP_LO)

/-- SHT_STAMP_LO_READ (spec/05, table of SHT_STAMP_LO): bits [63:32] are latched for the reader. -/
def execShtStampLoRead (m : Master) (n : Nat) (s : State) : Out := if n < 32 then .next (s.readBy m (R.SHT_STAMP_LO n)) else .next s

/-- AIR_TIME_LO_READ (spec/09, tables of AIR_TIME_LO and AIR_SWAP_LO): bits [63:32] are latched for the reader. -/
def execAirTimeLoRead (m : Master) (s : State) : Out := .next (s.readBy m R.AIR_TIME_LO)

/-- AIR_SWAP_LO_READ (spec/09, tables of AIR_TIME_LO and AIR_SWAP_LO): bits [63:32] are latched for the reader. -/
def execAirSwapLoRead (m : Master) (s : State) : Out := .next (s.readBy m R.AIR_SWAP_LO)

/-- DAT_ACC_LO_READ (R679): bits [63:32] are latched for the reader. -/
def execDatAccLoRead (m : Master) (c d : Nat) (s : State) : Out :=
  if c < 4 ∧ d < 2 then .next (s.readBy m (R.DAT_ACC_LO c d)) else .next s

/-- PIO_SET of bank `b` (R689). -/
def execPioSet (m : Master) (b : Nat) (v : Word) (s : State) : Out := if b < 7 then .next (s.access m (R.PIO_SET b) v) else .next s

/-- PIO_CLR of bank `b` (R689). -/
def execPioClr (m : Master) (b : Nat) (v : Word) (s : State) : Out := if b < 7 then .next (s.access m (R.PIO_CLR b) v) else .next s

/-- PIO_TGL of bank `b` (R689). -/
def execPioTgl (m : Master) (b : Nat) (v : Word) (s : State) : Out := if b < 7 then .next (s.access m (R.PIO_TGL b) v) else .next s

/-- LDR_CTRL_LOCK (spec/07, table of LDR_CTRL): a write of LDR_CTRL with LOCK set. -/
def execLdrCtrlLock (m : Master) (v : Word) (s : State) : Out := .next (s.access m R.LDR_CTRL (v ||| 0x80000000))

/-- LNE_CTRL_LOCK (R379): a write of LNE_CTRL with LOCK set. -/
def execLneCtrlLock (m : Master) (n : Nat) (v : Word) (s : State) : Out :=
  if n < 96 then .next (s.access m (R.LNE_CTRL n) (v ||| 0x80000000)) else .next s

/-- A write to CKI_GATE_TIER, CKI_GATE_GRP or CKI_GATE_ISL (R468). -/
def execCkiGateWrite (m : Master) (a : Nat) (v : Word) (s : State) : Out :=
  if a = R.CKI_GATE_TIER ∨ a = R.CKI_GATE_GRP ∨ (List.range 5).any (fun k => decide (a = R.CKI_GATE_ISL k)) = true
  then .next (s.access m a v) else .next s

/-- DMA_QTAIL_WRITE (R557). -/
def execDmaQtailWrite (m : Master) (q : Nat) (v : Word) (s : State) : Out :=
  if q < 32 then .next (s.access m (R.DMA_QTAIL q) v) else .next s

/-- DMA_QCTRL_RUN (R558): a write of DMA_QCTRL with RUN set. -/
def execDmaQctrlRun (m : Master) (q : Nat) (v : Word) (s : State) : Out :=
  if q < 32 then .next (s.access m (R.DMA_QCTRL q) (v ||| 0x80000000)) else .next s

/-- DMA_QCTRL_STOP (R558): a write of DMA_QCTRL with STOP set. -/
def execDmaQctrlStop (m : Master) (q : Nat) (v : Word) (s : State) : Out :=
  if q < 32 then .next (s.access m (R.DMA_QCTRL q) (v ||| 0x40000000)) else .next s

/-- REGISTER_WRITE (R18, R19, R21, R54): a write of `size` bytes at `a`; only a whole aligned word of a block within the master's reach
has an effect. -/
def execRegisterWrite (m : Master) (a size : Nat) (v : Word) (s : State) : Out :=
  if s.sys.dev = .off then .next s
  else if size = 4 then .next (s.access m a v)
  else .next (State.answered m s.busErr)

end Sys2Proof.Machine
end

