-- ==== Sys2Proof/Machine/HostOps.lean ====
section
/-! DEFINITION. Operations of the PCIe endpoint and the DMA engine (spec/17): BAR requests, MSI-X, descriptors and completion records,
engine errors. -/

namespace Sys2Proof.Machine

/-! ### BAR requests (R551 to R555) -/

/-- An error is reported through AER; the first one's TLP is logged. -/
def State.aer (s : State) (e : AerErr) (r : Option BarReq) : State :=
  { s with host := { s.host with aer := s.host.aer ++ [e], headerLog := if s.host.aer.isEmpty then r else s.host.headerLog } }

/-- The endpoint answers a BAR request. -/
def State.barReply (s : State) (status : Nat) (data : List Word) : State := { s with host := { s.host with reply := ⟨status, data⟩ } }

/-- Unsupported Request. -/
def State.barUr (s : State) (r : BarReq) : State := ((s.bump (R.PCI_COUNT 1)).aer .unsupported (some r)).barReply 1 []

/-- A write of MSI-X table word `i` of vector `v`; unmasking a vector with its PBA bit set sends it once. -/
def State.msixWrite (s : State) (v i : Nat) (w : Word) : State :=
  let s := { s with host := { s.host with msixTable := sset msixDefault s.host.msixTable (4 * v + i) w } }
  if i = 3 ∧ w.bit 0 = false ∧ sget (fun _ => false) s.host.pba v then s.msixSend v else s

/-- One word of BAR0 or BAR2 read by the host. -/
def State.barRead (s : State) (bar o : Nat) : Word × State :=
  if bar = 0 then s.regRead .host o
  else if o < 0x2000 then s.regRead .host (0x100000 + o)
  else if 0x8000 ≤ o ∧ o < 0x8400 then (s.msixWord ((o - 0x8000) / 16) (o % 16 / 4), s)
  else if 0x9000 ≤ o ∧ o < 0x9008 then
    (word ((List.range 32).foldl (fun a j => a + b2n (sget (fun _ => false) s.host.pba ((o - 0x9000) * 8 + j)) * 2 ^ j) 0), s)
  else (0, s)

/-- One word of BAR0 or BAR2 written by the host; the flag tells of a Completer Abort. -/
def State.barWrite (s : State) (bar o : Nat) (w : Word) : Bool × State :=
  if bar = 0 then
    let x := s.busWrite .host o w
    (!x.1.ok, x.2)
  else if o < 0x2000 then (false, (s.busWrite .host (0x100000 + o) w).2)
  else if 0x8000 ≤ o ∧ o < 0x8400 then (false, s.msixWrite ((o - 0x8000) / 16) (o % 16 / 4) w)
  else (false, s)

/-- Bytes of a BAR. -/
def barSize (bar : Nat) : Nat := if bar = 0 then 0x10000 else if bar = 2 then 0x1000000 else if bar = 4 then 0x10000000 else 0

/-- The endpoint is out of reset. -/
def State.endpoint (s : State) : Bool := decide (s.sys.dev ≠ .off) && !s.sys.perst

/-- A request to BAR0 or BAR2: one register access per word in ascending order. -/
def State.barAccess (s : State) (r : BarReq) : State :=
  if !r.whole || decide (r.off % 4 ≠ 0) || decide (barSize r.bar < r.off + 4 * r.count) then s.barUr r
  else if r.write then
    let x := (r.data.take r.count).zipIdx.foldl (fun (a : Bool × State) p =>
      let y := a.2.barWrite r.bar (r.off + 4 * p.2) p.1
      (a.1 || y.1, y.2)) (false, s)
    (if x.1 then { x.2 with host := { x.2.host with headerLog := if s.host.aer.isEmpty then some r else x.2.host.headerLog } } else x.2).barReply
      (if x.1 then 2 else 0) []
  else
    let x := (List.range r.count).foldl (fun (a : List Word × State) i =>
      let y := a.2.barRead r.bar (r.off + 4 * i)
      (a.1 ++ [y.1], y.2)) ([], s)
    x.2.barReply 0 x.1

/-- A BAR4 read is answered only in an expert session of a survey that allows capture (R552). -/
def State.tapReads (s : State) : Bool := s.sys.session.isSome && s.policy 3

/-- A request to BAR4: tap buffer bytes, or Unsupported Request. -/
def State.tapAccess (s : State) (r : BarReq) (ecc : EccSeen) : State :=
  if r.write || !s.tapReads || decide (barSize 4 < r.off + 4 * r.count) then s.barUr r
  else
    let o := 0xE0000000 + r.off
    let data := (List.range r.count).map (fun i => word (leNat (bytesAt s.store (o + 4 * i) 4)))
    match ecc with
    | .clean => s.barReply 0 data
    | .corrected => (s.storeCe o).barReply 0 data
    | .uncorrectable =>
      let n := s.free
      ({ s.storeUe o with free := n + r.count }).barReply 0
        ((List.range r.count).map (fun i => BitVec.ofNat 32 (Config.freeWord (n + i)).toNat))

/-! ### Descriptors (R556 to R561) -/

/-- The engine works: not in HALTED or TRIPPED (R562), nor without power. -/
def State.engineRuns (s : State) : Bool :=
  match s.sys.dev with | .off => false | .halted => false | .tripped => false | .boot => false | _ => true

/-- The descriptor's words as the engine reads them; a descriptor that breaks Table 17-3 ends BAD_DESC. -/
def State.newDesc (s : State) (q index : Nat) (ws : List Word) : Desc :=
  let w (i : Nat) : Word := ws.getD i 0
  let d : Desc := { index := index, op := (w 0).bits 31 28, irq := (w 0).bit 27, first := (w 0).bit 26, last := (w 0).bit 25,
                    len := (w 1).toNat, host := (w 2).toNat + (w 3).toNat * 2 ^ 32, internal := (w 4).toNat + (w 5).toNat * 2 ^ 32,
                    user := w 6, moved := 0, lastSeen := false, lastWrite := 0, ended := none }
  let stream := s.flag (R.DMA_QCFG q) F.DMA_QCFG_MODE
  let d2h := s.flag (R.DMA_QCFG q) F.DMA_QCFG_DIR
  let opOk := if stream then d.op == 2 || (!d2h && (d.op == 3 || d.op == 4)) else d.op == 1
  let sized := d.op == 1 || d.op == 2
  let lenOk := !sized || (decide (1 ≤ d.len) && decide (d.len ≤ 16777216) && (d.op == 1 || d.len % 8 == 0))
  let aligned := d.op != 2 || d.host % 8 == 0
  if opOk && lenOk && aligned then d else { d with ended := some (0x13, 0) }

/-- The queue at or after the arbiter's pointer that is RUNNING and has a descriptor to start. -/
def State.dmaReady (s : State) : Option Nat :=
  ((List.range 32).map (fun i => (s.host.rrQueue + i) % 32)).find? (fun q =>
    decide (s.qState q = 2) && decide (s.get (R.DMA_QHEAD q) F.DMA_QHEAD_HEAD ≠ s.get (R.DMA_QTAIL q) F.DMA_QTAIL_TAIL))

/-- The completion record of a descriptor (Table 17-4), then vector `q` (R554, R561). -/
def State.dmaRecord (s : State) (q : Nat) (d : Desc) (status info : Nat) : State :=
  let x := s.dmaQ q
  let base := s.get (R.DMA_QCPL_LO q) F.DMA_QCPL_LO_BASE * 4096 + (s.rd (R.DMA_QCPL_HI q)).toNat * 2 ^ 32
  let ws : List Word := [word (status * 2 ^ 24 + d.index), word d.moved, d.user,
    word (b2n (!x.inverted) * 2 ^ 31 + b2n d.lastSeen * 2 ^ 30 + info % 2 ^ 24)]
  let s := s.hostWrite (base + 16 * d.index) (ws.flatMap bytesOfWord)
  let next := (d.index + 1) % s.qSize q
  let s := (s.put (R.DMA_QHEAD q) F.DMA_QHEAD_DONE next).setDmaQ q { x with inverted := if next = 0 then !x.inverted else x.inverted }
  if d.irq && s.flag (R.DMA_QCTRL q) F.DMA_QCTRL_IRQ_EN then s.msix q else s

/-- The oldest started descriptor of a queue completes; a STOPPING queue with none left is STOPPED. -/
def State.dmaEnd (s : State) (q : Nat) (d : Desc) (status info : Nat) : State :=
  let x := s.dmaQ q
  let s := (s.setDmaQ q { x with started := x.started.drop 1 }).dmaRecord q d status info
  if s.qState q = 3 ∧ (s.dmaQ q).started.isEmpty then s.setQState q 1 else s

/-- An engine error (R561): the failing descriptor completes with its status, every later one up to TAIL ABORTED, the queue stops.
`later` are the descriptors not yet started. -/
def State.dmaError (s : State) (q : Nat) (d : Desc) (status : Nat) (later : List (List Word)) : State :=
  let s := s.dmaEnd q d status 0
  let rest := (s.dmaQ q).started
  let size := s.qSize q
  let head := s.get (R.DMA_QHEAD q) F.DMA_QHEAD_HEAD
  let tail := s.get (R.DMA_QTAIL q) F.DMA_QTAIL_TAIL
  let ahead := (List.range ((tail + size - head) % size)).map (fun i => s.newDesc q ((head + i) % size) (later.getD i []))
  let s := (rest ++ ahead).foldl (fun (s : State) e => s.dmaEnd q { e with moved := 0, lastSeen := false } 0x20 0) s
  let s := (s.put (R.DMA_QHEAD q) F.DMA_QHEAD_HEAD tail).setQState q 1
  (s.raise (R.DMA_QSTATUS q) F.DMA_QSTATUS_ERR.lo).put (R.DMA_QSTATUS q) F.DMA_QSTATUS_CAUSE status

/-- Replace the oldest started descriptor. -/
def State.dmaKeep (s : State) (q : Nat) (d : Desc) : State :=
  let x := s.dmaQ q
  s.setDmaQ q { x with started := d :: x.started.drop 1 }

/-! ### Moving data -/

/-- The engine's external access on its route `r`. -/
def State.dmaAlong (s : State) (q : MemReq) (x : ExtRead) (g : List GuardSeen) (r : ExtRoute) : State × Option MemAns :=
  match r with
  | .refuse st => (s.bump (if st = 1 then R.XMC_COUNT 3 else R.MGD_COUNT 3), some ⟨st, []⟩)
  | .plain => ((s.plainAccess q x).1, some (s.plainAccess q x).2)
  | .guard k =>
    match (s.put R.MGD_STATUS F.MGD_STATUS_FRESH 0).guardServe g k q with
    | .ok d s => (s, some ⟨0, d⟩)
    | .halt c ch s => (s.enterHalted c ch, none)
    | .noEcc _ s => (s, some ⟨6, []⟩)

/-- One internal request of the engine (R529): the answer, or the halt that an integrity failure takes the device to. -/
def State.dmaAccess (s : State) (q : MemReq) (ecc : EccSeen) (x : ExtRead) (g : List GuardSeen) : State × Option MemAns :=
  if inStore q.addr then ((s.storeAccess q ecc).1, some (s.storeAccess q ecc).2)
  else if inExternal q.addr then s.dmaAlong q x g (s.extRoute q)
  else (s, some ⟨1, []⟩)

/-- Bytes of the next internal request: up to the next 128-byte boundary. -/
def chunkLen (a left : Nat) : Nat := min left (128 - a % 128)

/-- COPY goes on, at most `fuel` requests: D2H reads internal memory and writes the host's, H2D the reverse with the bytes the host
read has brought. The result is the descriptor and its end, if it has one. -/
def dmaCopy (q : Nat) (d2h : Bool) (seen : DmaSeen) : Nat → Nat → Desc → State → State × Desc × Option Nat
  | 0, _, d, s => (s, d, none)
  | fuel + 1, i, d, s =>
    if d.len ≤ d.moved then (s, d, some 0)
    else
      let a := d.internal % 2 ^ 48 + d.moved
      let key := some (s.get (R.DMA_QCFG q) F.DMA_QCFG_KEYID)
      let n := chunkLen a (d.len - d.moved)
      let got := (seen.host.drop d.moved).take n
      let n := if d2h then n else got.length
      if n = 0 then (s, d, none)
      else
        let r := s.dmaAccess ⟨238, 3, key, a, !d2h, n, if d2h then [] else got, none⟩ (seen.ecc.getD i .clean)
          (seen.ext.getD i .ordinary) (seen.guard.drop (2 * i))
        match r.2 with
        | none => (r.1, d, none)
        | some ans =>
          if ans.status ≠ 0 then (r.1, d, some 0x12)
          else
            let s := if d2h then r.1.hostWrite (d.host + d.moved) ans.data else r.1
            dmaCopy q d2h seen fuel (i + 1) { d with moved := d.moved + n } s

/-- ELEMENTS in H2D goes on while the stream gives credit (R559): element `moved / 8` of the descriptor. -/
def dmaSend (n : Nat) (seen : DmaSeen) : Nat → Desc → State → State × Desc × Option Nat
  | 0, d, s => (s, d, none)
  | fuel + 1, d, s =>
    if d.len ≤ d.moved then (s, d, some 0)
    else
      let bs := (seen.host.drop d.moved).take 8
      if bs.length < 8 then (s, d, none)
      else
        let fl := b2n (d.first && decide (d.moved = 0)) + 2 * b2n (d.last && decide (d.moved + 8 = d.len))
        let r := s.strGive n ⟨BitVec.ofNat 64 (leNat bs), BitVec.ofNat 8 fl⟩
        if r.1 then dmaSend n seen fuel { d with moved := d.moved + 8 } r.2 else (r.2, d, none)

/-- ELEMENTS in D2H goes on with what the stream has delivered (R560); 100 µs after the last element written it ends. The end carries its
status and INFO. -/
def dmaReceive (n : Nat) : Nat → Desc → State → State × Desc × Option (Nat × Nat)
  | 0, d, s => (s, d, none)
  | fuel + 1, d, s =>
    if d.len ≤ d.moved ∨ (0 < d.moved ∧ d.lastWrite + 100000 ≤ s.stamp) then (s, d, some (0, 0))
    else match s.strTake n with
      | (none, s) => (s, d, none)
      | (some e, s) =>
        if e.isSeam then (s, d, some (2, e.seamNo))
        else if e.isGap then (s, d, some (1, e.count))
        else
          let last := e.sb.getLsbD 1
          let s := s.hostWrite (d.host + d.moved) (leBytes e.data.toNat 8)
          let d := { d with moved := d.moved + 8, lastSeen := last, lastWrite := s.stamp }
          if last then (s, d, some (0, 0)) else dmaReceive n fuel d s

/-- Work on the oldest started descriptor: what it moves now, and its end if it comes to one. -/
def State.dmaWork (s : State) (q : Nat) (d : Desc) (seen : DmaSeen) : State × Desc × Option (Nat × Nat) :=
  let d2h := s.flag (R.DMA_QCFG q) F.DMA_QCFG_DIR
  let plain (r : State × Desc × Option Nat) : State × Desc × Option (Nat × Nat) := (r.1, r.2.1, r.2.2.map (fun st => (st, 0)))
  match d.ended with
  | some e => (s, d, some e)
  | none =>
    if d.op = 1 then plain (dmaCopy q d2h seen (d.len / 128 + 2) 0 d s)
    else
      match s.epStream (0x6000 + q) with
      | none => (s, d, none)
      | some n =>
        if d2h then dmaReceive n (d.len / 8 + 1) d s
        else if d.op = 2 then plain (dmaSend n seen (d.len / 8 + 1) d s)
        else
          let e : Elem := if d.op = 3 then mkSeam 0 else ⟨BitVec.ofNat 64 d.internal, 0x10⟩
          let r := s.strGive n e
          (r.2, d, if r.1 then some (0, 0) else none)

/-- The descriptor ends: an engine error for HOST_ERR, TIMEOUT, INTERNAL_ERR and BAD_DESC. -/
def State.dmaFinish (s : State) (q : Nat) (d : Desc) (status info : Nat) (later : List (List Word)) : State :=
  if 0x10 ≤ status then s.dmaError q d status later else s.dmaEnd q d status info

end Sys2Proof.Machine
end

