-- ==== Sys2Proof/Machine/HostPort.lean ====
section
/-! DEFINITION. The rows of the host attachment and the DMA commands (spec/17). -/

namespace Sys2Proof.Machine

/-- PCIE_BAR_REQUEST (R551 to R553). -/
def execPcieBarRequest (r : BarReq) (s : State) : Out :=
  if !s.endpoint then .next s
  else if r.bar = 0 ∨ r.bar = 2 then .next (s.barAccess r)
  else if r.bar = 4 then .next (s.tapAccess r .clean)
  else .next (s.barUr r)

/-- BAR4_READ (R552); `ecc` is what the store tier finds in the words. -/
def execBar4Read (r : BarReq) (ecc : EccSeen) (s : State) : Out :=
  if s.endpoint then .next (s.tapAccess { r with bar := 4, write := false } ecc) else .next s

/-- MSIX_UNMASK (R554): the host clears the mask of vector `v`. -/
def execMsixUnmask (v : Nat) (s : State) : Out :=
  if s.endpoint ∧ v < 64 then .next (s.msixWrite v 3 (s.msixWord v 3 &&& 0xFFFFFFFE)) else .next s

/-- DMA_DESCRIPTOR_START (R557, R558): the arbiter's next queue fetches and starts its descriptor; `d` is what host memory holds, none
when the fetch ends with an error completion. -/
def execDmaDescriptorStart (d : Option (List Word)) (s : State) : Out :=
  match s.engineRuns, s.dmaReady with
  | true, some q =>
    let head := s.get (R.DMA_QHEAD q) F.DMA_QHEAD_HEAD
    let desc := match d with
      | some ws => s.newDesc q head ws
      | none => { s.newDesc q head [] with ended := some (0x10, 0) }
    let x := s.dmaQ q
    let s := (s.put (R.DMA_QHEAD q) F.DMA_QHEAD_HEAD ((head + 1) % s.qSize q)).setDmaQ q { x with started := x.started ++ [desc] }
    .next { s with host := { s.host with rrQueue := (q + 1) % 32 } }
  | _, _ => .next s

/-- DMA_DESCRIPTOR_COMPLETE (R559 to R561): the engine works on the oldest started descriptor of queue `q` and completes it when it
comes to its end; else it keeps what it has moved. -/
def execDmaDescriptorComplete (q : Nat) (seen : DmaSeen) (s : State) : Out :=
  match s.engineRuns && decide (q < 32), (s.dmaQ q).started with
  | true, d :: _ =>
    let r := s.dmaWork q d seen
    let s := r.1
    if !s.engineRuns then .next s
    else match r.2.2 with
      | some e => .next (s.dmaFinish q r.2.1 e.1 e.2 seen.later)
      | none =>
        match seen.hostErr with
        | some h =>
          let s := match h with | .poison => s.aer .poisoned none | _ => s
          .next (s.dmaFinish q r.2.1 0x10 0 seen.later)
        | none => .next (s.dmaKeep q r.2.1)
  | _, _ => .next s

/-- D2H_IDLE_TIMEOUT (R560): 100 µs since the last element written. -/
def execD2hIdleTimeout (q : Nat) (s : State) : Out :=
  match s.engineRuns && decide (q < 32), (s.dmaQ q).started with
  | true, d :: _ =>
    if s.flag (R.DMA_QCFG q) F.DMA_QCFG_DIR ∧ d.op = 2 ∧ 0 < d.moved ∧ d.ended = none then
      .next ((s.reach (d.lastWrite + 100000)).dmaEnd q d 0 0)
    else .next s
  | _, _ => .next s

/-- HOST_READ_TIMEOUT (R555): the oldest started descriptor of an H2D queue ends TIMEOUT, after what had come moves. -/
def execHostReadTimeout (q : Nat) (seen : DmaSeen) (s : State) : Out :=
  match s.engineRuns && decide (q < 32), (s.dmaQ q).started with
  | true, d :: _ =>
    if s.flag (R.DMA_QCFG q) F.DMA_QCFG_DIR then .next s
    else
      let r := s.dmaWork q d seen
      let s := r.1
      if !s.engineRuns then .next s
      else match r.2.2 with
        | some e => .next (s.dmaFinish q r.2.1 e.1 e.2 seen.later)
        | none => .next ((s.aer .completionTimeout none).dmaFinish q r.2.1 0x11 0 seen.later)
  | _, _ => .next s

/-! ### Commands (R565 to R569) -/

/-- DMA.STATUS (R566). -/
def execDmaStatus (mb : Nat) (s : State) : Out := .next <| runCommand spec_DMA_STATUS noFields
  (fun c s =>
    let q := c.n 2 4 0
    .ok s [s.rd R.PCI_STATUS, s.dmaCfg q, s.rd (R.DMA_QSTATUS q), s.rd (R.DMA_QHEAD q)]) mb s

/-- DMA.QUEUE (R556, R567). -/
def execDmaQueue (mb : Nat) (s : State) : Out := .next <| runCommand spec_DMA_QUEUE
  (fun c s => if s.keyKnown (c.n 2 21 16) then none else some .NOT_OWNER)
  (fun c s =>
    let q := c.n 2 4 0
    if 2 ≤ s.qState q ∨ (s.epStream (0x6000 + q)).isSome then .code .REFUSED_IN_USE s
    else
      let s := s.wr (R.DMA_QCFG q) (c.w 2 &&& 0xE03F0000)
      .ok (s.setQState q (c.n 2 31 31))) mb s

/-- DMA.COUNTERS (R568). -/
def execDmaCounters (mb : Nat) (s : State) : Out := .next <| runCommand spec_DMA_COUNTERS noFields
  (fun c s =>
    let r := s.counters ((List.range 4).map R.PCI_COUNT) (c.b 2 0)
    .ok r.2 r.1) mb s

/-- The endpoint's link is down until it has trained. -/
def State.pcieDown (s : State) : State :=
  ((s.put R.PCI_STATUS F.PCI_STATUS_LINK_UP 0).put R.PCI_STATUS F.PCI_STATUS_SPEED 0).put R.PCI_STATUS F.PCI_STATUS_WIDTH 0

/-- The endpoint's link has trained. -/
def State.pcieUp (s : State) (speed width : Nat) : State :=
  ((s.put R.PCI_STATUS F.PCI_STATUS_LINK_UP 1).put R.PCI_STATUS F.PCI_STATUS_SPEED (min speed s.host.targetSpeed)).put R.PCI_STATUS
    F.PCI_STATUS_WIDTH width

/-- A speed and width the endpoint supports (R550). -/
def pcieFits (speed width : Nat) : Bool := decide (1 ≤ speed ∧ speed ≤ 5) && [1, 2, 4, 8].contains width

/-- DMA.LINK (R569). -/
def execDmaLink (mb : Nat) (s : State) : Out := .next <| runCommand spec_DMA_LINK
  (fun c _ => badIf (decide (c.n 2 2 0 = 0 ∨ 5 < c.n 2 2 0)))
  (fun c s => .acc ({ s with host := { s.host with targetSpeed := c.n 2 2 0 } }.pcieDown.bump (R.PCI_COUNT 3)) []) mb s

/-- DMA_LINK_RETRAINED (R569): LINK_UP is set again. -/
def execDmaLinkRetrained (speed width : Nat) (s : State) : Out :=
  if pcieFits speed width ∧ (s.openOf 0x1381).isSome then
    let s := s.pcieUp speed width
    .next ((s.mbx.open_.filter (fun o => decide (o.code = 0x1381))).foldl (fun (s : State) o => s.complete o.id .DONE) s)
  else .next s

end Sys2Proof.Machine
end

