-- ==== Sys2Proof/Machine/Meridian.lean ====
section
/-! DEFINITION. Events of the meridian unit and the MER commands (spec/13). -/

namespace Sys2Proof.Machine

/-! ### The second boundary -/

/-- The unit is LOCKED from now on with LOCK_TE `te`. -/
def State.enterLocked (s : State) (te : Nat) : State :=
  let s := if s.merState = 3 ∨ s.merState = 4 then s.endEpisode else s
  let s := ((s.put R.MER_STATUS F.MER_STATUS_STATE 2).put R.MER_STATUS F.MER_STATUS_HOLD_MODE 0).put R.MER_STATUS
    F.MER_STATUS_BUDGET_MUTE 0
  (s.setMer { s.mer with lockedSince := some s.stamp, lockTe := te }).wr R.MER_BOUND (nsUp (te * 1000))

/-- One second of HOLDOVER or BUDGET_OUT, `ref` being the reference being acquired: the mode, the growth of the bound, the count, the budget (R442 to R445). -/
def State.holdSecond (s : State) (p : PllSecond) (ref : Nat) : State :=
  let mode := s.holdMode
  let b := s.mer.bound + s.growth mode
  let s := (s.put R.MER_STATUS F.MER_STATUS_HOLD_MODE mode).setMer { s.mer with
    bound := b, freq := if ref ≠ 0 then s.pllSteer p ref else s.holdFreq mode p }
  let s := ((s.wr R.MER_BOUND (nsUp b)).bump R.MER_HOLD).gazInc 53
  if s.merState = 3 ∧ s.get R.MER_BUDGET F.MER_BUDGET_BUDGET_NS * 1000 < b then
    let mute := s.policy 1
    let s := (s.put R.MER_STATUS F.MER_STATUS_STATE 4).put R.MER_STATUS F.MER_STATUS_BUDGET_MUTE (b2n mute)
    ((s.bump (R.MER_COUNT 2)).gazInc 55).report 0x72 2 [2, s.rd R.MER_BOUND, s.rd R.MER_HOLD]
      [if mute then (4, 4, 6) else (5, 0, 4)]
  else s

/-- The state machine of Table 13-6 at a boundary: `old` and `new` are the references selected before and now. A reference outside the PLL's
range is not locked to (R435). -/
def State.merStep (s : State) (p : PllSecond) (old new : Nat) : State :=
  let first := decide (new ≠ 0 ∧ new ≠ old)
  let lock := decide (new ≠ 0 ∧ p.window ≤ 60) && s.pllInRange p
  let steer := s.setMer { s.mer with freq := s.pllSteer p new }
  let mayStep := first && !s.flag R.AIR_STATUS F.AIR_STATUS_RUN && decide (1000 < p.te.natAbs)
  match s.merState with
  | 0 =>
    if new = 0 then s
    else
      let s := steer.put R.MER_STATUS F.MER_STATUS_STATE 1
      if mayStep then s.setMer { s.mer with stepNext := some p.te } else s
  | 1 =>
    if new = 0 then s.put R.MER_STATUS F.MER_STATUS_STATE 0
    else if lock then steer.enterLocked p.window
    else if mayStep then steer.setMer { steer.mer with stepNext := some p.te } else steer
  | 2 =>
    if new = 0 then s.enterHoldover p
    else if 150 < p.filtered.natAbs then
      (s.setMer { s.mer with banned := some (new, s.stamp + 60000000000) }).enterHoldover p
    else if first ∧ 60 < p.te.natAbs then s.enterHoldover p
    else (steer.setMer { steer.mer with lockTe := p.window }).wr R.MER_BOUND (nsUp (p.window * 1000))
  | _ => if lock then steer.enterLocked p.window else s.holdSecond p new

/-- The outputs and validity flags set at a boundary. -/
def State.merFlags (s : State) (p : PllSecond) (new : Nat) : State :=
  let te : Word := if new = 0 then 0x80000000 else word (unsgn 32 (satInt 32 p.te))
  let cls := if new = 2 then (match s.mer.ptp.gm with | some (_, c) => c | none => 0xFF) else 0xFF
  let s := ((s.wr R.MER_TE te).put R.MER_STATUS F.MER_STATUS_CLOCK_CLASS cls).put R.MER_STATUS F.MER_STATUS_TEMP_LEARNED
    (b2n (s.learned s.oscTemp))
  let low := s.mer.outNow.bit 31 && (s.merState == 0 || s.merState == 1 || s.merState == 4)
  s.setMer { s.mer with squelched := low }

/-- LOCAL_SECOND_BOUNDARY (R431): time goes on to the boundary; validity changes act, a reference is selected, the state
follows. -/
def execLocalSecondBoundary (p : PllSecond) (s : State) : Out :=
  if !s.merRuns || s.sys.dev == .boot then .next s
  else
    let s := (s.reach (s.stampOfLocal ((s.localNow / 4294967296 + 1) * 4294967296))).merCarry
    -- a step ordered at the last boundary, while the schedule is stopped
    let s := match s.mer.stepNext with
      | some te =>
        let s := s.setMer { s.mer with stepNext := none }
        if s.flag R.AIR_STATUS F.AIR_STATUS_RUN then s
        else (s.setMer { s.mer with local_ := ((s.mer.local_ : Int) + te * 4294967296 / 1000000000).toNat }).bump (R.MER_COUNT 7)
      | none => s
    let s := s.setMer { s.mer with profile := s.get R.MER_CFG F.MER_CFG_PROFILE, outNow := s.rd R.MER_OUT }
    let s := s.refSecond
    let g := s.gnssValid (s.flag R.MER_STATUS F.MER_STATUS_GNSS_OK)
    let t := s.ptpValid
    let e := s.synceValid
    let late := decide (s.mer.synce.last ≠ none) && !s.recent s.mer.synce.last 5000000000 && !s.mer.esmcLost
    let s := if late then (s.bump (R.MER_COUNT 6)).setMer { s.mer with esmcLost := true } else s
    let port := s.timePort
    let s := (s.put R.YRN_STATUS F.YRN_STATUS_TIME_VALID (b2n port.isSome)).put R.YRN_STATUS F.YRN_STATUS_TIME_PORT
      (port.getD (s.get R.YRN_STATUS F.YRN_STATUS_TIME_PORT))
    let s := ((s.put R.MER_STATUS F.MER_STATUS_GNSS_OK (b2n g)).put R.MER_STATUS F.MER_STATUS_PTP_OK (b2n t)).put R.MER_STATUS
      F.MER_STATUS_SYNCE_OK (b2n e)
    let ban := fun r => match s.mer.banned with | some (b, until_) => decide (b = r ∧ s.stamp < until_) | none => false
    let old := s.merRef
    let new := selectRef s.mer.profile (g && !ban 1) (t && !ban 2) (port.isSome && !ban 3)
    let s := if new ≠ old then s.bump (R.MER_COUNT 0) else s
    let s := s.put R.MER_STATUS F.MER_STATUS_REF new
    .next ((s.merStep p old new).merFlags p new)

/-! ### Inputs -/

/-- PPS_INPUT_EDGE (R434): the edge, less the cable delay, takes the label of a binary message that ended 100 ms before. -/
def execPpsInputEdge (s : State) : Out :=
  if !s.merRuns then .next s
  else
    let t := ((s.stamp : Int) - sgn 16 (s.get R.MER_GNSS F.MER_GNSS_DELAY_NS)).toNat
    let g := s.mer.gnss
    let lab := match g.next with
      | some l => if l.ended + 100000000 ≤ s.stamp then some (l.seconds, l.good) else none
      | none => none
    .next (s.setMer { s.mer with gnss := { g with edge := some t, label := lab, next := none } })

/-- Field of an Eloarel binary message: `n` bytes from `i`, big-endian (Table 13-4). -/
def todField (bs : List Byte) (i n : Nat) : Nat := ((bs.drop i).take n).foldl (fun a b => a * 256 + b.toNat) 0

/-- An Eloarel binary message is valid: SYNC, LEN and CRC. -/
def todValid (bs : List Byte) : Bool :=
  decide (todField bs 0 2 = 0xE1A0) && decide (todField bs 2 1 = 0x10) && decide (todField bs 14 2 = crc16 (bs.take 14))

/-- What it says of the next edge: its second, and whether it reports a fix and an accuracy of 100 ns or better. -/
def todLabel (bs : List Byte) (now : Nat) : TodLabel :=
  ⟨todField bs 4 6, decide (todField bs 3 1 % 2 = 1) && decide (todField bs 12 2 ≤ 100), now⟩

/-- MER_LEAP as it tells: LEAP, PENDING and DIR. -/
def todLeap (bs : List Byte) : Word := word (todField bs 10 1 + todField bs 3 1 / 2 % 2 * 256 + todField bs 3 1 / 4 % 2 * 512)

/-- The message is valid as such. -/
def todMsgOk : TodMsg → Bool
  | .binary bs => todValid bs
  | .zda v _ _ => v

/-- The UART reads at `rate`: the rate detected, or any after 10 s without a valid message. -/
def State.todHeard (s : State) (rate : Nat) : Bool :=
  match s.mer.gnss.rate with
  | some (r, t) => decide (r = rate) || decide (t + 10000000000 ≤ s.stamp)
  | none => true

/-- What a valid message does: it labels the next edge, or the edge before it (R434). -/
def State.todTake (s : State) (m : TodMsg) : State :=
  let g := s.mer.gnss
  match m with
  | .binary bs =>
    let s := s.setMer { s.mer with gnss := { g with next := some (todLabel bs s.stamp) } }
    if s.merRef = 1 then s.wr R.MER_LEAP (todLeap bs) else s
  | .zda _ present utc =>
    match g.edge with
    | some t =>
      if s.stamp ≤ t + 900000000 then
        s.setMer { s.mer with gnss := { g with label := some ((utc + sgn 8 (s.get R.MER_LEAP F.MER_LEAP_LEAP)).toNat, present) } }
      else s
    | none => s

/-- TOD_MESSAGE (R434) at its baud rate: the rate is that of the first valid message, until none has come for 10 s. DEDUCED (log entry 71): a message at
another rate is a time-of-day error, as an invalid one is. -/
def execTodMessage (m : TodSeen) (s : State) : Out :=
  if !s.merRuns then .next s
  else if !todMsgOk m.msg || !s.todHeard m.rate then .next (s.bump (R.MER_COUNT 4))
  else .next ((s.setMer { s.mer with gnss := { s.mer.gnss with rate := some (m.rate, s.stamp) } }).todTake m.msg)

/-- PTP_MESSAGE (R432). -/
def execPtpMessage (mac : Nat) (m : PtpMsg) (s : State) : Out := .next (s.ptpMessage mac m)

/-- ESMC_MESSAGE (R433). -/
def execEsmcMessage (mac ql : Nat) (s : State) : Out := .next (s.esmcMessage mac ql)

/-- OSC_TEMP_READ (R427): once a second; `none` is a missing acknowledge. -/
def execOscTempRead (r : Option Int) (s : State) : Out :=
  if !s.merRuns || !s.svy.committed then .next s
  else
    let good := match r with | some t => decide (-55 * 256 ≤ t ∧ t ≤ 125 * 256) | none => false
    if good then
      .next (((s.wr R.MER_TEMP (word (unsgn 16 (r.getD 0)))).put R.MER_STATUS F.MER_STATUS_SENSOR_OK 1).setMer
        { s.mer with sensorFails := 0 })
    else
      let n := s.mer.sensorFails + 1
      let s := (s.bump (R.MER_COUNT 5)).setMer { s.mer with sensorFails := n }
      .next (if 10 ≤ n then s.put R.MER_STATUS F.MER_STATUS_SENSOR_OK 0 else s)

/-! ### The contour model -/

/-- CONTOUR_LEARN_TICK (R440): every 60 s, with the means of frequency (10⁻¹²) and temperature (1/256 °C). -/
def execContourLearnTick (y temp : Int) (s : State) : Out :=
  let locked := match s.mer.lockedSince with | some t => decide (t + 600000000000 ≤ s.stamp) | none => false
  if !s.merRuns || decide (s.merState ≠ 2) || !locked || !s.flag R.MER_STATUS F.MER_STATUS_SENSOR_OK || s.oscClass == 0 ||
      decide (2 * temp < -81 * 256) || decide (181 * 256 ≤ 2 * temp) then .next s
  else
    let c := s.mer.contour
    let now := s.localSec
    let k := ((temp + 128) / 256 + 40).toNat
    let s := s.setMer { s.mer with contour := { c with
      t0 := some (c.t0.getD now), lockedS := c.lockedS + 60,
      samples := (c.samples.filter (fun q => decide (now ≤ q.t + 1209600))) ++ [⟨now, y, k⟩] } }
    let yc := y - s.ageing
    let n := min (s.binN k + 1) 255
    let v := s.binV k + Config.roundDiv (yc - s.binV k) (min n 16 : Nat)
    .next ((s.wr (R.MER_BIN k) (word (unsgn 24 (satInt 24 v) * 256 + n))).modelFlags)

/-- AGEING_FIT (R440): every 24 h of local time once 14 days have passed since t₀. -/
def execAgeingFit (s : State) : Out :=
  let c := s.mer.contour
  match c.t0 with
  | none => .next s
  | some t0 =>
    let now := s.localSec
    if !s.merRuns || decide (now < t0 + 1209600) then .next s
    else
      let l := (c.samples.filter (fun q => decide (now ≤ q.t + 1209600 ∧ 10 ≤ s.binN q.k))).map
        (fun q => (((q.t : Int) - t0), q.y - s.binV q.k))
      let n : Int := l.length
      let st := l.foldl (fun a q => a + q.1) 0
      let sr := l.foldl (fun a q => a + q.2) 0
      let stt := l.foldl (fun a q => a + q.1 * q.1) 0
      let str := l.foldl (fun a q => a + q.1 * q.2) 0
      let den := n * stt - st * st
      if den = 0 then .next s
      else
        let d := Config.roundDiv ((n * str - st * sr) * 86400) den
        let s := (s.wr R.MER_AGE (word (unsgn 32 (satInt 32 d)))).setMer { s.mer with contour := { c with fitted := true } }
        .next s.modelFlags

/-- MODEL_STORE (R440): every 10 min; the model stops in HALTED and TRIPPED. -/
def execModelStore (s : State) : Out := if s.merRuns && s.svy.committed then .next s.modelStore else .next s

/-- LEAP_SECOND_APPLY (R455): the pending leap applies and PENDING clears. -/
def execLeapSecondApply (s : State) : Out :=
  if s.merRuns && s.flag R.MER_LEAP F.MER_LEAP_PENDING then
    let l := sgn 8 (s.get R.MER_LEAP F.MER_LEAP_LEAP) + (if s.flag R.MER_LEAP F.MER_LEAP_DIR then -1 else 1)
    let s := (s.put R.MER_LEAP F.MER_LEAP_LEAP (unsgn 8 l)).put R.MER_LEAP F.MER_LEAP_PENDING 0
    .next (s.setMer { s.mer with leapStored := some (s.rd R.MER_LEAP) })
  else .next s

/-- IRO_TRIM_GATE (R448, Table 13-12): `mrefOk` tells that MREF is within ±200 ppm of XTAL, `err` the error measured in units of
0.01 %. A positive error lowers the code; IRO is trimmed once a gate asks for no step. -/
def execIroTrimGate (mrefOk : Bool) (err : Int) (s : State) : Out :=
  if !s.merRuns then .next s
  else
    let src := if !s.svy.committed then 0
      else if s.oscMref ≠ 0 ∧ mrefOk then 1
      else if s.flag R.MER_STATUS F.MER_STATUS_GNSS_OK then 2
      else if s.flag R.AIR_STATUS F.AIR_STATUS_RUN then 3
      else 0
    let k := R.MER_IRO
    let trim := s.get k F.MER_IRO_IRO_TRIM
    let s := (s.put k F.MER_IRO_TRIM_SRC src).put k F.MER_IRO_ERROR (unsgn 8 (satInt 8 err))
    .next (if 3 < err then s.put k F.MER_IRO_IRO_TRIM (trim - 1)
      else if err < -3 then s.put k F.MER_IRO_IRO_TRIM (min 255 (trim + 1))
      else s.put R.CKI_STATUS F.CKI_STATUS_IRO_TRIMMED 1)

/-! ### Commands -/

/-- MER.STATUS (R451). -/
def execMerStatus (mb : Nat) (s : State) : Out := .next <| runCommand spec_MER_STATUS noFields
  (fun _ s => .ok s ([R.MER_STATUS, R.MER_CFG, R.MER_TE, R.MER_BOUND, R.MER_BUDGET, R.MER_HOLD, R.MER_TEMP, R.MER_MODEL].map s.rd))
  mb s

/-- BAD_FIELD of MER.SELECT (R452). -/
def selectBad (c : Cmd) (s : State) : Bool :=
  let p := c.n 2 31 28
  let d := c.n 2 23 16
  let lane := c.n 2 14 8
  decide (5 < p) || c.n 2 7 0 != 0 ||
  (if p = 3 then decide (d < 44 ∨ 63 < d) else decide (d < 24 ∨ 43 < d)) ||
  (s.groupLanes 1 (c.n 2 27 24)).isEmpty && decide (p = 0 ∨ p = 2 ∨ p = 3) ||
  (c.b 2 15 && (decide (95 < lane) || decide (s.laneClass lane ≠ 1))) ||
  (decide (p = 1) && decide (s.oscGnss = 0)) || (decide (p = 3) && decide (c.w 4 = 0 ∨ c.w 5 = 0))

/-- MER.SELECT (R452). -/
def execMerSelect (mb : Nat) (s : State) : Out := .next <| runCommand spec_MER_SELECT
  (fun c s => badIf (selectBad c s))
  (fun c s =>
    let p := c.n 2 31 28
    let ok := if s.position = 0 then p != 4 else p == 4 || p == 5
    if !ok then .code .NOT_PERMITTED s
    else .ok ((((((s.wr R.MER_CFG (c.w 2)).wr R.MER_GNSS (c.w 3)).wr R.MER_PTP_OWN (c.w 4)).wr R.MER_PTP_GM (c.w 5)).wr
      R.MER_PTP_HOP_LO (c.w 6)).wr R.MER_PTP_HOP_HI (c.w 7))) mb s

/-- MER.OUTPUTS (R453). -/
def execMerOutputs (mb : Nat) (s : State) : Out := .next <| runCommand spec_MER_OUTPUTS
  (fun c _ => badIf (c.n 2 23 16 != 0 || c.n 2 29 24 == 0))
  (fun c s => .ok (s.wr R.MER_OUT (c.w 2))) mb s

/-- MER.MODEL (R454). -/
def execMerModel (mb : Nat) (s : State) : Out := .next <| runCommand spec_MER_MODEL
  (fun c _ => badIf (decide (c.n 2 15 8 = 0 ∨ 60 < c.n 2 15 8 ∨ 131 < c.n 2 7 0 + c.n 2 15 8)))
  (fun c s => .ok s (s.rd R.MER_MODEL :: (List.range (c.n 2 15 8)).map (fun i => s.rd (R.MER_BIN (c.n 2 7 0 + i))))) mb s

/-- MER.LEAP (R455); the value is kept in MRAM (MER_LEAP). -/
def execMerLeap (mb : Nat) (s : State) : Out := .next <| runCommand spec_MER_LEAP noFields
  (fun c s => .ok ((s.wr R.MER_LEAP (c.w 2)).setMer { s.mer with leapStored := some (c.w 2) })) mb s

/-- MER.BUDGET (R456). -/
def execMerBudget (mb : Nat) (s : State) : Out := .next <| runCommand spec_MER_BUDGET
  (fun c _ => badIf (decide (c.n 2 15 0 < 100 ∨ 10000 < c.n 2 15 0)))
  (fun c s => .ok (s.wr R.MER_BUDGET (c.w 2))) mb s

/-- MER.MODEL_CLEAR (R457). -/
def execMerModelClear (mb : Nat) (s : State) : Out := .next <| runCommand spec_MER_MODEL_CLEAR
  (fun c _ => badIf (decide (c.n 2 15 0 ≠ 0xC1EA)))
  (fun _ s =>
    if s.merState = 3 ∨ s.merState = 4 then .code .REFUSED_IN_USE s
    else .ok (s.modelClear.setMer { s.modelClear.mer with mram := none })) mb s

/-- MER.COUNTERS (R458). -/
def execMerCounters (mb : Nat) (s : State) : Out := .next <| runCommand spec_MER_COUNTERS noFields
  (fun c s =>
    let (ws, s') := s.counters ((List.range 8).map R.MER_COUNT) (c.b 2 0)
    .ok s' ws) mb s

end Sys2Proof.Machine
end

