-- ==== Sys2Proof/Machine/Startup.lean ====
section
/-! DEFINITION. Supplies, power-on reset, PERST#, the crystal, firmware images and the PCIe link at start-up (spec/03, R96 to R104;
spec/25, R703 to R706). -/

namespace Sys2Proof.Machine

/-! ### Supplies (R98, R99, R706) -/

/-- Every supply that power-on reset monitors is valid. -/
def railsValid (rs : List Rail) : Bool := monitoredRails.all rs.contains

/-- SUPPLY_VALID: a rail reaches its "Valid at" value. The device stamp starts with VDD_AON; the 2 ms count starts with the last
monitored rail. -/
def execSupplyValid (r : Rail) (s : State) : Out :=
  if s.sys.rails.contains r then .next s
  else
    let stamp := if r = .vddAon ∧ s.sys.dev = .off then 0 else s.stamp
    let rails := s.sys.rails ++ [r]
    let at_ := if railsValid rails ∧ s.sys.dev = .off then s.sys.allValidAt <|> some stamp else s.sys.allValidAt
    .next { s with stamp := stamp, sys := { s.sys with rails := rails, allValidAt := at_ } }

/-- POWER_ON_RESET_RELEASE: 2 ms after the last monitored supply; the straps are latched. -/
def execPowerOnResetRelease (bootSrc xtalWait cascadeMaster ioPull : Nat) (s : State) : Out :=
  match s.sys.dev, s.sys.allValidAt with
  | .off, some t =>
    .next ((s.reach (t + 2000000)).powerOn ⟨bootSrc % 4, xtalWait % 4, cascadeMaster % 2, ioPull % 4⟩)
  | _, _ => .next s

/-- SUPPLY_LOSS: a rail has been below its "Valid at" value for 10 µs. A monitored one counts as loss of VDD_AON. -/
def execSupplyLoss (r : Rail) (s : State) : Out :=
  let s := { s with sys := { s.sys with rails := s.sys.rails.filter (· ≠ r) } }
  if monitoredRails.contains r then .next s.powerLost else .next s

/-- VDD_AON_LOST: OFF. -/
def execVddAonLost (s : State) : Out :=
  .next { s with sys := { s.sys with rails := s.sys.rails.filter (· ≠ Rail.vddAon) } }.powerLost

/-! ### PERST# (R100, R562) -/

/-- PERST_ASSERT: the link goes down and every DMA queue is disabled. -/
def execPerstAssert (s : State) : Out :=
  if s.sys.perst then .next s
  else
    let s := { s with sys := { s.sys with perst := true } }
    if s.sys.dev = .off then .next s
    else
      let s := (List.range 32).foldl (fun s q => (s.setQState q 0).setDmaQ q DmaQ.init) (s.gazInc 2)
      .next s.pcieDown

/-- PERST_RELEASE: entry to BOOT from any powered state. -/
def execPerstRelease (s : State) : Out :=
  if s.sys.perst then
    let s := { s with sys := { s.sys with perst := false } }
    if s.sys.dev = .off then .next s else .next (s.enterBoot false)
  else .next s

/-- PCIE_LINK_TRAINED: the endpoint's link has trained, without firmware. -/
def execPcieLinkTrained (speed width : Nat) (s : State) : Out :=
  if s.endpoint && !s.flag R.PCI_STATUS F.PCI_STATUS_LINK_UP && pcieFits speed width then .next (s.pcieUp speed width)
  else .next s

/-! ### Crystal and firmware (R98, R104, R45) -/

/-- XTAL_STABLE: XTAL_WAIT has passed since the entry to BOOT; clocks and the stamp move from IRO to XTAL. -/
def execXtalStable (s : State) : Out :=
  if s.sys.dev = .off ∨ s.sys.xtalStable then .next s
  else
    let s := s.reach (s.sys.bootAt + 4 ^ s.sys.straps.xtalWait * 1000000)
    let s := (s.put R.CKI_STATUS F.CKI_STATUS_XTAL_OK 1).put R.CKI_STATUS F.CKI_STATUS_STAMP_XTAL 1
    .next { s with sys := { s.sys with xtalStable := true } }

/-- BOOT_IMAGE_TRIED: the boot ROM, which has drawn the keys (R540), starts the image or records its rejection and goes on to the next;
with none left the device stays in BOOT. -/
def execBootImageTried (o : ImageOutcome) (s : State) : Out :=
  match s.sys.imagesLeft with
  | [] => .next s
  | img :: rest =>
    if s.sys.dev ≠ .boot ∨ s.sys.xtalStable = false then .next s
    else
      let s := if s.flag R.MGD_STATUS F.MGD_STATUS_KEYS then s else s.drawKeys
      match o with
      | .pass v => .next ({ s with sys := { s.sys with fwSlot := img, fwVersion := v, imagesLeft := [] } }.enter .ready)
      | .fail n =>
        let s := (s.gazInc 68).journal 0x01 (0x10 + max 1 (min n 4)) img.code 0 0
        let s := { s with sys := { s.sys with imagesLeft := rest } }
        .next (if rest.isEmpty then s.journal 0x02 0 0 0 0 else s)

end Sys2Proof.Machine
end

