-- ==== Sys2Proof/Machine/SurveyOps.lean ====
section
/-! DEFINITION. The survey image and the commit checks of Table 3-15 (spec/03, R105 to R108). -/

namespace Sys2Proof.Machine

/-- Word `i` of the staging buffer, and whether it has been written. -/
def Survey.word (v : Survey) (i : Nat) : Nat := (sget (fun _ => (0 : Word)) v.staged i).toNat
def Survey.has (v : Survey) (i : Nat) : Bool := sget (fun _ => false) v.written i

/-- TOTAL_BYTES of the staged header. -/
def Survey.total (v : Survey) : Nat := v.word 2

/-- BYTES fits the record type (Tables 3-8 to 3-14). -/
def bytesFit (type n : Nat) : Bool :=
  match type with
  | 1 => n == 16
  | 2 => n == 16
  | 3 => n == 12
  | 4 => n == 12
  | 6 => decide (8 ≤ n)
  | 7 => n == 8
  | 8 => n == 12
  | 9 => n == 24
  | 10 => n == 8
  | 11 => n == 68
  | _ => true

/-- The records from byte `off` to TOTAL_BYTES, and the first that overruns it or whose BYTES does not fit its type. -/
def Survey.tile (v : Survey) (off : Nat) : Nat → List SvyRec × Option Nat
  | 0 => ([], none)
  | fuel + 1 =>
    if v.total ≤ off then ([], none)
    else
      let h := v.word (off / 4)
      let n := h % 2 ^ 16
      if n < 4 ∨ n % 4 ≠ 0 ∨ v.total < off + n ∨ bytesFit (h / 2 ^ 16) n = false then ([], some off)
      else
        let r := v.tile (off + n) fuel
        (⟨h / 2 ^ 16, off, (List.range (n / 4 - 1)).map (fun i => v.word (off / 4 + 1 + i))⟩ :: r.1, r.2)

/-- Every record of the staged image. -/
def Survey.parse (v : Survey) : List SvyRec × Option Nat := v.tile 20 (v.total / 4)

/-- A record type the device reads; types from 0x8000 are the integrator's (R106). -/
def typeKnown (t : Nat) : Bool := decide (1 ≤ t ∧ t ≤ 11)

/-! ### Checks 1 to 4 -/

/-- The bytes of the staged image, its CRC word taken as 0. -/
def Survey.bytes (v : Survey) : List Byte :=
  (List.range (v.total / 4)).flatMap (fun i => leBytes (if i = 4 then 0 else v.word i) 4)

/-- The header checks with their DETAIL. -/
def Survey.header (v : Survey) (site : Word) : Option Nat :=
  if v.word 0 ≠ 0x51535652 ∨ v.word 1 / 2 ^ 16 ≠ 1 then some 0x01
  else if v.total % 4 ≠ 0 ∨ v.total < 20 ∨ 65536 < v.total ∨ (List.range (v.total / 4)).all v.has = false then some 0x02
  else if crc32 v.bytes ≠ v.word 4 then some 0x03
  else if v.word 3 ≠ site.toNat then some 0x0D
  else none

/-! ### Check 7: occurrences -/

/-- What may occur once: a lane, a reference, a record type; TENANT records are limited in number. -/
def SvyRec.once (r : SvyRec) : Nat × Nat :=
  match r.type with
  | 2 => (2, r.f 1 31 24)
  | 3 => (3, r.f 1 3 0)
  | t => (t, 0)

/-- The first record that occurs too often; 0 when a mandatory record is absent. -/
def occurFails (recs : List SvyRec) : Option Nat :=
  match (recs.zipIdx.find? (fun p =>
      let before := recs.take p.2
      if p.1.type = 9 then decide (63 ≤ before.countP (fun r => decide (r.type = 9)))
      else before.any (fun r => r.once == p.1.once))) with
  | some p => some p.1.off
  | none => if [1, 4, 5].all (fun t => recs.any (fun r => decide (r.type = t))) then none else some 0

/-! ### Check 8: fields -/

/-- Every bit of word `i` outside `mask` is 0. -/
def SvyRec.only (r : SvyRec) (i mask : Nat) : Bool := r.words.getD (i - 1) 0 &&& mask == r.words.getD (i - 1) 0

/-- The frequencies of Table 11-1. -/
def refFreqs : List Nat := [100000000, 122880000, 153600000, 156250000, 161132812, 184320000, 245760000, 312500000]

/-- A VRM record: both controlled rails, no rail twice, no pair of BUS and SEL twice. -/
def vrmOk (ws : List Nat) : Bool :=
  let rails := ws.map (fun w => bitsOf w 31 24)
  ws.all (fun w => decide (1 ≤ bitsOf w 31 24 ∧ bitsOf w 31 24 ≤ 5) && w &&& 0xFF1F0000 == w) &&
  rails.contains 1 && rails.contains 2 && rails.all (fun r => rails.count r == 1) &&
  ws.all (fun w => ws.countP (fun v => bitsOf v 20 16 == bitsOf w 20 16) == 1)

/-- Fields within their ranges, reserved bits 0 (R107, R362, R427, R527). -/
def SvyRec.fieldsOk (r : SvyRec) : Bool :=
  match r.type with
  | 1 =>
    let fitted := ((List.range 4).filter (fun c => r.f 2 (12 + c) (12 + c) == 1)).length
    r.only 2 0xFFFFFC1F && r.only 3 0xFFFF && decide (r.f 2 11 10 ≤ 1 ∧ r.f 2 4 0 ≤ 16 ∧ fitted ≠ 3) &&
    (fitted == 0 || decide (1 ≤ r.f 2 4 0))
  | 2 =>
    r.only 1 0xFFFF0000 && r.only 3 0x3F00FFF8 &&
    decide (r.f 1 31 24 ≤ 95 ∧ 1 ≤ r.f 1 23 20 ∧ r.f 1 23 20 ≤ 3 ∧ r.f 3 11 8 ≤ 3) &&
    (decide (r.f 1 23 20 = 1) == decide (r.f 3 31 24 ≠ 0))
  | 3 => r.only 1 0xF && decide (r.f 1 3 0 ≤ 11) && refFreqs.contains (r.words.getD 1 0)
  | 4 =>
    r.only 1 0xFF00FF7F && r.only 2 0x30F &&
    decide (r.f 1 31 28 ≤ 2 ∧ r.f 1 27 24 ≤ 5 ∧ r.f 1 15 8 ≤ 3 ∧ r.f 2 9 8 ≤ 2 ∧ r.f 2 3 0 ≤ 3) &&
    (r.f 1 31 28 == 0 || r.f 1 27 24 != 0)
  | 5 => vrmOk r.words
  | 6 =>
    r.only 1 0x7F && (r.words.drop 1).all (fun w => w &&& 0xFFFFE0FF == w && decide (bitsOf w 31 24 ≤ 223 ∧ bitsOf w 23 20 ≤ 4))
  | 7 => r.only 1 0xFF && decide (85 ≤ r.f 1 7 0 ∧ r.f 1 7 0 ≤ 105)
  | 8 =>
    r.only 1 0x7F330000 && r.only 2 0xFF03 && decide (1 ≤ r.f 1 27 24 ∧ r.f 1 27 24 ≤ 8 ∧ r.f 1 21 20 ≤ 2) &&
    [r.f 2 15 12, r.f 2 11 8].all (fun p => decide (p ≤ 7 ∨ p = 15))
  | 9 =>
    r.only 1 0xFFFF803F && r.only 2 0xFFFF && r.only 5 0xFF && decide (r.f 1 31 16 ≠ 0 ∧ r.f 1 5 0 ≠ 0 ∧ r.f 2 15 0 ≠ 0)
  | 10 => r.only 1 0xF
  | 11 => r.words.all (fun w => w &&& 0x7F7F7F7F == w)
  | _ => true

/-! ### Check 9: lanes -/

/-- The lanes of the LANE records of a class and group. -/
def groupOfRecs (recs : List SvyRec) (c g : Nat) : List Nat :=
  (List.range 96).filter (fun n => recs.any (fun r => decide (r.type = 2 ∧ r.f 1 31 24 = n ∧ r.f 1 23 20 = c ∧ r.f 1 19 16 = g)))

/-- The lanes of a MAC are consecutive and placed as R392 asks; 400GAUI-8 stands alone. -/
def macOk (recs : List SvyRec) (g : Nat) : Bool :=
  let ls := groupOfRecs recs 1 g
  let n := ls.length
  let a := ls.headD 0
  let sets := (recs.filter (fun r => decide (r.type = 2 ∧ r.f 1 23 20 = 1 ∧ r.f 1 19 16 = g))).foldl (fun x r => x ||| r.f 3 31 24) 0
  [1, 2, 4, 8].contains n && ls == (List.range n).map (a + ·) &&
  (if n = 8 then decide (a % 8 = 0) else decide (a % 4 % n = 0)) && (!sets.testBit 5 || sets == 32)

/-- The lanes of a yarn port fill whole quads and match WIDTH, 4 lanes without a CASCADE record. -/
def yarnOk (recs : List SvyRec) (p : Nat) : Bool :=
  let ls := groupOfRecs recs 3 p
  let wide := match recs.find? (fun r => decide (r.type = 8)) with | some r => r.f 2 p p == 1 | none => false
  ls.length == (if wide then 8 else 4) && ls.all (fun n => (List.range 4).all (fun i => ls.contains (n / 4 * 4 + i)))

/-- A LANE record's rate and GROUP, at most 16 Ethernet lanes up to it, and its group, judged at the group's first record. -/
def laneOk (recs : List SvyRec) (r : SvyRec) : Bool :=
  let kbps := r.words.getD 1 0
  let c := r.f 1 23 20
  let g := r.f 1 19 16
  let before := recs.filter (fun q => decide (q.type = 2 ∧ q.off < r.off ∧ q.f 1 23 20 = c))
  let first := before.all (fun q => decide (q.f 1 19 16 ≠ g))
  (if r.f 3 3 3 = 1 then decide (26562500 ≤ kbps ∧ kbps ≤ 56250000) else decide (1250000 ≤ kbps ∧ kbps ≤ 32500000)) &&
  (match c with
   | 1 => decide (before.length < 16) && (!first || macOk recs g)
   | 3 => decide (g ≤ 1) && (!first || yarnOk recs g)
   | _ => true)

/-! ### Checks 11 and 12: tenants, cascade, pins -/

/-- A TENANT record shares nothing with an earlier one. -/
def tenantOk (recs : List SvyRec) (r : SvyRec) : Bool :=
  (recs.filter (fun q => decide (q.type = 9 ∧ q.off < r.off))).all (fun q =>
    decide (q.f 1 31 16 ≠ r.f 1 31 16 ∧ q.keyId ≠ r.keyId) && q.words.getD 2 0 &&& r.words.getD 2 0 == 0 &&
    q.waleMask &&& r.waleMask == 0)

/-- The CASCADE record keeps R570 and check 12. -/
def cascadeOk (recs : List SvyRec) (r : SvyRec) : Bool :=
  let k := r.f 1 30 28
  let n := r.f 1 27 24
  let p0 := r.f 2 15 12
  let p1 := r.f 2 11 8
  let peers (a b : Nat) : Bool := (p0 == a && p1 == b) || (p0 == b && p1 == a)
  let shape := match r.f 1 21 20 with
    | 0 => n == 1 && r.f 1 17 16 == 0 && peers 15 15
    | 1 => decide (2 ≤ n) && r.f 1 17 16 != 0 && peers (if k = 0 then 15 else k - 1) (if k + 1 = n then 15 else k + 1)
    | _ => decide (2 ≤ n) && r.f 1 17 16 != 0 && peers ((k + n - 1) % n) ((k + 1) % n)
  decide (k < n) && shape && [(0, p0), (1, p1)].all (fun x => x.2 == 15 || !(groupOfRecs recs 3 x.1).isEmpty)

/-! ### The checks in order -/

/-- The first record of type `t` that fails `p`. -/
def failAt (recs : List SvyRec) (t : Nat) (p : SvyRec → Bool) : Option Nat :=
  (recs.find? (fun r => decide (r.type = t) && !p r)).map (·.off)

/-- Checks 1 to 12 of Table 3-15: DETAIL and AT of the first failure. -/
def Survey.check (v : Survey) (site : Word) : Option (Nat × Nat) :=
  match v.header site with
  | some d => some (d, 0)
  | none =>
    let all := v.parse
    let recs := all.1.filter (fun r => typeKnown r.type)
    let n := v.word 1 % 2 ^ 16
    let fail (d : Nat) (o : Option Nat) : Option (Nat × Nat) := o.map (fun a => (d, a))
    fail 0x04 all.2 <|>
    (if all.1.length = n then none else some (0x04, match all.1[n]? with | some r => r.off | none => 0)) <|>
    fail 0x05 ((all.1.find? (fun r => decide (r.type < 0x8000) && !typeKnown r.type)).map (·.off)) <|>
    fail 0x06 (occurFails recs) <|>
    fail 0x07 ((recs.find? (fun r => !r.fieldsOk)).map (·.off)) <|>
    fail 0x08 (failAt recs 2 (laneOk recs)) <|>
    fail 0x09 (failAt recs 2 (laneReachable recs)) <|>
    fail 0x0A (failAt recs 9 (tenantOk recs)) <|>
    fail 0x0B (failAt recs 8 (cascadeOk recs)) <|>
    (if pinsOk recs then none else some (0x0C, match recs.find? (fun r => decide (r.type = 6)) with | some r => r.off | none => 0))

/-! ### Check 13: hardware (R108, Table 3-16) -/

/-- MREF's surveyed frequency in kHz. -/
def mrefKhz (code : Nat) : Nat :=
  match code with
  | 1 => 10000
  | 2 => 12800
  | 3 => 20000
  | 4 => 25000
  | 5 => 38880
  | _ => 0

/-- A frequency in kHz (how the device rounds it is not stated). -/
def khzOf (hz : Nat) : Nat := if hz % 1000 = 0 then hz / 1000 else (Config.roundDiv hz 1000).toNat

/-- The first hardware check that fails, in the order of R108. -/
def hardwareFails (recs : List SvyRec) (oneFlash : Bool) (h : CommitSeen) : Option Mismatch :=
  let rec1 (t : Nat) : SvyRec := (recs.find? (fun r => decide (r.type = t))).getD ⟨t, 0, []⟩
  let board := rec1 1
  let osc := rec1 4
  let pins := rec1 6
  let avs := ((rec1 5).words.find? (fun w => h.avsSilent.contains (bitsOf w 20 16))).map (fun w =>
    (⟨5, bitsOf w 31 24, 0x05, bitsOf w 20 16, 0xFFFF⟩ : Mismatch))
  let i2c : Option Mismatch :=
    if osc.f 1 31 28 ≠ 0 ∧ h.sensorReplies = false then some ⟨4, osc.f 1 15 8, 0x06, osc.f 1 6 0, 0xFFFF⟩ else none
  let bank := ((List.range 7).findSome? (fun b =>
    let want := if pins.f 1 b b = 1 then 1800 else 1200
    let got := h.bankMv.getD b 0
    if 20 * got < 19 * want ∨ 21 * want < 20 * got then some (⟨6, b, 0x07, want, got⟩ : Mismatch) else none))
  let nom := mrefKhz (osc.f 1 27 24)
  let off := 1000000 * ((h.mrefHz : Int) - nom * 1000).natAbs
  let mref : Option Mismatch :=
    if nom ≠ 0 ∧ (h.mrefHz = 0 ∨ 200 * (nom * 1000) < off) then some ⟨4, 0, 0x08, nom, khzOf h.mrefHz⟩ else none
  let ext := ((List.range 4).findSome? (fun c =>
    if board.f 2 (12 + c) (12 + c) = 1 ∧ h.gib.getD c 0 ≠ board.f 2 4 0 then
      some (⟨1, c, 0x09, board.f 2 4 0, h.gib.getD c 0⟩ : Mismatch) else none))
  let flash := ((if oneFlash then [0] else [0, 1]).findSome? (fun c =>
    if h.flashMib.getD c 0 < board.f 3 15 0 then some (⟨1, c, 0x0B, board.f 3 15 0, h.flashMib.getD c 0⟩ : Mismatch) else none))
  avs <|> i2c <|> bank <|> mref <|> ext <|> flash

end Sys2Proof.Machine
end

