-- ==== Sys2Proof/Machine/Survey.lean ====
section
/-! DEFINITION. The SURVEY commands and the end of a commit (spec/03, R107 to R118). -/

namespace Sys2Proof.Machine

/-- A commit in progress, then a committed survey, forbid staging (R113, R115). -/
def State.staging (s : State) (k : Ans) : Ans :=
  if s.svy.committing then .code .BUSY s
  else if s.svy.committed then .code .REFUSED_IN_USE s
  else k

/-- SURVEY.LOAD (R113). -/
def execSurveyLoad (mb : Nat) (s : State) : Out := .next <| runCommand spec_SURVEY_LOAD
  (fun c _ => badIf (decide (c.n 2 15 0 % 4 ≠ 0 ∨ 65536 < c.n 2 15 0 + 4 * (c.length - 3))))
  (fun c s => s.staging <|
    let o := c.n 2 15 0 / 4
    let v := (c.rest 3).zipIdx.foldl (fun (v : Survey) p =>
      { v with staged := sset (fun _ => 0) v.staged (o + p.2) p.1, written := sset (fun _ => false) v.written (o + p.2) true }) s.svy
    .ok { s with svy := v }) mb s

/-- SURVEY.ABORT (R115). -/
def execSurveyAbort (mb : Nat) (s : State) : Out := .next <| runCommand spec_SURVEY_ABORT noFields
  (fun _ s => s.staging (.ok { s with svy := { s.svy with staged := [], written := [] } })) mb s

/-- SURVEY.COMMIT (R114): checks 1 to 12 run on the staged survey; their outcome is kept for the completion. -/
def execSurveyCommit (mb : Nat) (s : State) : Out := .next <| runCommand spec_SURVEY_COMMIT noFields
  (fun c s =>
    if s.sys.dev ≠ .ready then .code .NOT_PERMITTED s
    else s.staging <|
      let args := match s.svy.check (c.w 2) with | some d => [d.1, d.2] | none => []
      .acc { s with svy := { s.svy with committing := true } } args) mb s

/-- What a survey in force sets: lanes, meridian profile, pins, external memory, cascade, throttle temperature, marks (R109 to R111,
R627). -/
def State.surveyInForce (s : State) (rate : Nat) : State :=
  let s := s.lanesSurvey.merCommit.pinsSurvey
  let s := (s.memCommit rate).yarnCommit
  let throttle := match s.recsOf 7 with | r :: _ => r.f 1 7 0 | [] => 105
  let s := s.put R.THM_CFG F.THM_CFG_THROTTLE_C throttle
  if s.policy 2 then { s with swt := { s.swt with marked := s.swt.marks } } else s

/-- The cast-on load that Ubtor starts at commit (R110). -/
def State.castonAtCommit (s : State) : State :=
  let b := (s.recsOf 1).headD ⟨1, 0, []⟩
  if s.sys.straps.bootSrc.testBit 1 then (s.castLoad true none).getD s
  else if b.f 2 11 10 = 1 then (s.castLoad false none).getD s
  else s

/-- The CASCADE_MASTER strap against POSITION: informative, compared once every other check has passed (R108). -/
def State.strapCheck (s : State) : State :=
  let want := b2n (decide (s.position = 0))
  if s.sys.straps.cascadeMaster = want then s
  else s.mismatch 8 0 0x0A want s.sys.straps.cascadeMaster

/-- SURVEY_COMMIT_COMPLETE: the hardware checks end with what `h` tells; the survey is in force, or the commit fails with its DETAIL. -/
def execSurveyCommitComplete (h : CommitSeen) (s : State) : Out := s.duty 0 <|
  match s.openOf 0x0202, s.svy.committing with
  | some o, true =>
    let s := { s with svy := { s.svy with committing := false } }
    let recs := s.svy.parse.1.filter (fun r => typeKnown r.type)
    let failed (s : State) (rc : RetCode) (d at_ : Nat) : State :=
      ({ s with svy := { s.svy with lastDetail := d } }).complete o.id rc [word d, word at_]
    match o.args with
    | [d, a] => .next (failed s .SURVEY_INVALID d a)
    | _ =>
      match hardwareFails recs (s.sys.straps.bootSrc.testBit 0) h with
      | some m => .next (failed (s.mismatch m.type m.item m.kind m.expected m.found) .SURVEY_MISMATCH m.kind 0)
      | none =>
        let ws := (List.range (s.svy.total / 4)).map (fun i => word (s.svy.word i))
        let s := { s with svy := { s.svy with committed := true, words := ws, recs := recs, siteId := word (s.svy.word 3) } }
        .next (((s.strapCheck.surveyInForce h.rate).complete o.id .DONE [0, 0]).castonAtCommit)
  | _, _ => .next s

/-- SURVEY.STATUS (R116). -/
def execSurveyStatus (mb : Nat) (s : State) : Out := .next <| runCommand spec_SURVEY_STATUS noFields
  (fun _ s =>
    let v := s.svy
    let t := s.sys.straps
    let cal := F.DAT_STATUS_CAL.get (s.datReg .ubtor R.DAT_STATUS)
    .ok s [word (b2n v.committed * 2 ^ 31 + b2n v.committing * 2 ^ 30 + v.lastDetail * 2 ^ 16 + v.written.length), v.siteId,
      word (b2n v.overflow * 2 ^ 16 + v.mismatches.length * 2 ^ 8 + cal * 2 ^ 7 + t.ioPull * 2 ^ 5 + t.cascadeMaster * 2 ^ 4 +
        t.xtalWait * 2 ^ 2 + t.bootSrc)]) mb s

/-- SURVEY.READ (R117). -/
def execSurveyRead (mb : Nat) (s : State) : Out := .next <| runCommand spec_SURVEY_READ
  (fun c s =>
    let o := c.n 2 15 0
    let n := c.n 3 5 0
    badIf (decide (o % 4 ≠ 0 ∨ n = 0 ∨ 61 < n ∨ 4 * s.svy.words.length < o + 4 * n)))
  (fun c s => .ok s ((s.svy.words.drop (c.n 2 15 0 / 4)).take (c.n 3 5 0))) mb s

/-- SURVEY.MISMATCH (R118). -/
def execSurveyMismatch (mb : Nat) (s : State) : Out := .next <| runCommand spec_SURVEY_MISMATCH noFields
  (fun c s =>
    let ms := (s.svy.mismatches.drop (c.n 2 5 0)).take 30
    .ok s (word ms.length :: ms.flatMap (fun m =>
      [word (m.type * 2 ^ 16 + m.item % 256 * 2 ^ 8 + m.kind % 256), word (m.expected % 65536 * 2 ^ 16 + m.found % 65536)]))) mb s

end Sys2Proof.Machine
end

