-- ==== Sys2Proof/Machine/Sys.lean ====
section
/-! DEFINITION. The SYS commands (spec/02, R83 to R95), the expert session's timeout (R80), the delayed reset (R88), firmware updates
(R92), and lockstep pair resets (R56). -/

namespace Sys2Proof.Machine

/-- The instant the open session times out (R80). -/
def Session.ends (e : Session) : Nat := e.lastAck + e.idleS * 1000000000

/-- IDLE_LEFT of SYS.STATUS: seconds before the session's timeout (their rounding is not stated). -/
def State.idleLeft (s : State) : Word :=
  match s.sys.session with
  | none => 0
  | some e =>
    let ns : Nat := e.ends - s.stamp
    word ((if ns % 1000000000 = 0 then ns / 1000000000 else (Config.roundDiv ns 1000000000).toNat) % 65536)

/-- SYS.STATUS (R84). -/
def execSysStatus (mb : Nat) (s : State) : Out := .next <| runCommand spec_SYS_STATUS noFields
  (fun _ s => .ok s [s.devState, s.sys.fwVersion, s.rd R.HALT_CAUSE, s.rd R.TRIP_CAUSE, word s.stamp, word (s.stamp / 2 ^ 32),
    s.idleLeft]) mb s

/-- SYS.ECHO (R85). -/
def execSysEcho (mb : Nat) (s : State) : Out := .next <| runCommand spec_SYS_ECHO noFields (fun c s => .ok s (c.rest 2)) mb s

/-! ### SYS.STATE (R86, R87, R478, R479) -/

/-- Step E1 of Table 14-5: sheets and wales close, their chart-port streams end, DMA queues stop, lanes take the LP2 floor. -/
def State.dormantEntry (s : State) (id : Nat) : State :=
  let s := ((s.bump (R.PWR_COUNT 2)).put R.PWR_STATUS F.PWR_STATUS_WAKE_SRC 0).swtStop
  let s := s.stageMap (fun p => if p = .on then .closing else p)
  let s := (List.range 32).foldl State.portAbandon s
  let s := (List.range 32).foldl State.dmaStop s
  ({ s with pwr := { s.pwr with dorm := .entry, dormOpen := some id } }).lanesMove

/-- Table 1-8 has a transition from the present state to TARGET. -/
def State.mayEnter (s : State) (target : Nat) : Bool :=
  match target with
  | 0 => s.sys.dev == .onAir || s.sys.dev == .charted
  | _ => s.sys.dev == .quiet

/-- Open SYS.STATE commands whose target the device has reached complete. -/
def State.stateReached (s : State) : State :=
  match s.openOf 0x0103 (fun o => o.args == [s.sys.dev.code]) with
  | some o => s.complete o.id .DONE
  | none => s

/-- SYS.STATE. Only the host orders state changes (Table 1-8). -/
def execSysState (mb : Nat) (s : State) : Out := .next <| State.stateReached <| runCommand spec_SYS_STATE
  (fun c _ => badIf (decide (c.n 2 1 0 = 3)))
  (fun c s =>
    let t := c.n 2 1 0
    if !c.host || !s.mayEnter t then .code .NOT_PERMITTED s
    else if s.pwr.dorm ≠ .none ∨ (s.openOf 0x0103).isSome then .code .BUSY s
    else match t with
      | 0 => .acc s.enterQuiet [DevState.quiet.code]
      | 1 => .acc (s.enter .charted).lanesMove.fitRails [DevState.charted.code]
      | _ => .acc (s.dormantEntry c.id) []) mb s

/-! ### SYS.RESET and SYS.CAUSE_CLEAR (R88, R89) -/

/-- SYS.RESET: DONE, then BOOT 10 µs after the acknowledgement. -/
def execSysReset (mb : Nat) (s : State) : Out := .next <| runCommand spec_SYS_RESET
  (fun c _ => badIf (decide (c.n 2 15 0 ≠ 0xB007)))
  (fun _ s => .ok { s with sys := { s.sys with resetAt := s.sys.resetAt <|> some (s.stamp + 10000) } }) mb s

/-- The pending reset falls due. -/
def execSysResetDelayExpiry (s : State) : Out :=
  match s.sys.resetAt with
  | some t => .next ((s.reach t).enterBoot true)
  | none => .next s

/-- SYS.CAUSE_CLEAR. -/
def execSysCauseClear (mb : Nat) (s : State) : Out := .next <| runCommand spec_SYS_CAUSE_CLEAR noFields
  (fun c s =>
    let s := if c.b 2 1 then s.wr R.TRIP_CAUSE 0 else s
    .ok (if c.b 2 0 then s.wr R.HALT_CAUSE 0 else s)) mb s

/-! ### Sessions (R78 to R80, R90, R91) -/

/-- A session identifier drawn from the TRNG: non-zero, 16 bits, not the previous one (R79). -/
def State.sessionId (s : State) : Nat × State :=
  let d := s.draw
  let v := (Config.trng d.1).toNat % 65535 + 1
  (if v = s.sys.prevSession then v % 65535 + 1 else v, d.2)

/-- The session closes. -/
def State.closeSession (s : State) : State :=
  match s.sys.session with
  | some e => { s with sys := { s.sys with session := none, prevSession := e.id } }
  | none => s

/-- SYS.EXPERT_OPEN. -/
def execSysExpertOpen (mb : Nat) (s : State) : Out := .next <| runCommand spec_SYS_EXPERT_OPEN
  (fun c _ => badIf (decide (3600 < c.n 2 15 0)))
  (fun c s =>
    if !s.policy 0 then .code .NOT_PERMITTED s
    else if s.sys.session.isSome then .code .REFUSED_IN_USE s
    else
      let r := s.sessionId
      let idle := if c.n 2 15 0 = 0 then 600 else c.n 2 15 0
      .ok { r.2 with sys := { r.2.sys with session := some ⟨r.1, idle, s.stamp⟩ } } [word r.1]) mb s

/-- SYS.EXPERT_CLOSE. -/
def execSysExpertClose (mb : Nat) (s : State) : Out := .next <| runCommand spec_SYS_EXPERT_CLOSE
  (fun c s => badIf (match s.sys.session with | some e => decide (e.id ≠ c.n 2 15 0) | none => true))
  (fun _ s => .ok s.closeSession) mb s

/-- The idle timeout of the open session expires (R80); it is recorded as an event. -/
def execSessionIdleTimeout (s : State) : Out :=
  match s.sys.session with
  | some e => s.duty 0 (.next ((s.reach e.ends).closeSession.report 0x71 0))
  | none => .next s

/-! ### Firmware update (R92) -/

/-- The slot a SLOT bit names. -/
def imageSlot (b : Bool) : Image := if b then .slotB else .slotA

/-- SYS.FW_UPDATE. -/
def execSysFwUpdate (mb : Nat) (s : State) : Out := .next <| runCommand spec_SYS_FW_UPDATE
  (fun c _ => badIf (decide (c.n 2 11 0 ≠ 0 ∨ (c.w 4).toNat = 0 ∨ 0x800000 < (c.w 4).toNat)))
  (fun c s =>
    if imageSlot (c.b 5 0) = s.sys.fwSlot then .code .REFUSED_IN_USE s
    else if s.sys.fwUpdate.isSome then .code .BUSY s
    else .acc { s with sys := { s.sys with fwUpdate := some c.id } } [c.n 5 1 0, (c.w 4).toNat]) mb s

/-- Where firmware images are staged: the Ubtor area of the store tier (Table 16-1). -/
def stagingBase : Nat := 0xC0000000

/-- The flash region of an image. -/
def Image.region : Image → FlashRegion
  | .slotA => .slotA
  | .slotB => .slotB
  | .benchmark => .benchmark

/-- Key of byte 0 of a flash region. -/
def State.flashBase (s : State) (r : FlashRegion) : Nat :=
  let p := r.place (s.sys.straps.bootSrc.testBit 0)
  p.1 * 2 ^ 32 + p.2

/-- Bytes written to a flash region. -/
def State.flashWrite (s : State) (r : FlashRegion) (bs : List Byte) : State :=
  { s with sys := { s.sys with flash := putBytes s.sys.flash (s.flashBase r) bs } }

/-- The image is staged in the store tier (R92 step 2). -/
def State.stageImage (s : State) (bs : List Byte) : State := { s with store := putBytes s.store stagingBase bs }

/-- The update in progress ends (R92): a fetched image of BYTES bytes is staged and, once its signature verifies, written to the slot;
PREFER takes effect once the slot is written (R104). A failed fetch leaves nothing staged. -/
def execFwUpdateComplete (o : FwSeen) (s : State) : Out :=
  match s.sys.fwUpdate with
  | none => .next s
  | some id =>
    let args := match s.openById id with | some c => c.args | none => []
    let arg := args.getD 0 0
    let ended := { s with sys := { s.sys with fwUpdate := none } }
    match o with
    | .fetchFailed => .next (ended.complete id .BUSY)
    | .fetched image =>
      if image.length ≠ args.getD 1 0 then .next s
      else
        let staged := ended.stageImage image
        if Config.fwVerifies image then
          let s := staged.flashWrite (imageSlot (arg % 2 == 1)).region image
          let s := if 2 ≤ arg then { s with sys := { s.sys with prefer := imageSlot (arg % 2 == 1) } } else s
          .next (s.complete id .DONE)
        else .next (staged.complete id .AUTH_FAILED)

/-! ### SYS.REG_READ and SYS.REG_WRITE (R93 to R95) -/

/-- The registers a message names: ADDR, then COUNT consecutive 4-byte addresses. -/
def Cmd.regAddrs (c : Cmd) : List Nat := (List.range (c.n 4 5 0)).map (fun i => (c.w 2).toNat + c.n 3 15 0 * 2 ^ 32 + 4 * i)

/-- The addresses with the values a message gives for them. -/
def Cmd.regWrites (c : Cmd) : List (Nat × Word) := c.regAddrs.zipIdx.map (fun p => (p.1, c.w (5 + p.2)))

/-- What Ubtor's register access to address `a` meets on its way (R95, R497, Table 15-4): `gated` also where no route leads there. -/
def State.ubtorMeets (s : State) (a : Nat) : AtDest :=
  match s.destNi a with
  | none => .deliver
  | some ni => if (masterNis .ubtor).any (fun m => s.reachable m ni) then s.atDest ni true else .gated

/-- The access is delivered now, or once the island behind the address has powered up. -/
def State.ubtorPasses (s : State) (a : Nat) : Bool :=
  match s.ubtorMeets a with
  | .gated => false
  | .dormant => false
  | _ => true

/-- An access that comes before an island's point of no return aborts its power-down (R476). -/
def State.ubtorAborts (s : State) (a : Nat) : State :=
  match s.ubtorMeets a, (s.destNi a).bind niIsland with
  | .abort, some i => s.islandRequest i
  | _, _ => s

/-- The island at which the first of the accesses that must wait does so. -/
def State.ubtorWaits (s : State) (as : List Nat) : Option Nat :=
  (as.find? (fun a => decide (s.ubtorMeets a = .hold))).bind (fun a => (s.destNi a).bind niIsland)

/-- Values and state after reading the addresses in order; none when one answers ERR. -/
def State.readAll (s : State) : List Nat → Option (List Word × State)
  | [] => some ([], s)
  | a :: as =>
    let t := s.ubtorAborts a
    let r := t.busRead .ubtor a
    if t.ubtorPasses a && r.1.ok then (r.2.readAll as).map (fun q => (r.1.data :: q.1, q.2)) else none

/-- State after writing the addresses in order; none when one answers ERR. -/
def State.writeAll (s : State) : List (Nat × Word) → Option State
  | [] => some s
  | (a, v) :: as =>
    let t := s.ubtorAborts a
    let r := t.busWrite .ubtor a v
    if t.ubtorPasses a && r.1.ok then r.2.writeAll as else none

/-- MBX, DAT, GAZ and MGD, which SYS.REG_WRITE may not write (R94). -/
def noRegWrite (a : Nat) : Bool := [0x0, 0x14, 0xB, 0xC].contains (a / 0x10000)

/-- SYS.REG_READ. -/
def execSysRegRead (mb : Nat) (s : State) : Out := .next <| runCommand spec_SYS_REG_READ
  (fun c s => badIf (decide (c.n 4 5 0 = 0 ∨ 61 < c.n 4 5 0) || !(c.regAddrs.all (fun a => decide (a % 4 = 0) && inBlock a)) ||
    (s.readAll c.regAddrs).isNone))
  (fun c s => match s.ubtorWaits c.regAddrs with
    | some i => .later (s.holdRequest i)
    | none => match s.readAll c.regAddrs with
      | some r => .ok r.2 r.1
      | none => .code .BAD_FIELD s) mb s

/-- SYS.REG_WRITE. -/
def execSysRegWrite (mb : Nat) (s : State) : Out := .next <| runCommand spec_SYS_REG_WRITE
  (fun c s =>
    let as := c.regAddrs
    let err := !(as.any noRegWrite) && (s.writeAll c.regWrites).isNone
    badOrLength (decide (c.n 4 5 0 = 0 ∨ 59 < c.n 4 5 0) || !(as.all (fun a => decide (a % 4 = 0) && inBlock a)) || err) c
      (5 + c.n 4 5 0))
  (fun c s =>
    if c.regAddrs.any noRegWrite then .code .NOT_PERMITTED s
    else match s.ubtorWaits c.regAddrs with
      | some i => .later (s.holdRequest i)
      | none => match s.writeAll c.regWrites with
        | some s => .ok s
        | none => .code .BAD_FIELD s) mb s

/-! ### Messages that name no command (R72) -/

/-- UNDEFINED_COMMAND: Ubtor reads a message that fails one of checks 1 to 3. -/
def execUndefinedCommand (mb : Nat) (s : State) : Out :=
  let c := s.msg mb
  if s.startable mb then
    match headerCheck commandCodes c with
    | some rc => .next (if 16 ≤ s.queued mb ∧ c.replyWanted = true then (s.acknowledge c .BUSY).takeId else s.answer c rc [])
    | none => .next s
  else .next s

/-! ### Lockstep pairs (R56, R607) -/

/-- The two cores of a pair that runs disagree: the pair resets. A message being executed keeps FULL. The effects that Ubtor itself makes
land together when it carries a command out, so of those either none or all are recorded; effects that pass later (`running`) go on, and
their command is answered once the pair has resumed (log entry 19). -/
def execLockstepDisagreement (pair : Nat) (executing : Bool) (s : State) : Out :=
  if 4 ≤ pair ∨ s.pairRuns pair = false ∨ s.serving = false then .next s
  else
    let cut := executing && commandMbs.any (fun m => decide (pairOf m = pair) && s.holds m)
    .next { s with mbx := { s.mbx with
      pairsInReset := s.mbx.pairsInReset ++ [pair],
      pairsCut := if cut then s.mbx.pairsCut ++ [pair] else s.mbx.pairsCut } }

/-- The pair has resumed: it reports the disagreement, with the KEEP event of case 8 when a command was cut (R597, R607). -/
def execLockstepPairResume (pair : Nat) (s : State) : Out :=
  if s.mbx.pairsInReset.contains pair then
    let cut := s.mbx.pairsCut.contains pair
    let s := { s with mbx := { s.mbx with
      pairsInReset := s.mbx.pairsInReset.filter (· ≠ pair), pairsCut := s.mbx.pairsCut.filter (· ≠ pair) } }
    .next ((s.pairResumes pair).report 0x01 pair [] (if cut then [(8, 5, 6)] else []))
  else .next s

end Sys2Proof.Machine
end

