-- ==== Sys2Proof/Machine/TileArith.lean ====
section
/-! DEFINITION. The arithmetic rows of Table 4-4: multiply-accumulate, butterflies, lane arithmetic, compare and select,
conversions and binary32. Each row is unit `u` of tile `t` issuing that opcode in the present cycle. -/

namespace Sys2Proof.Machine

/-- Write the destination register after `lat` cycles. -/
def OpCtx.toD (e : OpCtx) (lat : Nat) (v : Word) (sat fpinv : Bool) : OpEff :=
  { OpEff.of [(lat, .reg e.w.dst v true)] sat fpinv with names := [] }

/-- Banks named by operands a and b. -/
def OpCtx.ab (e : OpCtx) : List Nat := codeBanks e.w.a ++ codeBanks e.w.b

/-- ± a product, by the NEG bit. -/
def negIf (b : Bool) (x : Int) : Int := if b then -x else x

/-- CMAC (Table 4-4): A ← A ± a × b, complex. -/
def effCmac (e : OpCtx) : OpEff :=
  let b := if e.w.m 1 then cConj (cOf e.b) else cOf e.b
  let v := cMul (cOf e.a) b
  { OpEff.of [(3, .acc (e.w.dst % 4) (negIf (e.w.m 0) v.1) (negIf (e.w.m 0) v.2) (e.w.m 2))] with names := e.ab }

def execCmac (t u : Nat) (s : State) : Host.Outcome State Fault Refusal := .next (s.issueEff t u 0x01 effCmac)

/-- CMUL: d ← a × b narrowed per component (R122, R131). -/
def effCmul (e : OpCtx) : OpEff :=
  let b := if e.w.m 1 then cConj (cOf e.b) else cOf e.b
  let r := cNarrow e.w.rnd e.w.shf (cMul (cOf e.a) b)
  { e.toD 3 r.1 r.2 false with names := e.ab }

def execCmul (t u : Nat) (s : State) : Host.Outcome State Fault Refusal := .next (s.issueEff t u 0x02 effCmul)

/-- RMAC: AI ← AI ± a₀b₀; AQ ← AQ ± a₁b₁. -/
def effRmac (e : OpCtx) : OpEff :=
  let f := fun i => negIf (e.w.m 0) (lane 16 e.a i * lane 16 e.b i)
  { OpEff.of [(3, .acc (e.w.dst % 4) (f 0) (f 1) (e.w.m 2))] with names := e.ab }

def execRmac (t u : Nat) (s : State) : Host.Outcome State Fault Refusal := .next (s.issueEff t u 0x03 effRmac)

/-- QMAC: AI ← AI ± (a₀b₀ + a₁b₁); AQ ← AQ ± (a₂b₂ + a₃b₃). -/
def effQmac (e : OpCtx) : OpEff :=
  let f := fun i j => negIf (e.w.m 0) (lane 8 e.a i * lane 8 e.b i + lane 8 e.a j * lane 8 e.b j)
  { OpEff.of [(3, .acc (e.w.dst % 4) (f 0 1) (f 2 3) (e.w.m 2))] with names := e.ab }

def execQmac (t u : Nat) (s : State) : Host.Outcome State Fault Refusal := .next (s.issueEff t u 0x04 effQmac)

/-- ACCRD: d ← A(SRCA[1:0]) narrowed per component; CLR clears it after the read (R131). -/
def effAccrd (e : OpCtx) : OpEff :=
  let a := e.w.a % 4
  let r := cNarrow e.w.rnd e.w.shf (e.acc a)
  { e.toD 2 r.1 r.2 false with names := [a], clear := if e.w.m 2 then some a else none }

def execAccrd (t u : Nat) (s : State) : Host.Outcome State Fault Refusal := .next (s.issueEff t u 0x05 effAccrd)

/-- W(k), conjugated with INV (R132). -/
def OpCtx.tw (e : OpCtx) (k : Nat) : Cpx := if e.w.m 3 then cConj (twiddle k) else twiddle k

/-- BFLY2 (R132): d ← narrow(2¹⁵x₀ + x₁W(k)), d + 1 ← narrow(2¹⁵x₀ − x₁W(k)). -/
def effBfly2 (e : OpCtx) : OpEff :=
  let x0 := cScale 32768 (cOf e.a)
  let t := cMul (cOf e.b) (e.tw (e.c.toNat % 4096))
  let r := cNarrow e.w.rnd e.w.shf (cAdd x0 t)
  let q := cNarrow e.w.rnd e.w.shf (cSub x0 t)
  { OpEff.of [(3, .reg e.w.dst r.1 true), (3, .reg (e.w.dst + 1) q.1 false)] (r.2 || q.2) with
    names := e.ab ++ codeBanks e.w.c }

def execBfly2 (t u : Nat) (s : State) : Host.Outcome State Fault Refusal := .next (s.issueEff t u 0x06 effBfly2)

/-- BFLY4 (R132). -/
def effBfly4 (e : OpCtx) : OpEff :=
  let k := e.c.toNat % 4096
  let y0 := cScale 32768 (cOf (e.a 0))
  let y1 := cMul (cOf (e.a 1)) (e.tw k)
  let y2 := cMul (cOf (e.a 2)) (e.tw (2 * k))
  let y3 := cMul (cOf (e.a 3)) (e.tw (3 * k))
  let j := fun (z : Cpx) => if e.w.m 3 then cScale (-1) (cJ z) else cJ z
  let rs := [cAdd (cAdd y0 y1) (cAdd y2 y3), cAdd (cSub (cSub y0 (j y1)) y2) (j y3),
             cSub (cAdd (cSub y0 y1) y2) y3, cSub (cSub (cAdd y0 (j y1)) y2) (j y3)].map (cNarrow e.w.rnd e.w.shf)
  { OpEff.of (rs.zipIdx.map (fun p => (6, .reg (e.w.dst + p.2) p.1.1 (p.2 == 0)))) (rs.any (·.2)) with
    names := groupBanks e.w.a 4 ++ codeBanks e.w.c }

def execBfly4 (t u : Nat) (s : State) : Host.Outcome State Fault Refusal := .next (s.issueEff t u 0x07 effBfly4)

/-- An operation lane by lane on a and b. -/
def OpCtx.lanes (e : OpCtx) (f : Int → Int → Int) : OpEff :=
  let r := perLane e.w.ty f e.a e.b
  { e.toD 1 r.1 r.2 false with names := e.ab }

/-- ADD: d ← a + b per lane, saturating. -/
def effAdd (e : OpCtx) : OpEff := e.lanes (· + ·)

def execAdd (t u : Nat) (s : State) : Host.Outcome State Fault Refusal := .next (s.issueEff t u 0x08 effAdd)

/-- SUB: d ← a − b per lane, saturating. -/
def effSub (e : OpCtx) : OpEff := e.lanes (· - ·)

def execSub (t u : Nat) (s : State) : Host.Outcome State Fault Refusal := .next (s.issueEff t u 0x09 effSub)

/-- SRS: d ← a shifted right SHF per lane, rounded by RND. -/
def effSrs (e : OpCtx) : OpEff :=
  let r := perLane e.w.ty (fun x _ => shiftRound e.w.rnd x e.w.shf) e.a 0
  { e.toD 1 r.1 r.2 false with names := codeBanks e.w.a }

def execSrs (t u : Nat) (s : State) : Host.Outcome State Fault Refusal := .next (s.issueEff t u 0x0A effSrs)

/-- SLS: d ← a shifted left SHF per lane, saturating. -/
def effSls (e : OpCtx) : OpEff :=
  let r := perLane e.w.ty (fun x _ => x * 2 ^ e.w.shf) e.a 0
  { e.toD 1 r.1 r.2 false with names := codeBanks e.w.a }

def execSls (t u : Nat) (s : State) : Host.Outcome State Fault Refusal := .next (s.issueEff t u 0x0B effSls)

/-- A condition of two words by data type (R134): |a|² for C16, lane 0 for R16 and R8, the whole word for I32 on U0 to U5
and as F32 on U6 and U7 (`fp`). -/
def cmpWords (ty cond : Nat) (fp : Bool) (a b : Word) : Bool :=
  match ty with
  | 0 =>
    let n := fun (z : Cpx) => z.1 * z.1 + z.2 * z.2
    condHolds cond (n (cOf a)) (n (cOf b))
  | 1 => condHolds cond (lane 16 a 0) (lane 16 b 0)
  | 2 => condHolds cond (lane 8 a 0) (lane 8 b 0)
  | _ => if fp then f32Cond cond a b else condHolds cond (lane 32 a 0) (lane 32 b 0)

/-- An F32 comparison is an invalid operation (R136): a signalling NaN, or any NaN under LT, LE, GT and GE, the signalling predicates of
IEEE 754 (DEDUCED, log entry 64). -/
def f32CmpInvalid (cond : Nat) (a b : Word) : Bool :=
  isSNaN a || isSNaN b || (decide (2 ≤ cond) && (decide (f32Of a = .nan) || decide (f32Of b = .nan)))

/-- CMP: p(DST[2:0]) ← a COND b; COND stands in the AG field. -/
def effCmp (e : OpCtx) : OpEff :=
  let fp := decide (6 ≤ e.u)
  { OpEff.of [(1, .pred (e.w.dst % 8) (cmpWords e.w.ty e.w.ag fp e.a e.b))] false
      (fp && decide (e.w.ty = 3) && f32CmpInvalid e.w.ag e.a e.b) with names := e.ab }

def execCmp (t u : Nat) (s : State) : Host.Outcome State Fault Refusal := .next (s.issueEff t u 0x0C effCmp)

/-- SEL: d ← p(SRCC[2:0]) ? a : b. -/
def effSel (e : OpCtx) : OpEff :=
  { e.toD 1 (if e.x.pred e.u (e.w.c % 8) then e.a else e.b) false false with names := e.ab }

def execSel (t u : Nat) (s : State) : Host.Outcome State Fault Refusal := .next (s.issueEff t u 0x0D effSel)

/-- CONJ: d ← (a.I, −a.Q), saturating. -/
def effConj (e : OpCtx) : OpEff :=
  let z := cOf e.a
  let q := narrow 16 (-z.2)
  { e.toD 1 (pack16 z.1 q.1) q.2 false with names := codeBanks e.w.a }

def execConj (t u : Nat) (s : State) : Host.Outcome State Fault Refusal := .next (s.issueEff t u 0x0E effConj)

/-- NORM (R134): the smallest count of redundant sign bits over the lanes of a, or over the components of an accumulator.
DESIGN CHOICE (log entry 64): the rule gives the count over lanes for C16 only; R16 and R8 take the smallest over their lanes too. -/
def effNorm (e : OpCtx) : OpEff :=
  if e.w.m 5 then
    let z := e.acc (e.w.a % 4)
    { e.toD 1 (word (min (redundantSigns 40 z.1) (redundantSigns 40 z.2))) false false with names := [e.w.a % 4] }
  else
    let w := laneWidth e.w.ty
    let n := (List.range (32 / w)).foldl (fun m i => min m (redundantSigns w (lane w e.a i))) (w - 1)
    { e.toD 1 (word n) false false with names := codeBanks e.w.a }

def execNorm (t u : Nat) (s : State) : Host.Outcome State Fault Refusal := .next (s.issueEff t u 0x0F effNorm)

/-- LUT16 (R135): the byte address of the table entry, V with slope D at 64 × IMM[10:0] + 4i. -/
def OpCtx.lutAddr (e : OpCtx) : Nat :=
  (64 * (e.w.imm % 2048) + 4 * ((lane 16 e.a 0 + 32768).toNat / 2 ^ (16 - e.w.shf))) % 131072

/-- LUT16 (R135): the entry `v` interpolated. -/
def effLut16 (v : Word) (e : OpCtx) : OpEff :=
  let n := e.w.shf
  let f := (lane 16 e.a 0 + 32768).toNat % 2 ^ (16 - n)
  let r := narrow 16 (lane 16 v 0 + shiftRound e.w.rnd (lane 16 v 1 * (f : Int)) (16 - n))
  { e.toD 4 (word (unsgn 16 r.1)) r.2 false with names := codeBanks e.w.a, banks := [e.lutAddr / 8 % 16] }

/-- LUT16 by a unit of tile `t`, with what the entry's ECC shows (R142): an uncorrectable entry reads as an open value. -/
def execLut16 (t : Nat) (u : LutTurn) (s : State) : Host.Outcome State Fault Refusal :=
  .next <| s.issue t u.unit 0x10 (fun e s =>
    let (k, s) := if u.ecc = 2 then s.draw else (0, s)
    let v := if u.ecc = 2 then (Config.freeWord k).setWidth 32 else e.s.tmem32 t e.lutAddr
    (s.applyEff t u.unit (effLut16 v e)).tmemEcc t e.lutAddr u.ecc)

/-- MOVI: one half of d ← IMM, the other kept, as it stood at issue (DESIGN CHOICE, log entry 64: or at landing, which the rule leaves
open). -/
def effMovi (e : OpCtx) : OpEff :=
  let old := e.reg e.w.dst
  e.toD 1 (if e.w.m 5 then (Fld.mk 31 16).put old e.w.imm else (Fld.mk 15 0).put old e.w.imm) false false

def execMovi (t u : Nat) (s : State) : Host.Outcome State Fault Refusal := .next (s.issueEff t u 0x15 effMovi)

/-- TWR: d ← W(a[11:0]). -/
def effTwr (e : OpCtx) : OpEff :=
  let z := e.tw (e.a.toNat % 4096)
  { e.toD 2 (pack16 z.1 z.2) false false with names := codeBanks e.w.a }

def execTwr (t u : Nat) (s : State) : Host.Outcome State Fault Refusal := .next (s.issueEff t u 0x16 effTwr)

/-- A binary32 operation on a and b: FPINV on an invalid operation (R136). -/
def OpCtx.fp (e : OpCtx) (r : Word × Bool) : OpEff :=
  { e.toD 4 r.1 false (r.2 || isSNaN e.a || isSNaN e.b) with names := e.ab }

/-- FADD: d ← a + b. -/
def effFadd (e : OpCtx) : OpEff := e.fp (f32Add (f32Of e.a) (f32Of e.b))

def execFadd (t u : Nat) (s : State) : Host.Outcome State Fault Refusal := .next (s.issueEff t u 0x20 effFadd)

/-- FSUB: d ← a − b. -/
def effFsub (e : OpCtx) : OpEff := e.fp (f32Add (f32Of e.a) (f32Of e.b).neg)

def execFsub (t u : Nat) (s : State) : Host.Outcome State Fault Refusal := .next (s.issueEff t u 0x21 effFsub)

/-- FMUL: d ← a × b. -/
def effFmul (e : OpCtx) : OpEff := e.fp (f32Mul (f32Of e.a) (f32Of e.b))

def execFmul (t u : Nat) (s : State) : Host.Outcome State Fault Refusal := .next (s.issueEff t u 0x22 effFmul)

/-- FRSQ (R137): the seed of 1/√a, or one step with the estimate b. -/
def effFrsq (e : OpCtx) : OpEff :=
  let r := frsq (e.w.m 5) e.a e.b
  { e.toD 4 r.1 false r.2 with names := e.ab }

def execFrsq (t u : Nat) (s : State) : Host.Outcome State Fault Refusal := .next (s.issueEff t u 0x23 effFrsq)

/-- FCVT (R137): a 16-bit lane of a to F32, or F32 to a 16-bit lane of d with the other half kept, as it stood at issue
(DESIGN CHOICE, log entry 64: or at landing, which the rule leaves open). -/
def effFcvt (e : OpCtx) : OpEff :=
  if e.w.m 0 then
    let r := f32ToInt e.a e.w.shf
    let old := e.reg e.w.dst
    let v := if e.w.m 5 then (Fld.mk 31 16).put old (unsgn 16 r.1) else (Fld.mk 15 0).put old (unsgn 16 r.1)
    { e.toD 2 v r.2.1 r.2.2 with names := codeBanks e.w.a }
  else
    { e.toD 2 (f32OfInt (lane 16 e.a (if e.w.m 5 then 1 else 0)) e.w.shf) false false with names := codeBanks e.w.a }

def execFcvt (t u : Nat) (s : State) : Host.Outcome State Fault Refusal := .next (s.issueEff t u 0x24 effFcvt)

/-- NOP: no effect; the unit has issued. -/
def execNop (t u : Nat) (s : State) : Host.Outcome State Fault Refusal :=
  .next (s.issueEff t u 0x00 (fun _ => OpEff.of []))

end Sys2Proof.Machine
end

