-- ==== Sys2Proof/Machine/Dispatch.lean ====
section
/-! DEFINITION. The dispatch: one arm per row of the table, each a direct call of that row's meaning. -/

namespace Sys2Proof.Machine

def exec (i : Instr) (s : State) : Host.Outcome State Fault Refusal :=
  match i with
  | .supplyValid r => Sys2Proof.Machine.execSupplyValid r s
  | .powerOnResetRelease bootSrc xtalWait cascadeMaster ioPull => Sys2Proof.Machine.execPowerOnResetRelease bootSrc xtalWait cascadeMaster ioPull s
  | .supplyLoss r => Sys2Proof.Machine.execSupplyLoss r s
  | .vddAonLost => Sys2Proof.Machine.execVddAonLost s
  | .perstAssert => Sys2Proof.Machine.execPerstAssert s
  | .perstRelease => Sys2Proof.Machine.execPerstRelease s
  | .xtalStable => Sys2Proof.Machine.execXtalStable s
  | .bootImageTried o => Sys2Proof.Machine.execBootImageTried o s
  | .pcieLinkTrained speed width => Sys2Proof.Machine.execPcieLinkTrained speed width s
  | .mbxWordWrite m mb k v => Sys2Proof.Machine.execMbxWordWrite m mb k v s
  | .mbxPost m mb v => Sys2Proof.Machine.execMbxPost m mb v s
  | .fabricClaimTimeout mb => Sys2Proof.Machine.execFabricClaimTimeout mb s
  | .mbxAckcodeWrite m mb v => Sys2Proof.Machine.execMbxAckcodeWrite m mb v s
  | .mbxAckClear m v => Sys2Proof.Machine.execMbxAckClear m v s
  | .lockstepDisagreement pair executing => Sys2Proof.Machine.execLockstepDisagreement pair executing s
  | .lockstepPairResume pair => Sys2Proof.Machine.execLockstepPairResume pair s
  | .sessionIdleTimeout => Sys2Proof.Machine.execSessionIdleTimeout s
  | .devStampLoRead m => Sys2Proof.Machine.execDevStampLoRead m s
  | .registerWrite m a size v => Sys2Proof.Machine.execRegisterWrite m a size v s
  | .sysStatus mb => Sys2Proof.Machine.execSysStatus mb s
  | .sysEcho mb => Sys2Proof.Machine.execSysEcho mb s
  | .sysState mb => Sys2Proof.Machine.execSysState mb s
  | .sysReset mb => Sys2Proof.Machine.execSysReset mb s
  | .sysResetDelayExpiry => Sys2Proof.Machine.execSysResetDelayExpiry s
  | .sysCauseClear mb => Sys2Proof.Machine.execSysCauseClear mb s
  | .sysExpertOpen mb => Sys2Proof.Machine.execSysExpertOpen mb s
  | .sysExpertClose mb => Sys2Proof.Machine.execSysExpertClose mb s
  | .sysFwUpdate mb => Sys2Proof.Machine.execSysFwUpdate mb s
  | .fwUpdateComplete o => Sys2Proof.Machine.execFwUpdateComplete o s
  | .sysRegRead mb => Sys2Proof.Machine.execSysRegRead mb s
  | .sysRegWrite mb => Sys2Proof.Machine.execSysRegWrite mb s
  | .surveyLoad mb => Sys2Proof.Machine.execSurveyLoad mb s
  | .surveyCommit mb => Sys2Proof.Machine.execSurveyCommit mb s
  | .surveyCommitComplete h => Sys2Proof.Machine.execSurveyCommitComplete h s
  | .surveyAbort mb => Sys2Proof.Machine.execSurveyAbort mb s
  | .surveyStatus mb => Sys2Proof.Machine.execSurveyStatus mb s
  | .surveyRead mb => Sys2Proof.Machine.execSurveyRead mb s
  | .surveyMismatch mb => Sys2Proof.Machine.execSurveyMismatch mb s
  | .laneUp e => Sys2Proof.Machine.execLaneUp e s
  | .laneTrainingAttemptTimeout n wrong => Sys2Proof.Machine.execLaneTrainingAttemptTimeout n wrong s
  | .laneRetryTimer n => Sys2Proof.Machine.execLaneRetryTimer n s
  | .laneLos n => Sys2Proof.Machine.execLaneLos n s
  | .cdrUnlock n => Sys2Proof.Machine.execCdrUnlock n s
  | .pllUnlock n refOk => Sys2Proof.Machine.execPllUnlock n refOk s
  | .refClockOutOfRange k => Sys2Proof.Machine.execRefClockOutOfRange k s
  | .adaptationStep n a => Sys2Proof.Machine.execAdaptationStep n a s
  | .adaptLimit n => Sys2Proof.Machine.execAdaptLimit n s
  | .lowPowerEntryComplete n => Sys2Proof.Machine.execLowPowerEntryComplete n s
  | .lowPowerExitComplete n => Sys2Proof.Machine.execLowPowerExitComplete n s
  | .checkerLockLoss n errors => Sys2Proof.Machine.execCheckerLockLoss n errors s
  | .cmac t u => Sys2Proof.Machine.execCmac t u s
  | .cmul t u => Sys2Proof.Machine.execCmul t u s
  | .rmac t u => Sys2Proof.Machine.execRmac t u s
  | .qmac t u => Sys2Proof.Machine.execQmac t u s
  | .accrd t u => Sys2Proof.Machine.execAccrd t u s
  | .bfly2 t u => Sys2Proof.Machine.execBfly2 t u s
  | .bfly4 t u => Sys2Proof.Machine.execBfly4 t u s
  | .add t u => Sys2Proof.Machine.execAdd t u s
  | .sub t u => Sys2Proof.Machine.execSub t u s
  | .srs t u => Sys2Proof.Machine.execSrs t u s
  | .sls t u => Sys2Proof.Machine.execSls t u s
  | .cmp t u => Sys2Proof.Machine.execCmp t u s
  | .sel t u => Sys2Proof.Machine.execSel t u s
  | .conj t u => Sys2Proof.Machine.execConj t u s
  | .norm t u => Sys2Proof.Machine.execNorm t u s
  | .lut16 t u => Sys2Proof.Machine.execLut16 t u s
  | .ld t u ecc => Sys2Proof.Machine.execLd t u ecc s
  | .st t u => Sys2Proof.Machine.execSt t u s
  | .sin t u => Sys2Proof.Machine.execSin t u s
  | .sout t u => Sys2Proof.Machine.execSout t u s
  | .movi t u => Sys2Proof.Machine.execMovi t u s
  | .twr t u => Sys2Proof.Machine.execTwr t u s
  | .fadd t u => Sys2Proof.Machine.execFadd t u s
  | .fsub t u => Sys2Proof.Machine.execFsub t u s
  | .fmul t u => Sys2Proof.Machine.execFmul t u s
  | .frsq t u => Sys2Proof.Machine.execFrsq t u s
  | .fcvt t u => Sys2Proof.Machine.execFcvt t u s
  | .outsideAccessWaitExpiry t addr store ecc => Sys2Proof.Machine.execOutsideAccessWaitExpiry t addr store ecc s
  | .tokenDrainEnd t => Sys2Proof.Machine.execTokenDrainEnd t s
  | .patternHardSwitchEdge w => Sys2Proof.Machine.execPatternHardSwitchEdge w s
  | .wordLinkElement t port => Sys2Proof.Machine.execWordLinkElement t port s
  | .wordLinkCredit t port h => Sys2Proof.Machine.execWordLinkCredit t port h s
  | .gateChannelElement w g => Sys2Proof.Machine.execGateChannelElement w g s
  | .shiftCopyEnd w => Sys2Proof.Machine.execShiftCopyEnd w s
  | .walSwitchGo w tiles pattern => Sys2Proof.Machine.execWalSwitchGo w tiles pattern s
  | .walCtrlLock w => Sys2Proof.Machine.execWalCtrlLock w s
  | .walStatus mb => Sys2Proof.Machine.execWalStatus mb s
  | .walSwitch mb => Sys2Proof.Machine.execWalSwitch mb s
  | .walBind mb => Sys2Proof.Machine.execWalBind mb s
  | .walStickyClear mb => Sys2Proof.Machine.execWalStickyClear mb s
  | .walBankmap mb => Sys2Proof.Machine.execWalBankmap mb s
  | .walFreeze mb => Sys2Proof.Machine.execWalFreeze mb s
  | .walShift mb => Sys2Proof.Machine.execWalShift mb s
  | .walCounters mb => Sys2Proof.Machine.execWalCounters mb s
  | .sheetSwitchEdge n pins high => Sys2Proof.Machine.execSheetSwitchEdge n pins high s
  | .groupSwitch => Sys2Proof.Machine.execGroupSwitch s
  | .resetNetRelease n net => Sys2Proof.Machine.execResetNetRelease n net s
  | .riserTxElement n k h e => Sys2Proof.Machine.execRiserTxElement n k h e s
  | .riserRxTake n k h => Sys2Proof.Machine.execRiserRxTake n k h s
  | .riserCreditPulse n k h => Sys2Proof.Machine.execRiserCreditPulse n k h s
  | .bramAccess n block a b upsA upsB bFirst => Sys2Proof.Machine.execBramAccess n block a b upsA upsB bFirst s
  | .sheetClockRestart n => Sys2Proof.Machine.execSheetClockRestart n s
  | .captureInstant lead edge => Sys2Proof.Machine.execCaptureInstant lead edge s
  | .captureEdgeNoneTimeout lead => Sys2Proof.Machine.execCaptureEdgeNoneTimeout lead s
  | .capTrigEdge n => Sys2Proof.Machine.execCapTrigEdge n s
  | .captureCopyComplete lead => Sys2Proof.Machine.execCaptureCopyComplete lead s
  | .shtCtrlLock n => Sys2Proof.Machine.execShtCtrlLock n s
  | .shtStampLoRead m n => Sys2Proof.Machine.execShtStampLoRead m n s
  | .shtStatus mb => Sys2Proof.Machine.execShtStatus mb s
  | .shtStickyClear mb => Sys2Proof.Machine.execShtStickyClear mb s
  | .shtReset mb => Sys2Proof.Machine.execShtReset mb s
  | .shtResetPulseEnd net => Sys2Proof.Machine.execShtResetPulseEnd net s
  | .shtClock mb => Sys2Proof.Machine.execShtClock mb s
  | .shtFreeze mb => Sys2Proof.Machine.execShtFreeze mb s
  | .shtCounters mb => Sys2Proof.Machine.execShtCounters mb s
  | .shtSwitch mb => Sys2Proof.Machine.execShtSwitch mb s
  | .shtRisers mb => Sys2Proof.Machine.execShtRisers mb s
  | .capStatus mb => Sys2Proof.Machine.execCapStatus mb s
  | .capTake mb => Sys2Proof.Machine.execCapTake mb s
  | .capTakeX mb => Sys2Proof.Machine.execCapTakeX mb s
  | .capRead mb => Sys2Proof.Machine.execCapRead mb s
  | .capReadComplete => Sys2Proof.Machine.execCapReadComplete s
  | .capRelease mb => Sys2Proof.Machine.execCapRelease mb s
  | .riserOrientationChange n k => Sys2Proof.Machine.execRiserOrientationChange n k s
  | .riserConflictTimeout n k => Sys2Proof.Machine.execRiserConflictTimeout n k s
  | .chartPortBeat n beat => Sys2Proof.Machine.execChartPortBeat n beat s
  | .chartPortAbort n => Sys2Proof.Machine.execChartPortAbort n s
  | .chartPortTimeout n => Sys2Proof.Machine.execChartPortTimeout n s
  | .stagingDataArrival c bs => Sys2Proof.Machine.execStagingDataArrival c bs s
  | .stagingComplete c err => Sys2Proof.Machine.execStagingComplete c err s
  | .verificationComplete c => Sys2Proof.Machine.execVerificationComplete c s
  | .commitStart => Sys2Proof.Machine.execCommitStart s
  | .commitComplete => Sys2Proof.Machine.execCommitComplete s
  | .ldrCtrlLock m v => Sys2Proof.Machine.execLdrCtrlLock m v s
  | .ldrStatus mb => Sys2Proof.Machine.execLdrStatus mb s
  | .ldrLoad mb => Sys2Proof.Machine.execLdrLoad mb s
  | .ldrCommit mb => Sys2Proof.Machine.execLdrCommit mb s
  | .ldrAbort mb => Sys2Proof.Machine.execLdrAbort mb s
  | .ldrCaston mb => Sys2Proof.Machine.execLdrCaston mb s
  | .ldrGrant mb => Sys2Proof.Machine.execLdrGrant mb s
  | .ldrLock mb => Sys2Proof.Machine.execLdrLock mb s
  | .ldrCounters mb => Sys2Proof.Machine.execLdrCounters mb s
  | .streamElementArrival n pos e => Sys2Proof.Machine.execStreamElementArrival n pos e s
  | .streamSeamArrival n => Sys2Proof.Machine.execStreamSeamArrival n s
  | .latestUsableTime n => Sys2Proof.Machine.execLatestUsableTime n s
  | .streamDelivery n ue => Sys2Proof.Machine.execStreamDelivery n ue s
  | .graticuleStreamFlit n seq load => Sys2Proof.Machine.execGraticuleStreamFlit n seq load s
  | .bindoffFinalSeam n => Sys2Proof.Machine.execBindoffFinalSeam n s
  | .bindoffSeamTaken n => Sys2Proof.Machine.execBindoffSeamTaken n s
  | .bindoffTimeout n => Sys2Proof.Machine.execBindoffTimeout n s
  | .strCfgOpen m v => Sys2Proof.Machine.execStrCfgOpen m v s
  | .strStatus mb => Sys2Proof.Machine.execStrStatus mb s
  | .strOpen mb => Sys2Proof.Machine.execStrOpen mb s
  | .strSeam mb => Sys2Proof.Machine.execStrSeam mb s
  | .strBindoff mb => Sys2Proof.Machine.execStrBindoff mb s
  | .strOpenX mb => Sys2Proof.Machine.execStrOpenX mb s
  | .strCounters mb => Sys2Proof.Machine.execStrCounters mb s
  | .airEntryDispatch => Sys2Proof.Machine.execAirEntryDispatch s
  | .airActionNop => Sys2Proof.Machine.execAirActionNop s
  | .airActionPlane => Sys2Proof.Machine.execAirActionPlane s
  | .airActionPattern => Sys2Proof.Machine.execAirActionPattern s
  | .airActionRelease => Sys2Proof.Machine.execAirActionRelease s
  | .airActionMute => Sys2Proof.Machine.execAirActionMute s
  | .airActionPin => Sys2Proof.Machine.execAirActionPin s
  | .airActionSample => Sys2Proof.Machine.execAirActionSample s
  | .airActionCascade => Sys2Proof.Machine.execAirActionCascade s
  | .airBcastAct => Sys2Proof.Machine.execAirBcastAct s
  | .airScheduleStart => Sys2Proof.Machine.execAirScheduleStart s
  | .airSwapBoundary => Sys2Proof.Machine.execAirSwapBoundary s
  | .airStop => Sys2Proof.Machine.execAirStop s
  | .airTimeLoRead m => Sys2Proof.Machine.execAirTimeLoRead m s
  | .airSwapLoRead m => Sys2Proof.Machine.execAirSwapLoRead m s
  | .airStatus mb => Sys2Proof.Machine.execAirStatus mb s
  | .airPreset mb => Sys2Proof.Machine.execAirPreset mb s
  | .tableSealComplete => Sys2Proof.Machine.execTableSealComplete s
  | .airEnable mb => Sys2Proof.Machine.execAirEnable mb s
  | .airDisable mb => Sys2Proof.Machine.execAirDisable mb s
  | .airSwap mb => Sys2Proof.Machine.execAirSwap mb s
  | .airLoad mb => Sys2Proof.Machine.execAirLoad mb s
  | .airSeal mb => Sys2Proof.Machine.execAirSeal mb s
  | .airRead mb => Sys2Proof.Machine.execAirRead mb s
  | .airIdle mb => Sys2Proof.Machine.execAirIdle mb s
  | .airCounters mb => Sys2Proof.Machine.execAirCounters mb s
  | .airTapRead mb => Sys2Proof.Machine.execAirTapRead mb s
  | .tapReadComplete => Sys2Proof.Machine.execTapReadComplete s
  | .ethFrameReceived mac f => Sys2Proof.Machine.execEthFrameReceived mac f s
  | .ethAutonegComplete mac bit fec => Sys2Proof.Machine.execEthAutonegComplete mac bit fec s
  | .ethFrameTransmit mac ptp => Sys2Proof.Machine.execEthFrameTransmit mac ptp s
  | .txIqUnitFraming f => Sys2Proof.Machine.execTxIqUnitFraming f s
  | .sysrefEdge => Sys2Proof.Machine.execSysrefEdge s
  | .syncHeaderLock k obs => Sys2Proof.Machine.execSyncHeaderLock k obs s
  | .embLock k => Sys2Proof.Machine.execEmbLock k s
  | .elasticBufferRelease k => Sys2Proof.Machine.execElasticBufferRelease k s
  | .crc12Error n => Sys2Proof.Machine.execCrc12Error n s
  | .embLockLoss n => Sys2Proof.Machine.execEmbLockLoss n s
  | .jsdTxSampleDue k j g t => Sys2Proof.Machine.execJsdTxSampleDue k j g t s
  | .jsdRxSample k j g t raw => Sys2Proof.Machine.execJsdRxSample k j g t raw s
  | .fheStatus mb => Sys2Proof.Machine.execFheStatus mb s
  | .fheFlow mb => Sys2Proof.Machine.execFheFlow mb s
  | .fheCounters mb => Sys2Proof.Machine.execFheCounters mb s
  | .jsdStatus mb => Sys2Proof.Machine.execJsdStatus mb s
  | .jsdLink mb => Sys2Proof.Machine.execJsdLink mb s
  | .jsdSysref mb => Sys2Proof.Machine.execJsdSysref mb s
  | .jsdCounters mb => Sys2Proof.Machine.execJsdCounters mb s
  | .localSecondBoundary p => Sys2Proof.Machine.execLocalSecondBoundary p s
  | .ppsInputEdge => Sys2Proof.Machine.execPpsInputEdge s
  | .todMessage m => Sys2Proof.Machine.execTodMessage m s
  | .ptpMessage mac m => Sys2Proof.Machine.execPtpMessage mac m s
  | .esmcMessage mac ql => Sys2Proof.Machine.execEsmcMessage mac ql s
  | .oscTempRead r => Sys2Proof.Machine.execOscTempRead r s
  | .contourLearnTick y temp => Sys2Proof.Machine.execContourLearnTick y temp s
  | .ageingFit => Sys2Proof.Machine.execAgeingFit s
  | .modelStore => Sys2Proof.Machine.execModelStore s
  | .leapSecondApply => Sys2Proof.Machine.execLeapSecondApply s
  | .iroTrimGate mrefOk err => Sys2Proof.Machine.execIroTrimGate mrefOk err s
  | .merStatus mb => Sys2Proof.Machine.execMerStatus mb s
  | .merSelect mb => Sys2Proof.Machine.execMerSelect mb s
  | .merOutputs mb => Sys2Proof.Machine.execMerOutputs mb s
  | .merModel mb => Sys2Proof.Machine.execMerModel mb s
  | .merLeap mb => Sys2Proof.Machine.execMerLeap mb s
  | .merBudget mb => Sys2Proof.Machine.execMerBudget mb s
  | .merModelClear mb => Sys2Proof.Machine.execMerModelClear mb s
  | .merCounters mb => Sys2Proof.Machine.execMerCounters mb s
  | .xtalGate mref iro => Sys2Proof.Machine.execXtalGate mref iro s
  | .xtalEdgeTimeout => Sys2Proof.Machine.execXtalEdgeTimeout s
  | .generatorReferenceLoss isl => Sys2Proof.Machine.execGeneratorReferenceLoss isl s
  | .generatorLock isl => Sys2Proof.Machine.execGeneratorLock isl s
  | .ckiGateWrite m a v => Sys2Proof.Machine.execCkiGateWrite m a v s
  | .sequencerRequestServe => Sys2Proof.Machine.execSequencerRequestServe s
  | .avsAck rail elapsed => Sys2Proof.Machine.execAvsAck rail elapsed s
  | .avsAckTimeout => Sys2Proof.Machine.execAvsAckTimeout s
  | .frequencyChangeRestart => Sys2Proof.Machine.execFrequencyChangeRestart s
  | .islandPowerSwitchOpen isl => Sys2Proof.Machine.execIslandPowerSwitchOpen isl s
  | .islandOff isl => Sys2Proof.Machine.execIslandOff isl s
  | .islandPowerUpComplete isl => Sys2Proof.Machine.execIslandPowerUpComplete isl s
  | .dormantPointOfNoReturn => Sys2Proof.Machine.execDormantPointOfNoReturn s
  | .dormantEntryComplete => Sys2Proof.Machine.execDormantEntryComplete s
  | .wakeEvent src => Sys2Proof.Machine.execWakeEvent src s
  | .dormantExitPowerUp => Sys2Proof.Machine.execDormantExitPowerUp s
  | .dormantExitComplete => Sys2Proof.Machine.execDormantExitComplete s
  | .clkStatus mb => Sys2Proof.Machine.execClkStatus mb s
  | .clkGate mb => Sys2Proof.Machine.execClkGate mb s
  | .clkFreq mb => Sys2Proof.Machine.execClkFreq mb s
  | .pwrStatus mb => Sys2Proof.Machine.execPwrStatus mb s
  | .pwrOp mb => Sys2Proof.Machine.execPwrOp mb s
  | .pwrIsland mb => Sys2Proof.Machine.execPwrIsland mb s
  | .pwrWake mb => Sys2Proof.Machine.execPwrWake mb s
  | .pwrAvsRead mb r => Sys2Proof.Machine.execPwrAvsRead mb r s
  | .packetInjection ni m write addr len key data => Sys2Proof.Machine.execPacketInjection ni m write addr len key data s
  | .graticuleFlitHop r port => Sys2Proof.Machine.execGraticuleFlitHop r port s
  | .requestAtDestination ni ecc x => Sys2Proof.Machine.execRequestAtDestination ni ecc x s
  | .responseAtSource ni => Sys2Proof.Machine.execResponseAtSource ni s
  | .routerSelfGate isl => Sys2Proof.Machine.execRouterSelfGate isl s
  | .linkCrcError l d => Sys2Proof.Machine.execLinkCrcError l d s
  | .routeChangeEffect ni dst => Sys2Proof.Machine.execRouteChangeEffect ni dst s
  | .linkTestEnd pass => Sys2Proof.Machine.execLinkTestEnd pass s
  | .grtStatus mb => Sys2Proof.Machine.execGrtStatus mb s
  | .grtLinkTest mb => Sys2Proof.Machine.execGrtLinkTest mb s
  | .grtLinkRestore mb => Sys2Proof.Machine.execGrtLinkRestore mb s
  | .grtRouteRead mb => Sys2Proof.Machine.execGrtRouteRead mb s
  | .grtRouteWrite mb => Sys2Proof.Machine.execGrtRouteWrite mb s
  | .grtCounters mb => Sys2Proof.Machine.execGrtCounters mb s
  | .storeTierAccess q ecc => Sys2Proof.Machine.execStoreTierAccess q ecc s
  | .storeScrubPass g corrected bad => Sys2Proof.Machine.execStoreScrubPass g corrected bad s
  | .spareRowRemap => Sys2Proof.Machine.execSpareRowRemap s
  | .externalAccess q x => Sys2Proof.Machine.execExternalAccess q x s
  | .protectedRead gs => Sys2Proof.Machine.execProtectedRead gs s
  | .protectedWrite gs => Sys2Proof.Machine.execProtectedWrite gs s
  | .counterCacheEviction l n g => Sys2Proof.Machine.execCounterCacheEviction l n g s
  | .memStatus mb => Sys2Proof.Machine.execMemStatus mb s
  | .memCounters mb => Sys2Proof.Machine.execMemCounters mb s
  | .mgdStatus mb => Sys2Proof.Machine.execMgdStatus mb s
  | .mgdPartition mb => Sys2Proof.Machine.execMgdPartition mb s
  | .mgdCounters mb => Sys2Proof.Machine.execMgdCounters mb s
  | .pcieBarRequest r => Sys2Proof.Machine.execPcieBarRequest r s
  | .bar4Read r ecc => Sys2Proof.Machine.execBar4Read r ecc s
  | .msixUnmask v => Sys2Proof.Machine.execMsixUnmask v s
  | .dmaQtailWrite m q v => Sys2Proof.Machine.execDmaQtailWrite m q v s
  | .dmaQctrlRun m q v => Sys2Proof.Machine.execDmaQctrlRun m q v s
  | .dmaQctrlStop m q v => Sys2Proof.Machine.execDmaQctrlStop m q v s
  | .dmaDescriptorStart d => Sys2Proof.Machine.execDmaDescriptorStart d s
  | .dmaDescriptorComplete q seen => Sys2Proof.Machine.execDmaDescriptorComplete q seen s
  | .d2hIdleTimeout q => Sys2Proof.Machine.execD2hIdleTimeout q s
  | .hostReadTimeout q seen => Sys2Proof.Machine.execHostReadTimeout q seen s
  | .dmaStatus mb => Sys2Proof.Machine.execDmaStatus mb s
  | .dmaQueue mb => Sys2Proof.Machine.execDmaQueue mb s
  | .dmaCounters mb => Sys2Proof.Machine.execDmaCounters mb s
  | .dmaLink mb => Sys2Proof.Machine.execDmaLink mb s
  | .dmaLinkRetrained speed width => Sys2Proof.Machine.execDmaLinkRetrained speed width s
  | .yarnCodewordSend p => Sys2Proof.Machine.execYarnCodewordSend p s
  | .yarnCodewordReceived p cw => Sys2Proof.Machine.execYarnCodewordReceived p cw s
  | .yarnReplayTimeout p => Sys2Proof.Machine.execYarnReplayTimeout p s
  | .yarnTrainingFrame n f => Sys2Proof.Machine.execYarnTrainingFrame n f s
  | .yarnPortUp p => Sys2Proof.Machine.execYarnPortUp p s
  | .yarnPortDown p => Sys2Proof.Machine.execYarnPortDown p s
  | .yarnTimeUnitSend p tx => Sys2Proof.Machine.execYarnTimeUnitSend p tx s
  | .yarnTimeUnitReceived p rx => Sys2Proof.Machine.execYarnTimeUnitReceived p rx s
  | .bcastReceived p => Sys2Proof.Machine.execBcastReceived p s
  | .heartbeatSend => Sys2Proof.Machine.execHeartbeatSend s
  | .heartbeatReceived p => Sys2Proof.Machine.execHeartbeatReceived p s
  | .heartbeatTimeout k => Sys2Proof.Machine.execHeartbeatTimeout k s
  | .forwardedMessageReceived p => Sys2Proof.Machine.execForwardedMessageReceived p s
  | .forwardedAckReceived p => Sys2Proof.Machine.execForwardedAckReceived p s
  | .yrnStatus mb => Sys2Proof.Machine.execYrnStatus mb s
  | .yrnChannel mb => Sys2Proof.Machine.execYrnChannel mb s
  | .yrnForward mb => Sys2Proof.Machine.execYrnForward mb s
  | .yrnForwardComplete p => Sys2Proof.Machine.execYrnForwardComplete p s
  | .yrnAsym mb => Sys2Proof.Machine.execYrnAsym mb s
  | .yrnCounters mb => Sys2Proof.Machine.execYrnCounters mb s
  | .faultEvent src inst detail => Sys2Proof.Machine.execFaultEvent src inst detail s
  | .windowSlotExpiry slot => Sys2Proof.Machine.execWindowSlotExpiry slot s
  | .lastingOutcomeEnd => Sys2Proof.Machine.execLastingOutcomeEnd s
  | .fltStatus mb => Sys2Proof.Machine.execFltStatus mb s
  | .fltEvents mb => Sys2Proof.Machine.execFltEvents mb s
  | .fltWindow mb => Sys2Proof.Machine.execFltWindow mb s
  | .fltSlots mb => Sys2Proof.Machine.execFltSlots mb s
  | .fltCounters mb => Sys2Proof.Machine.execFltCounters mb s
  | .swatchStart bound => Sys2Proof.Machine.execSwatchStart bound s
  | .swatchStepComplete o => Sys2Proof.Machine.execSwatchStepComplete o s
  | .rotationStep => Sys2Proof.Machine.execRotationStep s
  | .swtStatus mb => Sys2Proof.Machine.execSwtStatus mb s
  | .swtRun mb => Sys2Proof.Machine.execSwtRun mb s
  | .swtResults mb => Sys2Proof.Machine.execSwtResults mb s
  | .swtRotate mb => Sys2Proof.Machine.execSwtRotate mb s
  | .swtFuse mb => Sys2Proof.Machine.execSwtFuse mb s
  | .swtFuseComplete => Sys2Proof.Machine.execSwtFuseComplete s
  | .swtUnmark mb => Sys2Proof.Machine.execSwtUnmark mb s
  | .swtCounters mb => Sys2Proof.Machine.execSwtCounters mb s
  | .sensorReading base xs => Sys2Proof.Machine.execSensorReading base xs s
  | .capStepDown c => Sys2Proof.Machine.execCapStepDown c s
  | .capStepUp c => Sys2Proof.Machine.execCapStepUp c s
  | .tripRestart => Sys2Proof.Machine.execTripRestart s
  | .thmStatus mb => Sys2Proof.Machine.execThmStatus mb s
  | .thmSensors mb => Sys2Proof.Machine.execThmSensors mb s
  | .thmThrottle mb => Sys2Proof.Machine.execThmThrottle mb s
  | .thmCounters mb => Sys2Proof.Machine.execThmCounters mb s
  | .gazImageWrite ser => Sys2Proof.Machine.execGazImageWrite ser s
  | .gazImageWriteComplete => Sys2Proof.Machine.execGazImageWriteComplete s
  | .gazRead mb => Sys2Proof.Machine.execGazRead mb s
  | .gazExport mb => Sys2Proof.Machine.execGazExport mb s
  | .gazExportComplete => Sys2Proof.Machine.execGazExportComplete s
  | .gazFlush mb => Sys2Proof.Machine.execGazFlush mb s
  | .datumSample v a => Sys2Proof.Machine.execDatumSample v a s
  | .datumPowerDown => Sys2Proof.Machine.execDatumPowerDown s
  | .datumPowerUp => Sys2Proof.Machine.execDatumPowerUp s
  | .datumCrystalCheck off => Sys2Proof.Machine.execDatumCrystalCheck off s
  | .datumRomDigestCheck digest => Sys2Proof.Machine.execDatumRomDigestCheck digest s
  | .calOpen operator => Sys2Proof.Machine.execCalOpen operator s
  | .calMeasure ch n => Sys2Proof.Machine.execCalMeasure ch n s
  | .calMeasureDone => Sys2Proof.Machine.execCalMeasureDone s
  | .calStage bs => Sys2Proof.Machine.execCalStage bs s
  | .calSeal payload => Sys2Proof.Machine.execCalSeal payload s
  | .sealProgramComplete back => Sys2Proof.Machine.execSealProgramComplete back s
  | .calClose => Sys2Proof.Machine.execCalClose s
  | .datumCalEnFall => Sys2Proof.Machine.execDatumCalEnFall s
  | .datumEnergyRecord => Sys2Proof.Machine.execDatumEnergyRecord s
  | .datumEventPost => Sys2Proof.Machine.execDatumEventPost s
  | .datumPulse => Sys2Proof.Machine.execDatumPulse s
  | .datAccLoRead m c d => Sys2Proof.Machine.execDatAccLoRead m c d s
  | .datStatus mb => Sys2Proof.Machine.execDatStatus mb s
  | .datEnergy mb => Sys2Proof.Machine.execDatEnergy mb s
  | .datLog mb => Sys2Proof.Machine.execDatLog mb s
  | .datSplit mb => Sys2Proof.Machine.execDatSplit mb s
  | .pioSet m b v => Sys2Proof.Machine.execPioSet m b v s
  | .pioClr m b v => Sys2Proof.Machine.execPioClr m b v s
  | .pioTgl m b v => Sys2Proof.Machine.execPioTgl m b v s
  | .pinStatus mb => Sys2Proof.Machine.execPinStatus mb s
  | .pinAssign mb => Sys2Proof.Machine.execPinAssign mb s
  | .pinWrite mb => Sys2Proof.Machine.execPinWrite mb s
  | .pinRead mb => Sys2Proof.Machine.execPinRead mb s
  | .pinPad mb => Sys2Proof.Machine.execPinPad mb s
  | .pinCounters mb => Sys2Proof.Machine.execPinCounters mb s
  | .lneChkbitsLoRead n => Sys2Proof.Machine.execLneChkbitsLoRead n s
  | .lneCtrlLock m n v => Sys2Proof.Machine.execLneCtrlLock m n v s
  | .lneStatus mb => Sys2Proof.Machine.execLneStatus mb s
  | .lnePower mb => Sys2Proof.Machine.execLnePower mb s
  | .lneRetrain mb => Sys2Proof.Machine.execLneRetrain mb s
  | .lneBindoff mb => Sys2Proof.Machine.execLneBindoff mb s
  | .lneUp mb => Sys2Proof.Machine.execLneUp mb s
  | .lneTest mb => Sys2Proof.Machine.execLneTest mb s
  | .lneEq mb => Sys2Proof.Machine.execLneEq mb s
  | .lneAdapt mb => Sys2Proof.Machine.execLneAdapt mb s
  | .lnePattern mb => Sys2Proof.Machine.execLnePattern mb s
  | .lneCounters mb => Sys2Proof.Machine.execLneCounters mb s
  | .nop t u => Sys2Proof.Machine.execNop t u s
  | .undefinedCommand mb => Sys2Proof.Machine.execUndefinedCommand mb s
  | .pinHandoverComplete p => Sys2Proof.Machine.execPinHandoverComplete p s
  | .refClockRestored k => Sys2Proof.Machine.execRefClockRestored k s
  | .checkerLock n inv => Sys2Proof.Machine.execCheckerLock n inv s
  | .datumCalEnRise => Sys2Proof.Machine.execDatumCalEnRise s
  | .calBadFrame type => Sys2Proof.Machine.execCalBadFrame type s
  | .flipFlopClockEdge n tree falling high => Sys2Proof.Machine.execFlipFlopClockEdge n tree falling high s

end Sys2Proof.Machine
end

