-- ==== Sys2Proof/WellFormed.lean ====
section
/-! DEFINITION. Which commands and events the device can be given: every operand within what the spec numbers. A command's message is not
judged here (Ubtor judges it, Table 2-4). -/

namespace Sys2Proof

/-- A number below a bound. -/
def below (n bound : Nat) : Bool := decide (n < bound)

/-- A master of the internal address space: sheets 0 to 31, logical tiles 0 to 639 (Table 1-10). -/
def wfMaster : Master → Bool
  | .sheet s => below s 32
  | .tile t => below t 640
  | _ => true

/-- A rail: user I/O banks 0 to 6 (Table 25-2). -/
def wfRail : Rail → Bool
  | .vddio b => below b 7
  | _ => true

/-- A mailbox that carries commands: MB0 to MB7, MB16 to MB19, and MB26 and MB27 (Table 2-2, R585). -/
def wfMb (mb : Nat) : Bool := below mb 8 || (below mb 20 && !below mb 16) || (below mb 28 && !below mb 26)

/-- Strap levels (Table 3-1). -/
def wfStraps (bootSrc xtalWait cascadeMaster ioPull : Nat) : Bool :=
  below bootSrc 4 && below xtalWait 4 && below cascadeMaster 2 && below ioPull 4

/-- A firmware image fails check 1 to 4 or passes (Table 3-5). -/
def wfImage : ImageOutcome → Bool
  | .pass _ => true
  | .fail n => below n 5 && !below n 1

/-- PCIe speed 1 to 5 and width x1 to x8 (R550). -/
def wfPcie (speed width : Nat) : Bool := below speed 6 && !below speed 1 && [1, 2, 4, 8].contains width

/-- A byte address of 48 bits (R18). -/
def wfAddr (a : Nat) : Bool := below a (2 ^ 48)

/-- A register access of 1, 2, 4 or 8 bytes (R18, R19). -/
def wfSize (n : Nat) : Bool := [1, 2, 4, 8].contains n

/-- What a commit finds: AVSBus bus and selector, seven banks, eight channels (R108). -/
def wfCommit (h : CommitSeen) : Bool := below h.bankMv.length 8 && below h.gib.length 9 && h.avsSilent.all (below · 256)

/-- Lanes 0 to 95. -/
def wfObs (os : List LaneObs) : Bool := os.all (fun o => below o.lane 96)

/-- Signals whose level the surroundings give: credits returned to the fabric, a slot's input, the signals of the chart port and the
graticule port. -/
def wfNet (x : Net) : Bool :=
  match x with
  | .txCredit k h => below k 40 && below h 4
  | .io j => below j 32
  | .port _ => true
  | _ => false

/-- A block RAM access: 14 address bits, up to 72 data bits (R188). -/
def wfBram : Option BramReq → Bool
  | some r => below r.addr (2 ^ 14) && below r.data (2 ^ 72)
  | none => true

/-- A frame: PTP and ESMC fields within their widths. -/
def wfPtp (m : PtpMsg) : Bool :=
  below m.domain 256 && (match m.kind with
    | .announce c _ _ => below c 256
    | _ => true)

/-- An eCPRI message: eAxC ID and sequence number (R398). -/
def wfEcpri (m : Ecpri) : Bool := below m.rev 16 && below m.eaxc 65536 && below m.seq 256

/-- A received frame's content (Table 12-2). -/
def wfFrame (f : EthFrame) : Bool := match f.content with
  | .ecpri ms => ms.all wfEcpri
  | .ptp m => wfPtp m
  | .esmc ql => below ql 16
  | _ => true

/-- A time-of-day message: 16 bytes (Table 13-4). -/
def wfTod : TodMsg → Bool
  | .binary bs => bs.length == 16
  | .zda _ _ _ => true

/-- A regulator's reply: 16-bit values (R491). -/
def wfAvs : Option (Nat × Nat × Int) → Bool
  | some (mv, ma, t) => below mv 65536 && below ma 65536 && decide (-32768 ≤ t) && decide (t < 32768)
  | none => true

/-- A network interface number: router × 4 + port (R494). -/
def wfNi (ni : Nat) : Bool := below ni 256

/-- A KeyID of six bits (R529). -/
def wfKey : Option Nat → Bool
  | some k => below k 64
  | none => true

/-- A memory request: source interface, class, address, up to 128 bytes, data for a write (Table 15-3). -/
def wfReq (q : MemReq) : Bool :=
  wfNi q.src && below q.cls 8 && wfKey q.key && below q.addr (2 ^ 48) && below q.len 129 && !below q.len 1 &&
  (q.data.length == (if q.write then q.len else 0))

/-- A line as the external memory returns it: 64 bytes when it differs from what was written. -/
def wfExt (x : ExtRead) : Bool := match x.other with
  | some (bs, _) => bs.length == 64
  | none => true

/-- What the guard meets: tree levels 1 to 9, three copies of each root (R532). -/
def wfGuard (g : GuardSeen) : Bool :=
  wfExt g.line && g.nodes.all (fun p => below p.1 10 && !below p.1 1 && wfExt p.2) && g.backingBad.all (below · 10) &&
  g.roots.all (fun p => below p.2.1 3)

/-- A BAR request: BAR 0, 2 or 4 or another; a write carries its words (R551, R553). -/
def wfBar (r : BarReq) : Bool := below r.bar 6 && (if r.write then r.data.length == r.count else r.data.isEmpty)

/-- A descriptor of eight words (Table 17-3). -/
def wfDesc : Option (List (BitVec 32)) → Bool
  | some ws => ws.length == 8
  | none => true

/-- What the engine meets: lines, descriptors of eight words. -/
def wfSeen (d : DmaSeen) : Bool := d.ext.all wfExt && d.guard.all wfGuard && d.later.all (fun ws => ws.length == 8)

/-- A CTRL unit: positions of three bits, up to seven words (Table 18-5). -/
def wfCtrl (u : CtrlUnit) : Bool := below u.dst 8 && below u.src 8 && below u.words.length 8 && below u.first 64

/-- A data unit (Tables 18-4 and 18-5). -/
def wfUnit : YarnUnit → Bool
  | .elems c es => below c 64 && below es.length 4 && !below es.length 1
  | .ctrl u => wfCtrl u
  | .heartbeat p d m => below p 8 && below d 16 && below m 16
  | .time tx ex er => below tx (2 ^ 80) && below ex (2 ^ 80) && below er (2 ^ 80)
  | .bcast _ _ t => below t (2 ^ 64)

/-- A credit return: CHANNEL of six bits, COUNT 1 to 511 (Table 18-1). -/
def wfCredit : Option YCredit → Bool
  | some c => below c.channel 64 && below c.count 512 && !below c.count 1
  | none => true

/-- A yarn codeword: sequence numbers of 16 bits, up to 19 data units (Table 18-1). -/
def wfCodeword (cw : YarnCodeword) : Bool := below cw.seq 65536 && below cw.ackSeq 65536 && below cw.units.length 20 && below cw.ctrlCredit 256 &&
  cw.units.all wfUnit && wfCredit cw.creditA && wfCredit cw.creditB

/-- A sensor 0 to 119 (R638). -/
def wfSensor (x : SensorVal) : Bool := below x.sensor 120

/-- A MAC 0 to 15 or yarn port 16, 17; no more symbols corrected than received (R655). -/
def wfSer (x : SerSample) : Bool := below x.unit 18 && decide (x.corrected ≤ x.received)

/-- Four channels of 24-bit codes (R667). -/
def wfCodes (xs : List Int) : Bool := (xs.length == 4) && xs.all (fun x => decide (-8388608 ≤ x) && decide (x < 8388608))

/-- An adaptation step: a CTLE move of one step and twelve taps' moves (R366), eight bits of requests. -/
def wfAdapt (a : AdaptStep) : Bool := decide (-1 ≤ a.ctle) && decide (a.ctle ≤ 1) && below a.taps.length 13 && below a.ffeReq 256

/-- The command can be given. One arm per row of the table. -/
def WellFormed : Instr → Bool
  | .supplyValid r => wfRail r
  | .powerOnResetRelease bootSrc xtalWait cascadeMaster ioPull => wfStraps bootSrc xtalWait cascadeMaster ioPull
  | .supplyLoss r => wfRail r
  | .vddAonLost => true
  | .perstAssert => true
  | .perstRelease => true
  | .xtalStable => true
  | .bootImageTried o => wfImage o
  | .pcieLinkTrained speed width => wfPcie speed width
  | .mbxWordWrite m mb k _ => wfMaster m && below mb 32 && below k 64 && !below k 1
  | .mbxPost m mb _ => wfMaster m && below mb 32
  | .fabricClaimTimeout mb => wfMb mb
  | .mbxAckcodeWrite m mb _ => wfMaster m && below mb 32
  | .mbxAckClear m _ => wfMaster m
  | .lockstepDisagreement pair _ => below pair 4
  | .lockstepPairResume pair => below pair 4
  | .sessionIdleTimeout => true
  | .devStampLoRead m => wfMaster m
  | .registerWrite m a size _ => wfMaster m && wfAddr a && wfSize size
  | .sysStatus mb => wfMb mb
  | .sysEcho mb => wfMb mb
  | .sysState mb => wfMb mb
  | .sysReset mb => wfMb mb
  | .sysResetDelayExpiry => true
  | .sysCauseClear mb => wfMb mb
  | .sysExpertOpen mb => wfMb mb
  | .sysExpertClose mb => wfMb mb
  | .sysFwUpdate mb => wfMb mb
  | .fwUpdateComplete _ => true
  | .sysRegRead mb => wfMb mb
  | .sysRegWrite mb => wfMb mb
  | .surveyLoad mb => wfMb mb
  | .surveyCommit mb => wfMb mb
  | .surveyCommitComplete h => wfCommit h
  | .surveyAbort mb => wfMb mb
  | .surveyStatus mb => wfMb mb
  | .surveyRead mb => wfMb mb
  | .surveyMismatch mb => wfMb mb
  | .laneUp e => wfObs e.obs && e.ffe.all (fun q => below q.1 96)
  | .laneTrainingAttemptTimeout n _ => below n 96
  | .laneRetryTimer n => below n 96
  | .laneLos n => below n 96
  | .cdrUnlock n => below n 96
  | .pllUnlock n _ => below n 96
  | .refClockOutOfRange k => below k 12
  | .adaptationStep n a => below n 96 && wfAdapt a
  | .adaptLimit n => below n 96
  | .lowPowerEntryComplete n => below n 96
  | .lowPowerExitComplete n => below n 96
  | .checkerLockLoss n e => below n 96 && below e 65
  | .cmac t u => below t 640 && below u 8
  | .cmul t u => below t 640 && below u 8
  | .rmac t u => below t 640 && below u 8
  | .qmac t u => below t 640 && below u 8
  | .accrd t u => below t 640 && below u 8
  | .bfly2 t u => below t 640 && below u 8
  | .bfly4 t u => below t 640 && below u 8
  | .add t u => below t 640 && below u 8
  | .sub t u => below t 640 && below u 8
  | .srs t u => below t 640 && below u 8
  | .sls t u => below t 640 && below u 8
  | .cmp t u => below t 640 && below u 8
  | .sel t u => below t 640 && below u 8
  | .conj t u => below t 640 && below u 8
  | .norm t u => below t 640 && below u 8
  | .lut16 t u => below t 640 && below u.unit 8 && below u.ecc 3
  | .ld t u ecc => below t 640 && below u 8 && below ecc 3
  | .st t u => below t 640 && below u 8
  | .sin t u => below t 640 && below u 8
  | .sout t u => below t 640 && below u 8
  | .movi t u => below t 640 && below u 8
  | .twr t u => below t 640 && below u 8
  | .fadd t u => below t 640 && below u 8
  | .fsub t u => below t 640 && below u 8
  | .fmul t u => below t 640 && below u 8
  | .frsq t u => below t 640 && below u 8
  | .fcvt t u => below t 640 && below u 8
  | .outsideAccessWaitExpiry t addr store ecc => below t 640 && below addr 65536 && below ecc 3 && below store.length 17
  | .tokenDrainEnd t => below t 640
  | .patternHardSwitchEdge w => below w 40
  | .wordLinkElement t port => below t 640 && below port 6
  | .wordLinkCredit t port h => below t 640 && below port 4 && below h 4
  | .gateChannelElement w g => below w 40 && below g 16
  | .shiftCopyEnd w => below w 40
  | .walSwitchGo w tiles pattern => below w 40 && below tiles 65536 && below pattern 16
  | .walCtrlLock w => below w 40
  | .walStatus mb => wfMb mb
  | .walSwitch mb => wfMb mb
  | .walBind mb => wfMb mb
  | .walStickyClear mb => wfMb mb
  | .walBankmap mb => wfMb mb
  | .walFreeze mb => wfMb mb
  | .walShift mb => wfMb mb
  | .walCounters mb => wfMb mb
  | .sheetSwitchEdge n pins high => below n 32 && pins.all (below · 32) && high.all wfNet
  | .groupSwitch => true
  | .resetNetRelease n net => below n 32 && below net 4
  | .riserTxElement n k h _ => below n 32 && below k 40 && below h 4
  | .riserRxTake n k h => below n 32 && below k 40 && below h 4
  | .riserCreditPulse n k h => below n 32 && below k 40 && below h 4
  | .bramAccess n block a b upsA upsB _ => below n 32 && below block 128 && wfBram a && wfBram b && (upsA ++ upsB).all (below · 36864)
  | .sheetClockRestart n => below n 32
  | .captureInstant lead _ => below lead 32
  | .captureEdgeNoneTimeout lead => below lead 32
  | .capTrigEdge n => below n 32
  | .captureCopyComplete lead => below lead 32
  | .shtCtrlLock n => below n 32
  | .shtStampLoRead m n => wfMaster m && below n 32
  | .shtStatus mb => wfMb mb
  | .shtStickyClear mb => wfMb mb
  | .shtReset mb => wfMb mb
  | .shtResetPulseEnd net => below net 4
  | .shtClock mb => wfMb mb
  | .shtFreeze mb => wfMb mb
  | .shtCounters mb => wfMb mb
  | .shtSwitch mb => wfMb mb
  | .shtRisers mb => wfMb mb
  | .capStatus mb => wfMb mb
  | .capTake mb => wfMb mb
  | .capTakeX mb => wfMb mb
  | .capRead mb => wfMb mb
  | .capReadComplete => true
  | .capRelease mb => wfMb mb
  | .riserOrientationChange n k => below n 32 && below k 40
  | .riserConflictTimeout n k => below n 32 && below k 40
  | .chartPortBeat n beat => below n 32 && below beat.length 17 && !below beat.length 16
  | .chartPortAbort n => below n 32
  | .chartPortTimeout n => below n 32
  | .stagingDataArrival c _ => below c 4
  | .stagingComplete c _ => below c 4
  | .verificationComplete c => below c 4
  | .commitStart => true
  | .commitComplete => true
  | .ldrCtrlLock m _ => wfMaster m
  | .ldrStatus mb => wfMb mb
  | .ldrLoad mb => wfMb mb
  | .ldrCommit mb => wfMb mb
  | .ldrAbort mb => wfMb mb
  | .ldrCaston mb => wfMb mb
  | .ldrGrant mb => wfMb mb
  | .ldrLock mb => wfMb mb
  | .ldrCounters mb => wfMb mb
  | .streamElementArrival n _ _ => below n 4096
  | .streamSeamArrival n => below n 4096
  | .latestUsableTime n => below n 4096
  | .streamDelivery n _ => below n 4096
  | .graticuleStreamFlit n seq load => below n 4096 && below seq (2 ^ 24) &&
    (match load with | .producer els => below els.length 4 && !below els.length 1 | .buffer k => below k 4 && !below k 1)
  | .bindoffFinalSeam n => below n 4096
  | .bindoffSeamTaken n => below n 4096
  | .bindoffTimeout n => below n 4096
  | .strCfgOpen m _ => wfMaster m
  | .strStatus mb => wfMb mb
  | .strOpen mb => wfMb mb
  | .strSeam mb => wfMb mb
  | .strBindoff mb => wfMb mb
  | .strOpenX mb => wfMb mb
  | .strCounters mb => wfMb mb
  | .airEntryDispatch => true
  | .airActionNop => true
  | .airActionPlane => true
  | .airActionPattern => true
  | .airActionRelease => true
  | .airActionMute => true
  | .airActionPin => true
  | .airActionSample => true
  | .airActionCascade => true
  | .airBcastAct => true
  | .airScheduleStart => true
  | .airSwapBoundary => true
  | .airStop => true
  | .airTimeLoRead m => wfMaster m
  | .airSwapLoRead m => wfMaster m
  | .airStatus mb => wfMb mb
  | .airPreset mb => wfMb mb
  | .tableSealComplete => true
  | .airEnable mb => wfMb mb
  | .airDisable mb => wfMb mb
  | .airSwap mb => wfMb mb
  | .airLoad mb => wfMb mb
  | .airSeal mb => wfMb mb
  | .airRead mb => wfMb mb
  | .airIdle mb => wfMb mb
  | .airCounters mb => wfMb mb
  | .airTapRead mb => wfMb mb
  | .tapReadComplete => true
  | .ethFrameReceived mac f => below mac 16 && wfFrame f
  | .ethAutonegComplete mac _ _ => below mac 16
  | .ethFrameTransmit mac _ => below mac 16
  | .txIqUnitFraming f => below f 256
  | .sysrefEdge => true
  | .syncHeaderLock k obs => below k 16 && wfObs obs
  | .embLock k => below k 16
  | .elasticBufferRelease k => below k 16
  | .crc12Error n => below n 96
  | .embLockLoss n => below n 96
  | .jsdTxSampleDue k j _ _ => below k 16 && below j 16
  | .jsdRxSample k j _ _ raw => below k 16 && below j 16 && below raw.length 5 && !below raw.length 4
  | .fheStatus mb => wfMb mb
  | .fheFlow mb => wfMb mb
  | .fheCounters mb => wfMb mb
  | .jsdStatus mb => wfMb mb
  | .jsdLink mb => wfMb mb
  | .jsdSysref mb => wfMb mb
  | .jsdCounters mb => wfMb mb
  | .localSecondBoundary _ => true
  | .ppsInputEdge => true
  | .todMessage m => [9600, 38400, 115200, 460800].contains m.rate && wfTod m.msg
  | .ptpMessage mac m => below mac 16 && wfPtp m
  | .esmcMessage mac ql => below mac 16 && below ql 16
  | .oscTempRead _ => true
  | .contourLearnTick _ _ => true
  | .ageingFit => true
  | .modelStore => true
  | .leapSecondApply => true
  | .iroTrimGate _ _ => true
  | .merStatus mb => wfMb mb
  | .merSelect mb => wfMb mb
  | .merOutputs mb => wfMb mb
  | .merModel mb => wfMb mb
  | .merLeap mb => wfMb mb
  | .merBudget mb => wfMb mb
  | .merModelClear mb => wfMb mb
  | .merCounters mb => wfMb mb
  | .xtalGate _ _ => true
  | .xtalEdgeTimeout => true
  | .generatorReferenceLoss isl => below isl 144
  | .generatorLock isl => below isl 144
  | .ckiGateWrite m a _ => wfMaster m && wfAddr a
  | .sequencerRequestServe => true
  | .avsAck rail _ => below rail 2
  | .avsAckTimeout => true
  | .frequencyChangeRestart => true
  | .islandPowerSwitchOpen isl => below isl 144
  | .islandOff isl => below isl 144
  | .islandPowerUpComplete isl => below isl 144
  | .dormantPointOfNoReturn => true
  | .dormantEntryComplete => true
  | .wakeEvent src => below src 18 && !below src 1
  | .dormantExitPowerUp => true
  | .dormantExitComplete => true
  | .clkStatus mb => wfMb mb
  | .clkGate mb => wfMb mb
  | .clkFreq mb => wfMb mb
  | .pwrStatus mb => wfMb mb
  | .pwrOp mb => wfMb mb
  | .pwrIsland mb => wfMb mb
  | .pwrWake mb => wfMb mb
  | .pwrAvsRead mb r => wfMb mb && wfAvs r
  | .packetInjection ni m write addr len key data => wfNi ni && wfMaster m && below len 129 && below addr (2 ^ 48) && wfKey key && (data.length == (if write then len else 0))
  | .graticuleFlitHop r port => below r 64 && below port 12
  | .requestAtDestination ni _ _ => wfNi ni
  | .responseAtSource ni => wfNi ni
  | .routerSelfGate isl => below isl 96 && !below isl 80
  | .linkCrcError l d => below l 112 && below d 2
  | .routeChangeEffect ni dst => wfNi ni && wfNi dst
  | .linkTestEnd _ => true
  | .grtStatus mb => wfMb mb
  | .grtLinkTest mb => wfMb mb
  | .grtLinkRestore mb => wfMb mb
  | .grtRouteRead mb => wfMb mb
  | .grtRouteWrite mb => wfMb mb
  | .grtCounters mb => wfMb mb
  | .storeTierAccess q _ => wfReq q
  | .storeScrubPass g _ _ => below g 8
  | .spareRowRemap => true
  | .externalAccess q x => wfReq q && wfExt x
  | .protectedRead gs => gs.all wfGuard
  | .protectedWrite gs => gs.all wfGuard
  | .counterCacheEviction l _ g => below l 10 && !below l 1 && wfGuard g
  | .memStatus mb => wfMb mb
  | .memCounters mb => wfMb mb
  | .mgdStatus mb => wfMb mb
  | .mgdPartition mb => wfMb mb
  | .mgdCounters mb => wfMb mb
  | .pcieBarRequest r => wfBar r
  | .bar4Read r _ => wfBar r && (r.bar == 4) && !r.write
  | .msixUnmask v => below v 64
  | .dmaQtailWrite m q _ => wfMaster m && below q 32
  | .dmaQctrlRun m q _ => wfMaster m && below q 32
  | .dmaQctrlStop m q _ => wfMaster m && below q 32
  | .dmaDescriptorStart d => wfDesc d
  | .dmaDescriptorComplete q seen => below q 32 && wfSeen seen
  | .d2hIdleTimeout q => below q 32
  | .hostReadTimeout q seen => below q 32 && wfSeen seen
  | .dmaStatus mb => wfMb mb
  | .dmaQueue mb => wfMb mb
  | .dmaCounters mb => wfMb mb
  | .dmaLink mb => wfMb mb
  | .dmaLinkRetrained speed width => wfPcie speed width
  | .yarnCodewordSend p => below p 2
  | .yarnCodewordReceived p cw => below p 2 && wfCodeword cw
  | .yarnReplayTimeout p => below p 2
  | .yarnTrainingFrame n _ => below n 96
  | .yarnPortUp p => below p 2
  | .yarnPortDown p => below p 2
  | .yarnTimeUnitSend p _ => below p 2
  | .yarnTimeUnitReceived p _ => below p 2
  | .bcastReceived p => below p 2
  | .heartbeatSend => true
  | .heartbeatReceived p => below p 2
  | .heartbeatTimeout k => below k 8
  | .forwardedMessageReceived p => below p 2
  | .forwardedAckReceived p => below p 2
  | .yrnStatus mb => wfMb mb
  | .yrnChannel mb => wfMb mb
  | .yrnForward mb => wfMb mb
  | .yrnForwardComplete p => below p 2
  | .yrnAsym mb => wfMb mb
  | .yrnCounters mb => wfMb mb
  | .faultEvent src inst _ => below src 256 && below inst 65536
  | .windowSlotExpiry slot => below slot 128
  | .lastingOutcomeEnd => true
  | .fltStatus mb => wfMb mb
  | .fltEvents mb => wfMb mb
  | .fltWindow mb => wfMb mb
  | .fltSlots mb => wfMb mb
  | .fltCounters mb => wfMb mb
  | .swatchStart _ => true
  | .swatchStepComplete _ => true
  | .rotationStep => true
  | .swtStatus mb => wfMb mb
  | .swtRun mb => wfMb mb
  | .swtResults mb => wfMb mb
  | .swtRotate mb => wfMb mb
  | .swtFuse mb => wfMb mb
  | .swtFuseComplete => true
  | .swtUnmark mb => wfMb mb
  | .swtCounters mb => wfMb mb
  | .sensorReading _ xs => xs.all wfSensor
  | .capStepDown c => below c 2
  | .capStepUp c => below c 2
  | .tripRestart => true
  | .thmStatus mb => wfMb mb
  | .thmSensors mb => wfMb mb
  | .thmThrottle mb => wfMb mb
  | .thmCounters mb => wfMb mb
  | .gazImageWrite ser => ser.all wfSer
  | .gazImageWriteComplete => true
  | .gazRead mb => wfMb mb
  | .gazExport mb => wfMb mb
  | .gazExportComplete => true
  | .gazFlush mb => wfMb mb
  | .datumSample v a => wfCodes v && wfCodes a
  | .datumPowerDown => true
  | .datumPowerUp => true
  | .datumCrystalCheck _ => true
  | .datumRomDigestCheck _ => true
  | .calOpen _ => true
  | .calMeasure ch _ => below ch 256
  | .calMeasureDone => true
  | .calStage bs => below bs.length 256
  | .calSeal payload => below payload.length 256
  | .sealProgramComplete back => below back.length 61 && !below back.length 60
  | .calClose => true
  | .datumCalEnFall => true
  | .datumEnergyRecord => true
  | .datumEventPost => true
  | .datumPulse => true
  | .datAccLoRead m c d => wfMaster m && below c 4 && below d 2
  | .datStatus mb => wfMb mb
  | .datEnergy mb => wfMb mb
  | .datLog mb => wfMb mb
  | .datSplit mb => wfMb mb
  | .pioSet m b _ => wfMaster m && below b 7
  | .pioClr m b _ => wfMaster m && below b 7
  | .pioTgl m b _ => wfMaster m && below b 7
  | .pinStatus mb => wfMb mb
  | .pinAssign mb => wfMb mb
  | .pinWrite mb => wfMb mb
  | .pinRead mb => wfMb mb
  | .pinPad mb => wfMb mb
  | .pinCounters mb => wfMb mb
  | .lneChkbitsLoRead n => below n 96
  | .lneCtrlLock m n _ => wfMaster m && below n 96
  | .lneStatus mb => wfMb mb
  | .lnePower mb => wfMb mb
  | .lneRetrain mb => wfMb mb
  | .lneBindoff mb => wfMb mb
  | .lneUp mb => wfMb mb
  | .lneTest mb => wfMb mb
  | .lneEq mb => wfMb mb
  | .lneAdapt mb => wfMb mb
  | .lnePattern mb => wfMb mb
  | .lneCounters mb => wfMb mb
  | .nop t u => below t 640 && below u 8
  | .undefinedCommand mb => wfMb mb
  | .pinHandoverComplete p => below p 224
  | .refClockRestored k => below k 12
  | .checkerLock n _ => below n 96
  | .datumCalEnRise => true
  | .calBadFrame type => below type 256
  | .flipFlopClockEdge n tree _ high => below n 32 && below tree 4 && high.all wfNet

end Sys2Proof
end

