-- ==== Sys2Proof/Safety.lean ====
section
/-! DEFINITION. The terms statements use: the canonical form of registers and memories, a message that Ubtor serves, what an answer
leaves, and the device states in which commands run. -/

namespace Sys2Proof.Machine

/-- Registers are in canonical form: keys rising, none listed at its reset value. -/
def State.RegsWf (s : State) : Prop := swf resetWord s.regs = true

/-- The canonical form of one memory: addresses rising, none listed that holds what an unlisted byte reads as, 0. -/
abbrev Memory.wf (m : Sparse Byte) : Bool := swf (fun _ => (0 : Byte)) m

/-- Every memory is in canonical form: the store tier, the external memory, the tile memories, the pattern memories, host memory and
the flash; an unlisted byte reads 0. -/
def State.MemWf (s : State) : Prop :=
  Memory.wf s.store = true ∧ Memory.wf s.mem.ext = true ∧ Memory.wf s.stitch.mem = true ∧ Memory.wf s.stitch.pats = true ∧
  Memory.wf s.host.mem = true ∧ Memory.wf s.sys.flash = true

/-- The datum island itself: all of `dat` but what Ubtor keeps of its records and events (R664, R680). -/
def Dat.island (d : Dat) : Dat := { d with rec_ := [], recSide := [], events := [], shares := [], lastAcc := [] }

/-- The rows that are the datum island's own: its samples, supply, checks, calibration port, and what it sends (R665 to R676). -/
def ofDatum : Instr → Bool
  | .datumSample _ _ | .datumPowerDown | .datumPowerUp | .datumCrystalCheck _ | .datumRomDigestCheck _ | .calOpen _ | .calMeasure _ _
  | .calMeasureDone | .calStage _ | .calSeal _ | .sealProgramComplete _ | .calClose | .calBadFrame _ | .datumCalEnRise | .datumCalEnFall
  | .datumEnergyRecord | .datumEventPost | .datumPulse => true
  | _ => false

/-- Checks 4 to 7 of Table 2-4 and the reserved bits and REPLY_WANTED of check 8: those every command shares, in order. -/
def earlyCheck (sp : CmdSpec) (c : Cmd) (s : State) : Option RetCode :=
  stateCheck c s <|> expertCheck c s <|>
  (if sp.survey && !s.svy.committed then some .SURVEY_MISSING else none) <|>
  (if c.length < sp.lenLo ∨ sp.lenHi < c.length then some .BAD_LENGTH else none) <|>
  (if !reservedClear sp.masks c || (sp.data && !c.replyWanted) then some .BAD_FIELD else none)

/-- Ubtor takes up the message in command mailbox `mb` as the command `sp` and every check of Table 2-4 but the command's own field
checks passes: it may start (R67, R73, R74), its header is that of the command, it is not turned away BUSY (R76), and checks 4 to 9
find nothing. -/
abbrev State.Serves (s : State) (mb : Nat) (sp : CmdSpec) : Prop :=
  s.startable mb = true ∧ (s.msg mb).code = sp.code ∧ headerCheck [sp.code] (s.msg mb) = none ∧ s.queued mb < 16 ∧
  bodyCheck sp noFields (s.msg mb) s = none

/-- The command in mailbox `mb` of `s` answered DONE with reply data `data`, its effects having left `u` (R69, R75). -/
abbrev State.done (s : State) (mb : Nat) (u : State) (data : List Word := []) : Host.Outcome State Fault Refusal :=
  .next (u.answer (s.msg mb) .DONE data)

/-- The command in mailbox `mb` of `s` answered ACCEPTED, its start having left `u`, with the numbers its completion needs (R71, R75). -/
abbrev State.taken (s : State) (mb : Nat) (u : State) (args : List Nat := []) : Host.Outcome State Fault Refusal :=
  .next (u.accept (s.msg mb) args)

/-- The command in mailbox `mb` of `s` under way without an answer yet, its start having left `u` (R75). -/
abbrev State.waits (s : State) (mb : Nat) (u : State) (args : List Nat := []) : Host.Outcome State Fault Refusal :=
  let c := s.msg mb
  let o : OpenCmd := ⟨c.id, c.mb, c.code, c.tag, c.session, c.fence, c.posted, c.sheet, args⟩
  .next { u with mbx := { u.mbx with running := u.mbx.running ++ [o], nextId := u.mbx.nextId + 1 } }

/-! ### A tile's cycle -/

/-- Whether units of tile `t` may issue in the present cycle, with the state at the cycle's start: the cycle starts with its first unit. -/
def State.cycleOpen (s : State) (t u : Nat) : Bool × State := if (s.tile t).issued = [] then s.startCycle t u else (true, s)

/-- The slot word that unit `u` of tile `t` holds in the present cycle. -/
def State.nowSlot (s : State) (t u : Nat) : SlotWord := s.slotWord t (s.activePat t) u (s.tile t).slot

/-- Unit `u` of tile `t` issues and executes opcode `opc` now: the tile may issue, the unit's slot holds the opcode and has not issued in this
cycle, the cycle is not stalled, and stage, loop bounds and predicate let the slot execute (R138, R146). -/
abbrev State.Issues (s : State) (t u opc : Nat) : Prop :=
  s.tileReady t = true ∧ u < 8 ∧ (s.nowSlot t u).opc = opc ∧ (s.tile t).issued.contains u = false ∧ (s.cycleOpen t u).1 = true ∧
  (s.cycleOpen t u).2.executes t u (s.nowSlot t u) = true

/-- Where the operation executes: the state, tile, unit, pattern and slot word at the start of its cycle. -/
def State.opCtx (s : State) (t u : Nat) : OpCtx :=
  let v := (s.cycleOpen t u).2
  ⟨v, v.tile t, t, u, v.activePat t, s.nowSlot t u⟩

/-- The unit is marked issued; the cycle ends once all eight units have issued. -/
def State.slotIssued (s : State) (t u : Nat) : State :=
  let x := s.tile t
  let s := s.setTile t { x with issued := x.issued ++ [u] }
  if x.issued.length + 1 = 8 then (s.closeCycle t).advance t else s

/-- What tile `t` is after unit `u` executes an operation with the effects `f` describes. -/
abbrev State.runs (s : State) (t u : Nat) (f : OpCtx → OpEff) : Host.Outcome State Fault Refusal :=
  .next (((s.cycleOpen t u).2.applyEff t u (f (s.opCtx t u))).slotIssued t u)

/-- Results of an operation: the destination register gets `v` after `lat` cycles. -/
def OpCtx.gives (e : OpCtx) (lat : Nat) (v : Word) (names : List Nat) (sat fpinv : Bool := false) : OpEff :=
  { lands := [(lat, .reg e.w.dst v true)], sat := sat, fpinv := fpinv, names := names, store := none, ag := none, banks := [], clear := none }

/-- Results of a multiply-accumulate: accumulator DST[1:0] gains the pair after 3 cycles, from zero with CLR. -/
def OpCtx.gains (e : OpCtx) (i q : Int) : OpEff :=
  { lands := [(3, .acc (e.w.dst % 4) i q (e.w.m 2))], sat := false, fpinv := false, names := e.ab, store := none, ag := none, banks := [],
    clear := none }

/-- A command row after Ubtor has answered: SYS.STATE also completes the orders whose target is reached, LNE.BINDOFF the bind-offs that are
done; no other row does more. -/
def afterCommand (i : Instr) (t : State) : State :=
  match i with
  | .sysState _ => t.stateReached
  | .lneBindoff _ => t.bindsDone
  | _ => t

/-- The mailbox and descriptor of a Ubtor command row; none for a row that is no command. -/
def commandOf : Instr → Option (Nat × CmdSpec)
  | .supplyValid _ => none
  | .powerOnResetRelease _ _ _ _ => none
  | .supplyLoss _ => none
  | .vddAonLost => none
  | .perstAssert => none
  | .perstRelease => none
  | .xtalStable => none
  | .bootImageTried _ => none
  | .pcieLinkTrained _ _ => none
  | .mbxWordWrite _ _ _ _ => none
  | .mbxPost _ _ _ => none
  | .fabricClaimTimeout _ => none
  | .mbxAckcodeWrite _ _ _ => none
  | .mbxAckClear _ _ => none
  | .lockstepDisagreement _ _ => none
  | .lockstepPairResume _ => none
  | .sessionIdleTimeout => none
  | .devStampLoRead _ => none
  | .registerWrite _ _ _ _ => none
  | .sysStatus mb => some (mb, spec_SYS_STATUS)
  | .sysEcho mb => some (mb, spec_SYS_ECHO)
  | .sysState mb => some (mb, spec_SYS_STATE)
  | .sysReset mb => some (mb, spec_SYS_RESET)
  | .sysResetDelayExpiry => none
  | .sysCauseClear mb => some (mb, spec_SYS_CAUSE_CLEAR)
  | .sysExpertOpen mb => some (mb, spec_SYS_EXPERT_OPEN)
  | .sysExpertClose mb => some (mb, spec_SYS_EXPERT_CLOSE)
  | .sysFwUpdate mb => some (mb, spec_SYS_FW_UPDATE)
  | .fwUpdateComplete _ => none
  | .sysRegRead mb => some (mb, spec_SYS_REG_READ)
  | .sysRegWrite mb => some (mb, spec_SYS_REG_WRITE)
  | .surveyLoad mb => some (mb, spec_SURVEY_LOAD)
  | .surveyCommit mb => some (mb, spec_SURVEY_COMMIT)
  | .surveyCommitComplete _ => none
  | .surveyAbort mb => some (mb, spec_SURVEY_ABORT)
  | .surveyStatus mb => some (mb, spec_SURVEY_STATUS)
  | .surveyRead mb => some (mb, spec_SURVEY_READ)
  | .surveyMismatch mb => some (mb, spec_SURVEY_MISMATCH)
  | .laneUp _ => none
  | .laneTrainingAttemptTimeout _ _ => none
  | .laneRetryTimer _ => none
  | .laneLos _ => none
  | .cdrUnlock _ => none
  | .pllUnlock _ _ => none
  | .refClockOutOfRange _ => none
  | .adaptationStep _ _ => none
  | .adaptLimit _ => none
  | .lowPowerEntryComplete _ => none
  | .lowPowerExitComplete _ => none
  | .checkerLockLoss _ _ => none
  | .cmac _ _ => none
  | .cmul _ _ => none
  | .rmac _ _ => none
  | .qmac _ _ => none
  | .accrd _ _ => none
  | .bfly2 _ _ => none
  | .bfly4 _ _ => none
  | .add _ _ => none
  | .sub _ _ => none
  | .srs _ _ => none
  | .sls _ _ => none
  | .cmp _ _ => none
  | .sel _ _ => none
  | .conj _ _ => none
  | .norm _ _ => none
  | .lut16 _ _ => none
  | .ld _ _ _ => none
  | .st _ _ => none
  | .sin _ _ => none
  | .sout _ _ => none
  | .movi _ _ => none
  | .twr _ _ => none
  | .fadd _ _ => none
  | .fsub _ _ => none
  | .fmul _ _ => none
  | .frsq _ _ => none
  | .fcvt _ _ => none
  | .outsideAccessWaitExpiry _ _ _ _ => none
  | .tokenDrainEnd _ => none
  | .patternHardSwitchEdge _ => none
  | .wordLinkElement _ _ => none
  | .wordLinkCredit _ _ _ => none
  | .gateChannelElement _ _ => none
  | .shiftCopyEnd _ => none
  | .walSwitchGo _ _ _ => none
  | .walCtrlLock _ => none
  | .walStatus mb => some (mb, spec_WAL_STATUS)
  | .walSwitch mb => some (mb, spec_WAL_SWITCH)
  | .walBind mb => some (mb, spec_WAL_BIND)
  | .walStickyClear mb => some (mb, spec_WAL_STICKY_CLEAR)
  | .walBankmap mb => some (mb, spec_WAL_BANKMAP)
  | .walFreeze mb => some (mb, spec_WAL_FREEZE)
  | .walShift mb => some (mb, spec_WAL_SHIFT)
  | .walCounters mb => some (mb, spec_WAL_COUNTERS)
  | .sheetSwitchEdge _ _ _ => none
  | .groupSwitch => none
  | .resetNetRelease _ _ => none
  | .riserTxElement _ _ _ _ => none
  | .riserRxTake _ _ _ => none
  | .riserCreditPulse _ _ _ => none
  | .bramAccess _ _ _ _ _ _ _ => none
  | .sheetClockRestart _ => none
  | .captureInstant _ _ => none
  | .captureEdgeNoneTimeout _ => none
  | .capTrigEdge _ => none
  | .captureCopyComplete _ => none
  | .shtCtrlLock _ => none
  | .shtStampLoRead _ _ => none
  | .shtStatus mb => some (mb, spec_SHT_STATUS)
  | .shtStickyClear mb => some (mb, spec_SHT_STICKY_CLEAR)
  | .shtReset mb => some (mb, spec_SHT_RESET)
  | .shtResetPulseEnd _ => none
  | .shtClock mb => some (mb, spec_SHT_CLOCK)
  | .shtFreeze mb => some (mb, spec_SHT_FREEZE)
  | .shtCounters mb => some (mb, spec_SHT_COUNTERS)
  | .shtSwitch mb => some (mb, spec_SHT_SWITCH)
  | .shtRisers mb => some (mb, spec_SHT_RISERS)
  | .capStatus mb => some (mb, spec_CAP_STATUS)
  | .capTake mb => some (mb, spec_CAP_TAKE)
  | .capTakeX mb => some (mb, spec_CAP_TAKE_X)
  | .capRead mb => some (mb, spec_CAP_READ)
  | .capReadComplete => none
  | .capRelease mb => some (mb, spec_CAP_RELEASE)
  | .riserOrientationChange _ _ => none
  | .riserConflictTimeout _ _ => none
  | .chartPortBeat _ _ => none
  | .chartPortAbort _ => none
  | .chartPortTimeout _ => none
  | .stagingDataArrival _ _ => none
  | .stagingComplete _ _ => none
  | .verificationComplete _ => none
  | .commitStart => none
  | .commitComplete => none
  | .ldrCtrlLock _ _ => none
  | .ldrStatus mb => some (mb, spec_LDR_STATUS)
  | .ldrLoad mb => some (mb, spec_LDR_LOAD)
  | .ldrCommit mb => some (mb, spec_LDR_COMMIT)
  | .ldrAbort mb => some (mb, spec_LDR_ABORT)
  | .ldrCaston mb => some (mb, spec_LDR_CASTON)
  | .ldrGrant mb => some (mb, spec_LDR_GRANT)
  | .ldrLock mb => some (mb, spec_LDR_LOCK)
  | .ldrCounters mb => some (mb, spec_LDR_COUNTERS)
  | .streamElementArrival _ _ _ => none
  | .streamSeamArrival _ => none
  | .latestUsableTime _ => none
  | .streamDelivery _ _ => none
  | .graticuleStreamFlit _ _ _ => none
  | .bindoffFinalSeam _ => none
  | .bindoffSeamTaken _ => none
  | .bindoffTimeout _ => none
  | .strCfgOpen _ _ => none
  | .strStatus mb => some (mb, spec_STR_STATUS)
  | .strOpen mb => some (mb, spec_STR_OPEN)
  | .strSeam mb => some (mb, spec_STR_SEAM)
  | .strBindoff mb => some (mb, spec_STR_BINDOFF)
  | .strOpenX mb => some (mb, spec_STR_OPEN_X)
  | .strCounters mb => some (mb, spec_STR_COUNTERS)
  | .airEntryDispatch => none
  | .airActionNop => none
  | .airActionPlane => none
  | .airActionPattern => none
  | .airActionRelease => none
  | .airActionMute => none
  | .airActionPin => none
  | .airActionSample => none
  | .airActionCascade => none
  | .airBcastAct => none
  | .airScheduleStart => none
  | .airSwapBoundary => none
  | .airStop => none
  | .airTimeLoRead _ => none
  | .airSwapLoRead _ => none
  | .airStatus mb => some (mb, spec_AIR_STATUS)
  | .airPreset mb => some (mb, spec_AIR_PRESET)
  | .tableSealComplete => none
  | .airEnable mb => some (mb, spec_AIR_ENABLE)
  | .airDisable mb => some (mb, spec_AIR_DISABLE)
  | .airSwap mb => some (mb, spec_AIR_SWAP)
  | .airLoad mb => some (mb, spec_AIR_LOAD)
  | .airSeal mb => some (mb, spec_AIR_SEAL)
  | .airRead mb => some (mb, spec_AIR_READ)
  | .airIdle mb => some (mb, spec_AIR_IDLE)
  | .airCounters mb => some (mb, spec_AIR_COUNTERS)
  | .airTapRead mb => some (mb, spec_AIR_TAP_READ)
  | .tapReadComplete => none
  | .ethFrameReceived _ _ => none
  | .ethAutonegComplete _ _ _ => none
  | .ethFrameTransmit _ _ => none
  | .txIqUnitFraming _ => none
  | .sysrefEdge => none
  | .syncHeaderLock _ _ => none
  | .embLock _ => none
  | .elasticBufferRelease _ => none
  | .crc12Error _ => none
  | .embLockLoss _ => none
  | .jsdTxSampleDue _ _ _ _ => none
  | .jsdRxSample _ _ _ _ _ => none
  | .fheStatus mb => some (mb, spec_FHE_STATUS)
  | .fheFlow mb => some (mb, spec_FHE_FLOW)
  | .fheCounters mb => some (mb, spec_FHE_COUNTERS)
  | .jsdStatus mb => some (mb, spec_JSD_STATUS)
  | .jsdLink mb => some (mb, spec_JSD_LINK)
  | .jsdSysref mb => some (mb, spec_JSD_SYSREF)
  | .jsdCounters mb => some (mb, spec_JSD_COUNTERS)
  | .localSecondBoundary _ => none
  | .ppsInputEdge => none
  | .todMessage _ => none
  | .ptpMessage _ _ => none
  | .esmcMessage _ _ => none
  | .oscTempRead _ => none
  | .contourLearnTick _ _ => none
  | .ageingFit => none
  | .modelStore => none
  | .leapSecondApply => none
  | .iroTrimGate _ _ => none
  | .merStatus mb => some (mb, spec_MER_STATUS)
  | .merSelect mb => some (mb, spec_MER_SELECT)
  | .merOutputs mb => some (mb, spec_MER_OUTPUTS)
  | .merModel mb => some (mb, spec_MER_MODEL)
  | .merLeap mb => some (mb, spec_MER_LEAP)
  | .merBudget mb => some (mb, spec_MER_BUDGET)
  | .merModelClear mb => some (mb, spec_MER_MODEL_CLEAR)
  | .merCounters mb => some (mb, spec_MER_COUNTERS)
  | .xtalGate _ _ => none
  | .xtalEdgeTimeout => none
  | .generatorReferenceLoss _ => none
  | .generatorLock _ => none
  | .ckiGateWrite _ _ _ => none
  | .sequencerRequestServe => none
  | .avsAck _ _ => none
  | .avsAckTimeout => none
  | .frequencyChangeRestart => none
  | .islandPowerSwitchOpen _ => none
  | .islandOff _ => none
  | .islandPowerUpComplete _ => none
  | .dormantPointOfNoReturn => none
  | .dormantEntryComplete => none
  | .wakeEvent _ => none
  | .dormantExitPowerUp => none
  | .dormantExitComplete => none
  | .clkStatus mb => some (mb, spec_CLK_STATUS)
  | .clkGate mb => some (mb, spec_CLK_GATE)
  | .clkFreq mb => some (mb, spec_CLK_FREQ)
  | .pwrStatus mb => some (mb, spec_PWR_STATUS)
  | .pwrOp mb => some (mb, spec_PWR_OP)
  | .pwrIsland mb => some (mb, spec_PWR_ISLAND)
  | .pwrWake mb => some (mb, spec_PWR_WAKE)
  | .pwrAvsRead mb _ => some (mb, spec_PWR_AVS_READ)
  | .packetInjection _ _ _ _ _ _ _ => none
  | .graticuleFlitHop _ _ => none
  | .requestAtDestination _ _ _ => none
  | .responseAtSource _ => none
  | .routerSelfGate _ => none
  | .linkCrcError _ _ => none
  | .routeChangeEffect _ _ => none
  | .linkTestEnd _ => none
  | .grtStatus mb => some (mb, spec_GRT_STATUS)
  | .grtLinkTest mb => some (mb, spec_GRT_LINK_TEST)
  | .grtLinkRestore mb => some (mb, spec_GRT_LINK_RESTORE)
  | .grtRouteRead mb => some (mb, spec_GRT_ROUTE_READ)
  | .grtRouteWrite mb => some (mb, spec_GRT_ROUTE_WRITE)
  | .grtCounters mb => some (mb, spec_GRT_COUNTERS)
  | .storeTierAccess _ _ => none
  | .storeScrubPass _ _ _ => none
  | .spareRowRemap => none
  | .externalAccess _ _ => none
  | .protectedRead _ => none
  | .protectedWrite _ => none
  | .counterCacheEviction _ _ _ => none
  | .memStatus mb => some (mb, spec_MEM_STATUS)
  | .memCounters mb => some (mb, spec_MEM_COUNTERS)
  | .mgdStatus mb => some (mb, spec_MGD_STATUS)
  | .mgdPartition mb => some (mb, spec_MGD_PARTITION)
  | .mgdCounters mb => some (mb, spec_MGD_COUNTERS)
  | .pcieBarRequest _ => none
  | .bar4Read _ _ => none
  | .msixUnmask _ => none
  | .dmaQtailWrite _ _ _ => none
  | .dmaQctrlRun _ _ _ => none
  | .dmaQctrlStop _ _ _ => none
  | .dmaDescriptorStart _ => none
  | .dmaDescriptorComplete _ _ => none
  | .d2hIdleTimeout _ => none
  | .hostReadTimeout _ _ => none
  | .dmaStatus mb => some (mb, spec_DMA_STATUS)
  | .dmaQueue mb => some (mb, spec_DMA_QUEUE)
  | .dmaCounters mb => some (mb, spec_DMA_COUNTERS)
  | .dmaLink mb => some (mb, spec_DMA_LINK)
  | .dmaLinkRetrained _ _ => none
  | .yarnCodewordSend _ => none
  | .yarnCodewordReceived _ _ => none
  | .yarnReplayTimeout _ => none
  | .yarnTrainingFrame _ _ => none
  | .yarnPortUp _ => none
  | .yarnPortDown _ => none
  | .yarnTimeUnitSend _ _ => none
  | .yarnTimeUnitReceived _ _ => none
  | .bcastReceived _ => none
  | .heartbeatSend => none
  | .heartbeatReceived _ => none
  | .heartbeatTimeout _ => none
  | .forwardedMessageReceived _ => none
  | .forwardedAckReceived _ => none
  | .yrnStatus mb => some (mb, spec_YRN_STATUS)
  | .yrnChannel mb => some (mb, spec_YRN_CHANNEL)
  | .yrnForward mb => some (mb, spec_YRN_FORWARD)
  | .yrnForwardComplete _ => none
  | .yrnAsym mb => some (mb, spec_YRN_ASYM)
  | .yrnCounters mb => some (mb, spec_YRN_COUNTERS)
  | .faultEvent _ _ _ => none
  | .windowSlotExpiry _ => none
  | .lastingOutcomeEnd => none
  | .fltStatus mb => some (mb, spec_FLT_STATUS)
  | .fltEvents mb => some (mb, spec_FLT_EVENTS)
  | .fltWindow mb => some (mb, spec_FLT_WINDOW)
  | .fltSlots mb => some (mb, spec_FLT_SLOTS)
  | .fltCounters mb => some (mb, spec_FLT_COUNTERS)
  | .swatchStart _ => none
  | .swatchStepComplete _ => none
  | .rotationStep => none
  | .swtStatus mb => some (mb, spec_SWT_STATUS)
  | .swtRun mb => some (mb, spec_SWT_RUN)
  | .swtResults mb => some (mb, spec_SWT_RESULTS)
  | .swtRotate mb => some (mb, spec_SWT_ROTATE)
  | .swtFuse mb => some (mb, spec_SWT_FUSE)
  | .swtFuseComplete => none
  | .swtUnmark mb => some (mb, spec_SWT_UNMARK)
  | .swtCounters mb => some (mb, spec_SWT_COUNTERS)
  | .sensorReading _ _ => none
  | .capStepDown _ => none
  | .capStepUp _ => none
  | .tripRestart => none
  | .thmStatus mb => some (mb, spec_THM_STATUS)
  | .thmSensors mb => some (mb, spec_THM_SENSORS)
  | .thmThrottle mb => some (mb, spec_THM_THROTTLE)
  | .thmCounters mb => some (mb, spec_THM_COUNTERS)
  | .gazImageWrite _ => none
  | .gazImageWriteComplete => none
  | .gazRead mb => some (mb, spec_GAZ_READ)
  | .gazExport mb => some (mb, spec_GAZ_EXPORT)
  | .gazExportComplete => none
  | .gazFlush mb => some (mb, spec_GAZ_FLUSH)
  | .datumSample _ _ => none
  | .datumPowerDown => none
  | .datumPowerUp => none
  | .datumCrystalCheck _ => none
  | .datumRomDigestCheck _ => none
  | .calOpen _ => none
  | .calMeasure _ _ => none
  | .calMeasureDone => none
  | .calStage _ => none
  | .calSeal _ => none
  | .sealProgramComplete _ => none
  | .calClose => none
  | .datumCalEnFall => none
  | .datumEnergyRecord => none
  | .datumEventPost => none
  | .datumPulse => none
  | .datAccLoRead _ _ _ => none
  | .datStatus mb => some (mb, spec_DAT_STATUS)
  | .datEnergy mb => some (mb, spec_DAT_ENERGY)
  | .datLog mb => some (mb, spec_DAT_LOG)
  | .datSplit mb => some (mb, spec_DAT_SPLIT)
  | .pioSet _ _ _ => none
  | .pioClr _ _ _ => none
  | .pioTgl _ _ _ => none
  | .pinStatus mb => some (mb, spec_PIN_STATUS)
  | .pinAssign mb => some (mb, spec_PIN_ASSIGN)
  | .pinWrite mb => some (mb, spec_PIN_WRITE)
  | .pinRead mb => some (mb, spec_PIN_READ)
  | .pinPad mb => some (mb, spec_PIN_PAD)
  | .pinCounters mb => some (mb, spec_PIN_COUNTERS)
  | .lneChkbitsLoRead _ => none
  | .lneCtrlLock _ _ _ => none
  | .lneStatus mb => some (mb, spec_LNE_STATUS)
  | .lnePower mb => some (mb, spec_LNE_POWER)
  | .lneRetrain mb => some (mb, spec_LNE_RETRAIN)
  | .lneBindoff mb => some (mb, spec_LNE_BINDOFF)
  | .lneUp mb => some (mb, spec_LNE_UP)
  | .lneTest mb => some (mb, spec_LNE_TEST)
  | .lneEq mb => some (mb, spec_LNE_EQ)
  | .lneAdapt mb => some (mb, spec_LNE_ADAPT)
  | .lnePattern mb => some (mb, spec_LNE_PATTERN)
  | .lneCounters mb => some (mb, spec_LNE_COUNTERS)
  | .nop _ _ => none
  | .undefinedCommand _ => none
  | .pinHandoverComplete _ => none
  | .refClockRestored _ => none
  | .checkerLock _ _ => none
  | .datumCalEnRise => none
  | .calBadFrame _ => none
  | .flipFlopClockEdge _ _ _ _ => none

end Sys2Proof.Machine
end

