-- ==== Sys2Proof/Certificates/Slice0/Obligations.lean ====
section
/-! DEFINITION. The statements for the provers, family by family: what every command shares, each row's own effect and where it completes,
what stays as it was, and the invariants every step keeps. -/

open Sys2Proof Sys2Proof.Machine

/-! ### The queue, and what every command shares -/

/-- A step takes the command at the front of the queue and runs it on the state with the queue's rest. -/
def Obligations.StepRunsFront : Prop :=
  ∀ (s : State) (c : Instr) (rest : List Instr), s.pending = c :: rest → step s = exec c { s with pending := rest }

/-- With no command waiting the block idles for one nanosecond of the device stamp and nothing else changes (the model's own choice, log
entry 3). -/
def Obligations.StepIdles : Prop :=
  ∀ s : State, s.pending = [] → step s = .next { s with stamp := s.stamp + 1 }

/-- A command whose message fails one of checks 4 to 9 of Table 2-4 that every command shares is answered with the first failing check's
code and has no other effect: for every Ubtor command row (SYS.STATE orders already met and LNE.BINDOFF commands already done complete
afterwards). Where the rules leave more than one reading it is the model's choice (log entries 17 and 18). -/
def Obligations.ChecksRefuse : Prop :=
  ∀ (s : State) (i : Instr) (mb : Nat) (sp : CmdSpec) (rc : RetCode), commandOf i = some (mb, sp) →
    s.startable mb = true → (s.msg mb).code = sp.code → headerCheck [sp.code] (s.msg mb) = none → s.queued mb < 16 →
    earlyCheck sp (s.msg mb) s = some rc →
    exec i s = .next (afterCommand i (s.answer (s.msg mb) rc []))

/-- A command row runs only on a message of its own code that may start (R67, R73): otherwise nothing changes. Where the rules leave more
than one reading it is the model's choice (log entry 5). -/
def Obligations.NoMessageNoEffect : Prop :=
  ∀ (s : State) (i : Instr) (mb : Nat) (sp : CmdSpec), commandOf i = some (mb, sp) →
    (s.startable mb = false ∨ (s.msg mb).code ≠ sp.code) → exec i s = .next (afterCommand i s)

/-- Sixteen completions already wait for the reply mailbox: a command that wants a reply is turned away BUSY and has no other effect (R76).
The acknowledging write of a command: FULL clears, ACK is set and the code stands in MBX_ACKCODE, and no other mailbox's FULL or ACK changes
(R63). The reply of a command whose mailbox has none waiting and whose reply mailbox is empty stands there at once, word for word; one not
wanted is not made (R69, R73). Where the rules leave more than one reading it is the model's choice (log entry 18). -/
def Obligations.MailboxAnswers : Prop :=
  (∀ (s : State) (i : Instr) (mb : Nat) (sp : CmdSpec), commandOf i = some (mb, sp) →
    s.startable mb = true → (s.msg mb).code = sp.code → headerCheck [sp.code] (s.msg mb) = none → 16 ≤ s.queued mb →
    (s.msg mb).replyWanted = true → exec i s = .next (afterCommand i ((s.acknowledge (s.msg mb) .BUSY).takeId))) ∧
  (∀ (s : State) (mb : Nat) (rc : RetCode), s.RegsWf → mb < 8 ∨ (16 ≤ mb ∧ mb < 20) →
    let t := s.acknowledge (s.msg mb) rc
    t.full mb = false ∧ t.acked mb = true ∧ t.get (R.MBX_ACKCODE mb) F.MBX_ACKCODE_CODE = rc.num ∧
    ∀ m < 32, m ≠ mb → t.full m = s.full m ∧ t.acked m = s.acked m) ∧
  ((∀ (s : State) (mb : Nat) (rc : RetCode) (data : List Word), s.RegsWf → mb < 8 ∨ (16 ≤ mb ∧ mb < 20) →
    s.serving = true → s.pairRuns (pairOf mb) = true → s.outq mb = [] → s.full (replyMb mb) = false → (s.msg mb).replyWanted = true →
    data.length ≤ 61 →
    let t := s.answer (s.msg mb) rc data
    let c := s.msg mb
    t.full (replyMb mb) = true ∧ t.full mb = false ∧
    ∀ k < 3 + data.length, t.rd (mbWordAddr (replyMb mb) k) = (replyWords c.code c.tag c.session rc data).getD k 0) ∧
  (∀ (s : State) (mb : Nat) (rc : RetCode) (data : List Word), (s.msg mb).replyWanted = false →
    s.answer (s.msg mb) rc data = (s.acknowledge (s.msg mb) rc).takeId))

/-- A reply has the header of its command: CODE, TAG and SESSION echoed, FENCE, EXPERT and REPLY_WANTED 0, LENGTH its words; word 2 holds
the return code and data begins at word 3 (R70). -/
def Obligations.ReplyHeader : Prop :=
  ∀ (code tag session : Nat) (rc : RetCode) (data : List Word), code < 2 ^ 16 → tag < 2 ^ 16 → session < 2 ^ 16 → data.length ≤ 61 →
    let ws := replyWords code tag session rc data
    (ws.getD 0 0).bits 31 16 = code ∧ (ws.getD 0 0).bits 7 0 = ws.length ∧ (ws.getD 0 0).bits 10 8 = 0 ∧
    (ws.getD 1 0).bits 31 16 = tag ∧ (ws.getD 1 0).bits 15 0 = session ∧ (ws.getD 2 0).bits 15 0 = rc.num ∧ ws.drop 3 = data

/-! ### Supplies, reset and boot -/

/-- Supplies and power-on reset: a rail that becomes valid joins the valid ones, and VDD_AON in OFF starts the device stamp at 0; reset
releases 2 ms after the last monitored rail with the straps latched, in BOOT; the loss of VDD_AON or of any monitored rail is OFF with its
outputs at high impedance and no register kept, that of VDD_DATUM or VPP_FUSE is not (R98, R99, R706). PERST# takes the link down and
disables every DMA queue, and its release returns the device to BOOT with the straps as they were (R96, R100, R562); the crystal moves the
clocks and the stamp to XTAL no earlier than XTAL_WAIT after the entry to BOOT (R98). The boot ROM starts the first image that passes and
reads READY with its slot and version; a failed image leaves the next ones to try and the device in BOOT (R104). Where the rules leave more
than one reading it is the model's choice (log entries 14, 15, 16 and 22). Says that these rows answer a next state: supplyValid,
powerOnResetRelease, supplyLoss, vddAonLost, perstAssert, perstRelease, xtalStable, bootImageTried, pcieLinkTrained. -/
def Obligations.StartUp : Prop :=
  ((∀ (s : State) (r : Rail), s.sys.rails.contains r = false →
    let now := if r = .vddAon ∧ s.sys.dev = .off then 0 else s.stamp
    let rails := s.sys.rails ++ [r]
    let since := if railsValid rails = true ∧ s.sys.dev = .off then s.sys.allValidAt <|> some now else s.sys.allValidAt
    exec (.supplyValid r) s = .next { s with stamp := now, sys := { s.sys with rails := rails, allValidAt := since } }) ∧
  (∀ (s : State) (b x c p at_ : Nat), s.sys.dev = .off → s.sys.allValidAt = some at_ → b < 4 → x < 4 → c < 2 → p < 4 →
    let t := (s.reach (at_ + 2000000)).powerOn ⟨b, x, c, p⟩
    exec (.powerOnResetRelease b x c p) s = .next t ∧ t.sys.dev = .boot ∧ t.sys.straps = ⟨b, x, c, p⟩ ∧ t.sys.hiZ = false ∧
      t.stamp = max s.stamp (at_ + 2000000)) ∧
  (∀ (s : State) (r : Rail), monitoredRails.contains r = true →
    let v : State := { s with sys := { s.sys with rails := s.sys.rails.filter (· ≠ r) } }
    let t := v.powerLost
    exec (.supplyLoss r) s = .next t ∧ t.dat.island = s.dat.island ∧ t.sys.dev = .off ∧ t.sys.hiZ = true ∧ t.regs = [] ∧ t.store = [] ∧ t.sys.session = none) ∧
  (∀ (s : State) (r : Rail), r = .vddDatum ∨ r = .vppFuse →
    exec (.supplyLoss r) s = .next { s with sys := { s.sys with rails := s.sys.rails.filter (· ≠ r) } }) ∧
  (∀ s : State,
    let v : State := { s with sys := { s.sys with rails := s.sys.rails.filter (· ≠ Rail.vddAon) } }
    let t := v.powerLost
    exec .vddAonLost s = .next t ∧ t.dat.island = s.dat.island ∧ t.sys.dev = .off ∧ t.sys.hiZ = true ∧ t.regs = [] ∧ t.sys.session = none)) ∧
  ((∀ s : State, s.RegsWf → s.sys.dev ≠ .off → s.sys.perst = false →
    let v : State := { s with sys := { s.sys with perst := true } }
    let t := ((List.range 32).foldl (fun v q => (v.setQState q 0).setDmaQ q DmaQ.init) (v.gazInc 2)).pcieDown
    exec .perstAssert s = .next t ∧ t.sys.perst = true ∧ t.get R.PCI_STATUS F.PCI_STATUS_LINK_UP = 0 ∧
      (∀ q < 32, t.qState q = 0) ∧ t.sys.dev = s.sys.dev) ∧
  (∀ s : State, s.sys.dev ≠ .off → s.sys.perst = true →
    let v : State := { s with sys := { s.sys with perst := false } }
    let t := v.enterBoot false
    exec .perstRelease s = .next t ∧ t.sys.perst = false ∧ t.sys.dev = .boot ∧ t.sys.straps = s.sys.straps ∧ t.sys.session = none) ∧
  (∀ s : State, s.RegsWf → s.sys.dev ≠ .off → s.sys.xtalStable = false →
    let v := s.reach (s.sys.bootAt + 4 ^ s.sys.straps.xtalWait * 1000000)
    let v := (v.put R.CKI_STATUS F.CKI_STATUS_XTAL_OK 1).put R.CKI_STATUS F.CKI_STATUS_STAMP_XTAL 1
    let t : State := { v with sys := { v.sys with xtalStable := true } }
    exec .xtalStable s = .next t ∧ t.sys.xtalStable = true ∧ t.get R.CKI_STATUS F.CKI_STATUS_XTAL_OK = 1 ∧
      t.get R.CKI_STATUS F.CKI_STATUS_STAMP_XTAL = 1 ∧
      t.stamp = max s.stamp (s.sys.bootAt + 4 ^ s.sys.straps.xtalWait * 1000000)) ∧
  (∀ (s : State) (speed width : Nat), s.RegsWf → s.endpoint = true → s.get R.PCI_STATUS F.PCI_STATUS_LINK_UP = 0 → 1 ≤ speed → speed ≤ 5 →
    width ∈ [1, 2, 4, 8] → s.host.targetSpeed < 8 →
    let t := s.pcieUp speed width
    exec (.pcieLinkTrained speed width) s = .next t ∧ t.get R.PCI_STATUS F.PCI_STATUS_LINK_UP = 1 ∧
      t.get R.PCI_STATUS F.PCI_STATUS_SPEED = min speed s.host.targetSpeed ∧ t.get R.PCI_STATUS F.PCI_STATUS_WIDTH = width)) ∧
  ((∀ (s : State) (img : Image) (rest : List Image) (v : Word), s.sys.imagesLeft = img :: rest → s.sys.dev = .boot → s.sys.xtalStable = true →
    let k := if s.flag R.MGD_STATUS F.MGD_STATUS_KEYS = true then s else s.drawKeys
    let t := State.enter { k with sys := { k.sys with fwSlot := img, fwVersion := v, imagesLeft := [] } } .ready
    exec (.bootImageTried (.pass v)) s = .next t ∧ t.sys.dev = .ready ∧ t.sys.fwSlot = img ∧ t.sys.fwVersion = v ∧
      t.sys.imagesLeft = []) ∧
  (∀ (s : State) (img : Image) (rest : List Image) (n : Nat), s.sys.imagesLeft = img :: rest → s.sys.dev = .boot → s.sys.xtalStable = true →
    1 ≤ n → n ≤ 4 →
    let k := if s.flag R.MGD_STATUS F.MGD_STATUS_KEYS = true then s else s.drawKeys
    let k := (k.gazInc 68).journal 0x01 (0x10 + n) img.code 0 0
    let k : State := { k with sys := { k.sys with imagesLeft := rest } }
    let t := if rest = [] then k.journal 0x02 0 0 0 0 else k
    exec (.bootImageTried (.fail n)) s = .next t ∧ t.sys.dev = .boot ∧ t.sys.imagesLeft = rest ∧
      s.gaz.journal.length ≤ t.gaz.journal.length))

/-! ### Mailboxes and register accesses -/

/-- A word of a mailbox that its sender may write is stored with an OK response; a sheet's first one claims a fabric mailbox. Word 0 posts
the message: FULL set, ACK cleared. The receiver's acknowledging write sets the code, ACK and clears FULL in one step. A sender clears an
ACK bit by writing 1 to it. A claim ends 100 µs after the sheet's last write (R61, R63, R66). Where the rules leave more than one reading it
is the model's choice (log entry 27). Says that these rows answer a next state: mbxWordWrite, mbxPost, fabricClaimTimeout, mbxAckcodeWrite,
mbxAckClear. -/
def Obligations.MailboxRows : Prop :=
  (∀ (s : State) (m : Master) (mb k : Nat) (v : Word), s.sys.dev ≠ .off → mb < 32 → 1 ≤ k → k < 64 → s.mbxRefuses m mb = false →
    busReach m true (mbWordAddr mb k) = true → s.senderRuns m mb = true →
    exec (.mbxWordWrite m mb k v) s = .next (State.answered m
      ((s.wr (mbWordAddr mb k) v).setClaim mb (match m with | .sheet n => some ⟨n, s.stamp⟩ | _ => none)).busOk)) ∧
  (∀ (s : State) (m : Master) (mb : Nat) (v : Word), s.RegsWf → s.sys.dev ≠ .off → mb < 24 → s.mbxRefuses m mb = false →
    busReach m true (mbWordAddr mb 0) = true → s.senderRuns m mb = true → s.pwr.dorm = .none →
    let t := s.access m (mbWordAddr mb 0) v
    exec (.mbxPost m mb v) s = .next t ∧ t.rd (mbWordAddr mb 0) = v ∧ t.full mb = true ∧ t.acked mb = false ∧
      ∀ n < 32, n ≠ mb → t.full n = s.full n ∧ t.acked n = s.acked n) ∧
  (∀ (s : State) (mb : Nat) (v : Word), s.RegsWf → s.sys.dev = .dormant → s.pwr.dorm = .dormant → mb < 8 → s.full mb = false →
    s.get R.PWR_STATUS F.PWR_STATUS_WAKE_SRC = 0 →
    let t := s.access .host (mbWordAddr mb 0) v
    exec (.mbxPost .host mb v) s = .next t ∧ t.full mb = true ∧ t.pwr.dorm = .exitPower ∧
      t.get R.PWR_STATUS F.PWR_STATUS_WAKE_SRC = 0x11) ∧
  (∀ (s : State) (m : Master) (mb : Nat) (v : Word), s.RegsWf → s.sys.dev ≠ .off → mb < 8 → s.full mb = true → m = .ubtor →
    s.senderRuns m mb = true →
    let t := s.access m (R.MBX_ACKCODE mb) v
    exec (.mbxAckcodeWrite m mb v) s = .next t ∧ t.full mb = false ∧ t.acked mb = true ∧
      t.get (R.MBX_ACKCODE mb) F.MBX_ACKCODE_CODE = v.toNat % 2 ^ 16 ∧ ∀ n < 32, n ≠ mb → t.full n = s.full n) ∧
  (∀ (s : State) (v : Word), s.RegsWf → s.sys.dev ≠ .off →
    let t := s.access .host R.MBX_ACK v
    exec (.mbxAckClear .host v) s = .next t ∧
      ∀ n < 32, t.acked n = (s.acked n && !(decide (n < 8) && v.bit n)) ∧ t.full n = s.full n) ∧
  (∀ (s : State) (mb : Nat) (c : Claim), sget (fun _ => none) s.mbx.claims mb = some c →
    exec (.fabricClaimTimeout mb) s = .next ((s.reach (c.last + 100000)).setClaim mb none))

/-- A post or an acknowledging write that may not be made is rejected: bit n of MBX_REJECT is set, no word, FULL, ACK or code changes, and
the master receives an ERR response; a host's write is also counted and reported as a Completer Abort (R64). A register write that is not a
whole aligned word, that no block answers, or that lies beyond the master's reach is answered ERR and changes nothing but that response
(R18, R19, R54). A register write follows the access codes of Table 0-4: a read-write field takes the value, a read-only one keeps its own,
a write-1-to-clear bit written 1 clears. Shown for THM_CFG (read-write), HALT_CAUSE (read-only) and SHT_STICKY (write 1 to clear). A read of
DEV_STAMP_LO latches the stamp's high half into DEV_STAMP_HI (R82). Where the rules leave more than one reading it is the model's choice
(log entries 25, 26, 60 and 68). Says that these rows answer a next state: mbxWordWrite, mbxPost, devStampLoRead, registerWrite. -/
def Obligations.RegisterWrites : Prop :=
  (∀ (s : State) (m : Master) (mb k : Nat) (v : Word), s.RegsWf → s.sys.dev ≠ .off → mb < 32 → k < 64 → s.mbxRefuses m mb = true →
    busReach m true (mbWordAddr mb k) = true → s.senderRuns m mb = true →
    let t := s.access m (mbWordAddr mb k) v
    exec (if k = 0 then .mbxPost m mb v else .mbxWordWrite m mb k v) s = .next t ∧ t.bit R.MBX_REJECT mb = true ∧
      (∀ a, a ≠ R.MBX_REJECT → a ≠ R.PCI_COUNT 0 → t.rd a = s.rd a) ∧ t.mbx = s.mbx ∧ t.host.mem = s.host.mem ∧
      (m = .host → t.host.aer = s.host.aer ++ [.completerAbort])) ∧
  ((∀ (s : State) (m : Master) (a size : Nat) (v : Word), s.sys.dev ≠ .off → (size ≠ 4 ∨ a % 4 ≠ 0 ∨ busReach m true a = false) →
    exec (.registerWrite m a size v) s = .next (State.answered m s.busErr)) ∧
  (∀ (s : State) (m : Master) (a size : Nat) (v : Word), s.sys.dev = .off → exec (.registerWrite m a size v) s = .next s)) ∧
  ((∀ (s : State) (v : Word), s.RegsWf → s.sys.dev ≠ .off →
    let t := s.access .ubtor R.THM_CFG v
    exec (.registerWrite .ubtor R.THM_CFG 4 v) s = .next t ∧
      t.get R.THM_CFG F.THM_CFG_THROTTLE_C = F.THM_CFG_THROTTLE_C.get v ∧ ∀ a, a ≠ R.THM_CFG → t.rd a = s.rd a) ∧
  (∀ (s : State) (v : Word), s.RegsWf → s.sys.dev ≠ .off →
    let t := s.access .jtag R.HALT_CAUSE v
    exec (.registerWrite .jtag R.HALT_CAUSE 4 v) s = .next t ∧ t.rd R.HALT_CAUSE = s.rd R.HALT_CAUSE ∧
      ∀ a, t.rd a = s.rd a) ∧
  (∀ (s : State) (n i : Nat) (v : Word), s.RegsWf → s.sys.dev ≠ .off → n < 32 → i < 3 →
    let e := sget (fun _ => (0, 0)) s.raised (R.SHT_STICKY n)
    e.2 < 2 ^ 32 →
    let t := s.access (.sheet n) (R.SHT_STICKY n) v
    exec (.registerWrite (.sheet n) (R.SHT_STICKY n) 4 v) s = .next t ∧
      t.bit (R.SHT_STICKY n) i = (s.bit (R.SHT_STICKY n) i && (!v.bit i || (decide (e.1 = s.stamp) && e.2.testBit i))) ∧
      ∀ a, a ≠ R.SHT_STICKY n → t.rd a = s.rd a)) ∧
  (∀ (s : State) (m : Master), s.RegsWf → s.sys.dev ≠ .off → busReach m false R.DEV_STAMP_LO = true →
    let t := s.readBy m R.DEV_STAMP_LO
    exec (.devStampLoRead m) s = .next t ∧ t.rd R.DEV_STAMP_HI = hiWord s.stamp ∧ t.stamp = s.stamp ∧
      ∀ a, a ≠ R.DEV_STAMP_HI → t.rd a = s.rd a)

/-- A write-1-to-clear bit that a hardware event sets stays 1 through every clearing write of the same stamp, which stands for the cycle; a
write at another stamp clears exactly the bits that it writes 1 to (R22). Where the rules leave more than one reading it is the model's
choice (log entry 60). -/
def Obligations.HardwareSetWins : Prop :=
  ∀ (s : State) (k i m : Nat), s.RegsWf → i < 32 → m < 2 ^ 32 →
    ((s.raise k i).clearBits k m).bit k i = true ∧
    ((sget (fun _ => (0, 0)) s.raised k).1 ≠ s.stamp → (s.clearBits k m).bit k i = (s.bit k i && !m.testBit i)) ∧
    (∀ a, a ≠ k → (s.clearBits k m).rd a = s.rd a)

/-! ### SYS commands -/

/-- SYS.STATUS, SYS.ECHO and the register reads return what they name (R84, R85, R93). SYS.REG_WRITE may not write MBX, DAT, GAZ or MGD:
NOT_PERMITTED, and nothing is written (R94). Where the rules leave more than one reading it is the model's choice (log entries 11 and 25).
Says that these rows answer a next state: sysStatus, sysEcho, sysRegRead, sysRegWrite. -/
def Obligations.SysReadsAndWrites : Prop :=
  ((∀ (s : State) (mb : Nat), s.Serves mb spec_SYS_STATUS →
    exec (.sysStatus mb) s = s.done mb s [s.devState, s.sys.fwVersion, s.rd R.HALT_CAUSE, s.rd R.TRIP_CAUSE, loWord s.stamp, hiWord s.stamp,
      s.idleLeft]) ∧
  (∀ (s : State) (mb : Nat), s.Serves mb spec_SYS_ECHO →
    exec (.sysEcho mb) s = s.done mb s ((s.msg mb).rest 2)) ∧
  (∀ (s u : State) (mb : Nat) (ws : List Word), s.Serves mb spec_SYS_REG_READ → 1 ≤ (s.msg mb).n 4 5 0 → (s.msg mb).n 4 5 0 ≤ 61 →
    (∀ a ∈ (s.msg mb).regAddrs, a % 4 = 0 ∧ inBlock a = true) → s.readAll (s.msg mb).regAddrs = some (ws, u) →
    (s.ubtorWaits (s.msg mb).regAddrs = none → exec (.sysRegRead mb) s = s.done mb u ws) ∧
    (∀ j, s.ubtorWaits (s.msg mb).regAddrs = some j → exec (.sysRegRead mb) s = .next (s.holdRequest j))) ∧
  (∀ (s u : State) (mb : Nat), s.Serves mb spec_SYS_REG_WRITE → 1 ≤ (s.msg mb).n 4 5 0 → (s.msg mb).n 4 5 0 ≤ 59 →
    (s.msg mb).length = 5 + (s.msg mb).n 4 5 0 → (∀ a ∈ (s.msg mb).regAddrs, a % 4 = 0 ∧ inBlock a = true ∧ noRegWrite a = false) →
    s.writeAll (s.msg mb).regWrites = some u →
    (s.ubtorWaits (s.msg mb).regAddrs = none → exec (.sysRegWrite mb) s = s.done mb u) ∧
    (∀ j, s.ubtorWaits (s.msg mb).regAddrs = some j → exec (.sysRegWrite mb) s = .next (s.holdRequest j)))) ∧
  (∀ (s : State) (mb : Nat), s.Serves mb spec_SYS_REG_WRITE → 1 ≤ (s.msg mb).n 4 5 0 → (s.msg mb).n 4 5 0 ≤ 59 →
    (s.msg mb).length = 5 + (s.msg mb).n 4 5 0 → (∀ a ∈ (s.msg mb).regAddrs, a % 4 = 0 ∧ inBlock a = true) →
    (∃ a ∈ (s.msg mb).regAddrs, noRegWrite a = true) →
    exec (.sysRegWrite mb) s = .next (s.answer (s.msg mb) .NOT_PERMITTED []))

/-- SYS.RESET with its key is answered DONE and falls due 10 µs after the acknowledgement, when the device enters BOOT; SYS.CAUSE_CLEAR
clears the causes it names (R88, R89). Where the rules leave more than one reading it is the model's choice (log entry 16). Says that these
rows answer a next state: sysReset, sysResetDelayExpiry, sysCauseClear. -/
def Obligations.SysResetAndCauses : Prop :=
  (∀ (s : State) (mb : Nat), s.Serves mb spec_SYS_RESET → (s.msg mb).n 2 15 0 = 0xB007 → s.sys.resetAt = none →
    exec (.sysReset mb) s = s.done mb { s with sys := { s.sys with resetAt := some (s.stamp + 10000) } }) ∧
  (∀ (s : State) (mb : Nat), s.Serves mb spec_SYS_RESET → (s.msg mb).n 2 15 0 ≠ 0xB007 →
    exec (.sysReset mb) s = .next (s.answer (s.msg mb) .BAD_FIELD [])) ∧
  (∀ (s : State) (at_ : Nat), s.sys.resetAt = some at_ →
    let t := (s.reach at_).enterBoot true
    exec .sysResetDelayExpiry s = .next t ∧ t.sys.dev = .boot ∧ at_ ≤ t.stamp ∧ t.sys.resetAt = none ∧ t.sys.session = none ∧
      t.svy.committed = false ∧ t.mbx.open_ = [] ∧ t.streams = []) ∧
  (∀ (s : State) (mb : Nat), s.Serves mb spec_SYS_CAUSE_CLEAR →
    exec (.sysCauseClear mb) s =
      s.done mb (let u := if (s.msg mb).b 2 1 then s.wr R.TRIP_CAUSE 0 else s
                 if (s.msg mb).b 2 0 then u.wr R.HALT_CAUSE 0 else u))

/-- An expert session opens when the survey's POLICY allows it and none is open: its identifier is 16 bits, not 0 and not the previous
session's, its idle timeout 600 s unless given. It closes by its identifier, or by its timeout, which is reported as event 0x71 (R78 to R80,
R90, R91). SYS.FW_UPDATE of the slot that does not run is accepted, and ends with the outcome of its fetch, its signature or its write;
PREFER takes effect once the slot is written. Where the rules leave more than one reading it is the model's choice (log entries 10 and 22).
Says that these rows answer a next state: sessionIdleTimeout, sysExpertOpen, sysExpertClose, sysFwUpdate, fwUpdateComplete. -/
def Obligations.SessionsAndFirmware : Prop :=
  ((∀ (s : State) (mb : Nat), s.Serves mb spec_SYS_EXPERT_OPEN → (s.msg mb).n 2 15 0 ≤ 3600 → s.policy 0 = true → s.sys.session = none →
    ∃ (u : State) (id : Nat), exec (.sysExpertOpen mb) s = s.done mb u [word id] ∧ 1 ≤ id ∧ id < 2 ^ 16 ∧ id ≠ s.sys.prevSession ∧
      u.sys.session = some ⟨id, if (s.msg mb).n 2 15 0 = 0 then 600 else (s.msg mb).n 2 15 0, s.stamp⟩ ∧ u.regs = s.regs) ∧
  (∀ (s : State) (mb : Nat) (e : Session), s.Serves mb spec_SYS_EXPERT_CLOSE → s.sys.session = some e → (s.msg mb).n 2 15 0 = e.id →
    exec (.sysExpertClose mb) s = s.done mb { s with sys := { s.sys with session := none, prevSession := e.id } }) ∧
  (∀ (s : State) (e : Session), s.sys.session = some e → s.mbx.pairsInReset.contains 0 = false →
    exec .sessionIdleTimeout s =
      .next ({ s.reach (e.lastAck + e.idleS * 1000000000) with
        sys := { s.sys with session := none, prevSession := e.id } }.report 0x71 0))) ∧
  ((∀ (s : State) (mb : Nat), s.Serves mb spec_SYS_FW_UPDATE → (s.msg mb).n 2 11 0 = 0 → 0 < ((s.msg mb).w 4).toNat →
    ((s.msg mb).w 4).toNat ≤ 0x800000 → imageSlot ((s.msg mb).b 5 0) ≠ s.sys.fwSlot → s.sys.fwUpdate = none →
    exec (.sysFwUpdate mb) s =
      s.taken mb { s with sys := { s.sys with fwUpdate := some (s.msg mb).id } } [(s.msg mb).n 5 1 0, ((s.msg mb).w 4).toNat]) ∧
  (∀ (s : State) (id : Nat) (c : OpenCmd) (arg : Nat) (image : List Byte), s.sys.fwUpdate = some id →
    s.openById id = some c → c.args = [arg, image.length] →
    let s' := { s with sys := { s.sys with fwUpdate := none } }
    exec (.fwUpdateComplete .fetchFailed) s = .next (s'.complete id .BUSY) ∧
    (Config.fwVerifies image = false →
      exec (.fwUpdateComplete (.fetched image)) s = .next ((s'.stageImage image).complete id .AUTH_FAILED)) ∧
    (Config.fwVerifies image = true →
      let w := (s'.stageImage image).flashWrite (imageSlot (arg % 2 == 1)).region image
      exec (.fwUpdateComplete (.fetched image)) s =
        .next ((if 2 ≤ arg then { w with sys := { w.sys with prefer := imageSlot (arg % 2 == 1) } } else w).complete id .DONE))))

/-- SYS.STATE: the host orders QUIET from ON-AIR or CHARTED, and CHARTED or DORMANT from QUIET. QUIET and CHARTED are reached at once: the
command is answered ACCEPTED and its completion follows; DORMANT starts its entry. Any other order is NOT_PERMITTED (R86, R87). Where the
rules leave more than one reading it is the model's choice (log entries 20 and 21). Says that these rows answer a next state: sysState. -/
def Obligations.StateOrders : Prop :=
  (∀ (s : State) (mb : Nat), s.Serves mb spec_SYS_STATE → (s.msg mb).host = true → s.pwr.dorm = .none → s.openOf 0x0103 = none →
    ((s.msg mb).n 2 1 0 = 0 → s.sys.dev = .onAir ∨ s.sys.dev = .charted →
      exec (.sysState mb) s = .next (s.enterQuiet.accept (s.msg mb) [5]).stateReached) ∧
    ((s.msg mb).n 2 1 0 = 1 → s.sys.dev = .quiet →
      exec (.sysState mb) s = .next ((s.enter .charted).lanesMove.fitRails.accept (s.msg mb) [3]).stateReached) ∧
    ((s.msg mb).n 2 1 0 = 2 → s.sys.dev = .quiet →
      exec (.sysState mb) s = .next ((s.dormantEntry (s.msg mb).id).accept (s.msg mb) []).stateReached)) ∧
  (∀ (s : State) (mb : Nat), s.Serves mb spec_SYS_STATE → (s.msg mb).n 2 1 0 < 3 →
    ((s.msg mb).host = false ∨ s.mayEnter ((s.msg mb).n 2 1 0) = false) →
    exec (.sysState mb) s = .next (s.answer (s.msg mb) .NOT_PERMITTED []).stateReached)

/-- A message that fails the header checks is answered BAD_LENGTH or BAD_COMMAND and has no other effect (R72). A pair whose cores disagree
resets, and reports event 0x01 when it resumes (R56). Where the rules leave more than one reading it is the model's choice (log entry 19).
Says that these rows answer a next state: lockstepDisagreement, lockstepPairResume, undefinedCommand. -/
def Obligations.HeadersAndLockstep : Prop :=
  (∀ (s : State) (mb : Nat) (rc : RetCode), s.startable mb = true → headerCheck commandCodes (s.msg mb) = some rc → s.queued mb < 16 →
    exec (.undefinedCommand mb) s = .next (s.answer (s.msg mb) rc []) ∧ (rc = .BAD_LENGTH ∨ rc = .BAD_COMMAND)) ∧
  (∀ (s : State) (pair : Nat) (cut : Bool), pair < 4 → s.pairRuns pair = true → s.serving = true →
    let held := cut && commandMbs.any (fun m => decide (pairOf m = pair) && s.holds m)
    let t : State := { s with mbx := { s.mbx with
      pairsInReset := s.mbx.pairsInReset ++ [pair], pairsCut := if held then s.mbx.pairsCut ++ [pair] else s.mbx.pairsCut } }
    exec (.lockstepDisagreement pair cut) s = .next t ∧ ∀ mb, pairOf mb = pair → t.startable mb = false) ∧
  (∀ (s : State) (pair : Nat), s.mbx.pairsInReset.contains pair = true →
    let v : State := { s with mbx := { s.mbx with
      pairsInReset := s.mbx.pairsInReset.filter (· ≠ pair), pairsCut := s.mbx.pairsCut.filter (· ≠ pair) } }
    (s.mbx.pairsCut.contains pair = false → exec (.lockstepPairResume pair) s = .next ((v.pairResumes pair).report 0x01 pair [])) ∧
    (s.mbx.pairsCut.contains pair = true → exec (.lockstepPairResume pair) s =
      .next ((v.pairResumes pair).report 0x01 pair [] [(8, 5, 6)])))

/-! ### The survey -/

/-- The staged survey: SURVEY.LOAD stores its words from the offset it names, SURVEY.ABORT discards them, SURVEY.COMMIT in READY is accepted
and judges them; while a commit runs each is BUSY and after one REFUSED_IN_USE (R113 to R115). A commit ends: one that failed a check of
Table 3-8 completes SURVEY_INVALID with the check's DETAIL and place, one whose hardware disagrees completes SURVEY_MISMATCH, and neither
leaves a survey in force; one that passes has the staged words and records in force (R108, R109). SURVEY.STATUS, SURVEY.READ and
SURVEY.MISMATCH return the survey's status, its committed words and its mismatches, and change nothing else (R116 to R118). Where the rules
leave more than one reading it is the model's choice (log entries 23 and 24). Says that these rows answer a next state: surveyLoad,
surveyCommit, surveyCommitComplete, surveyAbort, surveyStatus, surveyRead, surveyMismatch. -/
def Obligations.SurveyCommands : Prop :=
  ((∀ (s : State) (mb : Nat), s.Serves mb spec_SURVEY_LOAD → (s.msg mb).n 2 15 0 % 4 = 0 →
    (s.msg mb).n 2 15 0 + 4 * ((s.msg mb).length - 3) ≤ 65536 → s.svy.committing = false → s.svy.committed = false →
    ∃ u, exec (.surveyLoad mb) s = s.done mb u ∧ u.regs = s.regs ∧ u.svy.committed = false ∧
      (swf (fun _ => (0 : Word)) s.svy.staged = true →
        ∀ i < (s.msg mb).length - 3, sget (fun _ => 0) u.svy.staged ((s.msg mb).n 2 15 0 / 4 + i) = (s.msg mb).w (3 + i))) ∧
  (∀ (s : State) (mb : Nat), s.Serves mb spec_SURVEY_ABORT → s.svy.committing = false → s.svy.committed = false →
    exec (.surveyAbort mb) s = s.done mb { s with svy := { s.svy with staged := [], written := [] } }) ∧
  (∀ (s : State) (mb : Nat), s.Serves mb spec_SURVEY_COMMIT → s.sys.dev = .ready → s.svy.committing = false → s.svy.committed = false →
    exec (.surveyCommit mb) s = s.taken mb { s with svy := { s.svy with committing := true } }
      (match s.svy.check ((s.msg mb).w 2) with | some d => [d.1, d.2] | none => [])) ∧
  (∀ (s : State) (mb : Nat), s.Serves mb spec_SURVEY_ABORT → s.svy.committing = true →
    exec (.surveyAbort mb) s = .next (s.answer (s.msg mb) .BUSY [])) ∧
  (∀ (s : State) (mb : Nat), s.Serves mb spec_SURVEY_ABORT → s.svy.committing = false → s.svy.committed = true →
    exec (.surveyAbort mb) s = .next (s.answer (s.msg mb) .REFUSED_IN_USE []))) ∧
  ((∀ (s : State) (h : CommitSeen) (o : OpenCmd) (d a : Nat), s.mbx.pairsInReset.contains 0 = false → s.openOf 0x0202 = some o → s.svy.committing = true → o.args = [d, a] →
    exec (.surveyCommitComplete h) s =
      .next ({ s with svy := { s.svy with committing := false, lastDetail := d } }.complete o.id .SURVEY_INVALID [word d, word a])) ∧
  (∀ (s : State) (h : CommitSeen) (o : OpenCmd) (m : Mismatch), s.mbx.pairsInReset.contains 0 = false → s.openOf 0x0202 = some o → s.svy.committing = true → o.args = [] →
    hardwareFails (s.svy.parse.1.filter (fun r => typeKnown r.type)) (s.sys.straps.bootSrc.testBit 0) h = some m →
    let v : State := { s with svy := { s.svy with committing := false } }
    let v := v.mismatch m.type m.item m.kind m.expected m.found
    let t := State.complete { v with svy := { v.svy with lastDetail := m.kind } } o.id .SURVEY_MISMATCH [word m.kind, 0]
    exec (.surveyCommitComplete h) s = .next t ∧ t.svy.committed = s.svy.committed ∧ t.svy.committing = false ∧ t.svy.lastDetail = m.kind ∧
      t.svy.words = s.svy.words) ∧
  (∀ (s : State) (h : CommitSeen) (o : OpenCmd), s.mbx.pairsInReset.contains 0 = false → s.openOf 0x0202 = some o → s.svy.committing = true → o.args = [] →
    hardwareFails (s.svy.parse.1.filter (fun r => typeKnown r.type)) (s.sys.straps.bootSrc.testBit 0) h = none →
    let ws := (List.range (s.svy.total / 4)).map (fun i => word (s.svy.word i))
    let recs := s.svy.parse.1.filter (fun r => typeKnown r.type)
    let v : State := { s with svy := { s.svy with committing := false, committed := true, words := ws, recs := recs, siteId := word (s.svy.word 3) } }
    let t := ((v.strapCheck.surveyInForce h.rate).complete o.id .DONE [0, 0]).castonAtCommit
    exec (.surveyCommitComplete h) s = .next t ∧ t.svy.committed = true ∧ t.svy.committing = false ∧
      t.svy.recs = s.svy.parse.1.filter (fun r => typeKnown r.type) ∧
      t.svy.words = (List.range (s.svy.total / 4)).map (fun i => word (s.svy.word i)))) ∧
  ((∀ (s : State) (mb : Nat), s.Serves mb spec_SURVEY_STATUS →
    let v := s.svy
    let st := s.sys.straps
    exec (.surveyStatus mb) s = s.done mb s
      [word (b2n v.committed * 2 ^ 31 + b2n v.committing * 2 ^ 30 + v.lastDetail * 2 ^ 16 + v.written.length), v.siteId,
       word (b2n v.overflow * 2 ^ 16 + v.mismatches.length * 2 ^ 8 + F.DAT_STATUS_CAL.get (s.datReg .ubtor R.DAT_STATUS) * 2 ^ 7 +
         st.ioPull * 2 ^ 5 + st.cascadeMaster * 2 ^ 4 + st.xtalWait * 2 ^ 2 + st.bootSrc)]) ∧
  (∀ (s : State) (mb : Nat), s.Serves mb spec_SURVEY_READ → (s.msg mb).n 2 15 0 % 4 = 0 → 1 ≤ (s.msg mb).n 3 5 0 → (s.msg mb).n 3 5 0 ≤ 61 →
    (s.msg mb).n 2 15 0 + 4 * (s.msg mb).n 3 5 0 ≤ 4 * s.svy.words.length →
    exec (.surveyRead mb) s = s.done mb s ((s.svy.words.drop ((s.msg mb).n 2 15 0 / 4)).take ((s.msg mb).n 3 5 0))) ∧
  (∀ (s : State) (mb : Nat), s.Serves mb spec_SURVEY_MISMATCH →
    ∃ ws : List Word, exec (.surveyMismatch mb) s = s.done mb s (word (min 30 (s.svy.mismatches.length - (s.msg mb).n 2 5 0)) :: ws) ∧
      ws.length = 2 * min 30 (s.svy.mismatches.length - (s.msg mb).n 2 5 0)))

/-! ### Stitch tile operations (Table 4-4) -/

/-- The multiply-accumulate rows: CMAC, RMAC and QMAC add their products, negated with NEG, to accumulator DST[1:0] three cycles later; CMUL
narrows a complex product into the destination; ACCRD narrows an accumulator into the destination and clears it with CLR (R131). The
butterflies: BFLY2 gives 2¹⁵x₀ ± x₁W(k) narrowed, in DST and DST + 1; BFLY4 the four radix-4 sums of x₀, x₁W(k), x₂W(2k), x₃W(3k) in DST to
DST + 3; INV conjugates the twiddles and j; TWR gives the twiddle itself (R132, R133). Where the rules leave more than one reading it is the
model's choice (log entries 28 and 64). Says that these rows answer a next state: cmac, cmul, rmac, qmac, accrd, bfly2, bfly4, twr. -/
def Obligations.TileProducts : Prop :=
  (∀ (s : State) (t u : Nat),
  (s.Issues t u 0x01 → exec (.cmac t u) s = s.runs t u (fun e =>
    let v := cMul (cOf e.a) (if e.w.m 1 then cConj (cOf e.b) else cOf e.b)
    e.gains (negIf (e.w.m 0) v.1) (negIf (e.w.m 0) v.2))) ∧
  (s.Issues t u 0x02 → exec (.cmul t u) s = s.runs t u (fun e =>
    let r := cNarrow e.w.rnd e.w.shf (cMul (cOf e.a) (if e.w.m 1 then cConj (cOf e.b) else cOf e.b))
    e.gives 3 r.1 e.ab r.2)) ∧
  (s.Issues t u 0x03 → exec (.rmac t u) s = s.runs t u (fun e =>
    e.gains (negIf (e.w.m 0) (lane 16 e.a 0 * lane 16 e.b 0)) (negIf (e.w.m 0) (lane 16 e.a 1 * lane 16 e.b 1)))) ∧
  (s.Issues t u 0x04 → exec (.qmac t u) s = s.runs t u (fun e =>
    e.gains (negIf (e.w.m 0) (lane 8 e.a 0 * lane 8 e.b 0 + lane 8 e.a 1 * lane 8 e.b 1))
      (negIf (e.w.m 0) (lane 8 e.a 2 * lane 8 e.b 2 + lane 8 e.a 3 * lane 8 e.b 3)))) ∧
  (s.Issues t u 0x05 → exec (.accrd t u) s = s.runs t u (fun e =>
    let r := cNarrow e.w.rnd e.w.shf (e.acc (e.w.a % 4))
    { e.gives 2 r.1 [e.w.a % 4] r.2 with clear := if e.w.m 2 then some (e.w.a % 4) else none }))) ∧
  (∀ (s : State) (t u : Nat),
  (s.Issues t u 0x06 → exec (.bfly2 t u) s = s.runs t u (fun e =>
    let x := cMul (cOf e.b) (e.tw (e.c.toNat % 4096))
    let p := cNarrow e.w.rnd e.w.shf (cAdd (cScale 32768 (cOf e.a)) x)
    let q := cNarrow e.w.rnd e.w.shf (cSub (cScale 32768 (cOf e.a)) x)
    { e.gives 3 p.1 (e.ab ++ codeBanks e.w.c) (p.2 || q.2) with
      lands := [(3, .reg e.w.dst p.1 true), (3, .reg (e.w.dst + 1) q.1 false)] })) ∧
  (s.Issues t u 0x07 → exec (.bfly4 t u) s = s.runs t u (fun e =>
    let k := e.c.toNat % 4096
    let y0 := cScale 32768 (cOf (e.a 0))
    let y1 := cMul (cOf (e.a 1)) (e.tw k)
    let y2 := cMul (cOf (e.a 2)) (e.tw (2 * k))
    let y3 := cMul (cOf (e.a 3)) (e.tw (3 * k))
    let j (z : Cpx) : Cpx := if e.w.m 3 then cScale (-1) (cJ z) else cJ z
    let r0 := cNarrow e.w.rnd e.w.shf (cAdd (cAdd y0 y1) (cAdd y2 y3))
    let r1 := cNarrow e.w.rnd e.w.shf (cAdd (cSub (cSub y0 (j y1)) y2) (j y3))
    let r2 := cNarrow e.w.rnd e.w.shf (cSub (cAdd (cSub y0 y1) y2) y3)
    let r3 := cNarrow e.w.rnd e.w.shf (cSub (cSub (cAdd y0 (j y1)) y2) (j y3))
    { e.gives 6 r0.1 (groupBanks e.w.a 4 ++ codeBanks e.w.c) (r0.2 || (r1.2 || (r2.2 || r3.2))) with
      lands := [(6, .reg (e.w.dst + 0) r0.1 true), (6, .reg (e.w.dst + 1) r1.1 false), (6, .reg (e.w.dst + 2) r2.1 false),
        (6, .reg (e.w.dst + 3) r3.1 false)] })) ∧
  (s.Issues t u 0x16 → exec (.twr t u) s = s.runs t u (fun e =>
    let z := if e.w.m 3 then cConj (twiddle (e.a.toNat % 4096)) else twiddle (e.a.toNat % 4096)
    e.gives 2 (pack16 z.1 z.2) (codeBanks e.w.a))))

/-- The lane rows: ADD, SUB, SRS and SLS work lane by lane and saturate, setting SAT; SEL takes a or b by a predicate; CONJ negates Q; CMP
writes a predicate; MOVI replaces one half; NORM counts redundant sign bits; LUT16 interpolates a table of tile memory; NOP does nothing
(R130, R134, R135). The binary32 rows: FADD, FSUB, FMUL and FRSQ give their rounded result four cycles later and set FPINV on an invalid
operation; FCVT converts between a 16-bit lane and binary32 in two (R136, R137). Where the rules leave more than one reading it is the
model's choice (log entries 12, 28, 29 and 64). Says that these rows answer a next state: add, sub, srs, sls, cmp, sel, conj, norm, lut16,
movi, fadd, fsub, fmul, frsq, fcvt, nop. -/
def Obligations.TileLanesAndFloat : Prop :=
  (∀ (s : State) (t u : Nat),
  (s.Issues t u 0x08 → exec (.add t u) s = s.runs t u (fun e =>
    let r := perLane e.w.ty (fun x y => x + y) e.a e.b
    e.gives 1 r.1 e.ab r.2)) ∧
  (s.Issues t u 0x09 → exec (.sub t u) s = s.runs t u (fun e =>
    let r := perLane e.w.ty (fun x y => x - y) e.a e.b
    e.gives 1 r.1 e.ab r.2)) ∧
  (s.Issues t u 0x0A → exec (.srs t u) s = s.runs t u (fun e =>
    let r := perLane e.w.ty (fun x _ => shiftRound e.w.rnd x e.w.shf) e.a 0
    e.gives 1 r.1 (codeBanks e.w.a) r.2)) ∧
  (s.Issues t u 0x0B → exec (.sls t u) s = s.runs t u (fun e =>
    let r := perLane e.w.ty (fun x _ => x * 2 ^ e.w.shf) e.a 0
    e.gives 1 r.1 (codeBanks e.w.a) r.2)) ∧
  (s.Issues t u 0x0C → exec (.cmp t u) s = s.runs t u (fun e =>
    { e.gives 1 0 e.ab false (decide (6 ≤ u) && decide (e.w.ty = 3) && (isSNaN e.a || isSNaN e.b || (decide (2 ≤ e.w.ag) &&
        (decide (f32Of e.a = .nan) || decide (f32Of e.b = .nan))))) with
      lands := [(1, .pred (e.w.dst % 8) (cmpWords e.w.ty e.w.ag (decide (6 ≤ u)) e.a e.b))] })) ∧
  (s.Issues t u 0x0D → exec (.sel t u) s = s.runs t u (fun e =>
    e.gives 1 (if e.x.pred u (e.w.c % 8) then e.a else e.b) e.ab)) ∧
  (s.Issues t u 0x0E → exec (.conj t u) s = s.runs t u (fun e =>
    let q := narrow 16 (-lane 16 e.a 1)
    e.gives 1 (pack16 (lane 16 e.a 0) q.1) (codeBanks e.w.a) q.2)) ∧
  (s.Issues t u 0x0F → exec (.norm t u) s = s.runs t u (fun e =>
    if e.w.m 5 then e.gives 1 (word (min (redundantSigns 40 (e.acc (e.w.a % 4)).1) (redundantSigns 40 (e.acc (e.w.a % 4)).2))) [e.w.a % 4]
    else
      let w := laneWidth e.w.ty
      e.gives 1 (word ((List.range (32 / w)).foldl (fun m i => min m (redundantSigns w (lane w e.a i))) (w - 1))) (codeBanks e.w.a))) ∧
  (s.Issues t u 0x10 →
    let e := s.opCtx t u
    let x := (lane 16 e.a 0 + 32768).toNat
    let addr := (64 * (e.w.imm % 2048) + 4 * (x / 2 ^ (16 - e.w.shf))) % 131072
    let eff (v : Word) : OpEff :=
      let r := narrow 16 (lane 16 v 0 + shiftRound e.w.rnd (lane 16 v 1 * ((x % 2 ^ (16 - e.w.shf) : Nat) : Int)) (16 - e.w.shf))
      { e.gives 4 (word (unsgn 16 r.1)) (codeBanks e.w.a) r.2 with banks := [addr / 8 % 16] }
    let good := e.s.applyEff t u (eff (e.s.tmem32 t addr))
    exec (.lut16 t ⟨u, 0⟩) s = .next (good.slotIssued t u) ∧
    exec (.lut16 t ⟨u, 1⟩) s = .next ((good.report 0x10 t).slotIssued t u) ∧
    ∀ free : BitVec 64, free = Config.freeWord e.s.free →
      exec (.lut16 t ⟨u, 2⟩) s =
        .next (((({ e.s with free := e.s.free + 1 }.applyEff t u (eff (free.setWidth 32))).tmemEcc t addr 2)).slotIssued t u)) ∧
  (s.Issues t u 0x15 → exec (.movi t u) s = s.runs t u (fun e =>
    e.gives 1 (if e.w.m 5 then (Fld.mk 31 16).put (e.reg e.w.dst) e.w.imm else (Fld.mk 15 0).put (e.reg e.w.dst) e.w.imm) [])) ∧
  (s.Issues t u 0x00 → exec (.nop t u) s = s.runs t u (fun e => { e.gives 1 0 [] with lands := [] }))) ∧
  (∀ (s : State) (t u : Nat),
  (s.Issues t u 0x20 → exec (.fadd t u) s = s.runs t u (fun e =>
    let r := f32Add (f32Of e.a) (f32Of e.b)
    e.gives 4 r.1 e.ab false (r.2 || isSNaN e.a || isSNaN e.b))) ∧
  (s.Issues t u 0x21 → exec (.fsub t u) s = s.runs t u (fun e =>
    let r := f32Add (f32Of e.a) (f32Of e.b).neg
    e.gives 4 r.1 e.ab false (r.2 || isSNaN e.a || isSNaN e.b))) ∧
  (s.Issues t u 0x22 → exec (.fmul t u) s = s.runs t u (fun e =>
    let r := f32Mul (f32Of e.a) (f32Of e.b)
    e.gives 4 r.1 e.ab false (r.2 || isSNaN e.a || isSNaN e.b))) ∧
  (s.Issues t u 0x23 → exec (.frsq t u) s = s.runs t u (fun e =>
    let r := frsq (e.w.m 5) e.a e.b
    e.gives 4 r.1 e.ab false r.2)) ∧
  (s.Issues t u 0x24 → exec (.fcvt t u) s = s.runs t u (fun e =>
    if e.w.m 0 then
      let r := f32ToInt e.a e.w.shf
      e.gives 2 ((if e.w.m 5 then Fld.mk 31 16 else Fld.mk 15 0).put (e.reg e.w.dst) (unsgn 16 r.1)) (codeBanks e.w.a) r.2.1 r.2.2
    else e.gives 2 (f32OfInt (lane 16 e.a (if e.w.m 5 then 1 else 0)) e.w.shf) (codeBanks e.w.a))))

/-- The memory and stream rows: LD reads tile memory at its generator's address (a corrected word is reported, an uncorrectable one is
reported and reads as an open value), ST stores there at the end of the cycle, SIN takes the next element of an input channel (at a seam a
gap of COUNT 0, the seam staying), SOUT hands an element to its output channel, sending the one held there when its channel wins the port
(R139, R140, R155). A stalled cycle, a slot that another unit's opcode fills, or a tile that may not issue: nothing issues (R138, R146).
Where the rules leave more than one reading it is the model's choice (log entries 8, 28 and 64). Says that these rows answer a next state:
cmac, add, ld, st, sin, sout, fmul, nop. -/
def Obligations.TileMemoryAndSlots : Prop :=
  (∀ (s : State) (t u : Nat),
  (∀ free : BitVec 64,
    let e := s.opCtx t u
    let a := e.s.agAddr t e.p e.x (e.w.ag % 8)
    let eff (w8lo w8hi w4 : Word) : OpEff :=
      { e.gives 3 0 [] with
        lands := if e.w.m 4 then [(3, .reg e.w.dst w8lo true), (3, .reg (e.w.dst + 1) w8hi false)] else [(3, .reg e.w.dst w4 true)],
        ag := some (e.w.ag % 8), banks := [a / 8 % 16] }
    let good := eff (e.s.tmem32 t (a / 8 * 8)) (e.s.tmem32 t (a / 8 * 8 + 4)) (e.s.tmem32 t a)
    s.Issues t u 0x11 →
      exec (.ld t u 0) s = .next ((e.s.applyEff t u good).slotIssued t u) ∧
      exec (.ld t u 1) s = .next (((e.s.applyEff t u good).report 0x10 t).slotIssued t u) ∧
      (free = Config.freeWord e.s.free →
        exec (.ld t u 2) s = .next ((({ e.s with free := e.s.free + 1 }.applyEff t u
          (eff (free.setWidth 32) ((free >>> 32).setWidth 32) (free.setWidth 32))).tmemEcc t
            ({ e.s with free := e.s.free + 1 }.agAddr t e.p e.x (e.w.ag % 8)) 2).slotIssued t u))) ∧
  (s.Issues t u 0x12 → exec (.st t u) s = s.runs t u (fun e =>
    let a := e.s.agAddr t e.p e.x (e.w.ag % 8)
    let st := if e.w.m 4 then (a / 8 * 8, bytesOfWord (e.a 0) ++ bytesOfWord (e.a 1)) else (a / 4 * 4, bytesOfWord (e.a 0))
    { e.gives 1 0 (groupBanks e.w.a (if e.w.m 4 then 2 else 1)) with lands := [], store := some st, ag := some (e.w.ag % 8), banks := [a / 8 % 16] })) ∧
  (s.Issues t u 0x13 → ∀ (v : Elem) (rest : List Elem),
    let e := s.opCtx t u
    let key := e.s.icKey t e.p (e.w.ag % 4)
    e.x.held key = v :: rest →
    (v.isSeam = false →
      exec (.sin t u) s = .next (((e.s.takeIn t key).applyEff t u (effSin (e.w.ag % 4) v e)).slotIssued t u)) ∧
    (v.isSeam = true →
      let w := e.s.walCount t 4
      let w := match w.feedStream t key with | some n => w.report 0x30 n | none => w
      exec (.sin t u) s = .next ((w.applyEff t u (effSin (e.w.ag % 4) (mkGap 0) e)).slotIssued t u))) ∧
  (s.Issues t u 0x14 →
    let e := s.opCtx t u
    let v := e.soutElem
    let w := e.s.applyEff t u { e.gives 1 0 (groupBanks e.w.a 2) with lands := [] }
    let w := if v.2 then w.walCount t 4 else w
    (w.ocKey t e.p (e.w.ag % 4) = none → exec (.sout t u) s = .next (w.slotIssued t u)) ∧
    ∀ key : Nat, w.ocKey t e.p (e.w.ag % 4) = some key →
      ((w.tile t).out key = [] → exec (.sout t u) s = .next ((w.setOut t key [v.1]).slotIssued t u)) ∧
      ∀ (old : Elem) (more : List Elem), (w.tile t).out key = old :: more →
        (w.portWins t (key / 4) (key % 4) = true → exec (.sout t u) s = .next
          ((((w.setOut t key (more ++ [v.1])).linkSend t (key / 4) (key % 4) old).portMoves t (key / 4) (key % 4)).slotIssued t u)) ∧
        (w.portWins t (key / 4) (key % 4) = false → exec (.sout t u) s = .next ((w.queueOut t key v.1).slotIssued t u)))) ∧
  (∀ (s : State) (t u : Nat), (s.tileReady t = false ∨ 8 ≤ u ∨ (s.tile t).issued.contains u = true) →
    exec (.add t u) s = .next s ∧ exec (.cmac t u) s = .next s ∧ exec (.st t u) s = .next s ∧ exec (.ld t u 0) s = .next s ∧
    exec (.sin t u) s = .next s ∧ exec (.sout t u) s = .next s ∧ exec (.fmul t u) s = .next s ∧ exec (.nop t u) s = .next s)

/-! ### Stitch: memory from outside, links, gates, switches, shifts and the WAL commands -/

/-- An outside access that has waited takes its bank: a write's bytes are stored, an ECC event of a read is reported, an uncorrectable one
with its address and the last seam, at which the tile is handed over. LOCK in WAL_CTRL sets; a write of WAL_SWITCH with GO orders a switch
at the present stamp (R142, R156). Elements and credits between tiles: an output sends its first ready channel's element from its pointer,
which then stands after that channel; a freed place's credit goes back to the neighbour; a gate channel moves one element between its stream
and its wale (R149 to R151, R154). Switch edges and shifts: a drained token's switch takes effect; the first waiting order of a wale is
performed at its edge; a shift's copy ends with SHIFT_AT at its new value and WAL.SHIFT completed (R157 to R160, R163). Where the rules
leave more than one reading it is the model's choice (log entries 28, 30 and 64). Says that these rows answer a next state:
outsideAccessWaitExpiry, tokenDrainEnd, patternHardSwitchEdge, wordLinkElement, wordLinkCredit, gateChannelElement, shiftCopyEnd,
walSwitchGo, walCtrlLock. -/
def Obligations.StitchLinksAndSwitches : Prop :=
  ((∀ (s : State) (t addr : Nat) (bs : List Byte), t < 640 →
    exec (.outsideAccessWaitExpiry t addr bs 0) s = .next (s.setTmems t addr bs) ∧
    exec (.outsideAccessWaitExpiry t addr bs 1) s = .next ((s.setTmems t addr bs).report 0x10 t) ∧
    exec (.outsideAccessWaitExpiry t addr bs 2) s = .next ((s.setTmems t addr bs).tmemEcc t addr 2) ∧
    ∀ k : Nat, ((s.setTmems t addr bs).tile t).lastSeam = some k →
      (s.setTmems t addr bs).tmemEcc t addr 2 = ((s.setTmems t addr bs).report 0x11 t [word addr, word k]).handOver t) ∧
  (∀ (s : State) (t a : Nat) (b : Byte), swf (fun _ => (0 : Byte)) s.stitch.mem = true → t < 640 →
    ∃ u, exec (.outsideAccessWaitExpiry t a [b] 0) s = .next u ∧ u.tmem t a = b ∧
      ∀ t' a', (t' ≠ t ∨ a' % 131072 ≠ a % 131072) → u.tmem t' a' = s.tmem t' a') ∧
  (∀ (s : State) (w : Nat), s.RegsWf → w < 40 →
    ∃ u, exec (.walCtrlLock w) s = .next u ∧ u.get (R.WAL_CTRL w) F.WAL_CTRL_LOCK = 1 ∧ ∀ a, a ≠ R.WAL_CTRL w → u.rd a = s.rd a) ∧
  (∀ (s : State) (w tiles pattern : Nat), w < 40 → tiles < 65536 → pattern < 16 →
    exec (.walSwitchGo w tiles pattern) s = .next (s.orderWale w tiles pattern s.stamp .reg))) ∧
  ((∀ (s : State) (t port h : Nat) (e : Elem) (src : Option Nat), t < 640 → port < 6 → s.waleRuns (waleOf t) = true →
    s.tileNull t = false → (s.tile t).live = true → (port < 4 ∨ s.dnOpen t = false) →
    let u := s.dnSettle t
    let ptr := sget (fun _ => 0) (u.tile t).rr port
    (List.range 4).findSome? (fun i => (u.linkReady t port ((ptr + i) % 4)).map (fun r => ((ptr + i) % 4, r))) = some (h, (e, src)) →
    let v := match src with
      | some k => u.takeIn t k
      | none => u.setOut t (4 * port + h) ((u.tile t).out (4 * port + h)).tail
    exec (.wordLinkElement t port) s = .next ((v.linkSend t port h e).portMoves t port h)) ∧
  (∀ (s : State) (t port h t' p' : Nat), port < 4 → sget (fun _ => 0) (s.tile t).owed (4 * port + h) ≠ 0 → linkTo t port = some (t', p') →
    let v := s.setTile t { s.tile t with
      owed := sset (fun _ => 0) (s.tile t).owed (4 * port + h) (sget (fun _ => 0) (s.tile t).owed (4 * port + h) - 1) }
    exec (.wordLinkCredit t port h) s = .next (v.setTile t' { v.tile t' with
      spent := sset (fun _ => 0) (v.tile t').spent (4 * p' + h) (sget (fun _ => 0) (v.tile t').spent (4 * p' + h) - 1) })) ∧
  (∀ (s v : State) (w g n : Nat) (e : Elem), g < 8 → s.gateStream w g = some n →
    let t := if g < 4 then 16 * w else 16 * w + 15
    let key := (if g < 4 then 8 else 0) + g % 4
    (((s.tile t).held key).length + sget (fun _ => 0) (s.tile t).owed key < 4) → s.strTake n = (some e, v) →
    exec (.gateChannelElement w g) s =
      .next (v.setTile t { v.tile t with inBuf := sset (fun _ => []) (v.tile t).inBuf key ((v.tile t).held key ++ [e]) })) ∧
  (∀ (s v : State) (w g n : Nat) (e : Elem) (rest : List Elem), 8 ≤ g → s.gateStream w g = some n → (s.stream n).outbox = e :: rest →
    s.strOffer n none e = (true, v) →
    exec (.gateChannelElement w g) s = .next (v.setStream n { v.stream n with outbox := rest }))) ∧
  ((∀ (s : State) (t : Nat) (d : Drain), (s.tile t).drain = some d → d.left = 0 → s.waleRuns (waleOf t) = true →
    exec (.tokenDrainEnd t) s = .next (s.commitLand.tokenSwitch t d)) ∧
  (∀ (s : State) (w : Nat) (o : PatOrder), s.nextPattern w = some o → (s.wale w).shift = none →
    (s.islandRefuses (32 + w) = true ∨ (s.islandRuns (32 + w) = true ∧ s.betweenCycles w o = true)) →
    let ts := tilesOf w o.tiles
    let r := (s.reach o.at_).commitLand
    let b := r.setWale w { r.wale w with orders := (s.wale w).orders.erase o }
    (b.islandRefuses (32 + w) = true →
      exec (.patternHardSwitchEdge w) s = .next (((b.airMissed o.src ts.length).memberPast o.src true).switchDone o.src)) ∧
    (b.islandRefuses (32 + w) = false →
      let v := b.airMissed o.src (ts.filter (fun t => !b.patValid t (o.patOf t))).length
      let v := ts.foldl (fun v t => v.hardSwitch t (o.patOf t)) v
      let v := if ts = [] then v else v.bump (R.WAL_COUNT w 2)
      let v := if o.late then v.report 0x24 (32 + w) [word (satNat 32 (v.stamp - o.at_)), word (o.patOf (16 * w))] [(10, 5, 6)] else v
      exec (.patternHardSwitchEdge w) s =
        .next ((v.memberPast o.src (ts.any (fun t => !b.patValid t (o.patOf t)))).switchDone o.src))) ∧
  (∀ (s : State) (w : Nat) (sh : Shift), (s.wale w).shift = some sh → s.islandRuns (32 + w) = true →
    let v := s.setWale w { s.wale w with shift := none }
    let v := (v.put (R.WAL_SHIFT w) F.WAL_SHIFT_SHIFTING 0).put (R.WAL_SHIFT w) F.WAL_SHIFT_SHIFT_AT sh.upto
    exec (.shiftCopyEnd w) s = .next ((v.completeOpt sh.openId .DONE).shiftDone w sh.upto sh.rotation)))

/-- The WAL commands on a wale in range that does not shift: STATUS returns its registers; SWITCH waits for its edge; BIND writes the gate;
STICKY_CLEAR clears the named flags of the named tiles; BANKMAP, FREEZE and COUNTERS act on their registers; SHIFT is accepted and starts
the copy (R166 to R174). A WAL command of a wale out of range is BAD_FIELD, of another tenant's wale NOT_OWNER, of a wale that shifts BUSY;
none has an effect (R166). Where the rules leave more than one reading it is the model's choice (log entries 19, 30 and 64). Says that these
rows answer a next state: walStatus, walSwitch, walBind, walStickyClear, walBankmap, walFreeze, walShift, walCounters. -/
def Obligations.WalCommandEffects : Prop :=
  (∀ (s : State) (mb : Nat),
  let c := s.msg mb
  let w := c.n 2 5 0
  w < 40 → foreignWale c s w = false → (s.wale w).shift = none →
  (s.Serves mb spec_WAL_STATUS →
    let flags := (List.range 16).map (fun q => (s.rd (R.WAL_STICKY w q)).toNat % 32)
    exec (.walStatus mb) s = s.done mb s [s.rd (R.WAL_STATUS w), s.rd (R.WAL_ACTIVE w 0), s.rd (R.WAL_ACTIVE w 1), s.rd (R.WAL_SHIFT w),
      word (flags.foldl (· ||| ·) 0 * 2 ^ 16 + (List.range 16).foldl (fun m q => m + b2n (decide (flags.getD q 0 ≠ 0)) * 2 ^ q) 0)]) ∧
  (s.Serves mb spec_WAL_SWITCH → c.n 3 31 16 ≠ 0 → (∀ t ∈ tilesOf w (c.n 3 31 16), s.patValid t (c.n 3 3 0) = true) →
    exec (.walSwitch mb) s = s.waits mb (s.orderWale w (c.n 3 31 16) (c.n 3 3 0) s.stamp (.cmd c.id)) [w]) ∧
  (s.Serves mb spec_WAL_BIND → bindForeign s w (c.n 3 11 0) = false → s.flag (R.WAL_GATE w (c.n 2 11 8)) F.WAL_GATE_EN = false →
    exec (.walBind mb) s = s.done mb (if c.b 3 31 then
        (s.put (R.WAL_GATE w (c.n 2 11 8)) F.WAL_GATE_EN 1).put (R.WAL_GATE w (c.n 2 11 8)) F.WAL_GATE_STREAM (c.n 3 11 0)
      else s.put (R.WAL_GATE w (c.n 2 11 8)) F.WAL_GATE_EN 0)) ∧
  (s.Serves mb spec_WAL_STICKY_CLEAR →
    exec (.walStickyClear mb) s = s.done mb ((tilesOf w (c.n 3 31 16)).foldl
      (fun s t => s.clearBits (R.WAL_STICKY w (posOf t)) (c.n 3 4 0)) s)) ∧
  (s.Serves mb spec_WAL_BANKMAP → s.flag (R.WAL_CTRL w) F.WAL_CTRL_LOCK = false → s.tileNull (16 * w + c.n 2 11 8) = true →
    exec (.walBankmap mb) s = s.done mb (s.wr (R.WAL_BANKMAP w (c.n 2 11 8)) (word (c.n 3 19 0)))) ∧
  (s.Serves mb spec_WAL_FREEZE →
    exec (.walFreeze mb) s = s.done mb (s.put (R.WAL_CTRL w) F.WAL_CTRL_FREEZE (b2n (c.b 2 8)))) ∧
  (s.Serves mb spec_WAL_SHIFT → c.n 2 12 8 ≤ 16 → s.flag (R.WAL_SHIFT w) F.WAL_SHIFT_FUSED = false → s.stage (32 + w) = .on →
    s.pwr.dorm = .none → s.spareHeld w = false →
    exec (.walShift mb) s = s.taken mb
      ((s.setWale w { s.wale w with shift := some ⟨c.n 2 12 8, some c.id, false⟩ }).put (R.WAL_SHIFT w) F.WAL_SHIFT_SHIFTING 1) [w]) ∧
  (s.Serves mb spec_WAL_COUNTERS →
    exec (.walCounters mb) s = s.done mb
      (if c.b 2 8 then ((List.range 5).map (R.WAL_COUNT w)).foldl (fun v k => v.wr k 0) s else s)
      ((List.range 5).map (fun k => s.rd (R.WAL_COUNT w k))))) ∧
  (∀ (s : State) (mb : Nat),
  let c := s.msg mb
  let w := c.n 2 5 0
  (s.Serves mb spec_WAL_FREEZE →
    (40 ≤ w → exec (.walFreeze mb) s = .next (s.answer c .BAD_FIELD [])) ∧
    (w < 40 → foreignWale c s w = false → (s.wale w).shift.isSome = true → exec (.walFreeze mb) s = .next (s.answer c .BUSY []))) ∧
  (s.Serves mb spec_WAL_STICKY_CLEAR →
    (40 ≤ w → exec (.walStickyClear mb) s = .next (s.answer c .BAD_FIELD [])) ∧
    (w < 40 → foreignWale c s w = true → exec (.walStickyClear mb) s = .next (s.answer c .NOT_OWNER []))) ∧
  (s.Serves mb spec_WAL_SHIFT →
    (40 ≤ w ∨ 16 < c.n 2 12 8 → exec (.walShift mb) s = .next (s.answer c .BAD_FIELD [])) ∧
    (w < 40 → c.n 2 12 8 ≤ 16 → foreignWale c s w = false → (s.wale w).shift.isSome = true →
      exec (.walShift mb) s = .next (s.answer c .BUSY []))))

/-! ### Sheets -/

/-- Clock and switch edges of a sheet: a rising edge of LCK0 ends an open switch window, registers the selvedge and clocks the active
plane's cells of LCK0 and of the trees that rise with it; a falling edge of a tree that is high clocks its inverted cells, but not while a
window is open; asynchronous set/reset acts whatever the clock; the order whose edge comes next performs its switch, or is refused or
missed; a group switch orders every member at T; a reset net releases a sheet (R182, R195, R197, R220 to R222, R236, R238). A block RAM
cycle: stored bits that have changed on their own first; ports on one tree both read what the block holds before the cycle, then port B's
and port A's writes land; ports on different trees follow one another, each reading before it writes; LOCK of SHT_CTRL sets; a read of
SHT_STAMP_LO latches the high half for its master (R188 to R191). Where the rules leave more than one reading it is the model's choice (log
entries 31, 32, 68 and 69). Says that these rows answer a next state: sheetSwitchEdge, groupSwitch, resetNetRelease, bramAccess,
shtCtrlLock, shtStampLoRead, flipFlopClockEdge. -/
def Obligations.SheetEdgesAndBlocks : Prop :=
  ((∀ (s : State) (n tree : Nat) (falling : Bool) (high : List Net), n < 32 → tree < 4 → s.stage n = .on →
    let v := (s.setHigh n high).asyncSettle n
    (v.islandRuns n = false → exec (.flipFlopClockEdge n tree falling high) s = .next v) ∧
    (v.islandRuns n = true →
      (falling = false → tree ≠ 0 → exec (.flipFlopClockEdge n tree falling high) s = .next v) ∧
      (falling = false → tree = 0 →
        let w := (v.closeWindow n).selvRegister n
        ((w.risen n).activePlane n = none → exec (.flipFlopClockEdge n tree falling high) s = .next (w.risen n)) ∧
        ∀ p : Nat, (w.risen n).activePlane n = some p →
          exec (.flipFlopClockEdge n tree falling high) s = .next (((w.risen n).clockSheet n p (w.treesRise n) false).afterEdge n)) ∧
      (falling = true →
        (sget (fun _ => 0) v.fabric.lck (8 * n + tree) = 0 → exec (.flipFlopClockEdge n tree falling high) s = .next v) ∧
        (sget (fun _ => 0) v.fabric.lck (8 * n + tree) ≠ 0 →
          let w : State := { v with fabric := { v.fabric with lck := sset (fun _ => 0) v.fabric.lck (8 * n + tree) 0 } }
          ((w.window n).isSome = true → exec (.flipFlopClockEdge n tree falling high) s = .next w) ∧
          ∀ p : Nat, w.window n = none → w.activePlane n = some p →
            exec (.flipFlopClockEdge n tree falling high) s = .next ((w.clockSheet n p [tree] true).asyncSettle n))))) ∧
  (∀ (s : State) (n : Nat) (o : PlaneOrder) (pins : List Nat) (high : List Net), s.nextPlane n = some o → s.switchReady n = true →
    let h := s.setHigh n (pins.map .io ++ high)
    let v := ((h.reach o.at_).setPlaneOrders n ((h.planeOrders n).erase o)).commitLand
    (v.islandRefuses n = true → exec (.sheetSwitchEdge n pins high) s = .next ((v.airMissed o.src).memberPast o.src true)) ∧
    (v.islandRefuses n = false →
      let w := if o.late then v.report 0x24 (v.lead n) [word (satNat 32 (v.stamp - o.at_)), word o.plane] [(10, 5, 6)] else v
      (w.planeValid n o.plane = false →
        exec (.sheetSwitchEdge n pins high) s = .next (((w.report 0x22 n).airMissed o.src).memberPast o.src true)) ∧
      (w.planeValid n o.plane = true → w.activePlane n = some o.plane →
        exec (.sheetSwitchEdge n pins high) s = .next (w.memberPast o.src false)) ∧
      (w.planeValid n o.plane = true → w.activePlane n ≠ some o.plane → exec (.sheetSwitchEdge n pins high) s =
        .next ((((w.closeWindow n).asyncSettle n).planeEdge n o.plane).memberPast o.src false)))) ∧
  (∀ (s : State) (o : OpenCmd), s.openOf 0x0904 (fun o => !o.args.isEmpty) = some o →
    let a := fun i => o.args.getD i 0
    let v := (s.reach (a 0)).setOpenArgs o.id []
    let v := ((List.range 32).filter (a 1).testBit).foldl
      (fun v n => v.orderSheet n (bitsOf (a 2) (2 * n + 1) (2 * n)) (a 0) .group) v
    exec .groupSwitch s =
      .next (((List.range 40).filter (a 3).testBit).foldl (fun v w => v.orderWale w (a 4) (a 5) (a 0) .group) v)) ∧
  (∀ (s : State) (n net : Nat), n < 32 → net < 4 → s.net n net = 1 → s.islandRuns n = true →
    exec (.resetNetRelease n net) s = .next (s.setNet n net 0))) ∧
  ((∀ (s : State) (n block p : Nat) (a b : BramReq) (upsA upsB : List Nat) (first : Bool), s.activePlane n = some p → n < 32 → block < 128 →
    s.islandRuns n = true → s.window n = none →
    let ca := s.bramCfg n p block 0
    let cb := s.bramCfg n p block 1
    let u := s.bramUpset n block (upsA ++ upsB)
    (ca.tree = cb.tree →
      (ca.used = true → exec (.bramAccess n block (some a) none upsA upsB first) s =
        .next ((u.bramRead u n block 0 ca a true).bramWrite n block ca a)) ∧
      (cb.used = true → exec (.bramAccess n block none (some b) upsA upsB first) s =
        .next ((u.bramRead u n block 1 cb b true).bramWrite n block cb b)) ∧
      (ca.used = true → cb.used = true →
        let apart := !bramOverlap ca cb a b
        exec (.bramAccess n block (some a) (some b) upsA upsB first) s =
          .next ((((u.bramRead u n block 0 ca a apart).bramRead u n block 1 cb b apart).bramWrite n block cb b).bramWrite n block ca a))) ∧
    (ca.tree ≠ cb.tree → ca.used = true → cb.used = true →
      let x := s.bramUpset n block upsA
      let v := ((x.bramRead x n block 0 ca a true).bramWrite n block ca a).bramUpset n block upsB
      let y := s.bramUpset n block upsB
      let w := ((y.bramRead y n block 1 cb b true).bramWrite n block cb b).bramUpset n block upsA
      exec (.bramAccess n block (some a) (some b) upsA upsB false) s = .next ((v.bramRead v n block 1 cb b true).bramWrite n block cb b) ∧
      exec (.bramAccess n block (some a) (some b) upsA upsB true) s = .next ((w.bramRead w n block 0 ca a true).bramWrite n block ca a) ∧
      exec (.bramAccess n block (some a) none upsA upsB false) s = .next v ∧
      exec (.bramAccess n block none (some b) upsA upsB true) s = .next w)) ∧
  (∀ (s : State) (n : Nat), s.RegsWf → n < 32 →
    ∃ u, exec (.shtCtrlLock n) s = .next u ∧ u.get (R.SHT_CTRL n) F.SHT_CTRL_LOCK = 1 ∧ ∀ a, a ≠ R.SHT_CTRL n → u.rd a = s.rd a) ∧
  (∀ (s : State) (m : Master) (n : Nat), n < 32 → swf (fun _ => (0 : Word)) s.latch = true → s.sys.dev ≠ .off →
    busReach m false (R.SHT_STAMP_LO n) = true →
    ∃ u, exec (.shtStampLoRead m n) s = .next u ∧ u.latched m (R.SHT_STAMP_HI n) = hiWord s.stamp ∧ u.regs = s.regs))

/-- Riser ports: an element sent with credit enters the tile's riser input, one sent without credit only sets NOCREDIT and is counted and
reported; a take frees a place of the tile's output, or its credit is held while the tile's window is open; a credit pulse frees a transmit
credit, or is held while the sheet's window is open; the orientation in force follows both requests; a disagreement longer than 64 ns is
counted and reported (R186, R187, R229, R232 to R235). Where the rules leave more than one reading it is the model's choice (log entry 32).
Says that these rows answer a next state: riserTxElement, riserRxTake, riserCreditPulse, riserOrientationChange, riserConflictTimeout. -/
def Obligations.RiserPorts : Prop :=
  (∀ (s : State) (n k h : Nat) (e : Elem), s.riserOpen n k = true → h < 4 →
    let key := 4 * (40 * n + k) + h
    let spent := sget (fun _ => 0) s.fabric.txSpent key
    let t := (tileOfRiser n k).1
    let tk := 4 * (4 + (tileOfRiser n k).2) + h
    let v := { s with fabric := { s.fabric with txSpent := sset (fun _ => 0) s.fabric.txSpent key (spent + 1) } }
    (spent < 12 → exec (.riserTxElement n k h e) s =
      .next (v.setTile t { v.tile t with inBuf := sset (fun _ => []) (v.tile t).inBuf tk ((v.tile t).held tk ++ [e]) })) ∧
    (12 ≤ spent → exec (.riserTxElement n k h e) s =
      .next (((s.raise (R.SHT_STICKY n) 1).bump (R.SHT_COUNT n 2)).report 0x23 (64 * n + k) [0, s.wireNow n k]))) ∧
  (∀ (s : State) (n k h : Nat) (e : Elem) (rest : List Elem), s.riserOpen n k = true → h < 4 →
    sget (fun _ => []) s.fabric.rx (4 * (40 * n + k) + h) = e :: rest →
    let t := (tileOfRiser n k).1
    let tk := 4 * (4 + (tileOfRiser n k).2) + h
    let v := { s with fabric := { s.fabric with rx := sset (fun _ => []) s.fabric.rx (4 * (40 * n + k) + h) rest } }
    let v := v.dnSettle t
    (v.dnOpen t = false → exec (.riserRxTake n k h) s = .next (v.setTile t { v.tile t with
      spent := sset (fun _ => 0) (v.tile t).spent tk (sget (fun _ => 0) (v.tile t).spent tk - 1) })) ∧
    (v.dnOpen t = true → exec (.riserRxTake n k h) s = .next (v.setTile t { v.tile t with
      heldCredit := sset (fun _ => 0) (v.tile t).heldCredit tk (sget (fun _ => 0) (v.tile t).heldCredit tk + 1) }))) ∧
  (∀ (s : State) (n k h : Nat), n < 32 → k < 40 → h < 4 →
    let t := (tileOfRiser n k).1
    let tk := 4 * (4 + (tileOfRiser n k).2) + h
    let key := 4 * (40 * n + k) + h
    let owed := sget (fun _ => 0) (s.tile t).owed tk
    let v := s.setTile t { s.tile t with owed := sset (fun _ => 0) (s.tile t).owed tk (owed - 1) }
    owed ≠ 0 →
    (v.window n = none → exec (.riserCreditPulse n k h) s = .next { v with fabric := { v.fabric with
      txSpent := sset (fun _ => 0) v.fabric.txSpent key (sget (fun _ => 0) v.fabric.txSpent key - 1) } }) ∧
    ((v.window n).isSome = true → exec (.riserCreditPulse n k h) s = .next { v with fabric := { v.fabric with
      heldPulse := sset (fun _ => 0) v.fabric.heldPulse key (sget (fun _ => 0) v.fabric.heldPulse key + 1) } })) ∧
  (∀ (s : State) (n k : Nat), n < 32 → k < 40 →
    let r := tileOfRiser n k
    let o := orientOf (s.sheetOrient n k) (s.tileOrient r.1 r.2) (s.orientNow n k) (s.recorded n k)
    exec (.riserOrientationChange n k) s =
      .next { s with fabric := { s.fabric with orient := sset (fun _ => 0) s.fabric.orient (40 * n + k) o } }) ∧
  (∀ (s : State) (n k since : Nat), n < 32 → k < 40 → sget (fun _ => none) s.fabric.disagree (40 * n + k) = some (since, false) →
    let v := s.reach (since + 65)
    let d : Option (Nat × Bool) := some (since, true)
    let v := { v with fabric := { v.fabric with disagree := sset (fun _ => none) v.fabric.disagree (40 * n + k) d } }
    exec (.riserConflictTimeout n k) s =
      .next (((v.raise (R.SHT_STICKY n) 2).bump (R.SHT_COUNT n 3)).report 0x23 (64 * n + k) [1, v.wireNow n k]))

/-- The SHT commands on a sheet of the sender's tenant: STATUS, RISERS and COUNTERS return their registers; STICKY_CLEAR clears the named
flags; FREEZE writes FREEZE; RESET asserts a net for its width and ends DONE when the net has fallen; CLOCK stops the sheet's clock, and
ends DONE with SHT_CLK written at its restart (R205 to R211, R241). Where the rules leave more than one reading it is the model's choice
(log entry 19). Says that these rows answer a next state: sheetClockRestart, shtStatus, shtStickyClear, shtReset, shtResetPulseEnd,
shtClock, shtFreeze, shtCounters, shtRisers. -/
def Obligations.ShtCommands : Prop :=
  (∀ (s : State) (mb : Nat),
    let c := s.msg mb
    let n := c.n 2 4 0
    foreignSheet c s n = false →
    (s.Serves mb spec_SHT_STATUS → exec (.shtStatus mb) s =
      s.done mb s [s.shtStatus n, s.rd (R.SHT_CLK n), s.rd (R.SHT_REPAIR n), s.rd (R.SHT_STICKY n)]) ∧
    (s.Serves mb spec_SHT_STICKY_CLEAR → exec (.shtStickyClear mb) s =
      s.done mb (s.clearBits (R.SHT_STICKY n) (c.n 2 10 8))) ∧
    (s.Serves mb spec_SHT_FREEZE → exec (.shtFreeze mb) s =
      s.done mb (s.put (R.SHT_CTRL n) F.SHT_CTRL_FREEZE (b2n (c.b 2 8)))) ∧
    (s.Serves mb spec_SHT_COUNTERS → exec (.shtCounters mb) s =
      s.done mb (if c.b 2 8 then ((List.range 4).map (R.SHT_COUNT n)).foldl (fun v k => v.wr k 0) s else s)
        ((List.range 4).map (fun k => s.rd (R.SHT_COUNT n k)))) ∧
    (s.Serves mb spec_SHT_RISERS → exec (.shtRisers mb) s =
      s.done mb s ((List.range 5).map (fun i => word ((List.range 8).foldl (fun a j => a + s.riserNibble n (8 * i + j) * 16 ^ j) 0)))) ∧
    (s.Serves mb spec_SHT_CLOCK → (c.n 3 3 0 = 0 ∨ 8 ≤ c.n 3 3 0) → c.n 3 7 4 = 0 → s.flag (R.SHT_CTRL n) F.SHT_CTRL_LOCK = false →
      c.n 3 3 0 = s.clkRoot n → s.rootLead n (c.n 3 3 0) = n → sget (fun _ => false) s.pwr.clkStop n = false →
      exec (.shtClock mb) s = s.waits mb
        { s with pwr := { s.pwr with clkStop := sset (fun _ => false) s.pwr.clkStop n true } } [n, c.n 3 19 0])) ∧
  (∀ (s : State) (mb : Nat),
    let c := s.msg mb
    s.Serves mb spec_SHT_RESET → c.n 2 17 16 ≠ 0 → 10 ≤ c.n 2 15 0 → c.host = true →
    s.fabric.pulses.any (fun p => decide (p.net = c.n 2 17 16)) = false →
    let pulse : NetPulse := ⟨c.n 2 17 16, s.stamp + c.n 2 15 0, c.id⟩
    let v := { s with fabric := { s.fabric with pulses := s.fabric.pulses ++ [pulse] } }
    exec (.shtReset mb) s = s.waits mb (v.assertNet (c.n 2 17 16)) [c.n 2 17 16]) ∧
  (∀ (s : State) (net : Nat) (p : NetPulse) (o : OpenCmd), s.fabric.pulses.find? (fun p => decide (p.net = net)) = some p →
    let v := (s.reach p.until_).dropNet net (List.range 32)
    let v := { v with fabric := { v.fabric with pulses := v.fabric.pulses.filter (fun q => decide (q.net ≠ net)) } }
    v.mbx.running.find? (fun o => decide (o.id = p.openId)) = some o →
    exec (.shtResetPulseEnd net) s = .next (v.finishRun o .DONE)) ∧
  (∀ (s : State) (n : Nat) (o : OpenCmd), s.runningOf 0x0980 (fun o => decide (o.args.getD 0 0 = n)) = some o →
    let v := (s.markLate n).wr (R.SHT_CLK n) (word (o.args.getD 1 0))
    exec (.sheetClockRestart n) s =
      .next (({ v with pwr := { v.pwr with clkStop := sset (fun _ => false) v.pwr.clkStop n false } }.lckAlign n).finishRun o .DONE))

/-- Captures: CAP.TAKE and CAP.TAKE_X arm the plane, for now plus the lead, for the instant given or for a trigger; a trigger fixes the
instant 32 ns later; each island copies at its first edge at or after it, or 1 µs later without one; CAP.READ writes the record to host
memory, and CAP.RELEASE empties the plane (R199 to R202, R212 to R217). Where the rules leave more than one reading it is the model's choice
(log entries 32 and 68). Says that these rows answer a next state: captureInstant, captureEdgeNoneTimeout, capTrigEdge, captureCopyComplete,
capStatus, capTake, capTakeX, capRead, capReadComplete, capRelease. -/
def Obligations.Captures : Prop :=
  (∀ (s : State) (mb : Nat),
    let c := s.msg mb
    let mode := c.n 3 1 0
    let plane (lead : Nat) (ff : Bool) : Capture := {
      st := .armed, mode := mode, set := (c.w 2).toNat, trigSheet := c.n 3 12 8,
      t := if mode = 0 then s.stamp + lead else if mode = 1 then c.n64 4 else 0,
      trigger := 0, ffOnly := ff, poster := c.sheet, openId := some c.id, recs := [] }
    s.policy 3 = true →
    (s.Serves mb spec_CAP_STATUS → exec (.capStatus mb) s = s.done mb s
      [word (s.fabric.cap.st.code * 2 ^ 30 + (if s.fabric.cap.mode = 2 then s.fabric.cap.trigSheet else 0) * 2 ^ 8 + s.fabric.cap.mode),
       word s.fabric.cap.set, loWord s.fabric.cap.t, hiWord s.fabric.cap.t]) ∧
    (s.Serves mb spec_CAP_TAKE → (c.w 2).toNat ≠ 0 → mode = 0 ∨ (mode = 1 ∧ s.stamp + 2000 ≤ c.n64 4) ∨ mode = 2 → c.sheet = none →
      s.fabric.cap.st = .empty → exec (.capTake mb) s = s.taken mb (s.setCap (plane 2000 false))) ∧
    (s.Serves mb spec_CAP_TAKE_X → (c.w 2).toNat ≠ 0 → mode = 0 ∨ (mode = 1 ∧ s.stamp + capLead c ≤ c.n64 4) ∨ mode = 2 → c.sheet = none →
      s.fabric.cap.st = .empty → exec (.capTakeX mb) s = s.taken mb (s.setCap (plane (if c.b 6 1 then 200 else 2000) (c.b 6 0)))) ∧
    (s.Serves mb spec_CAP_READ → s.fabric.cap.set.testBit (c.n 2 4 0) = true → c.n 3 11 0 = 0 → s.fabric.cap.st = .held →
      exec (.capRead mb) s = s.taken mb s [c.n 2 4 0, c.n64 3]) ∧
    (s.Serves mb spec_CAP_RELEASE → c.sheet = none → s.openOf 0x1803 = none → s.fabric.cap.st = .held →
      exec (.capRelease mb) s = s.done mb (s.setCap Capture.init))) ∧
  (∀ (s : State) (lead edge : Nat), s.fabric.cap.timed = true → s.fabric.cap.t ≤ edge → edge ≤ s.fabric.cap.t + 1000 →
    s.islandRuns lead = true → s.lead lead = lead →
    exec (.captureInstant lead edge) s = .next ((s.reach edge).capIsland lead edge false)) ∧
  (∀ (s : State) (lead : Nat), s.fabric.cap.timed = true → s.lead lead = lead →
    exec (.captureEdgeNoneTimeout lead) s = .next ((s.reach (s.fabric.cap.t + 1000)).capIsland lead (s.fabric.cap.t + 1000) true)) ∧
  (∀ (s : State) (n : Nat), s.fabric.cap.st = .armed → s.fabric.cap.mode = 2 → s.fabric.cap.t = 0 → s.fabric.cap.trigSheet = n →
    s.selvedge n 1680 true = true → exec (.capTrigEdge n) s = .next (s.setCap { s.fabric.cap with t := s.stamp + 32, trigger := s.stamp })) ∧
  (∀ (s : State) (lead : Nat), exec (.captureCopyComplete lead) s = .next (s.capCopied (fun n => decide (s.lead n = lead)) false)) ∧
  (∀ (s : State) (o : OpenCmd) (n at_ : Nat) (r : CapRec), s.openOf 0x1803 = some o → o.args = [n, at_] → s.fabric.cap.rec_ n = some r →
    exec .capReadComplete s = .next ((s.hostWrite at_ (capBytes n s.fabric.cap r)).complete o.id .DONE))

/-! ### Serial lanes -/

/-- Lane events: an Ethernet lane reported in TRAINING comes UP with the taps it has trained, and its MAC with the last lane of the group;
an attempt that fails is retried or its link goes down; loss of signal, CDR lock or PLL lock is counted, reported and retrains the group;
the reference clears and restores REF_OK; adaptation moves the CTLE by at most one setting; low-power entry and exit complete; the checker
locks, counts bit errors and loses lock; reads latch the bits compared (R101, R362, R366, R369, R371 to R379). Where the rules leave more
than one reading it is the model's choice (log entries 42, 65 and 66). Says that these rows answer a next state: laneUp,
laneTrainingAttemptTimeout, laneRetryTimer, laneLos, cdrUnlock, pllUnlock, refClockOutOfRange, adaptationStep, adaptLimit,
lowPowerEntryComplete, lowPowerExitComplete, checkerLockLoss, lneChkbitsLoRead, lneCtrlLock, refClockRestored, checkerLock. -/
def Obligations.LaneEvents : Prop :=
  (∀ (s : State) (e : LaneUpSeen) (o0 : LaneObs) (v : State), e.obs.head? = some o0 →
    let g := s.laneGroup o0.lane
    (∀ o ∈ e.obs, s.laneClass o.lane = 1 ∧ s.laneState o.lane = laneTRAINING ∧ s.flag (R.LNE_STATUS o.lane) F.LNE_STATUS_REF_OK = true ∧
      (s.lane o.lane).lp = .none ∧ s.laneGroup o.lane = g) →
    let mode := s.macMode g o0.lane
    mode ≠ 0 → s.laneDetect e.obs = (true, v) →
    let w := e.obs.foldl (fun t o => (if mode = 6 then t else t.trainedFfe o.lane e.ffe).laneUpNow o.lane) v
    (w.groupUp (w.groupLanes 1 g) = false → exec (.laneUp e) s = .next w.lanesDone) ∧
    (w.groupUp (w.groupLanes 1 g) = true →
      let x := if mode = 6 then (w.put (R.FHE_MAC g) F.FHE_MAC_MODE 6).put (R.FHE_MAC g) F.FHE_MAC_FEC_ON 1 else w
      exec (.laneUp e) s = .next (x.put (R.FHE_MAC g) F.FHE_MAC_UP 1).lanesDone)) ∧
  (∀ (s : State) (n : Nat) (wrong : Option Nat), s.laneState n = laneTRAINING → (s.lane n).lp = .none →
    let v := (match wrong with | some w => s.mismatch 2 n 3 (s.laneClass n) w | none => s).lanesBusy n
    (s.laneClass n = 1 → exec (.laneTrainingAttemptTimeout n wrong) s =
      .next (((v.trainable 1 (s.laneGroup n)).foldl (fun s m => ((s.bump (R.LNE_COUNT m 4)).gazInc (73 + m)).laneTrain m) v).linkDown
        1 (s.laneGroup n))) ∧
    (s.laneClass n = 2 → s.get (R.JSD_STATUS (s.laneGroup n)) F.JSD_STATUS_STATE ≠ 0 →
      exec (.laneTrainingAttemptTimeout n wrong) s = .next (v.put (R.JSD_STATUS (s.laneGroup n)) F.JSD_STATUS_STATE 4)) ∧
    (s.laneClass n = 3 → exec (.laneTrainingAttemptTimeout n wrong) s = .next (v.yarnUntrained (s.laneGroup n))) ∧
    (s.laneClass n = 2 → s.get (R.JSD_STATUS (s.laneGroup n)) F.JSD_STATUS_STATE = 4 →
      exec (.laneRetryTimer n) s = .next (s.linkStart 2 (s.laneGroup n))) ∧
    (s.laneClass n = 3 → s.get (R.YRN_PORT (s.laneGroup n)) F.YRN_PORT_STATE = 3 →
      exec (.laneRetryTimer n) s = .next (s.linkStart 3 (s.laneGroup n)))) ∧
  (∀ (s : State) (n : Nat), s.laneWatched n = true →
    exec (.laneLos n) s =
      .next ((((s.put (R.LNE_STATUS n) F.LNE_STATUS_SIGNAL 0).bump (R.LNE_COUNT n 3)).report 0x50 n [0]).groupFault n) ∧
    (s.laneState n = laneUP → exec (.cdrUnlock n) s =
      .next ((((s.put (R.LNE_STATUS n) F.LNE_STATUS_CDR_LOCK 0).bump (R.LNE_COUNT n 2)).report 0x50 n [1]).groupFault n)) ∧
    (s.pllRuns n = true →
      exec (.pllUnlock n false) s = .next (((s.put (R.LNE_STATUS n) F.LNE_STATUS_PLL_LOCK 0).report 0x50 n [2]).groupFault n))) ∧
  (∀ (s : State) (n : Nat), s.pllRuns n = true → s.laneWatched n = false →
    exec (.pllUnlock n false) s = .next (s.put (R.LNE_STATUS n) F.LNE_STATUS_PLL_LOCK 0)) ∧
  (∀ (s : State) (k : Nat),
    exec (.refClockOutOfRange k) s = .next ((s.refLanes k).foldl State.pllLost
      ((s.refLanes k).foldl (fun s n => s.put (R.LNE_STATUS n) F.LNE_STATUS_REF_OK 0) s)) ∧
    exec (.refClockRestored k) s = .next ((s.refLanes k).foldl (fun s n =>
      let v := s.put (R.LNE_STATUS n) F.LNE_STATUS_REF_OK 1
      if v.pllRuns n = true then v.put (R.LNE_STATUS n) F.LNE_STATUS_PLL_LOCK 1 else v) s)) ∧
  (∀ (s : State) (n : Nat) (a : AdaptStep), s.laneActive n = true → s.laneClass n ≠ 2 →
    s.flag (R.LNE_CTRL n) F.LNE_CTRL_ADAPT_FREEZE = false → a.eye = none → s.RegsWf →
    (s.flag (R.LNE_RXEQ n) F.LNE_RXEQ_DFE_EN = false →
      ∃ t, exec (.adaptationStep n a) s = .next t ∧ (∀ k, k ≠ R.LNE_RXEQ n → t.rd k = s.rd k) ∧
        (t.get (R.LNE_RXEQ n) F.LNE_RXEQ_CTLE_NOW : Int) =
          max 0 (min 15 (s.get (R.LNE_RXEQ n) F.LNE_RXEQ_CTLE_NOW + max (-1) (min 1 a.ctle))))) ∧
  (∀ (s : State) (n : Nat), s.laneWatched n = true → s.laneState n = laneUP → s.laneClass n ≠ 2 → s.dfeTap n 0 = 64 →
    exec (.adaptLimit n) s = .next (s.report 0x50 n [3])) ∧
  (∀ (s : State) (n : Nat),
    ((s.lane n).lp = .entering 2 → s.laneState n ≠ laneUP →
      let d := (s.checkStop n).setLane n
        { (s.checkStop n).lane n with lp := .none, down := ((s.checkStop n).lane n).down || s.laneState n == laneDOWN || s.laneState n == laneTEST }
      exec (.lowPowerEntryComplete n) s =
        .next ((((((d.setLaneState n laneLP2).bump (R.LNE_COUNT n 5)).put (R.LNE_STATUS n) F.LNE_STATUS_PLL_LOCK 0).put
          (R.LNE_STATUS n) F.LNE_STATUS_CDR_LOCK 0).laneMove n).lanesDone)) ∧
    ((s.lane n).lp = .exiting →
      (s.flag (R.LNE_STATUS n) F.LNE_STATUS_REF_OK = false → exec (.lowPowerExitComplete n) s = .next s) ∧
      (s.flag (R.LNE_STATUS n) F.LNE_STATUS_REF_OK = true →
        let v := (s.setLane n { s.lane n with lp := .none }).put (R.LNE_STATUS n) F.LNE_STATUS_PLL_LOCK 1
        let w := (((v.laneTrain n).put (R.LNE_STATUS n) F.LNE_STATUS_CDR_LOCK 1).put (R.LNE_STATUS n) F.LNE_STATUS_SIGNAL 1).put
          (R.LNE_STATUS n) F.LNE_STATUS_TX_IDLE 0
        let x := if (s.lane n).down then v.setLaneState n laneDOWN
          else if s.laneClass n = 2 then (v.laneUpNow n).linkStart 2 (s.laneGroup n)
          else w.linkStart (s.laneClass n) (s.laneGroup n)
        exec (.lowPowerExitComplete n) s = .next (x.laneMove n).lanesDone.bindsDone))) ∧
  (∀ (s : State) (n errors : Nat) (inv : Bool), s.checking n = true →
    (s.flag (R.LNE_TEST n) F.LNE_TEST_CHK_LOCK = false → s.get (R.LNE_TEST n) F.LNE_TEST_LOOP ≠ 3 ∨ (s.pcsMatch n = true ∧ inv = false) →
      exec (.checkerLock n inv) s =
      .next (((s.setLane n { s.lane n with lockAt := some s.stamp, bits := 0 }).put (R.LNE_TEST n) F.LNE_TEST_CHK_LOCK 1).put
        (R.LNE_TEST n) F.LNE_TEST_CHK_INV (b2n inv))) ∧
    (s.flag (R.LNE_TEST n) F.LNE_TEST_CHK_LOCK = true → errors ≤ 64 → s.get (R.LNE_TEST n) F.LNE_TEST_LOOP ≠ 3 →
      let v := s.bump (R.LNE_COUNT n 0) errors
      exec (.checkerLockLoss n errors) s = .next (if 32 < errors then (v.checkStop n).bump (R.LNE_COUNT n 1) else v))) ∧
  (∀ (s : State) (n : Nat), exec (.lneChkbitsLoRead n) s = .next (s.wr (R.LNE_CHKBITS_HI n) (hiWord (s.chkBits n)))) ∧
  (∀ (s : State) (m : Master) (n : Nat) (v : Word), (m = .ubtor ∨ m = .jtag ∨ m = .swatch) → n < 96 →
    (s.sys.dev = .off → exec (.lneCtrlLock m n v) s = .next s) ∧
    (s.sys.dev ≠ .off → exec (.lneCtrlLock m n v) s = .next (State.answered m (s.lneCtrlWrite n (v ||| 0x80000000)).busOk)))

/-- The LNE commands on a used lane: STATUS and COUNTERS return its registers; POWER, RETRAIN and UP act on the lane's whole group; BINDOFF
binds the group's streams off, and without any takes its lanes DOWN; TEST, PATTERN, EQ and ADAPT write the lane's test and equalisation
registers (R381 to R390). Where the rules leave more than one reading it is the model's choice (log entries 42 and 66). Says that these rows
answer a next state: lneStatus, lnePower, lneRetrain, lneBindoff, lneUp, lneTest, lneEq, lneAdapt, lnePattern, lneCounters. -/
def Obligations.LaneCommands : Prop :=
  ∀ (s : State) (mb : Nat),
    let c := s.msg mb
    let n := c.n 2 6 0
    n ≤ 95 → s.laneClass n ≠ 0 →
    (s.Serves mb spec_LNE_STATUS → exec (.lneStatus mb) s = s.done mb s
      [s.rd (R.LNE_STATUS n), s.rd (R.LNE_RATE n), s.rd (R.LNE_RXEQ n), s.rd (R.LNE_TXFFE n), s.rd (R.LNE_MAP n), s.rd (R.LNE_EYE n),
       s.rd (R.LNE_TEST n), s.rd (R.LNE_COUNT n 0), loWord (s.chkBits n), hiWord (s.chkBits n)]) ∧
    (s.Serves mb spec_LNE_POWER → c.n 2 17 16 ≠ 3 → s.groupIdle n = false →
      let v := (s.lanesWith n).foldl (fun s n => (s.put (R.LNE_CTRL n) F.LNE_CTRL_POWER (c.n 2 17 16)).laneMove n) s
      exec (.lnePower mb) s = if (s.lanesWith n).all v.laneSettled = true then s.done mb v else s.taken mb v (s.lanesWith n)) ∧
    (s.Serves mb spec_LNE_RETRAIN →
      let ls := s.trainable (s.laneClass n) (s.laneGroup n)
      ls ≠ [] → exec (.lneRetrain mb) s = s.taken mb (s.commandTrain ls) ls) ∧
    (s.Serves mb spec_LNE_BINDOFF → s.groupIdle n = false →
      let ms := if c.n 2 31 16 = 0 then 10 else c.n 2 31 16
      let st := s.liveStreams.filter (fun k => s.epCarried (s.laneClass n) (s.laneGroup n) (s.strProducer k) ||
        s.epCarried (s.laneClass n) (s.laneGroup n) (s.strConsumer k))
      let b : LaneBind := ⟨c.id, s.lanesWith n, st, false⟩
      let v := st.foldl (fun v k => if (v.stream k).st = .open_ then v.strBind k ms none else v) s
      let v : State := { v with links := { v.links with lanes := { v.links.lanes with binds := v.links.lanes.binds ++ [b] } } }
      exec (.lneBindoff mb) s = .next ((if st = [] then v.bindDown b else v).accept c []).bindsDone) ∧
    (s.Serves mb spec_LNE_UP → s.groupIdle n = true → s.groupMarked n = false →
      let v := (s.lanesWith n).foldl (fun s n =>
        (((s.checkStop n).put (R.LNE_TEST n) F.LNE_TEST_GEN_EN 0).put (R.LNE_TEST n) F.LNE_TEST_CHK_EN 0).put (R.LNE_TEST n) F.LNE_TEST_LOOP 0) s
      exec (.lneUp mb) s = s.taken mb (v.commandTrain (s.lanesWith n)) (s.lanesWith n)) ∧
    (s.Serves mb spec_LNE_TEST → c.n 3 27 24 ≤ 7 → (c.n 3 27 24 = 6 → s.flag (R.LNE_RATE n) F.LNE_RATE_PAM4 = true) →
      s.groupIdle n = true → (s.laneState n = laneDOWN ∨ s.laneState n = laneTEST) → c.b 3 31 = false →
      exec (.lneTest mb) s = s.done mb (((s.checkStop n).wr (R.LNE_TEST n) (word (
          (if c.n 3 29 28 = 2 then 0 else 0xC0000000) + c.n 3 29 28 * 2 ^ 28 + c.n 3 27 24 * 2 ^ 24 + c.n 3 27 24 * 2 ^ 20))).setLaneState
        n laneTEST)) ∧
    (s.Serves mb spec_LNE_EQ → c.b 2 8 = true → c.b 2 9 = false → 24 ≤ F.LNE_TXFFE_C0.get (c.w 4) → ffeSum (c.w 4) ≤ 63 →
      (∀ f ∈ [F.LNE_TXFFE_CM2, F.LNE_TXFFE_CM1, F.LNE_TXFFE_C1], f.get (c.w 4) ≠ 32) →
      c.w 4 &&& 0x3F3F3F3F = c.w 4 → s.flag (R.LNE_CTRL n) F.LNE_CTRL_LOCK = false →
      (s.laneClass n = 2 ∨ (s.laneState n ≠ laneTRAINING ∧ s.laneState n ≠ laneUP)) →
      exec (.lneEq mb) s = s.done mb (s.wr (R.LNE_TXFFE n) (c.w 4))) ∧
    (s.Serves mb spec_LNE_ADAPT → s.laneClass n ≠ 2 →
      exec (.lneAdapt mb) s = s.done mb (s.put (R.LNE_CTRL n) F.LNE_CTRL_ADAPT_FREEZE (c.n 2 8 8))) ∧
    (s.Serves mb spec_LNE_PATTERN → s.laneState n = laneTEST → c.n 3 27 24 ≤ 5 → c.n 3 23 20 ≤ 5 →
      exec (.lnePattern mb) s = s.done mb (((((s.checkStop n).wr (R.LNE_UPAT_LO n) (c.w 4)).wr (R.LNE_UPAT_HI n) (c.w 5)).wr
        (R.LNE_TEST n) (c.w 3 &&& 0xFFF00000)).setLaneState n laneTEST)) ∧
    (s.Serves mb spec_LNE_COUNTERS → c.b 2 8 = false → exec (.lneCounters mb) s =
      s.done mb s ((List.range 6).map (fun k => s.rd (R.LNE_COUNT n k)) ++ [loWord (s.chkBits n), hiWord (s.chkBits n)]))

/-! ### The pattern loader -/

/-- The loader: beats and source bytes are staged in their context; a complete source is verified, then waits for the write port, or in HELD
for LDR.COMMIT; a stream that fails a check is rejected; a commit passes checks 13 to 16, then takes effect as Table 7-11 orders; LDR
commands read, load, commit, abort, grant and lock (R242 to R269), and SHT.SWITCH orders its group (R240). Where the rules leave more than
one reading it is the model's choice (log entries 33 and 34). Says that these rows answer a next state: shtSwitch, chartPortBeat,
chartPortAbort, chartPortTimeout, stagingDataArrival, stagingComplete, verificationComplete, commitStart, commitComplete, ldrCtrlLock,
ldrStatus, ldrLoad, ldrCommit, ldrAbort, ldrCaston, ldrGrant, ldrLock, ldrCounters. -/
def Obligations.LoaderStreams : Prop :=
  (∀ (s : State) (n c : Nat) (x : LdrCtx) (beat : List Byte), n < 32 → beat.length = 16 → s.islandRuns n = true → s.portsOpen n = true →
    s.lck1Fast n = false → s.flag (R.LDR_GRANT_WALES_HI n) F.LDR_GRANT_WALES_HI_EN = true →
    (sget (fun _ => 0) s.ldr.drop n = 0 → s.portCtx n = none → s.portOpen n = true → s.freeCtx = some c →
      exec (.chartPortBeat n beat) s = .next ((s.claimCtx c n (newCtx (.port n) false none s.stamp)).stageBytes c beat)) ∧
    (sget (fun _ => 0) s.ldr.drop n = 0 → s.portCtx n = some c → s.ctx c = some x → s.ctxState c = 1 →
      x.raw.length < 64 ∨ x.raw.length ≠ hdrLength x.raw →
      exec (.chartPortBeat n beat) s = .next (s.stageBytes c beat)) ∧
    (sget (fun _ => 0) s.ldr.drop n ≠ 0 → exec (.chartPortBeat n beat) s =
      .next { s with ldr := { s.ldr with drop := sset (fun _ => 0) s.ldr.drop n (sget (fun _ => 0) s.ldr.drop n - 16) } })) ∧
  (∀ (s : State) (n c : Nat) (x : LdrCtx), s.portCtx n = some c → s.ctx c = some x →
    let v := { s with ldr := { s.ldr with drop := sset (fun _ => 0) s.ldr.drop n 0 } }
    (s.ctxState c = 1 ∨ s.ctxState c = 2 → exec (.chartPortAbort n) s = .next (v.reject c 0x13 .BUSY)) ∧
    (s.ctxState c = 1 →
      exec (.chartPortTimeout n) s = .next ((s.reach (x.lastBeat + 10000000)).portAbandon n))) ∧
  (∀ (s : State) (c : Nat) (x : LdrCtx) (bs : List Byte), s.ctx c = some x → s.ctxState c = 1 → (∀ p, x.src ≠ .port p) →
    exec (.stagingDataArrival c bs) s = .next (s.stageBytes c bs) ∧
    exec (.stagingComplete c true) s = .next (s.reject c 0x13 .BUSY) ∧
    (64 ≤ x.raw.length → x.raw.length = hdrLength x.raw → exec (.stagingComplete c false) s = .next (s.setCtxState c 2)) ∧
    (x.raw.length < 64 ∨ x.raw.length ≠ hdrLength x.raw → exec (.stagingComplete c false) s = .next (s.reject c 0x03 .BAD_LENGTH))) ∧
  (∀ (s : State) (c : Nat) (x : LdrCtx), s.ctx c = some x → s.ctxState c = 2 → x.ready = false →
    exec (.verificationComplete c) s = .next (
      match s.verifyFails x.raw, x.src with
      | some r, _ => s.reject c r.1 r.2
      | none, .host _ _ true => ((s.setCtxState c 3).setCtx c (some { x with openId := none })).ldrDone c x.openId .DONE false true 0
      | none, _ => s.setCtx c (some { x with ready := true }))) ∧
  (∀ (s : State) (c : Nat) (x : LdrCtx), s.ldr.writing = none → s.nextCommit = some c → s.ctx c = some x →
    let v := { s with ldr := { s.ldr with rrWrite := (c + 1) % 4 } }.switchesDue
    let l := (framesOf (plainOf x.raw)).getD []
    exec .commitStart s = .next (
      match v.commitFails x with
      | .error (r, rc, wire) => (v.wr (R.LDR_CTX_WIRE c) wire).reject c r rc
      | .ok tg =>
        let w := ((v.setCtxState c 4).put (R.LDR_CTX c) F.LDR_CTX_PLANE tg).swtAbandon
          (fun q => decide (q.kind = 4) && l.any (fun f => decide (f.kind = 3 ∧ 128 * f.unit + f.block = q.target)))
        { w with ldr := { w.ldr with writing := some c, began := w.stamp, landed := 0 } }.commitLand)) ∧
  (∀ (s : State) (c : Nat) (x : LdrCtx), s.ldr.writing = some c → s.ctx c = some x →
    let l := (framesOf (plainOf x.raw)).getD []
    let cls := hdrClass (plainOf x.raw)
    let v := (s.commitRest cls (s.get (R.LDR_CTX c) F.LDR_CTX_PLANE) l).recordOrient l
    let v := if cls = 1 then v.startFull l else v
    let v := ((({ v with ldr := { v.ldr with writing := none } }.setCtx c none).setCtxState c 5).bump (R.LDR_COUNT 0)).portDone c x .DONE
    (x.cast = false → exec .commitComplete s = .next (v.ldrDone c x.openId .DONE false false 0)) ∧
    (x.cast = true → x.failed = none → exec .commitComplete s =
      .next ((v.wr R.LDR_CASTON (castonWord true false (x.src == .flash true) x.src.cast 0 0)).ldrDone c x.openId .DONE false false 0))) ∧
  (∀ (s : State) (m : Master) (w : Word), (m = .ubtor ∨ m = .jtag ∨ m = .loader) →
    exec (.ldrCtrlLock m w) s = .next (s.access m R.LDR_CTRL (w ||| 0x80000000))) ∧
  (∀ (s : State) (m : Master) (w : Word), (m = .ubtor ∨ m = .jtag) → s.RegsWf → s.sys.dev ≠ .off →
    ∃ t, exec (.ldrCtrlLock m w) s = .next t ∧ t.get R.LDR_CTRL F.LDR_CTRL_LOCK = 1 ∧ ∀ a, a ≠ R.LDR_CTRL → t.rd a = s.rd a) ∧
  (∀ (s : State) (mb : Nat),
    let c := s.msg mb
    let k := c.n 2 1 0
    (s.Serves mb spec_LDR_STATUS → exec (.ldrStatus mb) s = s.done mb s ([s.ldrStatus, s.rd R.LDR_CASTON] ++
      (List.range 4).map (fun c => s.rd (R.LDR_CTX c)) ++ (List.range 4).map (fun c => s.rd (R.LDR_CTX_BYTES c)))) ∧
    (∀ q, s.Serves mb spec_LDR_LOAD → (c.w 2).toNat % 16 = 0 → (c.w 4).toNat % 16 = 0 → 320 ≤ (c.w 4).toNat → (c.w 4).toNat ≤ 67108864 →
      (s.classOk 1 = true ∨ s.classOk 2 = true) → s.freeCtx = some q → exec (.ldrLoad mb) s =
      s.taken mb (s.claimCtx q 32 (newCtx (.host (c.n64 2) (c.w 4).toNat (c.b 5 0)) false (some c.id) s.stamp)) [q]) ∧
    (∀ x, s.Serves mb spec_LDR_COMMIT → s.ctx k = some x → s.ctxState k = 3 → x.ready = false →
      exec (.ldrCommit mb) s = s.taken mb (s.setCtx k (some { x with ready := true, openId := some c.id })) [k]) ∧
    (s.Serves mb spec_LDR_ABORT → 1 ≤ s.ctxState k → s.ctxState k ≤ 3 → exec (.ldrAbort mb) s = s.done mb (s.reject k 0x14 .BUSY)) ∧
    (∀ q, s.Serves mb spec_LDR_CASTON → s.sys.dev = .ready → s.casting = false → s.freeCtx = some q →
      exec (.ldrCaston mb) s = s.taken mb
        (s.claimCtx q 32 (newCtx (.flash (c.b 2 0 || s.sys.straps.bootSrc.testBit 1)) true (some c.id) s.stamp))) ∧
    (s.Serves mb spec_LDR_GRANT → s.flag R.LDR_CTRL F.LDR_CTRL_LOCK = false →
      s.grantForeign (c.n 2 4 0) (c.w 3).toNat (c.n64 4 % 2 ^ 40) = false → exec (.ldrGrant mb) s =
      s.done mb (((s.wr (R.LDR_GRANT_SHEETS (c.n 2 4 0)) (c.w 3)).wr (R.LDR_GRANT_WALES_LO (c.n 2 4 0)) (c.w 4)).wr
        (R.LDR_GRANT_WALES_HI (c.n 2 4 0)) (word (c.n 2 8 8 * 2 ^ 31 + c.n 5 7 0)))) ∧
    (s.Serves mb spec_LDR_LOCK → exec (.ldrLock mb) s = s.done mb (s.put R.LDR_CTRL F.LDR_CTRL_LOCK 1)) ∧
    (s.Serves mb spec_LDR_COUNTERS → exec (.ldrCounters mb) s =
      s.done mb (if c.b 2 0 then ((List.range 4).map R.LDR_COUNT).foldl (fun v a => v.wr a 0) s else s)
        ((List.range 4).map (fun j => s.rd (R.LDR_COUNT j)))) ∧
    (s.Serves mb spec_SHT_SWITCH → switchFields c s.commitLand = none →
      let v := s.commitLand
      v.fabric.group = none → (swWaleList c).any (fun w => (v.wale w).shift.isSome) = false →
      v.riserWalk (v.walkTables none) (fun n k => (swSheets c).testBit n || swNames c (tileOfRiser n k).1) (swPair c v) = none →
      let g : GroupSw := ⟨c.id, (swSheetList c).length + (swWaleList c).length, false⟩
      exec (.shtSwitch mb) s = s.taken mb { v with fabric := { v.fabric with group := some g } }
        [if c.n64 7 = 0 then v.stamp + 2000 else c.n64 7, swSheets c, (c.w 3).toNat + (c.w 4).toNat * 2 ^ 32, swWales c, swTiles c,
         swPattern c]))

/-- LDR.LOCK that passes the checks of Table 2-4 sets LOCK and is answered DONE; where LOCK is set already it changes nothing else (R268).
Says that these rows answer a next state: ldrLock. -/
def Obligations.LoaderLock : Prop :=
  ∀ (s : State) (mb : Nat), s.RegsWf → s.Serves mb spec_LDR_LOCK →
    exec (.ldrLock mb) s = s.done mb (s.put R.LDR_CTRL F.LDR_CTRL_LOCK 1) ∧
    (s.put R.LDR_CTRL F.LDR_CTRL_LOCK 1).flag R.LDR_CTRL F.LDR_CTRL_LOCK = true ∧
    (s.flag R.LDR_CTRL F.LDR_CTRL_LOCK = true → exec (.ldrLock mb) s = s.done mb s)

/-! ### Streams -/

/-- Streams: an element of an unbuffered stream passes straight to its consumer, after what waits ahead of it, while the consumer grants
credit, and else its producer keeps or loses it; one of a FREE buffered stream enters the ring at its place, and a seam waits for delivery
after the elements before it; a delivery passes what comes next with the owner's TAG; a unit past its latest usable time turns empty
positions into gaps; a flit ahead of its hop's SEQ brings a gap, one behind is discarded; bind-off places the final seam, and closes the
stream when it is taken or on its timeout (R272 to R292, R296). The STR commands: STATUS and COUNTERS return the stream's registers; OPEN
and OPEN_X open the stream named, or with ANY the lowest closed one, and return its number; SEAM queues a seam on an open stream; BINDOFF
starts bind-off with its budget, 10 ms unless given (R297 to R305). Where the rules leave more than one reading it is the model's choice
(log entries 35 and 36). Says that these rows answer a next state: streamElementArrival, streamSeamArrival, latestUsableTime,
streamDelivery, graticuleStreamFlit, bindoffFinalSeam, bindoffSeamTaken, bindoffTimeout, strCfgOpen, strStatus, strOpen, strSeam,
strBindoff, strOpenX, strCounters. -/
def Obligations.Streams : Prop :=
  ((∀ (s : State) (n : Nat) (e : Elem),
    let v := s.strSettle n
    let x := v.stream n
    x.st = .open_ →
    (v.strBuffered n = false →
      let w := v.strAhead n (2 * x.seams.length + 1)
      (w.strBlocked n = false → exec (.streamElementArrival n none e) s = .next ((w.strPass n e).strFlit n 1)) ∧
      (w.strBlocked n = true → epStalls (v.strProducer n) = true → exec (.streamElementArrival n none e) s = .next w) ∧
      (w.strBlocked n = true → epStalls (v.strProducer n) = false → exec (.streamElementArrival n none e) s =
        .next ((w.setStream n { w.stream n with losses := (w.stream n).losses + 1, wpos := (w.stream n).wpos + 1 }).strLoss n 3))) ∧
    ((x.seams.filter (·.2)).length < 64 → v.strBuffered n = true → v.strSched n = false →
      exec (.streamSeamArrival n) s = .next (v.setStream n { x with seams := x.seams ++ [(x.wpos, true)] }) ∧
      (e.isSeam = false → e.isGap = false → x.dpos ≤ x.wpos → x.wpos < x.dpos + v.strRingLen n → x.mark x.wpos = .empty →
        let y := { x with wpos := x.wpos + 1 }
        let g : Elem := { e with sb := BitVec.ofNat 8 (v.strTenant n % 8 * 32 + e.sb.toNat % 32) }
        exec (.streamElementArrival n none e) s =
          .next (((v.setStream n y).setStream n { y.setMark x.wpos .elem with fillTo := max x.fillTo (x.wpos + 1) }).ringPut n x.wpos g)))) ∧
  (∀ (s : State) (n : Nat),
    let v := s.strSettle n
    let x := v.stream n
    x.st ≠ .closed → v.strRoom n = true →
    (∀ (ue : Bool) (e : Elem) (t : State), v.strSend n ue false = (some e, t) → exec (.streamDelivery n ue) s =
      .next (((t.setStream n { t.stream n with seqMid := ((t.stream n).seqMid + 1) % 2 ^ 24 }).strPush n e).strFlit n 1)) ∧
    (x.final = none → v.strBuffered n = true → v.strSched n = false → x.seams = [] → x.mark x.dpos = .elem →
      let t := v.setStream n { x.setMark x.dpos .empty with dpos := x.dpos + 1 }
      v.strSend n false false = (some (v.ringGet n x.dpos), t))) ∧
  (∀ (s : State) (n : Nat) (u : RelUnit) (rest : List RelUnit), (s.stream n).pend = u :: rest →
    exec (.latestUsableTime n) s = .next ((s.reach ((u.latest + 1535) / 1536)).strSettle n)) ∧
  (∀ (s : State) (n seq : Nat) (els : List Elem), (s.stream n).st ≠ .closed → els ≠ [] → els.length ≤ 3 →
    (s.strBuffered n = true ∨ s.strRouted n = true) →
    let ahead := (seq + 2 ^ 24 - (s.stream n).seqIn % 2 ^ 24) % 2 ^ 24
    (ahead = 0 → (s.strFlitIn n els = none → exec (.graticuleStreamFlit n seq (.producer els)) s = .next s) ∧
      ∀ t, s.strFlitIn n els = some t → exec (.graticuleStreamFlit n seq (.producer els)) s =
        .next (t.setStream n { t.stream n with seqIn := (seq + els.length) % 2 ^ 24 })) ∧
    (0 < ahead → ahead < 2 ^ 23 → ∀ t, s.strFlitIn n (mkGap ahead :: els) = some t →
      exec (.graticuleStreamFlit n seq (.producer els)) s =
        .next ((t.report 0x31 n).setStream n { (t.report 0x31 n).stream n with seqIn := (seq + els.length) % 2 ^ 24 })) ∧
    (2 ^ 23 ≤ ahead →
      exec (.graticuleStreamFlit n seq (.producer els)) s = .next ((s.strCount n 3 els.length).report 0x31 n))) ∧
  (∀ (s t : State) (n seq k : Nat) (els : List Elem), (s.stream n).st ≠ .closed → s.strBuffered n = true → k ≤ 3 → els ≠ [] →
    (s.strSettle n).strRoom n = true → (s.strSettle n).strSendMany n k = (els, t) →
    let ahead := (seq + 2 ^ 24 - (s.stream n).seqMid % 2 ^ 24) % 2 ^ 24
    (ahead = 0 →
      let u := (els.foldl (fun t e => t.strPush n e) t).strFlit n els.length
      exec (.graticuleStreamFlit n seq (.buffer k)) s = .next (u.setStream n { u.stream n with seqMid := (seq + els.length) % 2 ^ 24 })) ∧
    (2 ^ 23 ≤ ahead →
      exec (.graticuleStreamFlit n seq (.buffer k)) s = .next ((t.strCount n 3 els.length).report 0x31 n))) ∧
  (∀ (s : State) (n : Nat), (s.stream n).st = .binding →
    ((s.stream n).final = none → exec (.bindoffFinalSeam n) s = .next (s.strFinal n)) ∧
    (∀ e, (s.stream n).finalSent = true → (s.stream n).inbox = [e] →
      let v := s.setStream n { s.stream n with inbox := [], flits := dropElems (s.stream n).flits.sum (s.stream n).flits }
      exec (.bindoffSeamTaken n) s = .next ((v.setStream n { v.stream n with flits := v.strFlits n }).strClose n .DONE)) ∧
    exec (.bindoffTimeout n) s = .next (s.strTimeout n)) ∧
  (∀ (s : State) (m : Master) (w : Word), (m = .ubtor ∨ m = .jtag) →
    exec (.strCfgOpen m w) s = .next (s.strCfgWrite (s.strSel m) (w ||| 0x80000000)))) ∧
  (∀ (s : State) (mb : Nat),
    let c := s.msg mb
    let n := c.n 2 11 0
    notStreamOwner c s = none →
    (s.Serves mb spec_STR_STATUS → exec (.strStatus mb) s = s.done mb s
      [s.strStatus n, s.rd (strKey n R.STR_CFG), s.rd (strKey n R.STR_ENDS), s.rd (strKey n R.STR_RING_BASE), s.rd (strKey n R.STR_RING_LEN),
       s.rd (strKey n R.STR_LATE), s.strSeq n]) ∧
    (∀ q k b, s.Serves mb spec_STR_OPEN → strOpenReq c = some q → s.openBad q = false → openDenied c s q = false →
      openTarget c s = some k → s.openPlace k q = .ok b → exec (.strOpen mb) s = s.done mb (s.strOpen k q b) [word k, word q.len]) ∧
    (∀ k b, s.Serves mb spec_STR_OPEN_X → s.openBad (strOpenXReq c) = false → openDenied c s (strOpenXReq c) = false →
      openTarget c s = some k → s.openPlace k (strOpenXReq c) = .ok b →
      exec (.strOpenX mb) s = s.done mb (s.strOpen k (strOpenXReq c) b) [word k]) ∧
    (s.Serves mb spec_STR_SEAM →
      let v := s.airActDue
      (v.stream n).st = .open_ → exec (.strSeam mb) s = s.done mb (v.strSeam n)) ∧
    (s.Serves mb spec_STR_BINDOFF → (s.stream n).st = .open_ → exec (.strBindoff mb) s =
      s.taken mb (s.strBind n (if c.n 2 31 16 = 0 then 10 else c.n 2 31 16) (some c.id)) [n]) ∧
    (s.Serves mb spec_STR_COUNTERS → exec (.strCounters mb) s =
      s.done mb (if c.b 2 16 then ((List.range 8).map (fun k => strKey n (R.STR_COUNT k))).foldl (fun v a => v.wr a 0) s else s)
        ((List.range 8).map (fun k => s.rd (strKey n (R.STR_COUNT k))))))

/-! ### The air schedule -/

/-- The air schedule's engine: it dispatches entries in order no earlier than 1024 samples before their instants, wrapping at the table's
end; each action acts at its entry's instant and is counted; it starts, unless the time-error budget is lost, swaps tables and stops at
boundaries; sealing ends READY or with the failure; reads of the low halves latch the high ones (R308 to R321, R325). Where the rules leave
more than one reading it is the model's choice (log entries 37 and 38). Says that these rows answer a next state: airEntryDispatch,
airActionNop, airActionPlane, airActionPattern, airActionRelease, airActionMute, airActionPin, airActionSample, airActionCascade,
airBcastAct, airScheduleStart, airSwapBoundary, airStop, airTimeLoRead, airSwapLoRead, tableSealComplete, tapReadComplete. -/
def Obligations.AirSchedule : Prop :=
  (∀ (s : State), s.airLive = true → s.air.stop = none →
    let e := s.airEntry s.airTable s.air.next
    let at_ := s.air.base + e.offset
    let d : AirDue := ⟨at_, e⟩
    let wrap := decide (s.airCount s.airTable ≤ s.air.next + 1)
    exec .airEntryDispatch s = .next ((s.reach (s.stampOfAir (at_ - 1024))).setAir { s.air with
      due := s.air.due ++ [d], next := if wrap then 0 else s.air.next + 1,
      base := if wrap then s.air.base + s.airPeriod s.airTable else s.air.base })) ∧
  (∀ (s : State) (d : AirDue) (rest : List AirDue), s.air.due = d :: rest → s.airRuns = true →
    (∀ x, s.air.stop.map (·.1) = some x → d.at_ ≤ x) →
    let v := ((s.setAir { s.air with due := rest }).reach (s.stampOfAir d.at_)).setsDue.bump (R.AIR_CNT 0)
    (d.e.action = 0 → exec .airActionNop s = .next v) ∧
    (d.e.action = 1 → exec .airActionPlane s = .next ((List.range 32).foldl (fun s n =>
      match d.e.planeOf n with
      | some p => if s.islandRefuses (s.lead n) then s.airMissed .air else s.orderSheet n p (s.stampOfAir d.at_) .air
      | none => s) v)) ∧
    (d.e.action = 2 → exec .airActionPattern s = .next (((List.range 40).filter d.e.wales.testBit).foldl (fun s w =>
      if d.e.w2.bits 31 16 = 0 then s
      else if s.islandRefuses (32 + w) then s.airMissed .air ((List.range 16).countP (d.e.w2.bits 31 16).testBit)
      else s.orderWale w (d.e.w2.bits 31 16) (d.e.w2.bits 11 8) (s.stampOfAir d.at_) .air) v)) ∧
    (d.e.action = 3 →
      let same (x : AirDue) : Bool := decide (x.e.action = 3 ∧ x.at_ = d.at_)
      let slots (w : State) (x : AirDue) : State := ((w.airSlot x.e.w1 x.at_).airSlot x.e.w2 x.at_).airSlot x.e.w3 x.at_
      exec .airActionRelease s = .next ((v.air.due.filter same).foldl (fun w x => slots (w.bump (R.AIR_CNT 0)) x)
        (slots (v.setAir { v.air with due := v.air.due.filter (fun x => !same x) }) d))) ∧
    (d.e.action = 4 → exec .airActionMute s = .next (v.muteLinks (d.e.w1.bits 15 0) (d.e.w2.bit 0) d.at_)) ∧
    (d.e.action = 5 → exec .airActionPin s = .next (((v.pinSlot d.e.w1).pinSlot d.e.w2).pinSlot d.e.w3)) ∧
    (d.e.action = 6 → (v.tap (d.e.w1.bits 31 28)).isSome = true ∨
        (∀ n, v.epStream (0x3000 + d.e.w1.bits 7 0) = some n → (v.stream n).st ≠ .open_) →
      exec .airActionSample s = .next (v.bump (R.AIR_CNT 5))) ∧
    (∀ n, d.e.action = 6 → v.tap (d.e.w1.bits 31 28) = none → v.epStream (0x3000 + d.e.w1.bits 7 0) = some n → (v.stream n).st = .open_ →
      exec .airActionSample s =
        .next (v.setTap (d.e.w1.bits 31 28) (some ⟨d.e.w1.bits 7 0, d.at_, d.e.w2.bits 21 0, 0, 0⟩))) ∧
    (d.e.action = 7 → v.position ≠ 0 ∨ v.cascadeCount < 2 → exec .airActionCascade s = .next v) ∧
    (d.e.action = 7 → v.position = 0 → 2 ≤ v.cascadeCount →
      let at_ := d.at_ + d.e.w2.bits 15 0
      let b : AirBcast := ⟨at_, d.e.w1, d.e.w2.bit 31⟩
      let u : YarnUnit := .bcast d.e.w1 (d.e.w2.bit 31) at_
      exec .airActionCascade s = .next ((((v.yarnTime 0 u).yarnTime 1 u).bcastAdd b).bump (R.AIR_CNT 6)))) ∧
  (∀ (s : State) (b : AirBcast) (rest : List AirBcast), s.air.bcasts = b :: rest →
    let v := ((s.setAir { s.air with bcasts := rest }).reach (s.stampOfAir b.at_)).wr R.AIR_BCAST b.value
    (b.swap = false → exec .airBcastAct s = .next v) ∧
    (b.swap = true → (∀ w, v.airSwapOrder b.at_ none = .ok w → exec .airBcastAct s = .next w) ∧
      ∀ r, v.airSwapOrder b.at_ none = .error r → exec .airBcastAct s = .next v)) ∧
  (∀ (s : State) (b id : Nat), s.air.start = some (b, id) →
    let v := (s.setAir { s.air with start := none }).reach (s.stampOfAir b)
    (v.merGood = false → exec .airScheduleStart s = .next ((v.setAir { v.air with due := [] }).complete id .BUDGET_EXCEEDED)) ∧
    (v.merGood = true →
      let w : State := { v with pins := { v.pins with idle := (List.range 7).map (fun k => v.rd (R.AIR_IDLE k)) } }
      exec .airScheduleStart s = .next (((w.put R.AIR_STATUS F.AIR_STATUS_RUN 1).enter .onAir).complete id .DONE))) ∧
  (∀ (s : State) (b : Nat) (id : Option Nat), s.air.swap = some (b, id) → s.airRuns = true → s.air.stop = none → b ≤ s.air.base →
    s.air.due = [] →
    let v := (s.reach (s.stampOfAir b)).airExchange
    let w := v.put (R.AIR_PHASE v.airActive) F.AIR_PHASE_PHASE (b % max 1 (v.airPeriod v.airActive))
    exec .airSwapBoundary s =
      .next (((w.setAir { w.air with swap := none }).put R.AIR_STATUS F.AIR_STATUS_SWAP_PENDING 0).completeOpt id .DONE)) ∧
  (∀ (s : State) (t : Nat) (id : Option Nat), s.air.stop = some (t, id) → s.airFuture t = [] →
    let v := (s.reach (s.stampOfAir t)).airHalt t
    exec .airStop s = .next ((if v.sys.dev = .onAir then v.enter .charted else v).completeOpt id .DONE)) ∧
  (∀ (s : State) (x : AirSeal), s.air.sealing = some x →
    let v := s.setAir { s.air with sealing := none }
    (∀ rc i w, v.sealFails x = some (rc, i, w) → exec .tableSealComplete s = .next (v.complete x.openId rc [word i, w])) ∧
    (v.sealFails x = none → exec .tableSealComplete s =
      .next (((((v.put (R.AIR_PERIOD x.table) F.AIR_PERIOD_PERIOD x.period).put (R.AIR_PHASE x.table) F.AIR_PHASE_PHASE x.phase).put
        (R.AIR_LEN x.table) F.AIR_LEN_COUNT x.count).put (R.AIR_LEN x.table) F.AIR_LEN_STATE 2).complete x.openId .DONE))) ∧
  (∀ (s : State) (m : Master), s.sys.dev ≠ .off → swf (fun _ => (0 : Word)) s.latch = true →
    (busReach m false R.AIR_TIME_LO = true →
      ∃ u, exec (.airTimeLoRead m) s = .next u ∧ u.latched m R.AIR_TIME_HI = hiWord s.airNow ∧ u.regs = s.regs) ∧
    (busReach m false R.AIR_SWAP_LO = true →
      ∃ u, exec (.airSwapLoRead m) s = .next u ∧ u.latched m R.AIR_SWAP_HI = hiWord s.airSwapAt ∧ u.regs = s.regs)) ∧
  (∀ (s : State) (o : OpenCmd) (x : Tap), s.openOf 0x0B85 = some o → s.tap (o.args.getD 0 0) = some x → o.args.getD 1 0 = 0 →
    let bs := (List.range (8 * x.held)).map (fun j => sget (fun _ => (0 : Byte)) s.store (tapBase (o.args.getD 0 0) + j))
    exec .tapReadComplete s =
      .next ((s.hostWrite (o.args.getD 2 0) bs).complete o.id .DONE [word x.held, loWord x.first, hiWord x.first]))

/-- The AIR commands: STATUS, READ and COUNTERS return; PRESET builds a table and seals it; LOAD writes entries and SEAL checks them; ENABLE
starts at the first boundary from 100 µs on; DISABLE stops at the next boundary or at once; SWAP orders, or withdraws, a swap; IDLE sets pin
levels; TAP_READ sends a full tap to host memory (R322 to R338). Where the rules leave more than one reading it is the model's choice (log
entries 37 and 38). Says that these rows answer a next state: airStatus, airPreset, airEnable, airDisable, airSwap, airLoad, airSeal,
airRead, airIdle, airCounters, airTapRead. -/
def Obligations.AirCommands : Prop :=
  ∀ (s : State) (mb : Nat),
    let c := s.msg mb
    let t := c.n 2 31 31
    (s.Serves mb spec_AIR_STATUS → exec (.airStatus mb) s = s.done mb s [s.rd R.AIR_STATUS, loWord s.airNow, hiWord s.airNow,
      s.rd (R.AIR_LEN 0), s.rd (R.AIR_LEN 1), loWord s.airSwapAt, hiWord s.airSwapAt]) ∧
    (s.Serves mb spec_AIR_PRESET → presetBad c = false → s.air.swap = none → s.air.sealing = none →
      let x := presetOf c
      let v := x.entries.zipIdx.foldl (fun v e => v.setAirEntry s.airOther e.2 e.1) s
      let v := v.setAir { v.air with tdd := sset (fun _ => []) v.air.tdd s.airOther x.regions }
      let v := [x.pa, x.lna, x.tr].foldl (fun v p => if p = 0xFF then v else v.setBit (R.AIR_IDLE (p / 32)) (p % 32) false) v
      exec (.airPreset mb) s = s.taken mb (v.airSealStart ⟨s.airOther, x.entries.length, 1228800, c.n 11 26 0, c.id⟩)) ∧
    (s.Serves mb spec_AIR_ENABLE → s.sys.dev = .charted → s.airState s.airActive = 3 → s.air.start = none → s.merGood = true →
      let b := s.airBoundary s.airIn100
      exec (.airEnable mb) s = s.taken mb (s.setAir { s.air with start := some (b, c.id), base := b, next := 0, due := [] })) ∧
    (s.Serves mb spec_AIR_DISABLE → s.sys.dev = .onAir → s.air.stop = none →
      let b := if c.b 2 0 then s.airNow else s.airBoundary (s.airNow + 1)
      let v := match s.air.swap with | some (x, _) => if b ≤ x then s.airRedispatch x else s | none => s
      exec (.airDisable mb) s = s.taken mb (v.setAir { v.air with
        stop := some (b, some c.id), due := v.air.due.filter (fun d => decide (d.at_ ≤ b)) })) ∧
    (s.Serves mb spec_AIR_SWAP →
      (c.b 2 0 = true → s.air.swap.isSome = true → exec (.airSwap mb) s = s.done mb s.airCancelSwap) ∧
      (∀ v, c.b 2 0 = false → c.n64 3 ≠ 0 → s.airSwapOrder (c.n64 3) (some c.id) = .ok v →
        exec (.airSwap mb) s = if s.airLive = true then s.taken mb v else s.done mb v)) ∧
    (s.Serves mb spec_AIR_LOAD → (c.length - 3) % 4 = 0 → c.n 2 11 0 + (c.length - 3) / 4 ≤ 4096 → s.airHeld t = false →
      let v := (List.range ((c.length - 3) / 4)).foldl (fun v i =>
        v.setAirEntry t (c.n 2 11 0 + i) ⟨c.w (3 + 4 * i), c.w (4 + 4 * i), c.w (5 + 4 * i), c.w (6 + 4 * i)⟩) s
      exec (.airLoad mb) s = s.done mb ((v.setAir { v.air with tdd := sset (fun _ => []) v.air.tdd t [] }).put
        (R.AIR_LEN t) F.AIR_LEN_STATE 1)) ∧
    (s.Serves mb spec_AIR_SEAL → s.airHeld t = false → s.air.sealing = none → exec (.airSeal mb) s =
      s.taken mb (s.airSealStart ⟨t, c.n 2 12 0, c.n 3 26 0, c.n 4 26 0, c.id⟩)) ∧
    (s.Serves mb spec_AIR_READ → c.n 2 19 16 ≠ 0 → c.n 2 11 0 + c.n 2 19 16 ≤ 4096 → exec (.airRead mb) s =
      s.done mb s ((List.range (c.n 2 19 16)).flatMap (fun i =>
        let e := s.airEntry t (c.n 2 11 0 + i)
        [e.w0, e.w1, e.w2, e.w3]))) ∧
    (s.Serves mb spec_AIR_IDLE → c.n 2 2 0 ≤ 6 → exec (.airIdle mb) s = s.done mb (s.wr (R.AIR_IDLE (c.n 2 2 0)) (c.w 3))) ∧
    (s.Serves mb spec_AIR_COUNTERS → exec (.airCounters mb) s =
      s.done mb (if c.b 2 0 then ((List.range 8).map R.AIR_CNT).foldl (fun v a => v.wr a 0) s else s)
        ((List.range 8).map (fun k => s.rd (R.AIR_CNT k)))) ∧
    (∀ x, s.Serves mb spec_AIR_TAP_READ → c.n64 3 % 4096 = 0 → s.policy 3 = true → s.tap (c.n 2 3 0) = some x → x.left = 0 →
      exec (.airTapRead mb) s = s.taken mb s [c.n 2 3 0, c.n 2 8 8, c.n64 3])

/-! ### Fronthaul and converter links -/

/-- The fronthaul engine: a good frame is counted and goes where its EtherType says, a bad one is only counted; negotiation sets the mode of
the lanes it uses; the transmitter sends a PTP message first, then an answer to a delay measurement, then flow entries in turn; a transmit
flow frames what its buffer delivers (R393 to R404); the FHE commands read, write and clear entries (R419 to R421). Where the rules leave
more than one reading it is the model's choice (log entries 39, 40 and 67). Says that these rows answer a next state: ethFrameReceived,
ethAutonegComplete, ethFrameTransmit, txIqUnitFraming, fheStatus, fheFlow, fheCounters. -/
def Obligations.Fronthaul : Prop :=
  (∀ (s : State) (mac : Nat) (f : EthFrame), mac < 16 → s.flag (R.FHE_MAC mac) F.FHE_MAC_UP = true →
    let v := (s.macCount mac 2 f.corrected).macCount mac 3 f.uncorrectable
    (f.fcs = false ∨ f.bytes.length < 64 ∨ 9600 < f.bytes.length → exec (.ethFrameReceived mac f) s = .next (v.macCount mac 1)) ∧
    (f.fcs = true → 64 ≤ f.bytes.length → f.bytes.length ≤ 9600 → exec (.ethFrameReceived mac f) s = .next (
      let v := v.macCount mac 0
      match etherKind f.bytes, f.content with
      | .ecpri, .ecpri ms => ms.foldl (fun s m => s.ecpri mac m) v
      | .ecpri, _ => v.macCount mac 4
      | .ptp udp, .ptp m => (v.ptpStampRx mac).ptpMessage mac { m with udp := udp }
      | .ptp _, _ => v.ptpStampRx mac
      | .esmc, .esmc ql => v.esmcMessage mac ql
      | .esmc, _ => v
      | .macControl, _ => v.macCount mac 4
      | .twoTags, _ => v.macCount mac 4
      | .other, _ =>
        match rxEntries.find? (fun e => v.flowOn e 2 mac) with
        | some e => v.flowSend e (markEnds (packBytes f.bytes))
        | none => v.macCount mac 4))) ∧
  (∀ (s : State) (mac n : Nat) (r : SvyRec) (fec : Bool), s.groupLanes 1 mac = [n] → laneRecOf s.svy.recs n = some r →
    s.laneState n = laneTRAINING → r.f 3 24 24 = 1 → r.f 3 25 25 = 0 → r.f 3 26 26 = 0 → r.f 3 29 29 = 0 →
    exec (.ethAutonegComplete mac 0 fec) s = .next ((((s.setLaneRate n 10312500 false).put (R.FHE_MAC mac) F.FHE_MAC_MODE 1).put
      (R.FHE_MAC mac) F.FHE_MAC_AN_DONE 1).put (R.FHE_MAC mac) F.FHE_MAC_FEC_ON 0)) ∧
  (∀ (s : State) (mac : Nat), mac < 16 → s.flag (R.FHE_MAC mac) F.FHE_MAC_UP = true →
    exec (.ethFrameTransmit mac true) s = .next ((s.ptpStampTx mac).frameOut mac (TxFrame.empty 0 0))) ∧
  (∀ (s : State) (mac : Nat) (f : TxFrame), mac < 16 → s.flag (R.FHE_MAC mac) F.FHE_MAC_UP = true →
    sget (fun _ => []) s.links.fhe.txq mac = [f] → f.entry = 512 → f.due = none →
    exec (.ethFrameTransmit mac false) s = .next ((s.setFhe { s.links.fhe with
      txq := sset (fun _ => []) s.links.fhe.txq mac [],
      rr := sset (fun _ => 256) s.links.fhe.rr mac (sget (fun _ => 256) s.links.fhe.rr mac) }).frameOut mac f)) ∧
  (∀ (s : State) (f n : Nat), f < 256 → s.flowStream (256 + f) = some n → s.flag (R.FHE_FLOW_KEY (256 + f)) F.FHE_FLOW_KEY_VALID = true →
    s.get (R.FHE_FLOW_KEY (256 + f)) F.FHE_FLOW_KEY_KIND = 0 →
    exec (.txIqUnitFraming f) s = .next ((List.range (s.stream n).inbox.length).foldl (fun v _ =>
      match v.strTake n with
      | (some x, v) => v.txTake (256 + f) (max 1 (s.strUnit n)) x
      | (none, v) => v) s)) ∧
  (∀ (s : State) (mb : Nat),
    let c := s.msg mb
    (s.Serves mb spec_FHE_STATUS → exec (.fheStatus mb) s =
      s.done mb s (s.rd (R.FHE_MAC (c.n 2 3 0)) :: (List.range 6).map (fun k => s.rd (R.FHE_MCOUNT (c.n 2 3 0) k)))) ∧
    (s.Serves mb spec_FHE_COUNTERS → exec (.fheCounters mb) s =
      s.done mb (if c.b 2 31 then ((List.range 8).map (R.FHE_FCOUNT (c.n 2 8 0))).foldl (fun v a => v.wr a 0) s else s)
        ((List.range 8).map (fun k => s.rd (R.FHE_FCOUNT (c.n 2 8 0) k)))) ∧
    (s.Serves mb spec_FHE_FLOW → c.b 3 31 = false →
      let e := (if c.b 2 31 then 256 else 0) + c.n 2 7 0
      s.flowStream e = none →
      ∃ u, exec (.fheFlow mb) s = s.done mb u ∧ u.regs = ((List.range 8).foldl (fun s k => s.wr (R.FHE_FCOUNT e k) 0)
        ((((s.wr (R.FHE_FLOW_KEY e) (c.w 3)).wr (R.FHE_FLOW_CFG e) (c.w 4)).wr (R.FHE_FLOW_DST_LO e) (c.w 5)).wr
          (R.FHE_FLOW_DST_HI e) (c.w 6))).regs))

/-- JESD204C links: a SYSREF edge starts establishment, which goes through sync header lock, multiblock lock and buffer release to UP;
errors are counted and repeated ones start again; due samples are played out, muted ones as zero and missing ones as zero with an underflow
counted; samples of an open window enter their stream (R407 to R415); the JSD commands configure links and SYSREF (R422 to R425). Where the
rules leave more than one reading it is the model's choice (log entry 41). Says that these rows answer a next state: sysrefEdge,
syncHeaderLock, embLock, elasticBufferRelease, crc12Error, embLockLoss, jsdTxSampleDue, jsdRxSample, jsdStatus, jsdLink, jsdSysref,
jsdCounters. -/
def Obligations.ConverterLinks : Prop :=
  (∀ (s : State), s.links.jsd.sysref = none → s.merRuns = true →
    let w := s.rd R.JSD_SYSREF
    let mode := w.bits 31 30
    mode ≠ 0 → (mode = 1 → s.links.jsd.shots ≠ 0) →
    let at_ := edgeAfter w s.airNow
    let j := { s.links.jsd with shots := if mode = 1 then s.links.jsd.shots - 1 else s.links.jsd.shots, lastEdge := some (at_, w.bits 19 0) }
    let v := (s.setJsd j).reach (s.stampOfAir at_)
    exec .sysrefEdge s = .next (v.jsdLinks.foldl (fun s k =>
      if s.jsdState k = 1 ∧ s.jsdLanes k ≠ [] ∧ (s.jsdLanes k).all s.laneReady = true then
        (s.setJsdLink k { s.jsdLink k with sync := [], emb := [] }).setJsdState k 2
      else s) v)) ∧
  (∀ (s : State) (k : Nat) (obs : List LaneObs) (v : State), k < 16 → s.jsdState k = 2 → obs.map (·.lane) = s.jsdLanes k →
    s.flag (R.JSD_LINK k) F.JSD_LINK_LANEID = true → s.laneDetect obs = (true, v) →
    exec (.syncHeaderLock k obs) s = .next (v.setJsdLink k { v.jsdLink k with sync := s.jsdLanes k })) ∧
  (∀ (s : State) (k : Nat), k < 16 → s.jsdState k = 2 →
    ((s.jsdLink k).sync ≠ [] →
      exec (.embLock k) s = .next (s.setJsdLink k { s.jsdLink k with emb := (s.jsdLink k).sync })) ∧
    ((s.jsdLink k).emb ≠ [] → (s.jsdLanes k).all s.laneReady = true →
      let v := s.reach (s.stampOfAir (s.releaseAt k))
      exec (.elasticBufferRelease k) s = .next (((v.jsdLanes k).foldl State.laneUpNow v).setJsdState k 3).lanesDone)) ∧
  (∀ (s : State) (n : Nat), s.laneClass n = 2 → s.jsdState (s.laneGroup n) = 3 →
    let k := s.laneGroup n
    let v := s.bump (R.JSD_COUNT k 0)
    let ts := (sget (fun _ => []) (v.jsdLink k).crc n).filter (fun t => decide (v.stamp < t + 1000000)) ++ [v.stamp]
    (ts.length < 16 → exec (.crc12Error n) s =
      .next (v.setJsdLink k { v.jsdLink k with crc := sset (fun _ => []) (v.jsdLink k).crc n ts })) ∧
    (16 ≤ ts.length → exec (.crc12Error n) s =
      .next ((v.setJsdLink k { v.jsdLink k with crc := sdel (v.jsdLink k).crc n }).jsdAgain n)) ∧
    exec (.embLockLoss n) s = .next (s.jsdAgain n)) ∧
  (∀ (s : State) (k j g t : Nat), k < 16 → s.flag (R.JSD_LINK k) F.JSD_LINK_VALID = true → g < jsdG (s.rd (R.JSD_LINK k)) →
    j < jsdM (s.rd (R.JSD_LINK k)) / (2 * jsdG (s.rd (R.JSD_LINK k))) →
    (s.jsdState k ≠ 0 →
      let i := 16 * k + j
      let v := s.reach (s.stampOfAir (t - s.ljt k))
      let m1 := v.muteAt k t
      let m2 := v.muteAt k (t + 2 / 2 ^ (s.rd (R.JSD_LINK k)).bits 29 28)
      let was := (v.jsdTx i).muted
      ((m1 && m2) = true →
        let w := (if was then v else v.jsdMute i).jsdDrop k i
        exec (.jsdTxSampleDue k j g t) s = .next (w.setJsdTx i { w.jsdTx i with last := 0 })) ∧
      ((m1 && m2) = false →
        let w := v.jsdDrop k i
        let w := if was then w.jsdUnmute i else w
        (w.epStream (0x4000 + i) = none →
          let x := w.bump (R.JSD_COUNT k 2) 2
          let z := x.setJsdTx i { x.jsdTx i with last := 0, skip := if (x.jsdTx i).dropToSeam then (x.jsdTx i).skip else (x.jsdTx i).skip + 1 }
          exec (.jsdTxSampleDue k j g t) s = .next (if m2 then z.jsdMute i else z)) ∧
        ∀ (n : Nat) (d : BitVec 64) (x : State), w.epStream (0x4000 + i) = some n → (w.jsdTx i).dropToSeam = false →
          w.jsdNext i n ((w.stream n).inbox.length + 2) = (some d, x) →
          let np16 := x.flag (R.JSD_LINK k) F.JSD_LINK_NP16
          let r := txConvert np16 d
          let y := if r.2 = 0 then x else x.bump (R.JSD_COUNT k 3) r.2
          let quiet := !y.onAirAt t || (y.jsdState k != 2 && y.jsdState k != 3)
          let z := y.setJsdTx i { y.jsdTx i with last := if quiet then 0 else halves np16 m1 m2 r.1 }
          exec (.jsdTxSampleDue k j g t) s = .next (if m2 then z.jsdMute i else z))) ∧
    (∀ (n : Nat) (w : JsdWin) (raw : List Nat), (s.jsdLink k).wins = [w] → w.from_ ≤ t → s.winEnd k w = none → w.seamed.contains j = true →
      s.epStream (0x3000 + (16 * k + j)) = some n → s.jsdState k = 3 → (s.reach (s.stampOfAir (t + s.ljr k))).jsdState k = 3 →
      let e : Elem := ⟨rxConvert ((s.rd (R.JSD_LINK k)).bit 17) raw, 0⟩
      exec (.jsdRxSample k j g t raw) s =
        .next (((s.reach (s.stampOfAir (t + s.ljr k))).strOffer n none e).2.tapTake (16 * k + j) t e.data))) ∧
  (∀ (s : State) (mb : Nat),
    let c := s.msg mb
    let k := c.n 2 3 0
    (s.Serves mb spec_JSD_STATUS → exec (.jsdStatus mb) s = s.done mb s [s.rd (R.JSD_LINK k), s.rd (R.JSD_LAT k), s.rd (R.JSD_RXWIN k),
      s.jsdStatus k, word (s.ljt k * 2 ^ 16 + s.ljr k), s.rd R.JSD_SYSREF]) ∧
    (s.Serves mb spec_JSD_LINK → jsdLinkBad c s = none → (∀ n ∈ s.jsdLanes k, s.laneState n = laneTRAINING) →
      (List.range 16).any (fun j => (s.epStream (0x3000 + 16 * k + j)).isSome || (s.epStream (0x4000 + 16 * k + j)).isSome) = false →
      let w := word (2 ^ 31 + c.n 3 30 28 * 2 ^ 28 + (s.jsdLanes k).length * 2 ^ 24 + c.n 3 23 4 * 2 ^ 4)
      ∃ u, exec (.jsdLink mb) s = s.done mb u ∧ (s.RegsWf → u.rd (R.JSD_LINK k) = w)) ∧
    (s.Serves mb spec_JSD_SYSREF → c.n 2 31 30 = 0 → c.n 2 19 0 ≠ 0 → 245760 % c.n 2 19 0 = 0 → s.jsdLinks = [] →
      ∃ u, exec (.jsdSysref mb) s = s.done mb u ∧ u.regs = (s.wr R.JSD_SYSREF (word ((c.w 2).toNat &&& 0xCF0FFFFF))).regs ∧
        u.links.jsd.sysref.map (·.1) = some ((s.airNow / 245760 + 1) * 245760)) ∧
    (s.Serves mb spec_JSD_COUNTERS → exec (.jsdCounters mb) s =
      s.done mb (if c.b 2 8 then ((List.range 5).map (R.JSD_COUNT k)).foldl (fun v a => v.wr a 0) s else s)
        ((List.range 5).map (fun j => s.rd (R.JSD_COUNT k j)))))

/-! ### The meridian unit -/

/-- The meridian unit: a second boundary selects the reference among the valid ones and steps the state machine of Table 13-6; edges, time
messages, temperatures and learning ticks update its inputs and contour model; leap seconds apply; the oscillator's trim moves by one code
against its error (R427 to R448, R455); the MER commands read and write its registers (R451 to R458). Where the rules leave more than one
reading it is the model's choice (log entries 43, 44, 70 and 71). Says that these rows answer a next state: localSecondBoundary,
ppsInputEdge, todMessage, ptpMessage, esmcMessage, oscTempRead, contourLearnTick, ageingFit, modelStore, leapSecondApply, iroTrimGate,
merStatus, merSelect, merOutputs, merModel, merLeap, merBudget, merModelClear, merCounters. -/
def Obligations.TimeKeeping : Prop :=
  (∀ (s : State) (p : PllSecond), s.merRuns = true → s.sys.dev ≠ .boot →
    let v := (s.reach (s.stampOfLocal ((s.localNow / 4294967296 + 1) * 4294967296))).merCarry
    v.mer.stepNext = none →
    let v := (v.setMer { v.mer with profile := v.get R.MER_CFG F.MER_CFG_PROFILE, outNow := v.rd R.MER_OUT }).refSecond
    v.mer.synce.last = none → v.mer.banned = none →
    let v1 := (v.put R.YRN_STATUS F.YRN_STATUS_TIME_VALID (b2n v.timePort.isSome)).put R.YRN_STATUS F.YRN_STATUS_TIME_PORT
      (v.timePort.getD (v.get R.YRN_STATUS F.YRN_STATUS_TIME_PORT))
    let g := v.gnssValid (v.flag R.MER_STATUS F.MER_STATUS_GNSS_OK)
    let v2 := ((v1.put R.MER_STATUS F.MER_STATUS_GNSS_OK (b2n g)).put R.MER_STATUS F.MER_STATUS_PTP_OK (b2n v.ptpValid)).put
      R.MER_STATUS F.MER_STATUS_SYNCE_OK (b2n v.synceValid)
    let new := selectRef v2.mer.profile g v.ptpValid v.timePort.isSome
    let v3 := (if new ≠ v2.merRef then v2.bump (R.MER_COUNT 0) else v2).put R.MER_STATUS F.MER_STATUS_REF new
    exec (.localSecondBoundary p) s = .next ((v3.merStep p v2.merRef new).merFlags p new)) ∧
  (∀ (s : State), s.merRuns = true →
    (s.mer.gnss.next = none →
      let at_ := ((s.stamp : Int) - sgn 16 (s.get R.MER_GNSS F.MER_GNSS_DELAY_NS)).toNat
      exec .ppsInputEdge s = .next (s.setMer { s.mer with gnss := { s.mer.gnss with edge := some at_, label := none, next := none } })) ∧
    (∀ (rate : Nat) (m : TodMsg),
      (todMsgOk m = false ∨ s.todHeard rate = false → exec (.todMessage ⟨rate, m⟩) s = .next (s.bump (R.MER_COUNT 4))) ∧
      (todMsgOk m = true → s.todHeard rate = true →
        exec (.todMessage ⟨rate, m⟩) s =
          .next ((s.setMer { s.mer with gnss := { s.mer.gnss with rate := some (rate, s.stamp) } }).todTake m))) ∧
    (∀ bs : List Byte, s.merRef ≠ 1 →
      let l : TodLabel := ⟨todField bs 4 6, decide (todField bs 3 1 % 2 = 1) && decide (todField bs 12 2 ≤ 100), s.stamp⟩
      s.todTake (.binary bs) = s.setMer { s.mer with gnss := { s.mer.gnss with next := some l } }) ∧
    (s.svy.committed = true →
      (∀ t : Int, -55 * 256 ≤ t → t ≤ 125 * 256 → exec (.oscTempRead (some t)) s =
        .next (((s.wr R.MER_TEMP (word (unsgn 16 t))).put R.MER_STATUS F.MER_STATUS_SENSOR_OK 1).setMer { s.mer with sensorFails := 0 })) ∧
      (s.mer.sensorFails < 9 → exec (.oscTempRead none) s =
        .next ((s.bump (R.MER_COUNT 5)).setMer { s.mer with sensorFails := s.mer.sensorFails + 1 })) ∧
      (s.mer.sensorFails = 9 → exec (.oscTempRead none) s =
        .next (((s.bump (R.MER_COUNT 5)).setMer { s.mer with sensorFails := 10 }).put R.MER_STATUS F.MER_STATUS_SENSOR_OK 0)) ∧
      exec .modelStore s = .next s.modelStore) ∧
    (s.flag R.MER_LEAP F.MER_LEAP_PENDING = true →
      let l := sgn 8 (s.get R.MER_LEAP F.MER_LEAP_LEAP) + (if s.flag R.MER_LEAP F.MER_LEAP_DIR then -1 else 1)
      let v := (s.put R.MER_LEAP F.MER_LEAP_LEAP (unsgn 8 l)).put R.MER_LEAP F.MER_LEAP_PENDING 0
      exec .leapSecondApply s = .next (v.setMer { v.mer with leapStored := some (v.rd R.MER_LEAP) })) ∧
    (s.svy.committed = false →
      let v := s.put R.MER_IRO F.MER_IRO_TRIM_SRC 0
      let trim := s.get R.MER_IRO F.MER_IRO_IRO_TRIM
      (∀ b, exec (.iroTrimGate b 4) s = .next ((v.put R.MER_IRO F.MER_IRO_ERROR 4).put R.MER_IRO F.MER_IRO_IRO_TRIM (trim - 1))) ∧
      (∀ b, exec (.iroTrimGate b (-4)) s =
        .next ((v.put R.MER_IRO F.MER_IRO_ERROR 252).put R.MER_IRO F.MER_IRO_IRO_TRIM (min 255 (trim + 1)))) ∧
      (∀ b, exec (.iroTrimGate b 3) s = .next ((v.put R.MER_IRO F.MER_IRO_ERROR 3).put R.CKI_STATUS F.CKI_STATUS_IRO_TRIMMED 1)))) ∧
  (∀ (s : State) (mac ql : Nat) (m : PtpMsg),
    exec (.ptpMessage mac m) s = .next (s.ptpMessage mac m) ∧ exec (.esmcMessage mac ql) s = .next (s.esmcMessage mac ql)) ∧
  (∀ (s : State) (y temp : Int) (since : Nat), s.merRuns = true → s.mer.lockedSince = some since → since + 600000000000 ≤ s.stamp →
    s.merState = 2 → s.flag R.MER_STATUS F.MER_STATUS_SENSOR_OK = true → s.oscClass ≠ 0 → -81 * 256 ≤ 2 * temp → 2 * temp < 181 * 256 →
    let co := s.mer.contour
    let k := ((temp + 128) / 256 + 40).toNat
    let sample : LearnSample := ⟨s.localSec, y, k⟩
    let v := s.setMer { s.mer with contour := { co with
      t0 := some (co.t0.getD s.localSec), lockedS := co.lockedS + 60,
      samples := co.samples.filter (fun q => decide (s.localSec ≤ q.t + 1209600)) ++ [sample] } }
    let n := min (v.binN k + 1) 255
    let x := v.binV k + Config.roundDiv (y - v.ageing - v.binV k) (min n 16 : Nat)
    exec (.contourLearnTick y temp) s = .next ((v.wr (R.MER_BIN k) (word (unsgn 24 (satInt 24 x) * 256 + n))).modelFlags)) ∧
  (∀ (s : State) (t0 : Nat), s.merRuns = true → s.mer.contour.t0 = some t0 → t0 + 1209600 ≤ s.localSec →
    let l := (s.mer.contour.samples.filter (fun q => decide (s.localSec ≤ q.t + 1209600 ∧ 10 ≤ s.binN q.k))).map
      (fun q => (((q.t : Int) - t0), q.y - s.binV q.k))
    let st := l.foldl (fun a q => a + q.1) 0
    let sr := l.foldl (fun a q => a + q.2) 0
    let stt := l.foldl (fun a q => a + q.1 * q.1) 0
    let str := l.foldl (fun a q => a + q.1 * q.2) 0
    let den := (l.length : Int) * stt - st * st
    let d := Config.roundDiv (((l.length : Int) * str - st * sr) * 86400) den
    den ≠ 0 → exec .ageingFit s = .next ((s.wr R.MER_AGE (word (unsgn 32 (satInt 32 d)))).setMer
      { s.mer with contour := { s.mer.contour with fitted := true } }).modelFlags) ∧
  (∀ (s : State) (mb : Nat),
    let c := s.msg mb
    (s.Serves mb spec_MER_STATUS → exec (.merStatus mb) s = s.done mb s ([R.MER_STATUS, R.MER_CFG, R.MER_TE, R.MER_BOUND, R.MER_BUDGET,
      R.MER_HOLD, R.MER_TEMP, R.MER_MODEL].map s.rd)) ∧
    (s.Serves mb spec_MER_SELECT → selectBad c s = false → (s.position = 0 ∧ c.n 2 31 28 ≠ 4) ∨ (s.position ≠ 0 ∧ (c.n 2 31 28 = 4 ∨ c.n 2 31 28 = 5)) →
      exec (.merSelect mb) s = s.done mb ((((((s.wr R.MER_CFG (c.w 2)).wr R.MER_GNSS (c.w 3)).wr R.MER_PTP_OWN (c.w 4)).wr R.MER_PTP_GM
        (c.w 5)).wr R.MER_PTP_HOP_LO (c.w 6)).wr R.MER_PTP_HOP_HI (c.w 7))) ∧
    (s.Serves mb spec_MER_OUTPUTS → c.n 2 23 16 = 0 → c.n 2 29 24 ≠ 0 → exec (.merOutputs mb) s = s.done mb (s.wr R.MER_OUT (c.w 2))) ∧
    (s.Serves mb spec_MER_MODEL → 1 ≤ c.n 2 15 8 → c.n 2 15 8 ≤ 60 → c.n 2 7 0 + c.n 2 15 8 ≤ 131 → exec (.merModel mb) s =
      s.done mb s (s.rd R.MER_MODEL :: (List.range (c.n 2 15 8)).map (fun i => s.rd (R.MER_BIN (c.n 2 7 0 + i))))) ∧
    (s.Serves mb spec_MER_LEAP → exec (.merLeap mb) s =
      s.done mb ((s.wr R.MER_LEAP (c.w 2)).setMer { s.mer with leapStored := some (c.w 2) })) ∧
    (s.Serves mb spec_MER_BUDGET → 100 ≤ c.n 2 15 0 → c.n 2 15 0 ≤ 10000 → exec (.merBudget mb) s = s.done mb (s.wr R.MER_BUDGET (c.w 2))) ∧
    (s.Serves mb spec_MER_MODEL_CLEAR → c.n 2 15 0 = 0xC1EA → s.merState < 3 → exec (.merModelClear mb) s =
      s.done mb (s.modelClear.setMer { s.modelClear.mer with mram := none })) ∧
    (s.Serves mb spec_MER_COUNTERS → exec (.merCounters mb) s =
      s.done mb (if c.b 2 0 then ((List.range 8).map R.MER_COUNT).foldl (fun v a => v.wr a 0) s else s)
        ((List.range 8).map (fun k => s.rd (R.MER_COUNT k)))))

/-! ### Clocks and power -/

/-- The crystal and the generators: a failing gate counts, a second one in a row while XTAL_OK, or 2 µs without an edge, starts the crystal
fault; a hundred good gates set XTAL_OK and STAMP_XTAL; a generator that loses its reference coasts, and goes back to its point when it
locks (R460 to R463); gates take writes whole (R468); the sequencer serves one request at a time, and a regulator that does not acknowledge
within 2 ms ends it (R473, R474). Where the rules leave more than one reading it is the model's choice (log entry 45). Says that these rows
answer a next state: xtalGate, xtalEdgeTimeout, generatorReferenceLoss, generatorLock, ckiGateWrite, sequencerRequestServe, avsAck,
avsAckTimeout, frequencyChangeRestart. -/
def Obligations.CrystalAndSequencer : Prop :=
  (∀ (s : State) (iro : Int), s.sys.xtalStable = true → s.svy.committed = false → s.flag R.CKI_STATUS F.CKI_STATUS_IRO_TRIMMED = true →
    (1200 < (iro.natAbs : Int) → s.flag R.CKI_STATUS F.CKI_STATUS_XTAL_OK = true → 1 ≤ s.pwr.failRun →
      exec (.xtalGate none iro) s = .next s.crystalFault) ∧
    (1200 < (iro.natAbs : Int) → s.pwr.failRun = 0 →
      exec (.xtalGate none iro) s = .next { s with pwr := { s.pwr with failRun := 1, passRun := 0 } }) ∧
    ((iro.natAbs : Int) ≤ 1200 → s.pwr.passRun = 99 → s.flag R.CKI_STATUS F.CKI_STATUS_XTAL_OK = false →
      exec (.xtalGate none iro) s = .next (({ s with pwr := { s.pwr with failRun := 0, passRun := 100 } }.put
        R.CKI_STATUS F.CKI_STATUS_XTAL_OK 1).put R.CKI_STATUS F.CKI_STATUS_STAMP_XTAL 1))) ∧
  (∀ (s : State) (i : Nat), s.sys.xtalStable = true →
    (s.flag R.CKI_STATUS F.CKI_STATUS_XTAL_OK = true → exec .xtalEdgeTimeout s = .next s.crystalFault) ∧
    (xtalIslands.contains i = true → sget (fun _ => false) s.pwr.coast i = false →
      exec (.generatorReferenceLoss i) s = .next (s.coastNow i)) ∧
    (s.flag R.CKI_STATUS F.CKI_STATUS_XTAL_OK = true → sget (fun _ => false) s.pwr.coast i = true →
      let v : State := { s with pwr := { s.pwr with coast := sset (fun _ => false) s.pwr.coast i false } }
      exec (.generatorLock i) s = .next (if i < 72 then v.seqAdd ⟨.relock, none, [], none⟩ else v))) ∧
  (∀ (s : State) (m : Master) (v : Word), (m = .ubtor ∨ m = .jtag) →
    (s.sys.dev = .off → exec (.ckiGateWrite m R.CKI_GATE_TIER v) s = .next s) ∧
    (s.sys.dev ≠ .off →
      let wrote (t : State) : State := State.answered m t.busOk
      exec (.ckiGateWrite m R.CKI_GATE_TIER v) s = .next (wrote (s.gateWrite 2 0 4 R.CKI_GATE_TIER v)) ∧
      exec (.ckiGateWrite m R.CKI_GATE_GRP v) s = .next (wrote (s.gateWrite 1 0 22 R.CKI_GATE_GRP v)) ∧
      (∀ k, k < 5 → exec (.ckiGateWrite m (R.CKI_GATE_ISL k) v) s = .next (wrote (s.gateWrite 0 (32 * k) 32 (R.CKI_GATE_ISL k) v))))) ∧
  (∀ (s : State), exec .sequencerRequestServe s = .next s.seqStart) ∧
  (∀ (s : State) (v : SeqServe) (r sent : Nat), s.pwr.serving = some v → v.step = some (r, sent) →
    (∀ e, e ≤ 20000 → v.phase = .raise →
      exec (.avsAck r e) s = .next (((s.reach (sent + e)).railStep r (if r = 0 then v.new.1 else v.new.2)).seqRaise v)) ∧
    (∀ e, 20000 < e → e ≤ 2000000 → v.phase = .raise →
      exec (.avsAck r e) s =
        .next ((((s.reach (sent + e)).bump (R.PWR_COUNT 1)).railStep r (if r = 0 then v.new.1 else v.new.2)).seqRaise v)) ∧
    exec .avsAckTimeout s = .next ((((((s.reach (sent + 2000000)).bump (R.PWR_COUNT 1)).report 0x04 r).put (R.PWR_RAIL 0)
      F.PWR_RAIL_TARGET (max v.old.1 v.new.1)).put (R.PWR_RAIL 1) F.PWR_RAIL_TARGET (max v.old.2 v.new.2)).seqEnd v .SURVEY_MISMATCH)) ∧
  (∀ (s : State) (v : SeqServe) (i k : Nat) (rest : List (Nat × Nat)), s.pwr.serving = some v → v.phase = .freq → v.todo = (i, k) :: rest →
    let w := (s.islandParts i).foldl State.markLate s
    exec .frequencyChangeRestart s = .next (((w.setKhz i (min k (w.wantKhz i))).bump (R.PWR_COUNT 0)).seqFreq { v with todo := rest }))

/-- Island power and DORMANT: an island ordered off passes its point of no return and is OFF, one ordered on, or held at its gate, powers up
with its initial values (R475 to R477); a DORMANT entry passes its point of no return, then waits for a wake event, whose exit powers the
islands up and returns to QUIET, its streams restarting with a seam (R479, R480). Where the rules leave more than one reading it is the
model's choice (log entries 21, 45 and 72). Says that these rows answer a next state: islandPowerSwitchOpen, islandOff,
islandPowerUpComplete, dormantPointOfNoReturn, dormantEntryComplete, wakeEvent, dormantExitPowerUp, dormantExitComplete. -/
def Obligations.IslandsAndDormant : Prop :=
  (∀ (s : State) (i : Nat), i < 72 → s.pwr.dorm = .none →
    let l := s.leadIsland i
    (s.stage i = .closing → exec (.islandPowerSwitchOpen i) s =
      .next ((s.setStage i .opened).capCopied (fun n => decide (s.lead n = s.leadIsland i)) true)) ∧
    (s.stage i = .opened → sget (fun _ => false) s.pwr.held l = false →
      sget (fun _ => false) (((s.setStage l .off).setPsw l false).stageDone l .DONE).pwr.held l = false →
      exec (.islandOff i) s = .next (((s.setStage l .off).setPsw l false).stageDone l .DONE)) ∧
    (s.stage i = .powering →
      let v := ((s.setStage l .on).setPsw l true).islandInit l
      exec (.islandPowerUpComplete i) s =
        .next ({ v with pwr := { v.pwr with held := sset (fun _ => false) v.pwr.held l false } }.fitRails.stageDone l .DONE))) ∧
  (∀ (s : State), s.pwr.dorm = .entry → exec .dormantPointOfNoReturn s =
    .next ((({ s with pwr := { s.pwr with dorm := .noReturn } }.stageAll .opened).capCopied (fun _ => true) true).dormDone .DONE)) ∧
  (∀ (s : State), s.pwr.dorm = .noReturn →
    let v := ((((s.stageAll .off).resetKeys [R.PWR_RAIL 0, R.PWR_RAIL 1]).wr (R.PWR_PSW 0) 0).wr (R.PWR_PSW 1) 0).wr (R.PWR_PSW 2) 0
    let v := v.stagesDone State.stageAsksOff .DONE
    let p : DormPhase := if v.pwr.heldWake then .exitPower else .dormant
    exec .dormantEntryComplete s = .next ({ v with pwr := { v.pwr with dorm := p, heldWake := false, held := [] } }.enter .dormant)) ∧
  (∀ (s : State), exec (.wakeEvent 0x11) s = .next (s.wake 0x11)) ∧
  (∀ (s : State) (src : Nat), 1 ≤ src → src ≤ 16 → s.bit R.PWR_WAKE (src - 1) = true → exec (.wakeEvent src) s = .next (s.wake src)) ∧
  (∀ (s : State), s.pwr.dorm = .exitPower →
    let v0 := s.railTarget 0 true
    let v1 := s.railTarget 1 true
    let v := (s.put (R.PWR_RAIL 0) F.PWR_RAIL_TARGET v0).put (R.PWR_RAIL 0) F.PWR_RAIL_PRESENT v0
    let v := (v.put (R.PWR_RAIL 1) F.PWR_RAIL_TARGET v1).put (R.PWR_RAIL 1) F.PWR_RAIL_PRESENT v1
    let v := (v.stageAll .on).resetKeys [R.PWR_PSW 0, R.PWR_PSW 1, R.PWR_PSW 2]
    let v := (List.range 72).foldl (fun v i => if i < 32 then v.sheetInit i else v.waleInit (i - 32)) v
    let v := v.stagesDone (fun _ _ => true) .DONE
    exec .dormantExitPowerUp s = .next { v with pwr := { v.pwr with dorm := .exitQuiet } }) ∧
  (∀ (s : State), s.pwr.dorm = .exitQuiet →
    let v := ({ s with pwr := { s.pwr with dorm := .none } }.enter .quiet).lanesMove
    let v := v.liveStreams.foldl (fun w n => if epKind (w.strProducer n) = 5 then w else w.strRestart n) v
    exec .dormantExitComplete s = .next ((v.pairResumes 1).pairResumes 2))

/-- The CLK and PWR commands: the status commands return registers; GATE opens or closes a gate; FREQ and OP queue requests to the
sequencer; ISLAND starts an island's power-down or power-up; WAKE writes PWR_WAKE; AVS_READ returns what the regulator replies (R484 to
R491). Where the rules leave more than one reading it is the model's choice (log entry 45). Says that these rows answer a next state:
clkStatus, clkGate, clkFreq, pwrStatus, pwrOp, pwrIsland, pwrWake, pwrAvsRead. -/
def Obligations.PowerCommands : Prop :=
  ∀ (s : State) (mb : Nat),
    let c := s.msg mb
    (s.Serves mb spec_CLK_STATUS → exec (.clkStatus mb) s =
      s.done mb s (s.rd R.CKI_STATUS :: (List.range 5).map s.onIsl ++ (List.range 5).map (fun k => s.rd (R.CKI_REFLOST k)))) ∧
    (s.Serves mb spec_CLK_GATE → c.n 2 17 16 = 0 → c.n 2 7 0 ≤ 143 → foreignIsland c s (c.n 2 7 0) = false →
      s.gateClosed 0 (c.n 2 7 0) = false → s.gateOrder 0 (c.n 2 7 0) (c.b 2 8) = false →
      exec (.clkGate mb) s = s.done mb (s.gateTaken 0 (c.n 2 7 0) (c.b 2 8))) ∧
    (s.Serves mb spec_CLK_FREQ → c.n 2 6 0 ≤ 71 → 50000 ≤ c.n 3 20 0 →
      c.n 3 20 0 ≤ s.pointKhz (s.leadIsland (c.n 2 6 0)) (s.effPoint (s.leadIsland (c.n 2 6 0))) → s.pwr.queue.length < 16 →
      exec (.clkFreq mb) s = s.taken mb (s.seqAdd ⟨.clkFreq, some (s.leadIsland (c.n 2 6 0), c.n 3 20 0), [], some c.id⟩)) ∧
    (s.Serves mb spec_PWR_STATUS → exec (.pwrStatus mb) s = s.done mb s [s.pwrStatus, s.rd (R.PWR_RAIL 0), s.rd (R.PWR_RAIL 1)]) ∧
    (s.Serves mb spec_PWR_OP → opIslands c ≠ [] → (opIslands c).any (foreignIsland c s) = false → s.pwr.queue.length < 16 →
      let all := (opIslands c).flatMap (fun i => s.islandParts (s.leadIsland i))
      let v := all.foldl (fun v i => v.put (R.PWR_OP (i / 16)) (F.PWR_OP_OP (i % 16)) (c.n 5 1 0)) s
      exec (.pwrOp mb) s = s.taken mb ((v.dropOverride all.contains).seqAdd ⟨.pwrOp, none, all, some c.id⟩)) ∧
    (s.Serves mb spec_PWR_ISLAND → c.n 2 6 0 ≤ 71 → foreignIsland c s (c.n 2 6 0) = false →
      (s.sys.dev = .charted ∨ s.sys.dev = .onAir ∨ s.sys.dev = .quiet) → c.b 2 8 = true → s.pwr.dorm = .none →
      let l := s.leadIsland (c.n 2 6 0)
      sget (fun _ => none) s.pwr.stageOpen l = none → s.stage l = .off →
      let v := { s with pwr := { s.pwr with stageOpen := sset (fun _ => none) s.pwr.stageOpen l (some c.id) } }
      exec (.pwrIsland mb) s = s.taken mb (v.setStage l .powering) [1]) ∧
    (s.Serves mb spec_PWR_ISLAND → c.n 2 6 0 ≤ 71 → foreignIsland c s (c.n 2 6 0) = false →
      (s.sys.dev = .charted ∨ s.sys.dev = .onAir ∨ s.sys.dev = .quiet) → c.b 2 8 = false → s.pwr.dorm = .none →
      (c.n 2 6 0 < 32 ∨ s.gatesEnabled (c.n 2 6 0 - 32) = false) →
      let l := s.leadIsland (c.n 2 6 0)
      sget (fun _ => none) s.pwr.stageOpen l = none → s.stage l = .on →
      let v : State := { s with pwr := { s.pwr with stageOpen := sset (fun _ => none) s.pwr.stageOpen l (some c.id) } }
      let v := v.setStage l .closing
      exec (.pwrIsland mb) s = s.taken mb ((v.islandParts l).foldl (fun v n => if n < 32 then v.portAbandon n else v) v) [0]) ∧
    (s.Serves mb spec_PWR_WAKE → exec (.pwrWake mb) s = s.done mb (s.wr R.PWR_WAKE (c.w 2))) ∧
    (∀ mv ma t, s.Serves mb spec_PWR_AVS_READ → c.replyWanted = true →
      exec (.pwrAvsRead mb (some (mv, ma, t))) s = s.done mb s [word (mv % 2 ^ 16), word ma, word (unsgn 16 t)])

/-! ### The graticule -/

/-- Packets and flits: a request reserves room in its source's sink and is sent, a sheet's under its tenant's KeyID, and one without a
destination or a route is answered at its source; an output port and an interface each serve one flit a turn; a request that has arrived is
delivered, refused, held or aborts a power-down as Table 15-4 says; a response frees its reservation; an idle router gates itself; a CRC
error is retransmitted, the fourth fails the link (R494 to R508). Where the rules leave more than one reading it is the model's choice (log
entry 47). Says that these rows answer a next state: packetInjection, graticuleFlitHop, requestAtDestination, responseAtSource,
routerSelfGate, linkCrcError. -/
def Obligations.GraticulePackets : Prop :=
  (∀ (s : State) (ni addr len dst : Nat) (m : Master) (key : Option Nat) (write : Bool) (data : List Byte), s.sys.dev ≠ .off →
    (masterNis m).contains ni = true → len ≠ 0 → len ≤ 128 → addr < 2 ^ 48 → data.length = (if write then len else 0) →
    s.sheetPasses m = true →
    let k := match m with | .sheet n => some (s.keyOfSheet n) | _ => key
    let cls := masterClass m
    let tag := sget (fun _ => 0) s.grt.nextTag ni
    let p : GrtPkt := { vn := if inBlock addr = true ∧ cls ≤ 2 then 2 else 0, src := ni, dst := ni, op := if write then 2 else 1, len := len,
                        key := k, tag := tag, cls := cls, status := 0, addr := addr, data := data, master := m }
    let o : Outstanding := ⟨tag, dst, sinkFlits write len⟩
    (s.destNi addr = none → exec (.packetInjection ni m write addr len key data) s = .next (s.ownAnswer ni p 1)) ∧
    (s.destNi addr = some dst → s.grt.changes = [] → s.reachable ni dst = false →
      exec (.packetInjection ni m write addr len key data) s = .next ((s.bump (R.GRT_COUNT 4)).ownAnswer ni p 3)) ∧
    (s.destNi addr = some dst → s.grt.changes = [] → s.reachable ni dst = true → s.sinkUsed ni + sinkFlits write len ≤ 64 →
      let v := { s with grt := { s.grt with
        nextTag := sset (fun _ => 0) s.grt.nextTag ni ((tag + 1) % 1024),
        outstanding := sset (fun _ => []) s.grt.outstanding ni (s.grtWaiting ni ++ [o]) } }
      exec (.packetInjection ni m write addr len key data) s = .next (v.sendPkt { p with dst := dst }))) ∧
  (∀ (s : State) (r port : Nat), r < 64 → s.routerLive r = true →
    (8 ≤ port → port < 12 → exec (.graticuleFlitHop r port) s = .next (s.niServe r (port - 8))) ∧
    (4 ≤ port → port < 8 → hopTo r port = none → exec (.graticuleFlitHop r port) s = .next (s.portServe r port)) ∧
    (∀ l r', port < 4 → hopTo r port = some (l, r') → s.routerLive r' = true →
      exec (.graticuleFlitHop r port) s = .next (s.portServe r port))) ∧
  (∀ (s : State) (ni : Nat) (p : GrtPkt) (ecc : EccSeen) (x : ExtRead), (s.arrivedAt ni).find? (fun p => decide (p.op ≠ 8)) = some p →
    let v := s.dropArrived ni (fun p => decide (p.op ≠ 8))
    let i := (niIsland ni).getD 0
    (s.atDest ni (inBlock p.addr) = .deliver → exec (.requestAtDestination ni ecc x) s = .next (v.deliverPkt ni p ecc x)) ∧
    (s.atDest ni (inBlock p.addr) = .gated → exec (.requestAtDestination ni ecc x) s =
      .next ((v.bump (R.GRT_COUNT 4)).respond ni p.src p.tag p.cls 3 p.len [])) ∧
    (s.atDest ni (inBlock p.addr) = .dormant → exec (.requestAtDestination ni ecc x) s =
      .next ((v.bump (R.GRT_COUNT 4)).respond ni p.src p.tag p.cls 4 p.len [])) ∧
    (s.atDest ni (inBlock p.addr) = .hold → exec (.requestAtDestination ni ecc x) s = .next (s.holdRequest i)) ∧
    (s.atDest ni (inBlock p.addr) = .abort →
      let w := ((v.setStage i .on).bump (R.PWR_COUNT 3)).stageDone (s.leadIsland i) .BUSY
      exec (.requestAtDestination ni ecc x) s = .next (
        if w.atDest ni (inBlock p.addr) = .gated then (w.bump (R.GRT_COUNT 4)).respond ni p.src p.tag p.cls 3 p.len []
        else w.deliverPkt ni p ecc x))) ∧
  (∀ (s : State) (ni : Nat) (p : GrtPkt), (s.arrivedAt ni).find? (fun p => decide (p.op = 8)) = some p →
    s.sheetPasses p.master = true →
    let v := s.dropArrived ni (fun p => decide (p.op = 8))
    exec (.responseAtSource ni) s = .next { v with grt := { v.grt with
      outstanding := sset (fun _ => []) v.grt.outstanding ni ((v.grtWaiting ni).eraseP (fun o => decide (o.tag = p.tag))),
      answered := sset (fun _ => none) v.grt.answered ni (some p) } }) ∧
  (∀ (s : State) (i : Nat), 80 ≤ i → i < 96 → s.routerRuns i = true → s.routersIdle i = true →
    exec (.routerSelfGate i) s = .next { s with pwr := { s.pwr with selfGated := sset (fun _ => false) s.pwr.selfGated i true } }) ∧
  (∀ (s : State) (l d : Nat), l < 112 → d < 2 →
    let n := sget (fun _ => 0) s.grt.retx (2 * l + d)
    (n < 3 → exec (.linkCrcError l d) s =
      .next (({ s with grt := { s.grt with retx := sset (fun _ => 0) s.grt.retx (2 * l + d) (n + 1) } }.bump (R.GRT_COUNT 1)).report 0x53 l)) ∧
    (3 ≤ n → exec (.linkCrcError l d) s =
      .next ({ s with grt := { s.grt with retx := sset (fun _ => 0) s.grt.retx (2 * l + d) 0 } }.linkFail l false)))

/-- Routes and link tests: a route change takes effect, and completes its command, once the old route is empty; a link test ends; the GRT
commands return status and counters, read and write route entries, and test or restore a link (R499 to R501, R509 to R517). Where the rules
leave more than one reading it is the model's choice (log entries 46 and 47). Says that these rows answer a next state: routeChangeEffect,
linkTestEnd, grtStatus, grtLinkTest, grtLinkRestore, grtRouteRead, grtRouteWrite, grtCounters. -/
def Obligations.GraticuleRoutes : Prop :=
  (∀ (s : State) (ni dst : Nat) (c : RouteChange), s.grt.changes.find? (fun c => decide (c.ni = ni ∧ c.dst = dst)) = some c →
    s.routeEmpty ni dst = true → (s.niRoute ni c.index).valid = false →
    exec (.routeChangeEffect ni dst) s = .next ((State.setRoute { s with grt := { s.grt with changes := s.grt.changes.erase c } } ni c.index
      c.entry).completeOpt c.openId .DONE)) ∧
  (∀ (s : State) (t : LinkTest) (pass : Bool), s.grt.test = some t → s.grt.changes = [] → t.swatch = false →
    exec (.linkTestEnd pass) s = .next (s.testFinish t pass)) ∧
  (∀ (s : State) (mb : Nat),
    let c := s.msg mb
    let ni := c.n 2 7 0
    (s.Serves mb spec_GRT_STATUS → exec (.grtStatus mb) s =
      s.done mb s (s.grtStatus :: (List.range 4).map (fun k => s.rd (R.GRT_FAIL k)))) ∧
    (s.Serves mb spec_GRT_LINK_TEST → c.n 2 6 0 ≤ 111 → s.grt.test = none →
      (s.detours (fun k => s.linkFailed k || decide (k = c.n 2 6 0)) (c.n 2 6 0)).2 = false →
      exec (.grtLinkTest mb) s = s.taken mb (s.testStart ⟨c.n 2 6 0, some c.id, false, false, []⟩)) ∧
    (s.Serves mb spec_GRT_LINK_RESTORE → c.n 2 6 0 ≤ 111 → s.linkFailed (c.n 2 6 0) = true → s.grt.test = none →
      exec (.grtLinkRestore mb) s = s.taken mb (s.testStart ⟨c.n 2 6 0, some c.id, true, false, []⟩)) ∧
    (s.Serves mb spec_GRT_ROUTE_READ → isNi ni = true → 1 ≤ c.n 2 21 16 → c.n 2 21 16 ≤ 20 → c.n 2 13 8 + c.n 2 21 16 ≤ 64 →
      exec (.grtRouteRead mb) s = s.done mb s ((List.range (c.n 2 21 16)).flatMap (fun i =>
        let e := s.niRoute ni (c.n 2 13 8 + i)
        [word (b2n e.valid * 2 ^ 31 + e.dst * 2 ^ 16 + e.split * 2 ^ 8 + e.len % 16), loWord e.hops, word (e.hops / 2 ^ 32)]))) ∧
    (s.Serves mb spec_GRT_ROUTE_WRITE → isNi ni = true → c.b 3 31 = false → exec (.grtRouteWrite mb) s =
      s.taken mb (s.addChanges [⟨ni, c.n 2 13 8, (s.niRoute ni (c.n 2 13 8)).dst, RouteEntry.none, some c.id⟩])) ∧
    (s.Serves mb spec_GRT_COUNTERS → exec (.grtCounters mb) s =
      s.done mb (if c.b 2 0 then ((List.range 6).map R.GRT_COUNT).foldl (fun v a => v.wr a 0) s else s)
        ((List.range 6).map (fun k => s.rd (R.GRT_COUNT k)))))

/-- Every default route, X hops then Y hops and ejection, is legal: at most 16 hops, inside the mesh, no E or W hop after an N or S hop; and
every detour is legal in two such segments and crosses no link it must avoid (R498 to R500, R509). Where the rules leave more than one
reading it is the model's choice (log entry 46). -/
def Obligations.RoutesLegal : Prop :=
  (∀ ni dst, isNi ni = true → isNi dst = true → routeOk ni dst 0 (defaultHops ni dst) = true) ∧
  (∀ (p : Nat → Bool) (ni dst : Nat) (hs : List Nat) (split : Nat), isNi ni = true → isNi dst = true → detour p ni dst = some (hs, split) →
    routeOk ni dst split hs = true ∧ ∀ l ∈ routeLinks ni hs, p l = false)

/-! ### Memories -/

/-- Memory accesses: an admitted store-tier write changes exactly the bytes it names and a read returns them; an external access is refused,
passed through, or queued at the guard; the guard serves its queue in order; a scrub pass is counted; a counter-cache node that is not
modified moves to the backing copy; the MEM and MGD commands read, and MGD.PARTITION writes a partition while none has been used (R519 to
R549). Where the rules leave more than one reading it is the model's choice (log entry 48). Says that these rows answer a next state:
storeTierAccess, storeScrubPass, externalAccess, protectedRead, protectedWrite, counterCacheEviction, memStatus, memCounters, mgdStatus,
mgdPartition, mgdCounters. -/
def Obligations.MemoryAccesses : Prop :=
  (∀ (s : State) (q : MemReq) (ecc : EccSeen) (k : Nat), q.ok = true → inStore q.addr = true → s.memServes = true → s.keyOf q 0 = some k →
    q.tag = none → q.addr % 2 ^ 32 + q.len ≤ 2 ^ 32 →
    (List.range q.len).all (fun i => s.storeReach q.cls k (q.addr % 2 ^ 32 + i)) = true →
    (q.write = true → swf (fun _ => (0 : Byte)) s.store = true →
      ∃ t, exec (.storeTierAccess q ecc) s = .next t ∧ t.regs = s.regs ∧ t.mem.ext = s.mem.ext ∧
        ∀ a, sget (fun _ => (0 : Byte)) t.store a =
          if q.addr % 2 ^ 32 ≤ a ∧ a < q.addr % 2 ^ 32 + q.len then q.data.getD (a - q.addr % 2 ^ 32) 0
          else sget (fun _ => (0 : Byte)) s.store a) ∧
    (q.write = false → exec (.storeTierAccess q .clean) s = .next (s.memAnswer q ⟨0, bytesAt s.store (q.addr % 2 ^ 32) q.len⟩)) ∧
    (q.write = false → exec (.storeTierAccess q .uncorrectable) s = .next ((s.storeUe (q.addr % 2 ^ 32)).memAnswer q ⟨6, []⟩))) ∧
  (∀ (s : State) (q : MemReq) (x : ExtRead), q.ok = true → inExternal q.addr = true → s.memServes = true →
    (∀ k, s.extRoute q = .guard k → exec (.externalAccess q x) s = .next { s with mem := { s.mem with guardQ := s.mem.guardQ ++ [q] } }) ∧
    (s.extRoute q = .plain → q.write = true →
      exec (.externalAccess q x) s =
        .next (State.memAnswer { s with mem := { s.mem with ext := putBytes s.mem.ext (extOff q.addr) q.data } } q ⟨0, []⟩)) ∧
    (s.extRoute q = .plain → q.write = false → exec (.externalAccess q ExtRead.ordinary) s =
      .next (s.memAnswer q ⟨0, bytesAt s.mem.ext (extOff q.addr) q.len⟩)) ∧
    (∀ st, s.extRoute q = .refuse st → exec (.externalAccess q x) s =
      .next ((s.bump (if st = 1 then R.XMC_COUNT 3 else R.MGD_COUNT 3)).memAnswer q ⟨st, []⟩))) ∧
  (∀ (s : State) (gs : List GuardSeen) (q : MemReq) (rest : List MemReq) (k : Nat), s.mem.guardQ = q :: rest → s.cacheRoom = true →
    s.memServes = true → s.keyOf q (keyIdOf q.addr) = some k →
    let v := { s.put R.MGD_STATUS F.MGD_STATUS_FRESH 0 with mem := { s.mem with guardQ := rest } }
    let after := match v.guardServe gs k q with
      | .ok d s => s.memAnswer q ⟨0, d⟩
      | .halt c ch s => s.enterHalted c ch
      | .noEcc _ s => s.memAnswer q ⟨6, []⟩
    (q.write = false → exec (.protectedRead gs) s = .next after) ∧ (q.write = true → exec (.protectedWrite gs) s = .next after)) ∧
  (∀ (s : State) (g : Nat), g < 8 → s.scrubs = true →
    let v := s.reach (sget (fun _ => 0) s.mem.scrubAt g + scrubPeriod (s.get R.STC_STATUS F.STC_STATUS_BAND))
    exec (.storeScrubPass g 0 []) s =
      .next ({ v with mem := { v.mem with scrubAt := sset (fun _ => 0) v.mem.scrubAt g v.stamp } }.bump (R.STC_COUNT 3))) ∧
  (∀ (s : State) (l n : Nat) (c : CNode) (g : GuardSeen), 1 ≤ l → l ≤ 9 → s.memServes = true → s.cached l n = some c →
    (c.modified = false → exec (.counterCacheEviction l n g) s = .next ((s.setCached l n none).setBacked l n (some c.ctrs))) ∧
    (∀ u v, c.modified = true → s.evict g l n c.ctrs = .ok u v → exec (.counterCacheEviction l n g) s = .next v)) ∧
  (∀ (s : State) (mb : Nat),
    let c := s.msg mb
    let k := c.n 2 5 0
    (s.Serves mb spec_MEM_STATUS → exec (.memStatus mb) s = s.done mb s [s.stcStatus, s.rd R.XMC_STATUS, s.rd R.XMC_MAP]) ∧
    (s.Serves mb spec_MEM_COUNTERS → c.b 2 0 = false → exec (.memCounters mb) s = s.done mb s
      ((List.range 5).map (fun j => s.rd (R.STC_COUNT j)) ++ (List.range 4).map (fun j => s.rd (R.XMC_COUNT j)))) ∧
    (s.Serves mb spec_MGD_STATUS → k ≠ 0 → exec (.mgdStatus mb) s = s.done mb s [s.rd R.MGD_STATUS, s.rd (R.MGD_PART k)]) ∧
    (s.Serves mb spec_MGD_PARTITION → s.tenants.any (fun r => decide (r.keyId = k)) = true → c.n 3 9 0 = 0 → c.n 3 25 16 = 0 →
      s.flag R.MGD_STATUS F.MGD_STATUS_FRESH = true → exec (.mgdPartition mb) s =
      s.done mb (((s.put (R.MGD_PART k) F.MGD_PART_VALID 0).put (R.MGD_PART k) F.MGD_PART_BASE 0).put (R.MGD_PART k) F.MGD_PART_SIZE 0)) ∧
    (s.Serves mb spec_MGD_COUNTERS → exec (.mgdCounters mb) s =
      s.done mb (if c.b 2 0 then ((List.range 6).map R.MGD_COUNT).foldl (fun v a => v.wr a 0) s else s)
        ((List.range 6).map (fun j => s.rd (R.MGD_COUNT j)))))

/-- A sheet or the DMA engine acting under a tenant's KeyID leaves every store-tier byte outside that tenant's own window as it was,
whatever it asks, and the guard admits external requests under a KeyID only inside that KeyID's partition (R519, R520, R529). Where the
rules leave more than one reading it is the model's choice (log entry 48). Says that these rows answer a next state: storeTierAccess. -/
def Obligations.TenantIsolation : Prop :=
  (∀ (s t : State) (q : MemReq) (ecc : EccSeen) (k : Nat), (q.cls = 3 ∨ q.cls = 5) → q.key = some k → k ≠ 0 →
    exec (.storeTierAccess q ecc) s = .next t → ∀ a, a < 0xC8000000 + (k - 1) * 0x200000 ∨ 0xC8000000 + k * 0x200000 ≤ a →
    sget (fun _ => (0 : Byte)) t.store a = sget (fun _ => (0 : Byte)) s.store a) ∧
  (∀ (s : State) (q : MemReq) (k : Nat), s.extRoute q = .guard k →
    k ≠ 0 ∧ ∃ b n, s.part k = some (b, n) ∧ b ≤ extOff q.addr ∧ extOff q.addr + q.len ≤ b + n ∧
      (q.cls = 3 ∨ q.cls = 5 → q.key = some k))

/-! ### The host attachment -/

/-- The PCIe endpoint and the DMA engine: BAR0 and BAR2 requests go to registers, BAR4 reads to the tap buffers of a capturing survey in an
expert session, anything else is unsupported; unmasking a pending vector sends it; the queue registers take the writes of a master that
reaches them, and answer another ERR; a descriptor in turn is fetched and started, and completes with its record; idle and read timeouts end
descriptors (R550 to R563); the DMA commands (R566 to R569). Where the rules leave more than one reading it is the model's choice (log
entries 49 and 50). Says that these rows answer a next state: pcieBarRequest, bar4Read, msixUnmask, dmaQtailWrite, dmaQctrlRun,
dmaQctrlStop, dmaDescriptorStart, dmaDescriptorComplete, d2hIdleTimeout, hostReadTimeout, dmaStatus, dmaQueue, dmaCounters, dmaLink,
dmaLinkRetrained. -/
def Obligations.HostAttachment : Prop :=
  (∀ (s : State) (r : BarReq), s.endpoint = true →
    (r.bar = 0 ∨ r.bar = 2 → exec (.pcieBarRequest r) s = .next (s.barAccess r)) ∧
    (r.bar ≠ 0 → r.bar ≠ 2 → r.bar ≠ 4 → exec (.pcieBarRequest r) s =
      .next (((s.bump (R.PCI_COUNT 1)).aer .unsupported (some r)).barReply 1 [])) ∧
    (s.sys.session.isSome = true → s.policy 3 = true → r.off + 4 * r.count ≤ 0x10000000 → exec (.bar4Read r .clean) s = .next (s.barReply 0
      ((List.range r.count).map (fun i => word (leNat (bytesAt s.store (0xE0000000 + r.off + 4 * i) 4)))))) ∧
    (s.sys.session = none → exec (.bar4Read r .clean) s = .next (s.barUr { r with bar := 4, write := false })) ∧
    (∀ v, v < 64 → exec (.msixUnmask v) s = .next (s.msixWrite v 3 (s.msixWord v 3 &&& 0xFFFFFFFE)))) ∧
  (∀ (s : State) (m : Master) (q : Nat) (w : Word), q < 32 → s.sys.dev ≠ .off →
    (busReach m true (R.DMA_QTAIL q) = true →
      exec (.dmaQtailWrite m q w) s = .next (State.answered m (s.dmaTailWrite q w).busOk)) ∧
    (busReach m true (R.DMA_QCTRL q) = true →
      exec (.dmaQctrlRun m q w) s = .next (State.answered m (s.dmaCtrlWrite q (w ||| 0x80000000)).busOk) ∧
      exec (.dmaQctrlStop m q w) s = .next (State.answered m (s.dmaCtrlWrite q (w ||| 0x40000000)).busOk)) ∧
    (busReach m true (R.DMA_QTAIL q) = false → exec (.dmaQtailWrite m q w) s = .next (State.answered m s.busErr)) ∧
    (busReach m true (R.DMA_QCTRL q) = false →
      exec (.dmaQctrlRun m q w) s = .next (State.answered m s.busErr) ∧
      exec (.dmaQctrlStop m q w) s = .next (State.answered m s.busErr))) ∧
  (∀ (s : State) (q : Nat) (ws : List Word), s.engineRuns = true → s.dmaReady = some q →
    let head := s.get (R.DMA_QHEAD q) F.DMA_QHEAD_HEAD
    let v := (s.put (R.DMA_QHEAD q) F.DMA_QHEAD_HEAD ((head + 1) % s.qSize q)).setDmaQ q
      { s.dmaQ q with started := (s.dmaQ q).started ++ [s.newDesc q head ws] }
    exec (.dmaDescriptorStart (some ws)) s = .next { v with host := { v.host with rrQueue := (q + 1) % 32 } }) ∧
  (∀ (s : State) (q : Nat) (d : Desc) (rest : List Desc) (seen : DmaSeen), s.engineRuns = true → q < 32 → (s.dmaQ q).started = d :: rest →
    (∀ st info, d.ended = some (st, info) → exec (.dmaDescriptorComplete q seen) s = .next (s.dmaFinish q d st info seen.later)) ∧
    (d.ended = none → s.flag (R.DMA_QCFG q) F.DMA_QCFG_DIR = true → d.op = 2 → 0 < d.moved →
      exec (.d2hIdleTimeout q) s = .next ((s.reach (d.lastWrite + 100000)).dmaEnd q d 0 0)) ∧
    (d.ended = none → s.flag (R.DMA_QCFG q) F.DMA_QCFG_DIR = false → d.op ≠ 1 → s.epStream (0x6000 + q) = none →
      exec (.hostReadTimeout q seen) s = .next ((s.aer .completionTimeout none).dmaFinish q d 0x11 0 seen.later))) ∧
  (∀ (s : State) (speed width : Nat) (o : OpenCmd), 1 ≤ speed → speed ≤ 5 → (width = 1 ∨ width = 2 ∨ width = 4 ∨ width = 8) →
    s.mbx.open_ = [o] → o.code = 0x1381 →
    exec (.dmaLinkRetrained speed width) s = .next ((s.pcieUp speed width).complete o.id .DONE)) ∧
  (∀ (s : State) (mb : Nat),
    let c := s.msg mb
    let q := c.n 2 4 0
    (s.Serves mb spec_DMA_STATUS → exec (.dmaStatus mb) s =
      s.done mb s [s.rd R.PCI_STATUS, s.dmaCfg q, s.rd (R.DMA_QSTATUS q), s.rd (R.DMA_QHEAD q)]) ∧
    (s.Serves mb spec_DMA_QUEUE → s.keyKnown (c.n 2 21 16) = true → s.qState q < 2 → s.epStream (0x6000 + q) = none →
      exec (.dmaQueue mb) s = s.done mb ((s.wr (R.DMA_QCFG q) (c.w 2 &&& 0xE03F0000)).setQState q (c.n 2 31 31))) ∧
    (s.Serves mb spec_DMA_COUNTERS → exec (.dmaCounters mb) s =
      s.done mb (if c.b 2 0 then ((List.range 4).map R.PCI_COUNT).foldl (fun v a => v.wr a 0) s else s)
        ((List.range 4).map (fun j => s.rd (R.PCI_COUNT j)))) ∧
    (s.Serves mb spec_DMA_LINK → 1 ≤ c.n 2 2 0 → c.n 2 2 0 ≤ 5 → exec (.dmaLink mb) s =
      s.taken mb (State.bump (State.pcieDown { s with host := { s.host with targetSpeed := c.n 2 2 0 } }) (R.PCI_COUNT 3))))

/-! ### The yarn ports -/

/-- Codewords and training: a port in UP resends what a replay asks for, oldest first, else sends what its lanes hold, or IDLE; a codeword
that cannot be corrected or is out of order is answered with a NAK, and the next in order delivers its units; frames bring a port's training
forward, and the first header brings it UP; a port that left UP loses what it held (R575 to R580, R587). Where the rules leave more than one
reading it is the model's choice (log entry 51). Says that these rows answer a next state: yarnCodewordSend, yarnCodewordReceived,
yarnReplayTimeout, yarnTrainingFrame, yarnPortUp, yarnPortDown. -/
def Obligations.YarnPorts : Prop :=
  (∀ (s : State) (p : Nat), s.yarnUp p = true →
    let v := s.yarnPassAll p
    let y := v.yport p
    (∀ c rest, y.resend = c :: rest → exec (.yarnCodewordSend p) s =
      .next ((v.bump (R.YRN_COUNT p 0)).setYport p { y with resend := rest, sent := some (y.codeword c false) })) ∧
    (y.resend = [] → y.discard = [] → 48 ≤ y.unacked.length →
      let c : SentCw := ⟨y.returns.2.2.2.nextSeq, y.returns.1, y.returns.2.1, y.returns.2.2.1, []⟩
      exec (.yarnCodewordSend p) s = .next (v.setYport p { y.returns.2.2.2 with sent := some (y.returns.2.2.2.codeword c true) }))) ∧
  (∀ (s : State) (p : Nat) (cw : YarnCodeword), s.yarnUp p = true →
    (cw.good = false → exec (.yarnCodewordReceived p cw) s =
      .next ((s.bump (R.YRN_COUNT p 3)).setYport p { s.yport p with nak := true })) ∧
    (cw.good = true → cw.corrected = false → (s.yarnAck p cw).yarnUp p = true →
      let v := s.yarnAck p cw
      let y := v.yport p
      (seqAfter y.lastGood cw.seq = 1 → cw.idle = false → exec (.yarnCodewordReceived p cw) s =
        .next (cw.units.foldl (fun s u => s.yarnDeliver p u)
          ((v.bump (R.YRN_COUNT p 1)).setYport p ({ y with lastGood := cw.seq, nak := false }.credited cw)))) ∧
      (seqAfter y.lastGood cw.seq = 0 → exec (.yarnCodewordReceived p cw) s = .next v) ∧
      (2 ≤ seqAfter y.lastGood cw.seq → seqAfter y.lastGood cw.seq < 65488 →
        exec (.yarnCodewordReceived p cw) s = .next (v.setYport p { y with nak := true }))) ∧
    ((s.yport p).unacked ≠ [] → exec (.yarnReplayTimeout p) s = .next ((s.reach ((s.yport p).ackAt + 2000)).yarnReplay p))) ∧
  (∀ (s : State) (n : Nat) (f : YarnFrame), s.laneClass n = 3 → s.laneGroup n < 2 → s.laneState n = laneTRAINING → (s.lane n).lp = .none →
    s.get (R.YRN_PORT (s.laneGroup n)) F.YRN_PORT_STATE = 1 →
    let p := s.laneGroup n
    let y := s.yport p
    (f.good = false →
      exec (.yarnTrainingFrame n f) s = .next ((s.setYport p { y with frames := sset (fun _ => 0) y.frames n 0 }).yarnFrameSent p n)) ∧
    (f.good = true → exec (.yarnTrainingFrame n f) s = .next ((s.yarnFrameGood p n f).yarnFrameSent p n)) ∧
    (s.get (R.YRN_PORT p) F.YRN_PORT_STEP = 3 → f.rxReady = true → y.ready.contains n = false →
      let v := (s.ffeRequests n f.ffeReq).setYport p
        { y with ready := y.ready ++ [n], stats := sset (fun _ => 0) y.stats n (s.ffeStat n f.ffeReq) }
      s.yarnFrameGood p n f = if (s.yarnLanes p).all (y.ready ++ [n]).contains = true then v.put (R.YRN_PORT p) F.YRN_PORT_STEP 4 else v)) ∧
  (∀ (s : State) (p : Nat), p < 2 →
    (s.yarnLanes p ≠ [] → s.get (R.YRN_PORT p) F.YRN_PORT_STATE = 1 → s.get (R.YRN_PORT p) F.YRN_PORT_STEP = 4 →
      (s.yarnLanes p).all (fun n => s.laneState n == laneTRAINING && decide ((s.lane n).lp = .none)) = true →
      let v := if (s.yport p).wasUp = true then s.yarnLost p else s
      let y := v.yport p
      let v := v.setYport p { YPort.init with
        rxBuf := y.rxBuf, discard := y.discard, sent := y.sent, rr := y.rr, lastCh := y.lastCh, words := y.words, ackAt := v.stamp, wasUp := true }
      let v := (s.yarnLanes p).foldl State.laneUpNow v
      exec (.yarnPortUp p) s = .next (((v.put (R.YRN_PORT p) F.YRN_PORT_STATE 2).put (R.YRN_PORT p) F.YRN_PORT_STEP 5).put (R.YRN_PORT p)
        F.YRN_PORT_LANES_UP (2 ^ (s.yarnLanes p).length - 1)).lanesDone) ∧
    ((s.yport p).wasUp = true → s.yarnUp p = false → exec (.yarnPortDown p) s = .next (s.yarnLost p)))

/-- What travels between devices: time units carry and answer local times; a broadcast is forwarded and acted on at its instant; heartbeats
go up to the master, which marks a member alive, or lost after 5 ms or in a failed state; forwarded messages and acknowledgements reach
their mailboxes (R581 to R587); the YRN commands read and write, and YRN.FORWARD sends a message to another device (R590 to R594). Where the
rules leave more than one reading it is the model's choice (log entry 52). Says that these rows answer a next state: yarnTimeUnitSend,
yarnTimeUnitReceived, bcastReceived, heartbeatSend, heartbeatReceived, heartbeatTimeout, forwardedMessageReceived, forwardedAckReceived,
yrnStatus, yrnChannel, yrnForward, yrnForwardComplete, yrnAsym, yrnCounters. -/
def Obligations.YarnCascade : Prop :=
  (∀ (s : State) (p tx : Nat), (s.yport p).echo = none → exec (.yarnTimeUnitSend p tx) s = .next (s.yarnTime p (.time tx 0 0))) ∧
  (∀ (s : State) (p rx t3 t1 t2 : Nat) (rest : List YarnUnit), (s.yport p).rxTime = .time t3 t1 t2 :: rest → (s.yport p).lastTime = none →
    t1 ≠ 0 →
    let y := s.yport p
    let e : YEcho := ⟨t3, rx⟩
    let v := s.setYport p { y with rxTime := rest, echo := some e, lastTime := some s.stamp, timeSince := some s.stamp }
    let asym := sgn 32 (s.rd (R.YRN_ASYM p)).toNat
    exec (.yarnTimeUnitReceived p rx) s = .next ((v.wr (R.YRN_DELAY p)
      (word (satNat 32 (yarnPs (((t2 : Int) - t1) + ((rx : Int) - t3)) asym).toNat))).wr (R.YRN_OFFSET p)
        (word (unsgn 32 (satInt 32 (yarnPs (((t2 : Int) - t1) - ((rx : Int) - t3)) asym)))))) ∧
  (∀ (s : State) (p a : Nat) (w : Word) (sw : Bool) (rest : List YarnUnit), (s.yport p).rxTime = .bcast w sw a :: rest → p < 2 →
    let v := s.setYport p { s.yport p with rxTime := rest }
    v.position ≠ 0 → v.get (R.YRN_PORT (otherPort p)) F.YRN_PORT_PEER = 0 → v.links.yrn.lastBcast = none → v.airNow < a →
    let b : YBcast := ⟨a, w, sw⟩
    let d : AirBcast := ⟨a, w, sw⟩
    let u : State := { v with links := { v.links with yrn := { v.links.yrn with lastBcast := some b } } }
    exec (.bcastReceived p) s = .next (u.bcastAdd d)) ∧
  (∀ (s : State) (p : Nat), s.upstream = some p → s.cascaded = true → s.yarnUp p = true →
    exec .heartbeatSend s = .next (s.yarnTime p (.heartbeat s.position s.sys.dev.code s.merState))) ∧
  (∀ (s : State) (p k st mer : Nat) (rest : List YarnUnit), (s.yport p).rxTime = .heartbeat k st mer :: rest →
    let v := s.setYport p { s.yport p with rxTime := rest }
    (v.position ≠ 0 → exec (.heartbeatReceived p) s = .next (v.yarnTime (otherPort p) (.heartbeat k st mer))) ∧
    (v.position = 0 → 1 ≤ k → k < 8 → (st = 3 ∨ st = 4 ∨ st = 5) →
      let w : State := { v with links := { v.links with yrn := { v.links.yrn with
        beats := sset (fun _ => none) v.links.yrn.beats k (some v.stamp) } } }
      exec (.heartbeatReceived p) s = .next (w.setBit R.YRN_STATUS k true))) ∧
  (∀ (s : State) (k t : Nat), sget (fun _ => none) s.links.yrn.beats k = some t →
    let v := s.reach (t + 5000000)
    let w : State := { v with links := { v.links with yrn := { v.links.yrn with beats := sset (fun _ => none) v.links.yrn.beats k none } } }
    exec (.heartbeatTimeout k) s = .next (w.markLost k 0 0)) ∧
  (∀ (s : State) (p : Nat) (u : CtrlUnit) (us : List CtrlUnit), headMessage (s.yport p).rxCtrl = some (u :: us) → p < 2 →
    s.mbx.pairsInReset.contains 2 = false →
    let v := s.setYport p { s.yport p with
      rxCtrl := (s.yport p).rxCtrl.drop (us.length + 1), ctrlOwed := (s.yport p).ctrlOwed + (us.length + 1) }
    (u.dst = s.position → s.full (26 + p) = false →
      let w : State := { v with mbx := { v.mbx with poster := sset (fun _ => none) v.mbx.poster (26 + p) (some u.src) } }
      exec (.forwardedMessageReceived p) s = .next (w.postInto (26 + p) ((u :: us).flatMap CtrlUnit.words))) ∧
    (u.dst ≠ s.position → exec (.forwardedMessageReceived p) s = .next ((v.bump (R.YRN_COUNT p 7)).yarnCtrl u.dst (u :: us)))) ∧
  (∀ (s : State) (p : Nat) (u : CtrlUnit) (rest : List CtrlUnit), (s.yport p).rxCtrl = u :: rest → u.ack = true → p < 2 →
    s.mbx.pairsInReset.contains 2 = false →
    let v := s.setYport p { s.yport p with rxCtrl := rest, ctrlOwed := (s.yport p).ctrlOwed + 1 }
    (v.position ≠ u.dst → exec (.forwardedAckReceived p) s = .next (v.yarnCtrl u.dst [u])) ∧
    (∀ m, v.position = u.dst → (v.yport p).cur = some m → m.dst = u.src → m.openId = none → v.links.yrn.fwds = [] →
      exec (.forwardedAckReceived p) s = .next (((v.setYport p { v.yport p with cur := none }).ackWrite (24 + p)
        (Word.bits (u.words.headD 0) 15 0)).yarnPump p))) ∧
  (∀ (s : State) (p : Nat) (f : Fwd), p < 2 → s.full (26 + p) = true → s.holds (26 + p) = false → s.serving = true →
    s.mbx.pairsInReset.contains 2 = false →
    s.links.yrn.fwds.find? (fun f => decide (some f.target = (s.msg (26 + p)).src)) = some f →
    let v := s.ackWrite (26 + p) 0
    let w : State := { v with links := { v.links with yrn := { v.links.yrn with
      fwds := v.links.yrn.fwds.filter (fun x => x.openId ≠ f.openId) } } }
    exec (.yrnForwardComplete p) s = .next (w.complete f.openId .DONE ((s.msg (26 + p)).rest 0))) ∧
  (∀ (s : State) (mb : Nat),
    let c := s.msg mb
    (s.Serves mb spec_YRN_STATUS → exec (.yrnStatus mb) s = s.done mb s ([R.YRN_STATUS, R.YRN_PORT 0, R.YRN_PORT 1, R.YRN_OFFSET 0,
      R.YRN_OFFSET 1, R.YRN_DELAY 0, R.YRN_DELAY 1, R.YRN_ASYM 0].map s.rd)) ∧
    (s.Serves mb spec_YRN_CHANNEL → s.cascaded = true → s.yarnLanes (c.n 2 6 0 / 64) ≠ [] → s.cascadeMode ≠ 3 →
      s.epStream (0x7000 + c.n 2 6 0) = none → exec (.yrnChannel mb) s =
      s.done mb (s.wr (R.YRN_CHAN (c.n 2 6 0)) (if c.b 2 31 then c.w 2 &&& 0xE0000000 else 0))) ∧
    (s.Serves mb spec_YRN_ASYM → -100000 ≤ sgn 32 (c.w 3).toNat → sgn 32 (c.w 3).toNat ≤ 100000 → s.cascaded = true →
      exec (.yrnAsym mb) s = s.done mb (s.wr (R.YRN_ASYM (c.n 2 0 0)) (c.w 3))) ∧
    (s.Serves mb spec_YRN_COUNTERS → s.cascaded = true → exec (.yrnCounters mb) s =
      s.done mb (if c.b 2 8 then ((List.range 8).map (R.YRN_COUNT (c.n 2 0 0))).foldl (fun v a => v.wr a 0) s else s)
        ((List.range 8).map (fun j => s.rd (R.YRN_COUNT (c.n 2 0 0) j)))) ∧
    (∀ p w r, s.Serves mb spec_YRN_FORWARD → s.cascaded = true → c.n 2 2 0 ≠ s.position → c.n 2 2 0 < s.cascadeCount →
      c.rest 3 = w :: r → Cmd.length { c with words := w :: r } = c.length - 3 → 5 ≤ c.length →
      replyLength { c with words := w :: r } ≤ 61 → s.yarnRoute (c.n 2 2 0) = some p →
      s.bit R.YRN_STATUS (8 + c.n 2 2 0) = false → s.bit R.YRN_STATUS (c.n 2 2 0) = true →
      let f : Fwd := ⟨c.id, c.n 2 2 0, p, false⟩
      let v : State := { s with links := { s.links with yrn := { s.links.yrn with fwds := s.links.yrn.fwds ++ [f] } } }
      exec (.yrnForward mb) s = s.taken mb (v.yarnPost ⟨c.n 2 2 0, (w ||| 0x400) :: r, some c.id⟩)))

/-! ### The fault windows and swatches -/

/-- The fault unit: an event of a windowless source is counted and recorded; one of a windowed source is counted in its key's two windows
too, and when a count reaches T the key is LASTING, journalled, and its outcome starts; a quiet key's slot is freed after W; an outcome's
end is recorded (R595 to R601, R610). The FLT commands read, clear and set (R613 to R617). Where the rules leave more than one reading it is
the model's choice (log entry 53). Says that these rows answer a next state: faultEvent, windowSlotExpiry, lastingOutcomeEnd, fltStatus,
fltEvents, fltWindow, fltSlots, fltCounters. -/
def Obligations.FaultWindows : Prop :=
  (∀ (s : State) (src inst cls : Nat) (detail : List Word), fltClass src = some cls → src ≠ 0x74 → inst < 65536 → s.sys.dev ≠ .off →
    s.flt.waiting = [] → s.mbx.pairsInReset.contains 3 = false →
    let v := s.bump (R.FLT_COUNT 0)
    (v.fltWindowed src = false → exec (.faultEvent src inst detail) s = .next (v.logEvent src inst 0 detail)) ∧
    (∀ i x, v.fltWindowed src = true → v.slotOf src inst = some i → v.slot i = some x → x.lasting = false →
      let y := x.count v.stamp (v.fltW src)
      (y.cntA < v.fltT src → y.cntB < v.fltT src →
        exec (.faultEvent src inst detail) s = .next ((v.setSlot i (some y)).logEvent src inst 0 detail)) ∧
      (v.fltT src ≤ y.cntA ∨ v.fltT src ≤ y.cntB → fltReported src = false →
        let u := ((v.setSlot i (some { y with lasting := true })).bump (R.FLT_COUNT 1)).gazInc (56 + cls)
        exec (.faultEvent src inst detail) s =
          .next (((u.logEvent src inst 8 detail).journal 0x07 src inst (detail.getD 0 0) 0).startOutcome src inst)))) ∧
  (∀ (s : State) (i : Nat) (x : Slot), sget (fun _ => none) s.flt.slots i = some x → s.mbx.pairsInReset.contains 3 = false →
    (x.lasting = false → exec (.windowSlotExpiry i) s = .next ((s.reach (x.latest + s.fltW x.src)).setSlot i none)) ∧
    (x.lasting = true → exec (.windowSlotExpiry i) s = .next s)) ∧
  (∀ (s : State) (e : FltEnd) (rest : List FltEnd), s.flt.ended = e :: rest → e.marked = false → s.mbx.pairsInReset.contains 3 = false →
    let v : State := { s with flt := { s.flt with ended := rest } }
    (e.noSpare = true → exec .lastingOutcomeEnd s = .next (v.logEvent e.src e.inst 5 [])) ∧
    (∀ i, e.noSpare = false → (v.logEvent e.src e.inst 1 []).slotOf e.src e.inst = some i →
      exec .lastingOutcomeEnd s = .next ((v.logEvent e.src e.inst 1 []).setSlot i none))) ∧
  (∀ (s : State) (mb : Nat),
    let c := s.msg mb
    (s.Serves mb spec_FLT_STATUS → exec (.fltStatus mb) s = s.done mb s [s.fltStatus, word s.flt.seq, word s.fltOldest]) ∧
    (s.Serves mb spec_FLT_EVENTS → (c.w 2).toNat ≤ s.flt.seq →
      let l := (s.flt.log.drop ((c.w 2).toNat - s.fltOldest)).take 7
      exec (.fltEvents mb) s = s.done mb s (word (b2n (decide ((c.w 2).toNat < s.fltOldest)) * 2 ^ 31 + l.length) :: l.flatten)) ∧
    (s.Serves mb spec_FLT_WINDOW → fltClass (c.n 2 7 0) ≠ none →
      (s.fltWindowed (c.n 2 7 0) = false → exec (.fltWindow mb) s = .next (s.answer c .NOT_PERMITTED [])) ∧
      (s.fltWindowed (c.n 2 7 0) = true → exec (.fltWindow mb) s =
        s.done mb ((List.range 128).foldl (fun v i =>
          match sget (fun _ => none) v.flt.slots i with
          | some x => if x.src = c.n 2 7 0 then v.setSlot i (some { x with cntA := 0, cntB := 0 }) else v
          | none => v) (s.wr (R.FLT_WIN (c.n 2 7 0)) (F.FLT_WIN_FIXED.put (c.w 3) 0))))) ∧
    (s.Serves mb spec_FLT_SLOTS → 1 ≤ c.n 2 14 8 → c.n 2 14 8 ≤ 30 → c.n 2 6 0 + c.n 2 14 8 ≤ 128 → exec (.fltSlots mb) s =
      s.done mb s ((List.range (c.n 2 14 8)).flatMap (fun j => [s.slotKey (c.n 2 6 0 + j), s.slotCnt (c.n 2 6 0 + j)]))) ∧
    (s.Serves mb spec_FLT_COUNTERS → exec (.fltCounters mb) s =
      s.done mb (if c.b 2 0 then ((List.range 5).map R.FLT_COUNT).foldl (fun v a => v.wr a 0) s else s)
        ((List.range 5).map (fun j => s.rd (R.FLT_COUNT j)))))

/-- Swatches: the request first in order starts, unless its first step would pass its budget; a passing step leads to the next, the last to
DONE; a failing block row is copied to a spare, and the copy's end is the repair; a condition not met ends it NOT_RUN; retirements and the
rotating spare move one shift at a time (R525, R620 to R625). Where the rules leave more than one reading it is the model's choice (log
entry 54). Says that these rows answer a next state: spareRowRemap, swatchStart, swatchStepComplete, rotationStep. -/
def Obligations.Swatches : Prop :=
  (∀ (s : State) (bound : Nat) (q : SwReq), s.swt.running = none → s.swtWorks = true → s.swtNext = some q →
    s.mbx.pairsInReset.contains 3 = false →
    let r : SwRun := ⟨q, q.step, q.budget * 1000, s.stamp⟩
    let v : State := { s with swt := { s.swt with queue := s.swt.queue.erase q, running := some r } }
    let cut : Bool := (v.detours (fun k => v.linkFailed k || decide (k = q.target)) q.target).2
    (q.kind = 6 → cut = true → exec (.swatchStart bound) s = .next ((v.swtEnd r 3 0 0 0 .DONE).outcomePart q.keys)) ∧
    (q.kind ≠ 6 ∨ cut = false →
      (q.budget * 1000 < v.stepBound q.kind q.target q.step bound → exec (.swatchStart bound) s = .next (v.swtPause r)) ∧
      (v.stepBound q.kind q.target q.step bound ≤ q.budget * 1000 →
        exec (.swatchStart bound) s = .next (if q.kind = 6 then v.testStart ⟨q.target, none, false, true, []⟩ else v)))) ∧
  (∀ (s : State) (o : StepSeen) (r : SwRun), s.swt.running = some r → r.req.kind ≠ 6 →
    let v := s.reach (s.stamp + o.ns)
    let q := r.req
    (o.notRun = true → exec (.swatchStepComplete o) s = .next (((v.swtEnd r 3 0 0 0 .DONE).swtRestore r).outcomePart q.keys)) ∧
    (o.notRun = false → o.found = none → (if q.kind = 1 then 5 ≤ r.step else o.next = none) →
      exec (.swatchStepComplete o) s = .next (((v.swtEnd r 0 0 0 0 .DONE).swtRestore r).outcomePart q.keys)) ∧
    (o.notRun = false → o.found = none → q.kind = 1 → r.step < 5 → v.stepBound 1 q.target (r.step + 1) (o.next.getD 0) ≤ r.left - o.ns →
      exec (.swatchStepComplete o) s =
        .next { v with swt := { v.swt with running := some { r with step := r.step + 1, left := r.left - o.ns } } }) ∧
    (∀ at_ bit, o.notRun = false → o.found = some (at_, bit) → q.kind = 4 →
      let used := v.sparesUsed (fun r => decide (r.kind = 4 ∧ r.target = q.target))
      let m : Remap := ⟨⟨4, q.target, bitsOf at_ 24 16, used⟩, at_, bit, q.keys⟩
      let u : State := { v with swt := { v.swt with remaps := v.swt.remaps ++ [m] } }
      (used < 2 → exec (.swatchStepComplete o) s = .next ((u.swtEnd r 1 1 at_ bit .DONE).outcomePart q.keys)) ∧
      (2 ≤ used → exec (.swatchStepComplete o) s =
        .next ((v.noSpareLeft 4 q.target at_ q.keys).2.swtEnd r 1 (v.noSpareLeft 4 q.target at_ q.keys).1 at_ bit .NO_SPARE)))) ∧
  (∀ (s : State) (m : Remap) (rest : List Remap), s.swt.remaps = m :: rest → m.repair.kind ≠ 5 →
    let v : State := { s with swt := { s.swt with remaps := rest } }
    exec .spareRowRemap s = .next ((v.softRepair m.repair m.where_ m.bit).outcomePart m.keys)) ∧
  (∀ (s : State) (w : Nat), s.sys.dev = .charted ∨ s.sys.dev = .onAir → s.swt.retire = [] → s.mbx.pairsInReset.contains 3 = false →
    s.swt.queue.any (fun q => q.cls == .rotation) = false → (∀ r, s.swt.running = some r → r.req.cls ≠ .rotation) →
    s.flag R.SWT_ROT F.SWT_ROT_EN = true → s.rotWale = some w → (s.wale w).shift = none →
    let v := s.reach (s.rotInstant (max s.stamp (s.swt.rotLast + s.swt.rotMs * 1000000)))
    let pos := v.get (R.WAL_SHIFT w) F.WAL_SHIFT_SHIFT_AT
    let u : State := { v with swt := { v.swt with rotating := some w, rotLast := v.stamp } }
    exec .rotationStep s = .next ((u.put R.SWT_ROT F.SWT_ROT_WALE w).startShift w (if pos = 16 then 0 else pos + 1) none true)) ∧
  (∀ (s : State) (x : Retire) (rest : List Retire), s.sys.dev = .charted ∨ s.sys.dev = .onAir → s.swt.retire = x :: rest →
    (s.wale x.wale).shift = none → s.swt.retiring = none → s.mbx.pairsInReset.contains 3 = false →
    let v : State := { s with swt := { s.swt with retire := rest } }
    let target := v.tileTarget (16 * x.wale + x.pos)
    (v.canRotate x.wale = false → exec .rotationStep s = .next (v.noSpareLeft 1 target 0 x.keys).2) ∧
    (v.canRotate x.wale = true →
      let u := (v.reach (v.rotInstant v.stamp)).rotationOver x.wale
      let u : State := { u with swt := { u.swt with retiring := some x } }
      exec .rotationStep s = .next (u.startShift x.wale (target % 32) none true)))

/-- The SWT commands: reads, a swatch to run, the rotation, fusing the pending repairs once VPP_FUSE is within limits, dropping the marks
(R626, R629 to R637). Where the rules leave more than one reading it is the model's choice (log entry 54). Says that these rows answer a
next state: swtStatus, swtRun, swtResults, swtRotate, swtFuse, swtFuseComplete, swtUnmark, swtCounters. -/
def Obligations.SwatchCommands : Prop :=
  (∀ (s : State) (mb : Nat),
    let c := s.msg mb
    (s.Serves mb spec_SWT_STATUS → exec (.swtStatus mb) s = s.done mb s [s.swtStatus, s.swtRot, s.swtFuse, s.swtMarks]) ∧
    (s.Serves mb spec_SWT_RUN → targetOk (c.n 2 31 28) (c.n 2 15 0) = true → c.n 3 14 0 ≤ 20000 →
      (s.swtCond (c.n 2 31 28) (c.n 2 15 0) = false → exec (.swtRun mb) s = .next (s.answer c .REFUSED_IN_USE [])) ∧
      (s.swtCond (c.n 2 31 28) (c.n 2 15 0) = true → s.swt.queue.length < 64 →
        let b := if c.n 3 14 0 = 0 then 2000 else c.n 3 14 0
        exec (.swtRun mb) s = s.taken mb (s.swtRequest ⟨.run, c.n 2 31 28, c.n 2 15 0, b, s.stamp, [c.id], 1, false, []⟩))) ∧
    (s.Serves mb spec_SWT_RESULTS → 1 ≤ c.n 2 2 0 →
      let l := s.swt.log.reverse.take (c.n 2 2 0)
      exec (.swtResults mb) s = s.done mb s (word l.length :: l.flatten)) ∧
    (s.Serves mb spec_SWT_ROTATE → c.n 3 19 0 < s.airPeriod s.airActive →
      let v : State := { s with swt := { s.swt with
        rotMs := if c.n 2 15 0 = 0 then 1000 else c.n 2 15 0,
        rotating := if c.b 2 31 then s.swt.rotating else none } }
      exec (.swtRotate mb) s =
        s.done mb ((v.put R.SWT_ROT F.SWT_ROT_EN (b2n (c.b 2 31))).put R.SWT_ROT F.SWT_ROT_ROT_OFS (c.n 3 19 0))) ∧
    (s.Serves mb spec_SWT_FUSE → c.n 2 15 0 = 0xF05E →
      (s.vppOk = false → exec (.swtFuse mb) s = .next (s.answer c .NOT_PERMITTED [])) ∧
      (s.vppOk = true → s.swt.fuseOpen = none → s.swt.fused.length + s.unfused.length ≤ 256 →
        exec (.swtFuse mb) s = s.taken mb { s with swt := { s.swt with fuseOpen := some c.id } }) ∧
      (s.vppOk = true → s.swt.fuseOpen = none → 256 < s.swt.fused.length + s.unfused.length →
        exec (.swtFuse mb) s = .next (s.answer c .NO_SPARE []))) ∧
    (s.Serves mb spec_SWT_UNMARK → c.n 2 15 0 = 0x0A4C → exec (.swtUnmark mb) s = s.done mb { s with swt := { s.swt with marks := [] } }) ∧
    (s.Serves mb spec_SWT_COUNTERS → exec (.swtCounters mb) s =
      s.done mb (if c.b 2 0 then ((List.range 6).map R.SWT_COUNT).foldl (fun v a => v.wr a 0) s else s)
        ((List.range 6).map (fun j => s.rd (R.SWT_COUNT j))))) ∧
  (∀ (s : State) (id : Nat), s.swt.fuseOpen = some id →
    let n := s.unfused.length
    let v : State := { s with swt := { s.swt with fuseOpen := none, fused := s.swt.fused ++ s.unfused } }
    exec .swtFuseComplete s = .next (((((v.bump (R.SWT_COUNT 4) n).gazInc 64 n).journal 0x0A 0 n
      (word (s.swt.fused ++ s.unfused).length) 0)).complete id .DONE))

/-! ### Temperature and the gazetteer -/

/-- The thermal island: a reading of every sensor 1 ms after the last updates temperatures, rates, failed marks and bands, then trip, caps
and restart; a band rises at its edge and falls only 2 °C under it; a cap steps down at once and every 100 ms while hot, up after 1 s cool;
60 s below RESTART_C restart a tripped device unless a tier has lost half its sensors (R638 to R644). The THM commands (R647 to R650). Where
the rules leave more than one reading it is the model's choice (log entry 55). Says that these rows answer a next state: sensorReading,
capStepDown, capStepUp, tripRestart, thmStatus, thmSensors, thmThrottle, thmCounters. -/
def Obligations.ThermalControl : Prop :=
  (∀ (s : State) (base : Int) (xs : List SensorVal), s.sys.dev ≠ .off →
    let v := s.reach (s.thm.lastRead + 1000000)
    let v : State := { v.lifeTime (v.stamp - s.thm.lastRead) with thm := { v.thm with lastRead := v.stamp } }
    let raw (i : Nat) : Option Int := match xs.find? (fun x => x.sensor == i) with | some x => x.raw | none => some base
    let u := (List.range 120).foldl (fun v i => (v.convert i (raw i)).rates i) v
    let u := (List.range 5).foldl State.tierPeaks u
    exec (.sensorReading base xs) s = .next ((((List.range 5).foldl State.moveTier u).followBands).tripRead.capsRead.restartRead)) ∧
  (∀ (b k : Nat) (t : Int),
    (k < 5 → bandEdges.getD k 0 ≤ t → k + 1 ≤ nextBand b t) ∧
    (b ≤ 5 → k < b → bandEdges.getD k 0 - 8 ≤ t → k + 1 ≤ nextBand b t) ∧
    (k < b → k < 5 → t < bandEdges.getD k 0 - 8 → nextBand b t ≤ k)) ∧
  (∀ (s : State) (c : Nat), c < 2 → s.sys.dev ≠ .off → s.mbx.pairsInReset.contains 3 = false →
    ((s.capRun c).hot = true → s.cap c ≠ 0 →
      let v := match (s.capRun c).down with | some t => s.reach (t + 100000000) | none => s
      exec (.capStepDown c) s = .next ((v.setCapRun c { s.capRun c with down := some v.stamp }).capStep c (v.cap c - 1))) ∧
    (∀ t, (s.capRun c).cool = some t → s.capFloored c = false → s.cap c ≠ 3 →
      let v := s.reach (t + 1000000000)
      exec (.capStepUp c) s = .next ((v.setCapRun c { s.capRun c with cool := some v.stamp }).capStep c (v.cap c + 1)))) ∧
  (∀ (s : State) (t : Nat), s.thm.restartSince = some t → s.sys.dev = .tripped → s.thm.held = false →
    let v := s.reach (t + s.get R.THM_CFG F.THM_CFG_RESTART_S * 1000000000)
    ((List.range 5).any v.tierLost = false → exec .tripRestart s = .next (v.enterBoot true)) ∧
    ((List.range 5).any v.tierLost = true → exec .tripRestart s = .next { v with thm := { v.thm with held := true } })) ∧
  (∀ (s : State) (mb : Nat),
    let c := s.msg mb
    (s.Serves mb spec_THM_STATUS → exec (.thmStatus mb) s = s.done mb s [s.thmStatus, s.rd R.THM_CFG, s.rd R.THM_BAND]) ∧
    (s.Serves mb spec_THM_SENSORS → 1 ≤ c.n 2 14 8 → c.n 2 14 8 ≤ 61 → c.n 2 6 0 + c.n 2 14 8 ≤ 120 → exec (.thmSensors mb) s =
      s.done mb s ((List.range (c.n 2 14 8)).map (fun j => s.rd (R.THM_SENSOR (c.n 2 6 0 + j))))) ∧
    (s.Serves mb spec_THM_THROTTLE → 85 ≤ c.n 2 7 0 → c.n 2 7 0 ≤ 105 → exec (.thmThrottle mb) s =
      s.done mb (s.put R.THM_CFG F.THM_CFG_THROTTLE_C (c.n 2 7 0))) ∧
    (s.Serves mb spec_THM_COUNTERS → exec (.thmCounters mb) s =
      s.done mb (if c.b 2 0 then ((List.range 5).map R.THM_COUNT).foldl (fun v a => v.wr a 0) s else s)
        ((List.range 5).map (fun j => s.rd (R.THM_COUNT j)))))

/-- The gazetteer: every 600 s the interval's samples enter the histograms and an image write starts; complete, it is the image kept, and
one that fell due meanwhile follows; exports reach host memory with their signature (R652 to R658). The GAZ commands (R661 to R663). Where
the rules leave more than one reading it is the model's choice (log entry 56). Says that these rows answer a next state: gazImageWrite,
gazImageWriteComplete, gazRead, gazExport, gazExportComplete, gazFlush. -/
def Obligations.GazetteerRecords : Prop :=
  (∀ (s : State) (ser : List SerSample), s.sys.dev ≠ .off → s.sys.dev ≠ .boot →
    s.mbx.pairsInReset.contains 3 = false →
    let v := (s.reach s.gaz.nextDue).gazSamples ser
    exec (.gazImageWrite ser) s =
      .next ({ v with gaz := { v.gaz with nextDue := v.gaz.nextDue + 600000000000 } }.gazWrite none)) ∧
  (∀ (s : State) (w : GazWrite), s.gaz.writing = some w → s.gaz.dueAgain = false →
    (w.toB = true → exec .gazImageWriteComplete s = .next
      ({ s with gaz := { s.gaz with imgB := w.image, lastB := true, writing := none, dueAgain := false } }.completeOpt w.openId .DONE)) ∧
    (w.toB = false → exec .gazImageWriteComplete s = .next
      ({ s with gaz := { s.gaz with imgA := w.image, lastB := false, writing := none, dueAgain := false } }.completeOpt w.openId .DONE))) ∧
  (∀ (s : State) (x : GazExport) (rest : List GazExport), s.gaz.exporting = x :: rest →
    let v : State := { s with gaz := { s.gaz with exporting := rest } }
    exec .gazExportComplete s = .next ((v.hostWrite x.addr x.bytes).complete x.openId .DONE)) ∧
  (∀ (s : State) (mb : Nat),
    let c := s.msg mb
    (s.Serves mb spec_GAZ_READ →
      (c.n 2 31 30 = 0 → 1 ≤ c.n 2 4 0 → c.n 2 4 0 ≤ 30 → c.n 2 28 16 + c.n 2 4 0 ≤ 256 → exec (.gazRead mb) s = s.done mb s
        ((List.range (c.n 2 4 0)).flatMap (fun i => [loWord (s.gazCtr (c.n 2 28 16 + i)), hiWord (s.gazCtr (c.n 2 28 16 + i))]))) ∧
      (c.n 2 31 30 = 1 → c.n 2 28 16 ≤ 47 → exec (.gazRead mb) s = s.done mb s
        ((List.range 32).map (fun b => word (sget (fun _ => 0) s.gaz.hist (32 * c.n 2 28 16 + b))))) ∧
      (c.n 2 31 30 = 2 → 1 ≤ c.n 2 4 0 → c.n 2 4 0 ≤ 7 → c.n 2 28 16 + c.n 2 4 0 ≤ s.gaz.journal.length → exec (.gazRead mb) s =
        s.done mb s ((s.gaz.journal.drop (c.n 2 28 16)).take (c.n 2 4 0)).flatten) ∧
      (c.n 2 31 30 = 3 → exec (.gazRead mb) s = s.done mb s [s.gazStatus, s.gazImseq])) ∧
    (s.Serves mb spec_GAZ_EXPORT → c.n64 2 % 4096 = 0 →
      let x : GazExport := ⟨c.id, c.n64 2, s.exportImage⟩
      exec (.gazExport mb) s = s.taken mb { s with gaz := { s.gaz with exporting := s.gaz.exporting ++ [x] } }) ∧
    (s.Serves mb spec_GAZ_FLUSH →
      (s.gaz.writing = none → exec (.gazFlush mb) s = s.taken mb (s.gazWrite (some c.id))) ∧
      (∀ w, s.gaz.writing = some w → exec (.gazFlush mb) s = .next (s.answer c .BUSY []))))

/-! ### The datum island -/

/-- The island's sampling: each sample uses the slot active from it on, and 8 000 make a second, whose record falls due; a code is limited
to ±(2²³ − 1); energy passes to the accumulator in whole millijoules, its residue kept exactly; power down keeps totals and log, power up
logs it; the crystal and ROM checks log what they find; pulses keep 2 ms apart (R665 to R669, R674). Where the rules leave more than one
reading it is the model's choice (log entry 57). Says that these rows answer a next state: datumSample, datumPowerDown, datumPowerUp,
datumCrystalCheck, datumRomDigestCheck, datumPulse. -/
def Obligations.DatumMeasures : Prop :=
  (∀ (s : State) (v i : List Int), s.dat.powered = true →
    let d := (List.range 4).foldl (fun (d : Dat) c => d.sample c (v.getD c 0) (i.getD c 0)) { s.dat with active := activeSlot s.dat.slots }
    (d.inSecond < 7999 → exec (.datumSample v i) s = .next (s.setDat { d with inSecond := d.inSecond + 1 })) ∧
    (d.inSecond = 7999 → exec (.datumSample v i) s = .next (s.setDat { d with
      inSecond := 0, seconds := d.seconds + 1, means := d.sums, sums := [], overLast := d.overs, overs := [], recDue := true }))) ∧
  (∀ x : Int, -8388607 ≤ (fullScale x).1 ∧ (fullScale x).1 ≤ 8388607 ∧ (-8388607 < x → x < 8388607 → fullScale x = (x, false))) ∧
  (∀ (d : Dat) (c dir e : Nat), c < 4 → dir < 2 → swf (fun _ => 0) d.acc = true → swf (fun _ => 0) d.residue = true →
    let k := 2 * c + dir
    let r := sget (fun _ => 0) d.residue k + e
    let t := d.addEnergy c dir e
    sget (fun _ => 0) t.acc k = sget (fun _ => 0) d.acc k + r / 2 ^ 83 ∧ sget (fun _ => 0) t.residue k = r % 2 ^ 83 ∧
    ∀ j, j ≠ k → sget (fun _ => 0) t.acc j = sget (fun _ => 0) d.acc j ∧ sget (fun _ => 0) t.residue j = sget (fun _ => 0) d.residue j) ∧
  (∀ (s : State), s.dat.powered = true → s.dat.sealing = none →
    ∃ d, exec .datumPowerDown s = .next (s.setDat d) ∧ d.powered = false ∧ d.acc = s.dat.acc ∧ d.residue = s.dat.residue ∧
      d.slots = s.dat.slots ∧ d.seconds = s.dat.seconds ∧ d.eseq = s.dat.eseq + 1 ∧ d.session = false ∧
      d.log = (s.dat.event 0x02 0xFF 0).log) ∧
  (∀ (s : State), s.dat.powered = false →
    exec .datumPowerUp s = .next (s.setDat ({ s.dat with powered := true, active := activeSlot s.dat.slots }.event 0x01 0xFF 0))) ∧
  (∀ (s : State) (x : Int), s.dat.powered = true →
    (20000 < x.natAbs → s.dat.onRc = false → exec (.datumCrystalCheck (some x)) s =
      .next (s.setDat ({ s.dat with onRc := true, goodSecs := 0 }.event 0x08 0xFF 0))) ∧
    (x.natAbs ≤ 20000 → s.dat.onRc = true → 9 ≤ s.dat.goodSecs → exec (.datumCrystalCheck (some x)) s =
      .next (s.setDat ({ s.dat with onRc := false, goodSecs := 0 }.event 0x09 0xFF 0))) ∧
    (x.natAbs ≤ 20000 → s.dat.onRc = true → s.dat.goodSecs < 9 → exec (.datumCrystalCheck (some x)) s =
      .next (s.setDat { s.dat with goodSecs := s.dat.goodSecs + 1 })) ∧
    (s.dat.onRc = false → exec (.datumCrystalCheck none) s =
      .next (s.setDat ({ s.dat with onRc := true, goodSecs := 0 }.event 0x08 0xFF 0)))) ∧
  (∀ (s : State) (w : Word), s.dat.powered = true → exec (.datumRomDigestCheck w) s =
    match decide (w = Config.datDigest) with
    | true => .next (s.setDat { s.dat with digest := some w })
    | false => .next (s.setDat ({ s.dat with digest := some w, romFault := true }.event 0x0A 0xFF 0))) ∧
  (∀ (s : State), s.dat.powered = true → 0 < s.dat.pulsesDue →
    let now := s.dat.seconds * 8000 + s.dat.inSecond
    (s.dat.pulseAt = none → exec .datumPulse s =
      .next (s.setDat { s.dat with pulsesDue := s.dat.pulsesDue - 1, pulses := s.dat.pulses + 1, pulseAt := some now })) ∧
    (∀ t, s.dat.pulseAt = some t → t + 16 ≤ now → exec .datumPulse s =
      .next (s.setDat { s.dat with pulsesDue := s.dat.pulsesDue - 1, pulses := s.dat.pulses + 1, pulseAt := some now })) ∧
    (∀ t, s.dat.pulseAt = some t → now < t + 16 → exec .datumPulse s = .next s))

/-- The calibration port hears frames only while DATUM_CAL_EN is high: each is answered with its TYPE plus 0x80 and a status; a session's
staged bytes are sealed into the lowest free slot once; DATUM_CAL_EN falling closes the session (R96, R672, R673). Where the rules leave
more than one reading it is the model's choice (log entry 57). Says that these rows answer a next state: calOpen, calMeasure,
calMeasureDone, calStage, calSeal, sealProgramComplete, calClose, datumCalEnFall, datumCalEnRise, calBadFrame. -/
def Obligations.DatumCalibration : Prop :=
  (∀ s : State, exec .datumCalEnRise s = .next (s.setDat { s.dat with calEn := true })) ∧
  (∀ s : State, exec .datumCalEnFall s = .next (s.setDat { s.dat.close with calEn := false })) ∧
  (∀ (s : State) (operator : Word) (ch n type : Nat) (bs p : List Byte), (s.dat.powered = false ∨ s.dat.calEn = false) →
    exec (.calOpen operator) s = .next s ∧ exec (.calMeasure ch n) s = .next s ∧ exec (.calStage bs) s = .next s ∧
    exec (.calSeal p) s = .next s ∧ exec .calClose s = .next s ∧ exec (.calBadFrame type) s = .next s) ∧
  (∀ (s : State), s.dat.powered = true → s.dat.calEn = true →
    (∀ operator, exec (.calOpen operator) s =
      .next (s.setDat (({ s.dat with session := true }.event 0x03 0xFF operator.toNat).answer 0x01 0))) ∧
    (∀ type, exec (.calBadFrame type) s = .next (s.setDat (s.dat.answer type 1))) ∧
    (∀ ch n, s.dat.session = false → exec (.calMeasure ch n) s = .next (s.setDat (s.dat.answer 0x02 2))) ∧
    (∀ ch n, s.dat.session = true → ch ≤ 3 → 1 ≤ n → n ≤ 2 ^ 24 →
      exec (.calMeasure ch n) s = .next (s.setDat { s.dat with measure := some ⟨ch, n, 0, 0, 0⟩ })) ∧
    (∀ m, s.dat.measure = some m → m.taken = m.n → exec .calMeasureDone s =
      .next (s.setDat ({ s.dat with measure := none }.answer 0x02 0 (meanCode m.v m.n ++ meanCode m.i m.n)))) ∧
    (∀ bs, s.dat.session = true → bs.length = 60 → exec (.calStage bs) s =
      .next (s.setDat ({ s.dat with staged := some bs }.answer 0x03 0))) ∧
    (∀ b, s.dat.session = true → s.dat.staged = some b → s.dat.slots.length < 4 → s.dat.sealing = none →
      s.sys.rails.contains .vppFuse = true → exec (.calSeal [0x5E, 0xA1]) s =
      .next (s.setDat ({ s.dat with staged := none, sealing := some (b ++ leBytes (crc32 b) 4) }.answer 0x04 0))) ∧
    (∀ p, p ≠ [0x5E, 0xA1] → exec (.calSeal p) s = .next (s.setDat (s.dat.answer 0x04 1))) ∧
    (s.dat.slots.length = 4 → exec (.calSeal [0x5E, 0xA1]) s = .next (s.setDat (s.dat.answer 0x04 2))) ∧
    (s.dat.session = true → exec .calClose s = .next (s.setDat
      (({ s.dat with session := false, staged := none, measure := none }.event 0x04 0xFF 0).answer 0x05 0))) ∧
    (s.dat.session = false → exec .calClose s = .next (s.setDat (s.dat.answer 0x05 2)))) ∧
  (∀ (s : State) (b back : List Byte), s.dat.sealing = some b →
    let n := s.dat.slots.length
    exec (.sealProgramComplete back) s = .next (s.setDat ({ s.dat with sealing := none, slots := s.dat.slots ++ [back] }.event
      (if slotGood back then 0x05 else 0x06) 0xFF (17 * n + 1))))

/-- What the island tells Ubtor: a second's record in MB28 when that is free, else none; events one by one in MB29; DAT_ACC_HI stands as it
was at the reader's last read of DAT_ACC_LO (R674 to R676, R679). The DAT commands read what Ubtor keeps (R680, R681). Where the rules leave
more than one reading it is the model's choice (log entry 57). Says that these rows answer a next state: datumEnergyRecord, datumEventPost,
datAccLoRead, datStatus, datEnergy, datLog, datSplit. -/
def Obligations.DatumReports : Prop :=
  (∀ s : State, s.dat.powered = true → s.dat.recDue = true → s.sys.dev ≠ .off →
    let v := s.setDat { s.dat with recDue := false }
    (s.full 28 = true → exec .datumEnergyRecord s = .next v) ∧
    (s.full 28 = false → exec .datumEnergyRecord s = .next (v.postInto 28
      ([0x17400014, 0, word s.dat.seconds] ++ (List.range 8).flatMap (fun k =>
        [loWord (sget (fun _ => 0) s.dat.acc k), hiWord (sget (fun _ => 0) s.dat.acc k)]) ++ [s.dat.status])))) ∧
  (∀ (s : State) (e : DatEvent) (rest : List DatEvent), s.dat.powered = true → s.dat.waiting = e :: rest → s.sys.dev ≠ .off →
    (s.full 29 = true → exec .datumEventPost s = .next s) ∧
    (s.full 29 = false → exec .datumEventPost s =
      .next ((s.setDat { s.dat with waiting := rest }).postInto 29 ([0x17410006, 0] ++ e.words)))) ∧
  (∀ (s : State) (m : Master) (c d : Nat), m = .ubtor ∨ m = .jtag → c < 4 → d < 2 → s.sys.dev ≠ .off → s.dat.powered = true →
    swf (fun _ => (0 : Word)) s.latch = true →
    ∃ u, exec (.datAccLoRead m c d) s = .next u ∧ u.latched m (R.DAT_ACC_HI c d) = hiWord (sget (fun _ => 0) s.dat.acc (2 * c + d)) ∧
      u.regs = s.regs ∧ u.dat = s.dat) ∧
  (∀ (s : State) (mb : Nat),
    let c := s.msg mb
    let r (k : Nat) := s.dat.rec_.getD k 0
    let x (k : Nat) := s.dat.recSide.getD k 0
    (s.Serves mb spec_DAT_STATUS → exec (.datStatus mb) s =
      s.done mb s [r 17, x 0, x 1, x 2, r 0, word ((x 3).toNat - 1024)]) ∧
    (s.Serves mb spec_DAT_ENERGY → exec (.datEnergy mb) s = s.done mb s ((List.range 17).map r)) ∧
    (s.Serves mb spec_DAT_LOG → (c.w 2).toNat ≤ s.datNext →
      let oldest := match s.dat.events.head? with | some e => e.eseq | none => s.datNext
      let es := (s.dat.events.filter (fun e => decide ((c.w 2).toNat ≤ e.eseq))).take 15
      exec (.datLog mb) s =
        s.done mb s (word (b2n (decide ((c.w 2).toNat < oldest)) * 2 ^ 31 + es.length) :: es.flatMap DatEvent.words)) ∧
    (s.Serves mb spec_DAT_SPLIT → c.n 2 3 0 ≠ 0 → c.n 2 21 16 ≤ 62 →
      let ts := s.tenantsById
      let n := min 19 (ts.length - c.n 2 21 16)
      exec (.datSplit mb) s =
        s.done mb s (word (2 ^ 31 + c.n 2 21 16 * 2 ^ 16 + ts.length * 2 ^ 8 + n) :: (List.range n).flatMap (fun j =>
          let e := (List.range 4).foldl (fun a ch =>
            if c.b 2 ch then a + sget (fun _ => 0) s.dat.shares (4 * (c.n 2 21 16 + j) + ch) else a) 0
          [word (match ts[c.n 2 21 16 + j]? with | some t => t.f 1 31 16 | none => 0), loWord e, hiWord e]))))

/-! ### The pins -/

/-- Pins: a latch write sets, clears or toggles the bits its master may write, and one that names another pin is answered ERR and counted;
PIN.WRITE does the same for Ubtor and refuses a bit it may not; a handover is taken up at its edge, applies 8 ns after it, and PIN.ASSIGN is
answered then; the other PIN commands read or write a pin (R687 to R692, R697 to R701). Where the rules leave more than one reading it is
the model's choice (log entry 58). Says that these rows answer a next state: pioSet, pioClr, pioTgl, pinStatus, pinAssign, pinWrite,
pinRead, pinPad, pinCounters, pinHandoverComplete. -/
def Obligations.PinsAndHandover : Prop :=
  (∀ (s : State) (m : Master) (b : Nat) (v : Word), b < 7 → s.sys.dev ≠ .off →
    let a := R.PIO_OUT b
    let mine := within v.toNat (s.latchReach m b false)
    let wrote (t : State) : State := State.answered m t.busOk
    let denied := State.answered m (s.bump (R.PIO_COUNT 1)).busErr
    (busReach m true (R.PIO_SET b) = true →
      (mine = true → exec (.pioSet m b v) s = .next (wrote (s.wr a (s.rd a ||| v)))) ∧
      (mine = false → exec (.pioSet m b v) s = .next denied)) ∧
    (busReach m true (R.PIO_CLR b) = true →
      (mine = true → exec (.pioClr m b v) s = .next (wrote (s.wr a (s.rd a &&& ~~~v)))) ∧
      (mine = false → exec (.pioClr m b v) s = .next denied)) ∧
    (busReach m true (R.PIO_TGL b) = true →
      (mine = true → exec (.pioTgl m b v) s = .next (wrote (s.wr a (s.rd a ^^^ v)))) ∧
      (mine = false → exec (.pioTgl m b v) s = .next denied))) ∧
  (∀ (s : State) (mb : Nat),
    let c := s.msg mb
    (s.Serves mb spec_PIN_STATUS → c.n 2 7 0 ≤ 223 → exec (.pinStatus mb) s = s.done mb s [s.pinCfg (c.n 2 7 0)]) ∧
    (s.Serves mb spec_PIN_READ → c.n 2 2 0 ≤ 6 → exec (.pinRead mb) s = s.done mb { s with free := s.free + 2 }
      [s.pioIn (c.n 2 2 0) s.free, s.rd (R.PIO_OUT (c.n 2 2 0)), s.pioOe (c.n 2 2 0) s.free]) ∧
    (s.Serves mb spec_PIN_WRITE → c.n 2 9 8 ≤ 2 → c.n 2 2 0 ≤ 6 →
      let a := R.PIO_OUT (c.n 2 2 0)
      let mine := within (c.w 3).toNat (s.latchReach .ubtor (c.n 2 2 0) true)
      (mine = false → exec (.pinWrite mb) s = .next (s.answer c .NOT_OWNER [])) ∧
      (mine = true →
        (c.n 2 9 8 = 0 → exec (.pinWrite mb) s = s.done mb (s.wr a (s.rd a ||| c.w 3))) ∧
        (c.n 2 9 8 = 1 → exec (.pinWrite mb) s = s.done mb (s.wr a (s.rd a &&& ~~~(c.w 3)))) ∧
        (c.n 2 9 8 = 2 → exec (.pinWrite mb) s = s.done mb (s.wr a (s.rd a ^^^ c.w 3))))) ∧
    (s.Serves mb spec_PIN_ASSIGN → assignBad c s = none → c.sheet = none → s.hand (c.n 2 7 0) = none → c.n 3 30 28 ≠ 2 →
      (rolesOf s.svy.recs).contains (s.pinFunc (c.n 2 7 0)) = false →
      let p := c.n 2 7 0
      let first := (s.stamp / 4 + 1) * 4
      let h := handoverAt first (s.pinEdges p)
      let v := if h = first then s else s.bump (R.PIO_COUNT 2)
      exec (.pinAssign mb) s =
        s.waits mb (v.setHand p (some ⟨h, c.n 3 30 28, 0, 0, c.n 3 7 0, c.n 3 21 20, c.b 3 31, c.id⟩)) [p]) ∧
    (s.Serves mb spec_PIN_PAD → c.n 2 7 0 ≤ 223 → c.n 3 19 18 ≠ 3 → (c.b 3 16 = true ∨ funcI2c (s.pinFunc (c.n 2 7 0)) = false) →
      exec (.pinPad mb) s = s.done mb (s.put (R.PIO_CFG (c.n 2 7 0)) ⟨19, 16⟩ (c.n 3 19 16))) ∧
    (s.Serves mb spec_PIN_COUNTERS → exec (.pinCounters mb) s =
      s.done mb (if c.b 2 0 then ((List.range 3).map R.PIO_COUNT).foldl (fun v a => v.wr a 0) s else s)
        ((List.range 3).map (fun j => s.rd (R.PIO_COUNT j))))) ∧
  (∀ (s : State) (p : Nat) (x : Handover) (o : OpenCmd), s.hand p = some x → s.mbx.running.find? (fun o => o.id = x.openId) = some o →
    let v := (s.reach (x.h + 8)).setHand p none
    exec (.pinHandoverComplete p) s = .next (((v.wr (R.PIO_CFG p) (word (b2n x.en * 2 ^ 31 + x.owner * 2 ^ 28 + x.sheet * 2 ^ 23 +
      x.pull * 2 ^ 20 + (v.rd (R.PIO_CFG p)).bits 19 16 * 2 ^ 16 + x.slot * 2 ^ 8 + x.func))).bump (R.PIO_COUNT 0)).finishRun o .DONE)) ∧
  (∀ (h : Nat) (es : List Nat), h % 4 = 0 → h ≤ handoverAt h es ∧ handoverAt h es % 4 = 0)

/-! ### Reset, and what every command keeps -/

/-- The device right after reset: in BOOT with nothing surveyed, no session, every mailbox empty, every lane DOWN, no plane valid, every
commanded point OP0 (R470), the timing budget 1 500 ns (R445), every grant 0 with EN 0 (R259), nothing in the event log, no swatch, no
command waiting. Where the rules leave more than one reading it is the model's choice (log entries 1 and 2). -/
def Obligations.ResetState : Prop :=
  let s := State.reset
  s.pending = [] ∧ s.sys.dev = .boot ∧ s.svy.committed = false ∧ s.sys.session = none ∧ s.flt.log = [] ∧ s.swt.queue = [] ∧
  s.swt.running = none ∧ (∀ mb < 32, s.full mb = false ∧ s.acked mb = false) ∧ (∀ n < 96, s.laneState n = 0) ∧
  (∀ n < 32, ∀ p < 4, s.planeValid n p = false) ∧ (∀ i < 72, s.cmdPoint i = 0) ∧ s.get R.MER_BUDGET F.MER_BUDGET_BUDGET_NS = 1500 ∧
  ∀ n < 32, s.rd (R.LDR_GRANT_SHEETS n) = 0 ∧ s.rd (R.LDR_GRANT_WALES_LO n) = 0 ∧ s.rd (R.LDR_GRANT_WALES_HI n) = 0

/-- The state after reset has its registers and memories in canonical form. Where the rules leave more than one reading it is the model's
choice (log entry 13). -/
def Obligations.ResetCanonical : Prop := State.reset.RegsWf ∧ State.reset.MemWf

/-- Every step answers a next state, and keeps registers and memories in canonical form: equal contents are equal data in every state
reached from one that has the form. Where the rules leave more than one reading it is the model's choice (log entries 13 and 63). -/
def Obligations.StepKeepsCanonicalForm : Prop :=
  ∀ s : State, s.RegsWf ∧ s.MemWf → ∃ t, step s = .next t ∧ t.RegsWf ∧ t.MemWf

/-- No command touches the queue: each answers a next state with the queue as it stood, so a step takes away exactly the command at its
front, and commands run first in, first out. -/
def Obligations.StepTakesOneCommand : Prop :=
  (∀ (i : Instr) (s : State), ∃ t, exec i s = .next t ∧ t.pending = s.pending) ∧
  (∀ s : State, ∃ t, step s = .next t ∧ t.pending = s.pending.drop 1)

/-- The datum island keeps to itself (R664): no command, register write, configuration, firmware update, state change, halt, trip or reset
of the rest of the device alters its measurement, constants, accumulators or log; only the island's own rows do. -/
def Obligations.DatumIsolation : Prop :=
  ∀ (i : Instr) (s : State), ofDatum i = false → ∃ t, exec i s = .next t ∧ t.dat.island = s.dat.island
end

