-- ==== Sys2Proof/Laws/Commands.lean ====
section
/-! SUPPORT. What carrying out a Ubtor command can do, once for every command: nothing when no such message may start; BUSY; the return code
of the first check that fails; or what the command's own effect answers. -/

namespace Sys2Proof.Machine

/-- Checks 4 to 9 pass exactly when those common to every command pass and the command's own field checks do. -/
theorem bodyCheck_none {sp : CmdSpec} {fields : Cmd → State → Option RetCode} {c : Cmd} {s : State} :
    bodyCheck sp fields c s = none ↔ bodyCheck sp noFields c s = none ∧ fields c s = none := by
  unfold bodyCheck noFields
  cases stateCheck c s <;> simp
  cases expertCheck c s <;> simp
  cases fields c s <;> simp

/-- The command is taken up: what its effect answers decides. -/
theorem runCommand_served {sp : CmdSpec} {fields : Cmd → State → Option RetCode} {act : Cmd → State → Ans} {mb : Nat} {s : State}
    (h : s.Serves mb sp) (hf : fields (s.msg mb) s = none) :
    runCommand sp fields act mb s =
      match act (s.msg mb) s with
      | .ans rc s' data => s'.answer (s.msg mb) rc data
      | .later s' => s'
      | .acc s' args => s'.accept (s.msg mb) args
      | .wait s' args =>
        let c := s.msg mb
        let o : OpenCmd := ⟨c.id, c.mb, c.code, c.tag, c.session, c.fence, c.posted, c.sheet, args⟩
        { s' with mbx := { s'.mbx with running := s'.mbx.running ++ [o], nextId := s'.mbx.nextId + 1 } } := by
  obtain ⟨h1, h2, h3, h4, h5⟩ := h
  have h6 : bodyCheck sp fields (s.msg mb) s = none := bodyCheck_none.mpr ⟨h5, hf⟩
  have h7 : decide (16 ≤ s.queued mb) = false := by simpa using h4
  simp only [runCommand, h1, h2, h3, h6, h7]
  simp only [decide_true, Bool.and_true, Option.isNone_none, if_true, Bool.false_and]
  cases act (s.msg mb) s <;> simp

/-- A message that is not this command, or may not start yet, changes nothing. -/
theorem runCommand_idle {sp : CmdSpec} {fields : Cmd → State → Option RetCode} {act : Cmd → State → Ans} {mb : Nat} {s : State}
    (h : s.startable mb = false ∨ (s.msg mb).code ≠ sp.code ∨ headerCheck [sp.code] (s.msg mb) ≠ none) :
    runCommand sp fields act mb s = s := by
  unfold runCommand
  have : (s.startable mb && decide ((s.msg mb).code = sp.code) && (headerCheck [sp.code] (s.msg mb)).isNone) = false := by
    rcases h with h | h | h
    · simp [h]
    · simp [h]
    · cases hh : headerCheck [sp.code] (s.msg mb) with
      | none => exact absurd hh h
      | some _ => simp
  simp [this]

/-- A failing check answers its return code and has no other effect. -/
theorem runCommand_refused {sp : CmdSpec} {fields : Cmd → State → Option RetCode} {act : Cmd → State → Ans} {mb : Nat} {s : State}
    {rc : RetCode} (h1 : s.startable mb = true) (h2 : (s.msg mb).code = sp.code) (h3 : headerCheck [sp.code] (s.msg mb) = none)
    (h4 : s.queued mb < 16) (h5 : bodyCheck sp fields (s.msg mb) s = some rc) :
    runCommand sp fields act mb s = s.answer (s.msg mb) rc [] := by
  have h7 : decide (16 ≤ s.queued mb) = false := by simpa using h4
  simp [runCommand, h1, h2, h3, h5, h7]

end Sys2Proof.Machine
end

