-- ==== Sys2Proof/Laws/Sparse.lean ====
section
/-! SUPPORT. Laws of sparse data: a read after a write, and the canonical form kept by every operation. -/

namespace Sys2Proof.Machine

variable {α : Type}

@[simp] theorem sget_nil (d : Nat → α) (k : Nat) : sget d [] k = d k := rfl

theorem sget_sput_same (d : Nat → α) (m : Sparse α) (k : Nat) (v : α) : sget d (sput m k v) k = v := by
  induction m with
  | nil => simp [sput, sget]
  | cons e m ih =>
    obtain ⟨k', v'⟩ := e
    simp only [sput]
    split
    · simp [sget]
    · split
      · simp [sget]
      · rename_i h; simp [sget, h, ih]

theorem sget_sput_other (d : Nat → α) (m : Sparse α) {k j : Nat} (v : α) (h : j ≠ k) :
    sget d (sput m k v) j = sget d m j := by
  induction m with
  | nil => simp [sput, sget, h]
  | cons e m ih =>
    obtain ⟨k', v'⟩ := e
    simp only [sput]
    split
    · simp [sget, h]
    · split
      · rename_i _ he; subst he; simp [sget, h]
      · simp only [sget]; rw [ih]

theorem sget_sdel_other (d : Nat → α) (m : Sparse α) {k j : Nat} (h : j ≠ k) :
    sget d (sdel m k) j = sget d m j := by
  induction m with
  | nil => rfl
  | cons e m ih =>
    obtain ⟨k', v'⟩ := e
    simp only [sdel]
    split
    · rename_i he; subst he; simp [sget, h]
    · simp only [sget]; rw [ih]

/-- A bound below the first key bounds every key. -/
theorem srising_weaken {m : Sparse α} {a b : Nat} (hab : a ≤ b) (h : srising m (some b) = true) :
    srising m (some a) = true := by
  cases m with
  | nil => rfl
  | cons e m =>
    obtain ⟨k, v⟩ := e
    simp only [srising, Bool.and_eq_true, decide_eq_true_eq] at h ⊢
    exact ⟨by omega, h.2⟩

theorem srising_none {m : Sparse α} {a : Nat} (h : srising m (some a) = true) : srising m none = true := by
  cases m with
  | nil => rfl
  | cons e m =>
    obtain ⟨k, v⟩ := e
    simp only [srising, Bool.and_eq_true, decide_eq_true_eq, Bool.true_and] at h ⊢
    exact h.2

theorem sget_of_rising (d : Nat → α) {m : Sparse α} {a k : Nat} (h : srising m (some a) = true) (hk : k ≤ a) :
    sget d m k = d k := by
  induction m generalizing a with
  | nil => rfl
  | cons e m ih =>
    obtain ⟨k', v'⟩ := e
    simp only [srising, Bool.and_eq_true, decide_eq_true_eq] at h
    have : k ≠ k' := by omega
    simp only [sget, this, if_false]
    exact ih h.2 (by omega)

theorem sget_sdel_same (d : Nat → α) {m : Sparse α} (h : srising m none = true) (k : Nat) :
    sget d (sdel m k) k = d k := by
  induction m with
  | nil => rfl
  | cons e m ih =>
    obtain ⟨k', v'⟩ := e
    simp only [srising, Bool.true_and] at h
    simp only [sdel]
    split
    · rename_i he; subst he; exact sget_of_rising d h (Nat.le_refl _)
    · rename_i he; simp only [sget, he, if_false]; exact ih (srising_none h)

theorem srising_sput {m : Sparse α} {lo : Option Nat} (k : Nat) (v : α) (h : srising m lo = true)
    (hlo : ∀ l, lo = some l → l < k) : srising (sput m k v) lo = true := by
  induction m generalizing lo with
  | nil =>
    cases lo with
    | none => rfl
    | some l => simpa [sput, srising] using hlo l rfl
  | cons e m ih =>
    obtain ⟨k', v'⟩ := e
    simp only [srising, Bool.and_eq_true] at h
    simp only [sput]
    split
    · rename_i hk
      simp only [srising, Bool.and_eq_true, decide_eq_true_eq]
      refine ⟨?_, hk, h.2⟩
      cases lo with
      | none => rfl
      | some l => simpa using hlo l rfl
    · split
      · rename_i _ he; subst he
        simp only [srising, Bool.and_eq_true]
        exact h
      · rename_i hn he
        simp only [srising, Bool.and_eq_true]
        exact ⟨h.1, ih h.2 (by intro l hl; cases hl; omega)⟩

theorem srising_sdel {m : Sparse α} {lo : Option Nat} (k : Nat) (h : srising m lo = true) :
    srising (sdel m k) lo = true := by
  induction m generalizing lo with
  | nil => rfl
  | cons e m ih =>
    obtain ⟨k', v'⟩ := e
    simp only [srising, Bool.and_eq_true] at h
    simp only [sdel]
    split
    · cases lo with
      | none => exact srising_none h.2
      | some l =>
        have h1 := h.1
        simp only [decide_eq_true_eq] at h1
        exact srising_weaken (by omega) h.2
    · simp only [srising, Bool.and_eq_true]
      exact ⟨h.1, ih h.2⟩

theorem mem_sput {m : Sparse α} {k : Nat} {v : α} {e : Nat × α} (h : e ∈ sput m k v) : e = (k, v) ∨ e ∈ m := by
  induction m with
  | nil => simpa [sput] using h
  | cons x m ih =>
    obtain ⟨k', v'⟩ := x
    simp only [sput] at h
    split at h
    · simpa using h
    · split at h
      · simp only [List.mem_cons] at h ⊢; tauto
      · simp only [List.mem_cons] at h ⊢
        rcases h with h | h
        · exact .inr (.inl h)
        · rcases ih h with h | h
          · exact .inl h
          · exact .inr (.inr h)

theorem mem_sdel {m : Sparse α} {k : Nat} {e : Nat × α} (h : e ∈ sdel m k) : e ∈ m := by
  induction m with
  | nil => simp [sdel] at h
  | cons x m ih =>
    obtain ⟨k', v'⟩ := x
    simp only [sdel] at h
    split at h
    · exact List.mem_cons_of_mem _ h
    · simp only [List.mem_cons] at h ⊢
      exact h.imp id ih

variable [DecidableEq α]

theorem swf_nil (d : Nat → α) : swf d [] = true := rfl

/-- A write keeps the canonical form. -/
theorem swf_sset (d : Nat → α) {m : Sparse α} (k : Nat) (v : α) (h : swf d m = true) : swf d (sset d m k v) = true := by
  simp only [swf, Bool.and_eq_true, snodefault, List.all_eq_true, decide_eq_true_eq] at h ⊢
  unfold sset
  split
  · exact ⟨srising_sdel k h.1, fun e he => h.2 e (mem_sdel he)⟩
  · rename_i hv
    refine ⟨srising_sput k v h.1 (by simp), fun e he => ?_⟩
    rcases mem_sput he with rfl | he
    · exact hv
    · exact h.2 e he

/-- Forgetting entries keeps the canonical form. -/
theorem swf_sfilter (d : Nat → α) (p : Nat → Bool) {m : Sparse α} (h : swf d m = true) : swf d (sfilter p m) = true := by
  simp only [swf, Bool.and_eq_true, snodefault, List.all_eq_true, decide_eq_true_eq] at h ⊢
  refine ⟨?_, fun e he => h.2 e (List.mem_filter.mp he).1⟩
  have key : ∀ (m : Sparse α) (lo : Option Nat), srising m lo = true → srising (sfilter p m) lo = true := by
    intro m
    induction m with
    | nil => intros; rfl
    | cons e m ih =>
      intro lo hr
      obtain ⟨k, v⟩ := e
      simp only [srising, Bool.and_eq_true] at hr
      simp only [sfilter, List.filter]
      split
      · simp only [srising, Bool.and_eq_true]
        exact ⟨hr.1, ih _ hr.2⟩
      · apply ih
        cases lo with
        | none => exact srising_none hr.2
        | some l =>
          have h1 := hr.1
          simp only [decide_eq_true_eq] at h1
          exact srising_weaken (by omega) hr.2
  exact key m none h.1

/-- A read after a write to the same key gives the value written. -/
theorem sget_sset_same (d : Nat → α) {m : Sparse α} (k : Nat) (v : α) (h : swf d m = true) :
    sget d (sset d m k v) k = v := by
  simp only [swf, Bool.and_eq_true] at h
  unfold sset
  split
  · rename_i hv; rw [hv]; exact sget_sdel_same d h.1 k
  · exact sget_sput_same d m k v

/-- A write leaves every other key as it was. -/
theorem sget_sset_other (d : Nat → α) (m : Sparse α) {k j : Nat} (v : α) (h : j ≠ k) :
    sget d (sset d m k v) j = sget d m j := by
  unfold sset
  split
  · exact sget_sdel_other d m h
  · exact sget_sput_other d m v h

end Sys2Proof.Machine
end

