-- ==== Sys2Proof/Laws/State.lean ====
section
/-! SUPPORT. What each named update of the state leaves as it was: one lemma per field and update, so that no later proof unfolds a
record update. Each is true by rfl; `id` keeps simp from joining such steps into one definitional check, which the kernel finds hard. -/

namespace Sys2Proof.Machine

section upd_wr
variable (s : State) (k : Nat) (v : Word)
@[simp] theorem State.wr_pending : (s.wr k v).pending = s.pending := id rfl
@[simp] theorem State.wr_stamp : (s.wr k v).stamp = s.stamp := id rfl
@[simp] theorem State.wr_latch : (s.wr k v).latch = s.latch := id rfl
@[simp] theorem State.wr_raised : (s.wr k v).raised = s.raised := id rfl
@[simp] theorem State.wr_free : (s.wr k v).free = s.free := id rfl
@[simp] theorem State.wr_sys : (s.wr k v).sys = s.sys := id rfl
@[simp] theorem State.wr_mbx : (s.wr k v).mbx = s.mbx := id rfl
@[simp] theorem State.wr_svy : (s.wr k v).svy = s.svy := id rfl
@[simp] theorem State.wr_host : (s.wr k v).host = s.host := id rfl
@[simp] theorem State.wr_flt : (s.wr k v).flt = s.flt := id rfl
@[simp] theorem State.wr_gaz : (s.wr k v).gaz = s.gaz := id rfl
@[simp] theorem State.wr_pwr : (s.wr k v).pwr = s.pwr := id rfl
@[simp] theorem State.wr_streams : (s.wr k v).streams = s.streams := id rfl
@[simp] theorem State.wr_store : (s.wr k v).store = s.store := id rfl
@[simp] theorem State.wr_stitch : (s.wr k v).stitch = s.stitch := id rfl
@[simp] theorem State.wr_fabric : (s.wr k v).fabric = s.fabric := id rfl
@[simp] theorem State.wr_swt : (s.wr k v).swt = s.swt := id rfl
@[simp] theorem State.wr_air : (s.wr k v).air = s.air := id rfl
@[simp] theorem State.wr_ldr : (s.wr k v).ldr = s.ldr := id rfl
@[simp] theorem State.wr_links : (s.wr k v).links = s.links := id rfl
@[simp] theorem State.wr_mer : (s.wr k v).mer = s.mer := id rfl
@[simp] theorem State.wr_pins : (s.wr k v).pins = s.pins := id rfl
@[simp] theorem State.wr_grt : (s.wr k v).grt = s.grt := id rfl
@[simp] theorem State.wr_mem : (s.wr k v).mem = s.mem := id rfl
@[simp] theorem State.wr_thm : (s.wr k v).thm = s.thm := id rfl
@[simp] theorem State.wr_dat : (s.wr k v).dat = s.dat := id rfl
end upd_wr

section upd_put
variable (s : State) (k : Nat) (f : Fld) (v : Nat)
@[simp] theorem State.put_pending : (s.put k f v).pending = s.pending := id rfl
@[simp] theorem State.put_stamp : (s.put k f v).stamp = s.stamp := id rfl
@[simp] theorem State.put_latch : (s.put k f v).latch = s.latch := id rfl
@[simp] theorem State.put_raised : (s.put k f v).raised = s.raised := id rfl
@[simp] theorem State.put_free : (s.put k f v).free = s.free := id rfl
@[simp] theorem State.put_sys : (s.put k f v).sys = s.sys := id rfl
@[simp] theorem State.put_mbx : (s.put k f v).mbx = s.mbx := id rfl
@[simp] theorem State.put_svy : (s.put k f v).svy = s.svy := id rfl
@[simp] theorem State.put_host : (s.put k f v).host = s.host := id rfl
@[simp] theorem State.put_flt : (s.put k f v).flt = s.flt := id rfl
@[simp] theorem State.put_gaz : (s.put k f v).gaz = s.gaz := id rfl
@[simp] theorem State.put_pwr : (s.put k f v).pwr = s.pwr := id rfl
@[simp] theorem State.put_streams : (s.put k f v).streams = s.streams := id rfl
@[simp] theorem State.put_store : (s.put k f v).store = s.store := id rfl
@[simp] theorem State.put_stitch : (s.put k f v).stitch = s.stitch := id rfl
@[simp] theorem State.put_fabric : (s.put k f v).fabric = s.fabric := id rfl
@[simp] theorem State.put_swt : (s.put k f v).swt = s.swt := id rfl
@[simp] theorem State.put_air : (s.put k f v).air = s.air := id rfl
@[simp] theorem State.put_ldr : (s.put k f v).ldr = s.ldr := id rfl
@[simp] theorem State.put_links : (s.put k f v).links = s.links := id rfl
@[simp] theorem State.put_mer : (s.put k f v).mer = s.mer := id rfl
@[simp] theorem State.put_pins : (s.put k f v).pins = s.pins := id rfl
@[simp] theorem State.put_grt : (s.put k f v).grt = s.grt := id rfl
@[simp] theorem State.put_mem : (s.put k f v).mem = s.mem := id rfl
@[simp] theorem State.put_thm : (s.put k f v).thm = s.thm := id rfl
@[simp] theorem State.put_dat : (s.put k f v).dat = s.dat := id rfl
end upd_put

section upd_setBit
variable (s : State) (k i : Nat) (b : Bool)
@[simp] theorem State.setBit_pending : (s.setBit k i b).pending = s.pending := id rfl
@[simp] theorem State.setBit_stamp : (s.setBit k i b).stamp = s.stamp := id rfl
@[simp] theorem State.setBit_latch : (s.setBit k i b).latch = s.latch := id rfl
@[simp] theorem State.setBit_raised : (s.setBit k i b).raised = s.raised := id rfl
@[simp] theorem State.setBit_free : (s.setBit k i b).free = s.free := id rfl
@[simp] theorem State.setBit_sys : (s.setBit k i b).sys = s.sys := id rfl
@[simp] theorem State.setBit_mbx : (s.setBit k i b).mbx = s.mbx := id rfl
@[simp] theorem State.setBit_svy : (s.setBit k i b).svy = s.svy := id rfl
@[simp] theorem State.setBit_host : (s.setBit k i b).host = s.host := id rfl
@[simp] theorem State.setBit_flt : (s.setBit k i b).flt = s.flt := id rfl
@[simp] theorem State.setBit_gaz : (s.setBit k i b).gaz = s.gaz := id rfl
@[simp] theorem State.setBit_pwr : (s.setBit k i b).pwr = s.pwr := id rfl
@[simp] theorem State.setBit_streams : (s.setBit k i b).streams = s.streams := id rfl
@[simp] theorem State.setBit_store : (s.setBit k i b).store = s.store := id rfl
@[simp] theorem State.setBit_stitch : (s.setBit k i b).stitch = s.stitch := id rfl
@[simp] theorem State.setBit_fabric : (s.setBit k i b).fabric = s.fabric := id rfl
@[simp] theorem State.setBit_swt : (s.setBit k i b).swt = s.swt := id rfl
@[simp] theorem State.setBit_air : (s.setBit k i b).air = s.air := id rfl
@[simp] theorem State.setBit_ldr : (s.setBit k i b).ldr = s.ldr := id rfl
@[simp] theorem State.setBit_links : (s.setBit k i b).links = s.links := id rfl
@[simp] theorem State.setBit_mer : (s.setBit k i b).mer = s.mer := id rfl
@[simp] theorem State.setBit_pins : (s.setBit k i b).pins = s.pins := id rfl
@[simp] theorem State.setBit_grt : (s.setBit k i b).grt = s.grt := id rfl
@[simp] theorem State.setBit_mem : (s.setBit k i b).mem = s.mem := id rfl
@[simp] theorem State.setBit_thm : (s.setBit k i b).thm = s.thm := id rfl
@[simp] theorem State.setBit_dat : (s.setBit k i b).dat = s.dat := id rfl
end upd_setBit

section upd_bump
variable (s : State) (k n : Nat)
@[simp] theorem State.bump_pending : (s.bump k n).pending = s.pending := id rfl
@[simp] theorem State.bump_stamp : (s.bump k n).stamp = s.stamp := id rfl
@[simp] theorem State.bump_latch : (s.bump k n).latch = s.latch := id rfl
@[simp] theorem State.bump_raised : (s.bump k n).raised = s.raised := id rfl
@[simp] theorem State.bump_free : (s.bump k n).free = s.free := id rfl
@[simp] theorem State.bump_sys : (s.bump k n).sys = s.sys := id rfl
@[simp] theorem State.bump_mbx : (s.bump k n).mbx = s.mbx := id rfl
@[simp] theorem State.bump_svy : (s.bump k n).svy = s.svy := id rfl
@[simp] theorem State.bump_host : (s.bump k n).host = s.host := id rfl
@[simp] theorem State.bump_flt : (s.bump k n).flt = s.flt := id rfl
@[simp] theorem State.bump_gaz : (s.bump k n).gaz = s.gaz := id rfl
@[simp] theorem State.bump_pwr : (s.bump k n).pwr = s.pwr := id rfl
@[simp] theorem State.bump_streams : (s.bump k n).streams = s.streams := id rfl
@[simp] theorem State.bump_store : (s.bump k n).store = s.store := id rfl
@[simp] theorem State.bump_stitch : (s.bump k n).stitch = s.stitch := id rfl
@[simp] theorem State.bump_fabric : (s.bump k n).fabric = s.fabric := id rfl
@[simp] theorem State.bump_swt : (s.bump k n).swt = s.swt := id rfl
@[simp] theorem State.bump_air : (s.bump k n).air = s.air := id rfl
@[simp] theorem State.bump_ldr : (s.bump k n).ldr = s.ldr := id rfl
@[simp] theorem State.bump_links : (s.bump k n).links = s.links := id rfl
@[simp] theorem State.bump_mer : (s.bump k n).mer = s.mer := id rfl
@[simp] theorem State.bump_pins : (s.bump k n).pins = s.pins := id rfl
@[simp] theorem State.bump_grt : (s.bump k n).grt = s.grt := id rfl
@[simp] theorem State.bump_mem : (s.bump k n).mem = s.mem := id rfl
@[simp] theorem State.bump_thm : (s.bump k n).thm = s.thm := id rfl
@[simp] theorem State.bump_dat : (s.bump k n).dat = s.dat := id rfl
end upd_bump

section upd_raise
variable (s : State) (k i : Nat)
@[simp] theorem State.raise_pending : (s.raise k i).pending = s.pending := id rfl
@[simp] theorem State.raise_stamp : (s.raise k i).stamp = s.stamp := id rfl
@[simp] theorem State.raise_latch : (s.raise k i).latch = s.latch := id rfl
@[simp] theorem State.raise_free : (s.raise k i).free = s.free := id rfl
@[simp] theorem State.raise_sys : (s.raise k i).sys = s.sys := id rfl
@[simp] theorem State.raise_mbx : (s.raise k i).mbx = s.mbx := id rfl
@[simp] theorem State.raise_svy : (s.raise k i).svy = s.svy := id rfl
@[simp] theorem State.raise_host : (s.raise k i).host = s.host := id rfl
@[simp] theorem State.raise_flt : (s.raise k i).flt = s.flt := id rfl
@[simp] theorem State.raise_gaz : (s.raise k i).gaz = s.gaz := id rfl
@[simp] theorem State.raise_pwr : (s.raise k i).pwr = s.pwr := id rfl
@[simp] theorem State.raise_streams : (s.raise k i).streams = s.streams := id rfl
@[simp] theorem State.raise_store : (s.raise k i).store = s.store := id rfl
@[simp] theorem State.raise_stitch : (s.raise k i).stitch = s.stitch := id rfl
@[simp] theorem State.raise_fabric : (s.raise k i).fabric = s.fabric := id rfl
@[simp] theorem State.raise_swt : (s.raise k i).swt = s.swt := id rfl
@[simp] theorem State.raise_air : (s.raise k i).air = s.air := id rfl
@[simp] theorem State.raise_ldr : (s.raise k i).ldr = s.ldr := id rfl
@[simp] theorem State.raise_links : (s.raise k i).links = s.links := id rfl
@[simp] theorem State.raise_mer : (s.raise k i).mer = s.mer := id rfl
@[simp] theorem State.raise_pins : (s.raise k i).pins = s.pins := id rfl
@[simp] theorem State.raise_grt : (s.raise k i).grt = s.grt := id rfl
@[simp] theorem State.raise_mem : (s.raise k i).mem = s.mem := id rfl
@[simp] theorem State.raise_thm : (s.raise k i).thm = s.thm := id rfl
@[simp] theorem State.raise_dat : (s.raise k i).dat = s.dat := id rfl
end upd_raise

section upd_clearBits
variable (s : State) (k m : Nat)
@[simp] theorem State.clearBits_pending : (s.clearBits k m).pending = s.pending := id rfl
@[simp] theorem State.clearBits_stamp : (s.clearBits k m).stamp = s.stamp := id rfl
@[simp] theorem State.clearBits_latch : (s.clearBits k m).latch = s.latch := id rfl
@[simp] theorem State.clearBits_raised : (s.clearBits k m).raised = s.raised := id rfl
@[simp] theorem State.clearBits_free : (s.clearBits k m).free = s.free := id rfl
@[simp] theorem State.clearBits_sys : (s.clearBits k m).sys = s.sys := id rfl
@[simp] theorem State.clearBits_mbx : (s.clearBits k m).mbx = s.mbx := id rfl
@[simp] theorem State.clearBits_svy : (s.clearBits k m).svy = s.svy := id rfl
@[simp] theorem State.clearBits_host : (s.clearBits k m).host = s.host := id rfl
@[simp] theorem State.clearBits_flt : (s.clearBits k m).flt = s.flt := id rfl
@[simp] theorem State.clearBits_gaz : (s.clearBits k m).gaz = s.gaz := id rfl
@[simp] theorem State.clearBits_pwr : (s.clearBits k m).pwr = s.pwr := id rfl
@[simp] theorem State.clearBits_streams : (s.clearBits k m).streams = s.streams := id rfl
@[simp] theorem State.clearBits_store : (s.clearBits k m).store = s.store := id rfl
@[simp] theorem State.clearBits_stitch : (s.clearBits k m).stitch = s.stitch := id rfl
@[simp] theorem State.clearBits_fabric : (s.clearBits k m).fabric = s.fabric := id rfl
@[simp] theorem State.clearBits_swt : (s.clearBits k m).swt = s.swt := id rfl
@[simp] theorem State.clearBits_air : (s.clearBits k m).air = s.air := id rfl
@[simp] theorem State.clearBits_ldr : (s.clearBits k m).ldr = s.ldr := id rfl
@[simp] theorem State.clearBits_links : (s.clearBits k m).links = s.links := id rfl
@[simp] theorem State.clearBits_mer : (s.clearBits k m).mer = s.mer := id rfl
@[simp] theorem State.clearBits_pins : (s.clearBits k m).pins = s.pins := id rfl
@[simp] theorem State.clearBits_grt : (s.clearBits k m).grt = s.grt := id rfl
@[simp] theorem State.clearBits_mem : (s.clearBits k m).mem = s.mem := id rfl
@[simp] theorem State.clearBits_thm : (s.clearBits k m).thm = s.thm := id rfl
@[simp] theorem State.clearBits_dat : (s.clearBits k m).dat = s.dat := id rfl
end upd_clearBits

section upd_setLatch
variable (s : State) (m : Master) (a : Nat) (v : Word)
@[simp] theorem State.setLatch_pending : (s.setLatch m a v).pending = s.pending := id rfl
@[simp] theorem State.setLatch_stamp : (s.setLatch m a v).stamp = s.stamp := id rfl
@[simp] theorem State.setLatch_regs : (s.setLatch m a v).regs = s.regs := id rfl
@[simp] theorem State.setLatch_raised : (s.setLatch m a v).raised = s.raised := id rfl
@[simp] theorem State.setLatch_free : (s.setLatch m a v).free = s.free := id rfl
@[simp] theorem State.setLatch_sys : (s.setLatch m a v).sys = s.sys := id rfl
@[simp] theorem State.setLatch_mbx : (s.setLatch m a v).mbx = s.mbx := id rfl
@[simp] theorem State.setLatch_svy : (s.setLatch m a v).svy = s.svy := id rfl
@[simp] theorem State.setLatch_host : (s.setLatch m a v).host = s.host := id rfl
@[simp] theorem State.setLatch_flt : (s.setLatch m a v).flt = s.flt := id rfl
@[simp] theorem State.setLatch_gaz : (s.setLatch m a v).gaz = s.gaz := id rfl
@[simp] theorem State.setLatch_pwr : (s.setLatch m a v).pwr = s.pwr := id rfl
@[simp] theorem State.setLatch_streams : (s.setLatch m a v).streams = s.streams := id rfl
@[simp] theorem State.setLatch_store : (s.setLatch m a v).store = s.store := id rfl
@[simp] theorem State.setLatch_stitch : (s.setLatch m a v).stitch = s.stitch := id rfl
@[simp] theorem State.setLatch_fabric : (s.setLatch m a v).fabric = s.fabric := id rfl
@[simp] theorem State.setLatch_swt : (s.setLatch m a v).swt = s.swt := id rfl
@[simp] theorem State.setLatch_air : (s.setLatch m a v).air = s.air := id rfl
@[simp] theorem State.setLatch_ldr : (s.setLatch m a v).ldr = s.ldr := id rfl
@[simp] theorem State.setLatch_links : (s.setLatch m a v).links = s.links := id rfl
@[simp] theorem State.setLatch_mer : (s.setLatch m a v).mer = s.mer := id rfl
@[simp] theorem State.setLatch_pins : (s.setLatch m a v).pins = s.pins := id rfl
@[simp] theorem State.setLatch_grt : (s.setLatch m a v).grt = s.grt := id rfl
@[simp] theorem State.setLatch_mem : (s.setLatch m a v).mem = s.mem := id rfl
@[simp] theorem State.setLatch_thm : (s.setLatch m a v).thm = s.thm := id rfl
@[simp] theorem State.setLatch_dat : (s.setLatch m a v).dat = s.dat := id rfl
end upd_setLatch

section upd_reach
variable (s : State) (n : Nat)
@[simp] theorem State.reach_pending : (s.reach n).pending = s.pending := id rfl
@[simp] theorem State.reach_regs : (s.reach n).regs = s.regs := id rfl
@[simp] theorem State.reach_latch : (s.reach n).latch = s.latch := id rfl
@[simp] theorem State.reach_raised : (s.reach n).raised = s.raised := id rfl
@[simp] theorem State.reach_free : (s.reach n).free = s.free := id rfl
@[simp] theorem State.reach_sys : (s.reach n).sys = s.sys := id rfl
@[simp] theorem State.reach_mbx : (s.reach n).mbx = s.mbx := id rfl
@[simp] theorem State.reach_svy : (s.reach n).svy = s.svy := id rfl
@[simp] theorem State.reach_host : (s.reach n).host = s.host := id rfl
@[simp] theorem State.reach_flt : (s.reach n).flt = s.flt := id rfl
@[simp] theorem State.reach_gaz : (s.reach n).gaz = s.gaz := id rfl
@[simp] theorem State.reach_pwr : (s.reach n).pwr = s.pwr := id rfl
@[simp] theorem State.reach_streams : (s.reach n).streams = s.streams := id rfl
@[simp] theorem State.reach_store : (s.reach n).store = s.store := id rfl
@[simp] theorem State.reach_stitch : (s.reach n).stitch = s.stitch := id rfl
@[simp] theorem State.reach_fabric : (s.reach n).fabric = s.fabric := id rfl
@[simp] theorem State.reach_swt : (s.reach n).swt = s.swt := id rfl
@[simp] theorem State.reach_air : (s.reach n).air = s.air := id rfl
@[simp] theorem State.reach_ldr : (s.reach n).ldr = s.ldr := id rfl
@[simp] theorem State.reach_links : (s.reach n).links = s.links := id rfl
@[simp] theorem State.reach_mer : (s.reach n).mer = s.mer := id rfl
@[simp] theorem State.reach_pins : (s.reach n).pins = s.pins := id rfl
@[simp] theorem State.reach_grt : (s.reach n).grt = s.grt := id rfl
@[simp] theorem State.reach_mem : (s.reach n).mem = s.mem := id rfl
@[simp] theorem State.reach_thm : (s.reach n).thm = s.thm := id rfl
@[simp] theorem State.reach_dat : (s.reach n).dat = s.dat := id rfl
end upd_reach

section upd_report
variable (s : State) (a b : Nat) (d : List Word) (l : List (Nat × Nat × Nat))
@[simp] theorem State.report_pending : (s.report a b d l).pending = s.pending := id rfl
@[simp] theorem State.report_stamp : (s.report a b d l).stamp = s.stamp := id rfl
@[simp] theorem State.report_regs : (s.report a b d l).regs = s.regs := id rfl
@[simp] theorem State.report_latch : (s.report a b d l).latch = s.latch := id rfl
@[simp] theorem State.report_raised : (s.report a b d l).raised = s.raised := id rfl
@[simp] theorem State.report_free : (s.report a b d l).free = s.free := id rfl
@[simp] theorem State.report_sys : (s.report a b d l).sys = s.sys := id rfl
@[simp] theorem State.report_mbx : (s.report a b d l).mbx = s.mbx := id rfl
@[simp] theorem State.report_svy : (s.report a b d l).svy = s.svy := id rfl
@[simp] theorem State.report_host : (s.report a b d l).host = s.host := id rfl
@[simp] theorem State.report_gaz : (s.report a b d l).gaz = s.gaz := id rfl
@[simp] theorem State.report_pwr : (s.report a b d l).pwr = s.pwr := id rfl
@[simp] theorem State.report_streams : (s.report a b d l).streams = s.streams := id rfl
@[simp] theorem State.report_store : (s.report a b d l).store = s.store := id rfl
@[simp] theorem State.report_stitch : (s.report a b d l).stitch = s.stitch := id rfl
@[simp] theorem State.report_fabric : (s.report a b d l).fabric = s.fabric := id rfl
@[simp] theorem State.report_swt : (s.report a b d l).swt = s.swt := id rfl
@[simp] theorem State.report_air : (s.report a b d l).air = s.air := id rfl
@[simp] theorem State.report_ldr : (s.report a b d l).ldr = s.ldr := id rfl
@[simp] theorem State.report_links : (s.report a b d l).links = s.links := id rfl
@[simp] theorem State.report_mer : (s.report a b d l).mer = s.mer := id rfl
@[simp] theorem State.report_pins : (s.report a b d l).pins = s.pins := id rfl
@[simp] theorem State.report_grt : (s.report a b d l).grt = s.grt := id rfl
@[simp] theorem State.report_mem : (s.report a b d l).mem = s.mem := id rfl
@[simp] theorem State.report_thm : (s.report a b d l).thm = s.thm := id rfl
@[simp] theorem State.report_dat : (s.report a b d l).dat = s.dat := id rfl
end upd_report

section upd_gazInc
variable (s : State) (i n : Nat)
@[simp] theorem State.gazInc_pending : (s.gazInc i n).pending = s.pending := id rfl
@[simp] theorem State.gazInc_stamp : (s.gazInc i n).stamp = s.stamp := id rfl
@[simp] theorem State.gazInc_regs : (s.gazInc i n).regs = s.regs := id rfl
@[simp] theorem State.gazInc_latch : (s.gazInc i n).latch = s.latch := id rfl
@[simp] theorem State.gazInc_raised : (s.gazInc i n).raised = s.raised := id rfl
@[simp] theorem State.gazInc_free : (s.gazInc i n).free = s.free := id rfl
@[simp] theorem State.gazInc_sys : (s.gazInc i n).sys = s.sys := id rfl
@[simp] theorem State.gazInc_mbx : (s.gazInc i n).mbx = s.mbx := id rfl
@[simp] theorem State.gazInc_svy : (s.gazInc i n).svy = s.svy := id rfl
@[simp] theorem State.gazInc_host : (s.gazInc i n).host = s.host := id rfl
@[simp] theorem State.gazInc_flt : (s.gazInc i n).flt = s.flt := id rfl
@[simp] theorem State.gazInc_pwr : (s.gazInc i n).pwr = s.pwr := id rfl
@[simp] theorem State.gazInc_streams : (s.gazInc i n).streams = s.streams := id rfl
@[simp] theorem State.gazInc_store : (s.gazInc i n).store = s.store := id rfl
@[simp] theorem State.gazInc_stitch : (s.gazInc i n).stitch = s.stitch := id rfl
@[simp] theorem State.gazInc_fabric : (s.gazInc i n).fabric = s.fabric := id rfl
@[simp] theorem State.gazInc_swt : (s.gazInc i n).swt = s.swt := id rfl
@[simp] theorem State.gazInc_air : (s.gazInc i n).air = s.air := id rfl
@[simp] theorem State.gazInc_ldr : (s.gazInc i n).ldr = s.ldr := id rfl
@[simp] theorem State.gazInc_links : (s.gazInc i n).links = s.links := id rfl
@[simp] theorem State.gazInc_mer : (s.gazInc i n).mer = s.mer := id rfl
@[simp] theorem State.gazInc_pins : (s.gazInc i n).pins = s.pins := id rfl
@[simp] theorem State.gazInc_grt : (s.gazInc i n).grt = s.grt := id rfl
@[simp] theorem State.gazInc_mem : (s.gazInc i n).mem = s.mem := id rfl
@[simp] theorem State.gazInc_thm : (s.gazInc i n).thm = s.thm := id rfl
@[simp] theorem State.gazInc_dat : (s.gazInc i n).dat = s.dat := id rfl
end upd_gazInc

section upd_gazMax
variable (s : State) (i v : Nat)
@[simp] theorem State.gazMax_pending : (s.gazMax i v).pending = s.pending := id rfl
@[simp] theorem State.gazMax_stamp : (s.gazMax i v).stamp = s.stamp := id rfl
@[simp] theorem State.gazMax_regs : (s.gazMax i v).regs = s.regs := id rfl
@[simp] theorem State.gazMax_latch : (s.gazMax i v).latch = s.latch := id rfl
@[simp] theorem State.gazMax_raised : (s.gazMax i v).raised = s.raised := id rfl
@[simp] theorem State.gazMax_free : (s.gazMax i v).free = s.free := id rfl
@[simp] theorem State.gazMax_sys : (s.gazMax i v).sys = s.sys := id rfl
@[simp] theorem State.gazMax_mbx : (s.gazMax i v).mbx = s.mbx := id rfl
@[simp] theorem State.gazMax_svy : (s.gazMax i v).svy = s.svy := id rfl
@[simp] theorem State.gazMax_host : (s.gazMax i v).host = s.host := id rfl
@[simp] theorem State.gazMax_flt : (s.gazMax i v).flt = s.flt := id rfl
@[simp] theorem State.gazMax_pwr : (s.gazMax i v).pwr = s.pwr := id rfl
@[simp] theorem State.gazMax_streams : (s.gazMax i v).streams = s.streams := id rfl
@[simp] theorem State.gazMax_store : (s.gazMax i v).store = s.store := id rfl
@[simp] theorem State.gazMax_stitch : (s.gazMax i v).stitch = s.stitch := id rfl
@[simp] theorem State.gazMax_fabric : (s.gazMax i v).fabric = s.fabric := id rfl
@[simp] theorem State.gazMax_swt : (s.gazMax i v).swt = s.swt := id rfl
@[simp] theorem State.gazMax_air : (s.gazMax i v).air = s.air := id rfl
@[simp] theorem State.gazMax_ldr : (s.gazMax i v).ldr = s.ldr := id rfl
@[simp] theorem State.gazMax_links : (s.gazMax i v).links = s.links := id rfl
@[simp] theorem State.gazMax_mer : (s.gazMax i v).mer = s.mer := id rfl
@[simp] theorem State.gazMax_pins : (s.gazMax i v).pins = s.pins := id rfl
@[simp] theorem State.gazMax_grt : (s.gazMax i v).grt = s.grt := id rfl
@[simp] theorem State.gazMax_mem : (s.gazMax i v).mem = s.mem := id rfl
@[simp] theorem State.gazMax_thm : (s.gazMax i v).thm = s.thm := id rfl
@[simp] theorem State.gazMax_dat : (s.gazMax i v).dat = s.dat := id rfl
end upd_gazMax

section upd_gazHist
variable (s : State) (h b : Nat)
@[simp] theorem State.gazHist_pending : (s.gazHist h b).pending = s.pending := id rfl
@[simp] theorem State.gazHist_stamp : (s.gazHist h b).stamp = s.stamp := id rfl
@[simp] theorem State.gazHist_regs : (s.gazHist h b).regs = s.regs := id rfl
@[simp] theorem State.gazHist_latch : (s.gazHist h b).latch = s.latch := id rfl
@[simp] theorem State.gazHist_raised : (s.gazHist h b).raised = s.raised := id rfl
@[simp] theorem State.gazHist_free : (s.gazHist h b).free = s.free := id rfl
@[simp] theorem State.gazHist_sys : (s.gazHist h b).sys = s.sys := id rfl
@[simp] theorem State.gazHist_mbx : (s.gazHist h b).mbx = s.mbx := id rfl
@[simp] theorem State.gazHist_svy : (s.gazHist h b).svy = s.svy := id rfl
@[simp] theorem State.gazHist_host : (s.gazHist h b).host = s.host := id rfl
@[simp] theorem State.gazHist_flt : (s.gazHist h b).flt = s.flt := id rfl
@[simp] theorem State.gazHist_pwr : (s.gazHist h b).pwr = s.pwr := id rfl
@[simp] theorem State.gazHist_streams : (s.gazHist h b).streams = s.streams := id rfl
@[simp] theorem State.gazHist_store : (s.gazHist h b).store = s.store := id rfl
@[simp] theorem State.gazHist_stitch : (s.gazHist h b).stitch = s.stitch := id rfl
@[simp] theorem State.gazHist_fabric : (s.gazHist h b).fabric = s.fabric := id rfl
@[simp] theorem State.gazHist_swt : (s.gazHist h b).swt = s.swt := id rfl
@[simp] theorem State.gazHist_air : (s.gazHist h b).air = s.air := id rfl
@[simp] theorem State.gazHist_ldr : (s.gazHist h b).ldr = s.ldr := id rfl
@[simp] theorem State.gazHist_links : (s.gazHist h b).links = s.links := id rfl
@[simp] theorem State.gazHist_mer : (s.gazHist h b).mer = s.mer := id rfl
@[simp] theorem State.gazHist_pins : (s.gazHist h b).pins = s.pins := id rfl
@[simp] theorem State.gazHist_grt : (s.gazHist h b).grt = s.grt := id rfl
@[simp] theorem State.gazHist_mem : (s.gazHist h b).mem = s.mem := id rfl
@[simp] theorem State.gazHist_thm : (s.gazHist h b).thm = s.thm := id rfl
@[simp] theorem State.gazHist_dat : (s.gazHist h b).dat = s.dat := id rfl
end upd_gazHist

section upd_hostWrite
variable (s : State) (a : Nat) (bs : List Byte)
@[simp] theorem State.hostWrite_pending : (s.hostWrite a bs).pending = s.pending := id rfl
@[simp] theorem State.hostWrite_stamp : (s.hostWrite a bs).stamp = s.stamp := id rfl
@[simp] theorem State.hostWrite_regs : (s.hostWrite a bs).regs = s.regs := id rfl
@[simp] theorem State.hostWrite_latch : (s.hostWrite a bs).latch = s.latch := id rfl
@[simp] theorem State.hostWrite_raised : (s.hostWrite a bs).raised = s.raised := id rfl
@[simp] theorem State.hostWrite_free : (s.hostWrite a bs).free = s.free := id rfl
@[simp] theorem State.hostWrite_sys : (s.hostWrite a bs).sys = s.sys := id rfl
@[simp] theorem State.hostWrite_mbx : (s.hostWrite a bs).mbx = s.mbx := id rfl
@[simp] theorem State.hostWrite_svy : (s.hostWrite a bs).svy = s.svy := id rfl
@[simp] theorem State.hostWrite_flt : (s.hostWrite a bs).flt = s.flt := id rfl
@[simp] theorem State.hostWrite_gaz : (s.hostWrite a bs).gaz = s.gaz := id rfl
@[simp] theorem State.hostWrite_pwr : (s.hostWrite a bs).pwr = s.pwr := id rfl
@[simp] theorem State.hostWrite_streams : (s.hostWrite a bs).streams = s.streams := id rfl
@[simp] theorem State.hostWrite_store : (s.hostWrite a bs).store = s.store := id rfl
@[simp] theorem State.hostWrite_stitch : (s.hostWrite a bs).stitch = s.stitch := id rfl
@[simp] theorem State.hostWrite_fabric : (s.hostWrite a bs).fabric = s.fabric := id rfl
@[simp] theorem State.hostWrite_swt : (s.hostWrite a bs).swt = s.swt := id rfl
@[simp] theorem State.hostWrite_air : (s.hostWrite a bs).air = s.air := id rfl
@[simp] theorem State.hostWrite_ldr : (s.hostWrite a bs).ldr = s.ldr := id rfl
@[simp] theorem State.hostWrite_links : (s.hostWrite a bs).links = s.links := id rfl
@[simp] theorem State.hostWrite_mer : (s.hostWrite a bs).mer = s.mer := id rfl
@[simp] theorem State.hostWrite_pins : (s.hostWrite a bs).pins = s.pins := id rfl
@[simp] theorem State.hostWrite_grt : (s.hostWrite a bs).grt = s.grt := id rfl
@[simp] theorem State.hostWrite_mem : (s.hostWrite a bs).mem = s.mem := id rfl
@[simp] theorem State.hostWrite_thm : (s.hostWrite a bs).thm = s.thm := id rfl
@[simp] theorem State.hostWrite_dat : (s.hostWrite a bs).dat = s.dat := id rfl
end upd_hostWrite

section upd_setAck
variable (s : State) (m : Nat) (b : Bool)
@[simp] theorem State.setAck_pending : (s.setAck m b).pending = s.pending := by simp only [State.setAck, State.put_pending, State.setBit_pending]
@[simp] theorem State.setAck_stamp : (s.setAck m b).stamp = s.stamp := by simp only [State.setAck, State.put_stamp, State.setBit_stamp]
@[simp] theorem State.setAck_latch : (s.setAck m b).latch = s.latch := by simp only [State.setAck, State.put_latch, State.setBit_latch]
@[simp] theorem State.setAck_raised : (s.setAck m b).raised = s.raised := by simp only [State.setAck, State.put_raised, State.setBit_raised]
@[simp] theorem State.setAck_free : (s.setAck m b).free = s.free := by simp only [State.setAck, State.put_free, State.setBit_free]
@[simp] theorem State.setAck_sys : (s.setAck m b).sys = s.sys := by simp only [State.setAck, State.put_sys, State.setBit_sys]
@[simp] theorem State.setAck_mbx : (s.setAck m b).mbx = s.mbx := by simp only [State.setAck, State.put_mbx, State.setBit_mbx]
@[simp] theorem State.setAck_svy : (s.setAck m b).svy = s.svy := by simp only [State.setAck, State.put_svy, State.setBit_svy]
@[simp] theorem State.setAck_host : (s.setAck m b).host = s.host := by simp only [State.setAck, State.put_host, State.setBit_host]
@[simp] theorem State.setAck_flt : (s.setAck m b).flt = s.flt := by simp only [State.setAck, State.put_flt, State.setBit_flt]
@[simp] theorem State.setAck_gaz : (s.setAck m b).gaz = s.gaz := by simp only [State.setAck, State.put_gaz, State.setBit_gaz]
@[simp] theorem State.setAck_pwr : (s.setAck m b).pwr = s.pwr := by simp only [State.setAck, State.put_pwr, State.setBit_pwr]
@[simp] theorem State.setAck_streams : (s.setAck m b).streams = s.streams := by simp only [State.setAck, State.put_streams, State.setBit_streams]
@[simp] theorem State.setAck_store : (s.setAck m b).store = s.store := by simp only [State.setAck, State.put_store, State.setBit_store]
@[simp] theorem State.setAck_stitch : (s.setAck m b).stitch = s.stitch := by simp only [State.setAck, State.put_stitch, State.setBit_stitch]
@[simp] theorem State.setAck_fabric : (s.setAck m b).fabric = s.fabric := by simp only [State.setAck, State.put_fabric, State.setBit_fabric]
@[simp] theorem State.setAck_swt : (s.setAck m b).swt = s.swt := by simp only [State.setAck, State.put_swt, State.setBit_swt]
@[simp] theorem State.setAck_air : (s.setAck m b).air = s.air := by simp only [State.setAck, State.put_air, State.setBit_air]
@[simp] theorem State.setAck_ldr : (s.setAck m b).ldr = s.ldr := by simp only [State.setAck, State.put_ldr, State.setBit_ldr]
@[simp] theorem State.setAck_links : (s.setAck m b).links = s.links := by simp only [State.setAck, State.put_links, State.setBit_links]
@[simp] theorem State.setAck_mer : (s.setAck m b).mer = s.mer := by simp only [State.setAck, State.put_mer, State.setBit_mer]
@[simp] theorem State.setAck_pins : (s.setAck m b).pins = s.pins := by simp only [State.setAck, State.put_pins, State.setBit_pins]
@[simp] theorem State.setAck_grt : (s.setAck m b).grt = s.grt := by simp only [State.setAck, State.put_grt, State.setBit_grt]
@[simp] theorem State.setAck_mem : (s.setAck m b).mem = s.mem := by simp only [State.setAck, State.put_mem, State.setBit_mem]
@[simp] theorem State.setAck_thm : (s.setAck m b).thm = s.thm := by simp only [State.setAck, State.put_thm, State.setBit_thm]
@[simp] theorem State.setAck_dat : (s.setAck m b).dat = s.dat := by simp only [State.setAck, State.put_dat, State.setBit_dat]
end upd_setAck

section upd_setYport
variable (s : State) (p : Nat) (y : YPort)
@[simp] theorem State.setYport_pending : (s.setYport p y).pending = s.pending := id rfl
@[simp] theorem State.setYport_stamp : (s.setYport p y).stamp = s.stamp := id rfl
@[simp] theorem State.setYport_regs : (s.setYport p y).regs = s.regs := id rfl
@[simp] theorem State.setYport_latch : (s.setYport p y).latch = s.latch := id rfl
@[simp] theorem State.setYport_raised : (s.setYport p y).raised = s.raised := id rfl
@[simp] theorem State.setYport_free : (s.setYport p y).free = s.free := id rfl
@[simp] theorem State.setYport_sys : (s.setYport p y).sys = s.sys := id rfl
@[simp] theorem State.setYport_mbx : (s.setYport p y).mbx = s.mbx := id rfl
@[simp] theorem State.setYport_svy : (s.setYport p y).svy = s.svy := id rfl
@[simp] theorem State.setYport_host : (s.setYport p y).host = s.host := id rfl
@[simp] theorem State.setYport_flt : (s.setYport p y).flt = s.flt := id rfl
@[simp] theorem State.setYport_gaz : (s.setYport p y).gaz = s.gaz := id rfl
@[simp] theorem State.setYport_pwr : (s.setYport p y).pwr = s.pwr := id rfl
@[simp] theorem State.setYport_streams : (s.setYport p y).streams = s.streams := id rfl
@[simp] theorem State.setYport_store : (s.setYport p y).store = s.store := id rfl
@[simp] theorem State.setYport_stitch : (s.setYport p y).stitch = s.stitch := id rfl
@[simp] theorem State.setYport_fabric : (s.setYport p y).fabric = s.fabric := id rfl
@[simp] theorem State.setYport_swt : (s.setYport p y).swt = s.swt := id rfl
@[simp] theorem State.setYport_air : (s.setYport p y).air = s.air := id rfl
@[simp] theorem State.setYport_ldr : (s.setYport p y).ldr = s.ldr := id rfl
@[simp] theorem State.setYport_mer : (s.setYport p y).mer = s.mer := id rfl
@[simp] theorem State.setYport_pins : (s.setYport p y).pins = s.pins := id rfl
@[simp] theorem State.setYport_grt : (s.setYport p y).grt = s.grt := id rfl
@[simp] theorem State.setYport_mem : (s.setYport p y).mem = s.mem := id rfl
@[simp] theorem State.setYport_thm : (s.setYport p y).thm = s.thm := id rfl
@[simp] theorem State.setYport_dat : (s.setYport p y).dat = s.dat := id rfl
end upd_setYport

section upd_setOutq
variable (s : State) (m : Nat) (q : List OutMsg)
@[simp] theorem State.setOutq_pending : (s.setOutq m q).pending = s.pending := id rfl
@[simp] theorem State.setOutq_stamp : (s.setOutq m q).stamp = s.stamp := id rfl
@[simp] theorem State.setOutq_regs : (s.setOutq m q).regs = s.regs := id rfl
@[simp] theorem State.setOutq_latch : (s.setOutq m q).latch = s.latch := id rfl
@[simp] theorem State.setOutq_raised : (s.setOutq m q).raised = s.raised := id rfl
@[simp] theorem State.setOutq_free : (s.setOutq m q).free = s.free := id rfl
@[simp] theorem State.setOutq_sys : (s.setOutq m q).sys = s.sys := id rfl
@[simp] theorem State.setOutq_svy : (s.setOutq m q).svy = s.svy := id rfl
@[simp] theorem State.setOutq_host : (s.setOutq m q).host = s.host := id rfl
@[simp] theorem State.setOutq_flt : (s.setOutq m q).flt = s.flt := id rfl
@[simp] theorem State.setOutq_gaz : (s.setOutq m q).gaz = s.gaz := id rfl
@[simp] theorem State.setOutq_pwr : (s.setOutq m q).pwr = s.pwr := id rfl
@[simp] theorem State.setOutq_streams : (s.setOutq m q).streams = s.streams := id rfl
@[simp] theorem State.setOutq_store : (s.setOutq m q).store = s.store := id rfl
@[simp] theorem State.setOutq_stitch : (s.setOutq m q).stitch = s.stitch := id rfl
@[simp] theorem State.setOutq_fabric : (s.setOutq m q).fabric = s.fabric := id rfl
@[simp] theorem State.setOutq_swt : (s.setOutq m q).swt = s.swt := id rfl
@[simp] theorem State.setOutq_air : (s.setOutq m q).air = s.air := id rfl
@[simp] theorem State.setOutq_ldr : (s.setOutq m q).ldr = s.ldr := id rfl
@[simp] theorem State.setOutq_links : (s.setOutq m q).links = s.links := id rfl
@[simp] theorem State.setOutq_mer : (s.setOutq m q).mer = s.mer := id rfl
@[simp] theorem State.setOutq_pins : (s.setOutq m q).pins = s.pins := id rfl
@[simp] theorem State.setOutq_grt : (s.setOutq m q).grt = s.grt := id rfl
@[simp] theorem State.setOutq_mem : (s.setOutq m q).mem = s.mem := id rfl
@[simp] theorem State.setOutq_thm : (s.setOutq m q).thm = s.thm := id rfl
@[simp] theorem State.setOutq_dat : (s.setOutq m q).dat = s.dat := id rfl
end upd_setOutq

section upd_takeId
variable (s : State)
@[simp] theorem State.takeId_pending : (s.takeId).pending = s.pending := id rfl
@[simp] theorem State.takeId_stamp : (s.takeId).stamp = s.stamp := id rfl
@[simp] theorem State.takeId_regs : (s.takeId).regs = s.regs := id rfl
@[simp] theorem State.takeId_latch : (s.takeId).latch = s.latch := id rfl
@[simp] theorem State.takeId_raised : (s.takeId).raised = s.raised := id rfl
@[simp] theorem State.takeId_free : (s.takeId).free = s.free := id rfl
@[simp] theorem State.takeId_sys : (s.takeId).sys = s.sys := id rfl
@[simp] theorem State.takeId_svy : (s.takeId).svy = s.svy := id rfl
@[simp] theorem State.takeId_host : (s.takeId).host = s.host := id rfl
@[simp] theorem State.takeId_flt : (s.takeId).flt = s.flt := id rfl
@[simp] theorem State.takeId_gaz : (s.takeId).gaz = s.gaz := id rfl
@[simp] theorem State.takeId_pwr : (s.takeId).pwr = s.pwr := id rfl
@[simp] theorem State.takeId_streams : (s.takeId).streams = s.streams := id rfl
@[simp] theorem State.takeId_store : (s.takeId).store = s.store := id rfl
@[simp] theorem State.takeId_stitch : (s.takeId).stitch = s.stitch := id rfl
@[simp] theorem State.takeId_fabric : (s.takeId).fabric = s.fabric := id rfl
@[simp] theorem State.takeId_swt : (s.takeId).swt = s.swt := id rfl
@[simp] theorem State.takeId_air : (s.takeId).air = s.air := id rfl
@[simp] theorem State.takeId_ldr : (s.takeId).ldr = s.ldr := id rfl
@[simp] theorem State.takeId_links : (s.takeId).links = s.links := id rfl
@[simp] theorem State.takeId_mer : (s.takeId).mer = s.mer := id rfl
@[simp] theorem State.takeId_pins : (s.takeId).pins = s.pins := id rfl
@[simp] theorem State.takeId_grt : (s.takeId).grt = s.grt := id rfl
@[simp] theorem State.takeId_mem : (s.takeId).mem = s.mem := id rfl
@[simp] theorem State.takeId_thm : (s.takeId).thm = s.thm := id rfl
@[simp] theorem State.takeId_dat : (s.takeId).dat = s.dat := id rfl
end upd_takeId

section upd_setTile
variable (s : State) (n : Nat) (x : Tile)
@[simp] theorem State.setTile_pending : (s.setTile n x).pending = s.pending := id rfl
@[simp] theorem State.setTile_stamp : (s.setTile n x).stamp = s.stamp := id rfl
@[simp] theorem State.setTile_regs : (s.setTile n x).regs = s.regs := id rfl
@[simp] theorem State.setTile_latch : (s.setTile n x).latch = s.latch := id rfl
@[simp] theorem State.setTile_raised : (s.setTile n x).raised = s.raised := id rfl
@[simp] theorem State.setTile_free : (s.setTile n x).free = s.free := id rfl
@[simp] theorem State.setTile_sys : (s.setTile n x).sys = s.sys := id rfl
@[simp] theorem State.setTile_mbx : (s.setTile n x).mbx = s.mbx := id rfl
@[simp] theorem State.setTile_svy : (s.setTile n x).svy = s.svy := id rfl
@[simp] theorem State.setTile_host : (s.setTile n x).host = s.host := id rfl
@[simp] theorem State.setTile_flt : (s.setTile n x).flt = s.flt := id rfl
@[simp] theorem State.setTile_gaz : (s.setTile n x).gaz = s.gaz := id rfl
@[simp] theorem State.setTile_pwr : (s.setTile n x).pwr = s.pwr := id rfl
@[simp] theorem State.setTile_streams : (s.setTile n x).streams = s.streams := id rfl
@[simp] theorem State.setTile_store : (s.setTile n x).store = s.store := id rfl
@[simp] theorem State.setTile_fabric : (s.setTile n x).fabric = s.fabric := id rfl
@[simp] theorem State.setTile_swt : (s.setTile n x).swt = s.swt := id rfl
@[simp] theorem State.setTile_air : (s.setTile n x).air = s.air := id rfl
@[simp] theorem State.setTile_ldr : (s.setTile n x).ldr = s.ldr := id rfl
@[simp] theorem State.setTile_links : (s.setTile n x).links = s.links := id rfl
@[simp] theorem State.setTile_mer : (s.setTile n x).mer = s.mer := id rfl
@[simp] theorem State.setTile_pins : (s.setTile n x).pins = s.pins := id rfl
@[simp] theorem State.setTile_grt : (s.setTile n x).grt = s.grt := id rfl
@[simp] theorem State.setTile_mem : (s.setTile n x).mem = s.mem := id rfl
@[simp] theorem State.setTile_thm : (s.setTile n x).thm = s.thm := id rfl
@[simp] theorem State.setTile_dat : (s.setTile n x).dat = s.dat := id rfl
end upd_setTile

section upd_setWale
variable (s : State) (n : Nat) (x : Wale)
@[simp] theorem State.setWale_pending : (s.setWale n x).pending = s.pending := id rfl
@[simp] theorem State.setWale_stamp : (s.setWale n x).stamp = s.stamp := id rfl
@[simp] theorem State.setWale_regs : (s.setWale n x).regs = s.regs := id rfl
@[simp] theorem State.setWale_latch : (s.setWale n x).latch = s.latch := id rfl
@[simp] theorem State.setWale_raised : (s.setWale n x).raised = s.raised := id rfl
@[simp] theorem State.setWale_free : (s.setWale n x).free = s.free := id rfl
@[simp] theorem State.setWale_sys : (s.setWale n x).sys = s.sys := id rfl
@[simp] theorem State.setWale_mbx : (s.setWale n x).mbx = s.mbx := id rfl
@[simp] theorem State.setWale_svy : (s.setWale n x).svy = s.svy := id rfl
@[simp] theorem State.setWale_host : (s.setWale n x).host = s.host := id rfl
@[simp] theorem State.setWale_flt : (s.setWale n x).flt = s.flt := id rfl
@[simp] theorem State.setWale_gaz : (s.setWale n x).gaz = s.gaz := id rfl
@[simp] theorem State.setWale_pwr : (s.setWale n x).pwr = s.pwr := id rfl
@[simp] theorem State.setWale_streams : (s.setWale n x).streams = s.streams := id rfl
@[simp] theorem State.setWale_store : (s.setWale n x).store = s.store := id rfl
@[simp] theorem State.setWale_fabric : (s.setWale n x).fabric = s.fabric := id rfl
@[simp] theorem State.setWale_swt : (s.setWale n x).swt = s.swt := id rfl
@[simp] theorem State.setWale_air : (s.setWale n x).air = s.air := id rfl
@[simp] theorem State.setWale_ldr : (s.setWale n x).ldr = s.ldr := id rfl
@[simp] theorem State.setWale_links : (s.setWale n x).links = s.links := id rfl
@[simp] theorem State.setWale_mer : (s.setWale n x).mer = s.mer := id rfl
@[simp] theorem State.setWale_pins : (s.setWale n x).pins = s.pins := id rfl
@[simp] theorem State.setWale_grt : (s.setWale n x).grt = s.grt := id rfl
@[simp] theorem State.setWale_mem : (s.setWale n x).mem = s.mem := id rfl
@[simp] theorem State.setWale_thm : (s.setWale n x).thm = s.thm := id rfl
@[simp] theorem State.setWale_dat : (s.setWale n x).dat = s.dat := id rfl
end upd_setWale

section upd_setTmem
variable (s : State) (n a : Nat) (b : Byte)
@[simp] theorem State.setTmem_pending : (s.setTmem n a b).pending = s.pending := id rfl
@[simp] theorem State.setTmem_stamp : (s.setTmem n a b).stamp = s.stamp := id rfl
@[simp] theorem State.setTmem_regs : (s.setTmem n a b).regs = s.regs := id rfl
@[simp] theorem State.setTmem_latch : (s.setTmem n a b).latch = s.latch := id rfl
@[simp] theorem State.setTmem_raised : (s.setTmem n a b).raised = s.raised := id rfl
@[simp] theorem State.setTmem_free : (s.setTmem n a b).free = s.free := id rfl
@[simp] theorem State.setTmem_sys : (s.setTmem n a b).sys = s.sys := id rfl
@[simp] theorem State.setTmem_mbx : (s.setTmem n a b).mbx = s.mbx := id rfl
@[simp] theorem State.setTmem_svy : (s.setTmem n a b).svy = s.svy := id rfl
@[simp] theorem State.setTmem_host : (s.setTmem n a b).host = s.host := id rfl
@[simp] theorem State.setTmem_flt : (s.setTmem n a b).flt = s.flt := id rfl
@[simp] theorem State.setTmem_gaz : (s.setTmem n a b).gaz = s.gaz := id rfl
@[simp] theorem State.setTmem_pwr : (s.setTmem n a b).pwr = s.pwr := id rfl
@[simp] theorem State.setTmem_streams : (s.setTmem n a b).streams = s.streams := id rfl
@[simp] theorem State.setTmem_store : (s.setTmem n a b).store = s.store := id rfl
@[simp] theorem State.setTmem_fabric : (s.setTmem n a b).fabric = s.fabric := id rfl
@[simp] theorem State.setTmem_swt : (s.setTmem n a b).swt = s.swt := id rfl
@[simp] theorem State.setTmem_air : (s.setTmem n a b).air = s.air := id rfl
@[simp] theorem State.setTmem_ldr : (s.setTmem n a b).ldr = s.ldr := id rfl
@[simp] theorem State.setTmem_links : (s.setTmem n a b).links = s.links := id rfl
@[simp] theorem State.setTmem_mer : (s.setTmem n a b).mer = s.mer := id rfl
@[simp] theorem State.setTmem_pins : (s.setTmem n a b).pins = s.pins := id rfl
@[simp] theorem State.setTmem_grt : (s.setTmem n a b).grt = s.grt := id rfl
@[simp] theorem State.setTmem_mem : (s.setTmem n a b).mem = s.mem := id rfl
@[simp] theorem State.setTmem_thm : (s.setTmem n a b).thm = s.thm := id rfl
@[simp] theorem State.setTmem_dat : (s.setTmem n a b).dat = s.dat := id rfl
end upd_setTmem

section upd_setStream
variable (s : State) (n : Nat) (x : Stream)
@[simp] theorem State.setStream_pending : (s.setStream n x).pending = s.pending := id rfl
@[simp] theorem State.setStream_stamp : (s.setStream n x).stamp = s.stamp := id rfl
@[simp] theorem State.setStream_regs : (s.setStream n x).regs = s.regs := id rfl
@[simp] theorem State.setStream_latch : (s.setStream n x).latch = s.latch := id rfl
@[simp] theorem State.setStream_raised : (s.setStream n x).raised = s.raised := id rfl
@[simp] theorem State.setStream_free : (s.setStream n x).free = s.free := id rfl
@[simp] theorem State.setStream_sys : (s.setStream n x).sys = s.sys := id rfl
@[simp] theorem State.setStream_mbx : (s.setStream n x).mbx = s.mbx := id rfl
@[simp] theorem State.setStream_svy : (s.setStream n x).svy = s.svy := id rfl
@[simp] theorem State.setStream_host : (s.setStream n x).host = s.host := id rfl
@[simp] theorem State.setStream_flt : (s.setStream n x).flt = s.flt := id rfl
@[simp] theorem State.setStream_gaz : (s.setStream n x).gaz = s.gaz := id rfl
@[simp] theorem State.setStream_pwr : (s.setStream n x).pwr = s.pwr := id rfl
@[simp] theorem State.setStream_store : (s.setStream n x).store = s.store := id rfl
@[simp] theorem State.setStream_stitch : (s.setStream n x).stitch = s.stitch := id rfl
@[simp] theorem State.setStream_fabric : (s.setStream n x).fabric = s.fabric := id rfl
@[simp] theorem State.setStream_swt : (s.setStream n x).swt = s.swt := id rfl
@[simp] theorem State.setStream_air : (s.setStream n x).air = s.air := id rfl
@[simp] theorem State.setStream_ldr : (s.setStream n x).ldr = s.ldr := id rfl
@[simp] theorem State.setStream_links : (s.setStream n x).links = s.links := id rfl
@[simp] theorem State.setStream_mer : (s.setStream n x).mer = s.mer := id rfl
@[simp] theorem State.setStream_pins : (s.setStream n x).pins = s.pins := id rfl
@[simp] theorem State.setStream_grt : (s.setStream n x).grt = s.grt := id rfl
@[simp] theorem State.setStream_mem : (s.setStream n x).mem = s.mem := id rfl
@[simp] theorem State.setStream_thm : (s.setStream n x).thm = s.thm := id rfl
@[simp] theorem State.setStream_dat : (s.setStream n x).dat = s.dat := id rfl
end upd_setStream

section upd_setDat
variable (s : State) (x : Dat)
@[simp] theorem State.setDat_pending : (s.setDat x).pending = s.pending := id rfl
@[simp] theorem State.setDat_stamp : (s.setDat x).stamp = s.stamp := id rfl
@[simp] theorem State.setDat_regs : (s.setDat x).regs = s.regs := id rfl
@[simp] theorem State.setDat_latch : (s.setDat x).latch = s.latch := id rfl
@[simp] theorem State.setDat_raised : (s.setDat x).raised = s.raised := id rfl
@[simp] theorem State.setDat_free : (s.setDat x).free = s.free := id rfl
@[simp] theorem State.setDat_sys : (s.setDat x).sys = s.sys := id rfl
@[simp] theorem State.setDat_mbx : (s.setDat x).mbx = s.mbx := id rfl
@[simp] theorem State.setDat_svy : (s.setDat x).svy = s.svy := id rfl
@[simp] theorem State.setDat_host : (s.setDat x).host = s.host := id rfl
@[simp] theorem State.setDat_flt : (s.setDat x).flt = s.flt := id rfl
@[simp] theorem State.setDat_gaz : (s.setDat x).gaz = s.gaz := id rfl
@[simp] theorem State.setDat_pwr : (s.setDat x).pwr = s.pwr := id rfl
@[simp] theorem State.setDat_streams : (s.setDat x).streams = s.streams := id rfl
@[simp] theorem State.setDat_store : (s.setDat x).store = s.store := id rfl
@[simp] theorem State.setDat_stitch : (s.setDat x).stitch = s.stitch := id rfl
@[simp] theorem State.setDat_fabric : (s.setDat x).fabric = s.fabric := id rfl
@[simp] theorem State.setDat_swt : (s.setDat x).swt = s.swt := id rfl
@[simp] theorem State.setDat_air : (s.setDat x).air = s.air := id rfl
@[simp] theorem State.setDat_ldr : (s.setDat x).ldr = s.ldr := id rfl
@[simp] theorem State.setDat_links : (s.setDat x).links = s.links := id rfl
@[simp] theorem State.setDat_mer : (s.setDat x).mer = s.mer := id rfl
@[simp] theorem State.setDat_pins : (s.setDat x).pins = s.pins := id rfl
@[simp] theorem State.setDat_grt : (s.setDat x).grt = s.grt := id rfl
@[simp] theorem State.setDat_mem : (s.setDat x).mem = s.mem := id rfl
@[simp] theorem State.setDat_thm : (s.setDat x).thm = s.thm := id rfl
end upd_setDat

section upd_setMer
variable (s : State) (x : Mer)
@[simp] theorem State.setMer_pending : (s.setMer x).pending = s.pending := id rfl
@[simp] theorem State.setMer_stamp : (s.setMer x).stamp = s.stamp := id rfl
@[simp] theorem State.setMer_regs : (s.setMer x).regs = s.regs := id rfl
@[simp] theorem State.setMer_latch : (s.setMer x).latch = s.latch := id rfl
@[simp] theorem State.setMer_raised : (s.setMer x).raised = s.raised := id rfl
@[simp] theorem State.setMer_free : (s.setMer x).free = s.free := id rfl
@[simp] theorem State.setMer_sys : (s.setMer x).sys = s.sys := id rfl
@[simp] theorem State.setMer_mbx : (s.setMer x).mbx = s.mbx := id rfl
@[simp] theorem State.setMer_svy : (s.setMer x).svy = s.svy := id rfl
@[simp] theorem State.setMer_host : (s.setMer x).host = s.host := id rfl
@[simp] theorem State.setMer_flt : (s.setMer x).flt = s.flt := id rfl
@[simp] theorem State.setMer_gaz : (s.setMer x).gaz = s.gaz := id rfl
@[simp] theorem State.setMer_pwr : (s.setMer x).pwr = s.pwr := id rfl
@[simp] theorem State.setMer_streams : (s.setMer x).streams = s.streams := id rfl
@[simp] theorem State.setMer_store : (s.setMer x).store = s.store := id rfl
@[simp] theorem State.setMer_stitch : (s.setMer x).stitch = s.stitch := id rfl
@[simp] theorem State.setMer_fabric : (s.setMer x).fabric = s.fabric := id rfl
@[simp] theorem State.setMer_swt : (s.setMer x).swt = s.swt := id rfl
@[simp] theorem State.setMer_air : (s.setMer x).air = s.air := id rfl
@[simp] theorem State.setMer_ldr : (s.setMer x).ldr = s.ldr := id rfl
@[simp] theorem State.setMer_links : (s.setMer x).links = s.links := id rfl
@[simp] theorem State.setMer_pins : (s.setMer x).pins = s.pins := id rfl
@[simp] theorem State.setMer_grt : (s.setMer x).grt = s.grt := id rfl
@[simp] theorem State.setMer_mem : (s.setMer x).mem = s.mem := id rfl
@[simp] theorem State.setMer_thm : (s.setMer x).thm = s.thm := id rfl
@[simp] theorem State.setMer_dat : (s.setMer x).dat = s.dat := id rfl
end upd_setMer

section upd_setAir
variable (s : State) (x : Air)
@[simp] theorem State.setAir_pending : (s.setAir x).pending = s.pending := id rfl
@[simp] theorem State.setAir_stamp : (s.setAir x).stamp = s.stamp := id rfl
@[simp] theorem State.setAir_regs : (s.setAir x).regs = s.regs := id rfl
@[simp] theorem State.setAir_latch : (s.setAir x).latch = s.latch := id rfl
@[simp] theorem State.setAir_raised : (s.setAir x).raised = s.raised := id rfl
@[simp] theorem State.setAir_free : (s.setAir x).free = s.free := id rfl
@[simp] theorem State.setAir_sys : (s.setAir x).sys = s.sys := id rfl
@[simp] theorem State.setAir_mbx : (s.setAir x).mbx = s.mbx := id rfl
@[simp] theorem State.setAir_svy : (s.setAir x).svy = s.svy := id rfl
@[simp] theorem State.setAir_host : (s.setAir x).host = s.host := id rfl
@[simp] theorem State.setAir_flt : (s.setAir x).flt = s.flt := id rfl
@[simp] theorem State.setAir_gaz : (s.setAir x).gaz = s.gaz := id rfl
@[simp] theorem State.setAir_pwr : (s.setAir x).pwr = s.pwr := id rfl
@[simp] theorem State.setAir_streams : (s.setAir x).streams = s.streams := id rfl
@[simp] theorem State.setAir_store : (s.setAir x).store = s.store := id rfl
@[simp] theorem State.setAir_stitch : (s.setAir x).stitch = s.stitch := id rfl
@[simp] theorem State.setAir_fabric : (s.setAir x).fabric = s.fabric := id rfl
@[simp] theorem State.setAir_swt : (s.setAir x).swt = s.swt := id rfl
@[simp] theorem State.setAir_ldr : (s.setAir x).ldr = s.ldr := id rfl
@[simp] theorem State.setAir_links : (s.setAir x).links = s.links := id rfl
@[simp] theorem State.setAir_mer : (s.setAir x).mer = s.mer := id rfl
@[simp] theorem State.setAir_pins : (s.setAir x).pins = s.pins := id rfl
@[simp] theorem State.setAir_grt : (s.setAir x).grt = s.grt := id rfl
@[simp] theorem State.setAir_mem : (s.setAir x).mem = s.mem := id rfl
@[simp] theorem State.setAir_thm : (s.setAir x).thm = s.thm := id rfl
@[simp] theorem State.setAir_dat : (s.setAir x).dat = s.dat := id rfl
end upd_setAir

section upd_setFhe
variable (s : State) (x : Fhe)
@[simp] theorem State.setFhe_pending : (s.setFhe x).pending = s.pending := id rfl
@[simp] theorem State.setFhe_stamp : (s.setFhe x).stamp = s.stamp := id rfl
@[simp] theorem State.setFhe_regs : (s.setFhe x).regs = s.regs := id rfl
@[simp] theorem State.setFhe_latch : (s.setFhe x).latch = s.latch := id rfl
@[simp] theorem State.setFhe_raised : (s.setFhe x).raised = s.raised := id rfl
@[simp] theorem State.setFhe_free : (s.setFhe x).free = s.free := id rfl
@[simp] theorem State.setFhe_sys : (s.setFhe x).sys = s.sys := id rfl
@[simp] theorem State.setFhe_mbx : (s.setFhe x).mbx = s.mbx := id rfl
@[simp] theorem State.setFhe_svy : (s.setFhe x).svy = s.svy := id rfl
@[simp] theorem State.setFhe_host : (s.setFhe x).host = s.host := id rfl
@[simp] theorem State.setFhe_flt : (s.setFhe x).flt = s.flt := id rfl
@[simp] theorem State.setFhe_gaz : (s.setFhe x).gaz = s.gaz := id rfl
@[simp] theorem State.setFhe_pwr : (s.setFhe x).pwr = s.pwr := id rfl
@[simp] theorem State.setFhe_streams : (s.setFhe x).streams = s.streams := id rfl
@[simp] theorem State.setFhe_store : (s.setFhe x).store = s.store := id rfl
@[simp] theorem State.setFhe_stitch : (s.setFhe x).stitch = s.stitch := id rfl
@[simp] theorem State.setFhe_fabric : (s.setFhe x).fabric = s.fabric := id rfl
@[simp] theorem State.setFhe_swt : (s.setFhe x).swt = s.swt := id rfl
@[simp] theorem State.setFhe_air : (s.setFhe x).air = s.air := id rfl
@[simp] theorem State.setFhe_ldr : (s.setFhe x).ldr = s.ldr := id rfl
@[simp] theorem State.setFhe_mer : (s.setFhe x).mer = s.mer := id rfl
@[simp] theorem State.setFhe_pins : (s.setFhe x).pins = s.pins := id rfl
@[simp] theorem State.setFhe_grt : (s.setFhe x).grt = s.grt := id rfl
@[simp] theorem State.setFhe_mem : (s.setFhe x).mem = s.mem := id rfl
@[simp] theorem State.setFhe_thm : (s.setFhe x).thm = s.thm := id rfl
@[simp] theorem State.setFhe_dat : (s.setFhe x).dat = s.dat := id rfl
end upd_setFhe

section upd_setLane
variable (s : State) (n : Nat) (x : Lane)
@[simp] theorem State.setLane_pending : (s.setLane n x).pending = s.pending := id rfl
@[simp] theorem State.setLane_stamp : (s.setLane n x).stamp = s.stamp := id rfl
@[simp] theorem State.setLane_regs : (s.setLane n x).regs = s.regs := id rfl
@[simp] theorem State.setLane_latch : (s.setLane n x).latch = s.latch := id rfl
@[simp] theorem State.setLane_raised : (s.setLane n x).raised = s.raised := id rfl
@[simp] theorem State.setLane_free : (s.setLane n x).free = s.free := id rfl
@[simp] theorem State.setLane_sys : (s.setLane n x).sys = s.sys := id rfl
@[simp] theorem State.setLane_mbx : (s.setLane n x).mbx = s.mbx := id rfl
@[simp] theorem State.setLane_svy : (s.setLane n x).svy = s.svy := id rfl
@[simp] theorem State.setLane_host : (s.setLane n x).host = s.host := id rfl
@[simp] theorem State.setLane_flt : (s.setLane n x).flt = s.flt := id rfl
@[simp] theorem State.setLane_gaz : (s.setLane n x).gaz = s.gaz := id rfl
@[simp] theorem State.setLane_pwr : (s.setLane n x).pwr = s.pwr := id rfl
@[simp] theorem State.setLane_streams : (s.setLane n x).streams = s.streams := id rfl
@[simp] theorem State.setLane_store : (s.setLane n x).store = s.store := id rfl
@[simp] theorem State.setLane_stitch : (s.setLane n x).stitch = s.stitch := id rfl
@[simp] theorem State.setLane_fabric : (s.setLane n x).fabric = s.fabric := id rfl
@[simp] theorem State.setLane_swt : (s.setLane n x).swt = s.swt := id rfl
@[simp] theorem State.setLane_air : (s.setLane n x).air = s.air := id rfl
@[simp] theorem State.setLane_ldr : (s.setLane n x).ldr = s.ldr := id rfl
@[simp] theorem State.setLane_mer : (s.setLane n x).mer = s.mer := id rfl
@[simp] theorem State.setLane_pins : (s.setLane n x).pins = s.pins := id rfl
@[simp] theorem State.setLane_grt : (s.setLane n x).grt = s.grt := id rfl
@[simp] theorem State.setLane_mem : (s.setLane n x).mem = s.mem := id rfl
@[simp] theorem State.setLane_thm : (s.setLane n x).thm = s.thm := id rfl
@[simp] theorem State.setLane_dat : (s.setLane n x).dat = s.dat := id rfl
end upd_setLane

section upd_setPlaneOrders
variable (s : State) (n : Nat) (l : List PlaneOrder)
@[simp] theorem State.setPlaneOrders_pending : (s.setPlaneOrders n l).pending = s.pending := id rfl
@[simp] theorem State.setPlaneOrders_stamp : (s.setPlaneOrders n l).stamp = s.stamp := id rfl
@[simp] theorem State.setPlaneOrders_regs : (s.setPlaneOrders n l).regs = s.regs := id rfl
@[simp] theorem State.setPlaneOrders_latch : (s.setPlaneOrders n l).latch = s.latch := id rfl
@[simp] theorem State.setPlaneOrders_raised : (s.setPlaneOrders n l).raised = s.raised := id rfl
@[simp] theorem State.setPlaneOrders_free : (s.setPlaneOrders n l).free = s.free := id rfl
@[simp] theorem State.setPlaneOrders_sys : (s.setPlaneOrders n l).sys = s.sys := id rfl
@[simp] theorem State.setPlaneOrders_mbx : (s.setPlaneOrders n l).mbx = s.mbx := id rfl
@[simp] theorem State.setPlaneOrders_svy : (s.setPlaneOrders n l).svy = s.svy := id rfl
@[simp] theorem State.setPlaneOrders_host : (s.setPlaneOrders n l).host = s.host := id rfl
@[simp] theorem State.setPlaneOrders_flt : (s.setPlaneOrders n l).flt = s.flt := id rfl
@[simp] theorem State.setPlaneOrders_gaz : (s.setPlaneOrders n l).gaz = s.gaz := id rfl
@[simp] theorem State.setPlaneOrders_pwr : (s.setPlaneOrders n l).pwr = s.pwr := id rfl
@[simp] theorem State.setPlaneOrders_streams : (s.setPlaneOrders n l).streams = s.streams := id rfl
@[simp] theorem State.setPlaneOrders_store : (s.setPlaneOrders n l).store = s.store := id rfl
@[simp] theorem State.setPlaneOrders_stitch : (s.setPlaneOrders n l).stitch = s.stitch := id rfl
@[simp] theorem State.setPlaneOrders_swt : (s.setPlaneOrders n l).swt = s.swt := id rfl
@[simp] theorem State.setPlaneOrders_air : (s.setPlaneOrders n l).air = s.air := id rfl
@[simp] theorem State.setPlaneOrders_ldr : (s.setPlaneOrders n l).ldr = s.ldr := id rfl
@[simp] theorem State.setPlaneOrders_links : (s.setPlaneOrders n l).links = s.links := id rfl
@[simp] theorem State.setPlaneOrders_mer : (s.setPlaneOrders n l).mer = s.mer := id rfl
@[simp] theorem State.setPlaneOrders_pins : (s.setPlaneOrders n l).pins = s.pins := id rfl
@[simp] theorem State.setPlaneOrders_grt : (s.setPlaneOrders n l).grt = s.grt := id rfl
@[simp] theorem State.setPlaneOrders_mem : (s.setPlaneOrders n l).mem = s.mem := id rfl
@[simp] theorem State.setPlaneOrders_thm : (s.setPlaneOrders n l).thm = s.thm := id rfl
@[simp] theorem State.setPlaneOrders_dat : (s.setPlaneOrders n l).dat = s.dat := id rfl
end upd_setPlaneOrders

section upd_setHigh
variable (s : State) (n : Nat) (l : List Net)
@[simp] theorem State.setHigh_pending : (s.setHigh n l).pending = s.pending := id rfl
@[simp] theorem State.setHigh_stamp : (s.setHigh n l).stamp = s.stamp := id rfl
@[simp] theorem State.setHigh_regs : (s.setHigh n l).regs = s.regs := id rfl
@[simp] theorem State.setHigh_latch : (s.setHigh n l).latch = s.latch := id rfl
@[simp] theorem State.setHigh_raised : (s.setHigh n l).raised = s.raised := id rfl
@[simp] theorem State.setHigh_free : (s.setHigh n l).free = s.free := id rfl
@[simp] theorem State.setHigh_sys : (s.setHigh n l).sys = s.sys := id rfl
@[simp] theorem State.setHigh_mbx : (s.setHigh n l).mbx = s.mbx := id rfl
@[simp] theorem State.setHigh_svy : (s.setHigh n l).svy = s.svy := id rfl
@[simp] theorem State.setHigh_host : (s.setHigh n l).host = s.host := id rfl
@[simp] theorem State.setHigh_flt : (s.setHigh n l).flt = s.flt := id rfl
@[simp] theorem State.setHigh_gaz : (s.setHigh n l).gaz = s.gaz := id rfl
@[simp] theorem State.setHigh_pwr : (s.setHigh n l).pwr = s.pwr := id rfl
@[simp] theorem State.setHigh_streams : (s.setHigh n l).streams = s.streams := id rfl
@[simp] theorem State.setHigh_store : (s.setHigh n l).store = s.store := id rfl
@[simp] theorem State.setHigh_stitch : (s.setHigh n l).stitch = s.stitch := id rfl
@[simp] theorem State.setHigh_swt : (s.setHigh n l).swt = s.swt := id rfl
@[simp] theorem State.setHigh_air : (s.setHigh n l).air = s.air := id rfl
@[simp] theorem State.setHigh_ldr : (s.setHigh n l).ldr = s.ldr := id rfl
@[simp] theorem State.setHigh_links : (s.setHigh n l).links = s.links := id rfl
@[simp] theorem State.setHigh_mer : (s.setHigh n l).mer = s.mer := id rfl
@[simp] theorem State.setHigh_pins : (s.setHigh n l).pins = s.pins := id rfl
@[simp] theorem State.setHigh_grt : (s.setHigh n l).grt = s.grt := id rfl
@[simp] theorem State.setHigh_mem : (s.setHigh n l).mem = s.mem := id rfl
@[simp] theorem State.setHigh_thm : (s.setHigh n l).thm = s.thm := id rfl
@[simp] theorem State.setHigh_dat : (s.setHigh n l).dat = s.dat := id rfl
end upd_setHigh

section upd_setCap
variable (s : State) (x : Capture)
@[simp] theorem State.setCap_pending : (s.setCap x).pending = s.pending := id rfl
@[simp] theorem State.setCap_stamp : (s.setCap x).stamp = s.stamp := id rfl
@[simp] theorem State.setCap_regs : (s.setCap x).regs = s.regs := id rfl
@[simp] theorem State.setCap_latch : (s.setCap x).latch = s.latch := id rfl
@[simp] theorem State.setCap_raised : (s.setCap x).raised = s.raised := id rfl
@[simp] theorem State.setCap_free : (s.setCap x).free = s.free := id rfl
@[simp] theorem State.setCap_sys : (s.setCap x).sys = s.sys := id rfl
@[simp] theorem State.setCap_mbx : (s.setCap x).mbx = s.mbx := id rfl
@[simp] theorem State.setCap_svy : (s.setCap x).svy = s.svy := id rfl
@[simp] theorem State.setCap_host : (s.setCap x).host = s.host := id rfl
@[simp] theorem State.setCap_flt : (s.setCap x).flt = s.flt := id rfl
@[simp] theorem State.setCap_gaz : (s.setCap x).gaz = s.gaz := id rfl
@[simp] theorem State.setCap_pwr : (s.setCap x).pwr = s.pwr := id rfl
@[simp] theorem State.setCap_streams : (s.setCap x).streams = s.streams := id rfl
@[simp] theorem State.setCap_store : (s.setCap x).store = s.store := id rfl
@[simp] theorem State.setCap_stitch : (s.setCap x).stitch = s.stitch := id rfl
@[simp] theorem State.setCap_swt : (s.setCap x).swt = s.swt := id rfl
@[simp] theorem State.setCap_air : (s.setCap x).air = s.air := id rfl
@[simp] theorem State.setCap_ldr : (s.setCap x).ldr = s.ldr := id rfl
@[simp] theorem State.setCap_links : (s.setCap x).links = s.links := id rfl
@[simp] theorem State.setCap_mer : (s.setCap x).mer = s.mer := id rfl
@[simp] theorem State.setCap_pins : (s.setCap x).pins = s.pins := id rfl
@[simp] theorem State.setCap_grt : (s.setCap x).grt = s.grt := id rfl
@[simp] theorem State.setCap_mem : (s.setCap x).mem = s.mem := id rfl
@[simp] theorem State.setCap_thm : (s.setCap x).thm = s.thm := id rfl
@[simp] theorem State.setCap_dat : (s.setCap x).dat = s.dat := id rfl
end upd_setCap

section upd_setCtx
variable (s : State) (n : Nat) (x : Option LdrCtx)
@[simp] theorem State.setCtx_pending : (s.setCtx n x).pending = s.pending := id rfl
@[simp] theorem State.setCtx_stamp : (s.setCtx n x).stamp = s.stamp := id rfl
@[simp] theorem State.setCtx_regs : (s.setCtx n x).regs = s.regs := id rfl
@[simp] theorem State.setCtx_latch : (s.setCtx n x).latch = s.latch := id rfl
@[simp] theorem State.setCtx_raised : (s.setCtx n x).raised = s.raised := id rfl
@[simp] theorem State.setCtx_free : (s.setCtx n x).free = s.free := id rfl
@[simp] theorem State.setCtx_sys : (s.setCtx n x).sys = s.sys := id rfl
@[simp] theorem State.setCtx_mbx : (s.setCtx n x).mbx = s.mbx := id rfl
@[simp] theorem State.setCtx_svy : (s.setCtx n x).svy = s.svy := id rfl
@[simp] theorem State.setCtx_host : (s.setCtx n x).host = s.host := id rfl
@[simp] theorem State.setCtx_flt : (s.setCtx n x).flt = s.flt := id rfl
@[simp] theorem State.setCtx_gaz : (s.setCtx n x).gaz = s.gaz := id rfl
@[simp] theorem State.setCtx_pwr : (s.setCtx n x).pwr = s.pwr := id rfl
@[simp] theorem State.setCtx_streams : (s.setCtx n x).streams = s.streams := id rfl
@[simp] theorem State.setCtx_store : (s.setCtx n x).store = s.store := id rfl
@[simp] theorem State.setCtx_stitch : (s.setCtx n x).stitch = s.stitch := id rfl
@[simp] theorem State.setCtx_fabric : (s.setCtx n x).fabric = s.fabric := id rfl
@[simp] theorem State.setCtx_swt : (s.setCtx n x).swt = s.swt := id rfl
@[simp] theorem State.setCtx_air : (s.setCtx n x).air = s.air := id rfl
@[simp] theorem State.setCtx_links : (s.setCtx n x).links = s.links := id rfl
@[simp] theorem State.setCtx_mer : (s.setCtx n x).mer = s.mer := id rfl
@[simp] theorem State.setCtx_pins : (s.setCtx n x).pins = s.pins := id rfl
@[simp] theorem State.setCtx_grt : (s.setCtx n x).grt = s.grt := id rfl
@[simp] theorem State.setCtx_mem : (s.setCtx n x).mem = s.mem := id rfl
@[simp] theorem State.setCtx_thm : (s.setCtx n x).thm = s.thm := id rfl
@[simp] theorem State.setCtx_dat : (s.setCtx n x).dat = s.dat := id rfl
end upd_setCtx

section upd_setSlot
variable (s : State) (i : Nat) (x : Option Slot)
@[simp] theorem State.setSlot_pending : (s.setSlot i x).pending = s.pending := id rfl
@[simp] theorem State.setSlot_stamp : (s.setSlot i x).stamp = s.stamp := id rfl
@[simp] theorem State.setSlot_regs : (s.setSlot i x).regs = s.regs := id rfl
@[simp] theorem State.setSlot_latch : (s.setSlot i x).latch = s.latch := id rfl
@[simp] theorem State.setSlot_raised : (s.setSlot i x).raised = s.raised := id rfl
@[simp] theorem State.setSlot_free : (s.setSlot i x).free = s.free := id rfl
@[simp] theorem State.setSlot_sys : (s.setSlot i x).sys = s.sys := id rfl
@[simp] theorem State.setSlot_mbx : (s.setSlot i x).mbx = s.mbx := id rfl
@[simp] theorem State.setSlot_svy : (s.setSlot i x).svy = s.svy := id rfl
@[simp] theorem State.setSlot_host : (s.setSlot i x).host = s.host := id rfl
@[simp] theorem State.setSlot_gaz : (s.setSlot i x).gaz = s.gaz := id rfl
@[simp] theorem State.setSlot_pwr : (s.setSlot i x).pwr = s.pwr := id rfl
@[simp] theorem State.setSlot_streams : (s.setSlot i x).streams = s.streams := id rfl
@[simp] theorem State.setSlot_store : (s.setSlot i x).store = s.store := id rfl
@[simp] theorem State.setSlot_stitch : (s.setSlot i x).stitch = s.stitch := id rfl
@[simp] theorem State.setSlot_fabric : (s.setSlot i x).fabric = s.fabric := id rfl
@[simp] theorem State.setSlot_swt : (s.setSlot i x).swt = s.swt := id rfl
@[simp] theorem State.setSlot_air : (s.setSlot i x).air = s.air := id rfl
@[simp] theorem State.setSlot_ldr : (s.setSlot i x).ldr = s.ldr := id rfl
@[simp] theorem State.setSlot_links : (s.setSlot i x).links = s.links := id rfl
@[simp] theorem State.setSlot_mer : (s.setSlot i x).mer = s.mer := id rfl
@[simp] theorem State.setSlot_pins : (s.setSlot i x).pins = s.pins := id rfl
@[simp] theorem State.setSlot_grt : (s.setSlot i x).grt = s.grt := id rfl
@[simp] theorem State.setSlot_mem : (s.setSlot i x).mem = s.mem := id rfl
@[simp] theorem State.setSlot_thm : (s.setSlot i x).thm = s.thm := id rfl
@[simp] theorem State.setSlot_dat : (s.setSlot i x).dat = s.dat := id rfl
end upd_setSlot

section upd_setDmaQ
variable (s : State) (q : Nat) (x : DmaQ)
@[simp] theorem State.setDmaQ_pending : (s.setDmaQ q x).pending = s.pending := id rfl
@[simp] theorem State.setDmaQ_stamp : (s.setDmaQ q x).stamp = s.stamp := id rfl
@[simp] theorem State.setDmaQ_regs : (s.setDmaQ q x).regs = s.regs := id rfl
@[simp] theorem State.setDmaQ_latch : (s.setDmaQ q x).latch = s.latch := id rfl
@[simp] theorem State.setDmaQ_raised : (s.setDmaQ q x).raised = s.raised := id rfl
@[simp] theorem State.setDmaQ_free : (s.setDmaQ q x).free = s.free := id rfl
@[simp] theorem State.setDmaQ_sys : (s.setDmaQ q x).sys = s.sys := id rfl
@[simp] theorem State.setDmaQ_mbx : (s.setDmaQ q x).mbx = s.mbx := id rfl
@[simp] theorem State.setDmaQ_svy : (s.setDmaQ q x).svy = s.svy := id rfl
@[simp] theorem State.setDmaQ_flt : (s.setDmaQ q x).flt = s.flt := id rfl
@[simp] theorem State.setDmaQ_gaz : (s.setDmaQ q x).gaz = s.gaz := id rfl
@[simp] theorem State.setDmaQ_pwr : (s.setDmaQ q x).pwr = s.pwr := id rfl
@[simp] theorem State.setDmaQ_streams : (s.setDmaQ q x).streams = s.streams := id rfl
@[simp] theorem State.setDmaQ_store : (s.setDmaQ q x).store = s.store := id rfl
@[simp] theorem State.setDmaQ_stitch : (s.setDmaQ q x).stitch = s.stitch := id rfl
@[simp] theorem State.setDmaQ_fabric : (s.setDmaQ q x).fabric = s.fabric := id rfl
@[simp] theorem State.setDmaQ_swt : (s.setDmaQ q x).swt = s.swt := id rfl
@[simp] theorem State.setDmaQ_air : (s.setDmaQ q x).air = s.air := id rfl
@[simp] theorem State.setDmaQ_ldr : (s.setDmaQ q x).ldr = s.ldr := id rfl
@[simp] theorem State.setDmaQ_links : (s.setDmaQ q x).links = s.links := id rfl
@[simp] theorem State.setDmaQ_mer : (s.setDmaQ q x).mer = s.mer := id rfl
@[simp] theorem State.setDmaQ_pins : (s.setDmaQ q x).pins = s.pins := id rfl
@[simp] theorem State.setDmaQ_grt : (s.setDmaQ q x).grt = s.grt := id rfl
@[simp] theorem State.setDmaQ_mem : (s.setDmaQ q x).mem = s.mem := id rfl
@[simp] theorem State.setDmaQ_thm : (s.setDmaQ q x).thm = s.thm := id rfl
@[simp] theorem State.setDmaQ_dat : (s.setDmaQ q x).dat = s.dat := id rfl
end upd_setDmaQ

section upd_setSens
variable (s : State) (i : Nat) (x : Sens)
@[simp] theorem State.setSens_pending : (s.setSens i x).pending = s.pending := id rfl
@[simp] theorem State.setSens_stamp : (s.setSens i x).stamp = s.stamp := id rfl
@[simp] theorem State.setSens_regs : (s.setSens i x).regs = s.regs := id rfl
@[simp] theorem State.setSens_latch : (s.setSens i x).latch = s.latch := id rfl
@[simp] theorem State.setSens_raised : (s.setSens i x).raised = s.raised := id rfl
@[simp] theorem State.setSens_free : (s.setSens i x).free = s.free := id rfl
@[simp] theorem State.setSens_sys : (s.setSens i x).sys = s.sys := id rfl
@[simp] theorem State.setSens_mbx : (s.setSens i x).mbx = s.mbx := id rfl
@[simp] theorem State.setSens_svy : (s.setSens i x).svy = s.svy := id rfl
@[simp] theorem State.setSens_host : (s.setSens i x).host = s.host := id rfl
@[simp] theorem State.setSens_flt : (s.setSens i x).flt = s.flt := id rfl
@[simp] theorem State.setSens_gaz : (s.setSens i x).gaz = s.gaz := id rfl
@[simp] theorem State.setSens_pwr : (s.setSens i x).pwr = s.pwr := id rfl
@[simp] theorem State.setSens_streams : (s.setSens i x).streams = s.streams := id rfl
@[simp] theorem State.setSens_store : (s.setSens i x).store = s.store := id rfl
@[simp] theorem State.setSens_stitch : (s.setSens i x).stitch = s.stitch := id rfl
@[simp] theorem State.setSens_fabric : (s.setSens i x).fabric = s.fabric := id rfl
@[simp] theorem State.setSens_swt : (s.setSens i x).swt = s.swt := id rfl
@[simp] theorem State.setSens_air : (s.setSens i x).air = s.air := id rfl
@[simp] theorem State.setSens_ldr : (s.setSens i x).ldr = s.ldr := id rfl
@[simp] theorem State.setSens_links : (s.setSens i x).links = s.links := id rfl
@[simp] theorem State.setSens_mer : (s.setSens i x).mer = s.mer := id rfl
@[simp] theorem State.setSens_pins : (s.setSens i x).pins = s.pins := id rfl
@[simp] theorem State.setSens_grt : (s.setSens i x).grt = s.grt := id rfl
@[simp] theorem State.setSens_mem : (s.setSens i x).mem = s.mem := id rfl
@[simp] theorem State.setSens_dat : (s.setSens i x).dat = s.dat := id rfl
end upd_setSens

section upd_setCached
variable (s : State) (l n : Nat) (x : Option CNode)
@[simp] theorem State.setCached_pending : (s.setCached l n x).pending = s.pending := id rfl
@[simp] theorem State.setCached_stamp : (s.setCached l n x).stamp = s.stamp := id rfl
@[simp] theorem State.setCached_regs : (s.setCached l n x).regs = s.regs := id rfl
@[simp] theorem State.setCached_latch : (s.setCached l n x).latch = s.latch := id rfl
@[simp] theorem State.setCached_raised : (s.setCached l n x).raised = s.raised := id rfl
@[simp] theorem State.setCached_free : (s.setCached l n x).free = s.free := id rfl
@[simp] theorem State.setCached_sys : (s.setCached l n x).sys = s.sys := id rfl
@[simp] theorem State.setCached_mbx : (s.setCached l n x).mbx = s.mbx := id rfl
@[simp] theorem State.setCached_svy : (s.setCached l n x).svy = s.svy := id rfl
@[simp] theorem State.setCached_host : (s.setCached l n x).host = s.host := id rfl
@[simp] theorem State.setCached_flt : (s.setCached l n x).flt = s.flt := id rfl
@[simp] theorem State.setCached_gaz : (s.setCached l n x).gaz = s.gaz := id rfl
@[simp] theorem State.setCached_pwr : (s.setCached l n x).pwr = s.pwr := id rfl
@[simp] theorem State.setCached_streams : (s.setCached l n x).streams = s.streams := id rfl
@[simp] theorem State.setCached_store : (s.setCached l n x).store = s.store := id rfl
@[simp] theorem State.setCached_stitch : (s.setCached l n x).stitch = s.stitch := id rfl
@[simp] theorem State.setCached_fabric : (s.setCached l n x).fabric = s.fabric := id rfl
@[simp] theorem State.setCached_swt : (s.setCached l n x).swt = s.swt := id rfl
@[simp] theorem State.setCached_air : (s.setCached l n x).air = s.air := id rfl
@[simp] theorem State.setCached_ldr : (s.setCached l n x).ldr = s.ldr := id rfl
@[simp] theorem State.setCached_links : (s.setCached l n x).links = s.links := id rfl
@[simp] theorem State.setCached_mer : (s.setCached l n x).mer = s.mer := id rfl
@[simp] theorem State.setCached_pins : (s.setCached l n x).pins = s.pins := id rfl
@[simp] theorem State.setCached_grt : (s.setCached l n x).grt = s.grt := id rfl
@[simp] theorem State.setCached_thm : (s.setCached l n x).thm = s.thm := id rfl
@[simp] theorem State.setCached_dat : (s.setCached l n x).dat = s.dat := id rfl
end upd_setCached

end Sys2Proof.Machine
end

