-- ==== Sys2Proof/Laws/Registers.lean ====
section
/-! SUPPORT. Registers and fields: what a read gives after a write, field by field, and the canonical form of the register file. -/

namespace Sys2Proof

/-! ### Bits of a number -/

theorem putBits_lt {n hi lo v : Nat} (hn : n < 2 ^ 32) (h : lo ≤ hi) (h32 : hi < 32) : putBits n hi lo v < 2 ^ 32 := by
  have h1 : v % 2 ^ (hi + 1 - lo) < 2 ^ (hi + 1 - lo) := Nat.mod_lt _ (by positivity)
  have h2 : n % 2 ^ lo < 2 ^ lo := Nat.mod_lt _ (by positivity)
  have e : 2 ^ (hi + 1) = 2 ^ (hi + 1 - lo) * 2 ^ lo := by rw [← pow_add]; congr 1; omega
  have e2 : (2 : Nat) ^ 32 = 2 ^ (32 - (hi + 1)) * 2 ^ (hi + 1) := by rw [← pow_add]; congr 1; omega
  have h3 : n / 2 ^ (hi + 1) < 2 ^ (32 - (hi + 1)) := by
    rw [Nat.div_lt_iff_lt_mul (by positivity), ← e2]; exact hn
  have h4 : v % 2 ^ (hi + 1 - lo) * 2 ^ lo + n % 2 ^ lo < 2 ^ (hi + 1) := by
    rw [e]
    calc v % 2 ^ (hi + 1 - lo) * 2 ^ lo + n % 2 ^ lo < v % 2 ^ (hi + 1 - lo) * 2 ^ lo + 2 ^ lo := by omega
      _ = (v % 2 ^ (hi + 1 - lo) + 1) * 2 ^ lo := by ring
      _ ≤ 2 ^ (hi + 1 - lo) * 2 ^ lo := Nat.mul_le_mul_right _ h1
  unfold putBits
  calc n / 2 ^ (hi + 1) * 2 ^ (hi + 1) + v % 2 ^ (hi + 1 - lo) * 2 ^ lo + n % 2 ^ lo
      < n / 2 ^ (hi + 1) * 2 ^ (hi + 1) + 2 ^ (hi + 1) := by omega
    _ = (n / 2 ^ (hi + 1) + 1) * 2 ^ (hi + 1) := by ring
    _ ≤ 2 ^ (32 - (hi + 1)) * 2 ^ (hi + 1) := Nat.mul_le_mul_right _ h3
    _ = 2 ^ 32 := e2.symm

/-- Bit `i` of a number with a field replaced. -/
theorem testBit_putBits (n hi lo v i : Nat) (h : lo ≤ hi) :
    (putBits n hi lo v).testBit i = if lo ≤ i ∧ i ≤ hi then v.testBit (i - lo) else n.testBit i := by
  have e : putBits n hi lo v = 2 ^ (hi + 1) * (n / 2 ^ (hi + 1)) + (2 ^ lo * (v % 2 ^ (hi + 1 - lo)) + n % 2 ^ lo) := by
    unfold putBits; ring
  have h2 : n % 2 ^ lo < 2 ^ lo := Nat.mod_lt _ (by positivity)
  have h1 : v % 2 ^ (hi + 1 - lo) < 2 ^ (hi + 1 - lo) := Nat.mod_lt _ (by positivity)
  have h3 : 2 ^ lo * (v % 2 ^ (hi + 1 - lo)) + n % 2 ^ lo < 2 ^ (hi + 1) := by
    have : (2 : Nat) ^ (hi + 1) = 2 ^ lo * 2 ^ (hi + 1 - lo) := by rw [← pow_add]; congr 1; omega
    rw [this]
    calc 2 ^ lo * (v % 2 ^ (hi + 1 - lo)) + n % 2 ^ lo < 2 ^ lo * (v % 2 ^ (hi + 1 - lo)) + 2 ^ lo := by omega
      _ = 2 ^ lo * (v % 2 ^ (hi + 1 - lo) + 1) := by ring
      _ ≤ 2 ^ lo * 2 ^ (hi + 1 - lo) := Nat.mul_le_mul_left _ h1
  rw [e, Nat.testBit_two_pow_mul_add _ h3, Nat.testBit_two_pow_mul_add _ h2]
  simp only [Nat.testBit_mod_two_pow, Nat.testBit_div_two_pow]
  by_cases hi1 : i < hi + 1
  · by_cases hlo : i < lo
    · simp [hi1, hlo, show ¬ lo ≤ i by omega]
    · simp [hi1, hlo, show lo ≤ i by omega, show i ≤ hi by omega, show i - lo < hi + 1 - lo by omega]
  · simp [hi1, show ¬ i ≤ hi by omega, show i - (hi + 1) + (hi + 1) = i by omega]

theorem testBit_bitsOf (n hi lo i : Nat) : (bitsOf n hi lo).testBit i = (decide (i < hi + 1 - lo) && n.testBit (i + lo)) := by
  simp [bitsOf, Nat.testBit_mod_two_pow, Nat.testBit_div_two_pow]

/-- A field reads what was put into it, cut to its width. -/
theorem Fld.get_put_same (f : Fld) (w : Word) (v : Nat) (h : f.lo ≤ f.hi) (h32 : f.hi < 32) :
    f.get (f.put w v) = v % 2 ^ (f.hi + 1 - f.lo) := by
  unfold Fld.get Fld.put
  rw [BitVec.toNat_ofNat, Nat.mod_eq_of_lt (putBits_lt w.isLt h h32)]
  apply Nat.eq_of_testBit_eq
  intro i
  rw [testBit_bitsOf, testBit_putBits _ _ _ _ _ h, Nat.testBit_mod_two_pow]
  by_cases hi : i < f.hi + 1 - f.lo
  · simp [hi, show i + f.lo ≤ f.hi by omega]
  · simp [hi]

/-- A field apart from the one written reads as before. -/
theorem Fld.get_put_other (f g : Fld) (w : Word) (v : Nat) (h : f.lo ≤ f.hi) (h32 : f.hi < 32) (hd : g.hi < f.lo ∨ f.hi < g.lo) :
    g.get (f.put w v) = g.get w := by
  unfold Fld.get Fld.put
  rw [BitVec.toNat_ofNat, Nat.mod_eq_of_lt (putBits_lt w.isLt h h32)]
  apply Nat.eq_of_testBit_eq
  intro i
  rw [testBit_bitsOf, testBit_bitsOf, testBit_putBits _ _ _ _ _ h]
  by_cases hi : i < g.hi + 1 - g.lo
  · simp [hi, show ¬ (f.lo ≤ i + g.lo ∧ i + g.lo ≤ f.hi) by omega]
  · simp [hi]

/-- A bit of a word with a field replaced. -/
theorem Word.bit_put (f : Fld) (w : Word) (v i : Nat) (h : f.lo ≤ f.hi) (h32 : f.hi < 32) :
    Word.bit (f.put w v) i = if f.lo ≤ i ∧ i ≤ f.hi then v.testBit (i - f.lo) else Word.bit w i := by
  have e : ∀ x : Word, Word.bit x i = x.toNat.testBit i := fun x => by simp [Word.bit, BitVec.getLsbD]
  rw [e, e]
  unfold Fld.put
  rw [BitVec.toNat_ofNat, Nat.mod_eq_of_lt (putBits_lt w.isLt h h32), testBit_putBits _ _ _ _ _ h]

theorem testBit_b2n_zero (b : Bool) : (b2n b).testBit 0 = b := by cases b <;> rfl

theorem b2n_mod_two (b : Bool) : decide (b2n b % 2 = 1) = b := by cases b <;> rfl

namespace Machine

/-! ### The register file -/

/-- A register reads the word just written to it. -/
theorem State.rd_wr_same {s : State} (h : s.RegsWf) (k : Nat) (v : Word) : (s.wr k v).rd k = v := sget_sset_same _ k v h

/-- A write leaves every other register as it was. -/
theorem State.rd_wr_other (s : State) {k j : Nat} (v : Word) (h : j ≠ k) : (s.wr k v).rd j = s.rd j := sget_sset_other _ _ v h

theorem State.rd_put_same {s : State} (h : s.RegsWf) (k : Nat) (f : Fld) (v : Nat) : (s.put k f v).rd k = f.put (s.rd k) v :=
  State.rd_wr_same h k _

theorem State.rd_put_other (s : State) {k j : Nat} (f : Fld) (v : Nat) (h : j ≠ k) : (s.put k f v).rd j = s.rd j :=
  State.rd_wr_other s _ h

/-- A field reads what was put into it. -/
theorem State.get_put_same {s : State} (h : s.RegsWf) (k : Nat) (f : Fld) (v : Nat) (h1 : f.lo ≤ f.hi) (h2 : f.hi < 32) :
    (s.put k f v).get k f = v % 2 ^ (f.hi + 1 - f.lo) := by
  unfold State.get; rw [State.rd_put_same h]; exact Fld.get_put_same f _ v h1 h2

/-- Another field of the same register reads as before. -/
theorem State.get_put_field {s : State} (h : s.RegsWf) (k : Nat) (f g : Fld) (v : Nat) (h1 : f.lo ≤ f.hi) (h2 : f.hi < 32)
    (hd : g.hi < f.lo ∨ f.hi < g.lo) : (s.put k f v).get k g = s.get k g := by
  unfold State.get; rw [State.rd_put_same h]; exact Fld.get_put_other f g _ v h1 h2 hd

/-- A field of another register reads as before. -/
theorem State.get_put_other (s : State) {k j : Nat} (f g : Fld) (v : Nat) (h : j ≠ k) : (s.put k f v).get j g = s.get j g := by
  unfold State.get; rw [State.rd_put_other s f v h]

theorem State.bit_setBit_same {s : State} (h : s.RegsWf) (k i : Nat) (b : Bool) (hi : i < 32) : (s.setBit k i b).bit k i = b := by
  unfold State.bit State.setBit
  rw [State.rd_put_same h, Word.bit_put _ _ _ _ (Nat.le_refl _) hi]
  simp [testBit_b2n_zero, b2n_mod_two]

theorem State.bit_setBit_bit {s : State} (h : s.RegsWf) (k i j : Nat) (b : Bool) (hi : i < 32) (hj : j ≠ i) :
    (s.setBit k i b).bit k j = s.bit k j := by
  unfold State.bit State.setBit
  rw [State.rd_put_same h, Word.bit_put _ _ _ _ (Nat.le_refl _) hi]
  simp [show ¬ (i ≤ j ∧ j ≤ i) by omega]

theorem State.bit_put_other (s : State) {k j : Nat} (f : Fld) (v i : Nat) (h : j ≠ k) : (s.put k f v).bit j i = s.bit j i := by
  unfold State.bit; rw [State.rd_put_other s f v h]

/-! ### The canonical form -/

theorem State.RegsWf.wr {s : State} (h : s.RegsWf) (k : Nat) (v : Word) : (s.wr k v).RegsWf := swf_sset _ k v h
theorem State.RegsWf.put {s : State} (h : s.RegsWf) (k : Nat) (f : Fld) (v : Nat) : (s.put k f v).RegsWf := h.wr k _
theorem State.RegsWf.setBit {s : State} (h : s.RegsWf) (k i : Nat) (b : Bool) : (s.setBit k i b).RegsWf := h.put k _ _
theorem State.RegsWf.bump {s : State} (h : s.RegsWf) (k n : Nat) : (s.bump k n).RegsWf := h.wr k _
theorem State.RegsWf.setAck {s : State} (h : s.RegsWf) (mb : Nat) (b : Bool) : (s.setAck mb b).RegsWf := (h.setBit _ _ _).put _ _ _
theorem State.RegsWf.of_regs {s t : State} (h : s.RegsWf) (e : t.regs = s.regs) : t.RegsWf := by
  unfold State.RegsWf; rw [e]; exact h
theorem State.reset_RegsWf : State.reset.RegsWf := rfl

/-- A property of states that every element's step keeps, a fold keeps. -/
theorem foldl_keeps {σ β : Type} {P : σ → Prop} {f : σ → β → σ} (hf : ∀ s b, P s → P (f s b)) (l : List β) {s : σ} (h : P s) :
    P (l.foldl f s) := by
  induction l generalizing s with
  | nil => exact h
  | cons b l ih => exact ih (hf s b h)

end Machine
end Sys2Proof
end

