-- ==== Sys2Proof/Laws/Keeps.lean ====
section
/-! SUPPORT. What an operation on the state keeps, the rules by which that follows for a compound one, and the basic operations: `State.wr`, the
writing of memories, the pieces of control flow. The lemma of operation `op` is `op_keeps`. -/

namespace Sys2Proof.Machine

/-- What every operation keeps of the state `s.2` it starts from: the queue, the canonical form of registers and memories, and, where `s.1`
holds, the datum island. -/
structure Keeps (s : Prop × State) (t : State) : Prop where
  pending : t.pending = s.2.pending
  regs : s.2.RegsWf → t.RegsWf
  mem : s.2.MemWf → t.MemWf
  dat : s.1 → t.dat.island = s.2.dat.island

theorem Keeps.refl (p : Prop) (s : State) : Keeps (p, s) s := ⟨rfl, id, id, fun _ => rfl⟩

theorem Keeps.step {s0 : Prop × State} {x v : State} {P : Prop} (e : x = v) (h : Keeps s0 v) (k : Keeps s0 x → P) : P := k (e ▸ h)

theorem Keeps.ite {s0 : Prop × State} {a b : State} {c : Prop} [Decidable c] (ha : Keeps s0 a) (hb : Keeps s0 b) : Keeps s0 (if c then a else b) := by
  split <;> assumption

theorem Keeps.cond {s0 : Prop × State} {a b : State} {c : Bool} (ha : Keeps s0 a) (hb : Keeps s0 b) : Keeps s0 (cond c a b) := by
  cases c <;> assumption

theorem Keeps.foldl {s0 : Prop × State} {s : State} {β : Type} {f : State → β → State} (l : List β) (hf : ∀ t b, Keeps s0 t → Keeps s0 (f t b)) (h : Keeps s0 s) :
    Keeps s0 (l.foldl f s) := by
  induction l generalizing s with
  | nil => exact h
  | cons a l ih => exact ih (hf s a h)

theorem Keeps.foldl2 {s0 : Prop × State} {α β : Type} {f : α × State → β → α × State} {p : α × State} (l : List β)
    (hf : ∀ q b, Keeps s0 q.2 → Keeps s0 (f q b).2) (h : Keeps s0 p.2) : Keeps s0 (l.foldl f p).2 := by
  induction l generalizing p with
  | nil => exact h
  | cons a l ih => exact ih (hf p a h)

theorem Keeps.foldl1 {s0 : Prop × State} {α β : Type} {f : State × α → β → State × α} {p : State × α} (l : List β)
    (hf : ∀ q b, Keeps s0 q.1 → Keeps s0 (f q b).1) (h : Keeps s0 p.1) : Keeps s0 (l.foldl f p).1 := by
  induction l generalizing p with
  | nil => exact h
  | cons a l ih => exact ih (hf p a h)

theorem Keeps.getD {s0 : Prop × State} {s : State} {o : Option State} (ho : ∀ t, o = some t → Keeps s0 t) (h : Keeps s0 s) : Keeps s0 (o.getD s) := by
  cases o
  · exact h
  · exact ho _ rfl

/-- `Keeps` of a state written out, whatever its other components. -/
structure KeepsC (s0 : Prop × State) (pending : List Instr) (regs : Sparse Word) (sys : Sys) (store : Sparse Byte) (host : HostIf) (stitch : Stitch) (mem : Mem) (dat : Dat) :
    Prop where
  go : ∀ stamp latch raised free mbx svy flt gaz pwr streams fabric swt air ldr links mer pins grt thm,
  Keeps s0 (State.mk pending stamp regs latch raised free sys mbx svy host flt gaz pwr streams store stitch fabric swt air ldr links mer pins grt mem thm dat)

theorem Keeps.any {s0 : Prop × State} {pending : List Instr} {regs : Sparse Word} {sys : Sys} {store : Sparse Byte} {host : HostIf} {stitch : Stitch} {mem : Mem} {dat : Dat}
    (stamp : Nat) (latch : Sparse Word) (raised : Sparse (Nat × Nat)) (free : Nat) (mbx : Mbx) (svy : Survey) (flt : Flt)
    (gaz : Gaz) (pwr : Pwr) (streams : Sparse Stream) (fabric : Fabric) (swt : Swt) (air : Air) (ldr : Ldr)
    (links : Links) (mer : Mer) (pins : Pins) (grt : Grt) (thm : Thm) :
    Keeps s0 (State.mk pending stamp regs latch raised free sys mbx svy host flt gaz pwr streams store stitch fabric swt air ldr links mer pins grt mem thm dat)
      = KeepsC s0 pending regs sys store host stitch mem dat :=
  propext ⟨fun h => ⟨fun _ _ _ _ _ _ _ _ _ _ _ _ _ _ _ _ _ _ _ => ⟨h.pending, h.regs, h.mem, h.dat⟩⟩, fun h => h.go _ _ _ _ _ _ _ _ _ _ _ _ _ _ _ _ _ _ _⟩

theorem Keeps.core {s0 : Prop × State} {s : State} {sys : Sys} {host : HostIf} {stitch : Stitch} {mem : Mem} {dat : Dat}
    (h : Keeps s0 s) (h1 : host.mem = s.host.mem) (h2 : stitch.mem = s.stitch.mem) (h3 : stitch.pats = s.stitch.pats) (h4 : mem.ext = s.mem.ext)
    (h5 : s0.1 → dat.island = s.dat.island) (h6 : sys.flash = s.sys.flash) : KeepsC s0 s.pending s.regs sys s.store host stitch mem dat := by
  constructor; intro stamp latch raised free mbx svy flt gaz pwr streams fabric swt air ldr links mer pins grt thm
  refine ⟨h.pending, h.regs, fun x => ?_, fun hp => (h5 hp).trans (h.dat hp)⟩
  have := h.mem x
  simpa only [State.MemWf, h1, h2, h3, h4, h6] using this

theorem Keeps.coreM {s0 : Prop × State} {s s1 s2 s3 s4 s5 s6 s7 s8 : State} {sys : Sys} {host : HostIf} {stitch : Stitch} {mem : Mem} {dat : Dat}
    (h1 : host.mem = s3.host.mem) (h2 : stitch.mem = s4.stitch.mem) (h3 : stitch.pats = s5.stitch.pats) (h4 : mem.ext = s6.mem.ext)
    (h5 : s0.1 → dat.island = s7.dat.island) (h6 : sys.flash = s8.sys.flash) (k : Keeps s0 s) (k1 : Keeps s0 s1) (k2 : Keeps s0 s2) (k3 : Keeps s0 s3) (k4 : Keeps s0 s4) (k5 : Keeps s0 s5)
    (k6 : Keeps s0 s6) (k7 : Keeps s0 s7) (k8 : Keeps s0 s8) : KeepsC s0 s.pending s1.regs sys s2.store host stitch mem dat := by
  constructor; intro stamp latch raised free mbx svy flt gaz pwr streams fabric swt air ldr links mer pins grt thm
  refine ⟨k.pending, k1.regs, fun x => ?_, fun hp => (h5 hp).trans (k7.dat hp)⟩
  exact ⟨(k2.mem x).1, h4 ▸ (k6.mem x).2.1, h2 ▸ (k4.mem x).2.2.1, h3 ▸ (k5.mem x).2.2.2.1, h1 ▸ (k3.mem x).2.2.2.2.1, h6 ▸ (k8.mem x).2.2.2.2.2⟩

theorem Keeps.of_snd {α : Type} {s0 : Prop × State} {t : State} {p : α × State} {a : α} (e : p = (a, t)) (h : Keeps s0 p.2) : Keeps s0 t := by subst e; exact h

theorem Keeps.of_snd2 {α β : Type} {s0 : Prop × State} {t : State} {p : α × β × State} {a : α} {b : β} (e : p = (a, b, t)) (h : Keeps s0 p.2.2) : Keeps s0 t := by subst e; exact h

theorem Keeps.of_fst {α : Type} {s0 : Prop × State} {t : State} {p : State × α} {a : α} (e : p = (t, a)) (h : Keeps s0 p.1) : Keeps s0 t := by subst e; exact h

theorem Keeps.of_some {s0 : Prop × State} {t : State} {o : Option State} (e : o = some t) (h : ∀ t, o = some t → Keeps s0 t) : Keeps s0 t := h t e

theorem Keeps.of_some2 {α : Type} {s0 : Prop × State} {t : State} {a : α} {o : Option (α × State)} (e : o = some (a, t)) (h : ∀ p, o = some p → Keeps s0 p.2) :
    Keeps s0 t := h _ e

theorem Keeps.ite1 {α : Type} {s0 : Prop × State} {a b : State × α} {c : Prop} [Decidable c] (ha : Keeps s0 a.1) (hb : Keeps s0 b.1) :
    Keeps s0 (if c then a else b).1 := by split <;> assumption

theorem Keeps.ite2 {α : Type} {s0 : Prop × State} {a b : α × State} {c : Prop} [Decidable c] (ha : Keeps s0 a.2) (hb : Keeps s0 b.2) :
    Keeps s0 (if c then a else b).2 := by split <;> assumption

theorem Keeps.ite22 {α β : Type} {s0 : Prop × State} {a b : α × β × State} {c : Prop} [Decidable c] (ha : Keeps s0 a.2.2) (hb : Keeps s0 b.2.2) :
    Keeps s0 (if c then a else b).2.2 := by split <;> assumption

/-- The state an outcome of the guard carries. -/
def Got.st {α : Type} : Got α → State
  | .ok _ s => s | .halt _ _ s => s | .noEcc _ s => s

/-- The state an answer carries. -/
def Ans.st : Ans → State
  | .ans _ s _ => s | .acc s _ => s | .wait s _ => s | .later s => s

theorem Keeps.ite_st {α : Type} {s0 : Prop × State} {a b : Got α} {c : Prop} [Decidable c] (ha : Keeps s0 a.st) (hb : Keeps s0 b.st) :
    Keeps s0 (if c then a else b).st := by split <;> assumption

theorem Keeps.ite_ast {s0 : Prop × State} {a b : Ans} {c : Prop} [Decidable c] (ha : Keeps s0 a.st) (hb : Keeps s0 b.st) :
    Keeps s0 (if c then a else b).st := by split <;> assumption

theorem Keeps.bind_st {α β : Type} {s0 : Prop × State} {g : Got α} {f : α → State → Got β} (hg : Keeps s0 g.st) (hf : ∀ v t, Keeps s0 t → Keeps s0 (f v t).st) :
    Keeps s0 (g.bind f).st := by
  cases g
  · exact hf _ _ hg
  · exact hg
  · exact hg

theorem Ans.st_ans {s0 : Prop × State} {s : State} {rc : RetCode} {d : List Word} (h : Keeps s0 s) : Keeps s0 (Ans.ans rc s d).st := h

theorem Ans.st_acc {s0 : Prop × State} {s : State} {a : List Nat} (h : Keeps s0 s) : Keeps s0 (Ans.acc s a).st := h

theorem Ans.st_wait {s0 : Prop × State} {s : State} {a : List Nat} (h : Keeps s0 s) : Keeps s0 (Ans.wait s a).st := h

theorem Ans.st_later {s0 : Prop × State} {s : State} (h : Keeps s0 s) : Keeps s0 (Ans.later s).st := h

theorem Ans.st_code {s0 : Prop × State} {s : State} {rc : RetCode} (h : Keeps s0 s) : Keeps s0 (Ans.code rc s).st := h

theorem Ans.st_ok {s0 : Prop × State} {s : State} {d : List Word} (h : Keeps s0 s) : Keeps s0 (Ans.ok s d).st := h

theorem Got.st_ok {α : Type} {s0 : Prop × State} {s : State} {v : α} (h : Keeps s0 s) : Keeps s0 (Got.ok v s).st := h

theorem Got.st_halt {α : Type} {s0 : Prop × State} {s : State} {c ch : Nat} (h : Keeps s0 s) : Keeps s0 (Got.halt (α := α) c ch s).st := h

theorem Got.st_noEcc {α : Type} {s0 : Prop × State} {s : State} {c : Nat} (h : Keeps s0 s) : Keeps s0 (Got.noEcc (α := α) c s).st := h

theorem State.answered_keeps {s0 : Prop × State} {x : Access} (h : Keeps s0 x.2) (m : Master) : Keeps s0 (State.answered m x) := by
  unfold State.answered
  simp only [Keeps.any]
  exact Keeps.core h rfl rfl rfl rfl (fun _ => rfl) rfl

theorem State.wr_keeps {s0 : Prop × State} {s : State} (h : Keeps s0 s) (k : Nat) (v : Word) : Keeps s0 (s.wr k v) :=
  ⟨h.pending, fun x => (h.regs x).wr k v, h.mem, h.dat⟩

theorem swf_putBytes {m : Sparse Byte} (a : Nat) (bs : List Byte) (h : swf (fun _ => (0 : Byte)) m = true) :
    swf (fun _ => (0 : Byte)) (putBytes m a bs) = true :=
  foldl_keeps (P := fun m => swf (fun _ => (0 : Byte)) m = true) (fun m _ hm => swf_sset _ _ _ hm) _ h

theorem Keeps.store {s0 : Prop × State} {s : State} (h : Keeps s0 s) {m : Sparse Byte} (hm : swf (fun _ => (0 : Byte)) s.store = true → swf (fun _ => (0 : Byte)) m = true) :
    Keeps s0 { s with store := m } :=
  ⟨h.pending, h.regs, fun x => ⟨hm (h.mem x).1, (h.mem x).2⟩, h.dat⟩

theorem State.hostWrite_keeps {s0 : Prop × State} {s : State} (h : Keeps s0 s) (a : Nat) (bs : List Byte) : Keeps s0 (s.hostWrite a bs) :=
  ⟨h.pending, h.regs, fun x => ⟨(h.mem x).1, (h.mem x).2.1, (h.mem x).2.2.1, (h.mem x).2.2.2.1,
    foldl_keeps (P := fun m => swf (fun _ => (0 : Byte)) m = true) (fun m _ hm => swf_sset _ _ _ hm) _ (h.mem x).2.2.2.2.1, (h.mem x).2.2.2.2.2⟩, h.dat⟩

theorem State.setTmem_keeps {s0 : Prop × State} {s : State} (h : Keeps s0 s) (t a : Nat) (b : Byte) : Keeps s0 (s.setTmem t a b) :=
  ⟨h.pending, h.regs, fun x => ⟨(h.mem x).1, (h.mem x).2.1, swf_sset _ _ _ (h.mem x).2.2.1, (h.mem x).2.2.2.1, (h.mem x).2.2.2.2⟩, h.dat⟩

end Sys2Proof.Machine
end

