-- ==== Sys2Proof/Laws/KeepsOps1.lean ====
section
/-! SUPPORT. What the shared operations keep (1 of 5): one lemma per operation, each citing those of the operations it is made of. -/

namespace Sys2Proof.Machine

theorem Ans.code_keeps {s0 : Prop × State} {s : State} (h : Keeps s0 s) (a1 : RetCode) :
    Keeps s0 (Ans.code a1 s).st := by
  unfold Ans.code
  repeat' first | with_reducible exact h | with_reducible apply Ans.st_code

theorem Ans.ok_keeps {s0 : Prop × State} {s : State} (h : Keeps s0 s) (a1 : (List Word)) :
    Keeps s0 (Ans.ok s a1).st := by
  unfold Ans.ok
  repeat' first | with_reducible exact h | with_reducible apply Ans.st_ok

theorem State.abandonOpen_keeps {s0 : Prop × State} {s : State} (h : Keeps s0 s) :
    Keeps s0 (State.abandonOpen s) := by
  unfold State.abandonOpen
  repeat' first | with_reducible exact h | (extract_lets +onlyGivenNames sx; clear_value (hsx : sx = _); subst hsx) | simp only [Keeps.any] | refine Keeps.core ?_ rfl rfl rfl rfl (fun _ => rfl) rfl

theorem State.takeId_keeps {s0 : Prop × State} {s : State} (h : Keeps s0 s) :
    Keeps s0 (State.takeId s) := by
  unfold State.takeId
  repeat' first | with_reducible exact h | (extract_lets +onlyGivenNames sx; clear_value (hsx : sx = _); subst hsx) | simp only [Keeps.any] | refine Keeps.core ?_ rfl rfl rfl rfl (fun _ => rfl) rfl

theorem State.put_keeps {s0 : Prop × State} {s : State} (h : Keeps s0 s) (a1 : Nat) (a2 : Fld) (a3 : Nat) :
    Keeps s0 (State.put s a1 a2 a3) := by
  unfold State.put
  repeat' first | with_reducible exact h | (with_reducible apply State.wr_keeps)

theorem State.setBit_keeps {s0 : Prop × State} {s : State} (h : Keeps s0 s) (a1 : Nat) (a2 : Nat) (a3 : Bool) :
    Keeps s0 (State.setBit s a1 a2 a3) := by
  unfold State.setBit
  repeat' first | with_reducible exact h | (with_reducible apply State.put_keeps)

theorem State.setAck_keeps {s0 : Prop × State} {s : State} (h : Keeps s0 s) (a1 : Nat) (a2 : Bool) :
    Keeps s0 (State.setAck s a1 a2) := by
  unfold State.setAck
  repeat' first | with_reducible exact h | (with_reducible apply State.put_keeps) | (with_reducible apply State.setBit_keeps)

theorem State.setYport_keeps {s0 : Prop × State} {s : State} (h : Keeps s0 s) (a1 : Nat) (a2 : YPort) :
    Keeps s0 (State.setYport s a1 a2) := by
  unfold State.setYport
  repeat' first | with_reducible exact h | (extract_lets +onlyGivenNames sx; clear_value (hsx : sx = _); subst hsx) | simp only [Keeps.any] | refine Keeps.core ?_ rfl rfl rfl rfl (fun _ => rfl) rfl

theorem State.yarnCtrl_keeps {s0 : Prop × State} {s : State} (h : Keeps s0 s) (a1 : Nat) (a2 : List CtrlUnit) :
    Keeps s0 (State.yarnCtrl s a1 a2) := by
  unfold State.yarnCtrl
  repeat' first | with_reducible exact h | (with_reducible apply State.setYport_keeps) | simp only [Keeps.any] | split

theorem State.ackWrite_keeps {s0 : Prop × State} {s : State} (h : Keeps s0 s) (a1 : Nat) (a2 : Nat) :
    Keeps s0 (State.ackWrite s a1 a2) := by
  unfold State.ackWrite
  repeat' first | with_reducible exact h | with_reducible assumption | (extract_lets +onlyGivenNames sx; clear_value (hsx : sx = _); refine Keeps.step (s0 := s0) hsx ?_ ?_; swap; intro _; clear hsx) | (with_reducible apply State.setBit_keeps) | (with_reducible apply State.setAck_keeps) | (with_reducible apply State.put_keeps) | (with_reducible apply State.yarnCtrl_keeps) | with_reducible apply Keeps.ite | split

theorem State.acknowledge_keeps {s0 : Prop × State} {s : State} (h : Keeps s0 s) (a1 : Cmd) (a2 : RetCode) :
    Keeps s0 (State.acknowledge s a1 a2) := by
  unfold State.acknowledge
  repeat' first | with_reducible exact h | with_reducible assumption | (extract_lets +onlyGivenNames sx; clear_value (hsx : sx = _); refine Keeps.step (s0 := s0) hsx ?_ ?_; swap; intro _; clear hsx) | (extract_lets +onlyGivenNames sx; clear_value (hsx : sx = _); subst hsx) | (with_reducible apply State.ackWrite_keeps) | with_reducible apply Keeps.ite | simp only [Keeps.any] | refine Keeps.core ?_ rfl rfl rfl rfl (fun _ => rfl) rfl | split

theorem State.postInto_keeps {s0 : Prop × State} {s : State} (h : Keeps s0 s) (a1 : Nat) (a2 : List Word) :
    Keeps s0 (State.postInto s a1 a2) := by
  unfold State.postInto
  repeat' first | with_reducible exact h | with_reducible assumption | (intro _) | (extract_lets +onlyGivenNames sx; clear_value (hsx : sx = _); refine Keeps.step (s0 := s0) hsx ?_ ?_; swap; intro _; clear hsx) | (extract_lets +onlyGivenNames sx; clear_value (hsx : sx = _); subst hsx) | (with_reducible apply State.wr_keeps) | (with_reducible apply State.setAck_keeps) | (with_reducible apply State.setBit_keeps) | with_reducible refine Keeps.foldl _ ?_ ?_ | simp only [Keeps.any] | refine Keeps.core ?_ rfl rfl rfl rfl (fun _ => rfl) rfl

theorem State.yarnPump_keeps {s0 : Prop × State} {s : State} (h : Keeps s0 s) (a1 : Nat) :
    Keeps s0 (State.yarnPump s a1) := by
  unfold State.yarnPump
  repeat' first | with_reducible exact h | (extract_lets +onlyGivenNames sx; clear_value (hsx : sx = _); subst hsx) | (with_reducible apply State.postInto_keeps) | (with_reducible apply State.setYport_keeps) | with_reducible apply Keeps.ite | split

theorem State.yarnPost_keeps {s0 : Prop × State} {s : State} (h : Keeps s0 s) (a1 : YMsg) :
    Keeps s0 (State.yarnPost s a1) := by
  unfold State.yarnPost
  repeat' first | with_reducible exact h | (with_reducible apply State.yarnPump_keeps) | (with_reducible apply State.setYport_keeps) | simp only [Keeps.any] | split

theorem State.setOutq_keeps {s0 : Prop × State} {s : State} (h : Keeps s0 s) (a1 : Nat) (a2 : List OutMsg) :
    Keeps s0 (State.setOutq s a1 a2) := by
  unfold State.setOutq
  repeat' first | with_reducible exact h | (extract_lets +onlyGivenNames sx; clear_value (hsx : sx = _); subst hsx) | simp only [Keeps.any] | refine Keeps.core ?_ rfl rfl rfl rfl (fun _ => rfl) rfl

theorem State.flushOne_keeps {s0 : Prop × State} {s : State} (h : Keeps s0 s) (a1 : Nat) :
    Keeps s0 (State.flushOne s a1) := by
  unfold State.flushOne
  repeat' first | with_reducible exact h | (with_reducible apply State.yarnPost_keeps) | (with_reducible apply State.setOutq_keeps) | (with_reducible apply State.postInto_keeps) | with_reducible apply Keeps.ite | simp only [Keeps.any] | refine Keeps.core ?_ rfl rfl rfl rfl (fun _ => rfl) rfl | split

theorem State.flush_keeps {s0 : Prop × State} {s : State} (h : Keeps s0 s) (a1 : Nat) :
    Keeps s0 (State.flush s a1) := by
  unfold State.flush
  repeat' first | with_reducible exact h | with_reducible assumption | (intro _) | (with_reducible apply State.flushOne_keeps) | with_reducible refine Keeps.foldl _ ?_ ?_

theorem State.pushOut_keeps {s0 : Prop × State} {s : State} (h : Keeps s0 s) (a1 : Nat) (a2 : OutMsg) :
    Keeps s0 (State.pushOut s a1 a2) := by
  unfold State.pushOut
  repeat' first | with_reducible exact h | (with_reducible apply State.flush_keeps) | (with_reducible apply State.setOutq_keeps)

theorem State.accept_keeps {s0 : Prop × State} {s : State} (h : Keeps s0 s) (a1 : Cmd) (a2 : List Nat) :
    Keeps s0 (State.accept s a1 a2) := by
  unfold State.accept
  repeat' first | with_reducible exact h | with_reducible assumption | (extract_lets +onlyGivenNames sx; clear_value (hsx : sx = _); refine Keeps.step (s0 := s0) hsx ?_ ?_; swap; intro _; clear hsx) | (extract_lets +onlyGivenNames sx; clear_value (hsx : sx = _); subst hsx) | (with_reducible apply State.takeId_keeps) | (with_reducible apply State.acknowledge_keeps) | (with_reducible apply State.pushOut_keeps) | simp only [Keeps.any] | refine Keeps.core ?_ rfl rfl rfl rfl (fun _ => rfl) rfl

theorem State.busErr_keeps {s0 : Prop × State} {s : State} (h : Keeps s0 s) :
    Keeps s0 (State.busErr s).2 := by
  unfold State.busErr
  repeat' first | with_reducible exact h

theorem State.raise_keeps {s0 : Prop × State} {s : State} (h : Keeps s0 s) (a1 : Nat) (a2 : Nat) :
    Keeps s0 (State.raise s a1 a2) := by
  unfold State.raise
  repeat' first | with_reducible exact h | with_reducible assumption | (extract_lets +onlyGivenNames sx; clear_value (hsx : sx = _); refine Keeps.step (s0 := s0) hsx ?_ ?_; swap; intro _; clear hsx) | (extract_lets +onlyGivenNames sx; clear_value (hsx : sx = _); subst hsx) | (with_reducible apply State.setBit_keeps) | simp only [Keeps.any] | refine Keeps.core ?_ rfl rfl rfl rfl (fun _ => rfl) rfl

theorem State.bump_keeps {s0 : Prop × State} {s : State} (h : Keeps s0 s) (a1 : Nat) (a2 : Nat) :
    Keeps s0 (State.bump s a1 a2) := by
  unfold State.bump
  repeat' first | with_reducible exact h | (with_reducible apply State.wr_keeps)

theorem State.mbxReject_keeps {s0 : Prop × State} {s : State} (h : Keeps s0 s) (a1 : Master) (a2 : Nat) :
    Keeps s0 (State.mbxReject s a1 a2).2 := by
  unfold State.mbxReject
  repeat' first | with_reducible exact h | with_reducible assumption | (intro _) | (extract_lets +onlyGivenNames sx; clear_value (hsx : sx = _); refine Keeps.step (s0 := s0) hsx ?_ ?_; swap; intro _; clear hsx) | (extract_lets +onlyGivenNames sx; clear_value (hsx : sx = _); subst hsx) | (with_reducible apply State.raise_keeps) | (with_reducible apply State.bump_keeps) | (with_reducible apply State.busErr_keeps) | with_reducible apply Keeps.ite2 | simp only [Keeps.any] | with_reducible apply Keeps.coreM | exact Eq.refl _

theorem State.busOk_keeps {s0 : Prop × State} {s : State} (h : Keeps s0 s) (a1 : Word) :
    Keeps s0 (State.busOk s a1).2 := by
  unfold State.busOk
  repeat' first | with_reducible exact h

theorem State.setClaim_keeps {s0 : Prop × State} {s : State} (h : Keeps s0 s) (a1 : Nat) (a2 : Option Claim) :
    Keeps s0 (State.setClaim s a1 a2) := by
  unfold State.setClaim
  repeat' first | with_reducible exact h | (extract_lets +onlyGivenNames sx; clear_value (hsx : sx = _); subst hsx) | simp only [Keeps.any] | refine Keeps.core ?_ rfl rfl rfl rfl (fun _ => rfl) rfl

theorem State.mbxYarn_keeps {s0 : Prop × State} {s : State} (h : Keeps s0 s) (a1 : Nat) :
    Keeps s0 (State.mbxYarn s a1) := by
  unfold State.mbxYarn
  repeat' first | with_reducible exact h | (extract_lets +onlyGivenNames sx; clear_value (hsx : sx = _); subst hsx) | (with_reducible apply State.setYport_keeps) | with_reducible apply Keeps.ite

theorem State.wakeSrc_keeps {s0 : Prop × State} {s : State} (h : Keeps s0 s) (a1 : Nat) :
    Keeps s0 (State.wakeSrc s a1) := by
  unfold State.wakeSrc
  repeat' first | with_reducible exact h | (with_reducible apply State.put_keeps) | with_reducible apply Keeps.ite

theorem State.complete_keeps {s0 : Prop × State} {s : State} (h : Keeps s0 s) (a1 : Nat) (a2 : RetCode) (a3 : (List Word)) :
    Keeps s0 (State.complete s a1 a2 a3) := by
  unfold State.complete
  repeat' first | with_reducible exact h | with_reducible assumption | (extract_lets +onlyGivenNames sx; clear_value (hsx : sx = _); refine Keeps.step (s0 := s0) hsx ?_ ?_; swap; intro _; clear hsx) | (extract_lets +onlyGivenNames sx; clear_value (hsx : sx = _); subst hsx) | (with_reducible apply State.flush_keeps) | (with_reducible apply State.setOutq_keeps) | simp only [Keeps.any] | refine Keeps.core ?_ rfl rfl rfl rfl (fun _ => rfl) rfl | split

theorem State.completeOpt_keeps {s0 : Prop × State} {s : State} (h : Keeps s0 s) (a1 : Option Nat) (a2 : RetCode) (a3 : (List Word)) :
    Keeps s0 (State.completeOpt s a1 a2 a3) := by
  unfold State.completeOpt
  repeat' first | with_reducible exact h | (with_reducible apply State.complete_keeps) | split

theorem State.stageDone_keeps {s0 : Prop × State} {s : State} (h : Keeps s0 s) (a1 : Nat) (a2 : RetCode) :
    Keeps s0 (State.stageDone s a1 a2) := by
  unfold State.stageDone
  repeat' first | with_reducible exact h | (extract_lets +onlyGivenNames sx; clear_value (hsx : sx = _); subst hsx) | (with_reducible apply State.completeOpt_keeps) | simp only [Keeps.any] | refine Keeps.core ?_ rfl rfl rfl rfl (fun _ => rfl) rfl

theorem State.stagesDone_keeps {s0 : Prop × State} {s : State} (h : Keeps s0 s) (a1 : State → Nat → Bool) (a2 : RetCode) :
    Keeps s0 (State.stagesDone s a1 a2) := by
  unfold State.stagesDone
  repeat' first | with_reducible exact h | with_reducible assumption | (intro _) | (with_reducible apply State.stageDone_keeps) | with_reducible apply Keeps.ite | with_reducible refine Keeps.foldl _ ?_ ?_

theorem State.setStage_keeps {s0 : Prop × State} {s : State} (h : Keeps s0 s) (a1 : Nat) (a2 : PowStage) :
    Keeps s0 (State.setStage s a1 a2) := by
  unfold State.setStage
  repeat' first | with_reducible exact h | (extract_lets +onlyGivenNames sx; clear_value (hsx : sx = _); subst hsx) | simp only [Keeps.any] | refine Keeps.core ?_ rfl rfl rfl rfl (fun _ => rfl) rfl

theorem State.stageMap_keeps {s0 : Prop × State} {s : State} (h : Keeps s0 s) (a1 : PowStage → PowStage) :
    Keeps s0 (State.stageMap s a1) := by
  unfold State.stageMap
  repeat' first | with_reducible exact h | with_reducible assumption | (intro _) | (with_reducible apply State.setStage_keeps) | with_reducible apply Keeps.ite | with_reducible refine Keeps.foldl _ ?_ ?_

theorem State.setLane_keeps {s0 : Prop × State} {s : State} (h : Keeps s0 s) (a1 : Nat) (a2 : Lane) :
    Keeps s0 (State.setLane s a1 a2) := by
  unfold State.setLane
  repeat' first | with_reducible exact h | (extract_lets +onlyGivenNames sx; clear_value (hsx : sx = _); subst hsx) | simp only [Keeps.any] | refine Keeps.core ?_ rfl rfl rfl rfl (fun _ => rfl) rfl

theorem State.checkStop_keeps {s0 : Prop × State} {s : State} (h : Keeps s0 s) (a1 : Nat) :
    Keeps s0 (State.checkStop s a1) := by
  unfold State.checkStop
  repeat' first | with_reducible exact h | with_reducible assumption | (extract_lets +onlyGivenNames sx; clear_value (hsx : sx = _); refine Keeps.step (s0 := s0) hsx ?_ ?_; swap; intro _; clear hsx) | (extract_lets +onlyGivenNames sx; clear_value (hsx : sx = _); subst hsx) | (with_reducible apply State.setLane_keeps) | (with_reducible apply State.put_keeps) | split

theorem State.unsteady_keeps {s0 : Prop × State} {s : State} (h : Keeps s0 s) (a1 : Nat) :
    Keeps s0 (State.unsteady s a1) := by
  unfold State.unsteady
  repeat' first | with_reducible exact h | (extract_lets +onlyGivenNames sx; clear_value (hsx : sx = _); subst hsx) | simp only [Keeps.any] | refine Keeps.core ?_ rfl rfl rfl rfl (fun _ => rfl) rfl

theorem State.gazInc_keeps {s0 : Prop × State} {s : State} (h : Keeps s0 s) (a1 : Nat) (a2 : Nat) :
    Keeps s0 (State.gazInc s a1 a2) := by
  unfold State.gazInc
  repeat' first | with_reducible exact h | (extract_lets +onlyGivenNames sx; clear_value (hsx : sx = _); subst hsx) | simp only [Keeps.any] | refine Keeps.core ?_ rfl rfl rfl rfl (fun _ => rfl) rfl

theorem State.report_keeps {s0 : Prop × State} {s : State} (h : Keeps s0 s) (a1 : Nat) (a2 : Nat) (a3 : (List Word)) (a4 : (List (Nat × Nat × Nat))) :
    Keeps s0 (State.report s a1 a2 a3 a4) := by
  unfold State.report
  repeat' first | with_reducible exact h | (extract_lets +onlyGivenNames sx; clear_value (hsx : sx = _); subst hsx) | simp only [Keeps.any] | refine Keeps.core ?_ rfl rfl rfl rfl (fun _ => rfl) rfl

theorem State.yarnInFlight_keeps {s0 : Prop × State} {s : State} (h : Keeps s0 s) (a1 : Nat) :
    Keeps s0 (State.yarnInFlight s a1) := by
  unfold State.yarnInFlight
  repeat' first | with_reducible exact h | (extract_lets +onlyGivenNames sx; clear_value (hsx : sx = _); subst hsx) | (with_reducible apply State.report_keeps) | with_reducible apply Keeps.ite | simp only [Keeps.any] | refine Keeps.core ?_ rfl rfl rfl rfl (fun _ => rfl) rfl | split

theorem State.linkDown_keeps {s0 : Prop × State} {s : State} (h : Keeps s0 s) (a1 : Nat) (a2 : Nat) :
    Keeps s0 (State.linkDown s a1 a2) := by
  unfold State.linkDown
  repeat' first | with_reducible exact h | with_reducible assumption | (extract_lets +onlyGivenNames sx; clear_value (hsx : sx = _); refine Keeps.step (s0 := s0) hsx ?_ ?_; swap; intro _; clear hsx) | (extract_lets +onlyGivenNames sx; clear_value (hsx : sx = _); subst hsx) | (with_reducible apply State.wr_keeps) | (with_reducible apply State.unsteady_keeps) | (with_reducible apply State.gazInc_keeps) | (with_reducible apply State.bump_keeps) | (with_reducible apply State.put_keeps) | (with_reducible apply State.yarnInFlight_keeps) | with_reducible apply Keeps.ite | simp only [Keeps.any] | refine Keeps.core ?_ rfl rfl rfl rfl (fun _ => rfl) rfl | split

theorem State.setLaneState_keeps {s0 : Prop × State} {s : State} (h : Keeps s0 s) (a1 : Nat) (a2 : Nat) :
    Keeps s0 (State.setLaneState s a1 a2) := by
  unfold State.setLaneState
  repeat' first | with_reducible exact h | (with_reducible apply State.put_keeps)

theorem State.laneExit_keeps {s0 : Prop × State} {s : State} (h : Keeps s0 s) (a1 : Nat) :
    Keeps s0 (State.laneExit s a1) := by
  unfold State.laneExit
  repeat' first | with_reducible exact h | with_reducible assumption | (extract_lets +onlyGivenNames sx; clear_value (hsx : sx = _); refine Keeps.step (s0 := s0) hsx ?_ ?_; swap; intro _; clear hsx) | (extract_lets +onlyGivenNames sx; clear_value (hsx : sx = _); subst hsx) | (with_reducible apply State.setLane_keeps) | (with_reducible apply State.put_keeps)

theorem State.laneMove_keeps {s0 : Prop × State} {s : State} (h : Keeps s0 s) (a1 : Nat) :
    Keeps s0 (State.laneMove s a1) := by
  unfold State.laneMove
  repeat' first | with_reducible exact h | with_reducible assumption | (extract_lets +onlyGivenNames sx; clear_value (hsx : sx = _); refine Keeps.step (s0 := s0) hsx ?_ ?_; swap; intro _; clear hsx) | (extract_lets +onlyGivenNames sx; clear_value (hsx : sx = _); subst hsx) | (with_reducible apply State.put_keeps) | (with_reducible apply State.checkStop_keeps) | (with_reducible apply State.linkDown_keeps) | (with_reducible apply State.setLaneState_keeps) | (with_reducible apply State.setLane_keeps) | (with_reducible apply State.laneExit_keeps) | with_reducible apply Keeps.ite

theorem State.lanesMove_keeps {s0 : Prop × State} {s : State} (h : Keeps s0 s) :
    Keeps s0 (State.lanesMove s) := by
  unfold State.lanesMove
  repeat' first | with_reducible exact h | with_reducible assumption | (intro _) | (with_reducible apply State.laneMove_keeps) | with_reducible refine Keeps.foldl _ ?_ ?_

theorem State.dormDone_keeps {s0 : Prop × State} {s : State} (h : Keeps s0 s) (a1 : RetCode) :
    Keeps s0 (State.dormDone s a1) := by
  unfold State.dormDone
  repeat' first | with_reducible exact h | (extract_lets +onlyGivenNames sx; clear_value (hsx : sx = _); subst hsx) | (with_reducible apply State.completeOpt_keeps) | simp only [Keeps.any] | refine Keeps.core ?_ rfl rfl rfl rfl (fun _ => rfl) rfl

theorem State.wake_keeps {s0 : Prop × State} {s : State} (h : Keeps s0 s) (a1 : Nat) :
    Keeps s0 (State.wake s a1) := by
  unfold State.wake
  repeat' first | with_reducible exact h | with_reducible assumption | (extract_lets +onlyGivenNames sx; clear_value (hsx : sx = _); refine Keeps.step (s0 := s0) hsx ?_ ?_; swap; intro _; clear hsx) | (extract_lets +onlyGivenNames sx; clear_value (hsx : sx = _); subst hsx) | (with_reducible apply State.bump_keeps) | (with_reducible apply State.wakeSrc_keeps) | (with_reducible apply State.stagesDone_keeps) | (with_reducible apply State.stageMap_keeps) | (with_reducible apply State.lanesMove_keeps) | (with_reducible apply State.dormDone_keeps) | simp only [Keeps.any] | refine Keeps.core ?_ rfl rfl rfl rfl (fun _ => rfl) rfl | split

theorem State.mbxWrite_keeps {s0 : Prop × State} {s : State} (h : Keeps s0 s) (a1 : Master) (a2 : Nat) (a3 : Nat) (a4 : Word) :
    Keeps s0 (State.mbxWrite s a1 a2 a3 a4).2 := by
  unfold State.mbxWrite
  repeat' first | with_reducible exact h | with_reducible assumption | (extract_lets +onlyGivenNames sx; clear_value (hsx : sx = _); refine Keeps.step (s0 := s0) hsx ?_ ?_; swap; intro _; clear hsx) | (extract_lets +onlyGivenNames sx; clear_value (hsx : sx = _); subst hsx) | (with_reducible apply State.mbxReject_keeps) | (with_reducible apply State.wr_keeps) | (with_reducible apply State.busOk_keeps) | (with_reducible apply State.setClaim_keeps) | (with_reducible apply State.postInto_keeps) | (with_reducible apply State.mbxYarn_keeps) | (with_reducible apply State.wake_keeps) | with_reducible apply Keeps.ite | with_reducible apply Keeps.ite2 | simp only [Keeps.any] | refine Keeps.core ?_ rfl rfl rfl rfl (fun _ => rfl) rfl

theorem State.mbxAckClear_keeps {s0 : Prop × State} {s : State} (h : Keeps s0 s) (a1 : Master) (a2 : Word) :
    Keeps s0 (State.mbxAckClear s a1 a2).2 := by
  unfold State.mbxAckClear
  repeat' first | with_reducible exact h | with_reducible assumption | (intro _) | (with_reducible apply State.busOk_keeps) | (with_reducible apply State.setAck_keeps) | with_reducible apply Keeps.ite | with_reducible refine Keeps.foldl _ ?_ ?_

theorem Dat.island_kept (d : Dat) (a b : List Word) (e : List DatEvent) (f g : Sparse Nat) :
    Dat.island { d with rec_ := a, recSide := b, events := e, shares := f, lastAcc := g } = d.island := id rfl

theorem State.setDat_keeps {s0 : Prop × State} {s : State} (h : Keeps s0 s) (d : Dat) (hd : s0.1 → d.island = s.dat.island) : Keeps s0 (s.setDat d) := by
  unfold State.setDat
  simp only [Keeps.any]
  exact Keeps.core h rfl rfl rfl rfl hd rfl

theorem State.splitEnergy_keeps {s0 : Prop × State} {s : State} (h : Keeps s0 s) : Keeps s0 s.splitEnergy := by
  unfold State.splitEnergy
  extract_lets ts all weights
  refine Keeps.foldl _ ?_ h
  intro v c hv
  dsimp only
  refine State.setDat_keeps hv _ (fun _ => ?_)
  refine foldl_keeps (P := fun d : Dat => d.island = v.dat.island) ?_ _ rfl
  exact fun d b hd => hd

theorem State.datTaken_keeps {s0 : Prop × State} {s : State} (h : Keeps s0 s) (mb : Nat) : Keeps s0 (s.datTaken mb) := by
  unfold State.datTaken
  extract_lets w
  split
  · refine State.splitEnergy_keeps (State.setDat_keeps h _ (fun _ => ?_))
    exact Dat.island_kept _ _ _ _ _ _
  · split
    · refine State.setDat_keeps h _ (fun _ => ?_)
      exact Dat.island_kept _ _ _ _ _ _
    · exact h

theorem State.mbxAckcode_keeps {s0 : Prop × State} {s : State} (h : Keeps s0 s) (a1 : Master) (a2 : Nat) (a3 : Word) :
    Keeps s0 (State.mbxAckcode s a1 a2 a3).2 := by
  unfold State.mbxAckcode
  repeat' first | with_reducible exact h | with_reducible assumption | (extract_lets +onlyGivenNames sx; clear_value (hsx : sx = _); refine Keeps.step (s0 := s0) hsx ?_ ?_; swap; intro _; clear hsx) | (extract_lets +onlyGivenNames sx; clear_value (hsx : sx = _); subst hsx) | (with_reducible apply State.mbxReject_keeps) | (with_reducible apply State.ackWrite_keeps) | (with_reducible apply State.datTaken_keeps) | (with_reducible apply State.busOk_keeps) | (with_reducible apply State.flush_keeps) | with_reducible apply Keeps.ite | with_reducible apply Keeps.ite2 | simp only [Keeps.any] | refine Keeps.core ?_ rfl rfl rfl rfl (fun _ => rfl) rfl

theorem State.clearBits_keeps {s0 : Prop × State} {s : State} (h : Keeps s0 s) (a1 : Nat) (a2 : Nat) :
    Keeps s0 (State.clearBits s a1 a2) := by
  unfold State.clearBits
  repeat' first | with_reducible exact h | (extract_lets +onlyGivenNames sx; clear_value (hsx : sx = _); subst hsx) | (with_reducible apply State.wr_keeps)

theorem State.codeWrite_keeps {s0 : Prop × State} {s : State} (h : Keeps s0 s) (a1 : RegInfo) (a2 : Nat) (a3 : Word) :
    Keeps s0 (State.codeWrite s a1 a2 a3) := by
  unfold State.codeWrite
  repeat' first | with_reducible exact h | with_reducible assumption | (extract_lets +onlyGivenNames sx; clear_value (hsx : sx = _); refine Keeps.step (s0 := s0) hsx ?_ ?_; swap; intro _; clear hsx) | (extract_lets +onlyGivenNames sx; clear_value (hsx : sx = _); subst hsx) | (with_reducible apply State.wr_keeps) | (with_reducible apply State.clearBits_keeps) | with_reducible apply Keeps.ite

theorem State.setLatch_keeps {s0 : Prop × State} {s : State} (h : Keeps s0 s) (a1 : Master) (a2 : Nat) (a3 : Word) :
    Keeps s0 (State.setLatch s a1 a2 a3) := by
  unfold State.setLatch
  repeat' first | with_reducible exact h | simp only [Keeps.any] | refine Keeps.core ?_ rfl rfl rfl rfl (fun _ => rfl) rfl

theorem State.setStream_keeps {s0 : Prop × State} {s : State} (h : Keeps s0 s) (a1 : Nat) (a2 : Stream) :
    Keeps s0 (State.setStream s a1 a2) := by
  unfold State.setStream
  repeat' first | with_reducible exact h | simp only [Keeps.any] | refine Keeps.core ?_ rfl rfl rfl rfl (fun _ => rfl) rfl

theorem State.strOpen_keeps {s0 : Prop × State} {s : State} (h : Keeps s0 s) (a1 : Nat) (a2 : OpenReq) (a3 : Nat) :
    Keeps s0 (State.strOpen s a1 a2 a3) := by
  unfold State.strOpen
  repeat' first | with_reducible exact h | with_reducible assumption | (intro _) | (extract_lets +onlyGivenNames sx; clear_value (hsx : sx = _); refine Keeps.step (s0 := s0) hsx ?_ ?_; swap; intro _; clear hsx) | (extract_lets +onlyGivenNames sx; clear_value (hsx : sx = _); subst hsx) | (with_reducible apply State.put_keeps) | (with_reducible apply State.wr_keeps) | (with_reducible apply State.setStream_keeps) | with_reducible apply Keeps.ite | with_reducible refine Keeps.foldl _ ?_ ?_ | split

theorem State.strCfgOpen_keeps {s0 : Prop × State} {s : State} (h : Keeps s0 s) (a1 : Nat) :
    Keeps s0 (State.strCfgOpen s a1) := by
  unfold State.strCfgOpen
  repeat' first | with_reducible exact h | with_reducible assumption | (extract_lets +onlyGivenNames sx; clear_value (hsx : sx = _); refine Keeps.step (s0 := s0) hsx ?_ ?_; swap; intro _; clear hsx) | (extract_lets +onlyGivenNames sx; clear_value (hsx : sx = _); subst hsx) | (with_reducible apply State.raise_keeps) | (with_reducible apply State.strOpen_keeps) | with_reducible apply Keeps.ite | split

theorem State.strCfgWrite_keeps {s0 : Prop × State} {s : State} (h : Keeps s0 s) (a1 : Nat) (a2 : Word) :
    Keeps s0 (State.strCfgWrite s a1 a2) := by
  unfold State.strCfgWrite
  repeat' first | with_reducible exact h | with_reducible assumption | (extract_lets +onlyGivenNames sx; clear_value (hsx : sx = _); refine Keeps.step (s0 := s0) hsx ?_ ?_; swap; intro _; clear hsx) | (with_reducible apply State.raise_keeps) | (with_reducible apply State.wr_keeps) | (with_reducible apply State.strCfgOpen_keeps) | with_reducible apply Keeps.ite

theorem State.strWrite_keeps {s0 : Prop × State} {s : State} (h : Keeps s0 s) (a1 : Master) (a2 : RegInfo) (a3 : Word) :
    Keeps s0 (State.strWrite s a1 a2 a3) := by
  unfold State.strWrite
  repeat' first | with_reducible exact h | (extract_lets +onlyGivenNames sx; clear_value (hsx : sx = _); subst hsx) | (with_reducible apply State.codeWrite_keeps) | (with_reducible apply State.setLatch_keeps) | (with_reducible apply State.strCfgWrite_keeps) | (with_reducible apply State.raise_keeps) | (with_reducible apply State.wr_keeps) | with_reducible apply Keeps.ite

theorem State.setWale_keeps {s0 : Prop × State} {s : State} (h : Keeps s0 s) (a1 : Nat) (a2 : Wale) :
    Keeps s0 (State.setWale s a1 a2) := by
  unfold State.setWale
  repeat' first | with_reducible exact h | (extract_lets +onlyGivenNames sx; clear_value (hsx : sx = _); subst hsx) | simp only [Keeps.any] | refine Keeps.core ?_ rfl rfl rfl rfl (fun _ => rfl) rfl

theorem State.orderWale_keeps {s0 : Prop × State} {s : State} (h : Keeps s0 s) (a1 : Nat) (a2 : Nat) (a3 : Nat) (a4 : Nat) (a5 : SwSrc) :
    Keeps s0 (State.orderWale s a1 a2 a3 a4 a5) := by
  unfold State.orderWale
  repeat' first | with_reducible exact h | (extract_lets +onlyGivenNames sx; clear_value (hsx : sx = _); subst hsx) | (with_reducible apply State.setWale_keeps)

theorem State.walSwitchWrite_keeps {s0 : Prop × State} {s : State} (h : Keeps s0 s) (a1 : Nat) (a2 : Word) :
    Keeps s0 (State.walSwitchWrite s a1 a2) := by
  unfold State.walSwitchWrite
  repeat' first | with_reducible exact h | (with_reducible apply State.orderWale_keeps) | with_reducible apply Keeps.ite

theorem State.lneCtrlWrite_keeps {s0 : Prop × State} {s : State} (h : Keeps s0 s) (a1 : Nat) (a2 : Word) :
    Keeps s0 (State.lneCtrlWrite s a1 a2) := by
  unfold State.lneCtrlWrite
  repeat' first | with_reducible exact h | with_reducible assumption | (extract_lets +onlyGivenNames sx; clear_value (hsx : sx = _); refine Keeps.step (s0 := s0) hsx ?_ ?_; swap; intro _; clear hsx) | (extract_lets +onlyGivenNames sx; clear_value (hsx : sx = _); subst hsx) | (with_reducible apply State.put_keeps) | (with_reducible apply State.laneMove_keeps) | with_reducible apply Keeps.ite

theorem State.lneTestWrite_keeps {s0 : Prop × State} {s : State} (h : Keeps s0 s) (a1 : RegInfo) (a2 : Nat) (a3 : Word) :
    Keeps s0 (State.lneTestWrite s a1 a2 a3) := by
  unfold State.lneTestWrite
  repeat' first | with_reducible exact h | with_reducible assumption | (extract_lets +onlyGivenNames sx; clear_value (hsx : sx = _); refine Keeps.step (s0 := s0) hsx ?_ ?_; swap; intro _; clear hsx) | (with_reducible apply State.codeWrite_keeps) | (with_reducible apply State.checkStop_keeps) | (with_reducible apply State.setLaneState_keeps) | with_reducible apply Keeps.ite

theorem State.lneFfeWrite_keeps {s0 : Prop × State} {s : State} (h : Keeps s0 s) (a1 : RegInfo) (a2 : Nat) (a3 : Word) :
    Keeps s0 (State.lneFfeWrite s a1 a2 a3) := by
  unfold State.lneFfeWrite
  repeat' first | with_reducible exact h | (with_reducible apply State.codeWrite_keeps) | with_reducible apply Keeps.ite

theorem State.lneRxWrite_keeps {s0 : Prop × State} {s : State} (h : Keeps s0 s) (a1 : RegInfo) (a2 : Nat) (a3 : Word) :
    Keeps s0 (State.lneRxWrite s a1 a2 a3) := by
  unfold State.lneRxWrite
  repeat' first | with_reducible exact h | with_reducible assumption | (extract_lets +onlyGivenNames sx; clear_value (hsx : sx = _); refine Keeps.step (s0 := s0) hsx ?_ ?_; swap; intro _; clear hsx) | (with_reducible apply State.codeWrite_keeps) | (with_reducible apply State.put_keeps) | with_reducible apply Keeps.ite

theorem State.gateRefuse_keeps {s0 : Prop × State} {s : State} (h : Keeps s0 s) :
    Keeps s0 (State.gateRefuse s) := by
  unfold State.gateRefuse
  repeat' first | with_reducible exact h | (with_reducible apply State.bump_keeps) | (with_reducible apply State.raise_keeps)

theorem State.markLate_keeps {s0 : Prop × State} {s : State} (h : Keeps s0 s) (a1 : Nat) :
    Keeps s0 (State.markLate s a1) := by
  unfold State.markLate
  repeat' first | with_reducible exact h | (extract_lets +onlyGivenNames sx; clear_value (hsx : sx = _); subst hsx) | (with_reducible apply State.setWale_keeps) | with_reducible apply Keeps.ite | simp only [Keeps.any] | refine Keeps.core ?_ rfl rfl rfl rfl (fun _ => rfl) rfl

theorem State.setGate_keeps {s0 : Prop × State} {s : State} (h : Keeps s0 s) (a1 : Nat) (a2 : Nat) (a3 : Bool) :
    Keeps s0 (State.setGate s a1 a2 a3) := by
  unfold State.setGate
  repeat' first | with_reducible exact h | (with_reducible apply State.setBit_keeps) | split

theorem State.resetKeys_keeps {s0 : Prop × State} {s : State} (h : Keeps s0 s) (a1 : List Nat) :
    Keeps s0 (State.resetKeys s a1) := by
  unfold State.resetKeys
  repeat' first | with_reducible exact h | with_reducible assumption | (intro _) | (with_reducible apply State.wr_keeps) | with_reducible refine Keeps.foldl _ ?_ ?_

theorem State.lckAlign_keeps {s0 : Prop × State} {s : State} (h : Keeps s0 s) (a1 : Nat) :
    Keeps s0 (State.lckAlign s a1) := by
  unfold State.lckAlign
  repeat' first | with_reducible exact h | (extract_lets +onlyGivenNames sx; clear_value (hsx : sx = _); subst hsx) | simp only [Keeps.any] | refine Keeps.core ?_ rfl rfl rfl rfl (fun _ => rfl) rfl

theorem State.netDrawn_keeps {s0 : Prop × State} {s : State} (h : Keeps s0 s) :
    Keeps s0 (State.netDrawn s) := by
  unfold State.netDrawn
  repeat' first | with_reducible exact h | simp only [Keeps.any] | refine Keeps.core ?_ rfl rfl rfl rfl (fun _ => rfl) rfl

theorem State.setFf_keeps {s0 : Prop × State} {s : State} (h : Keeps s0 s) (a1 : Nat) (a2 : Nat) (a3 : Nat) (a4 : Bool) :
    Keeps s0 (State.setFf s a1 a2 a3 a4) := by
  unfold State.setFf
  repeat' first | with_reducible exact h | (extract_lets +onlyGivenNames sx; clear_value (hsx : sx = _); subst hsx) | simp only [Keeps.any] | refine Keeps.core ?_ rfl rfl rfl rfl (fun _ => rfl) rfl

theorem State.asyncOnce_keeps {s0 : Prop × State} {s : State} (h : Keeps s0 s) (a1 : Nat) (a2 : Nat) :
    Keeps s0 (State.asyncOnce s a1 a2) := by
  unfold State.asyncOnce
  repeat' first | with_reducible exact h | with_reducible assumption | (intro _) | (with_reducible apply State.setFf_keeps) | with_reducible apply Keeps.ite | with_reducible refine Keeps.foldl _ ?_ ?_

theorem State.asyncSettle_keeps {s0 : Prop × State} {s : State} (h : Keeps s0 s) (a1 : Nat) :
    Keeps s0 (State.asyncSettle s a1) := by
  unfold State.asyncSettle
  repeat' first | with_reducible exact h | with_reducible assumption | (intro _) | (with_reducible apply State.netDrawn_keeps) | (with_reducible apply State.asyncOnce_keeps) | with_reducible refine Keeps.foldl _ ?_ ?_ | split

theorem State.initFfs_keeps {s0 : Prop × State} {s : State} (h : Keeps s0 s) (a1 : Nat) (a2 : Nat) :
    Keeps s0 (State.initFfs s a1 a2) := by
  unfold State.initFfs
  repeat' first | with_reducible exact h | with_reducible assumption | (intro _) | (extract_lets +onlyGivenNames sx; clear_value (hsx : sx = _); refine Keeps.step (s0 := s0) hsx ?_ ?_; swap; intro _; clear hsx) | (extract_lets +onlyGivenNames sx; clear_value (hsx : sx = _); subst hsx) | (with_reducible apply State.setFf_keeps) | with_reducible refine Keeps.foldl _ ?_ ?_ | simp only [Keeps.any] | refine Keeps.core ?_ rfl rfl rfl rfl (fun _ => rfl) rfl

theorem State.sheetInit_keeps {s0 : Prop × State} {s : State} (h : Keeps s0 s) (a1 : Nat) :
    Keeps s0 (State.sheetInit s a1) := by
  unfold State.sheetInit
  repeat' first | with_reducible exact h | with_reducible assumption | (extract_lets +onlyGivenNames sx; clear_value (hsx : sx = _); refine Keeps.step (s0 := s0) hsx ?_ ?_; swap; intro _; clear hsx) | (extract_lets +onlyGivenNames sx; clear_value (hsx : sx = _); subst hsx) | (with_reducible apply State.resetKeys_keeps) | (with_reducible apply State.lckAlign_keeps) | (with_reducible apply State.asyncSettle_keeps) | (with_reducible apply State.initFfs_keeps) | simp only [Keeps.any] | refine Keeps.core ?_ rfl rfl rfl rfl (fun _ => rfl) rfl | split

theorem State.rotationOver_keeps {s0 : Prop × State} {s : State} (h : Keeps s0 s) (a1 : Nat) :
    Keeps s0 (State.rotationOver s a1) := by
  unfold State.rotationOver
  repeat' first | with_reducible exact h | (extract_lets +onlyGivenNames sx; clear_value (hsx : sx = _); subst hsx) | (with_reducible apply State.put_keeps) | with_reducible apply Keeps.ite | simp only [Keeps.any] | refine Keeps.core ?_ rfl rfl rfl rfl (fun _ => rfl) rfl

theorem State.rotationPast_keeps {s0 : Prop × State} {s : State} (h : Keeps s0 s) (a1 : SwReq) :
    Keeps s0 (State.rotationPast s a1) := by
  unfold State.rotationPast
  repeat' first | with_reducible exact h | (with_reducible apply State.rotationOver_keeps) | with_reducible apply Keeps.ite

theorem State.swtLog_keeps {s0 : Prop × State} {s : State} (h : Keeps s0 s) (a1 : SwRun) (a2 : Nat) (a3 : Nat) (a4 : Nat) (a5 : Nat) :
    Keeps s0 (State.swtLog s a1 a2 a3 a4 a5) := by
  unfold State.swtLog
  repeat' first | with_reducible exact h | (extract_lets +onlyGivenNames sx; clear_value (hsx : sx = _); subst hsx) | simp only [Keeps.any] | refine Keeps.core ?_ rfl rfl rfl rfl (fun _ => rfl) rfl

theorem State.swtEnd_keeps {s0 : Prop × State} {s : State} (h : Keeps s0 s) (a1 : SwRun) (a2 : Nat) (a3 : Nat) (a4 : Nat) (a5 : Nat) (a6 : RetCode) :
    Keeps s0 (State.swtEnd s a1 a2 a3 a4 a5 a6) := by
  unfold State.swtEnd
  repeat' first | with_reducible exact h | with_reducible assumption | (intro _) | (extract_lets +onlyGivenNames sx; clear_value (hsx : sx = _); refine Keeps.step (s0 := s0) hsx ?_ ?_; swap; intro _; clear hsx) | (extract_lets +onlyGivenNames sx; clear_value (hsx : sx = _); subst hsx) | (with_reducible apply State.swtLog_keeps) | (with_reducible apply State.bump_keeps) | (with_reducible apply State.rotationPast_keeps) | (with_reducible apply State.complete_keeps) | with_reducible apply Keeps.ite | with_reducible refine Keeps.foldl _ ?_ ?_ | simp only [Keeps.any] | refine Keeps.core ?_ rfl rfl rfl rfl (fun _ => rfl) rfl

theorem State.swtAbandon_keeps {s0 : Prop × State} {s : State} (h : Keeps s0 s) (a1 : SwReq → Bool) :
    Keeps s0 (State.swtAbandon s a1) := by
  unfold State.swtAbandon
  repeat' first | with_reducible exact h | (with_reducible apply State.rotationPast_keeps) | (with_reducible apply State.swtEnd_keeps) | with_reducible apply Keeps.ite | split

theorem State.swtBreak_keeps {s0 : Prop × State} {s : State} (h : Keeps s0 s) (a1 : SwReq → Bool) :
    Keeps s0 (State.swtBreak s a1) := by
  unfold State.swtBreak
  repeat' first | with_reducible exact h | (with_reducible apply State.sheetInit_keeps) | (with_reducible apply State.swtAbandon_keeps) | with_reducible apply Keeps.ite | split

theorem State.seqAdd_keeps {s0 : Prop × State} {s : State} (h : Keeps s0 s) (a1 : SeqReq) :
    Keeps s0 (State.seqAdd s a1) := by
  unfold State.seqAdd
  repeat' first | with_reducible exact h | (extract_lets +onlyGivenNames sx; clear_value (hsx : sx = _); subst hsx) | with_reducible apply Keeps.ite | simp only [Keeps.any] | refine Keeps.core ?_ rfl rfl rfl rfl (fun _ => rfl) rfl

theorem State.setKhz_keeps {s0 : Prop × State} {s : State} (h : Keeps s0 s) (a1 : Nat) (a2 : Nat) :
    Keeps s0 (State.setKhz s a1 a2) := by
  unfold State.setKhz
  repeat' first | with_reducible exact h | (extract_lets +onlyGivenNames sx; clear_value (hsx : sx = _); subst hsx) | simp only [Keeps.any] | refine Keeps.core ?_ rfl rfl rfl rfl (fun _ => rfl) rfl

theorem State.fitRail_keeps {s0 : Prop × State} {s : State} (h : Keeps s0 s) (a1 : Nat) :
    Keeps s0 (State.fitRail s a1) := by
  unfold State.fitRail
  repeat' first | with_reducible exact h | (with_reducible apply State.seqAdd_keeps) | (with_reducible apply State.setKhz_keeps) | with_reducible apply Keeps.ite

theorem State.fitRails_keeps {s0 : Prop × State} {s : State} (h : Keeps s0 s) :
    Keeps s0 (State.fitRails s) := by
  unfold State.fitRails
  repeat' first | with_reducible exact h | with_reducible assumption | (intro _) | (with_reducible apply State.fitRail_keeps) | with_reducible refine Keeps.foldl _ ?_ ?_

theorem State.gateTaken_keeps {s0 : Prop × State} {s : State} (h : Keeps s0 s) (a1 : Nat) (a2 : Nat) (a3 : Bool) :
    Keeps s0 (State.gateTaken s a1 a2 a3) := by
  unfold State.gateTaken
  repeat' first | with_reducible exact h | with_reducible assumption | (intro _) | (extract_lets +onlyGivenNames sx; clear_value (hsx : sx = _); refine Keeps.step (s0 := s0) hsx ?_ ?_; swap; intro _; clear hsx) | (extract_lets +onlyGivenNames sx; clear_value (hsx : sx = _); subst hsx) | (with_reducible apply State.markLate_keeps) | (with_reducible apply State.setGate_keeps) | (with_reducible apply State.swtBreak_keeps) | (with_reducible apply State.fitRails_keeps) | with_reducible apply Keeps.ite | with_reducible refine Keeps.foldl _ ?_ ?_

theorem State.gateWrite_keeps {s0 : Prop × State} {s : State} (h : Keeps s0 s) (a1 : Nat) (a2 : Nat) (a3 : Nat) (a4 : Nat) (a5 : Word) :
    Keeps s0 (State.gateWrite s a1 a2 a3 a4 a5) := by
  unfold State.gateWrite
  repeat' first | with_reducible exact h | with_reducible assumption | (intro _) | (extract_lets +onlyGivenNames sx; clear_value (hsx : sx = _); subst hsx) | (with_reducible apply State.gateRefuse_keeps) | (with_reducible apply State.gateTaken_keeps) | with_reducible apply Keeps.ite | with_reducible refine Keeps.foldl _ ?_ ?_

theorem State.latchWrite_keeps {s0 : Prop × State} {s : State} (h : Keeps s0 s) (a1 : Master) (a2 : Nat) (a3 : Nat) (a4 : Nat) :
    Keeps s0 (State.latchWrite s a1 a2 a3 a4).2 := by
  unfold State.latchWrite
  repeat' first | with_reducible exact h | (extract_lets +onlyGivenNames sx; clear_value (hsx : sx = _); subst hsx) | (with_reducible apply State.bump_keeps) | (with_reducible apply State.wr_keeps) | with_reducible apply Keeps.ite2

theorem State.setQState_keeps {s0 : Prop × State} {s : State} (h : Keeps s0 s) (a1 : Nat) (a2 : Nat) :
    Keeps s0 (State.setQState s a1 a2) := by
  unfold State.setQState
  repeat' first | with_reducible exact h | (with_reducible apply State.put_keeps)

theorem State.dmaStop_keeps {s0 : Prop × State} {s : State} (h : Keeps s0 s) (a1 : Nat) :
    Keeps s0 (State.dmaStop s a1) := by
  unfold State.dmaStop
  repeat' first | with_reducible exact h | (with_reducible apply State.setQState_keeps) | with_reducible apply Keeps.ite

theorem State.dmaCtrlWrite_keeps {s0 : Prop × State} {s : State} (h : Keeps s0 s) (a1 : Nat) (a2 : Word) :
    Keeps s0 (State.dmaCtrlWrite s a1 a2) := by
  unfold State.dmaCtrlWrite
  repeat' first | with_reducible exact h | with_reducible assumption | (extract_lets +onlyGivenNames sx; clear_value (hsx : sx = _); refine Keeps.step (s0 := s0) hsx ?_ ?_; swap; intro _; clear hsx) | (extract_lets +onlyGivenNames sx; clear_value (hsx : sx = _); subst hsx) | (with_reducible apply State.put_keeps) | (with_reducible apply State.setQState_keeps) | (with_reducible apply State.dmaStop_keeps) | with_reducible apply Keeps.ite

theorem State.dmaTailWrite_keeps {s0 : Prop × State} {s : State} (h : Keeps s0 s) (a1 : Nat) (a2 : Word) :
    Keeps s0 (State.dmaTailWrite s a1 a2) := by
  unfold State.dmaTailWrite
  repeat' first | with_reducible exact h | (extract_lets +onlyGivenNames sx; clear_value (hsx : sx = _); subst hsx) | (with_reducible apply State.raise_keeps) | (with_reducible apply State.put_keeps) | with_reducible apply Keeps.ite

theorem State.regWrite_keeps {s0 : Prop × State} {s : State} (h : Keeps s0 s) (a1 : Master) (a2 : Nat) (a3 : Word) :
    Keeps s0 (State.regWrite s a1 a2 a3).2 := by
  unfold State.regWrite
  repeat' first | with_reducible exact h | (with_reducible apply State.mbxWrite_keeps) | (with_reducible apply State.busOk_keeps) | (with_reducible apply State.mbxAckClear_keeps) | (with_reducible apply State.mbxAckcode_keeps) | (with_reducible apply State.strWrite_keeps) | (with_reducible apply State.walSwitchWrite_keeps) | (with_reducible apply State.lneCtrlWrite_keeps) | (with_reducible apply State.lneTestWrite_keeps) | (with_reducible apply State.lneFfeWrite_keeps) | (with_reducible apply State.lneRxWrite_keeps) | (with_reducible apply State.gateWrite_keeps) | (with_reducible apply State.latchWrite_keeps) | (with_reducible apply State.dmaCtrlWrite_keeps) | (with_reducible apply State.dmaTailWrite_keeps) | (with_reducible apply State.codeWrite_keeps) | with_reducible apply Keeps.ite2 | simp only [Keeps.any] | split

theorem State.busWrite_keeps {s0 : Prop × State} {s : State} (h : Keeps s0 s) (a1 : Master) (a2 : Nat) (a3 : Word) :
    Keeps s0 (State.busWrite s a1 a2 a3).2 := by
  unfold State.busWrite
  repeat' first | with_reducible exact h | (with_reducible apply State.busErr_keeps) | (with_reducible apply State.regWrite_keeps) | with_reducible apply Keeps.ite2

theorem State.access_keeps {s0 : Prop × State} {s : State} (h : Keeps s0 s) (a1 : Master) (a2 : Nat) (a3 : Word) :
    Keeps s0 (State.access s a1 a2 a3) := by
  unfold State.access
  repeat' first | with_reducible exact h | (with_reducible apply State.answered_keeps) | (with_reducible apply State.busWrite_keeps) | with_reducible apply Keeps.ite

theorem State.sticky_keeps {s0 : Prop × State} {s : State} (h : Keeps s0 s) (a1 : Nat) (a2 : Nat) :
    Keeps s0 (State.sticky s a1 a2) := by
  unfold State.sticky
  repeat' first | with_reducible exact h | with_reducible assumption | (extract_lets +onlyGivenNames sx; clear_value (hsx : sx = _); refine Keeps.step (s0 := s0) hsx ?_ ?_; swap; intro _; clear hsx) | (with_reducible apply State.raise_keeps) | (with_reducible apply State.report_keeps) | with_reducible apply Keeps.ite

theorem State.setTile_keeps {s0 : Prop × State} {s : State} (h : Keeps s0 s) (a1 : Nat) (a2 : Tile) :
    Keeps s0 (State.setTile s a1 a2) := by
  unfold State.setTile
  repeat' first | with_reducible exact h | (extract_lets +onlyGivenNames sx; clear_value (hsx : sx = _); subst hsx) | simp only [Keeps.any] | refine Keeps.core ?_ rfl rfl rfl rfl (fun _ => rfl) rfl

theorem State.stickyIf_keeps {s0 : Prop × State} {s : State} (h : Keeps s0 s) (a1 : Nat) (a2 : Nat) (a3 : Bool) :
    Keeps s0 (State.stickyIf s a1 a2 a3) := by
  unfold State.stickyIf
  repeat' first | with_reducible exact h | (with_reducible apply State.sticky_keeps) | with_reducible apply Keeps.ite

theorem State.land_keeps {s0 : Prop × State} {s : State} (h : Keeps s0 s) (a1 : Nat) (a2 : Landing) :
    Keeps s0 (State.land s a1 a2) := by
  unfold State.land
  repeat' first | with_reducible exact h | (extract_lets +onlyGivenNames sx; clear_value (hsx : sx = _); subst hsx) | (with_reducible apply State.setTile_keeps) | (with_reducible apply State.stickyIf_keeps) | with_reducible apply Keeps.ite | simp only [Keeps.any] | split

theorem State.tickLand_keeps {s0 : Prop × State} {s : State} (h : Keeps s0 s) (a1 : Nat) :
    Keeps s0 (State.tickLand s a1) := by
  unfold State.tickLand
  repeat' first | with_reducible exact h | with_reducible assumption | (intro _) | (extract_lets +onlyGivenNames sx; clear_value (hsx : sx = _); refine Keeps.step (s0 := s0) hsx ?_ ?_; swap; intro _; clear hsx) | (extract_lets +onlyGivenNames sx; clear_value (hsx : sx = _); subst hsx) | (with_reducible apply State.setTile_keeps) | (with_reducible apply State.land_keeps) | with_reducible refine Keeps.foldl _ ?_ ?_

theorem State.takeIn_keeps {s0 : Prop × State} {s : State} (h : Keeps s0 s) (a1 : Nat) (a2 : Nat) :
    Keeps s0 (State.takeIn s a1 a2) := by
  unfold State.takeIn
  repeat' first | with_reducible exact h | (extract_lets +onlyGivenNames sx; clear_value (hsx : sx = _); subst hsx) | (with_reducible apply State.setTile_keeps) | split

theorem State.removeSeams_keeps {s0 : Prop × State} {s : State} (h : Keeps s0 s) (a1 : Nat) (a2 : Nat) :
    Keeps s0 (State.removeSeams s a1 a2).2 := by
  unfold State.removeSeams
  repeat' first | with_reducible exact h | with_reducible assumption | (intro _) | (with_reducible apply State.takeIn_keeps) | with_reducible refine Keeps.foldl2 _ ?_ ?_

theorem State.setOut_keeps {s0 : Prop × State} {s : State} (h : Keeps s0 s) (a1 : Nat) (a2 : Nat) (a3 : List Elem) :
    Keeps s0 (State.setOut s a1 a2 a3) := by
  unfold State.setOut
  repeat' first | with_reducible exact h | (extract_lets +onlyGivenNames sx; clear_value (hsx : sx = _); subst hsx) | (with_reducible apply State.setTile_keeps)

theorem State.queueOut_keeps {s0 : Prop × State} {s : State} (h : Keeps s0 s) (a1 : Nat) (a2 : Nat) (a3 : Elem) :
    Keeps s0 (State.queueOut s a1 a2 a3) := by
  unfold State.queueOut
  repeat' first | with_reducible exact h | (with_reducible apply State.setOut_keeps)

theorem State.sendSeam_keeps {s0 : Prop × State} {s : State} (h : Keeps s0 s) (a1 : Nat) (a2 : Nat) (a3 : Nat) :
    Keeps s0 (State.sendSeam s a1 a2 a3) := by
  unfold State.sendSeam
  repeat' first | with_reducible exact h | with_reducible assumption | (intro _) | (extract_lets +onlyGivenNames sx; clear_value (hsx : sx = _); refine Keeps.step (s0 := s0) hsx ?_ ?_; swap; intro _; clear hsx) | (extract_lets +onlyGivenNames sx; clear_value (hsx : sx = _); subst hsx) | (with_reducible apply State.queueOut_keeps) | (with_reducible apply State.setTile_keeps) | with_reducible refine Keeps.foldl _ ?_ ?_

theorem State.passSeams_keeps {s0 : Prop × State} {s : State} (h : Keeps s0 s) (a1 : Nat) (a2 : Nat) :
    Keeps s0 (State.passSeams s a1 a2) := by
  unfold State.passSeams
  repeat' first | with_reducible exact h | (with_reducible apply State.removeSeams_keeps) | (with_reducible apply State.sendSeam_keeps) | with_reducible refine Keeps.of_snd (by assumption) ?_ | split

theorem State.riserTouch_keeps {s0 : Prop × State} {s : State} (h : Keeps s0 s) (a1 : Nat) (a2 : Nat) :
    Keeps s0 (State.riserTouch s a1 a2) := by
  unfold State.riserTouch
  repeat' first | with_reducible exact h | (extract_lets +onlyGivenNames sx; clear_value (hsx : sx = _); subst hsx) | (with_reducible apply State.swtAbandon_keeps) | with_reducible apply Keeps.ite | simp only [Keeps.any] | refine Keeps.core ?_ rfl rfl rfl rfl (fun _ => rfl) rfl

theorem State.activate_keeps {s0 : Prop × State} {s : State} (h : Keeps s0 s) (a1 : Nat) (a2 : Nat) :
    Keeps s0 (State.activate s a1 a2) := by
  unfold State.activate
  repeat' first | with_reducible exact h | with_reducible assumption | (intro _) | (extract_lets +onlyGivenNames sx; clear_value (hsx : sx = _); refine Keeps.step (s0 := s0) hsx ?_ ?_; swap; intro _; clear hsx) | (extract_lets +onlyGivenNames sx; clear_value (hsx : sx = _); subst hsx) | (with_reducible apply State.put_keeps) | (with_reducible apply State.setBit_keeps) | (with_reducible apply State.sticky_keeps) | (with_reducible apply State.tickLand_keeps) | (with_reducible apply State.setTile_keeps) | (with_reducible apply State.passSeams_keeps) | (with_reducible apply State.riserTouch_keeps) | with_reducible apply Keeps.ite | with_reducible refine Keeps.foldl _ ?_ ?_

theorem State.addChanges_keeps {s0 : Prop × State} {s : State} (h : Keeps s0 s) (a1 : List RouteChange) :
    Keeps s0 (State.addChanges s a1) := by
  unfold State.addChanges
  repeat' first | with_reducible exact h | (extract_lets +onlyGivenNames sx; clear_value (hsx : sx = _); subst hsx) | simp only [Keeps.any] | refine Keeps.core ?_ rfl rfl rfl rfl (fun _ => rfl) rfl

theorem State.advance_keeps {s0 : Prop × State} {s : State} (h : Keeps s0 s) (a1 : Nat) :
    Keeps s0 (State.advance s a1) := by
  unfold State.advance
  repeat' first | with_reducible exact h | (extract_lets +onlyGivenNames sx; clear_value (hsx : sx = _); subst hsx) | (with_reducible apply State.setTile_keeps) | (with_reducible apply State.setBit_keeps) | (with_reducible apply State.passSeams_keeps) | with_reducible apply Keeps.ite

theorem State.aer_keeps {s0 : Prop × State} {s : State} (h : Keeps s0 s) (a1 : AerErr) (a2 : Option BarReq) :
    Keeps s0 (State.aer s a1 a2) := by
  unfold State.aer
  repeat' first | with_reducible exact h | (extract_lets +onlyGivenNames sx; clear_value (hsx : sx = _); subst hsx) | simp only [Keeps.any] | refine Keeps.core ?_ rfl rfl rfl rfl (fun _ => rfl) rfl

theorem State.sendBorder_keeps {s0 : Prop × State} {s : State} (h : Keeps s0 s) (a1 : Nat) :
    Keeps s0 (State.sendBorder s a1) := by
  unfold State.sendBorder
  repeat' first | with_reducible exact h | (extract_lets +onlyGivenNames sx; clear_value (hsx : sx = _); subst hsx) | simp only [Keeps.any] | refine Keeps.core ?_ rfl rfl rfl rfl (fun _ => rfl) rfl

theorem State.afterEdge_keeps {s0 : Prop × State} {s : State} (h : Keeps s0 s) (a1 : Nat) :
    Keeps s0 (State.afterEdge s a1) := by
  unfold State.afterEdge
  repeat' first | with_reducible exact h | (with_reducible apply State.netDrawn_keeps) | (with_reducible apply State.sendBorder_keeps) | (with_reducible apply State.asyncSettle_keeps)

theorem State.airMissed_keeps {s0 : Prop × State} {s : State} (h : Keeps s0 s) (a1 : SwSrc) (a2 : Nat) :
    Keeps s0 (State.airMissed s a1 a2) := by
  unfold State.airMissed
  repeat' first | with_reducible exact h | (with_reducible apply State.bump_keeps) | split

theorem State.setPlaneOrders_keeps {s0 : Prop × State} {s : State} (h : Keeps s0 s) (a1 : Nat) (a2 : List PlaneOrder) :
    Keeps s0 (State.setPlaneOrders s a1 a2) := by
  unfold State.setPlaneOrders
  repeat' first | with_reducible exact h | (extract_lets +onlyGivenNames sx; clear_value (hsx : sx = _); subst hsx) | simp only [Keeps.any] | refine Keeps.core ?_ rfl rfl rfl rfl (fun _ => rfl) rfl

theorem State.orderSheet_keeps {s0 : Prop × State} {s : State} (h : Keeps s0 s) (a1 : Nat) (a2 : Nat) (a3 : Nat) (a4 : SwSrc) :
    Keeps s0 (State.orderSheet s a1 a2 a3 a4) := by
  unfold State.orderSheet
  repeat' first | with_reducible exact h | (extract_lets +onlyGivenNames sx; clear_value (hsx : sx = _); subst hsx) | (with_reducible apply State.setPlaneOrders_keeps)

theorem State.airPlane_keeps {s0 : Prop × State} {s : State} (h : Keeps s0 s) (a1 : AirDue) :
    Keeps s0 (State.airPlane s a1) := by
  unfold State.airPlane
  repeat' first | with_reducible exact h | with_reducible assumption | (intro _) | (with_reducible apply State.airMissed_keeps) | (with_reducible apply State.orderSheet_keeps) | with_reducible apply Keeps.ite | with_reducible refine Keeps.foldl _ ?_ ?_ | split

end Sys2Proof.Machine
end

