-- ==== Sys2Proof/Laws/KeepsOps2.lean ====
section
/-! SUPPORT. What the shared operations keep (2 of 5): one lemma per operation, each citing those of the operations it is made of. -/

namespace Sys2Proof.Machine

theorem State.airPattern_keeps {s0 : Prop × State} {s : State} (h : Keeps s0 s) (a1 : AirDue) :
    Keeps s0 (State.airPattern s a1) := by
  unfold State.airPattern
  repeat' first | with_reducible exact h | with_reducible assumption | (intro _) | (extract_lets +onlyGivenNames sx; clear_value (hsx : sx = _); subst hsx) | (with_reducible apply State.airMissed_keeps) | (with_reducible apply State.orderWale_keeps) | with_reducible apply Keeps.ite | with_reducible refine Keeps.foldl _ ?_ ?_

theorem State.strSettle_keeps {s0 : Prop × State} {s : State} (h : Keeps s0 s) (a1 : Nat) :
    Keeps s0 (State.strSettle s a1) := by
  unfold State.strSettle
  repeat' first | with_reducible exact h | (extract_lets +onlyGivenNames sx; clear_value (hsx : sx = _); subst hsx) | (with_reducible apply State.setStream_keeps)

theorem State.strSeam_keeps {s0 : Prop × State} {s : State} (h : Keeps s0 s) (a1 : Nat) :
    Keeps s0 (State.strSeam s a1) := by
  unfold State.strSeam
  repeat' first | with_reducible exact h | (extract_lets +onlyGivenNames sx; clear_value (hsx : sx = _); subst hsx) | (with_reducible apply State.setStream_keeps) | with_reducible apply Keeps.ite

theorem State.strCount_keeps {s0 : Prop × State} {s : State} (h : Keeps s0 s) (a1 : Nat) (a2 : Nat) (a3 : Nat) :
    Keeps s0 (State.strCount s a1 a2 a3) := by
  unfold State.strCount
  repeat' first | with_reducible exact h | (with_reducible apply State.bump_keeps)

theorem State.strLoss_keeps {s0 : Prop × State} {s : State} (h : Keeps s0 s) (a1 : Nat) (a2 : Nat) :
    Keeps s0 (State.strLoss s a1 a2) := by
  unfold State.strLoss
  repeat' first | with_reducible exact h | (with_reducible apply State.report_keeps) | (with_reducible apply State.strCount_keeps)

theorem State.strRelease_keeps {s0 : Prop × State} {s : State} (h : Keeps s0 s) (n : Nat) (a b : Bool) : ∀ t, s.strRelease n a b = some t → Keeps s0 t := by
  intro t e
  unfold State.strRelease at e
  have h1 : Keeps s0 (s.strSettle n) := State.strSettle_keeps h n
  dsimp only at e
  generalize s.strSettle n = v at e h1
  split at e
  · cases e
  · split at e
    · cases e; exact State.strSeam_keeps h1 _
    · cases e
      refine State.setStream_keeps ?_ _ _
      split
      · exact State.strLoss_keeps h1 _ _
      · exact h1

theorem State.airSlot_keeps {s0 : Prop × State} {s : State} (h : Keeps s0 s) (a1 : Word) (a2 : Nat) :
    Keeps s0 (State.airSlot s a1 a2) := by
  unfold State.airSlot
  repeat' first | with_reducible exact h | with_reducible assumption | (intro _) | (extract_lets +onlyGivenNames sx; clear_value (hsx : sx = _); subst hsx) | (with_reducible refine Keeps.of_some (by assumption) (State.strRelease_keeps ?_ _ _ _)) | (with_reducible apply State.bump_keeps) | with_reducible apply Keeps.ite | with_reducible refine Keeps.foldl _ ?_ ?_ | simp only [Keeps.any] | refine Keeps.core ?_ rfl rfl rfl rfl (fun _ => rfl) rfl | split

theorem State.airRelease_keeps {s0 : Prop × State} {s : State} (h : Keeps s0 s) (a1 : AirDue) :
    Keeps s0 (State.airRelease s a1) := by
  unfold State.airRelease
  repeat' first | with_reducible exact h | with_reducible assumption | (intro _) | (with_reducible apply State.airSlot_keeps) | with_reducible refine Keeps.foldl _ ?_ ?_

theorem State.setJsdLink_keeps {s0 : Prop × State} {s : State} (h : Keeps s0 s) (a1 : Nat) (a2 : JsdLink) :
    Keeps s0 (State.setJsdLink s a1 a2) := by
  unfold State.setJsdLink
  repeat' first | with_reducible exact h | (extract_lets +onlyGivenNames sx; clear_value (hsx : sx = _); subst hsx) | simp only [Keeps.any] | refine Keeps.core ?_ rfl rfl rfl rfl (fun _ => rfl) rfl

theorem State.muteLinks_keeps {s0 : Prop × State} {s : State} (h : Keeps s0 s) (a1 : Nat) (a2 : Bool) (a3 : Nat) :
    Keeps s0 (State.muteLinks s a1 a2 a3) := by
  unfold State.muteLinks
  repeat' first | with_reducible exact h | with_reducible assumption | (intro _) | (extract_lets +onlyGivenNames sx; clear_value (hsx : sx = _); refine Keeps.step (s0 := s0) hsx ?_ ?_; swap; intro _; clear hsx) | (with_reducible apply State.bump_keeps) | (with_reducible apply State.setJsdLink_keeps) | with_reducible apply Keeps.ite | with_reducible refine Keeps.foldl _ ?_ ?_

theorem State.airMute_keeps {s0 : Prop × State} {s : State} (h : Keeps s0 s) (a1 : AirDue) :
    Keeps s0 (State.airMute s a1) := by
  unfold State.airMute
  repeat' first | with_reducible exact h | (with_reducible apply State.muteLinks_keeps)

theorem State.pinSlot_keeps {s0 : Prop × State} {s : State} (h : Keeps s0 s) (a1 : Word) :
    Keeps s0 (State.pinSlot s a1) := by
  unfold State.pinSlot
  repeat' first | with_reducible exact h | (extract_lets +onlyGivenNames sx; clear_value (hsx : sx = _); subst hsx) | (with_reducible apply State.bump_keeps) | with_reducible apply Keeps.ite | simp only [Keeps.any] | refine Keeps.core ?_ rfl rfl rfl rfl (fun _ => rfl) rfl

theorem State.airPins_keeps {s0 : Prop × State} {s : State} (h : Keeps s0 s) (a1 : AirDue) :
    Keeps s0 (State.airPins s a1) := by
  unfold State.airPins
  repeat' first | with_reducible exact h | with_reducible assumption | (intro _) | (with_reducible apply State.pinSlot_keeps) | with_reducible refine Keeps.foldl _ ?_ ?_

theorem State.setAir_keeps {s0 : Prop × State} {s : State} (h : Keeps s0 s) (a1 : Air) :
    Keeps s0 (State.setAir s a1) := by
  unfold State.setAir
  repeat' first | with_reducible exact h | simp only [Keeps.any] | refine Keeps.core ?_ rfl rfl rfl rfl (fun _ => rfl) rfl

theorem State.setTap_keeps {s0 : Prop × State} {s : State} (h : Keeps s0 s) (a1 : Nat) (a2 : Option Tap) :
    Keeps s0 (State.setTap s a1 a2) := by
  unfold State.setTap
  repeat' first | with_reducible exact h | (extract_lets +onlyGivenNames sx; clear_value (hsx : sx = _); subst hsx) | (with_reducible apply State.setBit_keeps) | (with_reducible apply State.setAir_keeps)

theorem State.airSample_keeps {s0 : Prop × State} {s : State} (h : Keeps s0 s) (a1 : AirDue) :
    Keeps s0 (State.airSample s a1) := by
  unfold State.airSample
  repeat' first | with_reducible exact h | (extract_lets +onlyGivenNames sx; clear_value (hsx : sx = _); subst hsx) | (with_reducible apply State.bump_keeps) | (with_reducible apply State.setTap_keeps) | with_reducible apply Keeps.ite

theorem State.yarnTime_keeps {s0 : Prop × State} {s : State} (h : Keeps s0 s) (a1 : Nat) (a2 : YarnUnit) :
    Keeps s0 (State.yarnTime s a1 a2) := by
  unfold State.yarnTime
  repeat' first | with_reducible exact h | (extract_lets +onlyGivenNames sx; clear_value (hsx : sx = _); subst hsx) | (with_reducible apply State.setYport_keeps) | with_reducible apply Keeps.ite

theorem State.bcastAdd_keeps {s0 : Prop × State} {s : State} (h : Keeps s0 s) (a1 : AirBcast) :
    Keeps s0 (State.bcastAdd s a1) := by
  unfold State.bcastAdd
  repeat' first | with_reducible exact h | (extract_lets +onlyGivenNames sx; clear_value (hsx : sx = _); subst hsx) | (with_reducible apply State.setAir_keeps) | with_reducible apply Keeps.ite

theorem State.airCascade_keeps {s0 : Prop × State} {s : State} (h : Keeps s0 s) (a1 : AirDue) :
    Keeps s0 (State.airCascade s a1) := by
  unfold State.airCascade
  repeat' first | with_reducible exact h | with_reducible assumption | (extract_lets +onlyGivenNames sx; clear_value (hsx : sx = _); refine Keeps.step (s0 := s0) hsx ?_ ?_; swap; intro _; clear hsx) | (extract_lets +onlyGivenNames sx; clear_value (hsx : sx = _); subst hsx) | (with_reducible apply State.yarnTime_keeps) | (with_reducible apply State.bump_keeps) | (with_reducible apply State.bcastAdd_keeps) | with_reducible apply Keeps.ite

theorem State.airAct_keeps {s0 : Prop × State} {s : State} (h : Keeps s0 s) (a1 : AirDue) :
    Keeps s0 (State.airAct s a1) := by
  unfold State.airAct
  repeat' first | with_reducible exact h | (with_reducible apply State.airPlane_keeps) | (with_reducible apply State.airPattern_keeps) | (with_reducible apply State.airRelease_keeps) | (with_reducible apply State.airMute_keeps) | (with_reducible apply State.airPins_keeps) | (with_reducible apply State.airSample_keeps) | (with_reducible apply State.airCascade_keeps) | split

theorem State.airDone_keeps {s0 : Prop × State} {s : State} (h : Keeps s0 s) :
    Keeps s0 (State.airDone s) := by
  unfold State.airDone
  repeat' first | with_reducible exact h | (with_reducible apply State.bump_keeps)

theorem State.ringPut_keeps {s0 : Prop × State} {s : State} (h : Keeps s0 s) (n p : Nat) (e : Elem) : Keeps s0 (s.ringPut n p e) :=
  Keeps.store h (fun x => swf_sset _ _ _ (foldl_keeps (P := fun m => swf (fun _ => (0 : Byte)) m = true) (fun _ _ hm => swf_sset _ _ _ hm) _ x))

theorem State.strOffer.intoRing_keeps {s0 : Prop × State} {s : State} (h : Keeps s0 s) (a1 : Nat) (a2 : Option Nat) (a3 : Elem) (a4 : Stream) (a5 : Bool) :
    Keeps s0 (State.strOffer.intoRing a1 a2 a3 s a4 a5).2 := by
  unfold State.strOffer.intoRing
  repeat' first | with_reducible exact h | with_reducible assumption | (extract_lets +onlyGivenNames sx; clear_value (hsx : sx = _); refine Keeps.step (s0 := s0) hsx ?_ ?_; swap; intro _; clear hsx) | (extract_lets +onlyGivenNames sx; clear_value (hsx : sx = _); subst hsx) | (with_reducible apply State.strLoss_keeps) | (with_reducible apply State.setStream_keeps) | (with_reducible apply State.ringPut_keeps) | with_reducible apply Keeps.ite2

theorem State.strNumber_keeps {s0 : Prop × State} {s : State} (h : Keeps s0 s) (a1 : Nat) :
    Keeps s0 (State.strNumber s a1).2 := by
  unfold State.strNumber
  repeat' first | with_reducible exact h | (extract_lets +onlyGivenNames sx; clear_value (hsx : sx = _); subst hsx) | (with_reducible apply State.strCount_keeps) | (with_reducible apply State.setStream_keeps)

theorem State.strSend.advance_keeps {s0 : Prop × State} {s : State} (h : Keeps s0 s) (a1 : Nat) (a2 : Stream) (a3 : Nat) (a4 : Elem) (a5 : Bool) :
    Keeps s0 (State.strSend.advance a1 s a2 a3 a4 a5).2 := by
  unfold State.strSend.advance
  repeat' first | with_reducible exact h | with_reducible assumption | (extract_lets +onlyGivenNames sx; clear_value (hsx : sx = _); refine Keeps.step (s0 := s0) hsx ?_ ?_; swap; intro _; clear hsx) | (extract_lets +onlyGivenNames sx; clear_value (hsx : sx = _); subst hsx) | (with_reducible apply State.setStream_keeps) | (with_reducible apply State.strLoss_keeps) | with_reducible apply Keeps.ite

theorem State.strSend.next_keeps {s0 : Prop × State} {s : State} (h : Keeps s0 s) (a1 : Nat) (a2 : Bool) (a3 : Stream) (a4 : Nat) (a5 : Bool) :
    Keeps s0 (State.strSend.next a1 a2 s a3 a4 a5).2 := by
  unfold State.strSend.next
  repeat' first | with_reducible exact h | (extract_lets +onlyGivenNames sx; clear_value (hsx : sx = _); subst hsx) | (with_reducible apply State.setStream_keeps) | (with_reducible apply State.strNumber_keeps) | (with_reducible apply State.strSend.advance_keeps) | with_reducible apply Keeps.ite2 | simp only [Keeps.any] | split

theorem State.strSend_keeps {s0 : Prop × State} {s : State} (h : Keeps s0 s) (a1 : Nat) (a2 : Bool) (a3 : Bool) :
    Keeps s0 (State.strSend s a1 a2 a3).2 := by
  unfold State.strSend
  repeat' first | with_reducible exact h | (extract_lets +onlyGivenNames sx; clear_value (hsx : sx = _); subst hsx) | (with_reducible apply State.strNumber_keeps) | (with_reducible apply State.setStream_keeps) | (with_reducible apply State.strSend.next_keeps) | with_reducible apply Keeps.ite2 | simp only [Keeps.any] | split

theorem State.strFlit_keeps {s0 : Prop × State} {s : State} (h : Keeps s0 s) (a1 : Nat) (a2 : Nat) :
    Keeps s0 (State.strFlit s a1 a2) := by
  unfold State.strFlit
  repeat' first | with_reducible exact h | with_reducible assumption | (extract_lets +onlyGivenNames sx; clear_value (hsx : sx = _); refine Keeps.step (s0 := s0) hsx ?_ ?_; swap; intro _; clear hsx) | (extract_lets +onlyGivenNames sx; clear_value (hsx : sx = _); subst hsx) | (with_reducible apply State.setStream_keeps)

theorem State.strPush_keeps {s0 : Prop × State} {s : State} (h : Keeps s0 s) (a1 : Nat) (a2 : Elem) :
    Keeps s0 (State.strPush s a1 a2) := by
  unfold State.strPush
  repeat' first | with_reducible exact h | with_reducible assumption | (extract_lets +onlyGivenNames sx; clear_value (hsx : sx = _); refine Keeps.step (s0 := s0) hsx ?_ ?_; swap; intro _; clear hsx) | (extract_lets +onlyGivenNames sx; clear_value (hsx : sx = _); subst hsx) | (with_reducible apply State.setStream_keeps) | (with_reducible apply State.strCount_keeps) | with_reducible apply Keeps.ite

theorem State.strHop_keeps {s0 : Prop × State} {s : State} (h : Keeps s0 s) (a1 : Nat) (a2 : Bool) (a3 : Bool) :
    Keeps s0 (State.strHop s a1 a2 a3) := by
  unfold State.strHop
  repeat' first | with_reducible exact h | (with_reducible apply State.strSend_keeps) | (with_reducible apply State.strFlit_keeps) | (with_reducible apply State.strPush_keeps) | (with_reducible apply State.setStream_keeps) | with_reducible apply Keeps.ite | simp only [Keeps.any] | with_reducible refine Keeps.of_snd (by assumption) ?_ | split

theorem State.strAhead_keeps {s0 : Prop × State} {s : State} (h : Keeps s0 s) (n k : Nat) : Keeps s0 (s.strAhead n k) := by
  induction k generalizing s with
  | zero => exact h
  | succ k ih => exact ih (State.strHop_keeps h _ _ _)

theorem State.strOffer.lose_keeps {s0 : Prop × State} {s : State} (h : Keeps s0 s) (a1 : Nat) (a2 : Stream) (a3 : Bool) :
    Keeps s0 (State.strOffer.lose a1 s a2 a3).2 := by
  unfold State.strOffer.lose
  repeat' first | with_reducible exact h | (with_reducible apply State.strLoss_keeps) | (with_reducible apply State.setStream_keeps) | with_reducible apply Keeps.ite2

theorem State.strPass_keeps {s0 : Prop × State} {s : State} (h : Keeps s0 s) (a1 : Nat) (a2 : Elem) :
    Keeps s0 (State.strPass s a1 a2) := by
  unfold State.strPass
  repeat' first | with_reducible exact h | (extract_lets +onlyGivenNames sx; clear_value (hsx : sx = _); subst hsx) | (with_reducible apply State.strPush_keeps) | (with_reducible apply State.strNumber_keeps) | (with_reducible apply State.setStream_keeps) | with_reducible apply Keeps.ite

theorem State.strOffer.direct_keeps {s0 : Prop × State} {s : State} (h : Keeps s0 s) (a1 : Nat) (a2 : Elem) (a3 : Stream) (a4 : Bool) :
    Keeps s0 (State.strOffer.direct a1 a2 s a3 a4).2 := by
  unfold State.strOffer.direct
  repeat' first | with_reducible exact h | with_reducible assumption | (extract_lets +onlyGivenNames sx; clear_value (hsx : sx = _); refine Keeps.step (s0 := s0) hsx ?_ ?_; swap; intro _; clear hsx) | (with_reducible apply State.strAhead_keeps) | (with_reducible apply State.strOffer.lose_keeps) | (with_reducible apply State.strFlit_keeps) | (with_reducible apply State.strPass_keeps) | with_reducible apply Keeps.ite2

theorem State.strOffer_keeps {s0 : Prop × State} {s : State} (h : Keeps s0 s) (a1 : Nat) (a2 : Option Nat) (a3 : Elem) :
    Keeps s0 (State.strOffer s a1 a2 a3).2 := by
  unfold State.strOffer
  repeat' first | with_reducible exact h | with_reducible assumption | (extract_lets +onlyGivenNames sx; clear_value (hsx : sx = _); refine Keeps.step (s0 := s0) hsx ?_ ?_; swap; intro _; clear hsx) | (extract_lets +onlyGivenNames sx; clear_value (hsx : sx = _); subst hsx) | (with_reducible apply State.strSettle_keeps) | (with_reducible apply State.strCount_keeps) | (with_reducible apply State.setStream_keeps) | (with_reducible apply State.strOffer.intoRing_keeps) | (with_reducible apply State.strOffer.direct_keeps) | with_reducible apply Keeps.ite2 | split

theorem State.flowSend_keeps {s0 : Prop × State} {s : State} (h : Keeps s0 s) (a1 : Nat) (a2 : List Elem) :
    Keeps s0 (State.flowSend s a1 a2) := by
  unfold State.flowSend
  repeat' first | with_reducible exact h | with_reducible assumption | (intro _) | (with_reducible apply State.strOffer_keeps) | with_reducible refine Keeps.foldl _ ?_ ?_ | split

theorem State.sendSet_keeps {s0 : Prop × State} {s : State} (h : Keeps s0 s) (a1 : Nat) (a2 : WeightSet) :
    Keeps s0 (State.sendSet s a1 a2) := by
  unfold State.sendSet
  repeat' first | with_reducible exact h | (extract_lets +onlyGivenNames sx; clear_value (hsx : sx = _); subst hsx) | (with_reducible apply State.flowSend_keeps)

theorem State.setFhe_keeps {s0 : Prop × State} {s : State} (h : Keeps s0 s) (a1 : Fhe) :
    Keeps s0 (State.setFhe s a1) := by
  unfold State.setFhe
  repeat' first | with_reducible exact h | (extract_lets +onlyGivenNames sx; clear_value (hsx : sx = _); subst hsx) | simp only [Keeps.any] | refine Keeps.core ?_ rfl rfl rfl rfl (fun _ => rfl) rfl

theorem State.setWset_keeps {s0 : Prop × State} {s : State} (h : Keeps s0 s) (a1 : Nat) (a2 : Option WeightSet) :
    Keeps s0 (State.setWset s a1 a2) := by
  unfold State.setWset
  repeat' first | with_reducible exact h | (extract_lets +onlyGivenNames sx; clear_value (hsx : sx = _); subst hsx) | (with_reducible apply State.setFhe_keeps)

theorem State.setsDue_keeps {s0 : Prop × State} {s : State} (h : Keeps s0 s) :
    Keeps s0 (State.setsDue s) := by
  unfold State.setsDue
  repeat' first | with_reducible exact h | with_reducible assumption | (intro _) | (with_reducible apply State.sendSet_keeps) | (with_reducible apply State.setWset_keeps) | with_reducible apply Keeps.ite | with_reducible refine Keeps.foldl _ ?_ ?_ | split

theorem State.airActDue_keeps {s0 : Prop × State} {s : State} (h : Keeps s0 s) :
    Keeps s0 (State.airActDue s) := by
  unfold State.airActDue
  repeat' first | with_reducible exact h | with_reducible assumption | (intro _) | (extract_lets +onlyGivenNames sx; clear_value (hsx : sx = _); subst hsx) | (with_reducible apply State.airAct_keeps) | (with_reducible apply State.airDone_keeps) | (with_reducible apply State.setAir_keeps) | (with_reducible apply State.setsDue_keeps) | with_reducible apply Keeps.ite | with_reducible refine Keeps.foldl _ ?_ ?_

theorem State.airRedispatch_keeps {s0 : Prop × State} {s : State} (h : Keeps s0 s) (a1 : Nat) :
    Keeps s0 (State.airRedispatch s a1) := by
  unfold State.airRedispatch
  repeat' first | with_reducible exact h | (extract_lets +onlyGivenNames sx; clear_value (hsx : sx = _); subst hsx) | (with_reducible apply State.setAir_keeps) | with_reducible apply Keeps.ite

theorem State.airCancelSwap_keeps {s0 : Prop × State} {s : State} (h : Keeps s0 s) :
    Keeps s0 (State.airCancelSwap s) := by
  unfold State.airCancelSwap
  repeat' first | with_reducible exact h | (with_reducible apply State.airRedispatch_keeps) | (with_reducible apply State.completeOpt_keeps) | (with_reducible apply State.put_keeps) | (with_reducible apply State.setAir_keeps) | with_reducible apply Keeps.ite | simp only [Keeps.any] | split

theorem State.airExchange_keeps {s0 : Prop × State} {s : State} (h : Keeps s0 s) :
    Keeps s0 (State.airExchange s) := by
  unfold State.airExchange
  repeat' first | with_reducible exact h | with_reducible assumption | (extract_lets +onlyGivenNames sx; clear_value (hsx : sx = _); refine Keeps.step (s0 := s0) hsx ?_ ?_; swap; intro _; clear hsx) | (extract_lets +onlyGivenNames sx; clear_value (hsx : sx = _); subst hsx) | (with_reducible apply State.put_keeps) | (with_reducible apply State.bump_keeps) | with_reducible apply Keeps.ite

theorem State.airHalt_keeps {s0 : Prop × State} {s : State} (h : Keeps s0 s) (a1 : Nat) :
    Keeps s0 (State.airHalt s a1) := by
  unfold State.airHalt
  repeat' first | with_reducible exact h | with_reducible assumption | (extract_lets +onlyGivenNames sx; clear_value (hsx : sx = _); refine Keeps.step (s0 := s0) hsx ?_ ?_; swap; intro _; clear hsx) | (extract_lets +onlyGivenNames sx; clear_value (hsx : sx = _); subst hsx) | (with_reducible apply State.airCancelSwap_keeps) | (with_reducible apply State.setAir_keeps) | (with_reducible apply State.muteLinks_keeps) | (with_reducible apply State.put_keeps) | simp only [Keeps.any] | refine Keeps.core ?_ rfl rfl rfl rfl (fun _ => rfl) rfl

theorem State.airSealStart_keeps {s0 : Prop × State} {s : State} (h : Keeps s0 s) (a1 : AirSeal) :
    Keeps s0 (State.airSealStart s a1) := by
  unfold State.airSealStart
  repeat' first | with_reducible exact h | (extract_lets +onlyGivenNames sx; clear_value (hsx : sx = _); subst hsx) | (with_reducible apply State.put_keeps) | (with_reducible apply State.setAir_keeps)

theorem State.airStopNow_keeps {s0 : Prop × State} {s : State} (h : Keeps s0 s) :
    Keeps s0 (State.airStopNow s) := by
  unfold State.airStopNow
  repeat' first | with_reducible exact h | with_reducible assumption | (intro _) | (extract_lets +onlyGivenNames sx; clear_value (hsx : sx = _); refine Keeps.step (s0 := s0) hsx ?_ ?_; swap; intro _; clear hsx) | (extract_lets +onlyGivenNames sx; clear_value (hsx : sx = _); subst hsx) | (with_reducible apply State.airAct_keeps) | (with_reducible apply State.airDone_keeps) | (with_reducible apply State.airHalt_keeps) | (with_reducible apply State.complete_keeps) | with_reducible apply Keeps.ite | with_reducible refine Keeps.foldl _ ?_ ?_ | split

theorem State.reach_keeps {s0 : Prop × State} {s : State} (h : Keeps s0 s) (a1 : Nat) :
    Keeps s0 (State.reach s a1) := by
  unfold State.reach
  repeat' first | with_reducible exact h | simp only [Keeps.any] | refine Keeps.core ?_ rfl rfl rfl rfl (fun _ => rfl) rfl

theorem State.airTake_keeps {s0 : Prop × State} {s : State} (h : Keeps s0 s) (a : Nat) : ∀ t, s.airTake a = some t → Keeps s0 t.2 := by
  intro t e
  unfold State.airTake at e
  split at e
  · dsimp only at e
    rw [Option.ite_none_right_eq_some] at e
    obtain ⟨-, e⟩ := e
    cases e
    exact State.airDone_keeps (State.setsDue_keeps (State.reach_keeps (State.setAir_keeps h _) _))
  · cases e

theorem State.tmemCleared_keeps {s0 : Prop × State} {s : State} (h : Keeps s0 s) (t : Nat) : Keeps s0 (s.tmemCleared t) :=
  ⟨h.pending, h.regs, fun x => ⟨(h.mem x).1, (h.mem x).2.1, swf_sfilter _ (fun k => decide (k / 2 ^ 17 ≠ t)) (h.mem x).2.2.1, (h.mem x).2.2.2.1, (h.mem x).2.2.2.2⟩, h.dat⟩

theorem State.restartTile_keeps {s0 : Prop × State} {s : State} (h : Keeps s0 s) (a1 : Nat) :
    Keeps s0 (State.restartTile s a1) := by
  unfold State.restartTile
  repeat' first | with_reducible exact h | with_reducible assumption | (intro _) | (extract_lets +onlyGivenNames sx; clear_value (hsx : sx = _); refine Keeps.step (s0 := s0) hsx ?_ ?_; swap; intro _; clear hsx) | (extract_lets +onlyGivenNames sx; clear_value (hsx : sx = _); subst hsx) | (with_reducible apply State.queueOut_keeps) | (with_reducible apply State.setTile_keeps) | with_reducible refine Keeps.foldl _ ?_ ?_

theorem State.tileInit_keeps {s0 : Prop × State} {s : State} (h : Keeps s0 s) (t : Nat) : Keeps s0 (s.tileInit t) := by
  unfold State.tileInit
  repeat' first | with_reducible exact h | with_reducible assumption | (extract_lets +onlyGivenNames sx; clear_value (hsx : sx = _); refine Keeps.step (s0 := s0) hsx ?_ ?_; swap; intro _; clear hsx) | (with_reducible apply State.activate_keeps) | (with_reducible apply State.restartTile_keeps) | (with_reducible apply State.tmemCleared_keeps) | (with_reducible apply State.setTile_keeps) | with_reducible apply Keeps.ite

theorem State.waleInit_keeps {s0 : Prop × State} {s : State} (h : Keeps s0 s) (a1 : Nat) :
    Keeps s0 (State.waleInit s a1) := by
  unfold State.waleInit
  repeat' first | with_reducible exact h | with_reducible assumption | (intro _) | (extract_lets +onlyGivenNames sx; clear_value (hsx : sx = _); refine Keeps.step (s0 := s0) hsx ?_ ?_; swap; intro _; clear hsx) | (with_reducible apply State.resetKeys_keeps) | (with_reducible apply State.tileInit_keeps) | with_reducible refine Keeps.foldl _ ?_ ?_

theorem State.allInit_keeps {s0 : Prop × State} {s : State} (h : Keeps s0 s) :
    Keeps s0 (State.allInit s) := by
  unfold State.allInit
  repeat' first | with_reducible exact h | with_reducible assumption | (intro _) | (with_reducible apply State.sheetInit_keeps) | (with_reducible apply State.waleInit_keeps) | with_reducible apply Keeps.ite | with_reducible refine Keeps.foldl _ ?_ ?_

theorem State.allOpen_keeps {s0 : Prop × State} {s : State} (h : Keeps s0 s) :
    Keeps s0 (State.allOpen s) := by
  unfold State.allOpen
  repeat' first | with_reducible exact h | (with_reducible apply State.wr_keeps)

theorem State.stageAll_keeps {s0 : Prop × State} {s : State} (h : Keeps s0 s) (a1 : PowStage) :
    Keeps s0 (State.stageAll s a1) := by
  unfold State.stageAll
  repeat' first | with_reducible exact h | (with_reducible apply State.stageMap_keeps)

theorem State.railAt_keeps {s0 : Prop × State} {s : State} (h : Keeps s0 s) (a1 : Nat) (a2 : Nat) :
    Keeps s0 (State.railAt s a1 a2) := by
  unfold State.railAt
  repeat' first | with_reducible exact h | (with_reducible apply State.put_keeps)

theorem State.allPowered_keeps {s0 : Prop × State} {s : State} (h : Keeps s0 s) (a1 : Nat) (a2 : Nat) :
    Keeps s0 (State.allPowered s a1 a2) := by
  unfold State.allPowered
  repeat' first | with_reducible exact h | (with_reducible apply State.stagesDone_keeps) | (with_reducible apply State.allInit_keeps) | (with_reducible apply State.resetKeys_keeps) | (with_reducible apply State.stageAll_keeps) | (with_reducible apply State.railAt_keeps)

theorem State.answer_keeps {s0 : Prop × State} {s : State} (h : Keeps s0 s) (a1 : Cmd) (a2 : RetCode) (a3 : List Word) :
    Keeps s0 (State.answer s a1 a2 a3) := by
  unfold State.answer
  repeat' first | with_reducible exact h | with_reducible assumption | (extract_lets +onlyGivenNames sx; clear_value (hsx : sx = _); refine Keeps.step (s0 := s0) hsx ?_ ?_; swap; intro _; clear hsx) | (with_reducible apply State.takeId_keeps) | (with_reducible apply State.acknowledge_keeps) | (with_reducible apply State.pushOut_keeps) | with_reducible apply Keeps.ite

theorem State.applyEff_keeps {s0 : Prop × State} {s : State} (h : Keeps s0 s) (a1 : Nat) (a2 : Nat) (a3 : OpEff) :
    Keeps s0 (State.applyEff s a1 a2 a3) := by
  unfold State.applyEff
  repeat' first | with_reducible exact h | (extract_lets +onlyGivenNames sx; clear_value (hsx : sx = _); subst hsx) | (with_reducible apply State.stickyIf_keeps) | (with_reducible apply State.setTile_keeps)

theorem State.setNet_keeps {s0 : Prop × State} {s : State} (h : Keeps s0 s) (a1 : Nat) (a2 : Nat) (a3 : Nat) :
    Keeps s0 (State.setNet s a1 a2 a3) := by
  unfold State.setNet
  repeat' first | with_reducible exact h | (extract_lets +onlyGivenNames sx; clear_value (hsx : sx = _); subst hsx) | simp only [Keeps.any] | refine Keeps.core ?_ rfl rfl rfl rfl (fun _ => rfl) rfl

theorem State.assertNet_keeps {s0 : Prop × State} {s : State} (h : Keeps s0 s) (a1 : Nat) :
    Keeps s0 (State.assertNet s a1) := by
  unfold State.assertNet
  repeat' first | with_reducible exact h | with_reducible assumption | (intro _) | (with_reducible apply State.asyncSettle_keeps) | (with_reducible apply State.setNet_keeps) | with_reducible refine Keeps.foldl _ ?_ ?_

theorem State.draw_keeps {s0 : Prop × State} {s : State} (h : Keeps s0 s) :
    Keeps s0 (State.draw s).2 := by
  unfold State.draw
  repeat' first | with_reducible exact h | simp only [Keeps.any] | refine Keeps.core ?_ rfl rfl rfl rfl (fun _ => rfl) rfl

theorem State.setBacked_keeps {s0 : Prop × State} {s : State} (h : Keeps s0 s) (a1 : Nat) (a2 : Nat) (a3 : Option (List Nat)) :
    Keeps s0 (State.setBacked s a1 a2 a3) := by
  unfold State.setBacked
  repeat' first | with_reducible exact h | (extract_lets +onlyGivenNames sx; clear_value (hsx : sx = _); subst hsx) | simp only [Keeps.any] | refine Keeps.core ?_ rfl rfl rfl rfl (fun _ => rfl) rfl

theorem State.storeUe_keeps {s0 : Prop × State} {s : State} (h : Keeps s0 s) (a1 : Nat) :
    Keeps s0 (State.storeUe s a1) := by
  unfold State.storeUe
  repeat' first | with_reducible exact h | (extract_lets +onlyGivenNames sx; clear_value (hsx : sx = _); subst hsx) | (with_reducible apply State.report_keeps) | (with_reducible apply State.wr_keeps) | (with_reducible apply State.bump_keeps)

theorem State.backingLost_keeps {s0 : Prop × State} {s : State} (h : Keeps s0 s) (a1 : Nat) (a2 : Nat) :
    Keeps s0 (State.backingLost s a1 a2) := by
  unfold State.backingLost
  repeat' first | with_reducible exact h | (with_reducible apply State.draw_keeps) | (with_reducible apply State.setBacked_keeps) | (with_reducible apply State.bump_keeps) | (with_reducible apply State.storeUe_keeps)

theorem State.barReply_keeps {s0 : Prop × State} {s : State} (h : Keeps s0 s) (a1 : Nat) (a2 : List Word) :
    Keeps s0 (State.barReply s a1 a2) := by
  unfold State.barReply
  repeat' first | with_reducible exact h | (extract_lets +onlyGivenNames sx; clear_value (hsx : sx = _); subst hsx) | simp only [Keeps.any] | refine Keeps.core ?_ rfl rfl rfl rfl (fun _ => rfl) rfl

theorem State.barUr_keeps {s0 : Prop × State} {s : State} (h : Keeps s0 s) (a1 : BarReq) :
    Keeps s0 (State.barUr s a1) := by
  unfold State.barUr
  repeat' first | with_reducible exact h | (with_reducible apply State.barReply_keeps) | (with_reducible apply State.aer_keeps) | (with_reducible apply State.bump_keeps)

theorem State.msixSend_keeps {s0 : Prop × State} {s : State} (h : Keeps s0 s) (a1 : Nat) :
    Keeps s0 (State.msixSend s a1) := by
  unfold State.msixSend
  repeat' first | with_reducible exact h | with_reducible assumption | (extract_lets +onlyGivenNames sx; clear_value (hsx : sx = _); refine Keeps.step (s0 := s0) hsx ?_ ?_; swap; intro _; clear hsx) | (extract_lets +onlyGivenNames sx; clear_value (hsx : sx = _); subst hsx) | (with_reducible apply State.hostWrite_keeps) | simp only [Keeps.any] | refine Keeps.core ?_ rfl rfl rfl rfl (fun _ => rfl) rfl

theorem State.msixWrite_keeps {s0 : Prop × State} {s : State} (h : Keeps s0 s) (a1 : Nat) (a2 : Nat) (a3 : Word) :
    Keeps s0 (State.msixWrite s a1 a2 a3) := by
  unfold State.msixWrite
  repeat' first | with_reducible exact h | with_reducible assumption | (extract_lets +onlyGivenNames sx; clear_value (hsx : sx = _); refine Keeps.step (s0 := s0) hsx ?_ ?_; swap; intro _; clear hsx) | (extract_lets +onlyGivenNames sx; clear_value (hsx : sx = _); subst hsx) | (with_reducible apply State.msixSend_keeps) | with_reducible apply Keeps.ite | simp only [Keeps.any] | refine Keeps.core ?_ rfl rfl rfl rfl (fun _ => rfl) rfl

theorem State.barWrite_keeps {s0 : Prop × State} {s : State} (h : Keeps s0 s) (a1 : Nat) (a2 : Nat) (a3 : Word) :
    Keeps s0 (State.barWrite s a1 a2 a3).2 := by
  unfold State.barWrite
  repeat' first | with_reducible exact h | (extract_lets +onlyGivenNames sx; clear_value (hsx : sx = _); subst hsx) | (with_reducible apply State.busWrite_keeps) | (with_reducible apply State.msixWrite_keeps) | with_reducible apply Keeps.ite2

theorem State.stampRead_keeps {s0 : Prop × State} {s : State} (h : Keeps s0 s) (a1 : Master) (a2 : Nat) :
    Keeps s0 (State.stampRead s a1 a2) := by
  unfold State.stampRead
  repeat' first | with_reducible exact h | (with_reducible apply State.setLatch_keeps)

theorem State.datLatch_keeps {s0 : Prop × State} {s : State} (h : Keeps s0 s) (a1 : Master) (a2 : Nat) (a3 : Nat) :
    Keeps s0 (State.datLatch s a1 a2 a3) := by
  unfold State.datLatch
  repeat' first | with_reducible exact h | (with_reducible apply State.setLatch_keeps)

theorem State.readLatch_keeps {s0 : Prop × State} {s : State} (h : Keeps s0 s) (a1 : Master) (a2 : Nat) (a3 : Nat) (a4 : Nat) :
    Keeps s0 (State.readLatch s a1 a2 a3 a4) := by
  unfold State.readLatch
  repeat' first | with_reducible exact h | (with_reducible apply State.wr_keeps) | (with_reducible apply State.stampRead_keeps) | (with_reducible apply State.setLatch_keeps) | (with_reducible apply State.datLatch_keeps) | with_reducible apply Keeps.ite | simp only [Keeps.any] | refine Keeps.core ?_ rfl rfl rfl rfl (fun _ => rfl) rfl

theorem State.regRead_keeps {s0 : Prop × State} {s : State} (h : Keeps s0 s) (a1 : Master) (a2 : Nat) :
    Keeps s0 (State.regRead s a1 a2).2 := by
  unfold State.regRead
  repeat' first | with_reducible exact h | (with_reducible apply State.readLatch_keeps) | with_reducible apply Keeps.ite2 | simp only [Keeps.any] | split

theorem State.barRead_keeps {s0 : Prop × State} {s : State} (h : Keeps s0 s) (a1 : Nat) (a2 : Nat) :
    Keeps s0 (State.barRead s a1 a2).2 := by
  unfold State.barRead
  repeat' first | with_reducible exact h | (with_reducible apply State.regRead_keeps) | with_reducible apply Keeps.ite2

theorem State.barAccess_keeps {s0 : Prop × State} {s : State} (h : Keeps s0 s) (a1 : BarReq) :
    Keeps s0 (State.barAccess s a1) := by
  unfold State.barAccess
  repeat' first | with_reducible exact h | with_reducible assumption | (intro _) | (extract_lets +onlyGivenNames sx; clear_value (hsx : sx = _); refine Keeps.step (s0 := s0) hsx ?_ ?_; swap; intro _; clear hsx) | (extract_lets +onlyGivenNames sx; clear_value (hsx : sx = _); subst hsx) | (with_reducible apply State.barUr_keeps) | (with_reducible apply State.barWrite_keeps) | (with_reducible apply State.barReply_keeps) | (with_reducible apply State.barRead_keeps) | with_reducible apply Keeps.ite | with_reducible refine Keeps.foldl2 _ ?_ ?_ | simp only [Keeps.any] | with_reducible apply Keeps.coreM | exact Eq.refl _

theorem State.bindDown_keeps {s0 : Prop × State} {s : State} (h : Keeps s0 s) (a1 : LaneBind) :
    Keeps s0 (State.bindDown s a1) := by
  unfold State.bindDown
  repeat' first | with_reducible exact h | with_reducible assumption | (intro _) | (extract_lets +onlyGivenNames sx; clear_value (hsx : sx = _); refine Keeps.step (s0 := s0) hsx ?_ ?_; swap; intro _; clear hsx) | (extract_lets +onlyGivenNames sx; clear_value (hsx : sx = _); subst hsx) | (with_reducible apply State.setLane_keeps) | (with_reducible apply State.laneMove_keeps) | (with_reducible apply State.setLaneState_keeps) | (with_reducible apply State.linkDown_keeps) | (with_reducible apply State.put_keeps) | with_reducible apply Keeps.ite | with_reducible refine Keeps.foldl _ ?_ ?_ | simp only [Keeps.any] | split

theorem State.bindsDone_keeps {s0 : Prop × State} {s : State} (h : Keeps s0 s) :
    Keeps s0 (State.bindsDone s) := by
  unfold State.bindsDone
  repeat' first | with_reducible exact h | with_reducible assumption | (intro _) | (extract_lets +onlyGivenNames sx; clear_value (hsx : sx = _); refine Keeps.step (s0 := s0) hsx ?_ ?_; swap; intro _; clear hsx) | (extract_lets +onlyGivenNames sx; clear_value (hsx : sx = _); subst hsx) | (with_reducible apply State.complete_keeps) | with_reducible refine Keeps.foldl _ ?_ ?_ | simp only [Keeps.any] | refine Keeps.core ?_ rfl rfl rfl rfl (fun _ => rfl) rfl

theorem State.bootCleared_keeps {s0 : Prop × State} {s : State} (h : Keeps s0 s) (link : Bool) : Keeps s0 (s.bootCleared link) := by
  refine ⟨h.pending, fun x => swf_sfilter _ _ (h.regs x), fun x => ?_, h.dat⟩
  have hm := h.mem x
  refine ⟨swf_sfilter _ (fun k => decide (k < stageBase 0)) hm.1, hm.2.1, rfl, rfl, ?_⟩
  cases link
  · exact hm.2.2.2.2
  · exact hm.2.2.2.2

theorem State.setBramBits_keeps {s0 : Prop × State} {s : State} (h : Keeps s0 s) (a1 : Nat) (a2 : Nat) (a3 : Nat) (a4 : Nat) (a5 : Nat) :
    Keeps s0 (State.setBramBits s a1 a2 a3 a4 a5) := by
  unfold State.setBramBits
  repeat' first | with_reducible exact h | (extract_lets +onlyGivenNames sx; clear_value (hsx : sx = _); subst hsx) | simp only [Keeps.any] | refine Keeps.core ?_ rfl rfl rfl rfl (fun _ => rfl) rfl

theorem State.bramWrite_keeps {s0 : Prop × State} {s : State} (h : Keeps s0 s) (a1 : Nat) (a2 : Nat) (a3 : BramCfg) (a4 : BramReq) :
    Keeps s0 (State.bramWrite s a1 a2 a3 a4) := by
  unfold State.bramWrite
  repeat' first | with_reducible exact h | (with_reducible apply State.setBramBits_keeps) | with_reducible apply Keeps.ite

theorem State.bramWr_keeps {s0 : Prop × State} {s : State} (h : Keeps s0 s) (a1 : Nat) (a2 : Nat) (a3 : BramCfg) (a4 : Option BramReq) :
    Keeps s0 (State.bramWr s a1 a2 a3 a4) := by
  unfold State.bramWr
  repeat' first | with_reducible exact h | (with_reducible apply State.bramWrite_keeps) | split

theorem State.bramRead_kept {s0 : Prop × State} {s : State} (h : Keeps s0 s) (v : State) (n b port : Nat) (c : BramCfg) (q : BramReq) (apart : Bool) :
    Keeps s0 (s.bramRead v n b port c q apart) := by
  unfold State.bramRead
  split
  · exact h
  · extract_lets inst row fresh
    generalize (@ite (Nat × Nat) (fresh = true) _ _ _) = x
    obtain ⟨data, ecc⟩ := x
    dsimp only
    repeat' first | with_reducible exact h | (with_reducible apply State.report_keeps) | (with_reducible apply State.bump_keeps) | (with_reducible apply State.raise_keeps) | with_reducible apply Keeps.ite | simp only [Keeps.any] | refine Keeps.core ?_ rfl rfl rfl rfl (fun _ => rfl) rfl

theorem State.bramRd_kept {s0 : Prop × State} {s : State} (h : Keeps s0 s) (v : State) (n b port : Nat) (c : BramCfg) (q : Option BramReq) (apart : Bool) :
    Keeps s0 (s.bramRd v n b port c q apart) := by
  cases q with
  | none => exact h
  | some q => exact State.bramRead_kept h _ _ _ _ _ _ _

theorem State.bramBoth_keeps {s0 : Prop × State} {s : State} (h : Keeps s0 s) (n b : Nat) (ca cb : BramCfg) (p q : Option BramReq) :
    Keeps s0 (s.bramBoth n b ca cb p q) :=
  State.bramWr_keeps (State.bramWr_keeps (State.bramRd_kept (State.bramRd_kept h _ _ _ _ _ _ _) _ _ _ _ _ _ _) _ _ _ _) _ _ _ _

theorem State.bramTurn_keeps {s0 : Prop × State} {s : State} (h : Keeps s0 s) (n b port : Nat) (c : BramCfg) (q : Option BramReq) :
    Keeps s0 (s.bramTurn n b port c q) :=
  State.bramWr_keeps (State.bramRd_kept h _ _ _ _ _ _ _) _ _ _ _

theorem State.bramUpset_keeps {s0 : Prop × State} {s : State} (h : Keeps s0 s) (a1 : Nat) (a2 : Nat) (a3 : List Nat) :
    Keeps s0 (State.bramUpset s a1 a2 a3) := by
  unfold State.bramUpset
  repeat' first | with_reducible exact h | (extract_lets +onlyGivenNames sx; clear_value (hsx : sx = _); subst hsx) | simp only [Keeps.any] | refine Keeps.core ?_ rfl rfl rfl rfl (fun _ => rfl) rfl

theorem State.busRead_keeps {s0 : Prop × State} {s : State} (h : Keeps s0 s) (a1 : Master) (a2 : Nat) :
    Keeps s0 (State.busRead s a1 a2).2 := by
  unfold State.busRead
  repeat' first | with_reducible exact h | (extract_lets +onlyGivenNames sx; clear_value (hsx : sx = _); subst hsx) | (with_reducible apply State.busErr_keeps) | (with_reducible apply State.regRead_keeps) | (with_reducible apply State.busOk_keeps) | with_reducible apply Keeps.ite2

theorem State.setCap_keeps {s0 : Prop × State} {s : State} (h : Keeps s0 s) (a1 : Capture) :
    Keeps s0 (State.setCap s a1) := by
  unfold State.setCap
  repeat' first | with_reducible exact h | (extract_lets +onlyGivenNames sx; clear_value (hsx : sx = _); subst hsx) | simp only [Keeps.any] | refine Keeps.core ?_ rfl rfl rfl rfl (fun _ => rfl) rfl

theorem State.capHeld_keeps {s0 : Prop × State} {s : State} (h : Keeps s0 s) :
    Keeps s0 (State.capHeld s) := by
  unfold State.capHeld
  repeat' first | with_reducible exact h | (extract_lets +onlyGivenNames sx; clear_value (hsx : sx = _); subst hsx) | (with_reducible apply State.completeOpt_keeps) | (with_reducible apply State.setCap_keeps) | with_reducible apply Keeps.ite

theorem State.capCopied_keeps {s0 : Prop × State} {s : State} (h : Keeps s0 s) (a1 : Nat → Bool) (a2 : Bool) :
    Keeps s0 (State.capCopied s a1 a2) := by
  unfold State.capCopied
  repeat' first | with_reducible exact h | (extract_lets +onlyGivenNames sx; clear_value (hsx : sx = _); subst hsx) | (with_reducible apply State.capHeld_keeps) | (with_reducible apply State.setCap_keeps) | with_reducible apply Keeps.ite

theorem State.capSheet_keeps {s0 : Prop × State} {s : State} (h : Keeps s0 s) (a1 : Nat) (a2 : Nat) (a3 : Bool) :
    Keeps s0 (State.capSheet s a1 a2 a3) := by
  unfold State.capSheet
  repeat' first | with_reducible exact h | (extract_lets +onlyGivenNames sx; clear_value (hsx : sx = _); subst hsx) | (with_reducible apply State.setCap_keeps) | with_reducible apply Keeps.ite

theorem State.capIsland_keeps {s0 : Prop × State} {s : State} (h : Keeps s0 s) (a1 : Nat) (a2 : Nat) (a3 : Bool) :
    Keeps s0 (State.capIsland s a1 a2 a3) := by
  unfold State.capIsland
  repeat' first | with_reducible exact h | with_reducible assumption | (intro _) | (extract_lets +onlyGivenNames sx; clear_value (hsx : sx = _); refine Keeps.step (s0 := s0) hsx ?_ ?_; swap; intro _; clear hsx) | (extract_lets +onlyGivenNames sx; clear_value (hsx : sx = _); subst hsx) | (with_reducible apply State.setCap_keeps) | (with_reducible apply State.capHeld_keeps) | (with_reducible apply State.capSheet_keeps) | with_reducible refine Keeps.foldl _ ?_ ?_

theorem State.setCapRun_keeps {s0 : Prop × State} {s : State} (h : Keeps s0 s) (a1 : Nat) (a2 : CapRun) :
    Keeps s0 (State.setCapRun s a1 a2) := by
  unfold State.setCapRun
  repeat' first | with_reducible exact h | (extract_lets +onlyGivenNames sx; clear_value (hsx : sx = _); subst hsx) | simp only [Keeps.any] | refine Keeps.core ?_ rfl rfl rfl rfl (fun _ => rfl) rfl

theorem State.dropOverride_keeps {s0 : Prop × State} {s : State} (h : Keeps s0 s) (a1 : Nat → Bool) :
    Keeps s0 (State.dropOverride s a1) := by
  unfold State.dropOverride
  repeat' first | with_reducible exact h | (extract_lets +onlyGivenNames sx; clear_value (hsx : sx = _); subst hsx) | simp only [Keeps.any] | refine Keeps.core ?_ rfl rfl rfl rfl (fun _ => rfl) rfl

theorem State.capStep_keeps {s0 : Prop × State} {s : State} (h : Keeps s0 s) (a1 : Nat) (a2 : Nat) :
    Keeps s0 (State.capStep s a1 a2) := by
  unfold State.capStep
  repeat' first | with_reducible exact h | with_reducible assumption | (extract_lets +onlyGivenNames sx; clear_value (hsx : sx = _); refine Keeps.step (s0 := s0) hsx ?_ ?_; swap; intro _; clear hsx) | (extract_lets +onlyGivenNames sx; clear_value (hsx : sx = _); subst hsx) | (with_reducible apply State.bump_keeps) | (with_reducible apply State.put_keeps) | (with_reducible apply State.report_keeps) | (with_reducible apply State.seqAdd_keeps) | (with_reducible apply State.dropOverride_keeps)

theorem State.capRead_keeps {s0 : Prop × State} {s : State} (h : Keeps s0 s) (a1 : Nat) :
    Keeps s0 (State.capRead s a1) := by
  unfold State.capRead
  repeat' first | with_reducible exact h | with_reducible assumption | (extract_lets +onlyGivenNames sx; clear_value (hsx : sx = _); refine Keeps.step (s0 := s0) hsx ?_ ?_; swap; intro _; clear hsx) | (extract_lets +onlyGivenNames sx; clear_value (hsx : sx = _); subst hsx) | (with_reducible apply State.setCapRun_keeps) | (with_reducible apply State.capStep_keeps) | with_reducible apply Keeps.ite

theorem State.capsRead_keeps {s0 : Prop × State} {s : State} (h : Keeps s0 s) :
    Keeps s0 (State.capsRead s) := by
  unfold State.capsRead
  repeat' first | with_reducible exact h | (with_reducible apply State.capRead_keeps)

theorem State.journal_keeps {s0 : Prop × State} {s : State} (h : Keeps s0 s) (a1 : Nat) (a2 : Nat) (a3 : Nat) (a4 : Word) (a5 : Word) :
    Keeps s0 (State.journal s a1 a2 a3 a4 a5) := by
  unfold State.journal
  repeat' first | with_reducible exact h | (extract_lets +onlyGivenNames sx; clear_value (hsx : sx = _); subst hsx) | (with_reducible apply State.gazInc_keeps) | with_reducible apply Keeps.ite | simp only [Keeps.any] | refine Keeps.core ?_ rfl rfl rfl rfl (fun _ => rfl) rfl

theorem State.castJournal_keeps {s0 : Prop × State} {s : State} (h : Keeps s0 s) (a1 : Nat) (a2 : Nat) :
    Keeps s0 (State.castJournal s a1 a2) := by
  unfold State.castJournal
  repeat' first | with_reducible exact h | (with_reducible apply State.journal_keeps)

theorem State.dropStaged_keeps {s0 : Prop × State} {s : State} (h : Keeps s0 s) (c : Nat) : Keeps s0 (s.dropStaged c) :=
  Keeps.store h (fun x => swf_sfilter _ _ x)

theorem State.setCtx_keeps {s0 : Prop × State} {s : State} (h : Keeps s0 s) (a1 : Nat) (a2 : Option LdrCtx) :
    Keeps s0 (State.setCtx s a1 a2) := by
  unfold State.setCtx
  repeat' first | with_reducible exact h | (extract_lets +onlyGivenNames sx; clear_value (hsx : sx = _); subst hsx) | simp only [Keeps.any] | refine Keeps.core ?_ rfl rfl rfl rfl (fun _ => rfl) rfl

theorem State.claimCtx_keeps {s0 : Prop × State} {s : State} (h : Keeps s0 s) (a1 : Nat) (a2 : Nat) (a3 : LdrCtx) :
    Keeps s0 (State.claimCtx s a1 a2 a3) := by
  unfold State.claimCtx
  repeat' first | with_reducible exact h | (with_reducible apply State.wr_keeps) | (with_reducible apply State.dropStaged_keeps) | (with_reducible apply State.setCtx_keeps) | simp only [Keeps.any] | refine Keeps.core ?_ rfl rfl rfl rfl (fun _ => rfl) rfl

theorem State.castLoad_keeps {s0 : Prop × State} {s : State} (h : Keeps s0 s) (b : Bool) (o : Option Nat) : ∀ t, s.castLoad b o = some t → Keeps s0 t := by
  intro t e
  unfold State.castLoad at e
  rw [Option.map_eq_some_iff] at e
  obtain ⟨c, -, rfl⟩ := e
  exact State.claimCtx_keeps h _ _ _

theorem State.castonAtCommit_keeps {s0 : Prop × State} {s : State} (h : Keeps s0 s) :
    Keeps s0 (State.castonAtCommit s) := by
  unfold State.castonAtCommit
  repeat' first | with_reducible exact h | (extract_lets +onlyGivenNames sx; clear_value (hsx : sx = _); subst hsx) | (with_reducible refine Keeps.getD (State.castLoad_keeps ?_ _ _) ?_) | with_reducible apply Keeps.ite

theorem State.laneTrain_keeps {s0 : Prop × State} {s : State} (h : Keeps s0 s) (a1 : Nat) :
    Keeps s0 (State.laneTrain s a1) := by
  unfold State.laneTrain
  repeat' first | with_reducible exact h | (with_reducible apply State.setLaneState_keeps) | (with_reducible apply State.put_keeps)

theorem State.linkStart_keeps {s0 : Prop × State} {s : State} (h : Keeps s0 s) (a1 : Nat) (a2 : Nat) :
    Keeps s0 (State.linkStart s a1 a2) := by
  unfold State.linkStart
  repeat' first | with_reducible exact h | with_reducible assumption | (extract_lets +onlyGivenNames sx; clear_value (hsx : sx = _); refine Keeps.step (s0 := s0) hsx ?_ ?_; swap; intro _; clear hsx) | (extract_lets +onlyGivenNames sx; clear_value (hsx : sx = _); subst hsx) | (with_reducible apply State.put_keeps) | (with_reducible apply State.setYport_keeps) | with_reducible apply Keeps.ite | split

theorem State.lanesCharted_keeps {s0 : Prop × State} {s : State} (h : Keeps s0 s) :
    Keeps s0 (State.lanesCharted s) := by
  unfold State.lanesCharted
  repeat' first | with_reducible exact h | with_reducible assumption | (intro _) | (extract_lets +onlyGivenNames sx; clear_value (hsx : sx = _); refine Keeps.step (s0 := s0) hsx ?_ ?_; swap; intro _; clear hsx) | (with_reducible apply State.put_keeps) | (with_reducible apply State.setLaneState_keeps) | (with_reducible apply State.laneTrain_keeps) | (with_reducible apply State.linkStart_keeps) | (with_reducible apply State.lanesMove_keeps) | with_reducible apply Keeps.ite | with_reducible refine Keeps.foldl _ ?_ ?_

theorem State.msix_keeps {s0 : Prop × State} {s : State} (h : Keeps s0 s) (a1 : Nat) :
    Keeps s0 (State.msix s a1) := by
  unfold State.msix
  repeat' first | with_reducible exact h | (extract_lets +onlyGivenNames sx; clear_value (hsx : sx = _); subst hsx) | (with_reducible apply State.msixSend_keeps) | with_reducible apply Keeps.ite | simp only [Keeps.any] | refine Keeps.core ?_ rfl rfl rfl rfl (fun _ => rfl) rfl

theorem State.enter_keeps {s0 : Prop × State} {s : State} (h : Keeps s0 s) (a1 : DevState) :
    Keeps s0 (State.enter s a1) := by
  unfold State.enter
  repeat' first | with_reducible exact h | (extract_lets +onlyGivenNames sx; clear_value (hsx : sx = _); subst hsx) | (with_reducible apply State.msix_keeps) | with_reducible apply Keeps.ite | simp only [Keeps.any] | refine Keeps.core ?_ rfl rfl rfl rfl (fun _ => rfl) rfl

theorem State.chart_keeps {s0 : Prop × State} {s : State} (h : Keeps s0 s) :
    Keeps s0 (State.chart s) := by
  unfold State.chart
  repeat' first | with_reducible exact h | (with_reducible apply State.lanesCharted_keeps) | (with_reducible apply State.enter_keeps) | with_reducible apply Keeps.ite

theorem State.clockSheet_keeps {s0 : Prop × State} {s : State} (h : Keeps s0 s) (a1 : Nat) (a2 : Nat) (a3 : List Nat) (a4 : Bool) :
    Keeps s0 (State.clockSheet s a1 a2 a3 a4) := by
  unfold State.clockSheet
  repeat' first | with_reducible exact h | with_reducible assumption | (intro _) | (extract_lets +onlyGivenNames sx; clear_value (hsx : sx = _); subst hsx) | (with_reducible apply State.setFf_keeps) | with_reducible apply Keeps.ite | with_reducible refine Keeps.foldl _ ?_ ?_ | simp only [Keeps.any] | refine Keeps.core ?_ rfl rfl rfl rfl (fun _ => rfl) rfl

theorem State.setTmems_keeps {s0 : Prop × State} {s : State} (h : Keeps s0 s) (a1 : Nat) (a2 : Nat) (a3 : List Byte) :
    Keeps s0 (State.setTmems s a1 a2 a3) := by
  unfold State.setTmems
  repeat' first | with_reducible exact h | with_reducible assumption | (intro _) | (with_reducible apply State.setTmem_keeps) | with_reducible refine Keeps.foldl _ ?_ ?_

theorem State.walCount_keeps {s0 : Prop × State} {s : State} (h : Keeps s0 s) (a1 : Nat) (a2 : Nat) (a3 : Nat) :
    Keeps s0 (State.walCount s a1 a2 a3) := by
  unfold State.walCount
  repeat' first | with_reducible exact h | (with_reducible apply State.bump_keeps)

theorem State.closeCycle_keeps {s0 : Prop × State} {s : State} (h : Keeps s0 s) (t : Nat) : Keeps s0 (s.closeCycle t) := by
  unfold State.closeCycle
  extract_lets x p stores s1 stall s2 x1 x0 x2
  have h1 : Keeps s0 s1 := Keeps.foldl _ (fun _ _ ht => State.setTmems_keeps ht _ _ _) h
  clear_value s1
  have h2 : Keeps s0 s2 := Keeps.ite h1 (State.walCount_keeps h1 _ _ _)
  clear_value s2 x2
  exact State.tickLand_keeps (State.setTile_keeps h2 _ _) _

theorem State.closeSession_keeps {s0 : Prop × State} {s : State} (h : Keeps s0 s) :
    Keeps s0 (State.closeSession s) := by
  unfold State.closeSession
  repeat' first | with_reducible exact h | (extract_lets +onlyGivenNames sx; clear_value (hsx : sx = _); subst hsx) | simp only [Keeps.any] | refine Keeps.core ?_ rfl rfl rfl rfl (fun _ => rfl) rfl | split

theorem State.setWindow_keeps {s0 : Prop × State} {s : State} (h : Keeps s0 s) (a1 : Nat) (a2 : Option (Option Nat)) :
    Keeps s0 (State.setWindow s a1 a2) := by
  unfold State.setWindow
  repeat' first | with_reducible exact h | (extract_lets +onlyGivenNames sx; clear_value (hsx : sx = _); subst hsx) | simp only [Keeps.any] | refine Keeps.core ?_ rfl rfl rfl rfl (fun _ => rfl) rfl

theorem State.closeWindow_keeps {s0 : Prop × State} {s : State} (h : Keeps s0 s) (a1 : Nat) :
    Keeps s0 (State.closeWindow s a1) := by
  unfold State.closeWindow
  repeat' first | with_reducible exact h | with_reducible assumption | (extract_lets +onlyGivenNames sx; clear_value (hsx : sx = _); refine Keeps.step (s0 := s0) hsx ?_ ?_; swap; intro _; clear hsx) | (extract_lets +onlyGivenNames sx; clear_value (hsx : sx = _); subst hsx) | (with_reducible apply State.setWindow_keeps) | simp only [Keeps.any] | refine Keeps.core ?_ rfl rfl rfl rfl (fun _ => rfl) rfl | split

theorem State.coastNow_keeps {s0 : Prop × State} {s : State} (h : Keeps s0 s) (a1 : Nat) :
    Keeps s0 (State.coastNow s a1) := by
  unfold State.coastNow
  repeat' first | with_reducible exact h | with_reducible assumption | (extract_lets +onlyGivenNames sx; clear_value (hsx : sx = _); refine Keeps.step (s0 := s0) hsx ?_ ?_; swap; intro _; clear hsx) | (extract_lets +onlyGivenNames sx; clear_value (hsx : sx = _); subst hsx) | (with_reducible apply State.report_keeps) | (with_reducible apply State.bump_keeps) | (with_reducible apply State.raise_keeps) | (with_reducible apply State.setKhz_keeps) | with_reducible apply Keeps.ite | simp only [Keeps.any] | refine Keeps.core ?_ rfl rfl rfl rfl (fun _ => rfl) rfl

theorem State.laneFresh_keeps {s0 : Prop × State} {s : State} (h : Keeps s0 s) (a1 : Nat) :
    Keeps s0 (State.laneFresh s a1) := by
  unfold State.laneFresh
  repeat' first | with_reducible exact h | with_reducible assumption | (intro _) | (with_reducible apply State.put_keeps) | (with_reducible apply State.wr_keeps) | with_reducible apply Keeps.ite | with_reducible refine Keeps.foldl _ ?_ ?_ | simp only [Keeps.any] | split

theorem State.commandTrain_keeps {s0 : Prop × State} {s : State} (h : Keeps s0 s) (a1 : List Nat) :
    Keeps s0 (State.commandTrain s a1) := by
  unfold State.commandTrain
  repeat' first | with_reducible exact h | with_reducible assumption | (intro _) | (extract_lets +onlyGivenNames sx; clear_value (hsx : sx = _); refine Keeps.step (s0 := s0) hsx ?_ ?_; swap; intro _; clear hsx) | (extract_lets +onlyGivenNames sx; clear_value (hsx : sx = _); subst hsx) | (with_reducible apply State.swtAbandon_keeps) | (with_reducible apply State.laneTrain_keeps) | (with_reducible apply State.laneFresh_keeps) | (with_reducible apply State.setLane_keeps) | (with_reducible apply State.laneMove_keeps) | (with_reducible apply State.linkStart_keeps) | (with_reducible apply State.linkDown_keeps) | with_reducible refine Keeps.foldl _ ?_ ?_ | simp only [Keeps.any] | split

end Sys2Proof.Machine
end

