-- ==== Sys2Proof/Laws/KeepsOps3.lean ====
section
/-! SUPPORT. What the shared operations keep (3 of 5): one lemma per operation, each citing those of the operations it is made of. -/

namespace Sys2Proof.Machine

theorem State.writeBankmaps_keeps {s0 : Prop × State} {s : State} (h : Keeps s0 s) (a1 : List LFrame) :
    Keeps s0 (State.writeBankmaps s a1) := by
  unfold State.writeBankmaps
  repeat' first | with_reducible exact h | with_reducible assumption | (intro _) | (with_reducible apply State.wr_keeps) | with_reducible apply Keeps.ite | with_reducible refine Keeps.foldl _ ?_ ?_

theorem State.writePlane_keeps {s0 : Prop × State} {s : State} (h : Keeps s0 s) (a1 : Nat) (a2 : Nat) (a3 : List LFrame) (a4 : Nat) :
    Keeps s0 (State.writePlane s a1 a2 a3 a4) := by
  unfold State.writePlane
  repeat' first | with_reducible exact h | (extract_lets +onlyGivenNames sx; clear_value (hsx : sx = _); subst hsx) | simp only [Keeps.any] | refine Keeps.core ?_ rfl rfl rfl rfl (fun _ => rfl) rfl

theorem State.writePattern_keeps {s0 : Prop × State} {s : State} (h : Keeps s0 s) (t p : Nat) (bs : List Byte) : Keeps s0 (s.writePattern t p bs) :=
  ⟨h.pending, h.regs, fun x => ⟨(h.mem x).1, (h.mem x).2.1, (h.mem x).2.2.1,
    foldl_keeps (P := fun m => swf (fun _ => (0 : Byte)) m = true) (fun _ _ hm => swf_sset _ _ _ hm) _ (h.mem x).2.2.2.1, (h.mem x).2.2.2.2⟩, h.dat⟩

theorem State.itemLand_keeps {s0 : Prop × State} {s : State} (h : Keeps s0 s) (a1 : Nat) (a2 : Nat) (a3 : List LFrame) (a4 : CommitItem) :
    Keeps s0 (State.itemLand s a1 a2 a3 a4) := by
  unfold State.itemLand
  repeat' first | with_reducible exact h | with_reducible assumption | (intro _) | (with_reducible apply State.writeBankmaps_keeps) | (with_reducible apply State.setBramBits_keeps) | (with_reducible apply State.setBit_keeps) | (with_reducible apply State.writePlane_keeps) | (with_reducible apply State.writePattern_keeps) | with_reducible apply Keeps.ite | with_reducible refine Keeps.foldl _ ?_ ?_ | simp only [Keeps.any] | split

theorem State.itemBegin_keeps {s0 : Prop × State} {s : State} (h : Keeps s0 s) (a1 : CommitItem) :
    Keeps s0 (State.itemBegin s a1) := by
  unfold State.itemBegin
  repeat' first | with_reducible exact h | (with_reducible apply State.setBit_keeps) | split

theorem State.commitLand_keeps {s0 : Prop × State} {s : State} (h : Keeps s0 s) :
    Keeps s0 (State.commitLand s) := by
  unfold State.commitLand
  repeat' first | with_reducible exact h | with_reducible assumption | (intro _) | (with_reducible apply State.itemLand_keeps) | (with_reducible apply State.itemBegin_keeps) | with_reducible refine Keeps.foldl _ ?_ ?_ | simp only [Keeps.any] | refine Keeps.core ?_ rfl rfl rfl rfl (fun _ => rfl) rfl | split

theorem State.commitRest_keeps {s0 : Prop × State} {s : State} (h : Keeps s0 s) (a1 : Nat) (a2 : Nat) (a3 : List LFrame) :
    Keeps s0 (State.commitRest s a1 a2 a3) := by
  unfold State.commitRest
  repeat' first | with_reducible exact h | with_reducible assumption | (intro _) | (with_reducible apply State.itemLand_keeps) | with_reducible refine Keeps.foldl _ ?_ ?_

theorem State.setSens_keeps {s0 : Prop × State} {s : State} (h : Keeps s0 s) (a1 : Nat) (a2 : Sens) :
    Keeps s0 (State.setSens s a1 a2) := by
  unfold State.setSens
  repeat' first | with_reducible exact h | (extract_lets +onlyGivenNames sx; clear_value (hsx : sx = _); subst hsx) | simp only [Keeps.any] | refine Keeps.core ?_ rfl rfl rfl rfl (fun _ => rfl) rfl

theorem State.markSensor_keeps {s0 : Prop × State} {s : State} (h : Keeps s0 s) (a1 : Nat) (a2 : Bool) :
    Keeps s0 (State.markSensor s a1 a2) := by
  unfold State.markSensor
  repeat' first | with_reducible exact h | with_reducible assumption | (extract_lets +onlyGivenNames sx; clear_value (hsx : sx = _); refine Keeps.step (s0 := s0) hsx ?_ ?_; swap; intro _; clear hsx) | (with_reducible apply State.setBit_keeps) | (with_reducible apply State.put_keeps) | (with_reducible apply State.report_keeps) | (with_reducible apply State.bump_keeps) | with_reducible apply Keeps.ite

theorem State.convert_keeps {s0 : Prop × State} {s : State} (h : Keeps s0 s) (a1 : Nat) (a2 : Option Int) :
    Keeps s0 (State.convert s a1 a2) := by
  unfold State.convert
  repeat' first | with_reducible exact h | with_reducible assumption | (extract_lets +onlyGivenNames sx; clear_value (hsx : sx = _); refine Keeps.step (s0 := s0) hsx ?_ ?_; swap; intro _; clear hsx) | (extract_lets +onlyGivenNames sx; clear_value (hsx : sx = _); subst hsx) | (with_reducible apply State.setSens_keeps) | (with_reducible apply State.markSensor_keeps) | (with_reducible apply State.put_keeps) | with_reducible apply Keeps.ite | simp only [Keeps.any] | split

theorem State.counters_keeps {s0 : Prop × State} {s : State} (h : Keeps s0 s) (a1 : List Nat) (a2 : Bool) :
    Keeps s0 (State.counters s a1 a2).2 := by
  unfold State.counters
  repeat' first | with_reducible exact h | with_reducible assumption | (intro _) | (with_reducible apply State.wr_keeps) | with_reducible apply Keeps.ite | with_reducible refine Keeps.foldl _ ?_ ?_

theorem State.flowCount_keeps {s0 : Prop × State} {s : State} (h : Keeps s0 s) (a1 : Nat) (a2 : Nat) (a3 : Nat) :
    Keeps s0 (State.flowCount s a1 a2 a3) := by
  unfold State.flowCount
  repeat' first | with_reducible exact h | (with_reducible apply State.bump_keeps) | with_reducible apply Keeps.ite

theorem State.cpClass_keeps {s0 : Prop × State} {s : State} (h : Keeps s0 s) (a1 : Nat) (a2 : Nat) (a3 : Nat) (a4 : Nat) :
    Keeps s0 (State.cpClass s a1 a2 a3 a4).2 := by
  unfold State.cpClass
  repeat' first | with_reducible exact h | (extract_lets +onlyGivenNames sx; clear_value (hsx : sx = _); subst hsx) | (with_reducible apply State.flowCount_keeps) | with_reducible apply Keeps.ite2

theorem State.creRecord_keeps {s0 : Prop × State} {s : State} (h : Keeps s0 s) (a1 : Nat) (a2 : Nat) (a3 : Nat) (a4 : CpSection) :
    Keeps s0 (State.creRecord s a1 a2 a3 a4) := by
  unfold State.creRecord
  repeat' first | with_reducible exact h | (extract_lets +onlyGivenNames sx; clear_value (hsx : sx = _); subst hsx) | (with_reducible apply State.flowSend_keeps) | split

theorem State.zeroPrbs_keeps {s0 : Prop × State} {s : State} (h : Keeps s0 s) (a1 : Nat) (a2 : Nat) (a3 : CpSection) :
    Keeps s0 (State.zeroPrbs s a1 a2 a3) := by
  unfold State.zeroPrbs
  repeat' first | with_reducible exact h | with_reducible assumption | (intro _) | (with_reducible apply State.flowCount_keeps) | (with_reducible apply State.strOffer_keeps) | with_reducible apply Keeps.ite | with_reducible refine Keeps.foldl _ ?_ ?_ | split

theorem State.hold_keeps {s0 : Prop × State} {s : State} (h : Keeps s0 s) (a1 : Nat) (a2 : HeldSection) :
    Keeps s0 (State.hold s a1 a2) := by
  unfold State.hold
  repeat' first | with_reducible exact h | (extract_lets +onlyGivenNames sx; clear_value (hsx : sx = _); subst hsx) | (with_reducible apply State.setFhe_keeps)

theorem State.takeWeights_keeps {s0 : Prop × State} {s : State} (h : Keeps s0 s) (a1 : Nat) (a2 : Nat) (a3 : CpSection) :
    Keeps s0 (State.takeWeights s a1 a2 a3) := by
  unfold State.takeWeights
  repeat' first | with_reducible exact h | (extract_lets +onlyGivenNames sx; clear_value (hsx : sx = _); subst hsx) | (with_reducible apply State.flowCount_keeps) | (with_reducible apply State.setWset_keeps) | with_reducible apply Keeps.ite | simp only [Keeps.any] | split

theorem State.cpSection_keeps {s0 : Prop × State} {s : State} (h : Keeps s0 s) (a1 : Nat) (a2 : Nat) (a3 : Nat) (a4 : Nat) (a5 : Nat) (a6 : CpSection) :
    Keeps s0 (State.cpSection s a1 a2 a3 a4 a5 a6) := by
  unfold State.cpSection
  repeat' first | with_reducible exact h | with_reducible assumption | (intro _) | (extract_lets +onlyGivenNames sx; clear_value (hsx : sx = _); refine Keeps.step (s0 := s0) hsx ?_ ?_; swap; intro _; clear hsx) | (extract_lets +onlyGivenNames sx; clear_value (hsx : sx = _); subst hsx) | (with_reducible apply State.flowCount_keeps) | (with_reducible apply State.creRecord_keeps) | (with_reducible apply State.zeroPrbs_keeps) | (with_reducible apply State.hold_keeps) | (with_reducible apply State.takeWeights_keeps) | with_reducible apply Keeps.ite | with_reducible refine Keeps.foldl _ ?_ ?_ | split

theorem State.dnClose_keeps {s0 : Prop × State} {s : State} (h : Keeps s0 s) (a1 : Nat) :
    Keeps s0 (State.dnClose s a1) := by
  unfold State.dnClose
  repeat' first | with_reducible exact h | (extract_lets +onlyGivenNames sx; clear_value (hsx : sx = _); subst hsx) | (with_reducible apply State.setTile_keeps) | with_reducible apply Keeps.ite

theorem State.dnSettle_keeps {s0 : Prop × State} {s : State} (h : Keeps s0 s) (a1 : Nat) :
    Keeps s0 (State.dnSettle s a1) := by
  unfold State.dnSettle
  repeat' first | with_reducible exact h | (with_reducible apply State.dnClose_keeps) | with_reducible apply Keeps.ite

theorem State.creditBack_keeps {s0 : Prop × State} {s : State} (h : Keeps s0 s) (a1 : Nat) (a2 : Nat) :
    Keeps s0 (State.creditBack s a1 a2) := by
  unfold State.creditBack
  repeat' first | with_reducible exact h | with_reducible assumption | (extract_lets +onlyGivenNames sx; clear_value (hsx : sx = _); refine Keeps.step (s0 := s0) hsx ?_ ?_; swap; intro _; clear hsx) | (extract_lets +onlyGivenNames sx; clear_value (hsx : sx = _); subst hsx) | (with_reducible apply State.dnSettle_keeps) | (with_reducible apply State.setTile_keeps)

theorem State.crystalFault_keeps {s0 : Prop × State} {s : State} (h : Keeps s0 s) :
    Keeps s0 (State.crystalFault s) := by
  unfold State.crystalFault
  repeat' first | with_reducible exact h | with_reducible assumption | (intro _) | (extract_lets +onlyGivenNames sx; clear_value (hsx : sx = _); refine Keeps.step (s0 := s0) hsx ?_ ?_; swap; intro _; clear hsx) | (extract_lets +onlyGivenNames sx; clear_value (hsx : sx = _); subst hsx) | (with_reducible apply State.raise_keeps) | (with_reducible apply State.put_keeps) | (with_reducible apply State.report_keeps) | (with_reducible apply State.bump_keeps) | (with_reducible apply State.coastNow_keeps) | with_reducible refine Keeps.foldl _ ?_ ?_ | simp only [Keeps.any] | refine Keeps.core ?_ rfl rfl rfl rfl (fun _ => rfl) rfl

theorem State.storeCe_keeps {s0 : Prop × State} {s : State} (h : Keeps s0 s) (a1 : Nat) :
    Keeps s0 (State.storeCe s a1) := by
  unfold State.storeCe
  repeat' first | with_reducible exact h | (with_reducible apply State.report_keeps) | (with_reducible apply State.bump_keeps)

theorem State.storeAccess_keeps {s0 : Prop × State} {s : State} (h : Keeps s0 s) (q : MemReq) (ecc : EccSeen) : Keeps s0 (s.storeAccess q ecc).1 := by
  unfold State.storeAccess
  dsimp only
  split
  · exact h
  · split
    · split
      · exact Keeps.store h (fun x => swf_putBytes _ _ x)
      · split
        · exact h
        · exact State.storeCe_keeps h _
        · exact State.storeUe_keeps h _
    · exact h

theorem State.setInjQ_keeps {s0 : Prop × State} {s : State} (h : Keeps s0 s) (a1 : Nat) (a2 : Nat) (a3 : List GrtFlit) :
    Keeps s0 (State.setInjQ s a1 a2 a3) := by
  unfold State.setInjQ
  repeat' first | with_reducible exact h | (extract_lets +onlyGivenNames sx; clear_value (hsx : sx = _); subst hsx) | simp only [Keeps.any] | refine Keeps.core ?_ rfl rfl rfl rfl (fun _ => rfl) rfl

theorem State.sendPkt_keeps {s0 : Prop × State} {s : State} (h : Keeps s0 s) (a1 : GrtPkt) :
    Keeps s0 (State.sendPkt s a1) := by
  unfold State.sendPkt
  repeat' first | with_reducible exact h | (with_reducible apply State.setInjQ_keeps)

theorem State.respond_keeps {s0 : Prop × State} {s : State} (h : Keeps s0 s) (a1 : Nat) (a2 : Nat) (a3 : Nat) (a4 : Nat) (a5 : Nat) (a6 : Nat) (a7 : List Byte) :
    Keeps s0 (State.respond s a1 a2 a3 a4 a5 a6 a7) := by
  unfold State.respond
  repeat' first | with_reducible exact h | (with_reducible apply State.sendPkt_keeps)

theorem State.memAnswer_keeps {s0 : Prop × State} {s : State} (h : Keeps s0 s) (a1 : MemReq) (a2 : MemAns) :
    Keeps s0 (State.memAnswer s a1 a2) := by
  unfold State.memAnswer
  repeat' first | with_reducible exact h | with_reducible assumption | (extract_lets +onlyGivenNames sx; clear_value (hsx : sx = _); refine Keeps.step (s0 := s0) hsx ?_ ?_; swap; intro _; clear hsx) | (extract_lets +onlyGivenNames sx; clear_value (hsx : sx = _); subst hsx) | (with_reducible apply State.respond_keeps) | simp only [Keeps.any] | refine Keeps.core ?_ rfl rfl rfl rfl (fun _ => rfl) rfl | split

theorem State.storeRequest_keeps {s0 : Prop × State} {s : State} (h : Keeps s0 s) (a1 : MemReq) (a2 : EccSeen) :
    Keeps s0 (State.storeRequest s a1 a2) := by
  unfold State.storeRequest
  repeat' first | with_reducible exact h | (extract_lets +onlyGivenNames sx; clear_value (hsx : sx = _); subst hsx) | (with_reducible apply State.storeAccess_keeps) | (with_reducible apply State.memAnswer_keeps)

theorem State.rereads_keeps {s0 : Prop × State} {s : State} (h : Keeps s0 s) (a1 : ExtRead) (a2 : Nat) :
    Keeps s0 (State.rereads s a1 a2).2 := by
  unfold State.rereads
  repeat' first | with_reducible exact h | with_reducible assumption | (intro _) | (extract_lets +onlyGivenNames sx; clear_value (hsx : sx = _); refine Keeps.step (s0 := s0) hsx ?_ ?_; swap; intro _; clear hsx) | (with_reducible apply State.report_keeps) | (with_reducible apply State.bump_keeps) | with_reducible apply Keeps.ite2 | with_reducible refine Keeps.foldl _ ?_ ?_

theorem Keeps.ext {s0 : Prop × State} {s : State} (h : Keeps s0 s) {m : Sparse Byte} (hm : swf (fun _ => (0 : Byte)) s.mem.ext = true → swf (fun _ => (0 : Byte)) m = true) :
    Keeps s0 { s with mem := { s.mem with ext := m } } :=
  ⟨h.pending, h.regs, fun x => ⟨(h.mem x).1, hm (h.mem x).2.1, (h.mem x).2.2⟩, h.dat⟩

theorem State.plainAccess_keeps {s0 : Prop × State} {s : State} (h : Keeps s0 s) (q : MemReq) (x : ExtRead) : Keeps s0 (s.plainAccess q x).1 := by
  unfold State.plainAccess
  dsimp only
  split
  · exact Keeps.ext h (fun x => swf_putBytes _ _ x)
  · split
    · exact State.rereads_keeps h _ _
    · exact State.rereads_keeps h _ _

theorem State.extAlong_keeps {s0 : Prop × State} {s : State} (h : Keeps s0 s) (q : MemReq) (x : ExtRead) (r : ExtRoute) : Keeps s0 (s.extAlong q x r) := by
  unfold State.extAlong
  cases r with
  | refuse st => exact State.memAnswer_keeps (State.bump_keeps h _ _) _ _
  | plain => exact State.memAnswer_keeps (State.plainAccess_keeps h _ _) _ _
  | guard k =>
    dsimp only
    simp only [Keeps.any]
    exact Keeps.core h rfl rfl rfl rfl (fun _ => rfl) rfl

theorem State.extRequest_keeps {s0 : Prop × State} {s : State} (h : Keeps s0 s) (q : MemReq) (x : ExtRead) : Keeps s0 (s.extRequest q x) :=
  State.extAlong_keeps h q x _

theorem State.tileAccess_keeps {s0 : Prop × State} {s : State} (h : Keeps s0 s) (p : GrtPkt) (ecc : EccSeen) : Keeps s0 (s.tileAccess p ecc).1 := by
  unfold State.tileAccess
  dsimp only
  split
  · exact h
  · split
    · exact h
    · split
      · exact Keeps.foldl _ (fun _ _ ht => State.setTmem_keeps ht _ _ _) h
      · split
        · exact State.report_keeps h _ _ _ _
        · exact State.report_keeps h _ _ _ _
        · exact h

theorem State.hubAccess_keeps {s0 : Prop × State} {s : State} (h : Keeps s0 s) (a1 : GrtPkt) :
    Keeps s0 (State.hubAccess s a1).1 := by
  unfold State.hubAccess
  repeat' first | with_reducible exact h | (extract_lets +onlyGivenNames sx; clear_value (hsx : sx = _); subst hsx) | (with_reducible apply State.busWrite_keeps) | (with_reducible apply State.busRead_keeps) | with_reducible apply Keeps.ite1 | with_reducible apply Keeps.ite2

theorem State.deliverPkt_keeps {s0 : Prop × State} {s : State} (h : Keeps s0 s) (a1 : Nat) (a2 : GrtPkt) (a3 : EccSeen) (a4 : ExtRead) :
    Keeps s0 (State.deliverPkt s a1 a2 a3 a4) := by
  unfold State.deliverPkt
  repeat' first | with_reducible exact h | (extract_lets +onlyGivenNames sx; clear_value (hsx : sx = _); subst hsx) | (with_reducible apply State.storeRequest_keeps) | (with_reducible apply State.extRequest_keeps) | (with_reducible apply State.tileAccess_keeps) | (with_reducible apply State.hubAccess_keeps) | (with_reducible apply State.respond_keeps) | with_reducible apply Keeps.ite | with_reducible apply Keeps.ite1

theorem State.discardInput_keeps {s0 : Prop × State} {s : State} (h : Keeps s0 s) (a1 : Nat) (a2 : Nat) :
    Keeps s0 (State.discardInput s a1 a2) := by
  unfold State.discardInput
  repeat' first | with_reducible exact h | with_reducible assumption | (intro _) | (extract_lets +onlyGivenNames sx; clear_value (hsx : sx = _); refine Keeps.step (s0 := s0) hsx ?_ ?_; swap; intro _; clear hsx) | (extract_lets +onlyGivenNames sx; clear_value (hsx : sx = _); subst hsx) | (with_reducible apply State.takeIn_keeps) | (with_reducible apply State.strCount_keeps) | (with_reducible apply State.setTile_keeps) | with_reducible apply Keeps.ite | with_reducible refine Keeps.foldl _ ?_ ?_ | simp only [Keeps.any] | split

theorem State.setCached_keeps {s0 : Prop × State} {s : State} (h : Keeps s0 s) (a1 : Nat) (a2 : Nat) (a3 : Option CNode) :
    Keeps s0 (State.setCached s a1 a2 a3) := by
  unfold State.setCached
  repeat' first | with_reducible exact h | (extract_lets +onlyGivenNames sx; clear_value (hsx : sx = _); subst hsx) | simp only [Keeps.any] | refine Keeps.core ?_ rfl rfl rfl rfl (fun _ => rfl) rfl

theorem State.rootUse_keeps {s0 : Prop × State} {s : State} (h : Keeps s0 s) (a1 : Nat) :
    Keeps s0 (State.rootUse s a1).st := by
  unfold State.rootUse
  repeat' first | with_reducible exact h | (extract_lets +onlyGivenNames sx; clear_value (hsx : sx = _); subst hsx) | (with_reducible apply State.report_keeps) | (with_reducible apply State.bump_keeps) | with_reducible apply Keeps.ite_st | simp only [Keeps.any] | refine Keeps.core ?_ rfl rfl rfl rfl (fun _ => rfl) rfl | with_reducible apply Got.st_ok | with_reducible apply Got.st_halt

theorem State.guardFetch_keeps {s0 : Prop × State} {s : State} (h : Keeps s0 s) (a1 : ExtRead) (a2 : Nat) (a3 : Nat) :
    Keeps s0 (State.guardFetch s a1 a2 a3).st := by
  unfold State.guardFetch
  repeat' first | with_reducible exact h | with_reducible assumption | (extract_lets +onlyGivenNames sx; clear_value (hsx : sx = _); refine Keeps.step (s0 := s0) hsx ?_ ?_; swap; intro _; clear hsx) | (extract_lets +onlyGivenNames sx; clear_value (hsx : sx = _); subst hsx) | (with_reducible apply State.rereads_keeps) | (with_reducible apply State.report_keeps) | (with_reducible apply State.bump_keeps) | with_reducible apply Keeps.ite | with_reducible apply Keeps.ite_st | with_reducible apply Got.st_ok | with_reducible apply Got.st_noEcc

theorem Keeps.bindKeeps {α β : Type} {s0 : Prop × State} {g : Got α} {f : α → State → Got β} (hg : Keeps s0 g.st) (hf : ∀ v t, Keeps s0 t → Keeps s0 (f v t).st) :
    Keeps s0 (g.bind f).st := Keeps.bind_st hg hf

theorem State.node_keeps {s0 : Prop × State} {s : State} (h : Keeps s0 s) (g : GuardSeen) (up n : Nat) : Keeps s0 (State.node g up n s).st := by
  induction up generalizing n s with
  | zero =>
    unfold State.node
    split
    · exact h
    · extract_lets l s1
      have h1 : Keeps s0 s1 := State.bump_keeps h _ _
      clear_value s1
      split
      · exact State.setCached_keeps h1 _ _ _
      · extract_lets s2 up1
        have h2 : Keeps s0 s2 := by
          repeat' first | with_reducible assumption | (with_reducible apply State.backingLost_keeps) | with_reducible apply Keeps.ite
        have hu : Keeps s0 up1.st := State.rootUse_keeps h2 _
        clear_value s2 up1
        repeat' first | with_reducible assumption | (intro _) | (extract_lets +onlyGivenNames sx; clear_value (hsx : sx = _); subst hsx) | (with_reducible apply State.setCached_keeps) | (with_reducible apply State.guardFetch_keeps) | with_reducible apply Keeps.ite_st | with_reducible apply Keeps.bind_st | with_reducible apply Got.st_ok | with_reducible apply Got.st_halt
  | succ k ih =>
    unfold State.node
    split
    · exact h
    · extract_lets l s1
      have h1 : Keeps s0 s1 := State.bump_keeps h _ _
      clear_value s1
      split
      · exact State.setCached_keeps h1 _ _ _
      · extract_lets s2 up1
        have h2 : Keeps s0 s2 := by
          repeat' first | with_reducible assumption | (with_reducible apply State.backingLost_keeps) | with_reducible apply Keeps.ite
        have hu : Keeps s0 up1.st := Keeps.bind_st (ih h2 _) (fun _ _ ht => ht)
        clear_value s2 up1
        repeat' first | with_reducible assumption | (intro _) | (extract_lets +onlyGivenNames sx; clear_value (hsx : sx = _); subst hsx) | (with_reducible apply State.setCached_keeps) | (with_reducible apply State.guardFetch_keeps) | with_reducible apply Keeps.ite_st | with_reducible apply Keeps.bind_st | with_reducible apply Got.st_ok | with_reducible apply Got.st_halt

theorem State.lineCtr_keeps {s0 : Prop × State} {s : State} (h : Keeps s0 s) (a1 : GuardSeen) (a2 : Nat) :
    Keeps s0 (State.lineCtr s a1 a2).st := by
  unfold State.lineCtr
  repeat' first | with_reducible exact h | with_reducible assumption | (intro _) | (with_reducible apply State.node_keeps) | with_reducible apply Keeps.bind_st | with_reducible apply Got.st_ok

theorem State.upset_keeps {s0 : Prop × State} {s : State} (h : Keeps s0 s) (a1 : List (Nat × Nat × Nat)) :
    Keeps s0 (State.upset s a1) := by
  unfold State.upset
  repeat' first | with_reducible exact h | with_reducible assumption | (intro _) | (extract_lets +onlyGivenNames sx; clear_value (hsx : sx = _); subst hsx) | with_reducible refine Keeps.foldl _ ?_ ?_ | simp only [Keeps.any] | refine Keeps.core ?_ rfl rfl rfl rfl (fun _ => rfl) rfl

theorem State.lineRead_keeps {s0 : Prop × State} {s : State} (h : Keeps s0 s) (a1 : GuardSeen) (a2 : Nat) (a3 : Nat) (a4 : Nat) :
    Keeps s0 (State.lineRead s a1 a2 a3 a4).st := by
  unfold State.lineRead
  repeat' first | with_reducible exact h | with_reducible assumption | (intro _) | (extract_lets +onlyGivenNames sx; clear_value (hsx : sx = _); subst hsx) | (with_reducible apply State.guardFetch_keeps) | with_reducible apply Keeps.ite_st | with_reducible apply Keeps.bind_st | with_reducible apply Got.st_ok | with_reducible apply Got.st_halt

theorem State.guardStore_keeps {s0 : Prop × State} {s : State} (h : Keeps s0 s) (a m : Nat) (bs : List Byte) (tag : BitVec 64) : Keeps s0 (s.guardStore a m bs tag) :=
  Keeps.ext h (fun x => swf_putBytes _ _ (swf_putBytes _ _ x))

theorem State.guardWrite_keeps {s0 : Prop × State} {s : State} (h : Keeps s0 s) (a1 : GuardSeen) (a2 : Nat) (a3 : Nat) (a4 : Nat) (a5 : List Byte) :
    Keeps s0 (State.guardWrite s a1 a2 a3 a4 a5).st := by
  unfold State.guardWrite
  repeat' first | with_reducible exact h | with_reducible assumption | (intro _) | (extract_lets +onlyGivenNames sx; clear_value (hsx : sx = _); refine Keeps.step (s0 := s0) hsx ?_ ?_; swap; intro _; clear hsx) | (extract_lets +onlyGivenNames sx; clear_value (hsx : sx = _); subst hsx) | (with_reducible apply State.lineCtr_keeps) | (with_reducible apply State.upset_keeps) | (with_reducible apply State.lineRead_keeps) | (with_reducible apply State.bump_keeps) | (with_reducible apply State.setCached_keeps) | (with_reducible apply State.guardStore_keeps) | with_reducible apply Keeps.ite_st | with_reducible apply Keeps.bind_st | with_reducible apply Got.st_ok

theorem State.guardRead_keeps {s0 : Prop × State} {s : State} (h : Keeps s0 s) (a1 : GuardSeen) (a2 : Nat) (a3 : Nat) :
    Keeps s0 (State.guardRead s a1 a2 a3).st := by
  unfold State.guardRead
  repeat' first | with_reducible exact h | with_reducible assumption | (intro _) | (with_reducible apply State.lineCtr_keeps) | (with_reducible apply State.upset_keeps) | (with_reducible apply State.lineRead_keeps) | (with_reducible apply State.bump_keeps) | with_reducible apply Keeps.bind_st | with_reducible apply Got.st_ok

theorem Keeps.foldl_st {s0 : Prop × State} {α β : Type} {f : Got α → β → Got α} {g : Got α} (l : List β) (hf : ∀ q b, Keeps s0 q.st → Keeps s0 (f q b).st)
    (h : Keeps s0 g.st) : Keeps s0 (l.foldl f g).st := by
  induction l generalizing g with
  | nil => exact h
  | cons a l ih => exact ih (hf g a h)

theorem State.guardServe_keeps {s0 : Prop × State} {s : State} (h : Keeps s0 s) (gs : List GuardSeen) (k : Nat) (q : MemReq) : Keeps s0 (s.guardServe gs k q).st := by
  unfold State.guardServe
  extract_lets o
  refine Keeps.foldl_st _ ?_ h
  intro acc x ha
  refine Keeps.bind_st ha ?_
  intro out t ht
  extract_lets g
  split
  · exact Keeps.bind_st (State.guardWrite_keeps ht _ _ _ _ _) (fun _ _ hu => hu)
  · exact Keeps.bind_st (State.guardRead_keeps ht _ _ _) (fun _ _ hu => hu)

theorem State.zeroKeys_keeps {s0 : Prop × State} {s : State} (h : Keeps s0 s) :
    Keeps s0 (State.zeroKeys s) := by
  unfold State.zeroKeys
  repeat' first | with_reducible exact h | with_reducible assumption | (intro _) | (extract_lets +onlyGivenNames sx; clear_value (hsx : sx = _); refine Keeps.step (s0 := s0) hsx ?_ ?_; swap; intro _; clear hsx) | (extract_lets +onlyGivenNames sx; clear_value (hsx : sx = _); subst hsx) | (with_reducible apply State.put_keeps) | simp only [Keeps.any] | with_reducible apply Keeps.coreM | exact Eq.refl _

theorem State.gazWrite_keeps {s0 : Prop × State} {s : State} (h : Keeps s0 s) (a1 : Option Nat) :
    Keeps s0 (State.gazWrite s a1) := by
  unfold State.gazWrite
  repeat' first | with_reducible exact h | (extract_lets +onlyGivenNames sx; clear_value (hsx : sx = _); subst hsx) | with_reducible apply Keeps.ite | simp only [Keeps.any] | refine Keeps.core ?_ rfl rfl rfl rfl (fun _ => rfl) rfl

theorem State.swtStop_keeps {s0 : Prop × State} {s : State} (h : Keeps s0 s) :
    Keeps s0 (State.swtStop s) := by
  unfold State.swtStop
  repeat' first | with_reducible exact h | with_reducible assumption | (extract_lets +onlyGivenNames sx; clear_value (hsx : sx = _); refine Keeps.step (s0 := s0) hsx ?_ ?_; swap; intro _; clear hsx) | (extract_lets +onlyGivenNames sx; clear_value (hsx : sx = _); subst hsx) | (with_reducible apply State.swtBreak_keeps) | (with_reducible apply State.addChanges_keeps) | (with_reducible apply State.put_keeps) | with_reducible apply Keeps.ite | simp only [Keeps.any] | refine Keeps.core ?_ rfl rfl rfl rfl (fun _ => rfl) rfl | split

theorem State.dropOrders_keeps {s0 : Prop × State} {s : State} (h : Keeps s0 s) (a1 : Bool) :
    Keeps s0 (State.dropOrders s a1) := by
  unfold State.dropOrders
  repeat' first | with_reducible exact h | with_reducible assumption | (intro _) | (extract_lets +onlyGivenNames sx; clear_value (hsx : sx = _); refine Keeps.step (s0 := s0) hsx ?_ ?_; swap; intro _; clear hsx) | (extract_lets +onlyGivenNames sx; clear_value (hsx : sx = _); subst hsx) | (with_reducible apply State.setPlaneOrders_keeps) | (with_reducible apply State.setWale_keeps) | with_reducible refine Keeps.foldl _ ?_ ?_ | simp only [Keeps.any] | refine Keeps.core ?_ rfl rfl rfl rfl (fun _ => rfl) rfl

theorem State.dropWork_keeps {s0 : Prop × State} {s : State} (h : Keeps s0 s) :
    Keeps s0 (State.dropWork s) := by
  unfold State.dropWork
  repeat' first | with_reducible exact h | with_reducible assumption | (extract_lets +onlyGivenNames sx; clear_value (hsx : sx = _); refine Keeps.step (s0 := s0) hsx ?_ ?_; swap; intro _; clear hsx) | (extract_lets +onlyGivenNames sx; clear_value (hsx : sx = _); subst hsx) | (with_reducible apply State.abandonOpen_keeps) | simp only [Keeps.any] | refine Keeps.core ?_ rfl rfl rfl rfl (fun _ => rfl) rfl

theorem State.stopAll_keeps {s0 : Prop × State} {s : State} (h : Keeps s0 s) :
    Keeps s0 (State.stopAll s) := by
  unfold State.stopAll
  repeat' first | with_reducible exact h | (with_reducible apply State.swtStop_keeps) | (with_reducible apply State.dropOrders_keeps) | (with_reducible apply State.airStopNow_keeps) | (with_reducible apply State.dropWork_keeps)

theorem State.enterHalted_keeps {s0 : Prop × State} {s : State} (h : Keeps s0 s) (a1 : Nat) (a2 : Nat) :
    Keeps s0 (State.enterHalted s a1 a2) := by
  unfold State.enterHalted
  repeat' first | with_reducible exact h | with_reducible assumption | (intro _) | (extract_lets +onlyGivenNames sx; clear_value (hsx : sx = _); refine Keeps.step (s0 := s0) hsx ?_ ?_; swap; intro _; clear hsx) | (extract_lets +onlyGivenNames sx; clear_value (hsx : sx = _); subst hsx) | (with_reducible apply State.zeroKeys_keeps) | (with_reducible apply State.journal_keeps) | (with_reducible apply State.report_keeps) | (with_reducible apply State.wr_keeps) | (with_reducible apply State.gazWrite_keeps) | (with_reducible apply State.stopAll_keeps) | (with_reducible apply State.gazInc_keeps) | (with_reducible apply State.lanesMove_keeps) | (with_reducible apply State.enter_keeps) | with_reducible apply Keeps.ite | simp only [Keeps.any] | refine Keeps.core ?_ rfl rfl rfl rfl (fun _ => rfl) rfl | with_reducible apply Keeps.coreM | exact Eq.refl _

theorem State.dmaAlong_keeps {s0 : Prop × State} {s : State} (h : Keeps s0 s) (q : MemReq) (x : ExtRead) (g : List GuardSeen) (r : ExtRoute) :
    Keeps s0 (s.dmaAlong q x g r).1 := by
  unfold State.dmaAlong
  cases r with
  | refuse st => exact State.bump_keeps h _ _
  | plain => exact State.plainAccess_keeps h _ _
  | guard k =>
    have hk := State.guardServe_keeps (State.put_keeps h R.MGD_STATUS F.MGD_STATUS_FRESH 0) g k q
    dsimp only
    split <;> rename_i e <;> rw [e] at hk
    · exact hk
    · exact State.enterHalted_keeps hk _ _
    · exact hk

theorem State.dmaAccess_keeps {s0 : Prop × State} {s : State} (h : Keeps s0 s) (q : MemReq) (ecc : EccSeen) (x : ExtRead) (g : List GuardSeen) :
    Keeps s0 (s.dmaAccess q ecc x g).1 := by
  unfold State.dmaAccess
  split
  · exact State.storeAccess_keeps h _ _
  · split
    · exact State.dmaAlong_keeps h _ _ _ _
    · exact h

theorem State.setDmaQ_keeps {s0 : Prop × State} {s : State} (h : Keeps s0 s) (a1 : Nat) (a2 : DmaQ) :
    Keeps s0 (State.setDmaQ s a1 a2) := by
  unfold State.setDmaQ
  repeat' first | with_reducible exact h | (extract_lets +onlyGivenNames sx; clear_value (hsx : sx = _); subst hsx) | simp only [Keeps.any] | refine Keeps.core ?_ rfl rfl rfl rfl (fun _ => rfl) rfl

theorem State.dmaRecord_keeps {s0 : Prop × State} {s : State} (h : Keeps s0 s) (a1 : Nat) (a2 : Desc) (a3 : Nat) (a4 : Nat) :
    Keeps s0 (State.dmaRecord s a1 a2 a3 a4) := by
  unfold State.dmaRecord
  repeat' first | with_reducible exact h | with_reducible assumption | (extract_lets +onlyGivenNames sx; clear_value (hsx : sx = _); refine Keeps.step (s0 := s0) hsx ?_ ?_; swap; intro _; clear hsx) | (extract_lets +onlyGivenNames sx; clear_value (hsx : sx = _); subst hsx) | (with_reducible apply State.hostWrite_keeps) | (with_reducible apply State.setDmaQ_keeps) | (with_reducible apply State.put_keeps) | (with_reducible apply State.msix_keeps) | with_reducible apply Keeps.ite

theorem State.dmaEnd_keeps {s0 : Prop × State} {s : State} (h : Keeps s0 s) (a1 : Nat) (a2 : Desc) (a3 : Nat) (a4 : Nat) :
    Keeps s0 (State.dmaEnd s a1 a2 a3 a4) := by
  unfold State.dmaEnd
  repeat' first | with_reducible exact h | with_reducible assumption | (extract_lets +onlyGivenNames sx; clear_value (hsx : sx = _); refine Keeps.step (s0 := s0) hsx ?_ ?_; swap; intro _; clear hsx) | (extract_lets +onlyGivenNames sx; clear_value (hsx : sx = _); subst hsx) | (with_reducible apply State.dmaRecord_keeps) | (with_reducible apply State.setDmaQ_keeps) | (with_reducible apply State.setQState_keeps) | with_reducible apply Keeps.ite

theorem State.dmaError_keeps {s0 : Prop × State} {s : State} (h : Keeps s0 s) (a1 : Nat) (a2 : Desc) (a3 : Nat) (a4 : List (List Word)) :
    Keeps s0 (State.dmaError s a1 a2 a3 a4) := by
  unfold State.dmaError
  repeat' first | with_reducible exact h | with_reducible assumption | (intro _) | (extract_lets +onlyGivenNames sx; clear_value (hsx : sx = _); refine Keeps.step (s0 := s0) hsx ?_ ?_; swap; intro _; clear hsx) | (extract_lets +onlyGivenNames sx; clear_value (hsx : sx = _); subst hsx) | (with_reducible apply State.dmaEnd_keeps) | (with_reducible apply State.setQState_keeps) | (with_reducible apply State.put_keeps) | (with_reducible apply State.raise_keeps) | with_reducible refine Keeps.foldl _ ?_ ?_

theorem State.dmaFinish_keeps {s0 : Prop × State} {s : State} (h : Keeps s0 s) (a1 : Nat) (a2 : Desc) (a3 : Nat) (a4 : Nat) (a5 : List (List Word)) :
    Keeps s0 (State.dmaFinish s a1 a2 a3 a4 a5) := by
  unfold State.dmaFinish
  repeat' first | with_reducible exact h | (with_reducible apply State.dmaError_keeps) | (with_reducible apply State.dmaEnd_keeps) | with_reducible apply Keeps.ite

theorem State.dmaKeep_keeps {s0 : Prop × State} {s : State} (h : Keeps s0 s) (a1 : Nat) (a2 : Desc) :
    Keeps s0 (State.dmaKeep s a1 a2) := by
  unfold State.dmaKeep
  repeat' first | with_reducible exact h | (extract_lets +onlyGivenNames sx; clear_value (hsx : sx = _); subst hsx) | (with_reducible apply State.setDmaQ_keeps)

theorem dmaCopy_keeps {s0 : Prop × State} {s : State} (h : Keeps s0 s) (q : Nat) (d2h : Bool) (seen : DmaSeen) (fuel i : Nat) (d : Desc) :
    Keeps s0 (dmaCopy q d2h seen fuel i d s).1 := by
  induction fuel generalizing i d s with
  | zero => exact h
  | succ k ih =>
    unfold dmaCopy
    split
    · exact h
    · extract_lets a key n got n2 r
      have hr : Keeps s0 r.1 := State.dmaAccess_keeps h _ _ _ _
      clear_value r
      split
      · exact h
      · split
        · exact hr
        · split
          · exact hr
          · apply ih
            repeat' first | with_reducible assumption | (with_reducible apply State.hostWrite_keeps) | with_reducible apply Keeps.ite

theorem State.flowForget_keeps {s0 : Prop × State} {s : State} (h : Keeps s0 s) (a1 : Nat) :
    Keeps s0 (State.flowForget s a1) := by
  unfold State.flowForget
  repeat' first | with_reducible exact h | (extract_lets +onlyGivenNames sx; clear_value (hsx : sx = _); subst hsx) | with_reducible apply Keeps.ite | simp only [Keeps.any] | refine Keeps.core ?_ rfl rfl rfl rfl (fun _ => rfl) rfl

theorem State.laneStreamClosed_keeps {s0 : Prop × State} {s : State} (h : Keeps s0 s) (a1 : Nat) (a2 : Bool) :
    Keeps s0 (State.laneStreamClosed s a1 a2) := by
  unfold State.laneStreamClosed
  repeat' first | with_reducible exact h | with_reducible assumption | (intro _) | (extract_lets +onlyGivenNames sx; clear_value (hsx : sx = _); refine Keeps.step (s0 := s0) hsx ?_ ?_; swap; intro _; clear hsx) | (extract_lets +onlyGivenNames sx; clear_value (hsx : sx = _); subst hsx) | (with_reducible apply State.bindsDone_keeps) | (with_reducible apply State.bindDown_keeps) | with_reducible refine Keeps.foldl _ ?_ ?_ | simp only [Keeps.any] | refine Keeps.core ?_ rfl rfl rfl rfl (fun _ => rfl) rfl

theorem State.strClose_keeps {s0 : Prop × State} {s : State} (h : Keeps s0 s) (a1 : Nat) (a2 : RetCode) :
    Keeps s0 (State.strClose s a1 a2) := by
  unfold State.strClose
  repeat' first | with_reducible exact h | with_reducible assumption | (intro _) | (extract_lets +onlyGivenNames sx; clear_value (hsx : sx = _); refine Keeps.step (s0 := s0) hsx ?_ ?_; swap; intro _; clear hsx) | (extract_lets +onlyGivenNames sx; clear_value (hsx : sx = _); subst hsx) | (with_reducible apply State.flowForget_keeps) | (with_reducible apply State.laneStreamClosed_keeps) | (with_reducible apply State.completeOpt_keeps) | (with_reducible apply State.setStream_keeps) | with_reducible refine Keeps.foldl _ ?_ ?_

theorem State.strTake_keeps {s0 : Prop × State} {s : State} (h : Keeps s0 s) (a1 : Nat) :
    Keeps s0 (State.strTake s a1).2 := by
  unfold State.strTake
  repeat' first | with_reducible exact h | (extract_lets +onlyGivenNames sx; clear_value (hsx : sx = _); subst hsx) | (with_reducible apply State.setStream_keeps) | (with_reducible apply State.strClose_keeps) | with_reducible apply Keeps.ite2 | simp only [Keeps.any] | split

theorem dmaReceive_keeps {s0 : Prop × State} {s : State} (h : Keeps s0 s) (n fuel : Nat) (d : Desc) : Keeps s0 (dmaReceive n fuel d s).1 := by
  induction fuel generalizing d s with
  | zero => exact h
  | succ k ih =>
    unfold dmaReceive
    split
    · exact h
    · split
      · rename_i e
        exact Keeps.of_snd e (State.strTake_keeps h _)
      · rename_i e
        have h1 := Keeps.of_snd e (State.strTake_keeps h n)
        split
        · exact h1
        · split
          · exact h1
          · dsimp only
            split
            · exact State.hostWrite_keeps h1 _ _
            · exact ih (State.hostWrite_keeps h1 _ _) _

theorem State.strGive_keeps {s0 : Prop × State} {s : State} (h : Keeps s0 s) (a1 : Nat) (a2 : Elem) :
    Keeps s0 (State.strGive s a1 a2).2 := by
  unfold State.strGive
  repeat' first | with_reducible exact h | (extract_lets +onlyGivenNames sx; clear_value (hsx : sx = _); subst hsx) | (with_reducible apply State.strOffer_keeps) | (with_reducible apply State.setStream_keeps) | with_reducible apply Keeps.ite2

theorem dmaSend_keeps {s0 : Prop × State} {s : State} (h : Keeps s0 s) (n : Nat) (seen : DmaSeen) (fuel : Nat) (d : Desc) : Keeps s0 (dmaSend n seen fuel d s).1 := by
  induction fuel generalizing d s with
  | zero => exact h
  | succ k ih =>
    unfold dmaSend
    split
    · exact h
    · extract_lets bs fl r
      have hr : Keeps s0 r.2 := State.strGive_keeps h _ _
      clear_value r
      split
      · exact h
      · split
        · exact ih hr _
        · exact hr

theorem State.dmaWork_keeps {s0 : Prop × State} {s : State} (h : Keeps s0 s) (a1 : Nat) (a2 : Desc) (a3 : DmaSeen) :
    Keeps s0 (State.dmaWork s a1 a2 a3).1 := by
  unfold State.dmaWork
  repeat' first | with_reducible exact h | (extract_lets +onlyGivenNames sx; clear_value (hsx : sx = _); subst hsx) | (with_reducible apply dmaCopy_keeps) | (with_reducible apply dmaReceive_keeps) | (with_reducible apply dmaSend_keeps) | (with_reducible apply State.strGive_keeps) | with_reducible apply Keeps.ite1 | simp only [Keeps.any] | split

theorem State.dormAt_keeps {s0 : Prop × State} {s : State} (h : Keeps s0 s) (a1 : DormPhase) :
    Keeps s0 (State.dormAt s a1) := by
  unfold State.dormAt
  repeat' first | with_reducible exact h | (extract_lets +onlyGivenNames sx; clear_value (hsx : sx = _); subst hsx) | simp only [Keeps.any] | refine Keeps.core ?_ rfl rfl rfl rfl (fun _ => rfl) rfl

theorem State.setCtxState_keeps {s0 : Prop × State} {s : State} (h : Keeps s0 s) (a1 : Nat) (a2 : Nat) :
    Keeps s0 (State.setCtxState s a1 a2) := by
  unfold State.setCtxState
  repeat' first | with_reducible exact h | (with_reducible apply State.put_keeps)

theorem State.portDone_keeps {s0 : Prop × State} {s : State} (h : Keeps s0 s) (a1 : Nat) (a2 : LdrCtx) (a3 : RetCode) :
    Keeps s0 (State.portDone s a1 a2 a3) := by
  unfold State.portDone
  repeat' first | with_reducible exact h | (extract_lets +onlyGivenNames sx; clear_value (hsx : sx = _); subst hsx) | simp only [Keeps.any] | refine Keeps.core ?_ rfl rfl rfl rfl (fun _ => rfl) rfl | split

theorem State.ldrDone_keeps {s0 : Prop × State} {s : State} (h : Keeps s0 s) (a1 : Nat) (a2 : Option Nat) (a3 : RetCode) (a4 : Bool) (a5 : Bool) (a6 : Nat) :
    Keeps s0 (State.ldrDone s a1 a2 a3 a4 a5 a6) := by
  unfold State.ldrDone
  repeat' first | with_reducible exact h | (with_reducible apply State.completeOpt_keeps)

theorem State.reject_keeps {s0 : Prop × State} {s : State} (h : Keeps s0 s) (a1 : Nat) (a2 : Nat) (a3 : RetCode) :
    Keeps s0 (State.reject s a1 a2 a3) := by
  unfold State.reject
  repeat' first | with_reducible exact h | with_reducible assumption | (extract_lets +onlyGivenNames sx; clear_value (hsx : sx = _); refine Keeps.step (s0 := s0) hsx ?_ ?_; swap; intro _; clear hsx) | (with_reducible apply State.put_keeps) | (with_reducible apply State.setCtxState_keeps) | (with_reducible apply State.gazInc_keeps) | (with_reducible apply State.bump_keeps) | (with_reducible apply State.report_keeps) | (with_reducible apply State.portDone_keeps) | (with_reducible apply State.setCtx_keeps) | (with_reducible apply State.ldrDone_keeps) | (with_reducible apply State.castJournal_keeps) | (with_reducible apply State.wr_keeps) | (with_reducible apply State.claimCtx_keeps) | with_reducible apply Keeps.ite | simp only [Keeps.any] | refine Keeps.core ?_ rfl rfl rfl rfl (fun _ => rfl) rfl | split

theorem State.portAbandon_keeps {s0 : Prop × State} {s : State} (h : Keeps s0 s) (a1 : Nat) :
    Keeps s0 (State.portAbandon s a1) := by
  unfold State.portAbandon
  repeat' first | with_reducible exact h | with_reducible assumption | (extract_lets +onlyGivenNames sx; clear_value (hsx : sx = _); refine Keeps.step (s0 := s0) hsx ?_ ?_; swap; intro _; clear hsx) | (extract_lets +onlyGivenNames sx; clear_value (hsx : sx = _); subst hsx) | (with_reducible apply State.reject_keeps) | with_reducible apply Keeps.ite | simp only [Keeps.any] | refine Keeps.core ?_ rfl rfl rfl rfl (fun _ => rfl) rfl | split

theorem State.dormantEntry_keeps {s0 : Prop × State} {s : State} (h : Keeps s0 s) (a1 : Nat) :
    Keeps s0 (State.dormantEntry s a1) := by
  unfold State.dormantEntry
  repeat' first | with_reducible exact h | with_reducible assumption | (intro _) | (extract_lets +onlyGivenNames sx; clear_value (hsx : sx = _); refine Keeps.step (s0 := s0) hsx ?_ ?_; swap; intro _; clear hsx) | (extract_lets +onlyGivenNames sx; clear_value (hsx : sx = _); subst hsx) | (with_reducible apply State.swtStop_keeps) | (with_reducible apply State.put_keeps) | (with_reducible apply State.bump_keeps) | (with_reducible apply State.stageMap_keeps) | (with_reducible apply State.portAbandon_keeps) | (with_reducible apply State.dmaStop_keeps) | (with_reducible apply State.lanesMove_keeps) | with_reducible refine Keeps.foldl _ ?_ ?_ | simp only [Keeps.any] | refine Keeps.core ?_ rfl rfl rfl rfl (fun _ => rfl) rfl

theorem State.drawKeys_keeps {s0 : Prop × State} {s : State} (h : Keeps s0 s) :
    Keeps s0 (State.drawKeys s) := by
  unfold State.drawKeys
  repeat' first | with_reducible exact h | with_reducible assumption | (intro _) | (extract_lets +onlyGivenNames sx; clear_value (hsx : sx = _); refine Keeps.step (s0 := s0) hsx ?_ ?_; swap; intro _; clear hsx) | (extract_lets +onlyGivenNames sx; clear_value (hsx : sx = _); subst hsx) | (with_reducible apply State.put_keeps) | simp only [Keeps.any] | with_reducible apply Keeps.coreM | exact Eq.refl _

theorem State.dropArrived_keeps {s0 : Prop × State} {s : State} (h : Keeps s0 s) (a1 : Nat) (a2 : GrtPkt → Bool) :
    Keeps s0 (State.dropArrived s a1 a2) := by
  unfold State.dropArrived
  repeat' first | with_reducible exact h | (extract_lets +onlyGivenNames sx; clear_value (hsx : sx = _); subst hsx) | simp only [Keeps.any] | refine Keeps.core ?_ rfl rfl rfl rfl (fun _ => rfl) rfl

theorem State.dropKeys_keeps {s0 : Prop × State} {s : State} (h : Keeps s0 s) (a1 : List (Nat × Nat)) :
    Keeps s0 (State.dropKeys s a1) := by
  unfold State.dropKeys
  repeat' first | with_reducible exact h | (extract_lets +onlyGivenNames sx; clear_value (hsx : sx = _); subst hsx) | simp only [Keeps.any] | refine Keeps.core ?_ rfl rfl rfl rfl (fun _ => rfl) rfl

theorem State.dropNet_keeps {s0 : Prop × State} {s : State} (h : Keeps s0 s) (a1 : Nat) (a2 : List Nat) :
    Keeps s0 (State.dropNet s a1 a2) := by
  unfold State.dropNet
  repeat' first | with_reducible exact h | with_reducible assumption | (intro _) | (with_reducible apply State.setNet_keeps) | with_reducible apply Keeps.ite | with_reducible refine Keeps.foldl _ ?_ ?_

theorem State.dropRest_keeps {s0 : Prop × State} {s : State} (h : Keeps s0 s) (a1 : LdrSrc) (a2 : Nat) :
    Keeps s0 (State.dropRest s a1 a2) := by
  unfold State.dropRest
  repeat' first | with_reducible exact h | (extract_lets +onlyGivenNames sx; clear_value (hsx : sx = _); subst hsx) | simp only [Keeps.any] | refine Keeps.core ?_ rfl rfl rfl rfl (fun _ => rfl) rfl | split

theorem State.macCount_keeps {s0 : Prop × State} {s : State} (h : Keeps s0 s) (a1 : Nat) (a2 : Nat) (a3 : Nat) :
    Keeps s0 (State.macCount s a1 a2 a3) := by
  unfold State.macCount
  repeat' first | with_reducible exact h | (with_reducible apply State.bump_keeps) | with_reducible apply Keeps.ite

theorem State.queueFrame_keeps {s0 : Prop × State} {s : State} (h : Keeps s0 s) (a1 : Nat) (a2 : TxFrame) :
    Keeps s0 (State.queueFrame s a1 a2) := by
  unfold State.queueFrame
  repeat' first | with_reducible exact h | (extract_lets +onlyGivenNames sx; clear_value (hsx : sx = _); subst hsx) | (with_reducible apply State.setFhe_keeps)

theorem State.placeSection_keeps {s0 : Prop × State} {s : State} (h : Keeps s0 s) (a1 : Nat) (a2 : Nat) (a3 : Nat) (a4 : Nat) (a5 : UpSection) :
    Keeps s0 (State.placeSection s a1 a2 a3 a4 a5) := by
  unfold State.placeSection
  repeat' first | with_reducible exact h | with_reducible assumption | (intro _) | (with_reducible apply State.flowCount_keeps) | (with_reducible apply State.strOffer_keeps) | with_reducible apply Keeps.ite | with_reducible refine Keeps.foldl _ ?_ ?_ | simp only [Keeps.any] | split

theorem State.iqMessage_keeps {s0 : Prop × State} {s : State} (h : Keeps s0 s) (a1 : Nat) (a2 : Nat) (a3 : Nat) (a4 : Nat) (a5 : List UpSection) :
    Keeps s0 (State.iqMessage s a1 a2 a3 a4 a5) := by
  unfold State.iqMessage
  repeat' first | with_reducible exact h | with_reducible assumption | (intro _) | (extract_lets +onlyGivenNames sx; clear_value (hsx : sx = _); refine Keeps.step (s0 := s0) hsx ?_ ?_; swap; intro _; clear hsx) | (extract_lets +onlyGivenNames sx; clear_value (hsx : sx = _); subst hsx) | (with_reducible apply State.flowCount_keeps) | (with_reducible apply State.placeSection_keeps) | with_reducible apply Keeps.ite | with_reducible refine Keeps.foldl _ ?_ ?_ | simp only [Keeps.any] | split

theorem State.seqCheck_keeps {s0 : Prop × State} {s : State} (h : Keeps s0 s) (a1 : Nat) (a2 : Nat) (a3 : Nat) :
    Keeps s0 (State.seqCheck s a1 a2 a3) := by
  unfold State.seqCheck
  repeat' first | with_reducible exact h | with_reducible assumption | (extract_lets +onlyGivenNames sx; clear_value (hsx : sx = _); refine Keeps.step (s0 := s0) hsx ?_ ?_; swap; intro _; clear hsx) | (extract_lets +onlyGivenNames sx; clear_value (hsx : sx = _); subst hsx) | (with_reducible apply State.setFhe_keeps) | (with_reducible apply State.flowCount_keeps) | with_reducible apply Keeps.ite

theorem State.ecpri_keeps {s0 : Prop × State} {s : State} (h : Keeps s0 s) (a1 : Nat) (a2 : Ecpri) :
    Keeps s0 (State.ecpri s a1 a2) := by
  unfold State.ecpri
  repeat' first | with_reducible exact h | with_reducible assumption | (intro _) | (extract_lets +onlyGivenNames sx; clear_value (hsx : sx = _); refine Keeps.step (s0 := s0) hsx ?_ ?_; swap; intro _; clear hsx) | (extract_lets +onlyGivenNames sx; clear_value (hsx : sx = _); subst hsx) | (with_reducible apply State.setsDue_keeps) | (with_reducible apply State.reach_keeps) | (with_reducible apply State.macCount_keeps) | (with_reducible apply State.queueFrame_keeps) | (with_reducible apply State.flowCount_keeps) | (with_reducible apply State.iqMessage_keeps) | (with_reducible apply State.seqCheck_keeps) | (with_reducible apply State.cpClass_keeps) | (with_reducible apply State.cpSection_keeps) | with_reducible apply Keeps.ite | with_reducible refine Keeps.foldl _ ?_ ?_ | simp only [Keeps.any] | split

theorem State.gazHist_keeps {s0 : Prop × State} {s : State} (h : Keeps s0 s) (a1 : Nat) (a2 : Nat) :
    Keeps s0 (State.gazHist s a1 a2) := by
  unfold State.gazHist
  repeat' first | with_reducible exact h | (extract_lets +onlyGivenNames sx; clear_value (hsx : sx = _); subst hsx) | simp only [Keeps.any] | refine Keeps.core ?_ rfl rfl rfl rfl (fun _ => rfl) rfl

theorem State.gazMax_keeps {s0 : Prop × State} {s : State} (h : Keeps s0 s) (a1 : Nat) (a2 : Nat) :
    Keeps s0 (State.gazMax s a1 a2) := by
  unfold State.gazMax
  repeat' first | with_reducible exact h | (extract_lets +onlyGivenNames sx; clear_value (hsx : sx = _); subst hsx) | simp only [Keeps.any] | refine Keeps.core ?_ rfl rfl rfl rfl (fun _ => rfl) rfl

theorem State.endEpisode_keeps {s0 : Prop × State} {s : State} (h : Keeps s0 s) :
    Keeps s0 (State.endEpisode s) := by
  unfold State.endEpisode
  repeat' first | with_reducible exact h | with_reducible assumption | (extract_lets +onlyGivenNames sx; clear_value (hsx : sx = _); refine Keeps.step (s0 := s0) hsx ?_ ?_; swap; intro _; clear hsx) | (extract_lets +onlyGivenNames sx; clear_value (hsx : sx = _); subst hsx) | (with_reducible apply State.journal_keeps) | (with_reducible apply State.gazHist_keeps) | (with_reducible apply State.gazMax_keeps)

theorem State.gazLoad_keeps {s0 : Prop × State} {s : State} (h : Keeps s0 s) :
    Keeps s0 (State.gazLoad s) := by
  unfold State.gazLoad
  repeat' first | with_reducible exact h | (extract_lets +onlyGivenNames sx; clear_value (hsx : sx = _); subst hsx) | simp only [Keeps.any] | refine Keeps.core ?_ rfl rfl rfl rfl (fun _ => rfl) rfl

theorem State.spareColumn_keeps {s0 : Prop × State} {s : State} (h : Keeps s0 s) (n c : Nat) : ∀ t, s.spareColumn n c = some t → Keeps s0 t := by
  intro t e
  unfold State.spareColumn at e
  rw [Option.map_eq_some_iff] at e
  obtain ⟨p, -, rfl⟩ := e
  exact State.put_keeps (State.put_keeps h _ _ _) _ _ _

theorem State.fusedRepair_keeps {s0 : Prop × State} {s : State} (h : Keeps s0 s) (a1 : Repair) :
    Keeps s0 (State.fusedRepair s a1) := by
  unfold State.fusedRepair
  repeat' first | with_reducible exact h | (with_reducible apply State.put_keeps) | (with_reducible refine Keeps.getD (State.spareColumn_keeps ?_ _ _) ?_) | (with_reducible apply State.wr_keeps) | split

theorem State.enterBoot_keeps {s0 : Prop × State} {s : State} (h : Keeps s0 s) (a1 : Bool) :
    Keeps s0 (State.enterBoot s a1) := by
  unfold State.enterBoot
  repeat' first | with_reducible exact h | with_reducible assumption | (intro _) | (extract_lets +onlyGivenNames sx; clear_value (hsx : sx = _); refine Keeps.step (s0 := s0) hsx ?_ ?_; swap; intro _; clear hsx) | (extract_lets +onlyGivenNames sx; clear_value (hsx : sx = _); subst hsx) | (with_reducible apply State.dropWork_keeps) | (with_reducible apply State.bootCleared_keeps) | (with_reducible apply State.gazInc_keeps) | (with_reducible apply State.gazLoad_keeps) | (with_reducible apply State.fusedRepair_keeps) | (with_reducible apply State.wr_keeps) | (with_reducible apply State.enter_keeps) | with_reducible apply Keeps.ite | with_reducible refine Keeps.foldl _ ?_ ?_ | simp only [Keeps.any] | refine Keeps.core ?_ rfl rfl rfl rfl (fun _ => rfl) rfl | split

theorem State.setMer_keeps {s0 : Prop × State} {s : State} (h : Keeps s0 s) (a1 : Mer) :
    Keeps s0 (State.setMer s a1) := by
  unfold State.setMer
  repeat' first | with_reducible exact h | simp only [Keeps.any] | refine Keeps.core ?_ rfl rfl rfl rfl (fun _ => rfl) rfl

theorem State.modelStore_keeps {s0 : Prop × State} {s : State} (h : Keeps s0 s) :
    Keeps s0 (State.modelStore s) := by
  unfold State.modelStore
  repeat' first | with_reducible exact h | (extract_lets +onlyGivenNames sx; clear_value (hsx : sx = _); subst hsx) | (with_reducible apply State.setMer_keeps)

theorem State.enterHoldover_keeps {s0 : Prop × State} {s : State} (h : Keeps s0 s) (a1 : PllSecond) :
    Keeps s0 (State.enterHoldover s a1) := by
  unfold State.enterHoldover
  repeat' first | with_reducible exact h | with_reducible assumption | (extract_lets +onlyGivenNames sx; clear_value (hsx : sx = _); refine Keeps.step (s0 := s0) hsx ?_ ?_; swap; intro _; clear hsx) | (extract_lets +onlyGivenNames sx; clear_value (hsx : sx = _); subst hsx) | (with_reducible apply State.bump_keeps) | (with_reducible apply State.put_keeps) | (with_reducible apply State.wr_keeps) | (with_reducible apply State.setMer_keeps) | (with_reducible apply State.report_keeps) | (with_reducible apply State.gazInc_keeps) | (with_reducible apply State.modelStore_keeps)

theorem State.enterLocked_keeps {s0 : Prop × State} {s : State} (h : Keeps s0 s) (a1 : Nat) :
    Keeps s0 (State.enterLocked s a1) := by
  unfold State.enterLocked
  repeat' first | with_reducible exact h | with_reducible assumption | (extract_lets +onlyGivenNames sx; clear_value (hsx : sx = _); refine Keeps.step (s0 := s0) hsx ?_ ?_; swap; intro _; clear hsx) | (extract_lets +onlyGivenNames sx; clear_value (hsx : sx = _); subst hsx) | (with_reducible apply State.endEpisode_keeps) | (with_reducible apply State.put_keeps) | (with_reducible apply State.wr_keeps) | (with_reducible apply State.setMer_keeps) | with_reducible apply Keeps.ite

theorem State.enterQuiet_keeps {s0 : Prop × State} {s : State} (h : Keeps s0 s) :
    Keeps s0 (State.enterQuiet s) := by
  unfold State.enterQuiet
  repeat' first | with_reducible exact h | with_reducible assumption | (extract_lets +onlyGivenNames sx; clear_value (hsx : sx = _); refine Keeps.step (s0 := s0) hsx ?_ ?_; swap; intro _; clear hsx) | (with_reducible apply State.airStopNow_keeps) | (with_reducible apply State.complete_keeps) | (with_reducible apply State.lanesMove_keeps) | (with_reducible apply State.enter_keeps) | (with_reducible apply State.swtStop_keeps) | (with_reducible apply State.dropOrders_keeps) | split

theorem State.tripPower_keeps {s0 : Prop × State} {s : State} (h : Keeps s0 s) :
    Keeps s0 (State.tripPower s) := by
  unfold State.tripPower
  repeat' first | with_reducible exact h | with_reducible assumption | (intro _) | (extract_lets +onlyGivenNames sx; clear_value (hsx : sx = _); refine Keeps.step (s0 := s0) hsx ?_ ?_; swap; intro _; clear hsx) | (extract_lets +onlyGivenNames sx; clear_value (hsx : sx = _); subst hsx) | (with_reducible apply State.capCopied_keeps) | (with_reducible apply State.portAbandon_keeps) | (with_reducible apply State.stageAll_keeps) | (with_reducible apply State.resetKeys_keeps) | (with_reducible apply State.allOpen_keeps) | with_reducible refine Keeps.foldl _ ?_ ?_ | simp only [Keeps.any] | refine Keeps.core ?_ rfl rfl rfl rfl (fun _ => rfl) rfl

theorem State.enterTripped_keeps {s0 : Prop × State} {s : State} (h : Keeps s0 s) (a1 : Nat) (a2 : Nat) (a3 : Int) :
    Keeps s0 (State.enterTripped s a1 a2 a3) := by
  unfold State.enterTripped
  repeat' first | with_reducible exact h | (extract_lets +onlyGivenNames sx; clear_value (hsx : sx = _); subst hsx) | (with_reducible apply State.journal_keeps) | (with_reducible apply State.report_keeps) | (with_reducible apply State.wr_keeps) | (with_reducible apply State.gazWrite_keeps) | (with_reducible apply State.gazInc_keeps) | (with_reducible apply State.tripPower_keeps) | (with_reducible apply State.lanesMove_keeps) | (with_reducible apply State.enter_keeps) | (with_reducible apply State.stopAll_keeps) | with_reducible apply Keeps.ite | simp only [Keeps.any] | refine Keeps.core ?_ rfl rfl rfl rfl (fun _ => rfl) rfl

theorem State.esmcMessage_keeps {s0 : Prop × State} {s : State} (h : Keeps s0 s) (a1 : Nat) (a2 : Nat) :
    Keeps s0 (State.esmcMessage s a1 a2) := by
  unfold State.esmcMessage
  repeat' first | with_reducible exact h | (extract_lets +onlyGivenNames sx; clear_value (hsx : sx = _); subst hsx) | (with_reducible apply State.setMer_keeps) | with_reducible apply Keeps.ite

theorem State.evict_keeps {s0 : Prop × State} {s : State} (h : Keeps s0 s) (a1 : GuardSeen) (a2 : Nat) (a3 : Nat) (a4 : List Nat) :
    Keeps s0 (State.evict s a1 a2 a3 a4).st := by
  unfold State.evict
  repeat' first | with_reducible exact h | with_reducible assumption | (intro _) | (extract_lets +onlyGivenNames sx; clear_value (hsx : sx = _); refine Keeps.step (s0 := s0) hsx ?_ ?_; swap; intro _; clear hsx) | (extract_lets +onlyGivenNames sx; clear_value (hsx : sx = _); subst hsx) | (with_reducible apply State.upset_keeps) | (with_reducible apply State.rootUse_keeps) | (with_reducible apply State.node_keeps) | (with_reducible apply State.setCached_keeps) | (with_reducible apply State.guardStore_keeps) | (with_reducible apply State.setBacked_keeps) | with_reducible apply Keeps.ite_st | with_reducible apply Keeps.bind_st | simp only [Keeps.any] | refine Keeps.core ?_ rfl rfl rfl rfl (fun _ => rfl) rfl | with_reducible apply Got.st_ok

theorem State.fallEdge_keeps {s0 : Prop × State} {s : State} (h : Keeps s0 s) (a1 : Nat) (a2 : Nat) :
    Keeps s0 (State.fallEdge s a1 a2) := by
  unfold State.fallEdge
  repeat' first | with_reducible exact h | with_reducible assumption | (extract_lets +onlyGivenNames sx; clear_value (hsx : sx = _); refine Keeps.step (s0 := s0) hsx ?_ ?_; swap; intro _; clear hsx) | (extract_lets +onlyGivenNames sx; clear_value (hsx : sx = _); subst hsx) | (with_reducible apply State.asyncSettle_keeps) | (with_reducible apply State.clockSheet_keeps) | with_reducible apply Keeps.ite | simp only [Keeps.any] | refine Keeps.core ?_ rfl rfl rfl rfl (fun _ => rfl) rfl | split

theorem State.ffeRequests_keeps {s0 : Prop × State} {s : State} (h : Keeps s0 s) (a1 : Nat) (a2 : List Nat) :
    Keeps s0 (State.ffeRequests s a1 a2) := by
  unfold State.ffeRequests
  repeat' first | with_reducible exact h | with_reducible assumption | (intro _) | (extract_lets +onlyGivenNames sx; clear_value (hsx : sx = _); subst hsx) | (with_reducible apply State.wr_keeps) | with_reducible apply Keeps.ite | with_reducible refine Keeps.foldl _ ?_ ?_

theorem State.finishRun_keeps {s0 : Prop × State} {s : State} (h : Keeps s0 s) (a1 : OpenCmd) (a2 : RetCode) (a3 : (List Word)) :
    Keeps s0 (State.finishRun s a1 a2 a3) := by
  unfold State.finishRun
  repeat' first | with_reducible exact h | with_reducible assumption | (extract_lets +onlyGivenNames sx; clear_value (hsx : sx = _); refine Keeps.step (s0 := s0) hsx ?_ ?_; swap; intro _; clear hsx) | (extract_lets +onlyGivenNames sx; clear_value (hsx : sx = _); subst hsx) | (with_reducible apply State.answer_keeps) | with_reducible apply Keeps.ite | simp only [Keeps.any] | refine Keeps.core ?_ rfl rfl rfl rfl (fun _ => rfl) rfl

theorem State.flashWrite_keeps {s0 : Prop × State} {s : State} (h : Keeps s0 s) (r : FlashRegion) (bs : List Byte) : Keeps s0 (s.flashWrite r bs) :=
  ⟨h.pending, h.regs, fun x => ⟨(h.mem x).1, (h.mem x).2.1, (h.mem x).2.2.1, (h.mem x).2.2.2.1, (h.mem x).2.2.2.2.1,
    swf_putBytes _ _ (h.mem x).2.2.2.2.2⟩, h.dat⟩

theorem State.strSendMany_keeps {s0 : Prop × State} {s : State} (h : Keeps s0 s) (n k : Nat) : Keeps s0 (s.strSendMany n k).2 := by
  induction k with
  | zero => exact h
  | succ k ih =>
    unfold State.strSendMany
    dsimp only
    split
    · rename_i e
      exact Keeps.of_snd e (State.strSend_keeps ih _ _ _)
    · exact ih

theorem State.flitOfBuffer_keeps {s0 : Prop × State} {s : State} (h : Keeps s0 s) (a1 : Nat) (a2 : Nat) (a3 : Nat) :
    Keeps s0 (State.flitOfBuffer s a1 a2 a3) := by
  unfold State.flitOfBuffer
  repeat' first | with_reducible exact h | with_reducible assumption | (intro _) | (extract_lets +onlyGivenNames sx; clear_value (hsx : sx = _); refine Keeps.step (s0 := s0) hsx ?_ ?_; swap; intro _; clear hsx) | (extract_lets +onlyGivenNames sx; clear_value (hsx : sx = _); subst hsx) | (with_reducible apply State.strSendMany_keeps) | (with_reducible apply State.strSettle_keeps) | (with_reducible apply State.strFlit_keeps) | (with_reducible apply State.strPush_keeps) | (with_reducible apply State.report_keeps) | (with_reducible apply State.setStream_keeps) | (with_reducible apply State.strCount_keeps) | with_reducible apply Keeps.ite | with_reducible refine Keeps.foldl _ ?_ ?_

theorem State.strFlitIn_keeps {s0 : Prop × State} {s : State} (h : Keeps s0 s) (n : Nat) (es : List Elem) : ∀ t, s.strFlitIn n es = some t → Keeps s0 t := by
  intro t e
  unfold State.strFlitIn at e
  split at e
  · dsimp only at e
    split at e
    · cases e
    · cases e
      exact State.strFlit_keeps (Keeps.foldl _ (fun _ _ ht => State.strPass_keeps ht _ _) (State.strAhead_keeps h _ _)) _ _
  · dsimp only at e
    split at e
    · cases e
      refine Keeps.foldl2 _ (fun q b hq => ?_) h
      exact State.strOffer_keeps hq _ _ _
    · cases e

theorem State.flitOfProducer_keeps {s0 : Prop × State} {s : State} (h : Keeps s0 s) (a1 : Nat) (a2 : Nat) (a3 : List Elem) :
    Keeps s0 (State.flitOfProducer s a1 a2 a3) := by
  unfold State.flitOfProducer
  repeat' first | with_reducible exact h | (extract_lets +onlyGivenNames sx; clear_value (hsx : sx = _); subst hsx) | (with_reducible refine Keeps.of_some (by assumption) (State.strFlitIn_keeps ?_ _ _)) | (with_reducible apply State.report_keeps) | (with_reducible apply State.setStream_keeps) | (with_reducible apply State.strCount_keeps) | with_reducible apply Keeps.ite | simp only [Keeps.any] | split

theorem State.flushPair_keeps {s0 : Prop × State} {s : State} (h : Keeps s0 s) (a1 : Nat) :
    Keeps s0 (State.flushPair s a1) := by
  unfold State.flushPair
  repeat' first | with_reducible exact h | with_reducible assumption | (intro _) | (with_reducible apply State.flush_keeps) | with_reducible refine Keeps.foldl _ ?_ ?_

theorem State.railBand_keeps {s0 : Prop × State} {s : State} (h : Keeps s0 s) (a1 : Nat) :
    Keeps s0 (State.railBand s a1) := by
  unfold State.railBand
  repeat' first | with_reducible exact h | (extract_lets +onlyGivenNames sx; clear_value (hsx : sx = _); subst hsx) | (with_reducible apply State.seqAdd_keeps) | (with_reducible apply State.put_keeps) | with_reducible apply Keeps.ite

theorem State.storeBand_keeps {s0 : Prop × State} {s : State} (h : Keeps s0 s) (a1 : Nat) :
    Keeps s0 (State.storeBand s a1) := by
  unfold State.storeBand
  repeat' first | with_reducible exact h | with_reducible assumption | (extract_lets +onlyGivenNames sx; clear_value (hsx : sx = _); refine Keeps.step (s0 := s0) hsx ?_ ?_; swap; intro _; clear hsx) | (extract_lets +onlyGivenNames sx; clear_value (hsx : sx = _); subst hsx) | (with_reducible apply State.put_keeps) | (with_reducible apply State.bump_keeps) | with_reducible apply Keeps.ite

theorem State.followBands_keeps {s0 : Prop × State} {s : State} (h : Keeps s0 s) :
    Keeps s0 (State.followBands s) := by
  unfold State.followBands
  repeat' first | with_reducible exact h | with_reducible assumption | (extract_lets +onlyGivenNames sx; clear_value (hsx : sx = _); refine Keeps.step (s0 := s0) hsx ?_ ?_; swap; intro _; clear hsx) | (with_reducible apply State.railBand_keeps) | (with_reducible apply State.storeBand_keeps) | with_reducible apply Keeps.ite

theorem State.frameOut_keeps {s0 : Prop × State} {s : State} (h : Keeps s0 s) (a1 : Nat) (a2 : TxFrame) :
    Keeps s0 (State.frameOut s a1 a2) := by
  unfold State.frameOut
  repeat' first | with_reducible exact h | (extract_lets +onlyGivenNames sx; clear_value (hsx : sx = _); subst hsx) | (with_reducible apply State.macCount_keeps) | (with_reducible apply State.setFhe_keeps)

theorem State.fwdsEnd_keeps {s0 : Prop × State} {s : State} (h : Keeps s0 s) (a1 : Fwd → Bool) :
    Keeps s0 (State.fwdsEnd s a1) := by
  unfold State.fwdsEnd
  repeat' first | with_reducible exact h | with_reducible assumption | (intro _) | (extract_lets +onlyGivenNames sx; clear_value (hsx : sx = _); refine Keeps.step (s0 := s0) hsx ?_ ?_; swap; intro _; clear hsx) | (extract_lets +onlyGivenNames sx; clear_value (hsx : sx = _); subst hsx) | (with_reducible apply State.complete_keeps) | with_reducible refine Keeps.foldl _ ?_ ?_ | simp only [Keeps.any] | refine Keeps.core ?_ rfl rfl rfl rfl (fun _ => rfl) rfl

end Sys2Proof.Machine
end

