-- ==== Sys2Proof/Laws/KeepsOps4.lean ====
section
/-! SUPPORT. What the shared operations keep (4 of 5): one lemma per operation, each citing those of the operations it is made of. -/

namespace Sys2Proof.Machine

theorem State.gazSamples_keeps {s0 : Prop × State} {s : State} (h : Keeps s0 s) (a1 : List SerSample) :
    Keeps s0 (State.gazSamples s a1) := by
  unfold State.gazSamples
  repeat' first | with_reducible exact h | with_reducible assumption | (intro _) | (extract_lets +onlyGivenNames sx; clear_value (hsx : sx = _); refine Keeps.step (s0 := s0) hsx ?_ ?_; swap; intro _; clear hsx) | (extract_lets +onlyGivenNames sx; clear_value (hsx : sx = _); subst hsx) | (with_reducible apply State.gazHist_keeps) | with_reducible refine Keeps.foldl _ ?_ ?_ | simp only [Keeps.any] | refine Keeps.core ?_ rfl rfl rfl rfl (fun _ => rfl) rfl | split

theorem State.gazSeconds_keeps {s0 : Prop × State} {s : State} (h : Keeps s0 s) (a1 : Nat) (a2 : Nat) :
    Keeps s0 (State.gazSeconds s a1 a2) := by
  unfold State.gazSeconds
  repeat' first | with_reducible exact h | with_reducible assumption | (extract_lets +onlyGivenNames sx; clear_value (hsx : sx = _); refine Keeps.step (s0 := s0) hsx ?_ ?_; swap; intro _; clear hsx) | (extract_lets +onlyGivenNames sx; clear_value (hsx : sx = _); subst hsx) | (with_reducible apply State.gazInc_keeps) | with_reducible apply Keeps.ite | simp only [Keeps.any] | refine Keeps.core ?_ rfl rfl rfl rfl (fun _ => rfl) rfl

theorem State.gnssSecond_keeps {s0 : Prop × State} {s : State} (h : Keeps s0 s) :
    Keeps s0 (State.gnssSecond s) := by
  unfold State.gnssSecond
  repeat' first | with_reducible exact h | (extract_lets +onlyGivenNames sx; clear_value (hsx : sx = _); subst hsx) | (with_reducible apply State.setMer_keeps)

theorem State.groupFault_keeps {s0 : Prop × State} {s : State} (h : Keeps s0 s) (a1 : Nat) :
    Keeps s0 (State.groupFault s a1) := by
  unfold State.groupFault
  repeat' first | with_reducible exact h | with_reducible assumption | (intro _) | (extract_lets +onlyGivenNames sx; clear_value (hsx : sx = _); refine Keeps.step (s0 := s0) hsx ?_ ?_; swap; intro _; clear hsx) | (extract_lets +onlyGivenNames sx; clear_value (hsx : sx = _); subst hsx) | (with_reducible apply State.laneTrain_keeps) | (with_reducible apply State.gazInc_keeps) | (with_reducible apply State.bump_keeps) | (with_reducible apply State.linkStart_keeps) | (with_reducible apply State.linkDown_keeps) | with_reducible apply Keeps.ite | with_reducible refine Keeps.foldl _ ?_ ?_

theorem State.groupMember_keeps {s0 : Prop × State} {s : State} (h : Keeps s0 s) (a1 : Bool) :
    Keeps s0 (State.groupMember s a1) := by
  unfold State.groupMember
  repeat' first | with_reducible exact h | (extract_lets +onlyGivenNames sx; clear_value (hsx : sx = _); subst hsx) | (with_reducible apply State.complete_keeps) | with_reducible apply Keeps.ite | simp only [Keeps.any] | refine Keeps.core ?_ rfl rfl rfl rfl (fun _ => rfl) rfl | split

theorem State.groupWaits_keeps {s0 : Prop × State} {s : State} (h : Keeps s0 s) (a1 : Nat) (a2 : Nat) :
    Keeps s0 (State.groupWaits s a1 a2) := by
  unfold State.groupWaits
  repeat' first | with_reducible exact h | (extract_lets +onlyGivenNames sx; clear_value (hsx : sx = _); subst hsx) | simp only [Keeps.any] | refine Keeps.core ?_ rfl rfl rfl rfl (fun _ => rfl) rfl

theorem State.setGrtBuf_keeps {s0 : Prop × State} {s : State} (h : Keeps s0 s) (a1 : Nat) (a2 : Nat) (a3 : Nat) (a4 : Nat) (a5 : List GrtFlit) :
    Keeps s0 (State.setGrtBuf s a1 a2 a3 a4 a5) := by
  unfold State.setGrtBuf
  repeat' first | with_reducible exact h | (extract_lets +onlyGivenNames sx; clear_value (hsx : sx = _); subst hsx) | simp only [Keeps.any] | refine Keeps.core ?_ rfl rfl rfl rfl (fun _ => rfl) rfl

theorem State.wakeRouter_keeps {s0 : Prop × State} {s : State} (h : Keeps s0 s) (a1 : Nat) :
    Keeps s0 (State.wakeRouter s a1) := by
  unfold State.wakeRouter
  repeat' first | with_reducible exact h | (extract_lets +onlyGivenNames sx; clear_value (hsx : sx = _); subst hsx) | (with_reducible apply State.bump_keeps) | with_reducible apply Keeps.ite | simp only [Keeps.any] | refine Keeps.core ?_ rfl rfl rfl rfl (fun _ => rfl) rfl

theorem State.grtArrive_keeps {s0 : Prop × State} {s : State} (h : Keeps s0 s) (a1 : Nat) (a2 : Nat) (a3 : GrtFlit) :
    Keeps s0 (State.grtArrive s a1 a2 a3) := by
  unfold State.grtArrive
  repeat' first | with_reducible exact h | (extract_lets +onlyGivenNames sx; clear_value (hsx : sx = _); subst hsx) | (with_reducible apply State.setGrtBuf_keeps) | (with_reducible apply State.wakeRouter_keeps) | with_reducible apply Keeps.ite | simp only [Keeps.any] | refine Keeps.core ?_ rfl rfl rfl rfl (fun _ => rfl) rfl | split

theorem Got.finish_kept {s0 : Prop × State} (q : MemReq) (g : Got (List Byte)) (h : Keeps s0 g.st) : Keeps s0 (g.finish q) := by
  cases g with
  | ok d s => exact State.memAnswer_keeps h _ _
  | halt c ch s => exact State.enterHalted_keeps h _ _
  | noEcc e s => exact State.memAnswer_keeps h _ _

theorem Keeps.guard {s0 : Prop × State} {u : State} (h : Keeps s0 u) (rest : List MemReq) : Keeps s0 { u with mem := { u.mem with guardQ := rest } } :=
  ⟨h.pending, h.regs, h.mem, h.dat⟩

theorem State.guardTake_keeps {s0 : Prop × State} {s : State} (h : Keeps s0 s) (q : MemReq) (rest : List MemReq) (gs : List GuardSeen) :
    Keeps s0 (s.guardTake q rest gs) :=
  Got.finish_kept _ _ (State.guardServe_keeps (Keeps.guard (State.put_keeps h _ _ _) rest) _ _ _)

theorem State.guardNext_keeps {s0 : Prop × State} {s : State} (h : Keeps s0 s) (w : Bool) (gs : List GuardSeen) : Keeps s0 (s.guardNext w gs) := by
  unfold State.guardNext
  split
  · split
    · exact h
    · exact State.guardTake_keeps h _ _ _
  · exact h

theorem State.linkLost_keeps {s0 : Prop × State} {s : State} (h : Keeps s0 s) (a1 : Nat) (a2 : Nat) (a3 : Nat) :
    Keeps s0 (State.linkLost s a1 a2 a3) := by
  unfold State.linkLost
  repeat' first | with_reducible exact h | (extract_lets +onlyGivenNames sx; clear_value (hsx : sx = _); subst hsx) | (with_reducible apply State.setTile_keeps) | (with_reducible apply State.setStream_keeps) | with_reducible apply Keeps.ite | simp only [Keeps.any] | refine Keeps.core ?_ rfl rfl rfl rfl (fun _ => rfl) rfl | split

theorem State.handOver_keeps {s0 : Prop × State} {s : State} (h : Keeps s0 s) (a1 : Nat) :
    Keeps s0 (State.handOver s a1) := by
  unfold State.handOver
  repeat' first | with_reducible exact h | with_reducible assumption | (intro _) | (extract_lets +onlyGivenNames sx; clear_value (hsx : sx = _); refine Keeps.step (s0 := s0) hsx ?_ ?_; swap; intro _; clear hsx) | (with_reducible apply State.linkLost_keeps) | (with_reducible apply State.setOut_keeps) | (with_reducible apply State.restartTile_keeps) | with_reducible apply Keeps.ite | with_reducible refine Keeps.foldl _ ?_ ?_

theorem State.reserveSouts_keeps {s0 : Prop × State} {s : State} (h : Keeps s0 s) (a1 : Nat) :
    Keeps s0 (State.reserveSouts s a1) := by
  unfold State.reserveSouts
  repeat' first | with_reducible exact h | with_reducible assumption | (intro _) | (extract_lets +onlyGivenNames sx; clear_value (hsx : sx = _); subst hsx) | (with_reducible apply State.queueOut_keeps) | (with_reducible apply State.walCount_keeps) | with_reducible apply Keeps.ite | with_reducible refine Keeps.foldl _ ?_ ?_ | simp only [Keeps.any] | split

theorem State.hardSwitch_keeps {s0 : Prop × State} {s : State} (h : Keeps s0 s) (a1 : Nat) (a2 : Nat) :
    Keeps s0 (State.hardSwitch s a1 a2) := by
  unfold State.hardSwitch
  repeat' first | with_reducible exact h | with_reducible assumption | (extract_lets +onlyGivenNames sx; clear_value (hsx : sx = _); refine Keeps.step (s0 := s0) hsx ?_ ?_; swap; intro _; clear hsx) | (with_reducible apply State.reserveSouts_keeps) | (with_reducible apply State.walCount_keeps) | (with_reducible apply State.activate_keeps) | (with_reducible apply State.passSeams_keeps) | split

theorem State.holdRequest_keeps {s0 : Prop × State} {s : State} (h : Keeps s0 s) (a1 : Nat) :
    Keeps s0 (State.holdRequest s a1) := by
  unfold State.holdRequest
  repeat' first | with_reducible exact h | (extract_lets +onlyGivenNames sx; clear_value (hsx : sx = _); subst hsx) | (with_reducible apply State.bump_keeps) | (with_reducible apply State.setStage_keeps) | with_reducible apply Keeps.ite | simp only [Keeps.any] | refine Keeps.core ?_ rfl rfl rfl rfl (fun _ => rfl) rfl

theorem State.holdSecond_keeps {s0 : Prop × State} {s : State} (h : Keeps s0 s) (a1 : PllSecond) (a2 : Nat) :
    Keeps s0 (State.holdSecond s a1 a2) := by
  unfold State.holdSecond
  repeat' first | with_reducible exact h | with_reducible assumption | (extract_lets +onlyGivenNames sx; clear_value (hsx : sx = _); refine Keeps.step (s0 := s0) hsx ?_ ?_; swap; intro _; clear hsx) | (extract_lets +onlyGivenNames sx; clear_value (hsx : sx = _); subst hsx) | (with_reducible apply State.setMer_keeps) | (with_reducible apply State.put_keeps) | (with_reducible apply State.gazInc_keeps) | (with_reducible apply State.bump_keeps) | (with_reducible apply State.wr_keeps) | (with_reducible apply State.report_keeps) | with_reducible apply Keeps.ite

theorem State.hostFrame_keeps {s0 : Prop × State} {s : State} (h : Keeps s0 s) (e k : Nat) : Keeps s0 (s.hostFrame e k).2 := by
  induction k generalizing s with
  | zero => exact h
  | succ k ih =>
    unfold State.hostFrame
    split
    · exact h
    · split
      · rename_i e
        exact Keeps.of_snd e (State.strTake_keeps h _)
      · rename_i e
        have h1 := Keeps.of_snd e (State.strTake_keeps h _)
        dsimp only
        split
        · exact State.setFhe_keeps h1 _
        · exact ih (State.setFhe_keeps h1 _)

theorem State.islandInit_keeps {s0 : Prop × State} {s : State} (h : Keeps s0 s) (a1 : Nat) :
    Keeps s0 (State.islandInit s a1) := by
  unfold State.islandInit
  repeat' first | with_reducible exact h | with_reducible assumption | (intro _) | (with_reducible apply State.sheetInit_keeps) | (with_reducible apply State.waleInit_keeps) | with_reducible apply Keeps.ite | with_reducible refine Keeps.foldl _ ?_ ?_

theorem State.islandRequest_keeps {s0 : Prop × State} {s : State} (h : Keeps s0 s) (a1 : Nat) :
    Keeps s0 (State.islandRequest s a1) := by
  unfold State.islandRequest
  repeat' first | with_reducible exact h | with_reducible assumption | (extract_lets +onlyGivenNames sx; clear_value (hsx : sx = _); refine Keeps.step (s0 := s0) hsx ?_ ?_; swap; intro _; clear hsx) | (extract_lets +onlyGivenNames sx; clear_value (hsx : sx = _); subst hsx) | (with_reducible apply State.bump_keeps) | (with_reducible apply State.setStage_keeps) | (with_reducible apply State.completeOpt_keeps) | simp only [Keeps.any] | refine Keeps.core ?_ rfl rfl rfl rfl (fun _ => rfl) rfl | split

theorem State.restartGoesOn_keeps {s0 : Prop × State} {s : State} (h : Keeps s0 s) (a1 : Nat) :
    Keeps s0 (State.restartGoesOn s a1) := by
  unfold State.restartGoesOn
  repeat' first | with_reducible exact h | with_reducible assumption | (intro _) | (extract_lets +onlyGivenNames sx; clear_value (hsx : sx = _); refine Keeps.step (s0 := s0) hsx ?_ ?_; swap; intro _; clear hsx) | (extract_lets +onlyGivenNames sx; clear_value (hsx : sx = _); subst hsx) | (with_reducible apply State.discardInput_keeps) | (with_reducible apply State.sendSeam_keeps) | (with_reducible apply State.setTile_keeps) | with_reducible apply Keeps.ite | with_reducible refine Keeps.foldl _ ?_ ?_ | split

theorem State.stallMet_keeps {s0 : Prop × State} {s : State} (h : Keeps s0 s) (a1 : Nat) (a2 : Nat) :
    Keeps s0 (State.stallMet s a1 a2) := by
  unfold State.stallMet
  repeat' first | with_reducible exact h | (extract_lets +onlyGivenNames sx; clear_value (hsx : sx = _); subst hsx) | (with_reducible apply State.walCount_keeps) | (with_reducible apply State.setTile_keeps) | with_reducible apply Keeps.ite

theorem State.startCycle_keeps {s0 : Prop × State} {s : State} (h : Keeps s0 s) (a1 : Nat) (a2 : Nat) :
    Keeps s0 (State.startCycle s a1 a2).2 := by
  unfold State.startCycle
  repeat' first | with_reducible exact h | with_reducible assumption | (extract_lets +onlyGivenNames sx; clear_value (hsx : sx = _); refine Keeps.step (s0 := s0) hsx ?_ ?_; swap; intro _; clear hsx) | (extract_lets +onlyGivenNames sx; clear_value (hsx : sx = _); subst hsx) | (with_reducible apply State.restartGoesOn_keeps) | (with_reducible apply State.dnClose_keeps) | (with_reducible apply State.stallMet_keeps) | (with_reducible apply State.setTile_keeps) | (with_reducible apply State.takeIn_keeps) | with_reducible apply Keeps.ite | with_reducible apply Keeps.ite2 | simp only [Keeps.any] | split

theorem State.issue_keeps {s0 : Prop × State} {s : State} (h : Keeps s0 s) (t u opc : Nat) (run : OpCtx → State → State)
    (hr : ∀ e v, Keeps s0 v → Keeps s0 (run e v)) : Keeps s0 (s.issue t u opc run) := by
  unfold State.issue
  repeat' first | with_reducible exact h | with_reducible assumption | (extract_lets +onlyGivenNames sx; clear_value (hsx : sx = _); refine Keeps.step (s0 := s0) hsx ?_ ?_; swap; intro _; clear hsx) | (extract_lets +onlyGivenNames sx; clear_value (hsx : sx = _); subst hsx) | (with_reducible apply State.startCycle_keeps) | (with_reducible apply State.setTile_keeps) | (with_reducible apply State.closeCycle_keeps) | (with_reducible apply State.advance_keeps) | (with_reducible apply hr) | with_reducible apply Keeps.ite | with_reducible apply Keeps.ite2

theorem State.issueEff_keeps {s0 : Prop × State} {s : State} (h : Keeps s0 s) (a1 : Nat) (a2 : Nat) (a3 : Nat) (a4 : OpCtx → OpEff) :
    Keeps s0 (State.issueEff s a1 a2 a3 a4) := by
  unfold State.issueEff
  repeat' first | with_reducible exact h | with_reducible assumption | (intro _) | (with_reducible apply State.issue_keeps) | (with_reducible apply State.applyEff_keeps)

theorem State.jsdAgain_keeps {s0 : Prop × State} {s : State} (h : Keeps s0 s) (a1 : Nat) :
    Keeps s0 (State.jsdAgain s a1) := by
  unfold State.jsdAgain
  repeat' first | with_reducible exact h | (with_reducible apply State.groupFault_keeps) | (with_reducible apply State.report_keeps)

theorem State.takeMany_keeps {s0 : Prop × State} {s : State} (h : Keeps s0 s) (n k : Nat) : Keeps s0 (s.takeMany n k) := by
  induction k generalizing s with
  | zero => exact h
  | succ k ih => exact ih (State.strTake_keeps h _)

theorem State.setJsd_keeps {s0 : Prop × State} {s : State} (h : Keeps s0 s) (a1 : Jsd) :
    Keeps s0 (State.setJsd s a1) := by
  unfold State.setJsd
  repeat' first | with_reducible exact h | (extract_lets +onlyGivenNames sx; clear_value (hsx : sx = _); subst hsx) | simp only [Keeps.any] | refine Keeps.core ?_ rfl rfl rfl rfl (fun _ => rfl) rfl

theorem State.setJsdTx_keeps {s0 : Prop × State} {s : State} (h : Keeps s0 s) (a1 : Nat) (a2 : JsdTx) :
    Keeps s0 (State.setJsdTx s a1 a2) := by
  unfold State.setJsdTx
  repeat' first | with_reducible exact h | (extract_lets +onlyGivenNames sx; clear_value (hsx : sx = _); subst hsx) | (with_reducible apply State.setJsd_keeps)

theorem State.jsdDrop_keeps {s0 : Prop × State} {s : State} (h : Keeps s0 s) (a1 : Nat) (a2 : Nat) :
    Keeps s0 (State.jsdDrop s a1 a2) := by
  unfold State.jsdDrop
  repeat' first | with_reducible exact h | (with_reducible apply State.bump_keeps) | (with_reducible apply State.takeMany_keeps) | (with_reducible apply State.setJsdTx_keeps) | with_reducible apply Keeps.ite | simp only [Keeps.any] | split

theorem State.jsdMute_keeps {s0 : Prop × State} {s : State} (h : Keeps s0 s) (a1 : Nat) :
    Keeps s0 (State.jsdMute s a1) := by
  unfold State.jsdMute
  repeat' first | with_reducible exact h | (extract_lets +onlyGivenNames sx; clear_value (hsx : sx = _); subst hsx) | (with_reducible apply State.setJsdTx_keeps)

theorem State.jsdNext_keeps {s0 : Prop × State} {s : State} (h : Keeps s0 s) (i n fuel : Nat) : Keeps s0 (s.jsdNext i n fuel).2 := by
  induction fuel generalizing s with
  | zero => exact h
  | succ k ih =>
    unfold State.jsdNext
    repeat' first | with_reducible exact h | with_reducible assumption | (extract_lets +onlyGivenNames sx; clear_value (hsx : sx = _); refine Keeps.step (s0 := s0) hsx ?_ ?_; swap; intro _; clear hsx) | (extract_lets +onlyGivenNames sx; clear_value (hsx : sx = _); subst hsx) | (with_reducible apply State.setJsdTx_keeps) | (with_reducible apply State.strTake_keeps) | (with_reducible apply ih) | with_reducible apply Keeps.ite2 | simp only [Keeps.any] | split

theorem State.jsdUnmute_keeps {s0 : Prop × State} {s : State} (h : Keeps s0 s) (a1 : Nat) :
    Keeps s0 (State.jsdUnmute s a1) := by
  unfold State.jsdUnmute
  repeat' first | with_reducible exact h | with_reducible assumption | (extract_lets +onlyGivenNames sx; clear_value (hsx : sx = _); refine Keeps.step (s0 := s0) hsx ?_ ?_; swap; intro _; clear hsx) | (extract_lets +onlyGivenNames sx; clear_value (hsx : sx = _); subst hsx) | (with_reducible apply State.takeMany_keeps) | (with_reducible apply State.setJsdTx_keeps) | split

theorem State.logEvent_keeps {s0 : Prop × State} {s : State} (h : Keeps s0 s) (a1 : Nat) (a2 : Nat) (a3 : Nat) (a4 : List Word) :
    Keeps s0 (State.logEvent s a1 a2 a3 a4) := by
  unfold State.logEvent
  repeat' first | with_reducible exact h | with_reducible assumption | (extract_lets +onlyGivenNames sx; clear_value (hsx : sx = _); refine Keeps.step (s0 := s0) hsx ?_ ?_; swap; intro _; clear hsx) | (extract_lets +onlyGivenNames sx; clear_value (hsx : sx = _); subst hsx) | (with_reducible apply State.bump_keeps) | (with_reducible apply State.msix_keeps) | with_reducible apply Keeps.ite | simp only [Keeps.any] | refine Keeps.core ?_ rfl rfl rfl rfl (fun _ => rfl) rfl

theorem State.keepEvent_keeps {s0 : Prop × State} {s : State} (h : Keeps s0 s) (a1 : Nat × Nat × Nat) (a2 : Nat) (a3 : Nat) :
    Keeps s0 (State.keepEvent s a1 a2 a3) := by
  unfold State.keepEvent
  repeat' first | with_reducible exact h | with_reducible assumption | (extract_lets +onlyGivenNames sx; clear_value (hsx : sx = _); refine Keeps.step (s0 := s0) hsx ?_ ?_; swap; intro _; clear hsx) | (extract_lets +onlyGivenNames sx; clear_value (hsx : sx = _); subst hsx) | (with_reducible apply State.bump_keeps) | (with_reducible apply State.logEvent_keeps) | with_reducible apply Keeps.ite | simp only [Keeps.any] | refine Keeps.core ?_ rfl rfl rfl rfl (fun _ => rfl) rfl

theorem State.mismatch_keeps {s0 : Prop × State} {s : State} (h : Keeps s0 s) (a1 : Nat) (a2 : Nat) (a3 : Nat) (a4 : Nat) (a5 : Nat) :
    Keeps s0 (State.mismatch s a1 a2 a3 a4 a5) := by
  unfold State.mismatch
  repeat' first | with_reducible exact h | (extract_lets +onlyGivenNames sx; clear_value (hsx : sx = _); subst hsx) | with_reducible apply Keeps.ite | simp only [Keeps.any] | refine Keeps.core ?_ rfl rfl rfl rfl (fun _ => rfl) rfl

theorem State.polarity_keeps {s0 : Prop × State} {s : State} (h : Keeps s0 s) (a1 : LaneObs) :
    Keeps s0 (State.polarity s a1) := by
  unfold State.polarity
  repeat' first | with_reducible exact h | (extract_lets +onlyGivenNames sx; clear_value (hsx : sx = _); subst hsx) | (with_reducible apply State.mismatch_keeps) | (with_reducible apply State.put_keeps) | with_reducible apply Keeps.ite

theorem State.quadOrder_keeps {s0 : Prop × State} {s : State} (h : Keeps s0 s) (a1 : List LaneObs) :
    Keeps s0 (State.quadOrder s a1).2 := by
  unfold State.quadOrder
  repeat' first | with_reducible exact h | with_reducible assumption | (intro _) | (extract_lets +onlyGivenNames sx; clear_value (hsx : sx = _); refine Keeps.step (s0 := s0) hsx ?_ ?_; swap; intro _; clear hsx) | (extract_lets +onlyGivenNames sx; clear_value (hsx : sx = _); subst hsx) | (with_reducible apply State.put_keeps) | (with_reducible apply State.mismatch_keeps) | with_reducible apply Keeps.ite | with_reducible apply Keeps.ite2 | with_reducible refine Keeps.foldl _ ?_ ?_

theorem State.laneDetect_keeps {s0 : Prop × State} {s : State} (h : Keeps s0 s) (a1 : List LaneObs) :
    Keeps s0 (State.laneDetect s a1).2 := by
  unfold State.laneDetect
  repeat' first | with_reducible exact h | with_reducible assumption | (intro _) | (extract_lets +onlyGivenNames sx; clear_value (hsx : sx = _); refine Keeps.step (s0 := s0) hsx ?_ ?_; swap; intro _; clear hsx) | (extract_lets +onlyGivenNames sx; clear_value (hsx : sx = _); subst hsx) | (with_reducible apply State.polarity_keeps) | (with_reducible apply State.quadOrder_keeps) | with_reducible apply Keeps.ite2 | with_reducible refine Keeps.foldl _ ?_ ?_ | with_reducible refine Keeps.foldl2 _ ?_ ?_

theorem State.setLaneRate_keeps {s0 : Prop × State} {s : State} (h : Keeps s0 s) (a1 : Nat) (a2 : Nat) (a3 : Bool) :
    Keeps s0 (State.setLaneRate s a1 a2 a3) := by
  unfold State.setLaneRate
  repeat' first | with_reducible exact h | (with_reducible apply State.put_keeps) | split

theorem State.laneSurvey_keeps {s0 : Prop × State} {s : State} (h : Keeps s0 s) (a1 : SvyRec) :
    Keeps s0 (State.laneSurvey s a1) := by
  unfold State.laneSurvey
  repeat' first | with_reducible exact h | with_reducible assumption | (extract_lets +onlyGivenNames sx; clear_value (hsx : sx = _); refine Keeps.step (s0 := s0) hsx ?_ ?_; swap; intro _; clear hsx) | (extract_lets +onlyGivenNames sx; clear_value (hsx : sx = _); subst hsx) | (with_reducible apply State.wr_keeps) | (with_reducible apply State.setLaneRate_keeps) | (with_reducible apply State.put_keeps) | (with_reducible apply State.setLaneState_keeps)

theorem State.laneUpNow_keeps {s0 : Prop × State} {s : State} (h : Keeps s0 s) (a1 : Nat) :
    Keeps s0 (State.laneUpNow s a1) := by
  unfold State.laneUpNow
  repeat' first | with_reducible exact h | (with_reducible apply State.setLaneState_keeps) | (with_reducible apply State.put_keeps)

theorem State.lanesBusy_keeps {s0 : Prop × State} {s : State} (h : Keeps s0 s) (a1 : Nat) :
    Keeps s0 (State.lanesBusy s a1) := by
  unfold State.lanesBusy
  repeat' first | with_reducible exact h | with_reducible assumption | (intro _) | (with_reducible apply State.complete_keeps) | with_reducible apply Keeps.ite | with_reducible refine Keeps.foldl _ ?_ ?_

theorem State.lanesDone_keeps {s0 : Prop × State} {s : State} (h : Keeps s0 s) :
    Keeps s0 (State.lanesDone s) := by
  unfold State.lanesDone
  repeat' first | with_reducible exact h | with_reducible assumption | (intro _) | (with_reducible apply State.complete_keeps) | with_reducible apply Keeps.ite | with_reducible refine Keeps.foldl _ ?_ ?_

theorem State.lanesSurvey_keeps {s0 : Prop × State} {s : State} (h : Keeps s0 s) :
    Keeps s0 (State.lanesSurvey s) := by
  unfold State.lanesSurvey
  repeat' first | with_reducible exact h | with_reducible assumption | (intro _) | (with_reducible apply State.laneSurvey_keeps) | with_reducible refine Keeps.foldl _ ?_ ?_

theorem State.lifeTime_keeps {s0 : Prop × State} {s : State} (h : Keeps s0 s) (a1 : Nat) :
    Keeps s0 (State.lifeTime s a1) := by
  unfold State.lifeTime
  repeat' first | with_reducible exact h | with_reducible assumption | (intro _) | (extract_lets +onlyGivenNames sx; clear_value (hsx : sx = _); refine Keeps.step (s0 := s0) hsx ?_ ?_; swap; intro _; clear hsx) | (extract_lets +onlyGivenNames sx; clear_value (hsx : sx = _); subst hsx) | (with_reducible apply State.gazSeconds_keeps) | with_reducible refine Keeps.foldl _ ?_ ?_

theorem State.linkFail_keeps {s0 : Prop × State} {s : State} (h : Keeps s0 s) (a1 : Nat) (a2 : Bool) :
    Keeps s0 (State.linkFail s a1 a2) := by
  unfold State.linkFail
  repeat' first | with_reducible exact h | with_reducible assumption | (extract_lets +onlyGivenNames sx; clear_value (hsx : sx = _); refine Keeps.step (s0 := s0) hsx ?_ ?_; swap; intro _; clear hsx) | (with_reducible apply State.setBit_keeps) | (with_reducible apply State.put_keeps) | (with_reducible apply State.gazInc_keeps) | (with_reducible apply State.report_keeps) | (with_reducible apply State.bump_keeps) | (with_reducible apply State.addChanges_keeps) | with_reducible apply Keeps.ite

theorem State.linkSend_keeps {s0 : Prop × State} {s : State} (h : Keeps s0 s) (a1 : Nat) (a2 : Nat) (a3 : Nat) (a4 : Elem) :
    Keeps s0 (State.linkSend s a1 a2 a3 a4) := by
  unfold State.linkSend
  repeat' first | with_reducible exact h | with_reducible assumption | (extract_lets +onlyGivenNames sx; clear_value (hsx : sx = _); refine Keeps.step (s0 := s0) hsx ?_ ?_; swap; intro _; clear hsx) | (extract_lets +onlyGivenNames sx; clear_value (hsx : sx = _); subst hsx) | (with_reducible apply State.setTile_keeps) | (with_reducible apply State.setStream_keeps) | with_reducible apply Keeps.ite | simp only [Keeps.any] | refine Keeps.core ?_ rfl rfl rfl rfl (fun _ => rfl) rfl | split

theorem State.loaderMember_keeps {s0 : Prop × State} {s : State} (h : Keeps s0 s) :
    Keeps s0 (State.loaderMember s) := by
  unfold State.loaderMember
  repeat' first | with_reducible exact h | with_reducible assumption | (extract_lets +onlyGivenNames sx; clear_value (hsx : sx = _); refine Keeps.step (s0 := s0) hsx ?_ ?_; swap; intro _; clear hsx) | (extract_lets +onlyGivenNames sx; clear_value (hsx : sx = _); subst hsx) | (with_reducible apply State.chart_keeps) | with_reducible apply Keeps.ite | simp only [Keeps.any] | refine Keeps.core ?_ rfl rfl rfl rfl (fun _ => rfl) rfl

theorem State.markLost_keeps {s0 : Prop × State} {s : State} (h : Keeps s0 s) (a1 : Nat) (a2 : Nat) (a3 : Nat) :
    Keeps s0 (State.markLost s a1 a2 a3) := by
  unfold State.markLost
  repeat' first | with_reducible exact h | with_reducible assumption | (extract_lets +onlyGivenNames sx; clear_value (hsx : sx = _); refine Keeps.step (s0 := s0) hsx ?_ ?_; swap; intro _; clear hsx) | (with_reducible apply State.raise_keeps) | (with_reducible apply State.setBit_keeps) | (with_reducible apply State.fwdsEnd_keeps) | (with_reducible apply State.report_keeps)

theorem State.markUnusable_keeps {s0 : Prop × State} {s : State} (h : Keeps s0 s) (a1 : Nat) (a2 : Nat) (a3 : Nat) :
    Keeps s0 (State.markUnusable s a1 a2 a3) := by
  unfold State.markUnusable
  repeat' first | with_reducible exact h | with_reducible assumption | (extract_lets +onlyGivenNames sx; clear_value (hsx : sx = _); refine Keeps.step (s0 := s0) hsx ?_ ?_; swap; intro _; clear hsx) | (extract_lets +onlyGivenNames sx; clear_value (hsx : sx = _); subst hsx) | (with_reducible apply State.journal_keeps) | (with_reducible apply State.gazInc_keeps) | (with_reducible apply State.bump_keeps) | with_reducible apply Keeps.ite | simp only [Keeps.any] | refine Keeps.core ?_ rfl rfl rfl rfl (fun _ => rfl) rfl

theorem State.memCommit_keeps {s0 : Prop × State} {s : State} (h : Keeps s0 s) (a1 : Nat) :
    Keeps s0 (State.memCommit s a1) := by
  unfold State.memCommit
  repeat' first | with_reducible exact h | with_reducible assumption | (intro _) | (extract_lets +onlyGivenNames sx; clear_value (hsx : sx = _); refine Keeps.step (s0 := s0) hsx ?_ ?_; swap; intro _; clear hsx) | (extract_lets +onlyGivenNames sx; clear_value (hsx : sx = _); subst hsx) | (with_reducible apply State.put_keeps) | with_reducible refine Keeps.foldl _ ?_ ?_ | simp only [Keeps.any] | with_reducible apply Keeps.coreM | exact Eq.refl _

theorem State.memberPast_keeps {s0 : Prop × State} {s : State} (h : Keeps s0 s) (a1 : SwSrc) (a2 : Bool) :
    Keeps s0 (State.memberPast s a1 a2) := by
  unfold State.memberPast
  repeat' first | with_reducible exact h | (with_reducible apply State.groupMember_keeps) | (with_reducible apply State.loaderMember_keeps) | split

theorem State.merCarry_keeps {s0 : Prop × State} {s : State} (h : Keeps s0 s) :
    Keeps s0 (State.merCarry s) := by
  unfold State.merCarry
  repeat' first | with_reducible exact h | (extract_lets +onlyGivenNames sx; clear_value (hsx : sx = _); subst hsx) | simp only [Keeps.any] | refine Keeps.core ?_ rfl rfl rfl rfl (fun _ => rfl) rfl

theorem State.modelClear_keeps {s0 : Prop × State} {s : State} (h : Keeps s0 s) :
    Keeps s0 (State.modelClear s) := by
  unfold State.modelClear
  repeat' first | with_reducible exact h | with_reducible assumption | (intro _) | (extract_lets +onlyGivenNames sx; clear_value (hsx : sx = _); refine Keeps.step (s0 := s0) hsx ?_ ?_; swap; intro _; clear hsx) | (extract_lets +onlyGivenNames sx; clear_value (hsx : sx = _); subst hsx) | (with_reducible apply State.wr_keeps) | (with_reducible apply State.put_keeps) | (with_reducible apply State.setMer_keeps) | with_reducible refine Keeps.foldl _ ?_ ?_

theorem State.modelCommit_keeps {s0 : Prop × State} {s : State} (h : Keeps s0 s) :
    Keeps s0 (State.modelCommit s) := by
  unfold State.modelCommit
  repeat' first | with_reducible exact h | with_reducible assumption | (intro _) | (extract_lets +onlyGivenNames sx; clear_value (hsx : sx = _); refine Keeps.step (s0 := s0) hsx ?_ ?_; swap; intro _; clear hsx) | (extract_lets +onlyGivenNames sx; clear_value (hsx : sx = _); subst hsx) | (with_reducible apply State.wr_keeps) | (with_reducible apply State.put_keeps) | (with_reducible apply State.setMer_keeps) | (with_reducible apply State.report_keeps) | (with_reducible apply State.modelClear_keeps) | with_reducible apply Keeps.ite | with_reducible refine Keeps.foldl _ ?_ ?_ | simp only [Keeps.any] | split

theorem State.merCommit_keeps {s0 : Prop × State} {s : State} (h : Keeps s0 s) :
    Keeps s0 (State.merCommit s) := by
  unfold State.merCommit
  repeat' first | with_reducible exact h | (extract_lets +onlyGivenNames sx; clear_value (hsx : sx = _); subst hsx) | (with_reducible apply State.modelCommit_keeps) | (with_reducible apply State.setMer_keeps) | (with_reducible apply State.put_keeps)

theorem State.merFlags_keeps {s0 : Prop × State} {s : State} (h : Keeps s0 s) (a1 : PllSecond) (a2 : Nat) :
    Keeps s0 (State.merFlags s a1 a2) := by
  unfold State.merFlags
  repeat' first | with_reducible exact h | with_reducible assumption | (extract_lets +onlyGivenNames sx; clear_value (hsx : sx = _); refine Keeps.step (s0 := s0) hsx ?_ ?_; swap; intro _; clear hsx) | (extract_lets +onlyGivenNames sx; clear_value (hsx : sx = _); subst hsx) | (with_reducible apply State.put_keeps) | (with_reducible apply State.wr_keeps) | (with_reducible apply State.setMer_keeps)

theorem State.merStep_keeps {s0 : Prop × State} {s : State} (h : Keeps s0 s) (a1 : PllSecond) (a2 : Nat) (a3 : Nat) :
    Keeps s0 (State.merStep s a1 a2 a3) := by
  unfold State.merStep
  repeat' first | with_reducible exact h | with_reducible assumption | (extract_lets +onlyGivenNames sx; clear_value (hsx : sx = _); refine Keeps.step (s0 := s0) hsx ?_ ?_; swap; intro _; clear hsx) | (extract_lets +onlyGivenNames sx; clear_value (hsx : sx = _); subst hsx) | (with_reducible apply State.setMer_keeps) | (with_reducible apply State.put_keeps) | (with_reducible apply State.enterLocked_keeps) | (with_reducible apply State.enterHoldover_keeps) | (with_reducible apply State.wr_keeps) | (with_reducible apply State.holdSecond_keeps) | with_reducible apply Keeps.ite | split

theorem State.modelFlags_keeps {s0 : Prop × State} {s : State} (h : Keeps s0 s) :
    Keeps s0 (State.modelFlags s) := by
  unfold State.modelFlags
  repeat' first | with_reducible exact h | with_reducible assumption | (extract_lets +onlyGivenNames sx; clear_value (hsx : sx = _); refine Keeps.step (s0 := s0) hsx ?_ ?_; swap; intro _; clear hsx) | (extract_lets +onlyGivenNames sx; clear_value (hsx : sx = _); subst hsx) | (with_reducible apply State.put_keeps) | with_reducible apply Keeps.ite

theorem State.moveTier_keeps {s0 : Prop × State} {s : State} (h : Keeps s0 s) (a1 : Nat) :
    Keeps s0 (State.moveTier s a1) := by
  unfold State.moveTier
  repeat' first | with_reducible exact h | (extract_lets +onlyGivenNames sx; clear_value (hsx : sx = _); subst hsx) | (with_reducible apply State.bump_keeps) | (with_reducible apply State.put_keeps) | with_reducible apply Keeps.ite

theorem State.niServe_keeps {s0 : Prop × State} {s : State} (h : Keeps s0 s) (a1 : Nat) (a2 : Nat) :
    Keeps s0 (State.niServe s a1 a2) := by
  unfold State.niServe
  repeat' first | with_reducible exact h | (extract_lets +onlyGivenNames sx; clear_value (hsx : sx = _); subst hsx) | (with_reducible apply State.wakeRouter_keeps) | (with_reducible apply State.setInjQ_keeps) | (with_reducible apply State.setGrtBuf_keeps) | simp only [Keeps.any] | refine Keeps.core ?_ rfl rfl rfl rfl (fun _ => rfl) rfl | split

theorem State.outcomeEnd_keeps {s0 : Prop × State} {s : State} (h : Keeps s0 s) (a1 : List (Nat × Nat)) (a2 : Bool) (a3 : Bool) :
    Keeps s0 (State.outcomeEnd s a1 a2 a3) := by
  unfold State.outcomeEnd
  repeat' first | with_reducible exact h | (extract_lets +onlyGivenNames sx; clear_value (hsx : sx = _); subst hsx) | simp only [Keeps.any] | refine Keeps.core ?_ rfl rfl rfl rfl (fun _ => rfl) rfl

theorem State.noSpareLeft_keeps {s0 : Prop × State} {s : State} (h : Keeps s0 s) (a1 : Nat) (a2 : Nat) (a3 : Nat) (a4 : List (Nat × Nat)) :
    Keeps s0 (State.noSpareLeft s a1 a2 a3 a4).2 := by
  unfold State.noSpareLeft
  repeat' first | with_reducible exact h | with_reducible assumption | (extract_lets +onlyGivenNames sx; clear_value (hsx : sx = _); refine Keeps.step (s0 := s0) hsx ?_ ?_; swap; intro _; clear hsx) | (with_reducible apply State.dropKeys_keeps) | (with_reducible apply State.outcomeEnd_keeps) | (with_reducible apply State.markUnusable_keeps) | with_reducible apply Keeps.ite2

theorem State.outcomePart_keeps {s0 : Prop × State} {s : State} (h : Keeps s0 s) (a1 : List (Nat × Nat)) :
    Keeps s0 (State.outcomePart s a1) := by
  unfold State.outcomePart
  repeat' first | with_reducible exact h | (with_reducible apply State.outcomeEnd_keeps)

theorem State.ownAnswer_keeps {s0 : Prop × State} {s : State} (h : Keeps s0 s) (a1 : Nat) (a2 : GrtPkt) (a3 : Nat) :
    Keeps s0 (State.ownAnswer s a1 a2 a3) := by
  unfold State.ownAnswer
  repeat' first | with_reducible exact h | (extract_lets +onlyGivenNames sx; clear_value (hsx : sx = _); subst hsx) | simp only [Keeps.any] | refine Keeps.core ?_ rfl rfl rfl rfl (fun _ => rfl) rfl

theorem State.pairResumes_keeps {s0 : Prop × State} {s : State} (h : Keeps s0 s) (a1 : Nat) :
    Keeps s0 (State.pairResumes s a1) := by
  unfold State.pairResumes
  repeat' first | with_reducible exact h | with_reducible assumption | (intro _) | (extract_lets +onlyGivenNames sx; clear_value (hsx : sx = _); refine Keeps.step (s0 := s0) hsx ?_ ?_; swap; intro _; clear hsx) | (extract_lets +onlyGivenNames sx; clear_value (hsx : sx = _); subst hsx) | (with_reducible apply State.flushPair_keeps) | (with_reducible apply State.finishRun_keeps) | with_reducible refine Keeps.foldl _ ?_ ?_ | simp only [Keeps.any] | refine Keeps.core ?_ rfl rfl rfl rfl (fun _ => rfl) rfl

theorem State.switchDone_keeps {s0 : Prop × State} {s : State} (h : Keeps s0 s) (a1 : SwSrc) :
    Keeps s0 (State.switchDone s a1) := by
  unfold State.switchDone
  repeat' first | with_reducible exact h | (with_reducible apply State.finishRun_keeps) | split

theorem State.patternEdge_keeps {s0 : Prop × State} {s : State} (h : Keeps s0 s) (a1 : Nat) (a2 : PatOrder) (a3 : List PatOrder) :
    Keeps s0 (State.patternEdge s a1 a2 a3) := by
  unfold State.patternEdge
  repeat' first | with_reducible exact h | with_reducible assumption | (intro _) | (extract_lets +onlyGivenNames sx; clear_value (hsx : sx = _); refine Keeps.step (s0 := s0) hsx ?_ ?_; swap; intro _; clear hsx) | (extract_lets +onlyGivenNames sx; clear_value (hsx : sx = _); subst hsx) | (with_reducible apply State.commitLand_keeps) | (with_reducible apply State.reach_keeps) | (with_reducible apply State.setWale_keeps) | (with_reducible apply State.airMissed_keeps) | (with_reducible apply State.switchDone_keeps) | (with_reducible apply State.memberPast_keeps) | (with_reducible apply State.hardSwitch_keeps) | (with_reducible apply State.bump_keeps) | (with_reducible apply State.report_keeps) | with_reducible apply Keeps.ite | with_reducible refine Keeps.foldl _ ?_ ?_

theorem State.pcieDown_keeps {s0 : Prop × State} {s : State} (h : Keeps s0 s) :
    Keeps s0 (State.pcieDown s) := by
  unfold State.pcieDown
  repeat' first | with_reducible exact h | (with_reducible apply State.put_keeps)

theorem State.pcieUp_keeps {s0 : Prop × State} {s : State} (h : Keeps s0 s) (a1 : Nat) (a2 : Nat) :
    Keeps s0 (State.pcieUp s a1 a2) := by
  unfold State.pcieUp
  repeat' first | with_reducible exact h | (with_reducible apply State.put_keeps)

theorem State.pinsSurvey_keeps {s0 : Prop × State} {s : State} (h : Keeps s0 s) :
    Keeps s0 (State.pinsSurvey s) := by
  unfold State.pinsSurvey
  repeat' first | with_reducible exact h | with_reducible assumption | (intro _) | (extract_lets +onlyGivenNames sx; clear_value (hsx : sx = _); subst hsx) | (with_reducible apply State.wr_keeps) | with_reducible refine Keeps.foldl _ ?_ ?_ | simp only [Keeps.any] | split

theorem State.risen_keeps {s0 : Prop × State} {s : State} (h : Keeps s0 s) (a1 : Nat) :
    Keeps s0 (State.risen s a1) := by
  unfold State.risen
  repeat' first | with_reducible exact h | (extract_lets +onlyGivenNames sx; clear_value (hsx : sx = _); subst hsx) | simp only [Keeps.any] | refine Keeps.core ?_ rfl rfl rfl rfl (fun _ => rfl) rfl

theorem State.restorePrivate_keeps {s0 : Prop × State} {s : State} (h : Keeps s0 s) (a1 : Nat) (a2 : Nat) (a3 : Bool) :
    Keeps s0 (State.restorePrivate s a1 a2 a3) := by
  unfold State.restorePrivate
  repeat' first | with_reducible exact h | with_reducible assumption | (intro _) | (with_reducible apply State.setFf_keeps) | with_reducible apply Keeps.ite | with_reducible refine Keeps.foldl _ ?_ ?_

theorem State.savePrivate_keeps {s0 : Prop × State} {s : State} (h : Keeps s0 s) (a1 : Nat) (a2 : Nat) :
    Keeps s0 (State.savePrivate s a1 a2) := by
  unfold State.savePrivate
  repeat' first | with_reducible exact h | with_reducible assumption | (intro _) | (extract_lets +onlyGivenNames sx; clear_value (hsx : sx = _); subst hsx) | with_reducible apply Keeps.ite | with_reducible refine Keeps.foldl _ ?_ ?_ | simp only [Keeps.any] | refine Keeps.core ?_ rfl rfl rfl rfl (fun _ => rfl) rfl

theorem State.planeEdge_keeps {s0 : Prop × State} {s : State} (h : Keeps s0 s) (a1 : Nat) (a2 : Nat) :
    Keeps s0 (State.planeEdge s a1 a2) := by
  unfold State.planeEdge
  repeat' first | with_reducible exact h | with_reducible assumption | (intro _) | (extract_lets +onlyGivenNames sx; clear_value (hsx : sx = _); refine Keeps.step (s0 := s0) hsx ?_ ?_; swap; intro _; clear hsx) | (extract_lets +onlyGivenNames sx; clear_value (hsx : sx = _); subst hsx) | (with_reducible apply State.risen_keeps) | (with_reducible apply State.initFfs_keeps) | (with_reducible apply State.restorePrivate_keeps) | (with_reducible apply State.savePrivate_keeps) | (with_reducible apply State.setBit_keeps) | (with_reducible apply State.put_keeps) | (with_reducible apply State.asyncSettle_keeps) | (with_reducible apply State.dropNet_keeps) | (with_reducible apply State.afterEdge_keeps) | (with_reducible apply State.riserTouch_keeps) | (with_reducible apply State.setWindow_keeps) | with_reducible apply Keeps.ite | with_reducible refine Keeps.foldl _ ?_ ?_ | split

theorem State.pllLost_keeps {s0 : Prop × State} {s : State} (h : Keeps s0 s) (a1 : Nat) :
    Keeps s0 (State.pllLost s a1) := by
  unfold State.pllLost
  repeat' first | with_reducible exact h | with_reducible assumption | (extract_lets +onlyGivenNames sx; clear_value (hsx : sx = _); refine Keeps.step (s0 := s0) hsx ?_ ?_; swap; intro _; clear hsx) | (with_reducible apply State.put_keeps) | (with_reducible apply State.groupFault_keeps) | (with_reducible apply State.report_keeps) | with_reducible apply Keeps.ite

theorem State.portMoves_keeps {s0 : Prop × State} {s : State} (h : Keeps s0 s) (a1 : Nat) (a2 : Nat) (a3 : Nat) :
    Keeps s0 (State.portMoves s a1 a2 a3) := by
  unfold State.portMoves
  repeat' first | with_reducible exact h | (extract_lets +onlyGivenNames sx; clear_value (hsx : sx = _); subst hsx) | (with_reducible apply State.setTile_keeps)

theorem State.portServe_keeps {s0 : Prop × State} {s : State} (h : Keeps s0 s) (a1 : Nat) (a2 : Nat) :
    Keeps s0 (State.portServe s a1 a2) := by
  unfold State.portServe
  repeat' first | with_reducible exact h | (extract_lets +onlyGivenNames sx; clear_value (hsx : sx = _); subst hsx) | (with_reducible apply State.setGrtBuf_keeps) | (with_reducible apply State.grtArrive_keeps) | simp only [Keeps.any] | refine Keeps.core ?_ rfl rfl rfl rfl (fun _ => rfl) rfl | split

theorem State.powerLost_keeps {s0 : Prop × State} {s : State} (h : Keeps s0 s) : Keeps s0 s.powerLost :=
  ⟨h.pending, fun _ => rfl, fun x => ⟨rfl, rfl, rfl, rfl, (h.mem x).2.2.2.2⟩, h.dat⟩

theorem State.powerOn_keeps {s0 : Prop × State} {s : State} (h : Keeps s0 s) (a1 : Straps) :
    Keeps s0 (State.powerOn s a1) := by
  unfold State.powerOn
  repeat' first | with_reducible exact h | with_reducible assumption | (extract_lets +onlyGivenNames sx; clear_value (hsx : sx = _); refine Keeps.step (s0 := s0) hsx ?_ ?_; swap; intro _; clear hsx) | (extract_lets +onlyGivenNames sx; clear_value (hsx : sx = _); subst hsx) | (with_reducible apply State.gazInc_keeps) | (with_reducible apply State.enterBoot_keeps) | simp only [Keeps.any] | refine Keeps.core ?_ rfl rfl rfl rfl (fun _ => rfl) rfl

theorem State.ptpMessage_keeps {s0 : Prop × State} {s : State} (h : Keeps s0 s) (a1 : Nat) (a2 : PtpMsg) :
    Keeps s0 (State.ptpMessage s a1 a2) := by
  unfold State.ptpMessage
  repeat' first | with_reducible exact h | (extract_lets +onlyGivenNames sx; clear_value (hsx : sx = _); subst hsx) | (with_reducible apply State.bump_keeps) | (with_reducible apply State.setMer_keeps) | (with_reducible apply State.wr_keeps) | with_reducible apply Keeps.ite | simp only [Keeps.any] | split

theorem State.ptpStampRx_keeps {s0 : Prop × State} {s : State} (h : Keeps s0 s) (a1 : Nat) :
    Keeps s0 (State.ptpStampRx s a1) := by
  unfold State.ptpStampRx
  repeat' first | with_reducible exact h | (extract_lets +onlyGivenNames sx; clear_value (hsx : sx = _); subst hsx) | (with_reducible apply State.setFhe_keeps)

theorem State.ptpStampTx_keeps {s0 : Prop × State} {s : State} (h : Keeps s0 s) (a1 : Nat) :
    Keeps s0 (State.ptpStampTx s a1) := by
  unfold State.ptpStampTx
  repeat' first | with_reducible exact h | (extract_lets +onlyGivenNames sx; clear_value (hsx : sx = _); subst hsx) | (with_reducible apply State.setFhe_keeps)

theorem State.railStep_keeps {s0 : Prop × State} {s : State} (h : Keeps s0 s) (a1 : Nat) (a2 : Nat) :
    Keeps s0 (State.railStep s a1 a2) := by
  unfold State.railStep
  repeat' first | with_reducible exact h | (extract_lets +onlyGivenNames sx; clear_value (hsx : sx = _); subst hsx) | (with_reducible apply State.put_keeps)

theorem State.rates_keeps {s0 : Prop × State} {s : State} (h : Keeps s0 s) (a1 : Nat) :
    Keeps s0 (State.rates s a1) := by
  unfold State.rates
  repeat' first | with_reducible exact h | with_reducible assumption | (extract_lets +onlyGivenNames sx; clear_value (hsx : sx = _); refine Keeps.step (s0 := s0) hsx ?_ ?_; swap; intro _; clear hsx) | (extract_lets +onlyGivenNames sx; clear_value (hsx : sx = _); subst hsx) | (with_reducible apply State.setSens_keeps) | (with_reducible apply State.put_keeps) | (with_reducible apply State.report_keeps) | (with_reducible apply State.bump_keeps) | with_reducible apply Keeps.ite

theorem State.ubtorAborts_keeps {s0 : Prop × State} {s : State} (h : Keeps s0 s) (a1 : Nat) :
    Keeps s0 (State.ubtorAborts s a1) := by
  unfold State.ubtorAborts
  repeat' first | with_reducible exact h | (with_reducible apply State.islandRequest_keeps) | split

theorem State.readAll_keeps {s0 : Prop × State} {s : State} (h : Keeps s0 s) (l : List Nat) : ∀ t, s.readAll l = some t → Keeps s0 t.2 := by
  induction l generalizing s with
  | nil => intro t e; cases e; exact h
  | cons a as ih =>
    intro t e
    unfold State.readAll at e
    dsimp only at e
    split at e
    · rw [Option.map_eq_some_iff] at e
      obtain ⟨q, hq, rfl⟩ := e
      exact ih (State.busRead_keeps (State.ubtorAborts_keeps h _) _ _) q hq
    · cases e

theorem State.readBy_keeps {s0 : Prop × State} {s : State} (h : Keeps s0 s) (a1 : Master) (a2 : Nat) :
    Keeps s0 (State.readBy s a1 a2) := by
  unfold State.readBy
  repeat' first | with_reducible exact h | (with_reducible apply State.answered_keeps) | (with_reducible apply State.busRead_keeps) | with_reducible apply Keeps.ite

theorem State.recordOrient_keeps {s0 : Prop × State} {s : State} (h : Keeps s0 s) (a1 : List LFrame) :
    Keeps s0 (State.recordOrient s a1) := by
  unfold State.recordOrient
  repeat' first | with_reducible exact h | with_reducible assumption | (intro _) | (extract_lets +onlyGivenNames sx; clear_value (hsx : sx = _); subst hsx) | with_reducible apply Keeps.ite | with_reducible refine Keeps.foldl _ ?_ ?_ | simp only [Keeps.any] | refine Keeps.core ?_ rfl rfl rfl rfl (fun _ => rfl) rfl

theorem State.refSecond_keeps {s0 : Prop × State} {s : State} (h : Keeps s0 s) :
    Keeps s0 (State.refSecond s) := by
  unfold State.refSecond
  repeat' first | with_reducible exact h | with_reducible assumption | (extract_lets +onlyGivenNames sx; clear_value (hsx : sx = _); refine Keeps.step (s0 := s0) hsx ?_ ?_; swap; intro _; clear hsx) | (extract_lets +onlyGivenNames sx; clear_value (hsx : sx = _); subst hsx) | (with_reducible apply State.gnssSecond_keeps) | (with_reducible apply State.setMer_keeps)

theorem State.remapStart_keeps {s0 : Prop × State} {s : State} (h : Keeps s0 s) (a1 : Repair) (a2 : Nat) (a3 : Nat) (a4 : List (Nat × Nat)) :
    Keeps s0 (State.remapStart s a1 a2 a3 a4).2 := by
  unfold State.remapStart
  repeat' first | with_reducible exact h | (extract_lets +onlyGivenNames sx; clear_value (hsx : sx = _); subst hsx) | simp only [Keeps.any] | refine Keeps.core ?_ rfl rfl rfl rfl (fun _ => rfl) rfl

theorem State.restartRead_keeps {s0 : Prop × State} {s : State} (h : Keeps s0 s) :
    Keeps s0 (State.restartRead s) := by
  unfold State.restartRead
  repeat' first | with_reducible exact h | (extract_lets +onlyGivenNames sx; clear_value (hsx : sx = _); subst hsx) | simp only [Keeps.any] | refine Keeps.core ?_ rfl rfl rfl rfl (fun _ => rfl) rfl

theorem State.selvRegister_keeps {s0 : Prop × State} {s : State} (h : Keeps s0 s) (a1 : Nat) :
    Keeps s0 (State.selvRegister s a1) := by
  unfold State.selvRegister
  repeat' first | with_reducible exact h | (extract_lets +onlyGivenNames sx; clear_value (hsx : sx = _); subst hsx) | simp only [Keeps.any] | refine Keeps.core ?_ rfl rfl rfl rfl (fun _ => rfl) rfl

theorem State.riseEdge_keeps {s0 : Prop × State} {s : State} (h : Keeps s0 s) (a1 : Nat) :
    Keeps s0 (State.riseEdge s a1) := by
  unfold State.riseEdge
  repeat' first | with_reducible exact h | with_reducible assumption | (extract_lets +onlyGivenNames sx; clear_value (hsx : sx = _); refine Keeps.step (s0 := s0) hsx ?_ ?_; swap; intro _; clear hsx) | (extract_lets +onlyGivenNames sx; clear_value (hsx : sx = _); subst hsx) | (with_reducible apply State.selvRegister_keeps) | (with_reducible apply State.closeWindow_keeps) | (with_reducible apply State.risen_keeps) | (with_reducible apply State.afterEdge_keeps) | (with_reducible apply State.clockSheet_keeps) | split

theorem State.swtRequest_keeps {s0 : Prop × State} {s : State} (h : Keeps s0 s) (a1 : SwReq) :
    Keeps s0 (State.swtRequest s a1) := by
  unfold State.swtRequest
  repeat' first | with_reducible exact h | (extract_lets +onlyGivenNames sx; clear_value (hsx : sx = _); subst hsx) | with_reducible apply Keeps.ite | simp only [Keeps.any] | refine Keeps.core ?_ rfl rfl rfl rfl (fun _ => rfl) rfl

theorem State.rotationTest_keeps {s0 : Prop × State} {s : State} (h : Keeps s0 s) (a1 : Nat) (a2 : Nat) :
    Keeps s0 (State.rotationTest s a1 a2) := by
  unfold State.rotationTest
  repeat' first | with_reducible exact h | (with_reducible apply State.swtRequest_keeps)

theorem State.setServing_keeps {s0 : Prop × State} {s : State} (h : Keeps s0 s) (a1 : Option SeqServe) :
    Keeps s0 (State.setServing s a1) := by
  unfold State.setServing
  repeat' first | with_reducible exact h | (extract_lets +onlyGivenNames sx; clear_value (hsx : sx = _); subst hsx) | simp only [Keeps.any] | refine Keeps.core ?_ rfl rfl rfl rfl (fun _ => rfl) rfl

theorem State.seqEnd_keeps {s0 : Prop × State} {s : State} (h : Keeps s0 s) (a1 : SeqServe) (a2 : RetCode) :
    Keeps s0 (State.seqEnd s a1 a2) := by
  unfold State.seqEnd
  repeat' first | with_reducible exact h | (with_reducible apply State.completeOpt_keeps) | (with_reducible apply State.setServing_keeps)

theorem State.seqLower_keeps {s0 : Prop × State} {s : State} (h : Keeps s0 s) (a1 : SeqServe) :
    Keeps s0 (State.seqLower s a1) := by
  unfold State.seqLower
  repeat' first | with_reducible exact h | (with_reducible apply State.setServing_keeps) | (with_reducible apply State.seqEnd_keeps) | split

theorem State.seqFreq_keeps {s0 : Prop × State} {s : State} (h : Keeps s0 s) (a1 : SeqServe) :
    Keeps s0 (State.seqFreq s a1) := by
  unfold State.seqFreq
  repeat' first | with_reducible exact h | (with_reducible apply State.seqLower_keeps) | (with_reducible apply State.setServing_keeps) | split

theorem State.seqRaise_keeps {s0 : Prop × State} {s : State} (h : Keeps s0 s) (a1 : SeqServe) :
    Keeps s0 (State.seqRaise s a1) := by
  unfold State.seqRaise
  repeat' first | with_reducible exact h | (with_reducible apply State.setServing_keeps) | (with_reducible apply State.seqFreq_keeps) | split

theorem State.seqStart_keeps {s0 : Prop × State} {s : State} (h : Keeps s0 s) :
    Keeps s0 (State.seqStart s) := by
  unfold State.seqStart
  repeat' first | with_reducible exact h | (extract_lets +onlyGivenNames sx; clear_value (hsx : sx = _); subst hsx) | (with_reducible apply State.dropOverride_keeps) | (with_reducible apply State.put_keeps) | (with_reducible apply State.seqRaise_keeps) | simp only [Keeps.any] | refine Keeps.core ?_ rfl rfl rfl rfl (fun _ => rfl) rfl | split

theorem State.sessionId_keeps {s0 : Prop × State} {s : State} (h : Keeps s0 s) :
    Keeps s0 (State.sessionId s).2 := by
  unfold State.sessionId
  repeat' first | with_reducible exact h | (extract_lets +onlyGivenNames sx; clear_value (hsx : sx = _); subst hsx) | (with_reducible apply State.draw_keeps)

theorem State.setAirEntry_keeps {s0 : Prop × State} {s : State} (h : Keeps s0 s) (a1 : Nat) (a2 : Nat) (a3 : AirEntry) :
    Keeps s0 (State.setAirEntry s a1 a2 a3) := by
  unfold State.setAirEntry
  repeat' first | with_reducible exact h | (extract_lets +onlyGivenNames sx; clear_value (hsx : sx = _); subst hsx) | simp only [Keeps.any] | refine Keeps.core ?_ rfl rfl rfl rfl (fun _ => rfl) rfl

theorem State.setDfeTap_keeps {s0 : Prop × State} {s : State} (h : Keeps s0 s) (a1 : Nat) (a2 : Nat) (a3 : Int) :
    Keeps s0 (State.setDfeTap s a1 a2 a3) := by
  unfold State.setDfeTap
  repeat' first | with_reducible exact h | (with_reducible apply State.put_keeps)

theorem State.setDorm_keeps {s0 : Prop × State} {s : State} (h : Keeps s0 s) (a1 : DormPhase) :
    Keeps s0 (State.setDorm s a1) := by
  unfold State.setDorm
  repeat' first | with_reducible exact h | (extract_lets +onlyGivenNames sx; clear_value (hsx : sx = _); subst hsx) | simp only [Keeps.any] | refine Keeps.core ?_ rfl rfl rfl rfl (fun _ => rfl) rfl

theorem State.setHand_keeps {s0 : Prop × State} {s : State} (h : Keeps s0 s) (a1 : Nat) (a2 : Option Handover) :
    Keeps s0 (State.setHand s a1 a2) := by
  unfold State.setHand
  repeat' first | with_reducible exact h | (extract_lets +onlyGivenNames sx; clear_value (hsx : sx = _); subst hsx) | simp only [Keeps.any] | refine Keeps.core ?_ rfl rfl rfl rfl (fun _ => rfl) rfl

theorem State.setHigh_keeps {s0 : Prop × State} {s : State} (h : Keeps s0 s) (a1 : Nat) (a2 : List Net) :
    Keeps s0 (State.setHigh s a1 a2) := by
  unfold State.setHigh
  repeat' first | with_reducible exact h | (extract_lets +onlyGivenNames sx; clear_value (hsx : sx = _); subst hsx) | simp only [Keeps.any] | refine Keeps.core ?_ rfl rfl rfl rfl (fun _ => rfl) rfl

theorem State.setJsdState_keeps {s0 : Prop × State} {s : State} (h : Keeps s0 s) (a1 : Nat) (a2 : Nat) :
    Keeps s0 (State.setJsdState s a1 a2) := by
  unfold State.setJsdState
  repeat' first | with_reducible exact h | (with_reducible apply State.put_keeps)

theorem State.setOpenArgs_keeps {s0 : Prop × State} {s : State} (h : Keeps s0 s) (a1 : Nat) (a2 : List Nat) :
    Keeps s0 (State.setOpenArgs s a1 a2) := by
  unfold State.setOpenArgs
  repeat' first | with_reducible exact h | (extract_lets +onlyGivenNames sx; clear_value (hsx : sx = _); subst hsx) | simp only [Keeps.any] | refine Keeps.core ?_ rfl rfl rfl rfl (fun _ => rfl) rfl

theorem State.setPsw_keeps {s0 : Prop × State} {s : State} (h : Keeps s0 s) (a1 : Nat) (a2 : Bool) :
    Keeps s0 (State.setPsw s a1 a2) := by
  unfold State.setPsw
  repeat' first | with_reducible exact h | with_reducible assumption | (intro _) | (with_reducible apply State.setBit_keeps) | with_reducible refine Keeps.foldl _ ?_ ?_

theorem State.setRoute_keeps {s0 : Prop × State} {s : State} (h : Keeps s0 s) (a1 : Nat) (a2 : Nat) (a3 : RouteEntry) :
    Keeps s0 (State.setRoute s a1 a2 a3) := by
  unfold State.setRoute
  repeat' first | with_reducible exact h | (extract_lets +onlyGivenNames sx; clear_value (hsx : sx = _); subst hsx) | simp only [Keeps.any] | refine Keeps.core ?_ rfl rfl rfl rfl (fun _ => rfl) rfl

theorem State.setSlot_keeps {s0 : Prop × State} {s : State} (h : Keeps s0 s) (a1 : Nat) (a2 : Option Slot) :
    Keeps s0 (State.setSlot s a1 a2) := by
  unfold State.setSlot
  repeat' first | with_reducible exact h | (extract_lets +onlyGivenNames sx; clear_value (hsx : sx = _); subst hsx) | simp only [Keeps.any] | refine Keeps.core ?_ rfl rfl rfl rfl (fun _ => rfl) rfl

theorem State.setTaking_keeps {s0 : Prop × State} {s : State} (h : Keeps s0 s) (a1 : Nat) (a2 : List (Option Elem)) :
    Keeps s0 (State.setTaking s a1 a2) := by
  unfold State.setTaking
  repeat' first | with_reducible exact h | (extract_lets +onlyGivenNames sx; clear_value (hsx : sx = _); subst hsx) | (with_reducible apply State.setFhe_keeps)

theorem State.softRepair_keeps {s0 : Prop × State} {s : State} (h : Keeps s0 s) (a1 : Repair) (a2 : Nat) (a3 : Nat) :
    Keeps s0 (State.softRepair s a1 a2 a3) := by
  unfold State.softRepair
  repeat' first | with_reducible exact h | with_reducible assumption | (extract_lets +onlyGivenNames sx; clear_value (hsx : sx = _); refine Keeps.step (s0 := s0) hsx ?_ ?_; swap; intro _; clear hsx) | (extract_lets +onlyGivenNames sx; clear_value (hsx : sx = _); subst hsx) | (with_reducible apply State.journal_keeps) | (with_reducible apply State.gazInc_keeps) | (with_reducible apply State.bump_keeps) | simp only [Keeps.any] | refine Keeps.core ?_ rfl rfl rfl rfl (fun _ => rfl) rfl

theorem State.shiftDone_keeps {s0 : Prop × State} {s : State} (h : Keeps s0 s) (a1 : Nat) (a2 : Nat) (a3 : Bool) :
    Keeps s0 (State.shiftDone s a1 a2 a3) := by
  unfold State.shiftDone
  repeat' first | with_reducible exact h | with_reducible assumption | (extract_lets +onlyGivenNames sx; clear_value (hsx : sx = _); refine Keeps.step (s0 := s0) hsx ?_ ?_; swap; intro _; clear hsx) | (extract_lets +onlyGivenNames sx; clear_value (hsx : sx = _); subst hsx) | (with_reducible apply State.restartTile_keeps) | (with_reducible apply State.outcomePart_keeps) | (with_reducible apply State.softRepair_keeps) | (with_reducible apply State.rotationTest_keeps) | with_reducible apply Keeps.ite | simp only [Keeps.any] | refine Keeps.core ?_ rfl rfl rfl rfl (fun _ => rfl) rfl | split

theorem State.stageBytes_keeps {s0 : Prop × State} {s : State} (h : Keeps s0 s) (c : Nat) (bs : List Byte) : Keeps s0 (s.stageBytes c bs) := by
  unfold State.stageBytes
  split
  · exact h
  · extract_lets old raw judged host x2 s1 from_ staged s2 s3
    have h1 : Keeps s0 s1 := State.wr_keeps (State.setCtx_keeps h _ _) _ _
    have h2 : Keeps s0 s2 :=
      Keeps.store h1 (fun x => foldl_keeps (P := fun m => swf (fun _ => (0 : Byte)) m = true) (fun _ _ hm => swf_sset _ _ _ hm) _ x)
    clear_value s1 s2
    have h3 : Keeps s0 s3 := by
      repeat' first | with_reducible assumption | (with_reducible apply State.put_keeps) | with_reducible apply Keeps.ite
    clear_value s3
    repeat' first | with_reducible assumption | (with_reducible apply State.reject_keeps) | (with_reducible apply State.dropRest_keeps) | with_reducible apply Keeps.ite | split

theorem State.stageImage_keeps {s0 : Prop × State} {s : State} (h : Keeps s0 s) (bs : List Byte) : Keeps s0 (s.stageImage bs) :=
  Keeps.store h (fun x => swf_putBytes _ _ x)

theorem State.staging_keeps {s0 : Prop × State} {s : State} (h : Keeps s0 s) (k : Ans) (hk : Keeps s0 k.st) : Keeps s0 (s.staging k).st := by
  unfold State.staging
  repeat' first | with_reducible exact h | with_reducible assumption | with_reducible apply Keeps.ite_ast | with_reducible apply Ans.st_code

end Sys2Proof.Machine
end

