-- ==== Sys2Proof/Laws/KeepsOps5.lean ====
section
/-! SUPPORT. What the shared operations keep (5 of 5): one lemma per operation, each citing those of the operations it is made of. -/

namespace Sys2Proof.Machine

theorem State.startGroup_keeps {s0 : Prop × State} {s : State} (h : Keeps s0 s) (a1 : List LFrame) :
    Keeps s0 (State.startGroup s a1).2 := by
  unfold State.startGroup
  repeat' first | with_reducible exact h | with_reducible assumption | (intro _) | (extract_lets +onlyGivenNames sx; clear_value (hsx : sx = _); subst hsx) | (with_reducible apply State.orderSheet_keeps) | (with_reducible apply State.orderWale_keeps) | with_reducible apply Keeps.ite2 | with_reducible refine Keeps.foldl2 _ ?_ ?_ | simp only [Keeps.any] | split

theorem State.startFull_keeps {s0 : Prop × State} {s : State} (h : Keeps s0 s) (a1 : List LFrame) :
    Keeps s0 (State.startFull s a1) := by
  unfold State.startFull
  repeat' first | with_reducible exact h | (extract_lets +onlyGivenNames sx; clear_value (hsx : sx = _); subst hsx) | (with_reducible apply State.startGroup_keeps) | (with_reducible apply State.chart_keeps) | with_reducible apply Keeps.ite | simp only [Keeps.any] | refine Keeps.core ?_ rfl rfl rfl rfl (fun _ => rfl) rfl

theorem State.swtLasting_keeps {s0 : Prop × State} {s : State} (h : Keeps s0 s) (a1 : Nat) (a2 : Nat) (a3 : Nat × Nat) :
    Keeps s0 (State.swtLasting s a1 a2 a3) := by
  unfold State.swtLasting
  repeat' first | with_reducible exact h | (with_reducible apply State.swtRequest_keeps)

theorem State.startOutcome_keeps {s0 : Prop × State} {s : State} (h : Keeps s0 s) (a1 : Nat) (a2 : Nat) :
    Keeps s0 (State.startOutcome s a1 a2) := by
  unfold State.startOutcome
  repeat' first | with_reducible exact h | with_reducible assumption | (intro _) | (extract_lets +onlyGivenNames sx; clear_value (hsx : sx = _); refine Keeps.step (s0 := s0) hsx ?_ ?_; swap; intro _; clear hsx) | (extract_lets +onlyGivenNames sx; clear_value (hsx : sx = _); subst hsx) | (with_reducible apply State.swtLasting_keeps) | (with_reducible apply State.swtAbandon_keeps) | (with_reducible apply State.outcomeEnd_keeps) | with_reducible apply Keeps.ite | with_reducible refine Keeps.foldl _ ?_ ?_ | simp only [Keeps.any] | refine Keeps.core ?_ rfl rfl rfl rfl (fun _ => rfl) rfl | split

theorem State.startShift_keeps {s0 : Prop × State} {s : State} (h : Keeps s0 s) (a1 : Nat) (a2 : Nat) (a3 : Option Nat) (a4 : Bool) :
    Keeps s0 (State.startShift s a1 a2 a3 a4) := by
  unfold State.startShift
  repeat' first | with_reducible exact h | (extract_lets +onlyGivenNames sx; clear_value (hsx : sx = _); subst hsx) | (with_reducible apply State.put_keeps) | (with_reducible apply State.setWale_keeps)

theorem State.stateReached_keeps {s0 : Prop × State} {s : State} (h : Keeps s0 s) :
    Keeps s0 (State.stateReached s) := by
  unfold State.stateReached
  repeat' first | with_reducible exact h | (with_reducible apply State.complete_keeps) | split

theorem State.strBind_keeps {s0 : Prop × State} {s : State} (h : Keeps s0 s) (a1 : Nat) (a2 : Nat) (a3 : Option Nat) :
    Keeps s0 (State.strBind s a1 a2 a3) := by
  unfold State.strBind
  repeat' first | with_reducible exact h | with_reducible assumption | (extract_lets +onlyGivenNames sx; clear_value (hsx : sx = _); refine Keeps.step (s0 := s0) hsx ?_ ?_; swap; intro _; clear hsx) | (extract_lets +onlyGivenNames sx; clear_value (hsx : sx = _); subst hsx) | (with_reducible apply State.strSettle_keeps) | (with_reducible apply State.setStream_keeps) | (with_reducible apply State.strCount_keeps) | with_reducible apply Keeps.ite

theorem State.strDeliver_keeps {s0 : Prop × State} {s : State} (h : Keeps s0 s) (a1 : Nat) (a2 : Bool) :
    Keeps s0 (State.strDeliver s a1 a2) := by
  unfold State.strDeliver
  repeat' first | with_reducible exact h | with_reducible assumption | (extract_lets +onlyGivenNames sx; clear_value (hsx : sx = _); refine Keeps.step (s0 := s0) hsx ?_ ?_; swap; intro _; clear hsx) | (with_reducible apply State.strSettle_keeps) | (with_reducible apply State.strHop_keeps) | with_reducible apply Keeps.ite

theorem State.strFinal_keeps {s0 : Prop × State} {s : State} (h : Keeps s0 s) (a1 : Nat) :
    Keeps s0 (State.strFinal s a1) := by
  unfold State.strFinal
  repeat' first | with_reducible exact h | with_reducible assumption | (extract_lets +onlyGivenNames sx; clear_value (hsx : sx = _); refine Keeps.step (s0 := s0) hsx ?_ ?_; swap; intro _; clear hsx) | (extract_lets +onlyGivenNames sx; clear_value (hsx : sx = _); subst hsx) | (with_reducible apply State.strSettle_keeps) | (with_reducible apply State.reach_keeps) | (with_reducible apply State.setStream_keeps)

theorem State.strRestart_keeps {s0 : Prop × State} {s : State} (h : Keeps s0 s) (a1 : Nat) :
    Keeps s0 (State.strRestart s a1) := by
  unfold State.strRestart
  repeat' first | with_reducible exact h | (extract_lets +onlyGivenNames sx; clear_value (hsx : sx = _); subst hsx) | (with_reducible apply State.strOffer_keeps) | (with_reducible apply State.setStream_keeps) | with_reducible apply Keeps.ite

theorem State.strTimeout_keeps {s0 : Prop × State} {s : State} (h : Keeps s0 s) (a1 : Nat) :
    Keeps s0 (State.strTimeout s a1) := by
  unfold State.strTimeout
  repeat' first | with_reducible exact h | with_reducible assumption | (extract_lets +onlyGivenNames sx; clear_value (hsx : sx = _); refine Keeps.step (s0 := s0) hsx ?_ ?_; swap; intro _; clear hsx) | (extract_lets +onlyGivenNames sx; clear_value (hsx : sx = _); subst hsx) | (with_reducible apply State.reach_keeps) | (with_reducible apply State.strCount_keeps) | (with_reducible apply State.strClose_keeps) | (with_reducible apply State.report_keeps) | with_reducible apply Keeps.ite

theorem State.strapCheck_keeps {s0 : Prop × State} {s : State} (h : Keeps s0 s) :
    Keeps s0 (State.strapCheck s) := by
  unfold State.strapCheck
  repeat' first | with_reducible exact h | (extract_lets +onlyGivenNames sx; clear_value (hsx : sx = _); subst hsx) | (with_reducible apply State.mismatch_keeps) | with_reducible apply Keeps.ite

theorem State.yarnCommit_keeps {s0 : Prop × State} {s : State} (h : Keeps s0 s) :
    Keeps s0 (State.yarnCommit s) := by
  unfold State.yarnCommit
  repeat' first | with_reducible exact h | with_reducible assumption | (intro _) | (extract_lets +onlyGivenNames sx; clear_value (hsx : sx = _); refine Keeps.step (s0 := s0) hsx ?_ ?_; swap; intro _; clear hsx) | (extract_lets +onlyGivenNames sx; clear_value (hsx : sx = _); subst hsx) | (with_reducible apply State.wr_keeps) | (with_reducible apply State.put_keeps) | with_reducible apply Keeps.ite | with_reducible refine Keeps.foldl _ ?_ ?_

theorem State.surveyInForce_keeps {s0 : Prop × State} {s : State} (h : Keeps s0 s) (a1 : Nat) :
    Keeps s0 (State.surveyInForce s a1) := by
  unfold State.surveyInForce
  repeat' first | with_reducible exact h | with_reducible assumption | (extract_lets +onlyGivenNames sx; clear_value (hsx : sx = _); refine Keeps.step (s0 := s0) hsx ?_ ?_; swap; intro _; clear hsx) | (extract_lets +onlyGivenNames sx; clear_value (hsx : sx = _); subst hsx) | (with_reducible apply State.pinsSurvey_keeps) | (with_reducible apply State.merCommit_keeps) | (with_reducible apply State.lanesSurvey_keeps) | (with_reducible apply State.yarnCommit_keeps) | (with_reducible apply State.memCommit_keeps) | (with_reducible apply State.put_keeps) | with_reducible apply Keeps.ite | simp only [Keeps.any] | refine Keeps.core ?_ rfl rfl rfl rfl (fun _ => rfl) rfl

theorem State.switchEdge_keeps {s0 : Prop × State} {s : State} (h : Keeps s0 s) (a1 : Nat) (a2 : PlaneOrder) :
    Keeps s0 (State.switchEdge s a1 a2) := by
  unfold State.switchEdge
  repeat' first | with_reducible exact h | with_reducible assumption | (extract_lets +onlyGivenNames sx; clear_value (hsx : sx = _); refine Keeps.step (s0 := s0) hsx ?_ ?_; swap; intro _; clear hsx) | (with_reducible apply State.commitLand_keeps) | (with_reducible apply State.setPlaneOrders_keeps) | (with_reducible apply State.reach_keeps) | (with_reducible apply State.memberPast_keeps) | (with_reducible apply State.airMissed_keeps) | (with_reducible apply State.report_keeps) | (with_reducible apply State.planeEdge_keeps) | (with_reducible apply State.asyncSettle_keeps) | (with_reducible apply State.closeWindow_keeps) | with_reducible apply Keeps.ite

theorem State.switchesDue_keeps {s0 : Prop × State} {s : State} (h : Keeps s0 s) :
    Keeps s0 (State.switchesDue s) := by
  unfold State.switchesDue
  repeat' first | with_reducible exact h | with_reducible assumption | (intro _) | (with_reducible apply State.switchEdge_keeps) | with_reducible apply Keeps.ite | with_reducible refine Keeps.foldl _ ?_ ?_ | split

theorem State.swtFail_keeps {s0 : Prop × State} {s : State} (h : Keeps s0 s) (a1 : Nat) (a2 : Nat) (a3 : Nat) (a4 : Nat) (a5 : List (Nat × Nat)) :
    Keeps s0 (State.swtFail s a1 a2 a3 a4 a5).2 := by
  unfold State.swtFail
  repeat' first | with_reducible exact h | with_reducible assumption | (extract_lets +onlyGivenNames sx; clear_value (hsx : sx = _); refine Keeps.step (s0 := s0) hsx ?_ ?_; swap; intro _; clear hsx) | (extract_lets +onlyGivenNames sx; clear_value (hsx : sx = _); subst hsx) | (with_reducible apply State.noSpareLeft_keeps) | (with_reducible apply State.remapStart_keeps) | (with_reducible apply State.softRepair_keeps) | (with_reducible apply State.rotationOver_keeps) | (with_reducible refine Keeps.of_some (by assumption) (State.spareColumn_keeps ?_ _ _)) | with_reducible apply Keeps.ite2 | split

theorem State.swtRestore_keeps {s0 : Prop × State} {s : State} (h : Keeps s0 s) (a1 : SwRun) :
    Keeps s0 (State.swtRestore s a1) := by
  unfold State.swtRestore
  repeat' first | with_reducible exact h | (with_reducible apply State.sheetInit_keeps) | with_reducible apply Keeps.ite

theorem State.swtPause_keeps {s0 : Prop × State} {s : State} (h : Keeps s0 s) (a1 : SwRun) :
    Keeps s0 (State.swtPause s a1) := by
  unfold State.swtPause
  repeat' first | with_reducible exact h | with_reducible assumption | (extract_lets +onlyGivenNames sx; clear_value (hsx : sx = _); refine Keeps.step (s0 := s0) hsx ?_ ?_; swap; intro _; clear hsx) | (extract_lets +onlyGivenNames sx; clear_value (hsx : sx = _); subst hsx) | (with_reducible apply State.swtRestore_keeps) | (with_reducible apply State.swtEnd_keeps) | simp only [Keeps.any] | refine Keeps.core ?_ rfl rfl rfl rfl (fun _ => rfl) rfl

theorem State.windowEvent_keeps {s0 : Prop × State} {s : State} (h : Keeps s0 s) (a1 : Nat) (a2 : Nat) :
    Keeps s0 (State.windowEvent s a1 a2).2.2 := by
  unfold State.windowEvent
  repeat' first | with_reducible exact h | (with_reducible apply State.bump_keeps) | (with_reducible apply State.setSlot_keeps) | (with_reducible apply State.gazInc_keeps) | with_reducible apply Keeps.ite | with_reducible apply Keeps.ite22 | simp only [Keeps.any] | split

theorem State.takeEvent_keeps {s0 : Prop × State} {s : State} (h : Keeps s0 s) (a1 : Report) :
    Keeps s0 (State.takeEvent s a1) := by
  unfold State.takeEvent
  repeat' first | with_reducible exact h | with_reducible assumption | (intro _) | (extract_lets +onlyGivenNames sx; clear_value (hsx : sx = _); refine Keeps.step (s0 := s0) hsx ?_ ?_; swap; intro _; clear hsx) | (extract_lets +onlyGivenNames sx; clear_value (hsx : sx = _); subst hsx) | (with_reducible apply State.keepEvent_keeps) | (with_reducible apply State.bump_keeps) | (with_reducible apply State.windowEvent_keeps) | (with_reducible apply State.logEvent_keeps) | (with_reducible apply State.journal_keeps) | (with_reducible apply State.startOutcome_keeps) | with_reducible apply Keeps.ite | with_reducible refine Keeps.foldl _ ?_ ?_

theorem State.tapAccess_keeps {s0 : Prop × State} {s : State} (h : Keeps s0 s) (a1 : BarReq) (a2 : EccSeen) :
    Keeps s0 (State.tapAccess s a1 a2) := by
  unfold State.tapAccess
  repeat' first | with_reducible exact h | with_reducible assumption | (extract_lets +onlyGivenNames sx; clear_value (hsx : sx = _); refine Keeps.step (s0 := s0) hsx ?_ ?_; swap; intro _; clear hsx) | (extract_lets +onlyGivenNames sx; clear_value (hsx : sx = _); subst hsx) | (with_reducible apply State.barUr_keeps) | (with_reducible apply State.barReply_keeps) | (with_reducible apply State.storeCe_keeps) | (with_reducible apply State.storeUe_keeps) | with_reducible apply Keeps.ite | simp only [Keeps.any] | refine Keeps.core ?_ rfl rfl rfl rfl (fun _ => rfl) rfl | split

theorem State.tapTake_keeps {s0 : Prop × State} {s : State} (h : Keeps s0 s) (src t : Nat) (d : BitVec 64) : Keeps s0 (s.tapTake src t d) := by
  unfold State.tapTake
  refine Keeps.foldl _ ?_ h
  intro v i hv
  split
  · split
    · dsimp only
      refine State.setTap_keeps (Keeps.store hv ?_) _ _
      exact fun x => foldl_keeps (P := fun m => swf (fun _ => (0 : Byte)) m = true) (fun _ _ hm => swf_sset _ _ _ hm) _ x
    · exact hv
  · exact hv

theorem State.testFinish_keeps {s0 : Prop × State} {s : State} (h : Keeps s0 s) (a1 : LinkTest) (a2 : Bool) :
    Keeps s0 (State.testFinish s a1 a2) := by
  unfold State.testFinish
  repeat' first | with_reducible exact h | with_reducible assumption | (extract_lets +onlyGivenNames sx; clear_value (hsx : sx = _); refine Keeps.step (s0 := s0) hsx ?_ ?_; swap; intro _; clear hsx) | (extract_lets +onlyGivenNames sx; clear_value (hsx : sx = _); subst hsx) | (with_reducible apply State.put_keeps) | (with_reducible apply State.setBit_keeps) | (with_reducible apply State.addChanges_keeps) | (with_reducible apply State.linkFail_keeps) | (with_reducible apply State.completeOpt_keeps) | with_reducible apply Keeps.ite | simp only [Keeps.any] | refine Keeps.core ?_ rfl rfl rfl rfl (fun _ => rfl) rfl

theorem State.testStart_keeps {s0 : Prop × State} {s : State} (h : Keeps s0 s) (a1 : LinkTest) :
    Keeps s0 (State.testStart s a1) := by
  unfold State.testStart
  repeat' first | with_reducible exact h | with_reducible assumption | (extract_lets +onlyGivenNames sx; clear_value (hsx : sx = _); refine Keeps.step (s0 := s0) hsx ?_ ?_; swap; intro _; clear hsx) | (extract_lets +onlyGivenNames sx; clear_value (hsx : sx = _); subst hsx) | (with_reducible apply State.put_keeps) | (with_reducible apply State.addChanges_keeps) | (with_reducible apply State.bump_keeps) | simp only [Keeps.any] | refine Keeps.core ?_ rfl rfl rfl rfl (fun _ => rfl) rfl

theorem State.tierPeaks_keeps {s0 : Prop × State} {s : State} (h : Keeps s0 s) (a1 : Nat) :
    Keeps s0 (State.tierPeaks s a1) := by
  unfold State.tierPeaks
  repeat' first | with_reducible exact h | with_reducible assumption | (extract_lets +onlyGivenNames sx; clear_value (hsx : sx = _); refine Keeps.step (s0 := s0) hsx ?_ ?_; swap; intro _; clear hsx) | (extract_lets +onlyGivenNames sx; clear_value (hsx : sx = _); subst hsx) | (with_reducible apply State.gazMax_keeps) | simp only [Keeps.any] | refine Keeps.core ?_ rfl rfl rfl rfl (fun _ => rfl) rfl | split

theorem State.tmemEcc_keeps {s0 : Prop × State} {s : State} (h : Keeps s0 s) (a1 : Nat) (a2 : Nat) (a3 : Nat) :
    Keeps s0 (State.tmemEcc s a1 a2 a3) := by
  unfold State.tmemEcc
  repeat' first | with_reducible exact h | (extract_lets +onlyGivenNames sx; clear_value (hsx : sx = _); subst hsx) | (with_reducible apply State.report_keeps) | (with_reducible apply State.draw_keeps) | (with_reducible apply State.handOver_keeps) | split

theorem State.todTake_keeps {s0 : Prop × State} {s : State} (h : Keeps s0 s) (a1 : TodMsg) :
    Keeps s0 (State.todTake s a1) := by
  unfold State.todTake
  repeat' first | with_reducible exact h | (extract_lets +onlyGivenNames sx; clear_value (hsx : sx = _); subst hsx) | (with_reducible apply State.setMer_keeps) | (with_reducible apply State.wr_keeps) | with_reducible apply Keeps.ite | simp only [Keeps.any] | split

theorem State.tokenSwitch_keeps {s0 : Prop × State} {s : State} (h : Keeps s0 s) (a1 : Nat) (a2 : Drain) :
    Keeps s0 (State.tokenSwitch s a1 a2) := by
  unfold State.tokenSwitch
  repeat' first | with_reducible exact h | with_reducible assumption | (intro _) | (extract_lets +onlyGivenNames sx; clear_value (hsx : sx = _); refine Keeps.step (s0 := s0) hsx ?_ ?_; swap; intro _; clear hsx) | (extract_lets +onlyGivenNames sx; clear_value (hsx : sx = _); subst hsx) | (with_reducible apply State.queueOut_keeps) | (with_reducible apply State.walCount_keeps) | (with_reducible apply State.activate_keeps) | (with_reducible apply State.passSeams_keeps) | with_reducible apply Keeps.ite | with_reducible refine Keeps.foldl _ ?_ ?_ | split

theorem State.trainedFfe_keeps {s0 : Prop × State} {s : State} (h : Keeps s0 s) (a1 : Nat) (a2 : List (Nat × Word)) :
    Keeps s0 (State.trainedFfe s a1 a2) := by
  unfold State.trainedFfe
  repeat' first | with_reducible exact h | (with_reducible apply State.wr_keeps) | with_reducible apply Keeps.ite | split

theorem State.tripRead_keeps {s0 : Prop × State} {s : State} (h : Keeps s0 s) :
    Keeps s0 (State.tripRead s) := by
  unfold State.tripRead
  repeat' first | with_reducible exact h | with_reducible assumption | (extract_lets +onlyGivenNames sx; clear_value (hsx : sx = _); refine Keeps.step (s0 := s0) hsx ?_ ?_; swap; intro _; clear hsx) | (extract_lets +onlyGivenNames sx; clear_value (hsx : sx = _); subst hsx) | (with_reducible apply State.enterTripped_keeps) | simp only [Keeps.any] | refine Keeps.core ?_ rfl rfl rfl rfl (fun _ => rfl) rfl | split

theorem State.txPrb_keeps {s0 : Prop × State} {s : State} (h : Keeps s0 s) (a1 : Nat) (a2 : List (Option Elem)) (a3 : Nat) :
    Keeps s0 (State.txPrb s a1 a2 a3).2 := by
  unfold State.txPrb
  repeat' first | with_reducible exact h | (extract_lets +onlyGivenNames sx; clear_value (hsx : sx = _); subst hsx) | (with_reducible apply State.flowCount_keeps) | with_reducible apply Keeps.ite2

theorem State.txSection_keeps {s0 : Prop × State} {s : State} (h : Keeps s0 s) (a1 : Nat) (a2 : Nat) (a3 : Nat) (a4 : List (Option Elem)) (a5 : HeldSection) :
    Keeps s0 (State.txSection s a1 a2 a3 a4 a5) := by
  unfold State.txSection
  repeat' first | with_reducible exact h | with_reducible assumption | (intro _) | (extract_lets +onlyGivenNames sx; clear_value (hsx : sx = _); subst hsx) | (with_reducible apply State.txPrb_keeps) | (with_reducible apply State.setFhe_keeps) | (with_reducible apply State.queueFrame_keeps) | with_reducible refine Keeps.foldl _ ?_ ?_ | with_reducible refine Keeps.foldl2 _ ?_ ?_

theorem State.txUnit_keeps {s0 : Prop × State} {s : State} (h : Keeps s0 s) (a1 : Nat) (a2 : List (Option Elem)) :
    Keeps s0 (State.txUnit s a1 a2) := by
  unfold State.txUnit
  repeat' first | with_reducible exact h | with_reducible assumption | (intro _) | (extract_lets +onlyGivenNames sx; clear_value (hsx : sx = _); refine Keeps.step (s0 := s0) hsx ?_ ?_; swap; intro _; clear hsx) | (extract_lets +onlyGivenNames sx; clear_value (hsx : sx = _); subst hsx) | (with_reducible apply State.setFhe_keeps) | (with_reducible apply State.flowCount_keeps) | (with_reducible apply State.txSection_keeps) | with_reducible apply Keeps.ite | with_reducible refine Keeps.foldl _ ?_ ?_ | simp only [Keeps.any] | split

theorem State.txTake_keeps {s0 : Prop × State} {s : State} (h : Keeps s0 s) (a1 : Nat) (a2 : Nat) (a3 : Elem) :
    Keeps s0 (State.txTake s a1 a2 a3) := by
  unfold State.txTake
  repeat' first | with_reducible exact h | with_reducible assumption | (extract_lets +onlyGivenNames sx; clear_value (hsx : sx = _); refine Keeps.step (s0 := s0) hsx ?_ ?_; swap; intro _; clear hsx) | (extract_lets +onlyGivenNames sx; clear_value (hsx : sx = _); subst hsx) | (with_reducible apply State.setFhe_keeps) | (with_reducible apply State.setTaking_keeps) | (with_reducible apply State.txUnit_keeps) | with_reducible apply Keeps.ite

theorem State.writeAll_keeps {s0 : Prop × State} {s : State} (h : Keeps s0 s) (l : List (Nat × Word)) : ∀ t, s.writeAll l = some t → Keeps s0 t := by
  induction l generalizing s with
  | nil => intro t e; cases e; exact h
  | cons a as ih =>
    intro t e
    unfold State.writeAll at e
    dsimp only at e
    split at e
    · exact ih (State.busWrite_keeps (State.ubtorAborts_keeps h _) _ _ _) t e
    · cases e

theorem State.writeFrames_keeps {s0 : Prop × State} {s : State} (h : Keeps s0 s) (a1 : Nat) (a2 : Nat) (a3 : List LFrame) :
    Keeps s0 (State.writeFrames s a1 a2 a3) := by
  unfold State.writeFrames
  repeat' first | with_reducible exact h | with_reducible assumption | (intro _) | (with_reducible apply State.itemLand_keeps) | with_reducible refine Keeps.foldl _ ?_ ?_

theorem State.yarnUnacked_keeps {s0 : Prop × State} {s : State} (h : Keeps s0 s) (a1 : Nat) :
    Keeps s0 (State.yarnUnacked s a1) := by
  unfold State.yarnUnacked
  repeat' first | with_reducible exact h | (with_reducible apply State.put_keeps)

theorem State.yarnFault_keeps {s0 : Prop × State} {s : State} (h : Keeps s0 s) (a1 : Nat) :
    Keeps s0 (State.yarnFault s a1) := by
  unfold State.yarnFault
  repeat' first | with_reducible exact h | with_reducible assumption | (extract_lets +onlyGivenNames sx; clear_value (hsx : sx = _); refine Keeps.step (s0 := s0) hsx ?_ ?_; swap; intro _; clear hsx) | (with_reducible apply State.gazInc_keeps) | (with_reducible apply State.report_keeps) | (with_reducible apply State.groupFault_keeps) | (with_reducible apply State.linkDown_keeps) | split

theorem State.yarnReplay_keeps {s0 : Prop × State} {s : State} (h : Keeps s0 s) (a1 : Nat) :
    Keeps s0 (State.yarnReplay s a1) := by
  unfold State.yarnReplay
  repeat' first | with_reducible exact h | with_reducible assumption | (extract_lets +onlyGivenNames sx; clear_value (hsx : sx = _); refine Keeps.step (s0 := s0) hsx ?_ ?_; swap; intro _; clear hsx) | (extract_lets +onlyGivenNames sx; clear_value (hsx : sx = _); subst hsx) | (with_reducible apply State.setYport_keeps) | (with_reducible apply State.bump_keeps) | (with_reducible apply State.yarnFault_keeps) | with_reducible apply Keeps.ite

theorem State.yarnAck_keeps {s0 : Prop × State} {s : State} (h : Keeps s0 s) (a1 : Nat) (a2 : YarnCodeword) :
    Keeps s0 (State.yarnAck s a1 a2) := by
  unfold State.yarnAck
  repeat' first | with_reducible exact h | with_reducible assumption | (extract_lets +onlyGivenNames sx; clear_value (hsx : sx = _); refine Keeps.step (s0 := s0) hsx ?_ ?_; swap; intro _; clear hsx) | (extract_lets +onlyGivenNames sx; clear_value (hsx : sx = _); subst hsx) | (with_reducible apply State.setYport_keeps) | (with_reducible apply State.yarnUnacked_keeps) | (with_reducible apply State.yarnReplay_keeps) | with_reducible apply Keeps.ite

theorem State.yarnAdapt_keeps {s0 : Prop × State} {s : State} (h : Keeps s0 s) (a1 : Nat) (a2 : AdaptStep) :
    Keeps s0 (State.yarnAdapt s a1 a2) := by
  unfold State.yarnAdapt
  repeat' first | with_reducible exact h | (extract_lets +onlyGivenNames sx; clear_value (hsx : sx = _); subst hsx) | (with_reducible apply State.setYport_keeps) | with_reducible apply Keeps.ite

theorem State.yarnPass_keeps {s0 : Prop × State} {s : State} (h : Keeps s0 s) (a1 : Nat) (a2 : Nat) :
    Keeps s0 (State.yarnPass s a1 a2) := by
  unfold State.yarnPass
  repeat' first | with_reducible exact h | with_reducible assumption | (intro _) | (with_reducible apply State.strGive_keeps) | (with_reducible apply State.setYport_keeps) | with_reducible apply Keeps.ite | with_reducible refine Keeps.foldl _ ?_ ?_ | simp only [Keeps.any] | split

theorem State.yarnDeliver_keeps {s0 : Prop × State} {s : State} (h : Keeps s0 s) (a1 : Nat) (a2 : YarnUnit) :
    Keeps s0 (State.yarnDeliver s a1 a2) := by
  unfold State.yarnDeliver
  repeat' first | with_reducible exact h | (extract_lets +onlyGivenNames sx; clear_value (hsx : sx = _); subst hsx) | (with_reducible apply State.yarnPass_keeps) | (with_reducible apply State.setYport_keeps) | (with_reducible apply State.bump_keeps) | with_reducible apply Keeps.ite | split

theorem State.yarnDiscard_keeps {s0 : Prop × State} {s : State} (h : Keeps s0 s) (a1 : Nat) (a2 : Nat) :
    Keeps s0 (State.yarnDiscard s a1 a2) := by
  unfold State.yarnDiscard
  repeat' first | with_reducible exact h | with_reducible assumption | (intro _) | (with_reducible apply State.strTake_keeps) | (with_reducible apply State.strCount_keeps) | (with_reducible apply State.setYport_keeps) | with_reducible apply Keeps.ite | with_reducible refine Keeps.foldl _ ?_ ?_ | simp only [Keeps.any] | split

theorem State.yarnGaps_keeps {s0 : Prop × State} {s : State} (h : Keeps s0 s) (a1 : Nat) :
    Keeps s0 (State.yarnGaps s a1) := by
  unfold State.yarnGaps
  repeat' first | with_reducible exact h | with_reducible assumption | (intro _) | (extract_lets +onlyGivenNames sx; clear_value (hsx : sx = _); subst hsx) | (with_reducible apply State.yarnPass_keeps) | (with_reducible apply State.setYport_keeps) | with_reducible apply Keeps.ite | with_reducible refine Keeps.foldl _ ?_ ?_

theorem State.yarnUntrained_keeps {s0 : Prop × State} {s : State} (h : Keeps s0 s) (a1 : Nat) :
    Keeps s0 (State.yarnUntrained s a1) := by
  unfold State.yarnUntrained
  repeat' first | with_reducible exact h | with_reducible assumption | (intro _) | (extract_lets +onlyGivenNames sx; clear_value (hsx : sx = _); refine Keeps.step (s0 := s0) hsx ?_ ?_; swap; intro _; clear hsx) | (with_reducible apply State.put_keeps) | (with_reducible apply State.yarnGaps_keeps) | (with_reducible apply State.markLost_keeps) | with_reducible apply Keeps.ite | with_reducible refine Keeps.foldl _ ?_ ?_

theorem State.yarnFail_keeps {s0 : Prop × State} {s : State} (h : Keeps s0 s) (a1 : Nat) (a2 : Nat) :
    Keeps s0 (State.yarnFail s a1 a2) := by
  unfold State.yarnFail
  repeat' first | with_reducible exact h | (with_reducible apply State.yarnUntrained_keeps) | (with_reducible apply State.lanesBusy_keeps)

theorem State.yarnUnit_keeps {s0 : Prop × State} {s : State} (h : Keeps s0 s) (p v : Nat) : ∀ t, s.yarnUnit p v = some t → Keeps s0 t.2 := by
  intro t e
  unfold State.yarnUnit at e
  dsimp only at e
  repeat' first
    | (cases e; done)
    | (cases e; exact State.setYport_keeps h _ _)
    | split at e
  cases e
  refine State.setYport_keeps ?_ _ _
  refine Keeps.foldl2 _ ?_ h
  intro q b hq
  have hk := State.strTake_keeps hq
  split <;> rename_i e <;> exact Keeps.of_snd e (hk _)

theorem State.yarnPick_keeps {s0 : Prop × State} {s : State} (h : Keeps s0 s) (p : Nat) : ∀ t, s.yarnPick p = some t → Keeps s0 t.2 := by
  intro t e
  unfold State.yarnPick at e
  obtain ⟨v, -, e⟩ := List.exists_of_findSome?_eq_some e
  rw [Option.map_eq_some_iff] at e
  obtain ⟨r, hr, rfl⟩ := e
  exact State.setYport_keeps (State.yarnUnit_keeps h _ _ _ hr) _ _

theorem State.yarnFill_keeps {s0 : Prop × State} {s : State} (h : Keeps s0 s) (a1 : Nat) :
    Keeps s0 (State.yarnFill s a1).2 := by
  unfold State.yarnFill
  repeat' first | with_reducible exact h | with_reducible assumption | (intro _) | (with_reducible refine Keeps.of_some2 (by assumption) (State.yarnPick_keeps ?_ _)) | with_reducible refine Keeps.foldl2 _ ?_ ?_ | split

theorem State.yarnFrameGood_keeps {s0 : Prop × State} {s : State} (h : Keeps s0 s) (a1 : Nat) (a2 : Nat) (a3 : YarnFrame) :
    Keeps s0 (State.yarnFrameGood s a1 a2 a3) := by
  unfold State.yarnFrameGood
  repeat' first | with_reducible exact h | with_reducible assumption | (extract_lets +onlyGivenNames sx; clear_value (hsx : sx = _); refine Keeps.step (s0 := s0) hsx ?_ ?_; swap; intro _; clear hsx) | (extract_lets +onlyGivenNames sx; clear_value (hsx : sx = _); subst hsx) | (with_reducible apply State.ffeRequests_keeps) | (with_reducible apply State.setYport_keeps) | (with_reducible apply State.put_keeps) | (with_reducible apply State.yarnFail_keeps) | (with_reducible apply State.mismatch_keeps) | (with_reducible apply State.laneDetect_keeps) | with_reducible apply Keeps.ite | simp only [Keeps.any] | split

theorem State.yarnFrameSent_keeps {s0 : Prop × State} {s : State} (h : Keeps s0 s) (a1 : Nat) (a2 : Nat) :
    Keeps s0 (State.yarnFrameSent s a1 a2) := by
  unfold State.yarnFrameSent
  repeat' first | with_reducible exact h | (extract_lets +onlyGivenNames sx; clear_value (hsx : sx = _); subst hsx) | (with_reducible apply State.setYport_keeps)

theorem State.yarnLost_keeps {s0 : Prop × State} {s : State} (h : Keeps s0 s) (a1 : Nat) :
    Keeps s0 (State.yarnLost s a1) := by
  unfold State.yarnLost
  repeat' first | with_reducible exact h | with_reducible assumption | (intro _) | (extract_lets +onlyGivenNames sx; clear_value (hsx : sx = _); refine Keeps.step (s0 := s0) hsx ?_ ?_; swap; intro _; clear hsx) | (extract_lets +onlyGivenNames sx; clear_value (hsx : sx = _); subst hsx) | (with_reducible apply State.setYport_keeps) | (with_reducible apply State.yarnGaps_keeps) | (with_reducible apply State.fwdsEnd_keeps) | (with_reducible apply State.yarnUnacked_keeps) | (with_reducible apply State.ackWrite_keeps) | with_reducible apply Keeps.ite | with_reducible refine Keeps.foldl _ ?_ ?_

theorem State.yarnPassAll_keeps {s0 : Prop × State} {s : State} (h : Keeps s0 s) (a1 : Nat) :
    Keeps s0 (State.yarnPassAll s a1) := by
  unfold State.yarnPassAll
  repeat' first | with_reducible exact h | with_reducible assumption | (intro _) | (with_reducible apply State.yarnPass_keeps) | with_reducible refine Keeps.foldl _ ?_ ?_

theorem capTake_keeps {s0 : Prop × State} {s : State} (h : Keeps s0 s) (a1 : Nat) (a2 : Bool) (a3 : Cmd) :
    Keeps s0 (capTake a1 a2 a3 s).st := by
  unfold capTake
  repeat' first | with_reducible exact h | (extract_lets +onlyGivenNames sx; clear_value (hsx : sx = _); subst hsx) | (with_reducible apply Ans.code_keeps) | (with_reducible apply State.setCap_keeps) | with_reducible apply Keeps.ite_ast | with_reducible apply Ans.st_acc

theorem laneUnused_keeps {s0 : Prop × State} {s : State} (h : Keeps s0 s) (c : Cmd) (k : Ans) (hk : Keeps s0 k.st) : Keeps s0 (laneUnused c s k).st := by
  unfold laneUnused
  repeat' first | with_reducible exact h | with_reducible assumption | with_reducible apply Keeps.ite_ast | with_reducible apply Ans.st_code

theorem openStream_keeps {s0 : Prop × State} {s : State} (h : Keeps s0 s) (c : Cmd) (q : OpenReq) (data : Nat → List Word) :
    Keeps s0 (openStream c s q data).st := by
  unfold openStream
  split
  · exact h
  · split
    · exact h
    · exact State.strOpen_keeps h _ _ _

theorem runCommand_keeps {s0 : Prop × State} {s : State} (h : Keeps s0 s) (sp : CmdSpec) (fields : Cmd → State → Option RetCode)
    (act : Cmd → State → Ans) (mb : Nat) (hk : ∀ c, Keeps s0 (act c s).st) : Keeps s0 (runCommand sp fields act mb s) := by
  unfold runCommand
  extract_lets c isFull
  have hc := hk c
  generalize act c s = a at hc
  cases a with
  | ans rc v data =>
    change Keeps s0 v at hc
    repeat' first | with_reducible exact h | with_reducible assumption | (with_reducible apply State.answer_keeps) | (with_reducible apply State.acknowledge_keeps) | (with_reducible apply State.takeId_keeps) | with_reducible apply Keeps.ite | simp only [Keeps.any] | split
  | acc v args =>
    change Keeps s0 v at hc
    repeat' first | with_reducible exact h | with_reducible assumption | (with_reducible apply State.answer_keeps) | (with_reducible apply State.acknowledge_keeps) | (with_reducible apply State.takeId_keeps) | (with_reducible apply State.accept_keeps) | with_reducible apply Keeps.ite | simp only [Keeps.any] | split
  | wait v args =>
    change Keeps s0 v at hc
    repeat' first | with_reducible exact h | with_reducible assumption | (with_reducible apply State.answer_keeps) | (with_reducible apply State.acknowledge_keeps) | (with_reducible apply State.takeId_keeps) | with_reducible apply Keeps.ite | simp only [Keeps.any] | refine Keeps.core ?_ rfl rfl rfl rfl (fun _ => rfl) rfl | split
  | later v =>
    change Keeps s0 v at hc
    repeat' first | with_reducible exact h | with_reducible assumption | (with_reducible apply State.answer_keeps) | (with_reducible apply State.acknowledge_keeps) | (with_reducible apply State.takeId_keeps) | with_reducible apply Keeps.ite | simp only [Keeps.any] | split

theorem unlessShifting_keeps {s0 : Prop × State} {s : State} (h : Keeps s0 s) (act : Nat → Cmd → State → Ans) (c : Cmd) (hk : ∀ n, Keeps s0 (act n c s).st) :
    Keeps s0 (unlessShifting act c s).st := by
  unfold unlessShifting
  dsimp only
  split
  · exact h
  · exact hk _

end Sys2Proof.Machine
end

