-- ==== Sys2Proof/Laws/KeepsRows1.lean ====
section
/-! SUPPORT. What each row keeps (1 of 3): its meaning answers a next state that keeps the queue, the canonical forms and, but for the datum
island's own rows, the island. -/

namespace Sys2Proof.Machine

theorem State.airSwapOrder_keeps {s0 : Prop × State} {s t : State} (h : Keeps s0 s) {a : Nat} {id : Option Nat} (e : s.airSwapOrder a id = .ok t) :
    Keeps s0 t := by
  unfold State.airSwapOrder at e
  split at e
  · exact absurd e (by simp only [reduceCtorEq, not_false_eq_true])
  · split at e
    · exact Except.ok.inj e ▸ State.airExchange_keeps h
    · split at e
      · exact absurd e (by simp only [reduceCtorEq, not_false_eq_true])
      · split at e
        · exact absurd e (by simp only [reduceCtorEq, not_false_eq_true])
        · split at e
          · exact absurd e (by simp only [reduceCtorEq, not_false_eq_true])
          · exact Except.ok.inj e ▸ State.put_keeps (State.setAir_keeps (State.airRedispatch_keeps h _) _) _ _ _

theorem Got.settle_kept {s0 : Prop × State} (g : Got Unit) (h : Keeps s0 g.st) : Keeps s0 g.settle := by
  cases g with
  | ok d s => exact h
  | halt c ch s => exact State.enterHalted_keeps h _ _
  | noEcc e s => exact h

/-- The outcome is a next state, and keeps. -/
structure KeepsOut (s : Prop × State) (o : Out) : Prop where
  go : ∃ t, o = .next t ∧ Keeps s t

theorem KeepsOut.next {s0 : Prop × State} {t : State} (h : Keeps s0 t) : KeepsOut s0 (.next t) := ⟨_, rfl, h⟩

theorem KeepsOut.ite {s0 : Prop × State} {c : Prop} [Decidable c] {a b : Out} (ha : KeepsOut s0 a) (hb : KeepsOut s0 b) : KeepsOut s0 (if c then a else b) := by
  split <;> assumption

theorem State.duty_kept {s0 : Prop × State} {s : State} {p : Nat} {o : Out} (h : Keeps s0 s) (ho : KeepsOut s0 o) : KeepsOut s0 (s.duty p o) := by
  unfold State.duty
  split
  · exact KeepsOut.next h
  · exact ho

theorem execSupplyValid_keeps (a1 : Rail) (s : State) : KeepsOut (True, s) (execSupplyValid a1 s) := by
  have h : Keeps (True, s) s := Keeps.refl _ _
  unfold execSupplyValid
  repeat' first | with_reducible apply KeepsOut.next | with_reducible apply KeepsOut.ite | with_reducible exact h | (extract_lets +onlyGivenNames sx; clear_value (hsx : sx = _); subst hsx) | simp only [Keeps.any] | refine Keeps.core ?_ rfl rfl rfl rfl (fun _ => rfl) rfl

theorem execPowerOnResetRelease_keeps (a1 : Nat) (a2 : Nat) (a3 : Nat) (a4 : Nat) (s : State) : KeepsOut (True, s) (execPowerOnResetRelease a1 a2 a3 a4 s) := by
  have h : Keeps (True, s) s := Keeps.refl _ _
  unfold execPowerOnResetRelease
  repeat' first | with_reducible apply KeepsOut.next | with_reducible exact h | (with_reducible apply State.powerOn_keeps) | (with_reducible apply State.reach_keeps) | split

theorem execSupplyLoss_keeps (a1 : Rail) (s : State) : KeepsOut (True, s) (execSupplyLoss a1 s) := by
  have h : Keeps (True, s) s := Keeps.refl _ _
  unfold execSupplyLoss
  repeat' first | with_reducible apply KeepsOut.next | with_reducible apply KeepsOut.ite | with_reducible exact h | (extract_lets +onlyGivenNames sx; clear_value (hsx : sx = _); subst hsx) | (with_reducible apply State.powerLost_keeps) | simp only [Keeps.any] | refine Keeps.core ?_ rfl rfl rfl rfl (fun _ => rfl) rfl

theorem execVddAonLost_keeps  (s : State) : KeepsOut (True, s) (execVddAonLost s) := by
  have h : Keeps (True, s) s := Keeps.refl _ _
  unfold execVddAonLost
  repeat' first | with_reducible apply KeepsOut.next | with_reducible exact h | (extract_lets +onlyGivenNames sx; clear_value (hsx : sx = _); subst hsx) | (with_reducible apply State.powerLost_keeps) | simp only [Keeps.any] | refine Keeps.core ?_ rfl rfl rfl rfl (fun _ => rfl) rfl

theorem execPerstAssert_keeps  (s : State) : KeepsOut (True, s) (execPerstAssert s) := by
  have h : Keeps (True, s) s := Keeps.refl _ _
  unfold execPerstAssert
  repeat' first | with_reducible apply KeepsOut.next | with_reducible apply KeepsOut.ite | with_reducible exact h | with_reducible assumption | (intro _) | (extract_lets +onlyGivenNames sx; clear_value (hsx : sx = _); subst hsx) | (with_reducible apply State.setDmaQ_keeps) | (with_reducible apply State.setQState_keeps) | (with_reducible apply State.gazInc_keeps) | (with_reducible apply State.pcieDown_keeps) | with_reducible refine Keeps.foldl _ ?_ ?_ | simp only [Keeps.any] | refine Keeps.core ?_ rfl rfl rfl rfl (fun _ => rfl) rfl

theorem execPerstRelease_keeps  (s : State) : KeepsOut (True, s) (execPerstRelease s) := by
  have h : Keeps (True, s) s := Keeps.refl _ _
  unfold execPerstRelease
  repeat' first | with_reducible apply KeepsOut.next | with_reducible apply KeepsOut.ite | with_reducible exact h | (extract_lets +onlyGivenNames sx; clear_value (hsx : sx = _); subst hsx) | (with_reducible apply State.enterBoot_keeps) | simp only [Keeps.any] | refine Keeps.core ?_ rfl rfl rfl rfl (fun _ => rfl) rfl

theorem execXtalStable_keeps  (s : State) : KeepsOut (True, s) (execXtalStable s) := by
  have h : Keeps (True, s) s := Keeps.refl _ _
  unfold execXtalStable
  repeat' first | with_reducible apply KeepsOut.next | with_reducible apply KeepsOut.ite | with_reducible exact h | (extract_lets +onlyGivenNames sx; clear_value (hsx : sx = _); subst hsx) | (with_reducible apply State.reach_keeps) | (with_reducible apply State.put_keeps) | simp only [Keeps.any] | refine Keeps.core ?_ rfl rfl rfl rfl (fun _ => rfl) rfl

theorem execBootImageTried_keeps (a1 : ImageOutcome) (s : State) : KeepsOut (True, s) (execBootImageTried a1 s) := by
  have h : Keeps (True, s) s := Keeps.refl _ _
  unfold execBootImageTried
  repeat' first | with_reducible apply KeepsOut.next | with_reducible apply KeepsOut.ite | with_reducible exact h | (extract_lets +onlyGivenNames sx; clear_value (hsx : sx = _); subst hsx) | (with_reducible apply State.drawKeys_keeps) | (with_reducible apply State.enter_keeps) | (with_reducible apply State.journal_keeps) | (with_reducible apply State.gazInc_keeps) | with_reducible apply Keeps.ite | simp only [Keeps.any] | refine Keeps.core ?_ rfl rfl rfl rfl (fun _ => rfl) rfl | split

theorem execPcieLinkTrained_keeps (a1 : Nat) (a2 : Nat) (s : State) : KeepsOut (True, s) (execPcieLinkTrained a1 a2 s) := by
  have h : Keeps (True, s) s := Keeps.refl _ _
  unfold execPcieLinkTrained
  repeat' first | with_reducible apply KeepsOut.next | with_reducible apply KeepsOut.ite | with_reducible exact h | (with_reducible apply State.pcieUp_keeps)

theorem execMbxWordWrite_keeps (a1 : Master) (a2 : Nat) (a3 : Nat) (a4 : Word) (s : State) : KeepsOut (True, s) (execMbxWordWrite a1 a2 a3 a4 s) := by
  have h : Keeps (True, s) s := Keeps.refl _ _
  unfold execMbxWordWrite
  repeat' first | with_reducible apply KeepsOut.next | with_reducible apply KeepsOut.ite | with_reducible exact h | (with_reducible apply State.access_keeps)

theorem execMbxPost_keeps (a1 : Master) (a2 : Nat) (a3 : Word) (s : State) : KeepsOut (True, s) (execMbxPost a1 a2 a3 s) := by
  have h : Keeps (True, s) s := Keeps.refl _ _
  unfold execMbxPost
  repeat' first | with_reducible apply KeepsOut.next | with_reducible apply KeepsOut.ite | with_reducible exact h | (with_reducible apply State.access_keeps)

theorem execFabricClaimTimeout_keeps (a1 : Nat) (s : State) : KeepsOut (True, s) (execFabricClaimTimeout a1 s) := by
  have h : Keeps (True, s) s := Keeps.refl _ _
  unfold execFabricClaimTimeout
  repeat' first | with_reducible apply KeepsOut.next | with_reducible exact h | (with_reducible apply State.setClaim_keeps) | (with_reducible apply State.reach_keeps) | split

theorem execMbxAckcodeWrite_keeps (a1 : Master) (a2 : Nat) (a3 : Word) (s : State) : KeepsOut (True, s) (execMbxAckcodeWrite a1 a2 a3 s) := by
  have h : Keeps (True, s) s := Keeps.refl _ _
  unfold execMbxAckcodeWrite
  repeat' first | with_reducible apply KeepsOut.next | with_reducible apply KeepsOut.ite | with_reducible exact h | (with_reducible apply State.access_keeps)

theorem execMbxAckClear_keeps (a1 : Master) (a2 : Word) (s : State) : KeepsOut (True, s) (execMbxAckClear a1 a2 s) := by
  have h : Keeps (True, s) s := Keeps.refl _ _
  unfold execMbxAckClear
  repeat' first | with_reducible apply KeepsOut.next | with_reducible exact h | (with_reducible apply State.access_keeps)

theorem execLockstepDisagreement_keeps (a1 : Nat) (a2 : Bool) (s : State) : KeepsOut (True, s) (execLockstepDisagreement a1 a2 s) := by
  have h : Keeps (True, s) s := Keeps.refl _ _
  unfold execLockstepDisagreement
  repeat' first | with_reducible apply KeepsOut.next | with_reducible apply KeepsOut.ite | with_reducible exact h | (extract_lets +onlyGivenNames sx; clear_value (hsx : sx = _); subst hsx) | simp only [Keeps.any] | refine Keeps.core ?_ rfl rfl rfl rfl (fun _ => rfl) rfl

theorem execLockstepPairResume_keeps (a1 : Nat) (s : State) : KeepsOut (True, s) (execLockstepPairResume a1 s) := by
  have h : Keeps (True, s) s := Keeps.refl _ _
  unfold execLockstepPairResume
  repeat' first | with_reducible apply KeepsOut.next | with_reducible apply KeepsOut.ite | with_reducible exact h | (extract_lets +onlyGivenNames sx; clear_value (hsx : sx = _); subst hsx) | (with_reducible apply State.report_keeps) | (with_reducible apply State.pairResumes_keeps) | simp only [Keeps.any] | refine Keeps.core ?_ rfl rfl rfl rfl (fun _ => rfl) rfl

theorem execSessionIdleTimeout_keeps  (s : State) : KeepsOut (True, s) (execSessionIdleTimeout s) := by
  have h : Keeps (True, s) s := Keeps.refl _ _
  unfold execSessionIdleTimeout
  repeat' first | with_reducible apply KeepsOut.next | with_reducible refine State.duty_kept h ?_ | with_reducible exact h | (with_reducible apply State.report_keeps) | (with_reducible apply State.closeSession_keeps) | (with_reducible apply State.reach_keeps) | split

theorem execDevStampLoRead_keeps (a1 : Master) (s : State) : KeepsOut (True, s) (execDevStampLoRead a1 s) := by
  have h : Keeps (True, s) s := Keeps.refl _ _
  unfold execDevStampLoRead
  repeat' first | with_reducible apply KeepsOut.next | with_reducible exact h | (with_reducible apply State.readBy_keeps)

theorem execRegisterWrite_keeps (a1 : Master) (a2 : Nat) (a3 : Nat) (a4 : Word) (s : State) : KeepsOut (True, s) (execRegisterWrite a1 a2 a3 a4 s) := by
  have h : Keeps (True, s) s := Keeps.refl _ _
  unfold execRegisterWrite
  repeat' first | with_reducible apply KeepsOut.next | with_reducible apply KeepsOut.ite | with_reducible exact h | (with_reducible apply State.access_keeps) | (with_reducible apply State.answered_keeps) | (with_reducible apply State.busErr_keeps)

theorem execSysStatus_keeps (a1 : Nat) (s : State) : KeepsOut (True, s) (execSysStatus a1 s) := by
  have h : Keeps (True, s) s := Keeps.refl _ _
  unfold execSysStatus
  repeat' first | with_reducible apply KeepsOut.next | with_reducible exact h | (intro _) | (with_reducible apply runCommand_keeps) | (with_reducible apply Ans.ok_keeps)

theorem execSysEcho_keeps (a1 : Nat) (s : State) : KeepsOut (True, s) (execSysEcho a1 s) := by
  have h : Keeps (True, s) s := Keeps.refl _ _
  unfold execSysEcho
  repeat' first | with_reducible apply KeepsOut.next | with_reducible exact h | (intro _) | (with_reducible apply runCommand_keeps) | (with_reducible apply Ans.ok_keeps)

theorem execSysState_keeps (a1 : Nat) (s : State) : KeepsOut (True, s) (execSysState a1 s) := by
  have h : Keeps (True, s) s := Keeps.refl _ _
  unfold execSysState
  repeat' first | with_reducible apply KeepsOut.next | with_reducible exact h | (intro _) | (extract_lets +onlyGivenNames sx; clear_value (hsx : sx = _); subst hsx) | (with_reducible apply State.stateReached_keeps) | (with_reducible apply runCommand_keeps) | (with_reducible apply Ans.code_keeps) | (with_reducible apply State.enterQuiet_keeps) | (with_reducible apply State.fitRails_keeps) | (with_reducible apply State.lanesMove_keeps) | (with_reducible apply State.enter_keeps) | (with_reducible apply State.dormantEntry_keeps) | with_reducible apply Keeps.ite_ast | with_reducible apply Ans.st_acc | split

theorem execSysReset_keeps (a1 : Nat) (s : State) : KeepsOut (True, s) (execSysReset a1 s) := by
  have h : Keeps (True, s) s := Keeps.refl _ _
  unfold execSysReset
  repeat' first | with_reducible apply KeepsOut.next | with_reducible exact h | (intro _) | (extract_lets +onlyGivenNames sx; clear_value (hsx : sx = _); subst hsx) | (with_reducible apply runCommand_keeps) | (with_reducible apply Ans.ok_keeps) | simp only [Keeps.any] | refine Keeps.core ?_ rfl rfl rfl rfl (fun _ => rfl) rfl

theorem execSysResetDelayExpiry_keeps  (s : State) : KeepsOut (True, s) (execSysResetDelayExpiry s) := by
  have h : Keeps (True, s) s := Keeps.refl _ _
  unfold execSysResetDelayExpiry
  repeat' first | with_reducible apply KeepsOut.next | with_reducible exact h | (with_reducible apply State.enterBoot_keeps) | (with_reducible apply State.reach_keeps) | split

theorem execSysCauseClear_keeps (a1 : Nat) (s : State) : KeepsOut (True, s) (execSysCauseClear a1 s) := by
  have h : Keeps (True, s) s := Keeps.refl _ _
  unfold execSysCauseClear
  repeat' first | with_reducible apply KeepsOut.next | with_reducible exact h | (intro _) | (extract_lets +onlyGivenNames sx; clear_value (hsx : sx = _); subst hsx) | (with_reducible apply runCommand_keeps) | (with_reducible apply State.wr_keeps) | (with_reducible apply Ans.ok_keeps) | with_reducible apply Keeps.ite

theorem execSysExpertOpen_keeps (a1 : Nat) (s : State) : KeepsOut (True, s) (execSysExpertOpen a1 s) := by
  have h : Keeps (True, s) s := Keeps.refl _ _
  unfold execSysExpertOpen
  repeat' first | with_reducible apply KeepsOut.next | with_reducible exact h | (intro _) | (extract_lets +onlyGivenNames sx; clear_value (hsx : sx = _); subst hsx) | (with_reducible apply runCommand_keeps) | (with_reducible apply Ans.code_keeps) | (with_reducible apply State.sessionId_keeps) | (with_reducible apply Ans.ok_keeps) | with_reducible apply Keeps.ite_ast | simp only [Keeps.any] | refine Keeps.core ?_ rfl rfl rfl rfl (fun _ => rfl) rfl

theorem execSysExpertClose_keeps (a1 : Nat) (s : State) : KeepsOut (True, s) (execSysExpertClose a1 s) := by
  have h : Keeps (True, s) s := Keeps.refl _ _
  unfold execSysExpertClose
  repeat' first | with_reducible apply KeepsOut.next | with_reducible exact h | (intro _) | (with_reducible apply runCommand_keeps) | (with_reducible apply Ans.ok_keeps) | (with_reducible apply State.closeSession_keeps)

theorem execSysFwUpdate_keeps (a1 : Nat) (s : State) : KeepsOut (True, s) (execSysFwUpdate a1 s) := by
  have h : Keeps (True, s) s := Keeps.refl _ _
  unfold execSysFwUpdate
  repeat' first | with_reducible apply KeepsOut.next | with_reducible exact h | (intro _) | (extract_lets +onlyGivenNames sx; clear_value (hsx : sx = _); subst hsx) | (with_reducible apply runCommand_keeps) | (with_reducible apply Ans.code_keeps) | with_reducible apply Keeps.ite_ast | simp only [Keeps.any] | refine Keeps.core ?_ rfl rfl rfl rfl (fun _ => rfl) rfl | with_reducible apply Ans.st_acc

theorem execFwUpdateComplete_keeps (a1 : FwSeen) (s : State) : KeepsOut (True, s) (execFwUpdateComplete a1 s) := by
  have h : Keeps (True, s) s := Keeps.refl _ _
  unfold execFwUpdateComplete
  repeat' first | with_reducible apply KeepsOut.next | with_reducible apply KeepsOut.ite | with_reducible exact h | (extract_lets +onlyGivenNames sx; clear_value (hsx : sx = _); subst hsx) | (with_reducible apply State.complete_keeps) | (with_reducible apply State.stageImage_keeps) | (with_reducible apply State.flashWrite_keeps) | with_reducible apply Keeps.ite | simp only [Keeps.any] | refine Keeps.core ?_ rfl rfl rfl rfl (fun _ => rfl) rfl | split

theorem execSysRegRead_keeps (a1 : Nat) (s : State) : KeepsOut (True, s) (execSysRegRead a1 s) := by
  have h : Keeps (True, s) s := Keeps.refl _ _
  unfold execSysRegRead
  repeat' first | with_reducible apply KeepsOut.next | with_reducible exact h | (intro _) | (with_reducible apply runCommand_keeps) | (with_reducible refine Keeps.of_some2 (by assumption) (State.readAll_keeps ?_ _)) | (with_reducible apply State.holdRequest_keeps) | (with_reducible apply Ans.ok_keeps) | (with_reducible apply Ans.code_keeps) | with_reducible apply Ans.st_later | split

theorem execSysRegWrite_keeps (a1 : Nat) (s : State) : KeepsOut (True, s) (execSysRegWrite a1 s) := by
  have h : Keeps (True, s) s := Keeps.refl _ _
  unfold execSysRegWrite
  repeat' first | with_reducible apply KeepsOut.next | with_reducible exact h | (intro _) | (with_reducible apply runCommand_keeps) | (with_reducible refine Keeps.of_some (by assumption) (State.writeAll_keeps ?_ _)) | (with_reducible apply Ans.code_keeps) | (with_reducible apply State.holdRequest_keeps) | with_reducible apply Keeps.ite_ast | with_reducible apply Ans.st_later | split

theorem execSurveyLoad_keeps (a1 : Nat) (s : State) : KeepsOut (True, s) (execSurveyLoad a1 s) := by
  have h : Keeps (True, s) s := Keeps.refl _ _
  unfold execSurveyLoad
  repeat' first | with_reducible apply KeepsOut.next | with_reducible exact h | (intro _) | (extract_lets +onlyGivenNames sx; clear_value (hsx : sx = _); subst hsx) | (with_reducible apply runCommand_keeps) | (with_reducible apply State.staging_keeps) | (with_reducible apply Ans.ok_keeps) | simp only [Keeps.any] | refine Keeps.core ?_ rfl rfl rfl rfl (fun _ => rfl) rfl

theorem execSurveyCommit_keeps (a1 : Nat) (s : State) : KeepsOut (True, s) (execSurveyCommit a1 s) := by
  have h : Keeps (True, s) s := Keeps.refl _ _
  unfold execSurveyCommit
  repeat' first | with_reducible apply KeepsOut.next | with_reducible exact h | (intro _) | (extract_lets +onlyGivenNames sx; clear_value (hsx : sx = _); subst hsx) | (with_reducible apply runCommand_keeps) | (with_reducible apply Ans.code_keeps) | (with_reducible apply State.staging_keeps) | with_reducible apply Keeps.ite_ast | simp only [Keeps.any] | refine Keeps.core ?_ rfl rfl rfl rfl (fun _ => rfl) rfl | with_reducible apply Ans.st_acc

theorem execSurveyCommitComplete_keeps (a1 : CommitSeen) (s : State) : KeepsOut (True, s) (execSurveyCommitComplete a1 s) := by
  have h : Keeps (True, s) s := Keeps.refl _ _
  unfold execSurveyCommitComplete
  repeat' first | with_reducible apply KeepsOut.next | with_reducible refine State.duty_kept h ?_ | with_reducible exact h | (extract_lets +onlyGivenNames sx; clear_value (hsx : sx = _); subst hsx) | (with_reducible apply State.complete_keeps) | (with_reducible apply State.mismatch_keeps) | (with_reducible apply State.castonAtCommit_keeps) | (with_reducible apply State.surveyInForce_keeps) | (with_reducible apply State.strapCheck_keeps) | simp only [Keeps.any] | refine Keeps.core ?_ rfl rfl rfl rfl (fun _ => rfl) rfl | split

theorem execSurveyAbort_keeps (a1 : Nat) (s : State) : KeepsOut (True, s) (execSurveyAbort a1 s) := by
  have h : Keeps (True, s) s := Keeps.refl _ _
  unfold execSurveyAbort
  repeat' first | with_reducible apply KeepsOut.next | with_reducible exact h | (intro _) | (extract_lets +onlyGivenNames sx; clear_value (hsx : sx = _); subst hsx) | (with_reducible apply runCommand_keeps) | (with_reducible apply State.staging_keeps) | (with_reducible apply Ans.ok_keeps) | simp only [Keeps.any] | refine Keeps.core ?_ rfl rfl rfl rfl (fun _ => rfl) rfl

theorem execSurveyStatus_keeps (a1 : Nat) (s : State) : KeepsOut (True, s) (execSurveyStatus a1 s) := by
  have h : Keeps (True, s) s := Keeps.refl _ _
  unfold execSurveyStatus
  repeat' first | with_reducible apply KeepsOut.next | with_reducible exact h | (intro _) | (extract_lets +onlyGivenNames sx; clear_value (hsx : sx = _); subst hsx) | (with_reducible apply runCommand_keeps) | (with_reducible apply Ans.ok_keeps)

theorem execSurveyRead_keeps (a1 : Nat) (s : State) : KeepsOut (True, s) (execSurveyRead a1 s) := by
  have h : Keeps (True, s) s := Keeps.refl _ _
  unfold execSurveyRead
  repeat' first | with_reducible apply KeepsOut.next | with_reducible exact h | (intro _) | (with_reducible apply runCommand_keeps) | (with_reducible apply Ans.ok_keeps)

theorem execSurveyMismatch_keeps (a1 : Nat) (s : State) : KeepsOut (True, s) (execSurveyMismatch a1 s) := by
  have h : Keeps (True, s) s := Keeps.refl _ _
  unfold execSurveyMismatch
  repeat' first | with_reducible apply KeepsOut.next | with_reducible exact h | (intro _) | (extract_lets +onlyGivenNames sx; clear_value (hsx : sx = _); subst hsx) | (with_reducible apply runCommand_keeps) | (with_reducible apply Ans.ok_keeps)

theorem execLaneUp_keeps (a1 : LaneUpSeen) (s : State) : KeepsOut (True, s) (execLaneUp a1 s) := by
  have h : Keeps (True, s) s := Keeps.refl _ _
  unfold execLaneUp
  repeat' first | with_reducible apply KeepsOut.next | with_reducible apply KeepsOut.ite | with_reducible exact h | with_reducible assumption | (intro _) | (extract_lets +onlyGivenNames sx; clear_value (hsx : sx = _); subst hsx) | (with_reducible apply State.laneDetect_keeps) | (with_reducible apply State.laneUpNow_keeps) | (with_reducible apply State.trainedFfe_keeps) | (with_reducible apply State.put_keeps) | (with_reducible apply State.lanesDone_keeps) | with_reducible apply Keeps.ite | with_reducible refine Keeps.foldl _ ?_ ?_ | simp only [Keeps.any] | split

theorem execLaneTrainingAttemptTimeout_keeps (a1 : Nat) (a2 : Option Nat) (s : State) : KeepsOut (True, s) (execLaneTrainingAttemptTimeout a1 a2 s) := by
  have h : Keeps (True, s) s := Keeps.refl _ _
  unfold execLaneTrainingAttemptTimeout
  repeat' first | with_reducible apply KeepsOut.next | with_reducible apply KeepsOut.ite | with_reducible exact h | with_reducible assumption | (intro _) | (with_reducible apply State.mismatch_keeps) | (with_reducible apply State.lanesBusy_keeps) | (with_reducible apply State.linkDown_keeps) | (with_reducible apply State.laneTrain_keeps) | (with_reducible apply State.gazInc_keeps) | (with_reducible apply State.bump_keeps) | (with_reducible apply State.put_keeps) | (with_reducible apply State.yarnUntrained_keeps) | with_reducible refine Keeps.foldl _ ?_ ?_ | split

theorem execLaneRetryTimer_keeps (a1 : Nat) (s : State) : KeepsOut (True, s) (execLaneRetryTimer a1 s) := by
  have h : Keeps (True, s) s := Keeps.refl _ _
  unfold execLaneRetryTimer
  repeat' first | with_reducible apply KeepsOut.next | with_reducible exact h | (with_reducible apply State.linkStart_keeps) | with_reducible apply Keeps.ite

theorem execLaneLos_keeps (a1 : Nat) (s : State) : KeepsOut (True, s) (execLaneLos a1 s) := by
  have h : Keeps (True, s) s := Keeps.refl _ _
  unfold execLaneLos
  repeat' first | with_reducible apply KeepsOut.next | with_reducible apply KeepsOut.ite | with_reducible exact h | (with_reducible apply State.groupFault_keeps) | (with_reducible apply State.report_keeps) | (with_reducible apply State.bump_keeps) | (with_reducible apply State.put_keeps)

theorem execCdrUnlock_keeps (a1 : Nat) (s : State) : KeepsOut (True, s) (execCdrUnlock a1 s) := by
  have h : Keeps (True, s) s := Keeps.refl _ _
  unfold execCdrUnlock
  repeat' first | with_reducible apply KeepsOut.next | with_reducible apply KeepsOut.ite | with_reducible exact h | (with_reducible apply State.groupFault_keeps) | (with_reducible apply State.report_keeps) | (with_reducible apply State.bump_keeps) | (with_reducible apply State.put_keeps)

theorem execPllUnlock_keeps (a1 : Nat) (a2 : Bool) (s : State) : KeepsOut (True, s) (execPllUnlock a1 a2 s) := by
  have h : Keeps (True, s) s := Keeps.refl _ _
  unfold execPllUnlock
  repeat' first | with_reducible apply KeepsOut.next | with_reducible apply KeepsOut.ite | with_reducible exact h | (with_reducible apply State.pllLost_keeps) | (with_reducible apply State.put_keeps) | with_reducible apply Keeps.ite

theorem execRefClockOutOfRange_keeps (a1 : Nat) (s : State) : KeepsOut (True, s) (execRefClockOutOfRange a1 s) := by
  have h : Keeps (True, s) s := Keeps.refl _ _
  unfold execRefClockOutOfRange
  repeat' first | with_reducible apply KeepsOut.next | with_reducible exact h | with_reducible assumption | (intro _) | (with_reducible apply State.put_keeps) | (with_reducible apply State.pllLost_keeps) | with_reducible refine Keeps.foldl _ ?_ ?_

theorem execAdaptationStep_keeps (a1 : Nat) (a2 : AdaptStep) (s : State) : KeepsOut (True, s) (execAdaptationStep a1 a2 s) := by
  have h : Keeps (True, s) s := Keeps.refl _ _
  unfold execAdaptationStep
  repeat' first | with_reducible apply KeepsOut.next | with_reducible apply KeepsOut.ite | with_reducible exact h | with_reducible assumption | (intro _) | (with_reducible apply State.wr_keeps) | (with_reducible apply State.yarnAdapt_keeps) | (with_reducible apply State.put_keeps) | (with_reducible apply State.setDfeTap_keeps) | with_reducible apply Keeps.ite | with_reducible refine Keeps.foldl _ ?_ ?_ | split

theorem execAdaptLimit_keeps (a1 : Nat) (s : State) : KeepsOut (True, s) (execAdaptLimit a1 s) := by
  have h : Keeps (True, s) s := Keeps.refl _ _
  unfold execAdaptLimit
  repeat' first | with_reducible apply KeepsOut.next | with_reducible apply KeepsOut.ite | with_reducible exact h | (with_reducible apply State.report_keeps)

theorem execLowPowerEntryComplete_keeps (a1 : Nat) (s : State) : KeepsOut (True, s) (execLowPowerEntryComplete a1 s) := by
  have h : Keeps (True, s) s := Keeps.refl _ _
  unfold execLowPowerEntryComplete
  repeat' first | with_reducible apply KeepsOut.next | with_reducible exact h | (extract_lets +onlyGivenNames sx; clear_value (hsx : sx = _); subst hsx) | (with_reducible apply State.linkDown_keeps) | (with_reducible apply State.checkStop_keeps) | (with_reducible apply State.setLane_keeps) | (with_reducible apply State.bump_keeps) | (with_reducible apply State.setLaneState_keeps) | (with_reducible apply State.put_keeps) | (with_reducible apply State.lanesDone_keeps) | (with_reducible apply State.laneMove_keeps) | with_reducible apply Keeps.ite | simp only [Keeps.any] | split

theorem execLowPowerExitComplete_keeps (a1 : Nat) (s : State) : KeepsOut (True, s) (execLowPowerExitComplete a1 s) := by
  have h : Keeps (True, s) s := Keeps.refl _ _
  unfold execLowPowerExitComplete
  repeat' first | with_reducible apply KeepsOut.next | with_reducible apply KeepsOut.ite | with_reducible exact h | (extract_lets +onlyGivenNames sx; clear_value (hsx : sx = _); subst hsx) | (with_reducible apply State.setLane_keeps) | (with_reducible apply State.put_keeps) | (with_reducible apply State.setLaneState_keeps) | (with_reducible apply State.linkStart_keeps) | (with_reducible apply State.laneUpNow_keeps) | (with_reducible apply State.laneTrain_keeps) | (with_reducible apply State.bindsDone_keeps) | (with_reducible apply State.lanesDone_keeps) | (with_reducible apply State.laneMove_keeps) | with_reducible apply Keeps.ite | split

theorem execCheckerLockLoss_keeps (a1 : Nat) (a2 : Nat) (s : State) : KeepsOut (True, s) (execCheckerLockLoss a1 a2 s) := by
  have h : Keeps (True, s) s := Keeps.refl _ _
  unfold execCheckerLockLoss
  repeat' first | with_reducible apply KeepsOut.next | with_reducible apply KeepsOut.ite | with_reducible exact h | (with_reducible apply State.bump_keeps) | (with_reducible apply State.checkStop_keeps) | with_reducible apply Keeps.ite

theorem execCmac_keeps (a1 : Nat) (a2 : Nat) (s : State) : KeepsOut (True, s) (execCmac a1 a2 s) := by
  have h : Keeps (True, s) s := Keeps.refl _ _
  unfold execCmac
  repeat' first | with_reducible apply KeepsOut.next | with_reducible exact h | (with_reducible apply State.issueEff_keeps)

theorem execCmul_keeps (a1 : Nat) (a2 : Nat) (s : State) : KeepsOut (True, s) (execCmul a1 a2 s) := by
  have h : Keeps (True, s) s := Keeps.refl _ _
  unfold execCmul
  repeat' first | with_reducible apply KeepsOut.next | with_reducible exact h | (with_reducible apply State.issueEff_keeps)

theorem execRmac_keeps (a1 : Nat) (a2 : Nat) (s : State) : KeepsOut (True, s) (execRmac a1 a2 s) := by
  have h : Keeps (True, s) s := Keeps.refl _ _
  unfold execRmac
  repeat' first | with_reducible apply KeepsOut.next | with_reducible exact h | (with_reducible apply State.issueEff_keeps)

theorem execQmac_keeps (a1 : Nat) (a2 : Nat) (s : State) : KeepsOut (True, s) (execQmac a1 a2 s) := by
  have h : Keeps (True, s) s := Keeps.refl _ _
  unfold execQmac
  repeat' first | with_reducible apply KeepsOut.next | with_reducible exact h | (with_reducible apply State.issueEff_keeps)

theorem execAccrd_keeps (a1 : Nat) (a2 : Nat) (s : State) : KeepsOut (True, s) (execAccrd a1 a2 s) := by
  have h : Keeps (True, s) s := Keeps.refl _ _
  unfold execAccrd
  repeat' first | with_reducible apply KeepsOut.next | with_reducible exact h | (with_reducible apply State.issueEff_keeps)

theorem execBfly2_keeps (a1 : Nat) (a2 : Nat) (s : State) : KeepsOut (True, s) (execBfly2 a1 a2 s) := by
  have h : Keeps (True, s) s := Keeps.refl _ _
  unfold execBfly2
  repeat' first | with_reducible apply KeepsOut.next | with_reducible exact h | (with_reducible apply State.issueEff_keeps)

theorem execBfly4_keeps (a1 : Nat) (a2 : Nat) (s : State) : KeepsOut (True, s) (execBfly4 a1 a2 s) := by
  have h : Keeps (True, s) s := Keeps.refl _ _
  unfold execBfly4
  repeat' first | with_reducible apply KeepsOut.next | with_reducible exact h | (with_reducible apply State.issueEff_keeps)

theorem execAdd_keeps (a1 : Nat) (a2 : Nat) (s : State) : KeepsOut (True, s) (execAdd a1 a2 s) := by
  have h : Keeps (True, s) s := Keeps.refl _ _
  unfold execAdd
  repeat' first | with_reducible apply KeepsOut.next | with_reducible exact h | (with_reducible apply State.issueEff_keeps)

theorem execSub_keeps (a1 : Nat) (a2 : Nat) (s : State) : KeepsOut (True, s) (execSub a1 a2 s) := by
  have h : Keeps (True, s) s := Keeps.refl _ _
  unfold execSub
  repeat' first | with_reducible apply KeepsOut.next | with_reducible exact h | (with_reducible apply State.issueEff_keeps)

theorem execSrs_keeps (a1 : Nat) (a2 : Nat) (s : State) : KeepsOut (True, s) (execSrs a1 a2 s) := by
  have h : Keeps (True, s) s := Keeps.refl _ _
  unfold execSrs
  repeat' first | with_reducible apply KeepsOut.next | with_reducible exact h | (with_reducible apply State.issueEff_keeps)

theorem execSls_keeps (a1 : Nat) (a2 : Nat) (s : State) : KeepsOut (True, s) (execSls a1 a2 s) := by
  have h : Keeps (True, s) s := Keeps.refl _ _
  unfold execSls
  repeat' first | with_reducible apply KeepsOut.next | with_reducible exact h | (with_reducible apply State.issueEff_keeps)

theorem execCmp_keeps (a1 : Nat) (a2 : Nat) (s : State) : KeepsOut (True, s) (execCmp a1 a2 s) := by
  have h : Keeps (True, s) s := Keeps.refl _ _
  unfold execCmp
  repeat' first | with_reducible apply KeepsOut.next | with_reducible exact h | (with_reducible apply State.issueEff_keeps)

theorem execSel_keeps (a1 : Nat) (a2 : Nat) (s : State) : KeepsOut (True, s) (execSel a1 a2 s) := by
  have h : Keeps (True, s) s := Keeps.refl _ _
  unfold execSel
  repeat' first | with_reducible apply KeepsOut.next | with_reducible exact h | (with_reducible apply State.issueEff_keeps)

theorem execConj_keeps (a1 : Nat) (a2 : Nat) (s : State) : KeepsOut (True, s) (execConj a1 a2 s) := by
  have h : Keeps (True, s) s := Keeps.refl _ _
  unfold execConj
  repeat' first | with_reducible apply KeepsOut.next | with_reducible exact h | (with_reducible apply State.issueEff_keeps)

theorem execNorm_keeps (a1 : Nat) (a2 : Nat) (s : State) : KeepsOut (True, s) (execNorm a1 a2 s) := by
  have h : Keeps (True, s) s := Keeps.refl _ _
  unfold execNorm
  repeat' first | with_reducible apply KeepsOut.next | with_reducible exact h | (with_reducible apply State.issueEff_keeps)

theorem execLut16_keeps (a1 : Nat) (a2 : LutTurn) (s : State) : KeepsOut (True, s) (execLut16 a1 a2 s) := by
  have h : Keeps (True, s) s := Keeps.refl _ _
  unfold execLut16
  repeat' first | with_reducible apply KeepsOut.next | with_reducible exact h | with_reducible assumption | (intro _) | (with_reducible apply State.issue_keeps) | (with_reducible apply State.draw_keeps) | (with_reducible apply State.tmemEcc_keeps) | (with_reducible apply State.applyEff_keeps) | with_reducible apply Keeps.ite2

theorem execLd_keeps (a1 : Nat) (a2 : Nat) (a3 : Nat) (s : State) : KeepsOut (True, s) (execLd a1 a2 a3 s) := by
  have h : Keeps (True, s) s := Keeps.refl _ _
  unfold execLd
  repeat' first | with_reducible apply KeepsOut.next | with_reducible exact h | with_reducible assumption | (intro _) | (with_reducible apply State.issue_keeps) | (with_reducible apply State.draw_keeps) | (with_reducible apply State.tmemEcc_keeps) | (with_reducible apply State.applyEff_keeps) | with_reducible apply Keeps.ite2

theorem execSt_keeps (a1 : Nat) (a2 : Nat) (s : State) : KeepsOut (True, s) (execSt a1 a2 s) := by
  have h : Keeps (True, s) s := Keeps.refl _ _
  unfold execSt
  repeat' first | with_reducible apply KeepsOut.next | with_reducible exact h | (with_reducible apply State.issueEff_keeps)

theorem execSin_keeps (a1 : Nat) (a2 : Nat) (s : State) : KeepsOut (True, s) (execSin a1 a2 s) := by
  have h : Keeps (True, s) s := Keeps.refl _ _
  unfold execSin
  repeat' first | with_reducible apply KeepsOut.next | with_reducible exact h | with_reducible assumption | (intro _) | (extract_lets +onlyGivenNames sx; clear_value (hsx : sx = _); subst hsx) | (with_reducible apply State.issue_keeps) | (with_reducible apply State.walCount_keeps) | (with_reducible apply State.report_keeps) | (with_reducible apply State.applyEff_keeps) | (with_reducible apply State.takeIn_keeps) | with_reducible apply Keeps.ite | split

theorem execSout_keeps (a1 : Nat) (a2 : Nat) (s : State) : KeepsOut (True, s) (execSout a1 a2 s) := by
  have h : Keeps (True, s) s := Keeps.refl _ _
  unfold execSout
  repeat' first | with_reducible apply KeepsOut.next | with_reducible exact h | with_reducible assumption | (intro _) | (extract_lets +onlyGivenNames sx; clear_value (hsx : sx = _); subst hsx) | (with_reducible apply State.issue_keeps) | (with_reducible apply State.applyEff_keeps) | (with_reducible apply State.walCount_keeps) | (with_reducible apply State.setOut_keeps) | (with_reducible apply State.portMoves_keeps) | (with_reducible apply State.linkSend_keeps) | (with_reducible apply State.queueOut_keeps) | with_reducible apply Keeps.ite | simp only [Keeps.any] | split

theorem execMovi_keeps (a1 : Nat) (a2 : Nat) (s : State) : KeepsOut (True, s) (execMovi a1 a2 s) := by
  have h : Keeps (True, s) s := Keeps.refl _ _
  unfold execMovi
  repeat' first | with_reducible apply KeepsOut.next | with_reducible exact h | (with_reducible apply State.issueEff_keeps)

theorem execTwr_keeps (a1 : Nat) (a2 : Nat) (s : State) : KeepsOut (True, s) (execTwr a1 a2 s) := by
  have h : Keeps (True, s) s := Keeps.refl _ _
  unfold execTwr
  repeat' first | with_reducible apply KeepsOut.next | with_reducible exact h | (with_reducible apply State.issueEff_keeps)

theorem execFadd_keeps (a1 : Nat) (a2 : Nat) (s : State) : KeepsOut (True, s) (execFadd a1 a2 s) := by
  have h : Keeps (True, s) s := Keeps.refl _ _
  unfold execFadd
  repeat' first | with_reducible apply KeepsOut.next | with_reducible exact h | (with_reducible apply State.issueEff_keeps)

theorem execFsub_keeps (a1 : Nat) (a2 : Nat) (s : State) : KeepsOut (True, s) (execFsub a1 a2 s) := by
  have h : Keeps (True, s) s := Keeps.refl _ _
  unfold execFsub
  repeat' first | with_reducible apply KeepsOut.next | with_reducible exact h | (with_reducible apply State.issueEff_keeps)

theorem execFmul_keeps (a1 : Nat) (a2 : Nat) (s : State) : KeepsOut (True, s) (execFmul a1 a2 s) := by
  have h : Keeps (True, s) s := Keeps.refl _ _
  unfold execFmul
  repeat' first | with_reducible apply KeepsOut.next | with_reducible exact h | (with_reducible apply State.issueEff_keeps)

theorem execFrsq_keeps (a1 : Nat) (a2 : Nat) (s : State) : KeepsOut (True, s) (execFrsq a1 a2 s) := by
  have h : Keeps (True, s) s := Keeps.refl _ _
  unfold execFrsq
  repeat' first | with_reducible apply KeepsOut.next | with_reducible exact h | (with_reducible apply State.issueEff_keeps)

theorem execFcvt_keeps (a1 : Nat) (a2 : Nat) (s : State) : KeepsOut (True, s) (execFcvt a1 a2 s) := by
  have h : Keeps (True, s) s := Keeps.refl _ _
  unfold execFcvt
  repeat' first | with_reducible apply KeepsOut.next | with_reducible exact h | (with_reducible apply State.issueEff_keeps)

theorem execOutsideAccessWaitExpiry_keeps (a1 : Nat) (a2 : Nat) (a3 : List Byte) (a4 : Nat) (s : State) : KeepsOut (True, s) (execOutsideAccessWaitExpiry a1 a2 a3 a4 s) := by
  have h : Keeps (True, s) s := Keeps.refl _ _
  unfold execOutsideAccessWaitExpiry
  repeat' first | with_reducible apply KeepsOut.next | with_reducible apply KeepsOut.ite | with_reducible exact h | (with_reducible apply State.tmemEcc_keeps) | (with_reducible apply State.setTmems_keeps)

theorem execTokenDrainEnd_keeps (a1 : Nat) (s : State) : KeepsOut (True, s) (execTokenDrainEnd a1 s) := by
  have h : Keeps (True, s) s := Keeps.refl _ _
  unfold execTokenDrainEnd
  repeat' first | with_reducible apply KeepsOut.next | with_reducible apply KeepsOut.ite | with_reducible exact h | (with_reducible apply State.tokenSwitch_keeps) | (with_reducible apply State.commitLand_keeps) | split

theorem execPatternHardSwitchEdge_keeps (a1 : Nat) (s : State) : KeepsOut (True, s) (execPatternHardSwitchEdge a1 s) := by
  have h : Keeps (True, s) s := Keeps.refl _ _
  unfold execPatternHardSwitchEdge
  repeat' first | with_reducible apply KeepsOut.next | with_reducible apply KeepsOut.ite | with_reducible exact h | (with_reducible apply State.patternEdge_keeps) | split

theorem execWordLinkElement_keeps (a1 : Nat) (a2 : Nat) (s : State) : KeepsOut (True, s) (execWordLinkElement a1 a2 s) := by
  have h : Keeps (True, s) s := Keeps.refl _ _
  unfold execWordLinkElement
  repeat' first | with_reducible apply KeepsOut.next | with_reducible apply KeepsOut.ite | with_reducible exact h | (extract_lets +onlyGivenNames sx; clear_value (hsx : sx = _); subst hsx) | (with_reducible apply State.dnSettle_keeps) | (with_reducible apply State.takeIn_keeps) | (with_reducible apply State.setOut_keeps) | (with_reducible apply State.portMoves_keeps) | (with_reducible apply State.linkSend_keeps) | simp only [Keeps.any] | split

theorem execWordLinkCredit_keeps (a1 : Nat) (a2 : Nat) (a3 : Nat) (s : State) : KeepsOut (True, s) (execWordLinkCredit a1 a2 a3 s) := by
  have h : Keeps (True, s) s := Keeps.refl _ _
  unfold execWordLinkCredit
  repeat' first | with_reducible apply KeepsOut.next | with_reducible apply KeepsOut.ite | with_reducible exact h | (extract_lets +onlyGivenNames sx; clear_value (hsx : sx = _); subst hsx) | (with_reducible apply State.setTile_keeps) | simp only [Keeps.any] | split

theorem execGateChannelElement_keeps (a1 : Nat) (a2 : Nat) (s : State) : KeepsOut (True, s) (execGateChannelElement a1 a2 s) := by
  have h : Keeps (True, s) s := Keeps.refl _ _
  unfold execGateChannelElement
  repeat' first | with_reducible apply KeepsOut.next | with_reducible apply KeepsOut.ite | with_reducible exact h | (extract_lets +onlyGivenNames sx; clear_value (hsx : sx = _); subst hsx) | (with_reducible apply State.strTake_keeps) | (with_reducible apply State.setTile_keeps) | (with_reducible apply State.strOffer_keeps) | (with_reducible apply State.setStream_keeps) | with_reducible apply Keeps.ite | simp only [Keeps.any] | with_reducible refine Keeps.of_snd (by assumption) ?_ | split

theorem execShiftCopyEnd_keeps (a1 : Nat) (s : State) : KeepsOut (True, s) (execShiftCopyEnd a1 s) := by
  have h : Keeps (True, s) s := Keeps.refl _ _
  unfold execShiftCopyEnd
  repeat' first | with_reducible apply KeepsOut.next | with_reducible apply KeepsOut.ite | with_reducible exact h | (extract_lets +onlyGivenNames sx; clear_value (hsx : sx = _); subst hsx) | (with_reducible apply State.setWale_keeps) | (with_reducible apply State.put_keeps) | (with_reducible apply State.shiftDone_keeps) | (with_reducible apply State.completeOpt_keeps) | simp only [Keeps.any] | split

theorem execWalSwitchGo_keeps (a1 : Nat) (a2 : Nat) (a3 : Nat) (s : State) : KeepsOut (True, s) (execWalSwitchGo a1 a2 a3 s) := by
  have h : Keeps (True, s) s := Keeps.refl _ _
  unfold execWalSwitchGo
  repeat' first | with_reducible apply KeepsOut.next | with_reducible apply KeepsOut.ite | with_reducible exact h | (with_reducible apply State.walSwitchWrite_keeps)

theorem execWalCtrlLock_keeps (a1 : Nat) (s : State) : KeepsOut (True, s) (execWalCtrlLock a1 s) := by
  have h : Keeps (True, s) s := Keeps.refl _ _
  unfold execWalCtrlLock
  repeat' first | with_reducible apply KeepsOut.next | with_reducible apply KeepsOut.ite | with_reducible exact h | (with_reducible apply State.put_keeps)

theorem execWalStatus_keeps (a1 : Nat) (s : State) : KeepsOut (True, s) (execWalStatus a1 s) := by
  have h : Keeps (True, s) s := Keeps.refl _ _
  unfold execWalStatus
  repeat' first | with_reducible apply KeepsOut.next | with_reducible exact h | (intro _) | (extract_lets +onlyGivenNames sx; clear_value (hsx : sx = _); subst hsx) | (with_reducible apply runCommand_keeps) | (with_reducible apply Ans.ok_keeps)

theorem execWalSwitch_keeps (a1 : Nat) (s : State) : KeepsOut (True, s) (execWalSwitch a1 s) := by
  have h : Keeps (True, s) s := Keeps.refl _ _
  unfold execWalSwitch
  repeat' first | with_reducible apply KeepsOut.next | with_reducible exact h | (intro _) | (with_reducible apply runCommand_keeps) | (with_reducible apply unlessShifting_keeps) | (with_reducible apply State.orderWale_keeps) | with_reducible apply Ans.st_wait

theorem execWalBind_keeps (a1 : Nat) (s : State) : KeepsOut (True, s) (execWalBind a1 s) := by
  have h : Keeps (True, s) s := Keeps.refl _ _
  unfold execWalBind
  repeat' first | with_reducible apply KeepsOut.next | with_reducible exact h | (intro _) | (extract_lets +onlyGivenNames sx; clear_value (hsx : sx = _); subst hsx) | (with_reducible apply runCommand_keeps) | (with_reducible apply unlessShifting_keeps) | (with_reducible apply Ans.code_keeps) | (with_reducible apply State.put_keeps) | with_reducible apply Keeps.ite_ast

theorem execWalStickyClear_keeps (a1 : Nat) (s : State) : KeepsOut (True, s) (execWalStickyClear a1 s) := by
  have h : Keeps (True, s) s := Keeps.refl _ _
  unfold execWalStickyClear
  repeat' first | with_reducible apply KeepsOut.next | with_reducible exact h | with_reducible assumption | (intro _) | (with_reducible apply runCommand_keeps) | (with_reducible apply unlessShifting_keeps) | (with_reducible apply Ans.ok_keeps) | (with_reducible apply State.clearBits_keeps) | with_reducible refine Keeps.foldl _ ?_ ?_

theorem execWalBankmap_keeps (a1 : Nat) (s : State) : KeepsOut (True, s) (execWalBankmap a1 s) := by
  have h : Keeps (True, s) s := Keeps.refl _ _
  unfold execWalBankmap
  repeat' first | with_reducible apply KeepsOut.next | with_reducible exact h | (intro _) | (extract_lets +onlyGivenNames sx; clear_value (hsx : sx = _); subst hsx) | (with_reducible apply runCommand_keeps) | (with_reducible apply unlessShifting_keeps) | (with_reducible apply Ans.code_keeps) | (with_reducible apply State.wr_keeps) | with_reducible apply Keeps.ite_ast

theorem execWalFreeze_keeps (a1 : Nat) (s : State) : KeepsOut (True, s) (execWalFreeze a1 s) := by
  have h : Keeps (True, s) s := Keeps.refl _ _
  unfold execWalFreeze
  repeat' first | with_reducible apply KeepsOut.next | with_reducible exact h | (intro _) | (with_reducible apply runCommand_keeps) | (with_reducible apply unlessShifting_keeps) | (with_reducible apply Ans.ok_keeps) | (with_reducible apply State.put_keeps)

theorem execWalShift_keeps (a1 : Nat) (s : State) : KeepsOut (True, s) (execWalShift a1 s) := by
  have h : Keeps (True, s) s := Keeps.refl _ _
  unfold execWalShift
  repeat' first | with_reducible apply KeepsOut.next | with_reducible exact h | (intro _) | (extract_lets +onlyGivenNames sx; clear_value (hsx : sx = _); subst hsx) | (with_reducible apply runCommand_keeps) | (with_reducible apply unlessShifting_keeps) | (with_reducible apply Ans.code_keeps) | (with_reducible apply State.startShift_keeps) | with_reducible apply Keeps.ite_ast | with_reducible apply Ans.st_acc

theorem execWalCounters_keeps (a1 : Nat) (s : State) : KeepsOut (True, s) (execWalCounters a1 s) := by
  have h : Keeps (True, s) s := Keeps.refl _ _
  unfold execWalCounters
  repeat' first | with_reducible apply KeepsOut.next | with_reducible exact h | (intro _) | (with_reducible apply runCommand_keeps) | (with_reducible apply unlessShifting_keeps) | (with_reducible apply State.counters_keeps) | (with_reducible apply Ans.ok_keeps)

theorem execSheetSwitchEdge_keeps (a1 : Nat) (a2 : List Nat) (a3 : List Net) (s : State) : KeepsOut (True, s) (execSheetSwitchEdge a1 a2 a3 s) := by
  have h : Keeps (True, s) s := Keeps.refl _ _
  unfold execSheetSwitchEdge
  repeat' first | with_reducible apply KeepsOut.next | with_reducible apply KeepsOut.ite | with_reducible exact h | (with_reducible apply State.switchEdge_keeps) | (with_reducible apply State.setHigh_keeps) | split

theorem execGroupSwitch_keeps  (s : State) : KeepsOut (True, s) (execGroupSwitch s) := by
  have h : Keeps (True, s) s := Keeps.refl _ _
  unfold execGroupSwitch
  repeat' first | with_reducible apply KeepsOut.next | with_reducible exact h | with_reducible assumption | (intro _) | (with_reducible apply State.setOpenArgs_keeps) | (with_reducible apply State.reach_keeps) | (with_reducible apply State.orderSheet_keeps) | (with_reducible apply State.orderWale_keeps) | with_reducible refine Keeps.foldl _ ?_ ?_ | simp only [Keeps.any] | split

theorem execResetNetRelease_keeps (a1 : Nat) (a2 : Nat) (s : State) : KeepsOut (True, s) (execResetNetRelease a1 a2 s) := by
  have h : Keeps (True, s) s := Keeps.refl _ _
  unfold execResetNetRelease
  repeat' first | with_reducible apply KeepsOut.next | with_reducible apply KeepsOut.ite | with_reducible exact h | (with_reducible apply State.setNet_keeps)

theorem execRiserTxElement_keeps (a1 : Nat) (a2 : Nat) (a3 : Nat) (a4 : Elem) (s : State) : KeepsOut (True, s) (execRiserTxElement a1 a2 a3 a4 s) := by
  have h : Keeps (True, s) s := Keeps.refl _ _
  unfold execRiserTxElement
  repeat' first | with_reducible apply KeepsOut.next | with_reducible apply KeepsOut.ite | with_reducible exact h | (extract_lets +onlyGivenNames sx; clear_value (hsx : sx = _); subst hsx) | (with_reducible apply State.report_keeps) | (with_reducible apply State.bump_keeps) | (with_reducible apply State.raise_keeps) | (with_reducible apply State.setTile_keeps) | simp only [Keeps.any] | refine Keeps.core ?_ rfl rfl rfl rfl (fun _ => rfl) rfl

theorem execRiserRxTake_keeps (a1 : Nat) (a2 : Nat) (a3 : Nat) (s : State) : KeepsOut (True, s) (execRiserRxTake a1 a2 a3 s) := by
  have h : Keeps (True, s) s := Keeps.refl _ _
  unfold execRiserRxTake
  repeat' first | with_reducible apply KeepsOut.next | with_reducible apply KeepsOut.ite | with_reducible exact h | (extract_lets +onlyGivenNames sx; clear_value (hsx : sx = _); subst hsx) | (with_reducible apply State.creditBack_keeps) | simp only [Keeps.any] | refine Keeps.core ?_ rfl rfl rfl rfl (fun _ => rfl) rfl | split

theorem execRiserCreditPulse_keeps (a1 : Nat) (a2 : Nat) (a3 : Nat) (s : State) : KeepsOut (True, s) (execRiserCreditPulse a1 a2 a3 s) := by
  have h : Keeps (True, s) s := Keeps.refl _ _
  unfold execRiserCreditPulse
  repeat' first | with_reducible apply KeepsOut.next | with_reducible apply KeepsOut.ite | with_reducible exact h | (extract_lets +onlyGivenNames sx; clear_value (hsx : sx = _); subst hsx) | (with_reducible apply State.setTile_keeps) | simp only [Keeps.any] | refine Keeps.core ?_ rfl rfl rfl rfl (fun _ => rfl) rfl

theorem execBramAccess_keeps (a1 : Nat) (a2 : Nat) (a3 : Option BramReq) (a4 : Option BramReq) (a5 : List Nat) (a6 : List Nat) (a7 : Bool) (s : State) : KeepsOut (True, s) (execBramAccess a1 a2 a3 a4 a5 a6 a7 s) := by
  have h : Keeps (True, s) s := Keeps.refl _ _
  unfold execBramAccess
  repeat' first | with_reducible apply KeepsOut.next | with_reducible apply KeepsOut.ite | with_reducible exact h | (extract_lets +onlyGivenNames sx; clear_value (hsx : sx = _); subst hsx) | (with_reducible apply State.bramUpset_keeps) | (with_reducible apply State.bramBoth_keeps) | (with_reducible apply State.bramTurn_keeps) | simp only [Keeps.any] | split

theorem execSheetClockRestart_keeps (a1 : Nat) (s : State) : KeepsOut (True, s) (execSheetClockRestart a1 s) := by
  have h : Keeps (True, s) s := Keeps.refl _ _
  unfold execSheetClockRestart
  repeat' first | with_reducible apply KeepsOut.next | with_reducible exact h | (with_reducible apply State.wr_keeps) | (with_reducible apply State.markLate_keeps) | (with_reducible apply State.finishRun_keeps) | (with_reducible apply State.lckAlign_keeps) | simp only [Keeps.any] | refine Keeps.core ?_ rfl rfl rfl rfl (fun _ => rfl) rfl | split

theorem execCaptureInstant_keeps (a1 : Nat) (a2 : Nat) (s : State) : KeepsOut (True, s) (execCaptureInstant a1 a2 s) := by
  have h : Keeps (True, s) s := Keeps.refl _ _
  unfold execCaptureInstant
  repeat' first | with_reducible apply KeepsOut.next | with_reducible apply KeepsOut.ite | with_reducible exact h | (with_reducible apply State.capIsland_keeps) | (with_reducible apply State.reach_keeps)

theorem execCaptureEdgeNoneTimeout_keeps (a1 : Nat) (s : State) : KeepsOut (True, s) (execCaptureEdgeNoneTimeout a1 s) := by
  have h : Keeps (True, s) s := Keeps.refl _ _
  unfold execCaptureEdgeNoneTimeout
  repeat' first | with_reducible apply KeepsOut.next | with_reducible apply KeepsOut.ite | with_reducible exact h | (with_reducible apply State.capIsland_keeps) | (with_reducible apply State.reach_keeps)

theorem execCapTrigEdge_keeps (a1 : Nat) (s : State) : KeepsOut (True, s) (execCapTrigEdge a1 s) := by
  have h : Keeps (True, s) s := Keeps.refl _ _
  unfold execCapTrigEdge
  repeat' first | with_reducible apply KeepsOut.next | with_reducible apply KeepsOut.ite | with_reducible exact h | (with_reducible apply State.setCap_keeps)

theorem execCaptureCopyComplete_keeps (a1 : Nat) (s : State) : KeepsOut (True, s) (execCaptureCopyComplete a1 s) := by
  have h : Keeps (True, s) s := Keeps.refl _ _
  unfold execCaptureCopyComplete
  repeat' first | with_reducible apply KeepsOut.next | with_reducible exact h | (with_reducible apply State.capCopied_keeps)

theorem execShtCtrlLock_keeps (a1 : Nat) (s : State) : KeepsOut (True, s) (execShtCtrlLock a1 s) := by
  have h : Keeps (True, s) s := Keeps.refl _ _
  unfold execShtCtrlLock
  repeat' first | with_reducible apply KeepsOut.next | with_reducible apply KeepsOut.ite | with_reducible exact h | (with_reducible apply State.put_keeps)

theorem execShtStampLoRead_keeps (a1 : Master) (a2 : Nat) (s : State) : KeepsOut (True, s) (execShtStampLoRead a1 a2 s) := by
  have h : Keeps (True, s) s := Keeps.refl _ _
  unfold execShtStampLoRead
  repeat' first | with_reducible apply KeepsOut.next | with_reducible apply KeepsOut.ite | with_reducible exact h | (with_reducible apply State.readBy_keeps)

theorem execShtStatus_keeps (a1 : Nat) (s : State) : KeepsOut (True, s) (execShtStatus a1 s) := by
  have h : Keeps (True, s) s := Keeps.refl _ _
  unfold execShtStatus
  repeat' first | with_reducible apply KeepsOut.next | with_reducible exact h | (intro _) | (extract_lets +onlyGivenNames sx; clear_value (hsx : sx = _); subst hsx) | (with_reducible apply runCommand_keeps) | (with_reducible apply Ans.ok_keeps)

theorem execShtStickyClear_keeps (a1 : Nat) (s : State) : KeepsOut (True, s) (execShtStickyClear a1 s) := by
  have h : Keeps (True, s) s := Keeps.refl _ _
  unfold execShtStickyClear
  repeat' first | with_reducible apply KeepsOut.next | with_reducible exact h | (intro _) | (with_reducible apply runCommand_keeps) | (with_reducible apply Ans.ok_keeps) | (with_reducible apply State.clearBits_keeps)

theorem execShtReset_keeps (a1 : Nat) (s : State) : KeepsOut (True, s) (execShtReset a1 s) := by
  have h : Keeps (True, s) s := Keeps.refl _ _
  unfold execShtReset
  repeat' first | with_reducible apply KeepsOut.next | with_reducible exact h | (intro _) | (extract_lets +onlyGivenNames sx; clear_value (hsx : sx = _); subst hsx) | (with_reducible apply runCommand_keeps) | (with_reducible apply Ans.code_keeps) | (with_reducible apply State.assertNet_keeps) | with_reducible apply Keeps.ite_ast | simp only [Keeps.any] | refine Keeps.core ?_ rfl rfl rfl rfl (fun _ => rfl) rfl | with_reducible apply Ans.st_wait

theorem execShtResetPulseEnd_keeps (a1 : Nat) (s : State) : KeepsOut (True, s) (execShtResetPulseEnd a1 s) := by
  have h : Keeps (True, s) s := Keeps.refl _ _
  unfold execShtResetPulseEnd
  repeat' first | with_reducible apply KeepsOut.next | with_reducible exact h | (with_reducible apply State.dropNet_keeps) | (with_reducible apply State.reach_keeps) | (with_reducible apply State.finishRun_keeps) | simp only [Keeps.any] | refine Keeps.core ?_ rfl rfl rfl rfl (fun _ => rfl) rfl | split

theorem execShtClock_keeps (a1 : Nat) (s : State) : KeepsOut (True, s) (execShtClock a1 s) := by
  have h : Keeps (True, s) s := Keeps.refl _ _
  unfold execShtClock
  repeat' first | with_reducible apply KeepsOut.next | with_reducible exact h | (intro _) | (extract_lets +onlyGivenNames sx; clear_value (hsx : sx = _); subst hsx) | (with_reducible apply runCommand_keeps) | (with_reducible apply Ans.code_keeps) | with_reducible apply Keeps.ite_ast | simp only [Keeps.any] | refine Keeps.core ?_ rfl rfl rfl rfl (fun _ => rfl) rfl | with_reducible apply Ans.st_wait

theorem execShtFreeze_keeps (a1 : Nat) (s : State) : KeepsOut (True, s) (execShtFreeze a1 s) := by
  have h : Keeps (True, s) s := Keeps.refl _ _
  unfold execShtFreeze
  repeat' first | with_reducible apply KeepsOut.next | with_reducible exact h | (intro _) | (with_reducible apply runCommand_keeps) | (with_reducible apply Ans.ok_keeps) | (with_reducible apply State.put_keeps)

theorem execShtCounters_keeps (a1 : Nat) (s : State) : KeepsOut (True, s) (execShtCounters a1 s) := by
  have h : Keeps (True, s) s := Keeps.refl _ _
  unfold execShtCounters
  repeat' first | with_reducible apply KeepsOut.next | with_reducible exact h | (intro _) | (with_reducible apply runCommand_keeps) | (with_reducible apply State.counters_keeps) | (with_reducible apply Ans.ok_keeps)

theorem execShtSwitch_keeps (a1 : Nat) (s : State) : KeepsOut (True, s) (execShtSwitch a1 s) := by
  have h : Keeps (True, s) s := Keeps.refl _ _
  unfold execShtSwitch
  repeat' first | with_reducible apply KeepsOut.next | with_reducible exact h | (intro _) | (with_reducible apply runCommand_keeps) | (with_reducible apply Ans.code_keeps) | (with_reducible apply State.groupWaits_keeps) | (with_reducible apply State.commitLand_keeps) | with_reducible apply Keeps.ite_ast | with_reducible apply Ans.st_acc | with_reducible apply Ans.st_ans | split

theorem execShtRisers_keeps (a1 : Nat) (s : State) : KeepsOut (True, s) (execShtRisers a1 s) := by
  have h : Keeps (True, s) s := Keeps.refl _ _
  unfold execShtRisers
  repeat' first | with_reducible apply KeepsOut.next | with_reducible exact h | (intro _) | (with_reducible apply runCommand_keeps) | (with_reducible apply Ans.ok_keeps)

theorem execCapStatus_keeps (a1 : Nat) (s : State) : KeepsOut (True, s) (execCapStatus a1 s) := by
  have h : Keeps (True, s) s := Keeps.refl _ _
  unfold execCapStatus
  repeat' first | with_reducible apply KeepsOut.next | with_reducible exact h | (intro _) | (extract_lets +onlyGivenNames sx; clear_value (hsx : sx = _); subst hsx) | (with_reducible apply runCommand_keeps) | (with_reducible apply Ans.ok_keeps)

theorem execCapTake_keeps (a1 : Nat) (s : State) : KeepsOut (True, s) (execCapTake a1 s) := by
  have h : Keeps (True, s) s := Keeps.refl _ _
  unfold execCapTake
  repeat' first | with_reducible apply KeepsOut.next | with_reducible exact h | (intro _) | (with_reducible apply runCommand_keeps) | (with_reducible apply capTake_keeps)

theorem execCapTakeX_keeps (a1 : Nat) (s : State) : KeepsOut (True, s) (execCapTakeX a1 s) := by
  have h : Keeps (True, s) s := Keeps.refl _ _
  unfold execCapTakeX
  repeat' first | with_reducible apply KeepsOut.next | with_reducible exact h | (intro _) | (with_reducible apply runCommand_keeps) | (with_reducible apply capTake_keeps)

theorem execCapRead_keeps (a1 : Nat) (s : State) : KeepsOut (True, s) (execCapRead a1 s) := by
  have h : Keeps (True, s) s := Keeps.refl _ _
  unfold execCapRead
  repeat' first | with_reducible apply KeepsOut.next | with_reducible exact h | (intro _) | (with_reducible apply runCommand_keeps) | (with_reducible apply Ans.code_keeps) | with_reducible apply Keeps.ite_ast | with_reducible apply Ans.st_acc

theorem execCapReadComplete_keeps  (s : State) : KeepsOut (True, s) (execCapReadComplete s) := by
  have h : Keeps (True, s) s := Keeps.refl _ _
  unfold execCapReadComplete
  repeat' first | with_reducible apply KeepsOut.next | with_reducible exact h | (with_reducible apply State.hostWrite_keeps) | (with_reducible apply State.complete_keeps) | simp only [Keeps.any] | split

theorem execCapRelease_keeps (a1 : Nat) (s : State) : KeepsOut (True, s) (execCapRelease a1 s) := by
  have h : Keeps (True, s) s := Keeps.refl _ _
  unfold execCapRelease
  repeat' first | with_reducible apply KeepsOut.next | with_reducible exact h | (intro _) | (extract_lets +onlyGivenNames sx; clear_value (hsx : sx = _); subst hsx) | (with_reducible apply runCommand_keeps) | (with_reducible apply Ans.code_keeps) | (with_reducible apply State.completeOpt_keeps) | (with_reducible apply State.setCap_keeps) | with_reducible apply Keeps.ite_ast | split

theorem execRiserOrientationChange_keeps (a1 : Nat) (a2 : Nat) (s : State) : KeepsOut (True, s) (execRiserOrientationChange a1 a2 s) := by
  have h : Keeps (True, s) s := Keeps.refl _ _
  unfold execRiserOrientationChange
  repeat' first | with_reducible apply KeepsOut.next | with_reducible apply KeepsOut.ite | with_reducible exact h | (extract_lets +onlyGivenNames sx; clear_value (hsx : sx = _); subst hsx) | simp only [Keeps.any] | refine Keeps.core ?_ rfl rfl rfl rfl (fun _ => rfl) rfl

theorem execRiserConflictTimeout_keeps (a1 : Nat) (a2 : Nat) (s : State) : KeepsOut (True, s) (execRiserConflictTimeout a1 a2 s) := by
  have h : Keeps (True, s) s := Keeps.refl _ _
  unfold execRiserConflictTimeout
  repeat' first | with_reducible apply KeepsOut.next | with_reducible apply KeepsOut.ite | with_reducible exact h | (with_reducible apply State.reach_keeps) | (with_reducible apply State.report_keeps) | (with_reducible apply State.bump_keeps) | (with_reducible apply State.raise_keeps) | simp only [Keeps.any] | refine Keeps.core ?_ rfl rfl rfl rfl (fun _ => rfl) rfl | split

theorem execChartPortBeat_keeps (a1 : Nat) (a2 : List Byte) (s : State) : KeepsOut (True, s) (execChartPortBeat a1 a2 s) := by
  have h : Keeps (True, s) s := Keeps.refl _ _
  unfold execChartPortBeat
  repeat' first | with_reducible apply KeepsOut.next | with_reducible apply KeepsOut.ite | with_reducible exact h | (extract_lets +onlyGivenNames sx; clear_value (hsx : sx = _); subst hsx) | (with_reducible apply State.stageBytes_keeps) | (with_reducible apply State.claimCtx_keeps) | simp only [Keeps.any] | refine Keeps.core ?_ rfl rfl rfl rfl (fun _ => rfl) rfl | split

theorem execChartPortAbort_keeps (a1 : Nat) (s : State) : KeepsOut (True, s) (execChartPortAbort a1 s) := by
  have h : Keeps (True, s) s := Keeps.refl _ _
  unfold execChartPortAbort
  repeat' first | with_reducible apply KeepsOut.next | with_reducible exact h | (with_reducible apply State.portAbandon_keeps)

theorem execChartPortTimeout_keeps (a1 : Nat) (s : State) : KeepsOut (True, s) (execChartPortTimeout a1 s) := by
  have h : Keeps (True, s) s := Keeps.refl _ _
  unfold execChartPortTimeout
  repeat' first | with_reducible apply KeepsOut.next | with_reducible apply KeepsOut.ite | with_reducible exact h | (with_reducible apply State.portAbandon_keeps) | (with_reducible apply State.reach_keeps) | split

theorem execStagingDataArrival_keeps (a1 : Nat) (a2 : List Byte) (s : State) : KeepsOut (True, s) (execStagingDataArrival a1 a2 s) := by
  have h : Keeps (True, s) s := Keeps.refl _ _
  unfold execStagingDataArrival
  repeat' first | with_reducible apply KeepsOut.next | with_reducible apply KeepsOut.ite | with_reducible exact h | (with_reducible apply State.stageBytes_keeps) | split

theorem execStagingComplete_keeps (a1 : Nat) (a2 : Bool) (s : State) : KeepsOut (True, s) (execStagingComplete a1 a2 s) := by
  have h : Keeps (True, s) s := Keeps.refl _ _
  unfold execStagingComplete
  repeat' first | with_reducible apply KeepsOut.next | with_reducible apply KeepsOut.ite | with_reducible exact h | (with_reducible apply State.setCtxState_keeps) | (with_reducible apply State.reject_keeps) | split

theorem execVerificationComplete_keeps (a1 : Nat) (s : State) : KeepsOut (True, s) (execVerificationComplete a1 s) := by
  have h : Keeps (True, s) s := Keeps.refl _ _
  unfold execVerificationComplete
  repeat' first | with_reducible apply KeepsOut.next | with_reducible apply KeepsOut.ite | with_reducible exact h | (with_reducible apply State.reject_keeps) | (with_reducible apply State.ldrDone_keeps) | (with_reducible apply State.setCtx_keeps) | (with_reducible apply State.setCtxState_keeps) | split

theorem execCommitStart_keeps  (s : State) : KeepsOut (True, s) (execCommitStart s) := by
  have h : Keeps (True, s) s := Keeps.refl _ _
  unfold execCommitStart
  repeat' first | with_reducible apply KeepsOut.next | with_reducible exact h | (extract_lets +onlyGivenNames sx; clear_value (hsx : sx = _); subst hsx) | (with_reducible apply State.switchesDue_keeps) | (with_reducible apply State.reject_keeps) | (with_reducible apply State.wr_keeps) | (with_reducible apply State.put_keeps) | (with_reducible apply State.setCtxState_keeps) | (with_reducible apply State.swtAbandon_keeps) | (with_reducible apply State.commitLand_keeps) | simp only [Keeps.any] | refine Keeps.core ?_ rfl rfl rfl rfl (fun _ => rfl) rfl | split

theorem execCommitComplete_keeps  (s : State) : KeepsOut (True, s) (execCommitComplete s) := by
  have h : Keeps (True, s) s := Keeps.refl _ _
  unfold execCommitComplete
  repeat' first | with_reducible apply KeepsOut.next | with_reducible apply KeepsOut.ite | with_reducible exact h | (with_reducible apply State.commitRest_keeps) | (with_reducible apply State.recordOrient_keeps) | (with_reducible apply State.startFull_keeps) | (with_reducible apply State.setCtxState_keeps) | (with_reducible apply State.setCtx_keeps) | (with_reducible apply State.portDone_keeps) | (with_reducible apply State.bump_keeps) | (with_reducible apply State.castJournal_keeps) | (with_reducible apply State.wr_keeps) | (with_reducible apply State.ldrDone_keeps) | with_reducible apply Keeps.ite | simp only [Keeps.any] | refine Keeps.core ?_ rfl rfl rfl rfl (fun _ => rfl) rfl | split

theorem execLdrCtrlLock_keeps (a1 : Master) (a2 : Word) (s : State) : KeepsOut (True, s) (execLdrCtrlLock a1 a2 s) := by
  have h : Keeps (True, s) s := Keeps.refl _ _
  unfold execLdrCtrlLock
  repeat' first | with_reducible apply KeepsOut.next | with_reducible exact h | (with_reducible apply State.access_keeps)

theorem execLdrStatus_keeps (a1 : Nat) (s : State) : KeepsOut (True, s) (execLdrStatus a1 s) := by
  have h : Keeps (True, s) s := Keeps.refl _ _
  unfold execLdrStatus
  repeat' first | with_reducible apply KeepsOut.next | with_reducible exact h | (intro _) | (with_reducible apply runCommand_keeps) | (with_reducible apply Ans.ok_keeps)

theorem execLdrLoad_keeps (a1 : Nat) (s : State) : KeepsOut (True, s) (execLdrLoad a1 s) := by
  have h : Keeps (True, s) s := Keeps.refl _ _
  unfold execLdrLoad
  repeat' first | with_reducible apply KeepsOut.next | with_reducible exact h | (intro _) | (with_reducible apply runCommand_keeps) | (with_reducible apply Ans.code_keeps) | (with_reducible apply State.claimCtx_keeps) | with_reducible apply Keeps.ite_ast | with_reducible apply Ans.st_acc | split

theorem execLdrCommit_keeps (a1 : Nat) (s : State) : KeepsOut (True, s) (execLdrCommit a1 s) := by
  have h : Keeps (True, s) s := Keeps.refl _ _
  unfold execLdrCommit
  repeat' first | with_reducible apply KeepsOut.next | with_reducible exact h | (intro _) | (extract_lets +onlyGivenNames sx; clear_value (hsx : sx = _); subst hsx) | (with_reducible apply runCommand_keeps) | (with_reducible apply State.setCtx_keeps) | (with_reducible apply Ans.code_keeps) | with_reducible apply Keeps.ite_ast | with_reducible apply Ans.st_acc | split

theorem execLdrAbort_keeps (a1 : Nat) (s : State) : KeepsOut (True, s) (execLdrAbort a1 s) := by
  have h : Keeps (True, s) s := Keeps.refl _ _
  unfold execLdrAbort
  repeat' first | with_reducible apply KeepsOut.next | with_reducible exact h | (intro _) | (extract_lets +onlyGivenNames sx; clear_value (hsx : sx = _); subst hsx) | (with_reducible apply runCommand_keeps) | (with_reducible apply Ans.ok_keeps) | (with_reducible apply State.reject_keeps) | (with_reducible apply Ans.code_keeps) | with_reducible apply Keeps.ite_ast

theorem execLdrCaston_keeps (a1 : Nat) (s : State) : KeepsOut (True, s) (execLdrCaston a1 s) := by
  have h : Keeps (True, s) s := Keeps.refl _ _
  unfold execLdrCaston
  repeat' first | with_reducible apply KeepsOut.next | with_reducible exact h | (intro _) | (with_reducible apply runCommand_keeps) | (with_reducible apply Ans.code_keeps) | (with_reducible refine Keeps.of_some (by assumption) (State.castLoad_keeps ?_ _ _)) | with_reducible apply Keeps.ite_ast | with_reducible apply Ans.st_acc | split

theorem execLdrGrant_keeps (a1 : Nat) (s : State) : KeepsOut (True, s) (execLdrGrant a1 s) := by
  have h : Keeps (True, s) s := Keeps.refl _ _
  unfold execLdrGrant
  repeat' first | with_reducible apply KeepsOut.next | with_reducible exact h | (intro _) | (extract_lets +onlyGivenNames sx; clear_value (hsx : sx = _); subst hsx) | (with_reducible apply runCommand_keeps) | (with_reducible apply Ans.code_keeps) | (with_reducible apply State.wr_keeps) | with_reducible apply Keeps.ite_ast

theorem execLdrLock_keeps (a1 : Nat) (s : State) : KeepsOut (True, s) (execLdrLock a1 s) := by
  have h : Keeps (True, s) s := Keeps.refl _ _
  unfold execLdrLock
  repeat' first | with_reducible apply KeepsOut.next | with_reducible exact h | (intro _) | (with_reducible apply runCommand_keeps) | (with_reducible apply Ans.ok_keeps) | (with_reducible apply State.put_keeps)

theorem execLdrCounters_keeps (a1 : Nat) (s : State) : KeepsOut (True, s) (execLdrCounters a1 s) := by
  have h : Keeps (True, s) s := Keeps.refl _ _
  unfold execLdrCounters
  repeat' first | with_reducible apply KeepsOut.next | with_reducible exact h | (intro _) | (with_reducible apply runCommand_keeps) | (with_reducible apply State.counters_keeps) | (with_reducible apply Ans.ok_keeps)

theorem execStreamElementArrival_keeps (a1 : Nat) (a2 : Option Nat) (a3 : Elem) (s : State) : KeepsOut (True, s) (execStreamElementArrival a1 a2 a3 s) := by
  have h : Keeps (True, s) s := Keeps.refl _ _
  unfold execStreamElementArrival
  repeat' first | with_reducible apply KeepsOut.next | with_reducible exact h | (with_reducible apply State.strOffer_keeps)

theorem execStreamSeamArrival_keeps (a1 : Nat) (s : State) : KeepsOut (True, s) (execStreamSeamArrival a1 s) := by
  have h : Keeps (True, s) s := Keeps.refl _ _
  unfold execStreamSeamArrival
  repeat' first | with_reducible apply KeepsOut.next | with_reducible exact h | (with_reducible apply State.strOffer_keeps)

theorem execLatestUsableTime_keeps (a1 : Nat) (s : State) : KeepsOut (True, s) (execLatestUsableTime a1 s) := by
  have h : Keeps (True, s) s := Keeps.refl _ _
  unfold execLatestUsableTime
  repeat' first | with_reducible apply KeepsOut.next | with_reducible exact h | (with_reducible apply State.strSettle_keeps) | (with_reducible apply State.reach_keeps) | split

theorem execStreamDelivery_keeps (a1 : Nat) (a2 : Bool) (s : State) : KeepsOut (True, s) (execStreamDelivery a1 a2 s) := by
  have h : Keeps (True, s) s := Keeps.refl _ _
  unfold execStreamDelivery
  repeat' first | with_reducible apply KeepsOut.next | with_reducible exact h | (with_reducible apply State.strDeliver_keeps)

theorem execGraticuleStreamFlit_keeps (a1 : Nat) (a2 : Nat) (a3 : FlitLoad) (s : State) : KeepsOut (True, s) (execGraticuleStreamFlit a1 a2 a3 s) := by
  have h : Keeps (True, s) s := Keeps.refl _ _
  unfold execGraticuleStreamFlit
  repeat' first | with_reducible apply KeepsOut.next | with_reducible apply KeepsOut.ite | with_reducible exact h | (with_reducible apply State.flitOfProducer_keeps) | (with_reducible apply State.flitOfBuffer_keeps) | split

theorem execBindoffFinalSeam_keeps (a1 : Nat) (s : State) : KeepsOut (True, s) (execBindoffFinalSeam a1 s) := by
  have h : Keeps (True, s) s := Keeps.refl _ _
  unfold execBindoffFinalSeam
  repeat' first | with_reducible apply KeepsOut.next | with_reducible apply KeepsOut.ite | with_reducible exact h | (with_reducible apply State.strFinal_keeps)

theorem execBindoffSeamTaken_keeps (a1 : Nat) (s : State) : KeepsOut (True, s) (execBindoffSeamTaken a1 s) := by
  have h : Keeps (True, s) s := Keeps.refl _ _
  unfold execBindoffSeamTaken
  repeat' first | with_reducible apply KeepsOut.next | with_reducible apply KeepsOut.ite | with_reducible exact h | (with_reducible apply State.strTake_keeps)

theorem execBindoffTimeout_keeps (a1 : Nat) (s : State) : KeepsOut (True, s) (execBindoffTimeout a1 s) := by
  have h : Keeps (True, s) s := Keeps.refl _ _
  unfold execBindoffTimeout
  repeat' first | with_reducible apply KeepsOut.next | with_reducible apply KeepsOut.ite | with_reducible exact h | (with_reducible apply State.strTimeout_keeps)

theorem execStrCfgOpen_keeps (a1 : Master) (a2 : Word) (s : State) : KeepsOut (True, s) (execStrCfgOpen a1 a2 s) := by
  have h : Keeps (True, s) s := Keeps.refl _ _
  unfold execStrCfgOpen
  repeat' first | with_reducible apply KeepsOut.next | with_reducible apply KeepsOut.ite | with_reducible exact h | (with_reducible apply State.strCfgWrite_keeps)

theorem execStrStatus_keeps (a1 : Nat) (s : State) : KeepsOut (True, s) (execStrStatus a1 s) := by
  have h : Keeps (True, s) s := Keeps.refl _ _
  unfold execStrStatus
  repeat' first | with_reducible apply KeepsOut.next | with_reducible exact h | (intro _) | (extract_lets +onlyGivenNames sx; clear_value (hsx : sx = _); subst hsx) | (with_reducible apply runCommand_keeps) | (with_reducible apply Ans.ok_keeps)

theorem execStrOpen_keeps (a1 : Nat) (s : State) : KeepsOut (True, s) (execStrOpen a1 s) := by
  have h : Keeps (True, s) s := Keeps.refl _ _
  unfold execStrOpen
  repeat' first | with_reducible apply KeepsOut.next | with_reducible exact h | (intro _) | (with_reducible apply runCommand_keeps) | (with_reducible apply Ans.code_keeps) | (with_reducible apply openStream_keeps) | split

theorem execStrSeam_keeps (a1 : Nat) (s : State) : KeepsOut (True, s) (execStrSeam a1 s) := by
  have h : Keeps (True, s) s := Keeps.refl _ _
  unfold execStrSeam
  repeat' first | with_reducible apply KeepsOut.next | with_reducible exact h | (intro _) | (extract_lets +onlyGivenNames sx; clear_value (hsx : sx = _); subst hsx) | (with_reducible apply runCommand_keeps) | (with_reducible apply State.airActDue_keeps) | (with_reducible apply Ans.ok_keeps) | (with_reducible apply State.strSeam_keeps) | (with_reducible apply Ans.code_keeps) | with_reducible apply Keeps.ite_ast

theorem execStrBindoff_keeps (a1 : Nat) (s : State) : KeepsOut (True, s) (execStrBindoff a1 s) := by
  have h : Keeps (True, s) s := Keeps.refl _ _
  unfold execStrBindoff
  repeat' first | with_reducible apply KeepsOut.next | with_reducible exact h | (intro _) | (extract_lets +onlyGivenNames sx; clear_value (hsx : sx = _); subst hsx) | (with_reducible apply runCommand_keeps) | (with_reducible apply State.strBind_keeps) | (with_reducible apply Ans.code_keeps) | with_reducible apply Keeps.ite_ast | with_reducible apply Ans.st_acc

theorem execStrOpenX_keeps (a1 : Nat) (s : State) : KeepsOut (True, s) (execStrOpenX a1 s) := by
  have h : Keeps (True, s) s := Keeps.refl _ _
  unfold execStrOpenX
  repeat' first | with_reducible apply KeepsOut.next | with_reducible exact h | (intro _) | (with_reducible apply runCommand_keeps) | (with_reducible apply openStream_keeps)

theorem execStrCounters_keeps (a1 : Nat) (s : State) : KeepsOut (True, s) (execStrCounters a1 s) := by
  have h : Keeps (True, s) s := Keeps.refl _ _
  unfold execStrCounters
  repeat' first | with_reducible apply KeepsOut.next | with_reducible exact h | (intro _) | (with_reducible apply runCommand_keeps) | (with_reducible apply State.counters_keeps) | (with_reducible apply Ans.ok_keeps)

theorem execAirEntryDispatch_keeps  (s : State) : KeepsOut (True, s) (execAirEntryDispatch s) := by
  have h : Keeps (True, s) s := Keeps.refl _ _
  unfold execAirEntryDispatch
  repeat' first | with_reducible apply KeepsOut.next | with_reducible apply KeepsOut.ite | with_reducible exact h | (with_reducible apply State.reach_keeps) | (with_reducible apply State.setAir_keeps)

theorem execAirActionNop_keeps  (s : State) : KeepsOut (True, s) (execAirActionNop s) := by
  have h : Keeps (True, s) s := Keeps.refl _ _
  unfold execAirActionNop
  repeat' first | with_reducible apply KeepsOut.next | with_reducible exact h | (with_reducible refine Keeps.of_some2 (by assumption) (State.airTake_keeps ?_ _)) | split

theorem execAirActionPlane_keeps  (s : State) : KeepsOut (True, s) (execAirActionPlane s) := by
  have h : Keeps (True, s) s := Keeps.refl _ _
  unfold execAirActionPlane
  repeat' first | with_reducible apply KeepsOut.next | with_reducible exact h | (with_reducible refine Keeps.of_some2 (by assumption) (State.airTake_keeps ?_ _)) | (with_reducible apply State.airPlane_keeps) | split

end Sys2Proof.Machine
end

