-- ==== Sys2Proof/Laws/KeepsRows2.lean ====
section
/-! SUPPORT. What each row keeps (2 of 3): its meaning answers a next state that keeps the queue, the canonical forms and, but for the datum
island's own rows, the island. -/

namespace Sys2Proof.Machine

theorem execAirActionPattern_keeps  (s : State) : KeepsOut (True, s) (execAirActionPattern s) := by
  have h : Keeps (True, s) s := Keeps.refl _ _
  unfold execAirActionPattern
  repeat' first | with_reducible apply KeepsOut.next | with_reducible exact h | (with_reducible refine Keeps.of_some2 (by assumption) (State.airTake_keeps ?_ _)) | (with_reducible apply State.airPattern_keeps) | split

theorem execAirActionRelease_keeps  (s : State) : KeepsOut (True, s) (execAirActionRelease s) := by
  have h : Keeps (True, s) s := Keeps.refl _ _
  unfold execAirActionRelease
  repeat' first | with_reducible apply KeepsOut.next | with_reducible exact h | with_reducible assumption | (intro _) | (with_reducible refine Keeps.of_some2 (by assumption) (State.airTake_keeps ?_ _)) | (with_reducible apply State.setAir_keeps) | (with_reducible apply State.airRelease_keeps) | (with_reducible apply State.airDone_keeps) | with_reducible refine Keeps.foldl _ ?_ ?_ | simp only [Keeps.any] | split

theorem execAirActionMute_keeps  (s : State) : KeepsOut (True, s) (execAirActionMute s) := by
  have h : Keeps (True, s) s := Keeps.refl _ _
  unfold execAirActionMute
  repeat' first | with_reducible apply KeepsOut.next | with_reducible exact h | (with_reducible refine Keeps.of_some2 (by assumption) (State.airTake_keeps ?_ _)) | (with_reducible apply State.airMute_keeps) | split

theorem execAirActionPin_keeps  (s : State) : KeepsOut (True, s) (execAirActionPin s) := by
  have h : Keeps (True, s) s := Keeps.refl _ _
  unfold execAirActionPin
  repeat' first | with_reducible apply KeepsOut.next | with_reducible exact h | (with_reducible refine Keeps.of_some2 (by assumption) (State.airTake_keeps ?_ _)) | (with_reducible apply State.airPins_keeps) | split

theorem execAirActionSample_keeps  (s : State) : KeepsOut (True, s) (execAirActionSample s) := by
  have h : Keeps (True, s) s := Keeps.refl _ _
  unfold execAirActionSample
  repeat' first | with_reducible apply KeepsOut.next | with_reducible exact h | (with_reducible refine Keeps.of_some2 (by assumption) (State.airTake_keeps ?_ _)) | (with_reducible apply State.airSample_keeps) | split

theorem execAirActionCascade_keeps  (s : State) : KeepsOut (True, s) (execAirActionCascade s) := by
  have h : Keeps (True, s) s := Keeps.refl _ _
  unfold execAirActionCascade
  repeat' first | with_reducible apply KeepsOut.next | with_reducible exact h | (with_reducible refine Keeps.of_some2 (by assumption) (State.airTake_keeps ?_ _)) | (with_reducible apply State.airCascade_keeps) | split

theorem execAirBcastAct_keeps (s : State) : KeepsOut (True, s) (execAirBcastAct s) := by
  have h : Keeps (True, s) s := Keeps.refl _ _
  unfold execAirBcastAct
  split
  · exact KeepsOut.next h
  · rename_i b rest _
    have hv : Keeps (True, s) (((s.setAir { s.air with bcasts := rest }).reach (s.stampOfAir b.at_)).wr R.AIR_BCAST b.value) :=
      State.wr_keeps (State.reach_keeps (State.setAir_keeps h _) _) _ _
    extract_lets src v
    change Keeps (True, s) v at hv
    clear_value v
    split
    · split
      · rename_i t e
        exact KeepsOut.next (State.airSwapOrder_keeps hv e)
      · exact KeepsOut.next hv
    · exact KeepsOut.next hv

theorem execAirScheduleStart_keeps  (s : State) : KeepsOut (True, s) (execAirScheduleStart s) := by
  have h : Keeps (True, s) s := Keeps.refl _ _
  unfold execAirScheduleStart
  repeat' first | with_reducible apply KeepsOut.next | with_reducible apply KeepsOut.ite | with_reducible exact h | (extract_lets +onlyGivenNames sx; clear_value (hsx : sx = _); subst hsx) | (with_reducible apply State.reach_keeps) | (with_reducible apply State.setAir_keeps) | (with_reducible apply State.complete_keeps) | (with_reducible apply State.enter_keeps) | (with_reducible apply State.put_keeps) | simp only [Keeps.any] | refine Keeps.core ?_ rfl rfl rfl rfl (fun _ => rfl) rfl | split

theorem execAirSwapBoundary_keeps  (s : State) : KeepsOut (True, s) (execAirSwapBoundary s) := by
  have h : Keeps (True, s) s := Keeps.refl _ _
  unfold execAirSwapBoundary
  repeat' first | with_reducible apply KeepsOut.next | with_reducible apply KeepsOut.ite | with_reducible exact h | (with_reducible apply State.airExchange_keeps) | (with_reducible apply State.reach_keeps) | (with_reducible apply State.put_keeps) | (with_reducible apply State.completeOpt_keeps) | (with_reducible apply State.setAir_keeps) | simp only [Keeps.any] | split

theorem execAirStop_keeps  (s : State) : KeepsOut (True, s) (execAirStop s) := by
  have h : Keeps (True, s) s := Keeps.refl _ _
  unfold execAirStop
  repeat' first | with_reducible apply KeepsOut.next | with_reducible apply KeepsOut.ite | with_reducible exact h | (with_reducible apply State.airHalt_keeps) | (with_reducible apply State.reach_keeps) | (with_reducible apply State.enter_keeps) | (with_reducible apply State.completeOpt_keeps) | with_reducible apply Keeps.ite | simp only [Keeps.any] | split

theorem execAirTimeLoRead_keeps (a1 : Master) (s : State) : KeepsOut (True, s) (execAirTimeLoRead a1 s) := by
  have h : Keeps (True, s) s := Keeps.refl _ _
  unfold execAirTimeLoRead
  repeat' first | with_reducible apply KeepsOut.next | with_reducible exact h | (with_reducible apply State.readBy_keeps)

theorem execAirSwapLoRead_keeps (a1 : Master) (s : State) : KeepsOut (True, s) (execAirSwapLoRead a1 s) := by
  have h : Keeps (True, s) s := Keeps.refl _ _
  unfold execAirSwapLoRead
  repeat' first | with_reducible apply KeepsOut.next | with_reducible exact h | (with_reducible apply State.readBy_keeps)

theorem execAirStatus_keeps (a1 : Nat) (s : State) : KeepsOut (True, s) (execAirStatus a1 s) := by
  have h : Keeps (True, s) s := Keeps.refl _ _
  unfold execAirStatus
  repeat' first | with_reducible apply KeepsOut.next | with_reducible exact h | (intro _) | (with_reducible apply runCommand_keeps) | (with_reducible apply Ans.ok_keeps)

theorem execAirPreset_keeps (a1 : Nat) (s : State) : KeepsOut (True, s) (execAirPreset a1 s) := by
  have h : Keeps (True, s) s := Keeps.refl _ _
  unfold execAirPreset
  repeat' first | with_reducible apply KeepsOut.next | with_reducible exact h | with_reducible assumption | (intro _) | (extract_lets +onlyGivenNames sx; clear_value (hsx : sx = _); subst hsx) | (with_reducible apply runCommand_keeps) | (with_reducible apply Ans.code_keeps) | (with_reducible apply State.setAirEntry_keeps) | (with_reducible apply State.setAir_keeps) | (with_reducible apply State.setBit_keeps) | (with_reducible apply State.airSealStart_keeps) | with_reducible apply Keeps.ite | with_reducible apply Keeps.ite_ast | with_reducible refine Keeps.foldl _ ?_ ?_ | with_reducible apply Ans.st_acc

theorem execTableSealComplete_keeps  (s : State) : KeepsOut (True, s) (execTableSealComplete s) := by
  have h : Keeps (True, s) s := Keeps.refl _ _
  unfold execTableSealComplete
  repeat' first | with_reducible apply KeepsOut.next | with_reducible exact h | (extract_lets +onlyGivenNames sx; clear_value (hsx : sx = _); subst hsx) | (with_reducible apply State.setAir_keeps) | (with_reducible apply State.complete_keeps) | (with_reducible apply State.put_keeps) | simp only [Keeps.any] | split

theorem execAirEnable_keeps (a1 : Nat) (s : State) : KeepsOut (True, s) (execAirEnable a1 s) := by
  have h : Keeps (True, s) s := Keeps.refl _ _
  unfold execAirEnable
  repeat' first | with_reducible apply KeepsOut.next | with_reducible exact h | (intro _) | (extract_lets +onlyGivenNames sx; clear_value (hsx : sx = _); subst hsx) | (with_reducible apply runCommand_keeps) | (with_reducible apply Ans.code_keeps) | (with_reducible apply State.setAir_keeps) | with_reducible apply Keeps.ite_ast | with_reducible apply Ans.st_acc

theorem execAirDisable_keeps (a1 : Nat) (s : State) : KeepsOut (True, s) (execAirDisable a1 s) := by
  have h : Keeps (True, s) s := Keeps.refl _ _
  unfold execAirDisable
  repeat' first | with_reducible apply KeepsOut.next | with_reducible exact h | (intro _) | (extract_lets +onlyGivenNames sx; clear_value (hsx : sx = _); subst hsx) | (with_reducible apply runCommand_keeps) | (with_reducible apply Ans.code_keeps) | (with_reducible apply State.airRedispatch_keeps) | (with_reducible apply State.setAir_keeps) | with_reducible apply Keeps.ite | with_reducible apply Keeps.ite_ast | with_reducible apply Ans.st_acc | split

theorem execAirSwap_keeps (a1 : Nat) (s : State) : KeepsOut (True, s) (execAirSwap a1 s) := by
  have h : Keeps (True, s) s := Keeps.refl _ _
  unfold execAirSwap
  repeat' first | with_reducible apply KeepsOut.next | with_reducible exact State.airSwapOrder_keeps h (by assumption) | with_reducible exact h | (intro _) | (extract_lets +onlyGivenNames sx; clear_value (hsx : sx = _); subst hsx) | (with_reducible apply runCommand_keeps) | (with_reducible apply Ans.ok_keeps) | (with_reducible apply State.airCancelSwap_keeps) | (with_reducible apply Ans.code_keeps) | with_reducible apply Keeps.ite_ast | with_reducible apply Ans.st_acc | with_reducible apply Ans.st_ans | split

theorem execAirLoad_keeps (a1 : Nat) (s : State) : KeepsOut (True, s) (execAirLoad a1 s) := by
  have h : Keeps (True, s) s := Keeps.refl _ _
  unfold execAirLoad
  repeat' first | with_reducible apply KeepsOut.next | with_reducible exact h | with_reducible assumption | (intro _) | (extract_lets +onlyGivenNames sx; clear_value (hsx : sx = _); subst hsx) | (with_reducible apply runCommand_keeps) | (with_reducible apply Ans.code_keeps) | (with_reducible apply State.setAirEntry_keeps) | (with_reducible apply State.setAir_keeps) | (with_reducible apply State.put_keeps) | with_reducible apply Keeps.ite_ast | with_reducible refine Keeps.foldl _ ?_ ?_

theorem execAirSeal_keeps (a1 : Nat) (s : State) : KeepsOut (True, s) (execAirSeal a1 s) := by
  have h : Keeps (True, s) s := Keeps.refl _ _
  unfold execAirSeal
  repeat' first | with_reducible apply KeepsOut.next | with_reducible exact h | (intro _) | (extract_lets +onlyGivenNames sx; clear_value (hsx : sx = _); subst hsx) | (with_reducible apply runCommand_keeps) | (with_reducible apply Ans.code_keeps) | (with_reducible apply State.airSealStart_keeps) | with_reducible apply Keeps.ite_ast | with_reducible apply Ans.st_acc

theorem execAirRead_keeps (a1 : Nat) (s : State) : KeepsOut (True, s) (execAirRead a1 s) := by
  have h : Keeps (True, s) s := Keeps.refl _ _
  unfold execAirRead
  repeat' first | with_reducible apply KeepsOut.next | with_reducible exact h | (intro _) | (with_reducible apply runCommand_keeps) | (with_reducible apply Ans.ok_keeps)

theorem execAirIdle_keeps (a1 : Nat) (s : State) : KeepsOut (True, s) (execAirIdle a1 s) := by
  have h : Keeps (True, s) s := Keeps.refl _ _
  unfold execAirIdle
  repeat' first | with_reducible apply KeepsOut.next | with_reducible exact h | (intro _) | (with_reducible apply runCommand_keeps) | (with_reducible apply Ans.ok_keeps) | (with_reducible apply State.wr_keeps)

theorem execAirCounters_keeps (a1 : Nat) (s : State) : KeepsOut (True, s) (execAirCounters a1 s) := by
  have h : Keeps (True, s) s := Keeps.refl _ _
  unfold execAirCounters
  repeat' first | with_reducible apply KeepsOut.next | with_reducible exact h | (intro _) | (with_reducible apply runCommand_keeps) | (with_reducible apply State.counters_keeps) | (with_reducible apply Ans.ok_keeps)

theorem execAirTapRead_keeps (a1 : Nat) (s : State) : KeepsOut (True, s) (execAirTapRead a1 s) := by
  have h : Keeps (True, s) s := Keeps.refl _ _
  unfold execAirTapRead
  repeat' first | with_reducible apply KeepsOut.next | with_reducible exact h | (intro _) | (with_reducible apply runCommand_keeps) | (with_reducible apply Ans.code_keeps) | with_reducible apply Keeps.ite_ast | with_reducible apply Ans.st_acc | split

theorem execTapReadComplete_keeps  (s : State) : KeepsOut (True, s) (execTapReadComplete s) := by
  have h : Keeps (True, s) s := Keeps.refl _ _
  unfold execTapReadComplete
  repeat' first | with_reducible apply KeepsOut.next | with_reducible exact h | (with_reducible apply State.complete_keeps) | (with_reducible apply State.hostWrite_keeps) | (with_reducible apply State.setTap_keeps) | with_reducible apply Keeps.ite | simp only [Keeps.any] | split

theorem execEthFrameReceived_keeps (a1 : Nat) (a2 : EthFrame) (s : State) : KeepsOut (True, s) (execEthFrameReceived a1 a2 s) := by
  have h : Keeps (True, s) s := Keeps.refl _ _
  unfold execEthFrameReceived
  repeat' first | with_reducible apply KeepsOut.next | with_reducible apply KeepsOut.ite | with_reducible exact h | with_reducible assumption | (intro _) | (extract_lets +onlyGivenNames sx; clear_value (hsx : sx = _); subst hsx) | (with_reducible apply State.macCount_keeps) | (with_reducible apply State.ecpri_keeps) | (with_reducible apply State.ptpMessage_keeps) | (with_reducible apply State.ptpStampRx_keeps) | (with_reducible apply State.esmcMessage_keeps) | (with_reducible apply State.flowSend_keeps) | with_reducible refine Keeps.foldl _ ?_ ?_ | split

theorem execEthAutonegComplete_keeps (a1 : Nat) (a2 : Nat) (a3 : Bool) (s : State) : KeepsOut (True, s) (execEthAutonegComplete a1 a2 a3 s) := by
  have h : Keeps (True, s) s := Keeps.refl _ _
  unfold execEthAutonegComplete
  repeat' first | with_reducible apply KeepsOut.next | with_reducible apply KeepsOut.ite | with_reducible exact h | with_reducible assumption | (intro _) | (extract_lets +onlyGivenNames sx; clear_value (hsx : sx = _); subst hsx) | (with_reducible apply State.mismatch_keeps) | (with_reducible apply State.setLaneRate_keeps) | (with_reducible apply State.setLaneState_keeps) | (with_reducible apply State.put_keeps) | with_reducible apply Keeps.ite | with_reducible refine Keeps.foldl _ ?_ ?_ | simp only [Keeps.any] | split

theorem execEthFrameTransmit_keeps (a1 : Nat) (a2 : Bool) (s : State) : KeepsOut (True, s) (execEthFrameTransmit a1 a2 s) := by
  have h : Keeps (True, s) s := Keeps.refl _ _
  unfold execEthFrameTransmit
  repeat' first | with_reducible apply KeepsOut.next | with_reducible apply KeepsOut.ite | with_reducible exact h | (extract_lets +onlyGivenNames sx; clear_value (hsx : sx = _); subst hsx) | (with_reducible apply State.frameOut_keeps) | (with_reducible apply State.ptpStampTx_keeps) | (with_reducible apply State.setFhe_keeps) | (with_reducible apply State.flowCount_keeps) | (with_reducible apply State.hostFrame_keeps) | with_reducible apply Keeps.ite | simp only [Keeps.any] | with_reducible refine Keeps.of_snd (by assumption) ?_ | split

theorem execTxIqUnitFraming_keeps (a1 : Nat) (s : State) : KeepsOut (True, s) (execTxIqUnitFraming a1 s) := by
  have h : Keeps (True, s) s := Keeps.refl _ _
  unfold execTxIqUnitFraming
  repeat' first | with_reducible apply KeepsOut.next | with_reducible apply KeepsOut.ite | with_reducible exact h | with_reducible assumption | (intro _) | (extract_lets +onlyGivenNames sx; clear_value (hsx : sx = _); subst hsx) | (with_reducible apply State.strTake_keeps) | (with_reducible apply State.txTake_keeps) | with_reducible refine Keeps.foldl _ ?_ ?_ | simp only [Keeps.any] | with_reducible refine Keeps.of_snd (by assumption) ?_ | split

theorem execSysrefEdge_keeps  (s : State) : KeepsOut (True, s) (execSysrefEdge s) := by
  have h : Keeps (True, s) s := Keeps.refl _ _
  unfold execSysrefEdge
  repeat' first | with_reducible apply KeepsOut.next | with_reducible apply KeepsOut.ite | with_reducible exact h | with_reducible assumption | (intro _) | (extract_lets +onlyGivenNames sx; clear_value (hsx : sx = _); subst hsx) | (with_reducible apply State.reach_keeps) | (with_reducible apply State.setJsd_keeps) | (with_reducible apply State.setJsdState_keeps) | (with_reducible apply State.setJsdLink_keeps) | with_reducible apply Keeps.ite | with_reducible refine Keeps.foldl _ ?_ ?_

theorem execSyncHeaderLock_keeps (a1 : Nat) (a2 : List LaneObs) (s : State) : KeepsOut (True, s) (execSyncHeaderLock a1 a2 s) := by
  have h : Keeps (True, s) s := Keeps.refl _ _
  unfold execSyncHeaderLock
  repeat' first | with_reducible apply KeepsOut.next | with_reducible apply KeepsOut.ite | with_reducible exact h | (extract_lets +onlyGivenNames sx; clear_value (hsx : sx = _); subst hsx) | (with_reducible apply State.laneDetect_keeps) | (with_reducible apply State.setJsdLink_keeps)

theorem execEmbLock_keeps (a1 : Nat) (s : State) : KeepsOut (True, s) (execEmbLock a1 s) := by
  have h : Keeps (True, s) s := Keeps.refl _ _
  unfold execEmbLock
  repeat' first | with_reducible apply KeepsOut.next | with_reducible apply KeepsOut.ite | with_reducible exact h | (extract_lets +onlyGivenNames sx; clear_value (hsx : sx = _); subst hsx) | (with_reducible apply State.setJsdLink_keeps)

theorem execElasticBufferRelease_keeps (a1 : Nat) (s : State) : KeepsOut (True, s) (execElasticBufferRelease a1 s) := by
  have h : Keeps (True, s) s := Keeps.refl _ _
  unfold execElasticBufferRelease
  repeat' first | with_reducible apply KeepsOut.next | with_reducible apply KeepsOut.ite | with_reducible exact h | with_reducible assumption | (intro _) | (with_reducible apply State.reach_keeps) | (with_reducible apply State.lanesDone_keeps) | (with_reducible apply State.setJsdState_keeps) | (with_reducible apply State.laneUpNow_keeps) | with_reducible refine Keeps.foldl _ ?_ ?_

theorem execCrc12Error_keeps (a1 : Nat) (s : State) : KeepsOut (True, s) (execCrc12Error a1 s) := by
  have h : Keeps (True, s) s := Keeps.refl _ _
  unfold execCrc12Error
  repeat' first | with_reducible apply KeepsOut.next | with_reducible apply KeepsOut.ite | with_reducible exact h | (with_reducible apply State.bump_keeps) | (with_reducible apply State.jsdAgain_keeps) | (with_reducible apply State.setJsdLink_keeps)

theorem execEmbLockLoss_keeps (a1 : Nat) (s : State) : KeepsOut (True, s) (execEmbLockLoss a1 s) := by
  have h : Keeps (True, s) s := Keeps.refl _ _
  unfold execEmbLockLoss
  repeat' first | with_reducible apply KeepsOut.next | with_reducible apply KeepsOut.ite | with_reducible exact h | (with_reducible apply State.jsdAgain_keeps)

theorem execJsdTxSampleDue_keeps (a1 : Nat) (a2 : Nat) (a3 : Nat) (a4 : Nat) (s : State) : KeepsOut (True, s) (execJsdTxSampleDue a1 a2 a3 a4 s) := by
  have h : Keeps (True, s) s := Keeps.refl _ _
  unfold execJsdTxSampleDue
  repeat' first | with_reducible apply KeepsOut.next | with_reducible apply KeepsOut.ite | with_reducible exact h | (extract_lets +onlyGivenNames sx; clear_value (hsx : sx = _); subst hsx) | (with_reducible apply State.reach_keeps) | (with_reducible apply State.jsdDrop_keeps) | (with_reducible apply State.jsdMute_keeps) | (with_reducible apply State.setJsdTx_keeps) | (with_reducible apply State.jsdUnmute_keeps) | (with_reducible apply State.jsdNext_keeps) | (with_reducible apply State.bump_keeps) | with_reducible apply Keeps.ite | with_reducible apply Keeps.ite2 | simp only [Keeps.any] | with_reducible refine Keeps.of_snd (by assumption) ?_ | split

theorem execJsdRxSample_keeps (a1 : Nat) (a2 : Nat) (a3 : Nat) (a4 : Nat) (a5 : List Nat) (s : State) : KeepsOut (True, s) (execJsdRxSample a1 a2 a3 a4 a5 s) := by
  have h : Keeps (True, s) s := Keeps.refl _ _
  unfold execJsdRxSample
  repeat' first | with_reducible apply KeepsOut.next | with_reducible apply KeepsOut.ite | with_reducible exact h | (extract_lets +onlyGivenNames sx; clear_value (hsx : sx = _); subst hsx) | (with_reducible apply State.reach_keeps) | (with_reducible apply State.strOffer_keeps) | (with_reducible apply State.setJsdLink_keeps) | (with_reducible apply State.tapTake_keeps) | with_reducible apply Keeps.ite | simp only [Keeps.any] | split

theorem execFheStatus_keeps (a1 : Nat) (s : State) : KeepsOut (True, s) (execFheStatus a1 s) := by
  have h : Keeps (True, s) s := Keeps.refl _ _
  unfold execFheStatus
  repeat' first | with_reducible apply KeepsOut.next | with_reducible exact h | (intro _) | (extract_lets +onlyGivenNames sx; clear_value (hsx : sx = _); subst hsx) | (with_reducible apply runCommand_keeps) | (with_reducible apply Ans.ok_keeps)

theorem execFheFlow_keeps (a1 : Nat) (s : State) : KeepsOut (True, s) (execFheFlow a1 s) := by
  have h : Keeps (True, s) s := Keeps.refl _ _
  unfold execFheFlow
  repeat' first | with_reducible apply KeepsOut.next | with_reducible exact h | with_reducible assumption | (intro _) | (extract_lets +onlyGivenNames sx; clear_value (hsx : sx = _); subst hsx) | (with_reducible apply runCommand_keeps) | (with_reducible apply Ans.code_keeps) | (with_reducible apply State.wr_keeps) | (with_reducible apply State.setFhe_keeps) | with_reducible apply Keeps.ite_ast | with_reducible refine Keeps.foldl _ ?_ ?_

theorem execFheCounters_keeps (a1 : Nat) (s : State) : KeepsOut (True, s) (execFheCounters a1 s) := by
  have h : Keeps (True, s) s := Keeps.refl _ _
  unfold execFheCounters
  repeat' first | with_reducible apply KeepsOut.next | with_reducible exact h | (intro _) | (with_reducible apply runCommand_keeps) | (with_reducible apply State.counters_keeps) | (with_reducible apply Ans.ok_keeps)

theorem execJsdStatus_keeps (a1 : Nat) (s : State) : KeepsOut (True, s) (execJsdStatus a1 s) := by
  have h : Keeps (True, s) s := Keeps.refl _ _
  unfold execJsdStatus
  repeat' first | with_reducible apply KeepsOut.next | with_reducible exact h | (intro _) | (extract_lets +onlyGivenNames sx; clear_value (hsx : sx = _); subst hsx) | (with_reducible apply runCommand_keeps) | (with_reducible apply Ans.ok_keeps)

theorem execJsdLink_keeps (a1 : Nat) (s : State) : KeepsOut (True, s) (execJsdLink a1 s) := by
  have h : Keeps (True, s) s := Keeps.refl _ _
  unfold execJsdLink
  repeat' first | with_reducible apply KeepsOut.next | with_reducible exact h | (intro _) | (extract_lets +onlyGivenNames sx; clear_value (hsx : sx = _); subst hsx) | (with_reducible apply runCommand_keeps) | (with_reducible apply Ans.code_keeps) | (with_reducible apply State.wr_keeps) | (with_reducible apply State.put_keeps) | (with_reducible apply State.setJsdState_keeps) | with_reducible apply Keeps.ite_ast

theorem execJsdSysref_keeps (a1 : Nat) (s : State) : KeepsOut (True, s) (execJsdSysref a1 s) := by
  have h : Keeps (True, s) s := Keeps.refl _ _
  unfold execJsdSysref
  repeat' first | with_reducible apply KeepsOut.next | with_reducible exact h | (intro _) | (extract_lets +onlyGivenNames sx; clear_value (hsx : sx = _); subst hsx) | (with_reducible apply runCommand_keeps) | (with_reducible apply State.setJsd_keeps) | (with_reducible apply Ans.ok_keeps) | (with_reducible apply State.wr_keeps)

theorem execJsdCounters_keeps (a1 : Nat) (s : State) : KeepsOut (True, s) (execJsdCounters a1 s) := by
  have h : Keeps (True, s) s := Keeps.refl _ _
  unfold execJsdCounters
  repeat' first | with_reducible apply KeepsOut.next | with_reducible exact h | (intro _) | (with_reducible apply runCommand_keeps) | (with_reducible apply State.counters_keeps) | (with_reducible apply Ans.ok_keeps)

theorem execLocalSecondBoundary_keeps (a1 : PllSecond) (s : State) : KeepsOut (True, s) (execLocalSecondBoundary a1 s) := by
  have h : Keeps (True, s) s := Keeps.refl _ _
  unfold execLocalSecondBoundary
  repeat' first | with_reducible apply KeepsOut.next | with_reducible apply KeepsOut.ite | with_reducible exact h | (extract_lets +onlyGivenNames sx; clear_value (hsx : sx = _); subst hsx) | (with_reducible apply State.merCarry_keeps) | (with_reducible apply State.reach_keeps) | (with_reducible apply State.setMer_keeps) | (with_reducible apply State.bump_keeps) | (with_reducible apply State.refSecond_keeps) | (with_reducible apply State.put_keeps) | (with_reducible apply State.merFlags_keeps) | (with_reducible apply State.merStep_keeps) | with_reducible apply Keeps.ite | split

theorem execPpsInputEdge_keeps  (s : State) : KeepsOut (True, s) (execPpsInputEdge s) := by
  have h : Keeps (True, s) s := Keeps.refl _ _
  unfold execPpsInputEdge
  repeat' first | with_reducible apply KeepsOut.next | with_reducible apply KeepsOut.ite | with_reducible exact h | (extract_lets +onlyGivenNames sx; clear_value (hsx : sx = _); subst hsx) | (with_reducible apply State.setMer_keeps)

theorem execTodMessage_keeps (a1 : TodSeen) (s : State) : KeepsOut (True, s) (execTodMessage a1 s) := by
  have h : Keeps (True, s) s := Keeps.refl _ _
  unfold execTodMessage
  repeat' first | with_reducible apply KeepsOut.next | with_reducible apply KeepsOut.ite | with_reducible exact h | (extract_lets +onlyGivenNames sx; clear_value (hsx : sx = _); subst hsx) | (with_reducible apply State.bump_keeps) | (with_reducible apply State.todTake_keeps) | (with_reducible apply State.setMer_keeps)

theorem execPtpMessage_keeps (a1 : Nat) (a2 : PtpMsg) (s : State) : KeepsOut (True, s) (execPtpMessage a1 a2 s) := by
  have h : Keeps (True, s) s := Keeps.refl _ _
  unfold execPtpMessage
  repeat' first | with_reducible apply KeepsOut.next | with_reducible exact h | (with_reducible apply State.ptpMessage_keeps)

theorem execEsmcMessage_keeps (a1 : Nat) (a2 : Nat) (s : State) : KeepsOut (True, s) (execEsmcMessage a1 a2 s) := by
  have h : Keeps (True, s) s := Keeps.refl _ _
  unfold execEsmcMessage
  repeat' first | with_reducible apply KeepsOut.next | with_reducible exact h | (with_reducible apply State.esmcMessage_keeps)

theorem execOscTempRead_keeps (a1 : Option Int) (s : State) : KeepsOut (True, s) (execOscTempRead a1 s) := by
  have h : Keeps (True, s) s := Keeps.refl _ _
  unfold execOscTempRead
  repeat' first | with_reducible apply KeepsOut.next | with_reducible apply KeepsOut.ite | with_reducible exact h | (extract_lets +onlyGivenNames sx; clear_value (hsx : sx = _); subst hsx) | (with_reducible apply State.setMer_keeps) | (with_reducible apply State.put_keeps) | (with_reducible apply State.wr_keeps) | (with_reducible apply State.bump_keeps) | with_reducible apply Keeps.ite

theorem execContourLearnTick_keeps (a1 : Int) (a2 : Int) (s : State) : KeepsOut (True, s) (execContourLearnTick a1 a2 s) := by
  have h : Keeps (True, s) s := Keeps.refl _ _
  unfold execContourLearnTick
  repeat' first | with_reducible apply KeepsOut.next | with_reducible apply KeepsOut.ite | with_reducible exact h | (extract_lets +onlyGivenNames sx; clear_value (hsx : sx = _); subst hsx) | (with_reducible apply State.setMer_keeps) | (with_reducible apply State.modelFlags_keeps) | (with_reducible apply State.wr_keeps)

theorem execAgeingFit_keeps  (s : State) : KeepsOut (True, s) (execAgeingFit s) := by
  have h : Keeps (True, s) s := Keeps.refl _ _
  unfold execAgeingFit
  repeat' first | with_reducible apply KeepsOut.next | with_reducible apply KeepsOut.ite | with_reducible exact h | (extract_lets +onlyGivenNames sx; clear_value (hsx : sx = _); subst hsx) | (with_reducible apply State.setMer_keeps) | (with_reducible apply State.wr_keeps) | (with_reducible apply State.modelFlags_keeps) | simp only [Keeps.any] | split

theorem execModelStore_keeps  (s : State) : KeepsOut (True, s) (execModelStore s) := by
  have h : Keeps (True, s) s := Keeps.refl _ _
  unfold execModelStore
  repeat' first | with_reducible apply KeepsOut.next | with_reducible apply KeepsOut.ite | with_reducible exact h | (with_reducible apply State.modelStore_keeps)

theorem execLeapSecondApply_keeps  (s : State) : KeepsOut (True, s) (execLeapSecondApply s) := by
  have h : Keeps (True, s) s := Keeps.refl _ _
  unfold execLeapSecondApply
  repeat' first | with_reducible apply KeepsOut.next | with_reducible apply KeepsOut.ite | with_reducible exact h | (extract_lets +onlyGivenNames sx; clear_value (hsx : sx = _); subst hsx) | (with_reducible apply State.put_keeps) | (with_reducible apply State.setMer_keeps)

theorem execIroTrimGate_keeps (a1 : Bool) (a2 : Int) (s : State) : KeepsOut (True, s) (execIroTrimGate a1 a2 s) := by
  have h : Keeps (True, s) s := Keeps.refl _ _
  unfold execIroTrimGate
  repeat' first | with_reducible apply KeepsOut.next | with_reducible apply KeepsOut.ite | with_reducible exact h | (with_reducible apply State.put_keeps) | with_reducible apply Keeps.ite

theorem execMerStatus_keeps (a1 : Nat) (s : State) : KeepsOut (True, s) (execMerStatus a1 s) := by
  have h : Keeps (True, s) s := Keeps.refl _ _
  unfold execMerStatus
  repeat' first | with_reducible apply KeepsOut.next | with_reducible exact h | (intro _) | (with_reducible apply runCommand_keeps) | (with_reducible apply Ans.ok_keeps)

theorem execMerSelect_keeps (a1 : Nat) (s : State) : KeepsOut (True, s) (execMerSelect a1 s) := by
  have h : Keeps (True, s) s := Keeps.refl _ _
  unfold execMerSelect
  repeat' first | with_reducible apply KeepsOut.next | with_reducible exact h | (intro _) | (extract_lets +onlyGivenNames sx; clear_value (hsx : sx = _); subst hsx) | (with_reducible apply runCommand_keeps) | (with_reducible apply Ans.code_keeps) | (with_reducible apply State.wr_keeps) | with_reducible apply Keeps.ite_ast

theorem execMerOutputs_keeps (a1 : Nat) (s : State) : KeepsOut (True, s) (execMerOutputs a1 s) := by
  have h : Keeps (True, s) s := Keeps.refl _ _
  unfold execMerOutputs
  repeat' first | with_reducible apply KeepsOut.next | with_reducible exact h | (intro _) | (with_reducible apply runCommand_keeps) | (with_reducible apply Ans.ok_keeps) | (with_reducible apply State.wr_keeps)

theorem execMerModel_keeps (a1 : Nat) (s : State) : KeepsOut (True, s) (execMerModel a1 s) := by
  have h : Keeps (True, s) s := Keeps.refl _ _
  unfold execMerModel
  repeat' first | with_reducible apply KeepsOut.next | with_reducible exact h | (intro _) | (with_reducible apply runCommand_keeps) | (with_reducible apply Ans.ok_keeps)

theorem execMerLeap_keeps (a1 : Nat) (s : State) : KeepsOut (True, s) (execMerLeap a1 s) := by
  have h : Keeps (True, s) s := Keeps.refl _ _
  unfold execMerLeap
  repeat' first | with_reducible apply KeepsOut.next | with_reducible exact h | (intro _) | (extract_lets +onlyGivenNames sx; clear_value (hsx : sx = _); subst hsx) | (with_reducible apply runCommand_keeps) | (with_reducible apply Ans.ok_keeps) | (with_reducible apply State.setMer_keeps) | (with_reducible apply State.wr_keeps)

theorem execMerBudget_keeps (a1 : Nat) (s : State) : KeepsOut (True, s) (execMerBudget a1 s) := by
  have h : Keeps (True, s) s := Keeps.refl _ _
  unfold execMerBudget
  repeat' first | with_reducible apply KeepsOut.next | with_reducible exact h | (intro _) | (with_reducible apply runCommand_keeps) | (with_reducible apply Ans.ok_keeps) | (with_reducible apply State.wr_keeps)

theorem execMerModelClear_keeps (a1 : Nat) (s : State) : KeepsOut (True, s) (execMerModelClear a1 s) := by
  have h : Keeps (True, s) s := Keeps.refl _ _
  unfold execMerModelClear
  repeat' first | with_reducible apply KeepsOut.next | with_reducible exact h | (intro _) | (extract_lets +onlyGivenNames sx; clear_value (hsx : sx = _); subst hsx) | (with_reducible apply runCommand_keeps) | (with_reducible apply Ans.code_keeps) | (with_reducible apply State.setMer_keeps) | (with_reducible apply State.modelClear_keeps) | with_reducible apply Keeps.ite_ast

theorem execMerCounters_keeps (a1 : Nat) (s : State) : KeepsOut (True, s) (execMerCounters a1 s) := by
  have h : Keeps (True, s) s := Keeps.refl _ _
  unfold execMerCounters
  repeat' first | with_reducible apply KeepsOut.next | with_reducible exact h | (intro _) | (with_reducible apply runCommand_keeps) | (with_reducible apply State.counters_keeps) | (with_reducible apply Ans.ok_keeps)

theorem execXtalGate_keeps (a1 : Option Int) (a2 : Int) (s : State) : KeepsOut (True, s) (execXtalGate a1 a2 s) := by
  have h : Keeps (True, s) s := Keeps.refl _ _
  unfold execXtalGate
  repeat' first | with_reducible apply KeepsOut.next | with_reducible apply KeepsOut.ite | with_reducible exact h | (extract_lets +onlyGivenNames sx; clear_value (hsx : sx = _); subst hsx) | (with_reducible apply State.put_keeps) | (with_reducible apply State.crystalFault_keeps) | simp only [Keeps.any] | refine Keeps.core ?_ rfl rfl rfl rfl (fun _ => rfl) rfl | split

theorem execXtalEdgeTimeout_keeps  (s : State) : KeepsOut (True, s) (execXtalEdgeTimeout s) := by
  have h : Keeps (True, s) s := Keeps.refl _ _
  unfold execXtalEdgeTimeout
  repeat' first | with_reducible apply KeepsOut.next | with_reducible apply KeepsOut.ite | with_reducible exact h | (with_reducible apply State.crystalFault_keeps)

theorem execGeneratorReferenceLoss_keeps (a1 : Nat) (s : State) : KeepsOut (True, s) (execGeneratorReferenceLoss a1 s) := by
  have h : Keeps (True, s) s := Keeps.refl _ _
  unfold execGeneratorReferenceLoss
  repeat' first | with_reducible apply KeepsOut.next | with_reducible apply KeepsOut.ite | with_reducible exact h | (with_reducible apply State.coastNow_keeps)

theorem execGeneratorLock_keeps (a1 : Nat) (s : State) : KeepsOut (True, s) (execGeneratorLock a1 s) := by
  have h : Keeps (True, s) s := Keeps.refl _ _
  unfold execGeneratorLock
  repeat' first | with_reducible apply KeepsOut.next | with_reducible apply KeepsOut.ite | with_reducible exact h | (extract_lets +onlyGivenNames sx; clear_value (hsx : sx = _); subst hsx) | (with_reducible apply State.seqAdd_keeps) | with_reducible apply Keeps.ite | simp only [Keeps.any] | refine Keeps.core ?_ rfl rfl rfl rfl (fun _ => rfl) rfl

theorem execCkiGateWrite_keeps (a1 : Master) (a2 : Nat) (a3 : Word) (s : State) : KeepsOut (True, s) (execCkiGateWrite a1 a2 a3 s) := by
  have h : Keeps (True, s) s := Keeps.refl _ _
  unfold execCkiGateWrite
  repeat' first | with_reducible apply KeepsOut.next | with_reducible apply KeepsOut.ite | with_reducible exact h | (with_reducible apply State.access_keeps)

theorem execSequencerRequestServe_keeps  (s : State) : KeepsOut (True, s) (execSequencerRequestServe s) := by
  have h : Keeps (True, s) s := Keeps.refl _ _
  unfold execSequencerRequestServe
  repeat' first | with_reducible apply KeepsOut.next | with_reducible exact h | (with_reducible apply State.seqStart_keeps)

theorem execAvsAck_keeps (a1 : Nat) (a2 : Nat) (s : State) : KeepsOut (True, s) (execAvsAck a1 a2 s) := by
  have h : Keeps (True, s) s := Keeps.refl _ _
  unfold execAvsAck
  repeat' first | with_reducible apply KeepsOut.next | with_reducible apply KeepsOut.ite | with_reducible exact h | (with_reducible apply State.reach_keeps) | (with_reducible apply State.bump_keeps) | (with_reducible apply State.railStep_keeps) | (with_reducible apply State.seqRaise_keeps) | (with_reducible apply State.seqLower_keeps) | with_reducible apply Keeps.ite | simp only [Keeps.any] | split

theorem execAvsAckTimeout_keeps  (s : State) : KeepsOut (True, s) (execAvsAckTimeout s) := by
  have h : Keeps (True, s) s := Keeps.refl _ _
  unfold execAvsAckTimeout
  repeat' first | with_reducible apply KeepsOut.next | with_reducible exact h | (with_reducible apply State.report_keeps) | (with_reducible apply State.bump_keeps) | (with_reducible apply State.reach_keeps) | (with_reducible apply State.put_keeps) | (with_reducible apply State.seqEnd_keeps) | simp only [Keeps.any] | split

theorem execFrequencyChangeRestart_keeps  (s : State) : KeepsOut (True, s) (execFrequencyChangeRestart s) := by
  have h : Keeps (True, s) s := Keeps.refl _ _
  unfold execFrequencyChangeRestart
  repeat' first | with_reducible apply KeepsOut.next | with_reducible exact h | with_reducible assumption | (intro _) | (with_reducible apply State.markLate_keeps) | (with_reducible apply State.bump_keeps) | (with_reducible apply State.setKhz_keeps) | (with_reducible apply State.seqFreq_keeps) | with_reducible refine Keeps.foldl _ ?_ ?_ | simp only [Keeps.any] | split

theorem execIslandPowerSwitchOpen_keeps (a1 : Nat) (s : State) : KeepsOut (True, s) (execIslandPowerSwitchOpen a1 s) := by
  have h : Keeps (True, s) s := Keeps.refl _ _
  unfold execIslandPowerSwitchOpen
  repeat' first | with_reducible apply KeepsOut.next | with_reducible apply KeepsOut.ite | with_reducible exact h | (with_reducible apply State.capCopied_keeps) | (with_reducible apply State.setStage_keeps)

theorem execIslandOff_keeps (a1 : Nat) (s : State) : KeepsOut (True, s) (execIslandOff a1 s) := by
  have h : Keeps (True, s) s := Keeps.refl _ _
  unfold execIslandOff
  repeat' first | with_reducible apply KeepsOut.next | with_reducible apply KeepsOut.ite | with_reducible exact h | (extract_lets +onlyGivenNames sx; clear_value (hsx : sx = _); subst hsx) | (with_reducible apply State.stageDone_keeps) | (with_reducible apply State.setPsw_keeps) | (with_reducible apply State.setStage_keeps) | (with_reducible apply State.bump_keeps) | with_reducible apply Keeps.ite | split

theorem execIslandPowerUpComplete_keeps (a1 : Nat) (s : State) : KeepsOut (True, s) (execIslandPowerUpComplete a1 s) := by
  have h : Keeps (True, s) s := Keeps.refl _ _
  unfold execIslandPowerUpComplete
  repeat' first | with_reducible apply KeepsOut.next | with_reducible apply KeepsOut.ite | with_reducible exact h | (extract_lets +onlyGivenNames sx; clear_value (hsx : sx = _); subst hsx) | (with_reducible apply State.islandInit_keeps) | (with_reducible apply State.setPsw_keeps) | (with_reducible apply State.setStage_keeps) | (with_reducible apply State.stageDone_keeps) | (with_reducible apply State.fitRails_keeps) | simp only [Keeps.any] | refine Keeps.core ?_ rfl rfl rfl rfl (fun _ => rfl) rfl | split

theorem execDormantPointOfNoReturn_keeps  (s : State) : KeepsOut (True, s) (execDormantPointOfNoReturn s) := by
  have h : Keeps (True, s) s := Keeps.refl _ _
  unfold execDormantPointOfNoReturn
  repeat' first | with_reducible apply KeepsOut.next | with_reducible apply KeepsOut.ite | with_reducible exact h | (extract_lets +onlyGivenNames sx; clear_value (hsx : sx = _); subst hsx) | (with_reducible apply State.dormDone_keeps) | (with_reducible apply State.capCopied_keeps) | (with_reducible apply State.stageAll_keeps) | simp only [Keeps.any] | refine Keeps.core ?_ rfl rfl rfl rfl (fun _ => rfl) rfl

theorem execDormantEntryComplete_keeps  (s : State) : KeepsOut (True, s) (execDormantEntryComplete s) := by
  have h : Keeps (True, s) s := Keeps.refl _ _
  unfold execDormantEntryComplete
  repeat' first | with_reducible apply KeepsOut.next | with_reducible apply KeepsOut.ite | with_reducible exact h | (with_reducible apply State.stagesDone_keeps) | (with_reducible apply State.allOpen_keeps) | (with_reducible apply State.resetKeys_keeps) | (with_reducible apply State.stageAll_keeps) | (with_reducible apply State.enter_keeps) | (with_reducible apply State.dormAt_keeps)

theorem execWakeEvent_keeps (a1 : Nat) (s : State) : KeepsOut (True, s) (execWakeEvent a1 s) := by
  have h : Keeps (True, s) s := Keeps.refl _ _
  unfold execWakeEvent
  repeat' first | with_reducible apply KeepsOut.next | with_reducible apply KeepsOut.ite | with_reducible exact h | (with_reducible apply State.wake_keeps)

theorem execDormantExitPowerUp_keeps  (s : State) : KeepsOut (True, s) (execDormantExitPowerUp s) := by
  have h : Keeps (True, s) s := Keeps.refl _ _
  unfold execDormantExitPowerUp
  repeat' first | with_reducible apply KeepsOut.next | with_reducible apply KeepsOut.ite | with_reducible exact h | (with_reducible apply State.setDorm_keeps) | (with_reducible apply State.allPowered_keeps)

theorem execDormantExitComplete_keeps  (s : State) : KeepsOut (True, s) (execDormantExitComplete s) := by
  have h : Keeps (True, s) s := Keeps.refl _ _
  unfold execDormantExitComplete
  repeat' first | with_reducible apply KeepsOut.next | with_reducible apply KeepsOut.ite | with_reducible exact h | with_reducible assumption | (intro _) | (extract_lets +onlyGivenNames sx; clear_value (hsx : sx = _); subst hsx) | (with_reducible apply State.lanesMove_keeps) | (with_reducible apply State.enter_keeps) | (with_reducible apply State.pairResumes_keeps) | (with_reducible apply State.strRestart_keeps) | with_reducible apply Keeps.ite | with_reducible refine Keeps.foldl _ ?_ ?_ | simp only [Keeps.any] | refine Keeps.core ?_ rfl rfl rfl rfl (fun _ => rfl) rfl

theorem execClkStatus_keeps (a1 : Nat) (s : State) : KeepsOut (True, s) (execClkStatus a1 s) := by
  have h : Keeps (True, s) s := Keeps.refl _ _
  unfold execClkStatus
  repeat' first | with_reducible apply KeepsOut.next | with_reducible exact h | (intro _) | (with_reducible apply runCommand_keeps) | (with_reducible apply Ans.ok_keeps)

theorem execClkGate_keeps (a1 : Nat) (s : State) : KeepsOut (True, s) (execClkGate a1 s) := by
  have h : Keeps (True, s) s := Keeps.refl _ _
  unfold execClkGate
  repeat' first | with_reducible apply KeepsOut.next | with_reducible exact h | (intro _) | (extract_lets +onlyGivenNames sx; clear_value (hsx : sx = _); subst hsx) | (with_reducible apply runCommand_keeps) | (with_reducible apply Ans.code_keeps) | (with_reducible apply State.gateRefuse_keeps) | (with_reducible apply State.gateTaken_keeps) | with_reducible apply Keeps.ite_ast

theorem execClkFreq_keeps (a1 : Nat) (s : State) : KeepsOut (True, s) (execClkFreq a1 s) := by
  have h : Keeps (True, s) s := Keeps.refl _ _
  unfold execClkFreq
  repeat' first | with_reducible apply KeepsOut.next | with_reducible exact h | (intro _) | (extract_lets +onlyGivenNames sx; clear_value (hsx : sx = _); subst hsx) | (with_reducible apply runCommand_keeps) | (with_reducible apply Ans.code_keeps) | (with_reducible apply State.seqAdd_keeps) | with_reducible apply Keeps.ite_ast | with_reducible apply Ans.st_acc

theorem execPwrStatus_keeps (a1 : Nat) (s : State) : KeepsOut (True, s) (execPwrStatus a1 s) := by
  have h : Keeps (True, s) s := Keeps.refl _ _
  unfold execPwrStatus
  repeat' first | with_reducible apply KeepsOut.next | with_reducible exact h | (intro _) | (with_reducible apply runCommand_keeps) | (with_reducible apply Ans.ok_keeps)

theorem execPwrOp_keeps (a1 : Nat) (s : State) : KeepsOut (True, s) (execPwrOp a1 s) := by
  have h : Keeps (True, s) s := Keeps.refl _ _
  unfold execPwrOp
  repeat' first | with_reducible apply KeepsOut.next | with_reducible exact h | with_reducible assumption | (intro _) | (extract_lets +onlyGivenNames sx; clear_value (hsx : sx = _); subst hsx) | (with_reducible apply runCommand_keeps) | (with_reducible apply Ans.code_keeps) | (with_reducible apply State.put_keeps) | (with_reducible apply State.seqAdd_keeps) | (with_reducible apply State.dropOverride_keeps) | with_reducible apply Keeps.ite_ast | with_reducible refine Keeps.foldl _ ?_ ?_ | with_reducible apply Ans.st_acc

theorem execPwrIsland_keeps (a1 : Nat) (s : State) : KeepsOut (True, s) (execPwrIsland a1 s) := by
  have h : Keeps (True, s) s := Keeps.refl _ _
  unfold execPwrIsland
  repeat' first | with_reducible apply KeepsOut.next | with_reducible exact h | with_reducible assumption | (intro _) | (extract_lets +onlyGivenNames sx; clear_value (hsx : sx = _); subst hsx) | (with_reducible apply runCommand_keeps) | (with_reducible apply Ans.code_keeps) | (with_reducible apply State.setStage_keeps) | (with_reducible apply State.portAbandon_keeps) | with_reducible apply Keeps.ite | with_reducible apply Keeps.ite_ast | with_reducible refine Keeps.foldl _ ?_ ?_ | simp only [Keeps.any] | refine Keeps.core ?_ rfl rfl rfl rfl (fun _ => rfl) rfl | with_reducible apply Ans.st_acc | split

theorem execPwrWake_keeps (a1 : Nat) (s : State) : KeepsOut (True, s) (execPwrWake a1 s) := by
  have h : Keeps (True, s) s := Keeps.refl _ _
  unfold execPwrWake
  repeat' first | with_reducible apply KeepsOut.next | with_reducible exact h | (intro _) | (with_reducible apply runCommand_keeps) | (with_reducible apply Ans.ok_keeps) | (with_reducible apply State.wr_keeps)

theorem execPwrAvsRead_keeps (a1 : Nat) (a2 : Option (Nat × Nat × Int)) (s : State) : KeepsOut (True, s) (execPwrAvsRead a1 a2 s) := by
  have h : Keeps (True, s) s := Keeps.refl _ _
  unfold execPwrAvsRead
  repeat' first | with_reducible apply KeepsOut.next | with_reducible exact h | (intro _) | (with_reducible apply runCommand_keeps) | (with_reducible apply Ans.ok_keeps) | (with_reducible apply Ans.code_keeps) | split

theorem execPacketInjection_keeps (a1 : Nat) (a2 : Master) (a3 : Bool) (a4 : Nat) (a5 : Nat) (a6 : Option Nat) (a7 : List Byte) (s : State) : KeepsOut (True, s) (execPacketInjection a1 a2 a3 a4 a5 a6 a7 s) := by
  have h : Keeps (True, s) s := Keeps.refl _ _
  unfold execPacketInjection
  repeat' first | with_reducible apply KeepsOut.next | with_reducible apply KeepsOut.ite | with_reducible exact h | (extract_lets +onlyGivenNames sx; clear_value (hsx : sx = _); subst hsx) | (with_reducible apply State.ownAnswer_keeps) | (with_reducible apply State.bump_keeps) | (with_reducible apply State.sendPkt_keeps) | simp only [Keeps.any] | refine Keeps.core ?_ rfl rfl rfl rfl (fun _ => rfl) rfl | split

theorem execGraticuleFlitHop_keeps (a1 : Nat) (a2 : Nat) (s : State) : KeepsOut (True, s) (execGraticuleFlitHop a1 a2 s) := by
  have h : Keeps (True, s) s := Keeps.refl _ _
  unfold execGraticuleFlitHop
  repeat' first | with_reducible apply KeepsOut.next | with_reducible apply KeepsOut.ite | with_reducible exact h | (with_reducible apply State.niServe_keeps) | (with_reducible apply State.portServe_keeps)

theorem execRequestAtDestination_keeps (a1 : Nat) (a2 : EccSeen) (a3 : ExtRead) (s : State) : KeepsOut (True, s) (execRequestAtDestination a1 a2 a3 s) := by
  have h : Keeps (True, s) s := Keeps.refl _ _
  unfold execRequestAtDestination
  repeat' first | with_reducible apply KeepsOut.next | with_reducible exact h | (extract_lets +onlyGivenNames sx; clear_value (hsx : sx = _); subst hsx) | (with_reducible apply State.dropArrived_keeps) | (with_reducible apply State.respond_keeps) | (with_reducible apply State.bump_keeps) | (with_reducible apply State.deliverPkt_keeps) | (with_reducible apply State.holdRequest_keeps) | (with_reducible apply State.stageDone_keeps) | (with_reducible apply State.setStage_keeps) | with_reducible apply Keeps.ite | simp only [Keeps.any] | split

theorem execResponseAtSource_keeps (a1 : Nat) (s : State) : KeepsOut (True, s) (execResponseAtSource a1 s) := by
  have h : Keeps (True, s) s := Keeps.refl _ _
  unfold execResponseAtSource
  repeat' first | with_reducible apply KeepsOut.next | with_reducible apply KeepsOut.ite | with_reducible exact h | (extract_lets +onlyGivenNames sx; clear_value (hsx : sx = _); subst hsx) | (with_reducible apply State.dropArrived_keeps) | simp only [Keeps.any] | refine Keeps.core ?_ rfl rfl rfl rfl (fun _ => rfl) rfl | split

theorem execRouterSelfGate_keeps (a1 : Nat) (s : State) : KeepsOut (True, s) (execRouterSelfGate a1 s) := by
  have h : Keeps (True, s) s := Keeps.refl _ _
  unfold execRouterSelfGate
  repeat' first | with_reducible apply KeepsOut.next | with_reducible apply KeepsOut.ite | with_reducible exact h | (extract_lets +onlyGivenNames sx; clear_value (hsx : sx = _); subst hsx) | simp only [Keeps.any] | refine Keeps.core ?_ rfl rfl rfl rfl (fun _ => rfl) rfl

theorem execLinkCrcError_keeps (a1 : Nat) (a2 : Nat) (s : State) : KeepsOut (True, s) (execLinkCrcError a1 a2 s) := by
  have h : Keeps (True, s) s := Keeps.refl _ _
  unfold execLinkCrcError
  repeat' first | with_reducible apply KeepsOut.next | with_reducible apply KeepsOut.ite | with_reducible exact h | (extract_lets +onlyGivenNames sx; clear_value (hsx : sx = _); subst hsx) | (with_reducible apply State.report_keeps) | (with_reducible apply State.bump_keeps) | (with_reducible apply State.linkFail_keeps) | simp only [Keeps.any] | refine Keeps.core ?_ rfl rfl rfl rfl (fun _ => rfl) rfl

theorem execRouteChangeEffect_keeps (a1 : Nat) (a2 : Nat) (s : State) : KeepsOut (True, s) (execRouteChangeEffect a1 a2 s) := by
  have h : Keeps (True, s) s := Keeps.refl _ _
  unfold execRouteChangeEffect
  repeat' first | with_reducible apply KeepsOut.next | with_reducible apply KeepsOut.ite | with_reducible exact h | (extract_lets +onlyGivenNames sx; clear_value (hsx : sx = _); subst hsx) | (with_reducible apply State.completeOpt_keeps) | (with_reducible apply State.setRoute_keeps) | simp only [Keeps.any] | refine Keeps.core ?_ rfl rfl rfl rfl (fun _ => rfl) rfl | split

theorem execLinkTestEnd_keeps (a1 : Bool) (s : State) : KeepsOut (True, s) (execLinkTestEnd a1 s) := by
  have h : Keeps (True, s) s := Keeps.refl _ _
  unfold execLinkTestEnd
  repeat' first | with_reducible apply KeepsOut.next | with_reducible apply KeepsOut.ite | with_reducible exact h | (with_reducible apply State.testFinish_keeps) | split

theorem execGrtStatus_keeps (a1 : Nat) (s : State) : KeepsOut (True, s) (execGrtStatus a1 s) := by
  have h : Keeps (True, s) s := Keeps.refl _ _
  unfold execGrtStatus
  repeat' first | with_reducible apply KeepsOut.next | with_reducible exact h | (intro _) | (with_reducible apply runCommand_keeps) | (with_reducible apply Ans.ok_keeps)

theorem execGrtLinkTest_keeps (a1 : Nat) (s : State) : KeepsOut (True, s) (execGrtLinkTest a1 s) := by
  have h : Keeps (True, s) s := Keeps.refl _ _
  unfold execGrtLinkTest
  repeat' first | with_reducible apply KeepsOut.next | with_reducible exact h | (intro _) | (extract_lets +onlyGivenNames sx; clear_value (hsx : sx = _); subst hsx) | (with_reducible apply runCommand_keeps) | (with_reducible apply Ans.code_keeps) | (with_reducible apply State.testStart_keeps) | with_reducible apply Keeps.ite_ast | with_reducible apply Ans.st_acc

theorem execGrtLinkRestore_keeps (a1 : Nat) (s : State) : KeepsOut (True, s) (execGrtLinkRestore a1 s) := by
  have h : Keeps (True, s) s := Keeps.refl _ _
  unfold execGrtLinkRestore
  repeat' first | with_reducible apply KeepsOut.next | with_reducible exact h | (intro _) | (extract_lets +onlyGivenNames sx; clear_value (hsx : sx = _); subst hsx) | (with_reducible apply runCommand_keeps) | (with_reducible apply Ans.code_keeps) | (with_reducible apply State.testStart_keeps) | with_reducible apply Keeps.ite_ast | with_reducible apply Ans.st_acc

theorem execGrtRouteRead_keeps (a1 : Nat) (s : State) : KeepsOut (True, s) (execGrtRouteRead a1 s) := by
  have h : Keeps (True, s) s := Keeps.refl _ _
  unfold execGrtRouteRead
  repeat' first | with_reducible apply KeepsOut.next | with_reducible exact h | (intro _) | (with_reducible apply runCommand_keeps) | (with_reducible apply Ans.ok_keeps)

theorem execGrtRouteWrite_keeps (a1 : Nat) (s : State) : KeepsOut (True, s) (execGrtRouteWrite a1 s) := by
  have h : Keeps (True, s) s := Keeps.refl _ _
  unfold execGrtRouteWrite
  repeat' first | with_reducible apply KeepsOut.next | with_reducible exact h | (intro _) | (extract_lets +onlyGivenNames sx; clear_value (hsx : sx = _); subst hsx) | (with_reducible apply runCommand_keeps) | (with_reducible apply State.addChanges_keeps) | with_reducible apply Ans.st_acc

theorem execGrtCounters_keeps (a1 : Nat) (s : State) : KeepsOut (True, s) (execGrtCounters a1 s) := by
  have h : Keeps (True, s) s := Keeps.refl _ _
  unfold execGrtCounters
  repeat' first | with_reducible apply KeepsOut.next | with_reducible exact h | (intro _) | (extract_lets +onlyGivenNames sx; clear_value (hsx : sx = _); subst hsx) | (with_reducible apply runCommand_keeps) | (with_reducible apply State.counters_keeps) | (with_reducible apply Ans.ok_keeps)

theorem execStoreTierAccess_keeps (a1 : MemReq) (a2 : EccSeen) (s : State) : KeepsOut (True, s) (execStoreTierAccess a1 a2 s) := by
  have h : Keeps (True, s) s := Keeps.refl _ _
  unfold execStoreTierAccess
  repeat' first | with_reducible apply KeepsOut.next | with_reducible apply KeepsOut.ite | with_reducible exact h | (with_reducible apply State.storeRequest_keeps)

theorem execStoreScrubPass_keeps (a1 : Nat) (a2 : Nat) (a3 : List Nat) (s : State) : KeepsOut (True, s) (execStoreScrubPass a1 a2 a3 s) := by
  have h : Keeps (True, s) s := Keeps.refl _ _
  unfold execStoreScrubPass
  repeat' first | with_reducible apply KeepsOut.next | with_reducible apply KeepsOut.ite | with_reducible exact h | with_reducible assumption | (intro _) | (extract_lets +onlyGivenNames sx; clear_value (hsx : sx = _); subst hsx) | (with_reducible apply State.reach_keeps) | (with_reducible apply State.storeCe_keeps) | (with_reducible apply State.storeUe_keeps) | (with_reducible apply State.bump_keeps) | with_reducible refine Keeps.foldl _ ?_ ?_ | simp only [Keeps.any] | refine Keeps.core ?_ rfl rfl rfl rfl (fun _ => rfl) rfl

theorem execSpareRowRemap_keeps  (s : State) : KeepsOut (True, s) (execSpareRowRemap s) := by
  have h : Keeps (True, s) s := Keeps.refl _ _
  unfold execSpareRowRemap
  repeat' first | with_reducible apply KeepsOut.next | with_reducible exact h | (extract_lets +onlyGivenNames sx; clear_value (hsx : sx = _); subst hsx) | (with_reducible apply State.softRepair_keeps) | (with_reducible apply State.wr_keeps) | (with_reducible apply State.outcomePart_keeps) | with_reducible apply Keeps.ite | simp only [Keeps.any] | refine Keeps.core ?_ rfl rfl rfl rfl (fun _ => rfl) rfl | split

theorem execExternalAccess_keeps (a1 : MemReq) (a2 : ExtRead) (s : State) : KeepsOut (True, s) (execExternalAccess a1 a2 s) := by
  have h : Keeps (True, s) s := Keeps.refl _ _
  unfold execExternalAccess
  repeat' first | with_reducible apply KeepsOut.next | with_reducible apply KeepsOut.ite | with_reducible exact h | (with_reducible apply State.extRequest_keeps)

theorem execProtectedRead_keeps (a1 : List GuardSeen) (s : State) : KeepsOut (True, s) (execProtectedRead a1 s) := by
  have h : Keeps (True, s) s := Keeps.refl _ _
  unfold execProtectedRead
  repeat' first | with_reducible apply KeepsOut.next | with_reducible exact h | (with_reducible apply State.guardNext_keeps)

theorem execProtectedWrite_keeps (a1 : List GuardSeen) (s : State) : KeepsOut (True, s) (execProtectedWrite a1 s) := by
  have h : Keeps (True, s) s := Keeps.refl _ _
  unfold execProtectedWrite
  repeat' first | with_reducible apply KeepsOut.next | with_reducible exact h | (with_reducible apply State.guardNext_keeps)

theorem execCounterCacheEviction_keeps (a1 : Nat) (a2 : Nat) (a3 : GuardSeen) (s : State) : KeepsOut (True, s) (execCounterCacheEviction a1 a2 a3 s) := by
  have h : Keeps (True, s) s := Keeps.refl _ _
  unfold execCounterCacheEviction
  repeat' first | with_reducible apply KeepsOut.next | with_reducible apply KeepsOut.ite | with_reducible apply Got.settle_kept | with_reducible exact h | (with_reducible apply State.evict_keeps) | (with_reducible apply State.setBacked_keeps) | (with_reducible apply State.setCached_keeps) | split

theorem execMemStatus_keeps (a1 : Nat) (s : State) : KeepsOut (True, s) (execMemStatus a1 s) := by
  have h : Keeps (True, s) s := Keeps.refl _ _
  unfold execMemStatus
  repeat' first | with_reducible apply KeepsOut.next | with_reducible exact h | (intro _) | (with_reducible apply runCommand_keeps) | (with_reducible apply Ans.ok_keeps)

theorem execMemCounters_keeps (a1 : Nat) (s : State) : KeepsOut (True, s) (execMemCounters a1 s) := by
  have h : Keeps (True, s) s := Keeps.refl _ _
  unfold execMemCounters
  repeat' first | with_reducible apply KeepsOut.next | with_reducible exact h | with_reducible assumption | (intro _) | (extract_lets +onlyGivenNames sx; clear_value (hsx : sx = _); subst hsx) | (with_reducible apply runCommand_keeps) | (with_reducible apply State.wr_keeps) | (with_reducible apply Ans.ok_keeps) | with_reducible apply Keeps.ite | with_reducible refine Keeps.foldl _ ?_ ?_

theorem execMgdStatus_keeps (a1 : Nat) (s : State) : KeepsOut (True, s) (execMgdStatus a1 s) := by
  have h : Keeps (True, s) s := Keeps.refl _ _
  unfold execMgdStatus
  repeat' first | with_reducible apply KeepsOut.next | with_reducible exact h | (intro _) | (with_reducible apply runCommand_keeps) | (with_reducible apply Ans.ok_keeps)

theorem execMgdPartition_keeps (a1 : Nat) (s : State) : KeepsOut (True, s) (execMgdPartition a1 s) := by
  have h : Keeps (True, s) s := Keeps.refl _ _
  unfold execMgdPartition
  repeat' first | with_reducible apply KeepsOut.next | with_reducible exact h | (intro _) | (extract_lets +onlyGivenNames sx; clear_value (hsx : sx = _); subst hsx) | (with_reducible apply runCommand_keeps) | (with_reducible apply Ans.code_keeps) | (with_reducible apply State.put_keeps) | with_reducible apply Keeps.ite_ast

theorem execMgdCounters_keeps (a1 : Nat) (s : State) : KeepsOut (True, s) (execMgdCounters a1 s) := by
  have h : Keeps (True, s) s := Keeps.refl _ _
  unfold execMgdCounters
  repeat' first | with_reducible apply KeepsOut.next | with_reducible exact h | (intro _) | (extract_lets +onlyGivenNames sx; clear_value (hsx : sx = _); subst hsx) | (with_reducible apply runCommand_keeps) | (with_reducible apply State.counters_keeps) | (with_reducible apply Ans.ok_keeps)

theorem execPcieBarRequest_keeps (a1 : BarReq) (s : State) : KeepsOut (True, s) (execPcieBarRequest a1 s) := by
  have h : Keeps (True, s) s := Keeps.refl _ _
  unfold execPcieBarRequest
  repeat' first | with_reducible apply KeepsOut.next | with_reducible apply KeepsOut.ite | with_reducible exact h | (with_reducible apply State.barAccess_keeps) | (with_reducible apply State.tapAccess_keeps) | (with_reducible apply State.barUr_keeps)

theorem execBar4Read_keeps (a1 : BarReq) (a2 : EccSeen) (s : State) : KeepsOut (True, s) (execBar4Read a1 a2 s) := by
  have h : Keeps (True, s) s := Keeps.refl _ _
  unfold execBar4Read
  repeat' first | with_reducible apply KeepsOut.next | with_reducible apply KeepsOut.ite | with_reducible exact h | (with_reducible apply State.tapAccess_keeps)

theorem execMsixUnmask_keeps (a1 : Nat) (s : State) : KeepsOut (True, s) (execMsixUnmask a1 s) := by
  have h : Keeps (True, s) s := Keeps.refl _ _
  unfold execMsixUnmask
  repeat' first | with_reducible apply KeepsOut.next | with_reducible apply KeepsOut.ite | with_reducible exact h | (with_reducible apply State.msixWrite_keeps)

theorem execDmaQtailWrite_keeps (a1 : Master) (a2 : Nat) (a3 : Word) (s : State) : KeepsOut (True, s) (execDmaQtailWrite a1 a2 a3 s) := by
  have h : Keeps (True, s) s := Keeps.refl _ _
  unfold execDmaQtailWrite
  repeat' first | with_reducible apply KeepsOut.next | with_reducible apply KeepsOut.ite | with_reducible exact h | (with_reducible apply State.access_keeps)

theorem execDmaQctrlRun_keeps (a1 : Master) (a2 : Nat) (a3 : Word) (s : State) : KeepsOut (True, s) (execDmaQctrlRun a1 a2 a3 s) := by
  have h : Keeps (True, s) s := Keeps.refl _ _
  unfold execDmaQctrlRun
  repeat' first | with_reducible apply KeepsOut.next | with_reducible apply KeepsOut.ite | with_reducible exact h | (with_reducible apply State.access_keeps)

theorem execDmaQctrlStop_keeps (a1 : Master) (a2 : Nat) (a3 : Word) (s : State) : KeepsOut (True, s) (execDmaQctrlStop a1 a2 a3 s) := by
  have h : Keeps (True, s) s := Keeps.refl _ _
  unfold execDmaQctrlStop
  repeat' first | with_reducible apply KeepsOut.next | with_reducible apply KeepsOut.ite | with_reducible exact h | (with_reducible apply State.access_keeps)

theorem execDmaDescriptorStart_keeps (a1 : Option (List Word)) (s : State) : KeepsOut (True, s) (execDmaDescriptorStart a1 s) := by
  have h : Keeps (True, s) s := Keeps.refl _ _
  unfold execDmaDescriptorStart
  repeat' first | with_reducible apply KeepsOut.next | with_reducible exact h | (with_reducible apply State.setDmaQ_keeps) | (with_reducible apply State.put_keeps) | simp only [Keeps.any] | refine Keeps.core ?_ rfl rfl rfl rfl (fun _ => rfl) rfl | split

theorem execDmaDescriptorComplete_keeps (a1 : Nat) (a2 : DmaSeen) (s : State) : KeepsOut (True, s) (execDmaDescriptorComplete a1 a2 s) := by
  have h : Keeps (True, s) s := Keeps.refl _ _
  unfold execDmaDescriptorComplete
  repeat' first | with_reducible apply KeepsOut.next | with_reducible apply KeepsOut.ite | with_reducible exact h | (with_reducible apply State.dmaWork_keeps) | (with_reducible apply State.dmaFinish_keeps) | (with_reducible apply State.aer_keeps) | (with_reducible apply State.dmaKeep_keeps) | simp only [Keeps.any] | split

theorem execD2hIdleTimeout_keeps (a1 : Nat) (s : State) : KeepsOut (True, s) (execD2hIdleTimeout a1 s) := by
  have h : Keeps (True, s) s := Keeps.refl _ _
  unfold execD2hIdleTimeout
  repeat' first | with_reducible apply KeepsOut.next | with_reducible apply KeepsOut.ite | with_reducible exact h | (with_reducible apply State.dmaEnd_keeps) | (with_reducible apply State.reach_keeps) | split

theorem execHostReadTimeout_keeps (a1 : Nat) (a2 : DmaSeen) (s : State) : KeepsOut (True, s) (execHostReadTimeout a1 a2 s) := by
  have h : Keeps (True, s) s := Keeps.refl _ _
  unfold execHostReadTimeout
  repeat' first | with_reducible apply KeepsOut.next | with_reducible apply KeepsOut.ite | with_reducible exact h | (with_reducible apply State.dmaWork_keeps) | (with_reducible apply State.dmaFinish_keeps) | (with_reducible apply State.aer_keeps) | simp only [Keeps.any] | split

theorem execDmaStatus_keeps (a1 : Nat) (s : State) : KeepsOut (True, s) (execDmaStatus a1 s) := by
  have h : Keeps (True, s) s := Keeps.refl _ _
  unfold execDmaStatus
  repeat' first | with_reducible apply KeepsOut.next | with_reducible exact h | (intro _) | (extract_lets +onlyGivenNames sx; clear_value (hsx : sx = _); subst hsx) | (with_reducible apply runCommand_keeps) | (with_reducible apply Ans.ok_keeps)

theorem execDmaQueue_keeps (a1 : Nat) (s : State) : KeepsOut (True, s) (execDmaQueue a1 s) := by
  have h : Keeps (True, s) s := Keeps.refl _ _
  unfold execDmaQueue
  repeat' first | with_reducible apply KeepsOut.next | with_reducible exact h | (intro _) | (extract_lets +onlyGivenNames sx; clear_value (hsx : sx = _); subst hsx) | (with_reducible apply runCommand_keeps) | (with_reducible apply Ans.code_keeps) | (with_reducible apply State.wr_keeps) | (with_reducible apply State.setQState_keeps) | with_reducible apply Keeps.ite_ast

theorem execDmaCounters_keeps (a1 : Nat) (s : State) : KeepsOut (True, s) (execDmaCounters a1 s) := by
  have h : Keeps (True, s) s := Keeps.refl _ _
  unfold execDmaCounters
  repeat' first | with_reducible apply KeepsOut.next | with_reducible exact h | (intro _) | (extract_lets +onlyGivenNames sx; clear_value (hsx : sx = _); subst hsx) | (with_reducible apply runCommand_keeps) | (with_reducible apply State.counters_keeps) | (with_reducible apply Ans.ok_keeps)

theorem execDmaLink_keeps (a1 : Nat) (s : State) : KeepsOut (True, s) (execDmaLink a1 s) := by
  have h : Keeps (True, s) s := Keeps.refl _ _
  unfold execDmaLink
  repeat' first | with_reducible apply KeepsOut.next | with_reducible exact h | (intro _) | (extract_lets +onlyGivenNames sx; clear_value (hsx : sx = _); subst hsx) | (with_reducible apply runCommand_keeps) | (with_reducible apply State.bump_keeps) | (with_reducible apply State.pcieDown_keeps) | simp only [Keeps.any] | refine Keeps.core ?_ rfl rfl rfl rfl (fun _ => rfl) rfl | with_reducible apply Ans.st_acc

theorem execDmaLinkRetrained_keeps (a1 : Nat) (a2 : Nat) (s : State) : KeepsOut (True, s) (execDmaLinkRetrained a1 a2 s) := by
  have h : Keeps (True, s) s := Keeps.refl _ _
  unfold execDmaLinkRetrained
  repeat' first | with_reducible apply KeepsOut.next | with_reducible apply KeepsOut.ite | with_reducible exact h | with_reducible assumption | (intro _) | (with_reducible apply State.pcieUp_keeps) | (with_reducible apply State.complete_keeps) | with_reducible refine Keeps.foldl _ ?_ ?_

theorem execYarnCodewordSend_keeps (a1 : Nat) (s : State) : KeepsOut (True, s) (execYarnCodewordSend a1 s) := by
  have h : Keeps (True, s) s := Keeps.refl _ _
  unfold execYarnCodewordSend
  repeat' first | with_reducible apply KeepsOut.next | with_reducible apply KeepsOut.ite | with_reducible exact h | with_reducible assumption | (intro _) | (extract_lets +onlyGivenNames sx; clear_value (hsx : sx = _); subst hsx) | (with_reducible apply State.yarnPassAll_keeps) | (with_reducible apply State.setYport_keeps) | (with_reducible apply State.bump_keeps) | (with_reducible apply State.yarnDiscard_keeps) | (with_reducible apply State.yarnFill_keeps) | (with_reducible apply State.yarnUnacked_keeps) | with_reducible apply Keeps.ite2 | with_reducible refine Keeps.foldl _ ?_ ?_ | simp only [Keeps.any] | split

theorem execYarnCodewordReceived_keeps (a1 : Nat) (a2 : YarnCodeword) (s : State) : KeepsOut (True, s) (execYarnCodewordReceived a1 a2 s) := by
  have h : Keeps (True, s) s := Keeps.refl _ _
  unfold execYarnCodewordReceived
  repeat' first | with_reducible apply KeepsOut.next | with_reducible apply KeepsOut.ite | with_reducible exact h | with_reducible assumption | (intro _) | (extract_lets +onlyGivenNames sx; clear_value (hsx : sx = _); subst hsx) | (with_reducible apply State.setYport_keeps) | (with_reducible apply State.bump_keeps) | (with_reducible apply State.yarnAck_keeps) | (with_reducible apply State.yarnDeliver_keeps) | with_reducible apply Keeps.ite | with_reducible refine Keeps.foldl _ ?_ ?_

theorem execYarnReplayTimeout_keeps (a1 : Nat) (s : State) : KeepsOut (True, s) (execYarnReplayTimeout a1 s) := by
  have h : Keeps (True, s) s := Keeps.refl _ _
  unfold execYarnReplayTimeout
  repeat' first | with_reducible apply KeepsOut.next | with_reducible apply KeepsOut.ite | with_reducible exact h | (with_reducible apply State.yarnReplay_keeps) | (with_reducible apply State.reach_keeps)

theorem execYarnTrainingFrame_keeps (a1 : Nat) (a2 : YarnFrame) (s : State) : KeepsOut (True, s) (execYarnTrainingFrame a1 a2 s) := by
  have h : Keeps (True, s) s := Keeps.refl _ _
  unfold execYarnTrainingFrame
  repeat' first | with_reducible apply KeepsOut.next | with_reducible apply KeepsOut.ite | with_reducible exact h | (with_reducible apply State.yarnFrameSent_keeps) | (with_reducible apply State.yarnFrameGood_keeps) | (with_reducible apply State.setYport_keeps) | with_reducible apply Keeps.ite

theorem execYarnPortUp_keeps (a1 : Nat) (s : State) : KeepsOut (True, s) (execYarnPortUp a1 s) := by
  have h : Keeps (True, s) s := Keeps.refl _ _
  unfold execYarnPortUp
  repeat' first | with_reducible apply KeepsOut.next | with_reducible apply KeepsOut.ite | with_reducible exact h | with_reducible assumption | (intro _) | (extract_lets +onlyGivenNames sx; clear_value (hsx : sx = _); subst hsx) | (with_reducible apply State.yarnLost_keeps) | (with_reducible apply State.setYport_keeps) | (with_reducible apply State.laneUpNow_keeps) | (with_reducible apply State.put_keeps) | (with_reducible apply State.lanesDone_keeps) | with_reducible apply Keeps.ite | with_reducible refine Keeps.foldl _ ?_ ?_

theorem execYarnPortDown_keeps (a1 : Nat) (s : State) : KeepsOut (True, s) (execYarnPortDown a1 s) := by
  have h : Keeps (True, s) s := Keeps.refl _ _
  unfold execYarnPortDown
  repeat' first | with_reducible apply KeepsOut.next | with_reducible exact h | (with_reducible apply State.yarnLost_keeps) | with_reducible apply Keeps.ite

theorem execYarnTimeUnitSend_keeps (a1 : Nat) (a2 : Nat) (s : State) : KeepsOut (True, s) (execYarnTimeUnitSend a1 a2 s) := by
  have h : Keeps (True, s) s := Keeps.refl _ _
  unfold execYarnTimeUnitSend
  repeat' first | with_reducible apply KeepsOut.next | with_reducible exact h | (with_reducible apply State.yarnTime_keeps)

theorem execYarnTimeUnitReceived_keeps (a1 : Nat) (a2 : Nat) (s : State) : KeepsOut (True, s) (execYarnTimeUnitReceived a1 a2 s) := by
  have h : Keeps (True, s) s := Keeps.refl _ _
  unfold execYarnTimeUnitReceived
  repeat' first | with_reducible apply KeepsOut.next | with_reducible apply KeepsOut.ite | with_reducible exact h | (extract_lets +onlyGivenNames sx; clear_value (hsx : sx = _); subst hsx) | (with_reducible apply State.setYport_keeps) | (with_reducible apply State.wr_keeps) | simp only [Keeps.any] | split

theorem execBcastReceived_keeps (a1 : Nat) (s : State) : KeepsOut (True, s) (execBcastReceived a1 s) := by
  have h : Keeps (True, s) s := Keeps.refl _ _
  unfold execBcastReceived
  repeat' first | with_reducible apply KeepsOut.next | with_reducible apply KeepsOut.ite | with_reducible exact h | (extract_lets +onlyGivenNames sx; clear_value (hsx : sx = _); subst hsx) | (with_reducible apply State.setYport_keeps) | (with_reducible apply State.yarnTime_keeps) | (with_reducible apply State.bump_keeps) | (with_reducible apply State.bcastAdd_keeps) | with_reducible apply Keeps.ite | simp only [Keeps.any] | refine Keeps.core ?_ rfl rfl rfl rfl (fun _ => rfl) rfl | split

theorem execHeartbeatSend_keeps  (s : State) : KeepsOut (True, s) (execHeartbeatSend s) := by
  have h : Keeps (True, s) s := Keeps.refl _ _
  unfold execHeartbeatSend
  repeat' first | with_reducible apply KeepsOut.next | with_reducible apply KeepsOut.ite | with_reducible exact h | (extract_lets +onlyGivenNames sx; clear_value (hsx : sx = _); subst hsx) | (with_reducible apply State.yarnTime_keeps) | with_reducible apply Keeps.ite | split

theorem execHeartbeatReceived_keeps (a1 : Nat) (s : State) : KeepsOut (True, s) (execHeartbeatReceived a1 s) := by
  have h : Keeps (True, s) s := Keeps.refl _ _
  unfold execHeartbeatReceived
  repeat' first | with_reducible apply KeepsOut.next | with_reducible apply KeepsOut.ite | with_reducible exact h | (extract_lets +onlyGivenNames sx; clear_value (hsx : sx = _); subst hsx) | (with_reducible apply State.setYport_keeps) | (with_reducible apply State.yarnTime_keeps) | (with_reducible apply State.markLost_keeps) | (with_reducible apply State.setBit_keeps) | with_reducible apply Keeps.ite | simp only [Keeps.any] | refine Keeps.core ?_ rfl rfl rfl rfl (fun _ => rfl) rfl | split

theorem execHeartbeatTimeout_keeps (a1 : Nat) (s : State) : KeepsOut (True, s) (execHeartbeatTimeout a1 s) := by
  have h : Keeps (True, s) s := Keeps.refl _ _
  unfold execHeartbeatTimeout
  repeat' first | with_reducible apply KeepsOut.next | with_reducible exact h | (with_reducible apply State.reach_keeps) | (with_reducible apply State.markLost_keeps) | simp only [Keeps.any] | refine Keeps.core ?_ rfl rfl rfl rfl (fun _ => rfl) rfl | split

theorem execForwardedMessageReceived_keeps (a1 : Nat) (s : State) : KeepsOut (True, s) (execForwardedMessageReceived a1 s) := by
  have h : Keeps (True, s) s := Keeps.refl _ _
  unfold execForwardedMessageReceived
  repeat' first | with_reducible apply KeepsOut.next | with_reducible refine State.duty_kept h ?_ | with_reducible apply KeepsOut.ite | with_reducible exact h | (extract_lets +onlyGivenNames sx; clear_value (hsx : sx = _); subst hsx) | (with_reducible apply State.setYport_keeps) | (with_reducible apply State.yarnCtrl_keeps) | (with_reducible apply State.bump_keeps) | (with_reducible apply State.postInto_keeps) | simp only [Keeps.any] | refine Keeps.core ?_ rfl rfl rfl rfl (fun _ => rfl) rfl | split

theorem execForwardedAckReceived_keeps (a1 : Nat) (s : State) : KeepsOut (True, s) (execForwardedAckReceived a1 s) := by
  have h : Keeps (True, s) s := Keeps.refl _ _
  unfold execForwardedAckReceived
  repeat' first | with_reducible apply KeepsOut.next | with_reducible refine State.duty_kept h ?_ | with_reducible apply KeepsOut.ite | with_reducible exact h | (extract_lets +onlyGivenNames sx; clear_value (hsx : sx = _); subst hsx) | (with_reducible apply State.setYport_keeps) | (with_reducible apply State.yarnCtrl_keeps) | (with_reducible apply State.yarnPump_keeps) | (with_reducible apply State.ackWrite_keeps) | simp only [Keeps.any] | refine Keeps.core ?_ rfl rfl rfl rfl (fun _ => rfl) rfl | split

theorem execYrnStatus_keeps (a1 : Nat) (s : State) : KeepsOut (True, s) (execYrnStatus a1 s) := by
  have h : Keeps (True, s) s := Keeps.refl _ _
  unfold execYrnStatus
  repeat' first | with_reducible apply KeepsOut.next | with_reducible exact h | (intro _) | (with_reducible apply runCommand_keeps) | (with_reducible apply Ans.ok_keeps)

theorem execYrnChannel_keeps (a1 : Nat) (s : State) : KeepsOut (True, s) (execYrnChannel a1 s) := by
  have h : Keeps (True, s) s := Keeps.refl _ _
  unfold execYrnChannel
  repeat' first | with_reducible apply KeepsOut.next | with_reducible exact h | (intro _) | (extract_lets +onlyGivenNames sx; clear_value (hsx : sx = _); subst hsx) | (with_reducible apply runCommand_keeps) | (with_reducible apply Ans.code_keeps) | (with_reducible apply State.wr_keeps) | with_reducible apply Keeps.ite_ast

theorem execYrnForward_keeps (a1 : Nat) (s : State) : KeepsOut (True, s) (execYrnForward a1 s) := by
  have h : Keeps (True, s) s := Keeps.refl _ _
  unfold execYrnForward
  repeat' first | with_reducible apply KeepsOut.next | with_reducible exact h | (intro _) | (extract_lets +onlyGivenNames sx; clear_value (hsx : sx = _); subst hsx) | (with_reducible apply runCommand_keeps) | (with_reducible apply Ans.code_keeps) | (with_reducible apply State.yarnPost_keeps) | with_reducible apply Keeps.ite_ast | simp only [Keeps.any] | refine Keeps.core ?_ rfl rfl rfl rfl (fun _ => rfl) rfl | with_reducible apply Ans.st_acc | split

theorem execYrnForwardComplete_keeps (a1 : Nat) (s : State) : KeepsOut (True, s) (execYrnForwardComplete a1 s) := by
  have h : Keeps (True, s) s := Keeps.refl _ _
  unfold execYrnForwardComplete
  repeat' first | with_reducible apply KeepsOut.next | with_reducible refine State.duty_kept h ?_ | with_reducible apply KeepsOut.ite | with_reducible exact h | (extract_lets +onlyGivenNames sx; clear_value (hsx : sx = _); subst hsx) | (with_reducible apply State.ackWrite_keeps) | (with_reducible apply State.complete_keeps) | simp only [Keeps.any] | refine Keeps.core ?_ rfl rfl rfl rfl (fun _ => rfl) rfl | split

theorem execYrnAsym_keeps (a1 : Nat) (s : State) : KeepsOut (True, s) (execYrnAsym a1 s) := by
  have h : Keeps (True, s) s := Keeps.refl _ _
  unfold execYrnAsym
  repeat' first | with_reducible apply KeepsOut.next | with_reducible exact h | (intro _) | (with_reducible apply runCommand_keeps) | (with_reducible apply Ans.code_keeps) | (with_reducible apply State.wr_keeps) | with_reducible apply Keeps.ite_ast

theorem execYrnCounters_keeps (a1 : Nat) (s : State) : KeepsOut (True, s) (execYrnCounters a1 s) := by
  have h : Keeps (True, s) s := Keeps.refl _ _
  unfold execYrnCounters
  repeat' first | with_reducible apply KeepsOut.next | with_reducible exact h | (intro _) | (extract_lets +onlyGivenNames sx; clear_value (hsx : sx = _); subst hsx) | (with_reducible apply runCommand_keeps) | (with_reducible apply Ans.code_keeps) | (with_reducible apply State.counters_keeps) | (with_reducible apply Ans.ok_keeps) | with_reducible apply Keeps.ite_ast

theorem execFaultEvent_keeps (a1 : Nat) (a2 : Nat) (a3 : List Word) (s : State) : KeepsOut (True, s) (execFaultEvent a1 a2 a3 s) := by
  have h : Keeps (True, s) s := Keeps.refl _ _
  unfold execFaultEvent
  repeat' first | with_reducible apply KeepsOut.next | with_reducible refine State.duty_kept h ?_ | with_reducible apply KeepsOut.ite | with_reducible exact h | (extract_lets +onlyGivenNames sx; clear_value (hsx : sx = _); subst hsx) | (with_reducible apply State.takeEvent_keeps) | simp only [Keeps.any] | refine Keeps.core ?_ rfl rfl rfl rfl (fun _ => rfl) rfl | split

theorem execWindowSlotExpiry_keeps (a1 : Nat) (s : State) : KeepsOut (True, s) (execWindowSlotExpiry a1 s) := by
  have h : Keeps (True, s) s := Keeps.refl _ _
  unfold execWindowSlotExpiry
  repeat' first | with_reducible apply KeepsOut.next | with_reducible refine State.duty_kept h ?_ | with_reducible apply KeepsOut.ite | with_reducible exact h | (with_reducible apply State.setSlot_keeps) | (with_reducible apply State.reach_keeps) | split

theorem execLastingOutcomeEnd_keeps  (s : State) : KeepsOut (True, s) (execLastingOutcomeEnd s) := by
  have h : Keeps (True, s) s := Keeps.refl _ _
  unfold execLastingOutcomeEnd
  repeat' first | with_reducible apply KeepsOut.next | with_reducible refine State.duty_kept h ?_ | with_reducible exact h | (extract_lets +onlyGivenNames sx; clear_value (hsx : sx = _); subst hsx) | (with_reducible apply State.logEvent_keeps) | (with_reducible apply State.keepEvent_keeps) | (with_reducible apply State.setSlot_keeps) | with_reducible apply Keeps.ite | simp only [Keeps.any] | refine Keeps.core ?_ rfl rfl rfl rfl (fun _ => rfl) rfl | split

theorem execFltStatus_keeps (a1 : Nat) (s : State) : KeepsOut (True, s) (execFltStatus a1 s) := by
  have h : Keeps (True, s) s := Keeps.refl _ _
  unfold execFltStatus
  repeat' first | with_reducible apply KeepsOut.next | with_reducible exact h | (intro _) | (with_reducible apply runCommand_keeps) | (with_reducible apply Ans.ok_keeps)

theorem execFltEvents_keeps (a1 : Nat) (s : State) : KeepsOut (True, s) (execFltEvents a1 s) := by
  have h : Keeps (True, s) s := Keeps.refl _ _
  unfold execFltEvents
  repeat' first | with_reducible apply KeepsOut.next | with_reducible exact h | (intro _) | (extract_lets +onlyGivenNames sx; clear_value (hsx : sx = _); subst hsx) | (with_reducible apply runCommand_keeps) | (with_reducible apply Ans.ok_keeps)

theorem execFltWindow_keeps (a1 : Nat) (s : State) : KeepsOut (True, s) (execFltWindow a1 s) := by
  have h : Keeps (True, s) s := Keeps.refl _ _
  unfold execFltWindow
  repeat' first | with_reducible apply KeepsOut.next | with_reducible exact h | with_reducible assumption | (intro _) | (extract_lets +onlyGivenNames sx; clear_value (hsx : sx = _); subst hsx) | (with_reducible apply runCommand_keeps) | (with_reducible apply Ans.code_keeps) | (with_reducible apply State.wr_keeps) | (with_reducible apply State.setSlot_keeps) | with_reducible apply Keeps.ite | with_reducible apply Keeps.ite_ast | with_reducible refine Keeps.foldl _ ?_ ?_ | split

theorem execFltSlots_keeps (a1 : Nat) (s : State) : KeepsOut (True, s) (execFltSlots a1 s) := by
  have h : Keeps (True, s) s := Keeps.refl _ _
  unfold execFltSlots
  repeat' first | with_reducible apply KeepsOut.next | with_reducible exact h | (intro _) | (with_reducible apply runCommand_keeps) | (with_reducible apply Ans.ok_keeps)

theorem execFltCounters_keeps (a1 : Nat) (s : State) : KeepsOut (True, s) (execFltCounters a1 s) := by
  have h : Keeps (True, s) s := Keeps.refl _ _
  unfold execFltCounters
  repeat' first | with_reducible apply KeepsOut.next | with_reducible exact h | (intro _) | (extract_lets +onlyGivenNames sx; clear_value (hsx : sx = _); subst hsx) | (with_reducible apply runCommand_keeps) | (with_reducible apply State.counters_keeps) | (with_reducible apply Ans.ok_keeps)

theorem execSwatchStart_keeps (a1 : Nat) (s : State) : KeepsOut (True, s) (execSwatchStart a1 s) := by
  have h : Keeps (True, s) s := Keeps.refl _ _
  unfold execSwatchStart
  repeat' first | with_reducible apply KeepsOut.next | with_reducible refine State.duty_kept h ?_ | with_reducible apply KeepsOut.ite | with_reducible exact h | (extract_lets +onlyGivenNames sx; clear_value (hsx : sx = _); subst hsx) | (with_reducible apply State.outcomePart_keeps) | (with_reducible apply State.swtEnd_keeps) | (with_reducible apply State.swtPause_keeps) | (with_reducible apply State.testStart_keeps) | simp only [Keeps.any] | refine Keeps.core ?_ rfl rfl rfl rfl (fun _ => rfl) rfl | split

theorem execSwatchStepComplete_keeps (a1 : StepSeen) (s : State) : KeepsOut (True, s) (execSwatchStepComplete a1 s) := by
  have h : Keeps (True, s) s := Keeps.refl _ _
  unfold execSwatchStepComplete
  repeat' first | with_reducible apply KeepsOut.next | with_reducible apply KeepsOut.ite | with_reducible exact h | (extract_lets +onlyGivenNames sx; clear_value (hsx : sx = _); subst hsx) | (with_reducible apply State.reach_keeps) | (with_reducible apply State.testFinish_keeps) | (with_reducible apply State.outcomePart_keeps) | (with_reducible apply State.swtRestore_keeps) | (with_reducible apply State.swtEnd_keeps) | (with_reducible apply State.swtFail_keeps) | (with_reducible apply State.swtPause_keeps) | with_reducible apply Keeps.ite | simp only [Keeps.any] | refine Keeps.core ?_ rfl rfl rfl rfl (fun _ => rfl) rfl | split

theorem execRotationStep_keeps  (s : State) : KeepsOut (True, s) (execRotationStep s) := by
  have h : Keeps (True, s) s := Keeps.refl _ _
  unfold execRotationStep
  repeat' first | with_reducible apply KeepsOut.next | with_reducible refine State.duty_kept h ?_ | with_reducible apply KeepsOut.ite | with_reducible exact h | (extract_lets +onlyGivenNames sx; clear_value (hsx : sx = _); subst hsx) | (with_reducible apply State.noSpareLeft_keeps) | (with_reducible apply State.reach_keeps) | (with_reducible apply State.rotationOver_keeps) | (with_reducible apply State.startShift_keeps) | (with_reducible apply State.put_keeps) | simp only [Keeps.any] | refine Keeps.core ?_ rfl rfl rfl rfl (fun _ => rfl) rfl | split

end Sys2Proof.Machine
end

