-- ==== Sys2Proof/Laws/KeepsRows3.lean ====
section
/-! SUPPORT. What each row keeps (3 of 3): its meaning answers a next state that keeps the queue, the canonical forms and, but for the datum
island's own rows, the island. -/

namespace Sys2Proof.Machine

theorem execSwtStatus_keeps (a1 : Nat) (s : State) : KeepsOut (True, s) (execSwtStatus a1 s) := by
  have h : Keeps (True, s) s := Keeps.refl _ _
  unfold execSwtStatus
  repeat' first | with_reducible apply KeepsOut.next | with_reducible exact h | (intro _) | (with_reducible apply runCommand_keeps) | (with_reducible apply Ans.ok_keeps)

theorem execSwtRun_keeps (a1 : Nat) (s : State) : KeepsOut (True, s) (execSwtRun a1 s) := by
  have h : Keeps (True, s) s := Keeps.refl _ _
  unfold execSwtRun
  repeat' first | with_reducible apply KeepsOut.next | with_reducible exact h | (intro _) | (extract_lets +onlyGivenNames sx; clear_value (hsx : sx = _); subst hsx) | (with_reducible apply runCommand_keeps) | (with_reducible apply Ans.code_keeps) | (with_reducible apply State.swtRequest_keeps) | with_reducible apply Keeps.ite_ast | with_reducible apply Ans.st_acc

theorem execSwtResults_keeps (a1 : Nat) (s : State) : KeepsOut (True, s) (execSwtResults a1 s) := by
  have h : Keeps (True, s) s := Keeps.refl _ _
  unfold execSwtResults
  repeat' first | with_reducible apply KeepsOut.next | with_reducible exact h | (intro _) | (extract_lets +onlyGivenNames sx; clear_value (hsx : sx = _); subst hsx) | (with_reducible apply runCommand_keeps) | (with_reducible apply Ans.ok_keeps)

theorem execSwtRotate_keeps (a1 : Nat) (s : State) : KeepsOut (True, s) (execSwtRotate a1 s) := by
  have h : Keeps (True, s) s := Keeps.refl _ _
  unfold execSwtRotate
  repeat' first | with_reducible apply KeepsOut.next | with_reducible exact h | (intro _) | (extract_lets +onlyGivenNames sx; clear_value (hsx : sx = _); subst hsx) | (with_reducible apply runCommand_keeps) | (with_reducible apply Ans.ok_keeps) | (with_reducible apply State.put_keeps) | simp only [Keeps.any] | refine Keeps.core ?_ rfl rfl rfl rfl (fun _ => rfl) rfl

theorem execSwtFuse_keeps (a1 : Nat) (s : State) : KeepsOut (True, s) (execSwtFuse a1 s) := by
  have h : Keeps (True, s) s := Keeps.refl _ _
  unfold execSwtFuse
  repeat' first | with_reducible apply KeepsOut.next | with_reducible exact h | (intro _) | (extract_lets +onlyGivenNames sx; clear_value (hsx : sx = _); subst hsx) | (with_reducible apply runCommand_keeps) | (with_reducible apply Ans.code_keeps) | with_reducible apply Keeps.ite_ast | simp only [Keeps.any] | refine Keeps.core ?_ rfl rfl rfl rfl (fun _ => rfl) rfl | with_reducible apply Ans.st_acc

theorem execSwtFuseComplete_keeps  (s : State) : KeepsOut (True, s) (execSwtFuseComplete s) := by
  have h : Keeps (True, s) s := Keeps.refl _ _
  unfold execSwtFuseComplete
  repeat' first | with_reducible apply KeepsOut.next | with_reducible exact h | (extract_lets +onlyGivenNames sx; clear_value (hsx : sx = _); subst hsx) | (with_reducible apply State.journal_keeps) | (with_reducible apply State.gazInc_keeps) | (with_reducible apply State.bump_keeps) | (with_reducible apply State.complete_keeps) | simp only [Keeps.any] | refine Keeps.core ?_ rfl rfl rfl rfl (fun _ => rfl) rfl | split

theorem execSwtUnmark_keeps (a1 : Nat) (s : State) : KeepsOut (True, s) (execSwtUnmark a1 s) := by
  have h : Keeps (True, s) s := Keeps.refl _ _
  unfold execSwtUnmark
  repeat' first | with_reducible apply KeepsOut.next | with_reducible exact h | (intro _) | (extract_lets +onlyGivenNames sx; clear_value (hsx : sx = _); subst hsx) | (with_reducible apply runCommand_keeps) | (with_reducible apply Ans.ok_keeps) | simp only [Keeps.any] | refine Keeps.core ?_ rfl rfl rfl rfl (fun _ => rfl) rfl

theorem execSwtCounters_keeps (a1 : Nat) (s : State) : KeepsOut (True, s) (execSwtCounters a1 s) := by
  have h : Keeps (True, s) s := Keeps.refl _ _
  unfold execSwtCounters
  repeat' first | with_reducible apply KeepsOut.next | with_reducible exact h | (intro _) | (extract_lets +onlyGivenNames sx; clear_value (hsx : sx = _); subst hsx) | (with_reducible apply runCommand_keeps) | (with_reducible apply State.counters_keeps) | (with_reducible apply Ans.ok_keeps)

theorem execSensorReading_keeps (a1 : Int) (a2 : List SensorVal) (s : State) : KeepsOut (True, s) (execSensorReading a1 a2 s) := by
  have h : Keeps (True, s) s := Keeps.refl _ _
  unfold execSensorReading
  repeat' first | with_reducible apply KeepsOut.next | with_reducible apply KeepsOut.ite | with_reducible exact h | with_reducible assumption | (intro _) | (extract_lets +onlyGivenNames sx; clear_value (hsx : sx = _); subst hsx) | (with_reducible apply State.reach_keeps) | (with_reducible apply State.lifeTime_keeps) | (with_reducible apply State.rates_keeps) | (with_reducible apply State.convert_keeps) | (with_reducible apply State.tierPeaks_keeps) | (with_reducible apply State.followBands_keeps) | (with_reducible apply State.moveTier_keeps) | (with_reducible apply State.restartRead_keeps) | (with_reducible apply State.capsRead_keeps) | (with_reducible apply State.tripRead_keeps) | with_reducible refine Keeps.foldl _ ?_ ?_ | simp only [Keeps.any] | refine Keeps.core ?_ rfl rfl rfl rfl (fun _ => rfl) rfl

theorem execCapStepDown_keeps (a1 : Nat) (s : State) : KeepsOut (True, s) (execCapStepDown a1 s) := by
  have h : Keeps (True, s) s := Keeps.refl _ _
  unfold execCapStepDown
  repeat' first | with_reducible apply KeepsOut.next | with_reducible refine State.duty_kept h ?_ | with_reducible apply KeepsOut.ite | with_reducible exact h | (with_reducible apply State.reach_keeps) | (with_reducible apply State.capStep_keeps) | (with_reducible apply State.setCapRun_keeps) | split

theorem execCapStepUp_keeps (a1 : Nat) (s : State) : KeepsOut (True, s) (execCapStepUp a1 s) := by
  have h : Keeps (True, s) s := Keeps.refl _ _
  unfold execCapStepUp
  repeat' first | with_reducible apply KeepsOut.next | with_reducible refine State.duty_kept h ?_ | with_reducible apply KeepsOut.ite | with_reducible exact h | (extract_lets +onlyGivenNames sx; clear_value (hsx : sx = _); subst hsx) | (with_reducible apply State.reach_keeps) | (with_reducible apply State.capStep_keeps) | (with_reducible apply State.setCapRun_keeps) | simp only [Keeps.any] | split

theorem execTripRestart_keeps  (s : State) : KeepsOut (True, s) (execTripRestart s) := by
  have h : Keeps (True, s) s := Keeps.refl _ _
  unfold execTripRestart
  repeat' first | with_reducible apply KeepsOut.next | with_reducible apply KeepsOut.ite | with_reducible exact h | (with_reducible apply State.reach_keeps) | (with_reducible apply State.enterBoot_keeps) | simp only [Keeps.any] | refine Keeps.core ?_ rfl rfl rfl rfl (fun _ => rfl) rfl | split

theorem execThmStatus_keeps (a1 : Nat) (s : State) : KeepsOut (True, s) (execThmStatus a1 s) := by
  have h : Keeps (True, s) s := Keeps.refl _ _
  unfold execThmStatus
  repeat' first | with_reducible apply KeepsOut.next | with_reducible exact h | (intro _) | (with_reducible apply runCommand_keeps) | (with_reducible apply Ans.ok_keeps)

theorem execThmSensors_keeps (a1 : Nat) (s : State) : KeepsOut (True, s) (execThmSensors a1 s) := by
  have h : Keeps (True, s) s := Keeps.refl _ _
  unfold execThmSensors
  repeat' first | with_reducible apply KeepsOut.next | with_reducible exact h | (intro _) | (with_reducible apply runCommand_keeps) | (with_reducible apply Ans.ok_keeps)

theorem execThmThrottle_keeps (a1 : Nat) (s : State) : KeepsOut (True, s) (execThmThrottle a1 s) := by
  have h : Keeps (True, s) s := Keeps.refl _ _
  unfold execThmThrottle
  repeat' first | with_reducible apply KeepsOut.next | with_reducible exact h | (intro _) | (with_reducible apply runCommand_keeps) | (with_reducible apply Ans.ok_keeps) | (with_reducible apply State.put_keeps)

theorem execThmCounters_keeps (a1 : Nat) (s : State) : KeepsOut (True, s) (execThmCounters a1 s) := by
  have h : Keeps (True, s) s := Keeps.refl _ _
  unfold execThmCounters
  repeat' first | with_reducible apply KeepsOut.next | with_reducible exact h | (intro _) | (extract_lets +onlyGivenNames sx; clear_value (hsx : sx = _); subst hsx) | (with_reducible apply runCommand_keeps) | (with_reducible apply State.counters_keeps) | (with_reducible apply Ans.ok_keeps)

theorem execGazImageWrite_keeps (a1 : List SerSample) (s : State) : KeepsOut (True, s) (execGazImageWrite a1 s) := by
  have h : Keeps (True, s) s := Keeps.refl _ _
  unfold execGazImageWrite
  repeat' first | with_reducible apply KeepsOut.next | with_reducible refine State.duty_kept h ?_ | with_reducible apply KeepsOut.ite | with_reducible exact h | (extract_lets +onlyGivenNames sx; clear_value (hsx : sx = _); subst hsx) | (with_reducible apply State.gazSamples_keeps) | (with_reducible apply State.reach_keeps) | (with_reducible apply State.gazWrite_keeps) | simp only [Keeps.any] | refine Keeps.core ?_ rfl rfl rfl rfl (fun _ => rfl) rfl

theorem execGazImageWriteComplete_keeps  (s : State) : KeepsOut (True, s) (execGazImageWriteComplete s) := by
  have h : Keeps (True, s) s := Keeps.refl _ _
  unfold execGazImageWriteComplete
  repeat' first | with_reducible apply KeepsOut.next | with_reducible exact h | (extract_lets +onlyGivenNames sx; clear_value (hsx : sx = _); subst hsx) | (with_reducible apply State.completeOpt_keeps) | (with_reducible apply State.gazWrite_keeps) | with_reducible apply Keeps.ite | simp only [Keeps.any] | refine Keeps.core ?_ rfl rfl rfl rfl (fun _ => rfl) rfl | split

theorem execGazRead_keeps (a1 : Nat) (s : State) : KeepsOut (True, s) (execGazRead a1 s) := by
  have h : Keeps (True, s) s := Keeps.refl _ _
  unfold execGazRead
  repeat' first | with_reducible apply KeepsOut.next | with_reducible exact h | (intro _) | (extract_lets +onlyGivenNames sx; clear_value (hsx : sx = _); subst hsx) | (with_reducible apply runCommand_keeps) | (with_reducible apply Ans.ok_keeps)

theorem execGazExport_keeps (a1 : Nat) (s : State) : KeepsOut (True, s) (execGazExport a1 s) := by
  have h : Keeps (True, s) s := Keeps.refl _ _
  unfold execGazExport
  repeat' first | with_reducible apply KeepsOut.next | with_reducible exact h | (intro _) | (extract_lets +onlyGivenNames sx; clear_value (hsx : sx = _); subst hsx) | (with_reducible apply runCommand_keeps) | simp only [Keeps.any] | refine Keeps.core ?_ rfl rfl rfl rfl (fun _ => rfl) rfl | with_reducible apply Ans.st_acc

theorem execGazExportComplete_keeps  (s : State) : KeepsOut (True, s) (execGazExportComplete s) := by
  have h : Keeps (True, s) s := Keeps.refl _ _
  unfold execGazExportComplete
  repeat' first | with_reducible apply KeepsOut.next | with_reducible exact h | (extract_lets +onlyGivenNames sx; clear_value (hsx : sx = _); subst hsx) | (with_reducible apply State.complete_keeps) | (with_reducible apply State.hostWrite_keeps) | simp only [Keeps.any] | refine Keeps.core ?_ rfl rfl rfl rfl (fun _ => rfl) rfl | split

theorem execGazFlush_keeps (a1 : Nat) (s : State) : KeepsOut (True, s) (execGazFlush a1 s) := by
  have h : Keeps (True, s) s := Keeps.refl _ _
  unfold execGazFlush
  repeat' first | with_reducible apply KeepsOut.next | with_reducible exact h | (intro _) | (with_reducible apply runCommand_keeps) | (with_reducible apply Ans.code_keeps) | (with_reducible apply State.gazWrite_keeps) | with_reducible apply Keeps.ite_ast | with_reducible apply Ans.st_acc

theorem execDatumSample_keeps (a1 : List Int) (a2 : List Int) (s : State) : KeepsOut (False, s) (execDatumSample a1 a2 s) := by
  have h : Keeps (False, s) s := Keeps.refl _ _
  unfold execDatumSample
  repeat' first | with_reducible apply KeepsOut.next | with_reducible apply KeepsOut.ite | with_reducible refine State.setDat_keeps ?_ _ (fun hf => hf.elim) | with_reducible exact h

theorem execDatumPowerDown_keeps  (s : State) : KeepsOut (False, s) (execDatumPowerDown s) := by
  have h : Keeps (False, s) s := Keeps.refl _ _
  unfold execDatumPowerDown
  repeat' first | with_reducible apply KeepsOut.next | with_reducible apply KeepsOut.ite | with_reducible refine State.setDat_keeps ?_ _ (fun hf => hf.elim) | with_reducible exact h

theorem execDatumPowerUp_keeps  (s : State) : KeepsOut (False, s) (execDatumPowerUp s) := by
  have h : Keeps (False, s) s := Keeps.refl _ _
  unfold execDatumPowerUp
  repeat' first | with_reducible apply KeepsOut.next | with_reducible apply KeepsOut.ite | with_reducible refine State.setDat_keeps ?_ _ (fun hf => hf.elim) | with_reducible exact h

theorem execDatumCrystalCheck_keeps (a1 : Option Int) (s : State) : KeepsOut (False, s) (execDatumCrystalCheck a1 s) := by
  have h : Keeps (False, s) s := Keeps.refl _ _
  unfold execDatumCrystalCheck
  repeat' first | with_reducible apply KeepsOut.next | with_reducible apply KeepsOut.ite | with_reducible refine State.setDat_keeps ?_ _ (fun hf => hf.elim) | with_reducible exact h

theorem execDatumRomDigestCheck_keeps (a1 : Word) (s : State) : KeepsOut (False, s) (execDatumRomDigestCheck a1 s) := by
  have h : Keeps (False, s) s := Keeps.refl _ _
  unfold execDatumRomDigestCheck
  repeat' first | with_reducible apply KeepsOut.next | with_reducible apply KeepsOut.ite | with_reducible refine State.setDat_keeps ?_ _ (fun hf => hf.elim) | with_reducible exact h

theorem execCalOpen_keeps (a1 : Word) (s : State) : KeepsOut (False, s) (execCalOpen a1 s) := by
  have h : Keeps (False, s) s := Keeps.refl _ _
  unfold execCalOpen
  repeat' first | with_reducible apply KeepsOut.next | with_reducible apply KeepsOut.ite | with_reducible refine State.setDat_keeps ?_ _ (fun hf => hf.elim) | with_reducible exact h

theorem execCalMeasure_keeps (a1 : Nat) (a2 : Nat) (s : State) : KeepsOut (False, s) (execCalMeasure a1 a2 s) := by
  have h : Keeps (False, s) s := Keeps.refl _ _
  unfold execCalMeasure
  repeat' first | with_reducible apply KeepsOut.next | with_reducible apply KeepsOut.ite | with_reducible refine State.setDat_keeps ?_ _ (fun hf => hf.elim) | with_reducible exact h

theorem execCalMeasureDone_keeps  (s : State) : KeepsOut (False, s) (execCalMeasureDone s) := by
  have h : Keeps (False, s) s := Keeps.refl _ _
  unfold execCalMeasureDone
  repeat' first | with_reducible apply KeepsOut.next | with_reducible apply KeepsOut.ite | with_reducible refine State.setDat_keeps ?_ _ (fun hf => hf.elim) | with_reducible exact h | (extract_lets +onlyGivenNames sx; clear_value (hsx : sx = _); subst hsx) | split

theorem execCalStage_keeps (a1 : List Byte) (s : State) : KeepsOut (False, s) (execCalStage a1 s) := by
  have h : Keeps (False, s) s := Keeps.refl _ _
  unfold execCalStage
  repeat' first | with_reducible apply KeepsOut.next | with_reducible apply KeepsOut.ite | with_reducible refine State.setDat_keeps ?_ _ (fun hf => hf.elim) | with_reducible exact h

theorem execCalSeal_keeps (a1 : List Byte) (s : State) : KeepsOut (False, s) (execCalSeal a1 s) := by
  have h : Keeps (False, s) s := Keeps.refl _ _
  unfold execCalSeal
  repeat' first | with_reducible apply KeepsOut.next | with_reducible apply KeepsOut.ite | with_reducible refine State.setDat_keeps ?_ _ (fun hf => hf.elim) | with_reducible exact h | split

theorem execSealProgramComplete_keeps (a1 : List Byte) (s : State) : KeepsOut (False, s) (execSealProgramComplete a1 s) := by
  have h : Keeps (False, s) s := Keeps.refl _ _
  unfold execSealProgramComplete
  repeat' first | with_reducible apply KeepsOut.next | with_reducible refine State.setDat_keeps ?_ _ (fun hf => hf.elim) | with_reducible exact h | (extract_lets +onlyGivenNames sx; clear_value (hsx : sx = _); subst hsx) | split

theorem execCalClose_keeps  (s : State) : KeepsOut (False, s) (execCalClose s) := by
  have h : Keeps (False, s) s := Keeps.refl _ _
  unfold execCalClose
  repeat' first | with_reducible apply KeepsOut.next | with_reducible apply KeepsOut.ite | with_reducible refine State.setDat_keeps ?_ _ (fun hf => hf.elim) | with_reducible exact h

theorem execDatumCalEnFall_keeps  (s : State) : KeepsOut (False, s) (execDatumCalEnFall s) := by
  have h : Keeps (False, s) s := Keeps.refl _ _
  unfold execDatumCalEnFall
  repeat' first | with_reducible apply KeepsOut.next | with_reducible refine State.setDat_keeps ?_ _ (fun hf => hf.elim) | with_reducible exact h

theorem execDatumEnergyRecord_keeps  (s : State) : KeepsOut (False, s) (execDatumEnergyRecord s) := by
  have h : Keeps (False, s) s := Keeps.refl _ _
  unfold execDatumEnergyRecord
  repeat' first | with_reducible apply KeepsOut.next | with_reducible apply KeepsOut.ite | with_reducible refine State.setDat_keeps ?_ _ (fun hf => hf.elim) | with_reducible exact h | (with_reducible apply State.postInto_keeps)

theorem execDatumEventPost_keeps  (s : State) : KeepsOut (False, s) (execDatumEventPost s) := by
  have h : Keeps (False, s) s := Keeps.refl _ _
  unfold execDatumEventPost
  repeat' first | with_reducible apply KeepsOut.next | with_reducible apply KeepsOut.ite | with_reducible refine State.setDat_keeps ?_ _ (fun hf => hf.elim) | with_reducible exact h | (extract_lets +onlyGivenNames sx; clear_value (hsx : sx = _); subst hsx) | (with_reducible apply State.postInto_keeps) | split

theorem execDatumPulse_keeps  (s : State) : KeepsOut (False, s) (execDatumPulse s) := by
  have h : Keeps (False, s) s := Keeps.refl _ _
  unfold execDatumPulse
  repeat' first | with_reducible apply KeepsOut.next | with_reducible apply KeepsOut.ite | with_reducible refine State.setDat_keeps ?_ _ (fun hf => hf.elim) | with_reducible exact h

theorem execDatAccLoRead_keeps (a1 : Master) (a2 : Nat) (a3 : Nat) (s : State) : KeepsOut (True, s) (execDatAccLoRead a1 a2 a3 s) := by
  have h : Keeps (True, s) s := Keeps.refl _ _
  unfold execDatAccLoRead
  repeat' first | with_reducible apply KeepsOut.next | with_reducible apply KeepsOut.ite | with_reducible exact h | (with_reducible apply State.readBy_keeps)

theorem execDatStatus_keeps (a1 : Nat) (s : State) : KeepsOut (True, s) (execDatStatus a1 s) := by
  have h : Keeps (True, s) s := Keeps.refl _ _
  unfold execDatStatus
  repeat' first | with_reducible apply KeepsOut.next | with_reducible exact h | (intro _) | (extract_lets +onlyGivenNames sx; clear_value (hsx : sx = _); subst hsx) | (with_reducible apply runCommand_keeps) | (with_reducible apply Ans.ok_keeps)

theorem execDatEnergy_keeps (a1 : Nat) (s : State) : KeepsOut (True, s) (execDatEnergy a1 s) := by
  have h : Keeps (True, s) s := Keeps.refl _ _
  unfold execDatEnergy
  repeat' first | with_reducible apply KeepsOut.next | with_reducible exact h | (intro _) | (with_reducible apply runCommand_keeps) | (with_reducible apply Ans.ok_keeps)

theorem execDatLog_keeps (a1 : Nat) (s : State) : KeepsOut (True, s) (execDatLog a1 s) := by
  have h : Keeps (True, s) s := Keeps.refl _ _
  unfold execDatLog
  repeat' first | with_reducible apply KeepsOut.next | with_reducible exact h | (intro _) | (extract_lets +onlyGivenNames sx; clear_value (hsx : sx = _); subst hsx) | (with_reducible apply runCommand_keeps) | (with_reducible apply Ans.ok_keeps)

theorem execDatSplit_keeps (a1 : Nat) (s : State) : KeepsOut (True, s) (execDatSplit a1 s) := by
  have h : Keeps (True, s) s := Keeps.refl _ _
  unfold execDatSplit
  repeat' first | with_reducible apply KeepsOut.next | with_reducible exact h | (intro _) | (extract_lets +onlyGivenNames sx; clear_value (hsx : sx = _); subst hsx) | (with_reducible apply runCommand_keeps) | (with_reducible apply Ans.ok_keeps)

theorem execPioSet_keeps (a1 : Master) (a2 : Nat) (a3 : Word) (s : State) : KeepsOut (True, s) (execPioSet a1 a2 a3 s) := by
  have h : Keeps (True, s) s := Keeps.refl _ _
  unfold execPioSet
  repeat' first | with_reducible apply KeepsOut.next | with_reducible apply KeepsOut.ite | with_reducible exact h | (with_reducible apply State.access_keeps)

theorem execPioClr_keeps (a1 : Master) (a2 : Nat) (a3 : Word) (s : State) : KeepsOut (True, s) (execPioClr a1 a2 a3 s) := by
  have h : Keeps (True, s) s := Keeps.refl _ _
  unfold execPioClr
  repeat' first | with_reducible apply KeepsOut.next | with_reducible apply KeepsOut.ite | with_reducible exact h | (with_reducible apply State.access_keeps)

theorem execPioTgl_keeps (a1 : Master) (a2 : Nat) (a3 : Word) (s : State) : KeepsOut (True, s) (execPioTgl a1 a2 a3 s) := by
  have h : Keeps (True, s) s := Keeps.refl _ _
  unfold execPioTgl
  repeat' first | with_reducible apply KeepsOut.next | with_reducible apply KeepsOut.ite | with_reducible exact h | (with_reducible apply State.access_keeps)

theorem execPinStatus_keeps (a1 : Nat) (s : State) : KeepsOut (True, s) (execPinStatus a1 s) := by
  have h : Keeps (True, s) s := Keeps.refl _ _
  unfold execPinStatus
  repeat' first | with_reducible apply KeepsOut.next | with_reducible exact h | (intro _) | (with_reducible apply runCommand_keeps) | (with_reducible apply Ans.ok_keeps)

theorem execPinAssign_keeps (a1 : Nat) (s : State) : KeepsOut (True, s) (execPinAssign a1 s) := by
  have h : Keeps (True, s) s := Keeps.refl _ _
  unfold execPinAssign
  repeat' first | with_reducible apply KeepsOut.next | with_reducible exact h | (intro _) | (extract_lets +onlyGivenNames sx; clear_value (hsx : sx = _); subst hsx) | (with_reducible apply runCommand_keeps) | (with_reducible apply Ans.code_keeps) | (with_reducible apply State.bump_keeps) | (with_reducible apply State.setHand_keeps) | with_reducible apply Keeps.ite | with_reducible apply Keeps.ite_ast | with_reducible apply Ans.st_wait | split

theorem execPinWrite_keeps (a1 : Nat) (s : State) : KeepsOut (True, s) (execPinWrite a1 s) := by
  have h : Keeps (True, s) s := Keeps.refl _ _
  unfold execPinWrite
  repeat' first | with_reducible apply KeepsOut.next | with_reducible exact h | (intro _) | (extract_lets +onlyGivenNames sx; clear_value (hsx : sx = _); subst hsx) | (with_reducible apply runCommand_keeps) | (with_reducible apply Ans.code_keeps) | (with_reducible apply State.wr_keeps) | with_reducible apply Keeps.ite_ast

theorem execPinRead_keeps (a1 : Nat) (s : State) : KeepsOut (True, s) (execPinRead a1 s) := by
  have h : Keeps (True, s) s := Keeps.refl _ _
  unfold execPinRead
  repeat' first | with_reducible apply KeepsOut.next | with_reducible exact h | (intro _) | (extract_lets +onlyGivenNames sx; clear_value (hsx : sx = _); subst hsx) | (with_reducible apply runCommand_keeps) | (with_reducible apply Ans.ok_keeps) | simp only [Keeps.any] | refine Keeps.core ?_ rfl rfl rfl rfl (fun _ => rfl) rfl

theorem execPinPad_keeps (a1 : Nat) (s : State) : KeepsOut (True, s) (execPinPad a1 s) := by
  have h : Keeps (True, s) s := Keeps.refl _ _
  unfold execPinPad
  repeat' first | with_reducible apply KeepsOut.next | with_reducible exact h | (intro _) | (with_reducible apply runCommand_keeps) | (with_reducible apply Ans.ok_keeps) | (with_reducible apply State.put_keeps)

theorem execPinCounters_keeps (a1 : Nat) (s : State) : KeepsOut (True, s) (execPinCounters a1 s) := by
  have h : Keeps (True, s) s := Keeps.refl _ _
  unfold execPinCounters
  repeat' first | with_reducible apply KeepsOut.next | with_reducible exact h | (intro _) | (with_reducible apply runCommand_keeps) | (with_reducible apply State.counters_keeps) | (with_reducible apply Ans.ok_keeps)

theorem execLneChkbitsLoRead_keeps (a1 : Nat) (s : State) : KeepsOut (True, s) (execLneChkbitsLoRead a1 s) := by
  have h : Keeps (True, s) s := Keeps.refl _ _
  unfold execLneChkbitsLoRead
  repeat' first | with_reducible apply KeepsOut.next | with_reducible exact h | (with_reducible apply State.wr_keeps)

theorem execLneCtrlLock_keeps (a1 : Master) (a2 : Nat) (a3 : Word) (s : State) : KeepsOut (True, s) (execLneCtrlLock a1 a2 a3 s) := by
  have h : Keeps (True, s) s := Keeps.refl _ _
  unfold execLneCtrlLock
  repeat' first | with_reducible apply KeepsOut.next | with_reducible apply KeepsOut.ite | with_reducible exact h | (with_reducible apply State.access_keeps)

theorem execLneStatus_keeps (a1 : Nat) (s : State) : KeepsOut (True, s) (execLneStatus a1 s) := by
  have h : Keeps (True, s) s := Keeps.refl _ _
  unfold execLneStatus
  repeat' first | with_reducible apply KeepsOut.next | with_reducible exact h | (intro _) | (extract_lets +onlyGivenNames sx; clear_value (hsx : sx = _); subst hsx) | (with_reducible apply runCommand_keeps) | (with_reducible apply Ans.ok_keeps)

theorem execLnePower_keeps (a1 : Nat) (s : State) : KeepsOut (True, s) (execLnePower a1 s) := by
  have h : Keeps (True, s) s := Keeps.refl _ _
  unfold execLnePower
  repeat' first | with_reducible apply KeepsOut.next | with_reducible exact h | with_reducible assumption | (intro _) | (extract_lets +onlyGivenNames sx; clear_value (hsx : sx = _); subst hsx) | (with_reducible apply runCommand_keeps) | (with_reducible apply laneUnused_keeps) | (with_reducible apply Ans.code_keeps) | (with_reducible apply State.laneMove_keeps) | (with_reducible apply State.put_keeps) | with_reducible apply Keeps.ite_ast | with_reducible refine Keeps.foldl _ ?_ ?_ | with_reducible apply Ans.st_acc

theorem execLneRetrain_keeps (a1 : Nat) (s : State) : KeepsOut (True, s) (execLneRetrain a1 s) := by
  have h : Keeps (True, s) s := Keeps.refl _ _
  unfold execLneRetrain
  repeat' first | with_reducible apply KeepsOut.next | with_reducible exact h | (intro _) | (extract_lets +onlyGivenNames sx; clear_value (hsx : sx = _); subst hsx) | (with_reducible apply runCommand_keeps) | (with_reducible apply laneUnused_keeps) | (with_reducible apply Ans.code_keeps) | (with_reducible apply State.commandTrain_keeps) | with_reducible apply Keeps.ite_ast | with_reducible apply Ans.st_acc

theorem execLneBindoff_keeps (a1 : Nat) (s : State) : KeepsOut (True, s) (execLneBindoff a1 s) := by
  have h : Keeps (True, s) s := Keeps.refl _ _
  unfold execLneBindoff
  repeat' first | with_reducible apply KeepsOut.next | with_reducible exact h | with_reducible assumption | (intro _) | (extract_lets +onlyGivenNames sx; clear_value (hsx : sx = _); subst hsx) | (with_reducible apply State.bindsDone_keeps) | (with_reducible apply runCommand_keeps) | (with_reducible apply laneUnused_keeps) | (with_reducible apply Ans.code_keeps) | (with_reducible apply State.strBind_keeps) | (with_reducible apply State.bindDown_keeps) | with_reducible apply Keeps.ite | with_reducible apply Keeps.ite_ast | with_reducible refine Keeps.foldl _ ?_ ?_ | simp only [Keeps.any] | refine Keeps.core ?_ rfl rfl rfl rfl (fun _ => rfl) rfl | with_reducible apply Ans.st_acc

theorem execLneUp_keeps (a1 : Nat) (s : State) : KeepsOut (True, s) (execLneUp a1 s) := by
  have h : Keeps (True, s) s := Keeps.refl _ _
  unfold execLneUp
  repeat' first | with_reducible apply KeepsOut.next | with_reducible exact h | with_reducible assumption | (intro _) | (extract_lets +onlyGivenNames sx; clear_value (hsx : sx = _); subst hsx) | (with_reducible apply runCommand_keeps) | (with_reducible apply laneUnused_keeps) | (with_reducible apply Ans.code_keeps) | (with_reducible apply State.checkStop_keeps) | (with_reducible apply State.put_keeps) | (with_reducible apply State.commandTrain_keeps) | with_reducible apply Keeps.ite_ast | with_reducible refine Keeps.foldl _ ?_ ?_ | simp only [Keeps.any] | with_reducible apply Ans.st_acc

theorem execLneTest_keeps (a1 : Nat) (s : State) : KeepsOut (True, s) (execLneTest a1 s) := by
  have h : Keeps (True, s) s := Keeps.refl _ _
  unfold execLneTest
  repeat' first | with_reducible apply KeepsOut.next | with_reducible exact h | (intro _) | (extract_lets +onlyGivenNames sx; clear_value (hsx : sx = _); subst hsx) | (with_reducible apply runCommand_keeps) | (with_reducible apply laneUnused_keeps) | (with_reducible apply Ans.code_keeps) | (with_reducible apply State.checkStop_keeps) | (with_reducible apply State.setLane_keeps) | (with_reducible apply State.wr_keeps) | (with_reducible apply State.setLaneState_keeps) | with_reducible apply Keeps.ite | with_reducible apply Keeps.ite_ast

theorem execLneEq_keeps (a1 : Nat) (s : State) : KeepsOut (True, s) (execLneEq a1 s) := by
  have h : Keeps (True, s) s := Keeps.refl _ _
  unfold execLneEq
  repeat' first | with_reducible apply KeepsOut.next | with_reducible exact h | (intro _) | (extract_lets +onlyGivenNames sx; clear_value (hsx : sx = _); subst hsx) | (with_reducible apply runCommand_keeps) | (with_reducible apply laneUnused_keeps) | (with_reducible apply Ans.code_keeps) | (with_reducible apply State.put_keeps) | (with_reducible apply State.wr_keeps) | with_reducible apply Keeps.ite | with_reducible apply Keeps.ite_ast

theorem execLneAdapt_keeps (a1 : Nat) (s : State) : KeepsOut (True, s) (execLneAdapt a1 s) := by
  have h : Keeps (True, s) s := Keeps.refl _ _
  unfold execLneAdapt
  repeat' first | with_reducible apply KeepsOut.next | with_reducible exact h | (intro _) | (with_reducible apply runCommand_keeps) | (with_reducible apply laneUnused_keeps) | (with_reducible apply Ans.code_keeps) | (with_reducible apply State.put_keeps) | with_reducible apply Keeps.ite_ast

theorem execLnePattern_keeps (a1 : Nat) (s : State) : KeepsOut (True, s) (execLnePattern a1 s) := by
  have h : Keeps (True, s) s := Keeps.refl _ _
  unfold execLnePattern
  repeat' first | with_reducible apply KeepsOut.next | with_reducible exact h | (intro _) | (extract_lets +onlyGivenNames sx; clear_value (hsx : sx = _); subst hsx) | (with_reducible apply runCommand_keeps) | (with_reducible apply laneUnused_keeps) | (with_reducible apply Ans.code_keeps) | (with_reducible apply State.checkStop_keeps) | (with_reducible apply State.setLaneState_keeps) | (with_reducible apply State.wr_keeps) | with_reducible apply Keeps.ite_ast

theorem execLneCounters_keeps (a1 : Nat) (s : State) : KeepsOut (True, s) (execLneCounters a1 s) := by
  have h : Keeps (True, s) s := Keeps.refl _ _
  unfold execLneCounters
  repeat' first | with_reducible apply KeepsOut.next | with_reducible exact h | (intro _) | (extract_lets +onlyGivenNames sx; clear_value (hsx : sx = _); subst hsx) | (with_reducible apply runCommand_keeps) | (with_reducible apply laneUnused_keeps) | (with_reducible apply State.counters_keeps) | (with_reducible apply State.setLane_keeps) | (with_reducible apply Ans.ok_keeps) | with_reducible apply Keeps.ite

theorem execNop_keeps (a1 : Nat) (a2 : Nat) (s : State) : KeepsOut (True, s) (execNop a1 a2 s) := by
  have h : Keeps (True, s) s := Keeps.refl _ _
  unfold execNop
  repeat' first | with_reducible apply KeepsOut.next | with_reducible exact h | (with_reducible apply State.issueEff_keeps)

theorem execUndefinedCommand_keeps (a1 : Nat) (s : State) : KeepsOut (True, s) (execUndefinedCommand a1 s) := by
  have h : Keeps (True, s) s := Keeps.refl _ _
  unfold execUndefinedCommand
  repeat' first | with_reducible apply KeepsOut.next | with_reducible apply KeepsOut.ite | with_reducible exact h | (with_reducible apply State.takeId_keeps) | (with_reducible apply State.acknowledge_keeps) | (with_reducible apply State.answer_keeps) | with_reducible apply Keeps.ite | split

theorem execPinHandoverComplete_keeps (a1 : Nat) (s : State) : KeepsOut (True, s) (execPinHandoverComplete a1 s) := by
  have h : Keeps (True, s) s := Keeps.refl _ _
  unfold execPinHandoverComplete
  repeat' first | with_reducible apply KeepsOut.next | with_reducible exact h | (extract_lets +onlyGivenNames sx; clear_value (hsx : sx = _); subst hsx) | (with_reducible apply State.setHand_keeps) | (with_reducible apply State.reach_keeps) | (with_reducible apply State.bump_keeps) | (with_reducible apply State.wr_keeps) | (with_reducible apply State.finishRun_keeps) | simp only [Keeps.any] | split

theorem execRefClockRestored_keeps (a1 : Nat) (s : State) : KeepsOut (True, s) (execRefClockRestored a1 s) := by
  have h : Keeps (True, s) s := Keeps.refl _ _
  unfold execRefClockRestored
  repeat' first | with_reducible apply KeepsOut.next | with_reducible exact h | with_reducible assumption | (intro _) | (extract_lets +onlyGivenNames sx; clear_value (hsx : sx = _); subst hsx) | (with_reducible apply State.put_keeps) | with_reducible apply Keeps.ite | with_reducible refine Keeps.foldl _ ?_ ?_

theorem execCheckerLock_keeps (a1 : Nat) (a2 : Bool) (s : State) : KeepsOut (True, s) (execCheckerLock a1 a2 s) := by
  have h : Keeps (True, s) s := Keeps.refl _ _
  unfold execCheckerLock
  repeat' first | with_reducible apply KeepsOut.next | with_reducible apply KeepsOut.ite | with_reducible exact h | (extract_lets +onlyGivenNames sx; clear_value (hsx : sx = _); subst hsx) | (with_reducible apply State.setLane_keeps) | (with_reducible apply State.put_keeps)

theorem execDatumCalEnRise_keeps  (s : State) : KeepsOut (False, s) (execDatumCalEnRise s) := by
  have h : Keeps (False, s) s := Keeps.refl _ _
  unfold execDatumCalEnRise
  repeat' first | with_reducible apply KeepsOut.next | with_reducible refine State.setDat_keeps ?_ _ (fun hf => hf.elim) | with_reducible exact h

theorem execCalBadFrame_keeps (a1 : Nat) (s : State) : KeepsOut (False, s) (execCalBadFrame a1 s) := by
  have h : Keeps (False, s) s := Keeps.refl _ _
  unfold execCalBadFrame
  repeat' first | with_reducible apply KeepsOut.next | with_reducible apply KeepsOut.ite | with_reducible refine State.setDat_keeps ?_ _ (fun hf => hf.elim) | with_reducible exact h

theorem execFlipFlopClockEdge_keeps (a1 : Nat) (a2 : Nat) (a3 : Bool) (a4 : List Net) (s : State) : KeepsOut (True, s) (execFlipFlopClockEdge a1 a2 a3 a4 s) := by
  have h : Keeps (True, s) s := Keeps.refl _ _
  unfold execFlipFlopClockEdge
  repeat' first | with_reducible apply KeepsOut.next | with_reducible apply KeepsOut.ite | with_reducible exact h | (with_reducible apply State.asyncSettle_keeps) | (with_reducible apply State.setHigh_keeps) | (with_reducible apply State.fallEdge_keeps) | (with_reducible apply State.riseEdge_keeps)

end Sys2Proof.Machine
end

