-- ==== Sys2Proof/Laws/Routes.lean ====
section
/-! SUPPORT. Laws of walks over the graticule's mesh and of the default routes (R493, R498, R499). -/

namespace Sys2Proof.Machine
open Sys2Proof

/-- A hop north or south crosses a vertical link. -/
theorem hopTo_even {r h l r' : Nat} (he : h % 2 = 0) (H : hopTo r h = some (l, r')) : 56 ≤ l := by
  unfold hopTo at H
  split at H <;> simp_all <;> omega

/-- A hop east or west crosses a link of its own row and stays in it. -/
theorem hopTo_odd {r h l r' : Nat} (he : h % 2 = 1) (H : hopTo r h = some (l, r')) : l / 7 = r / 8 ∧ r' / 8 = r / 8 := by
  unfold hopTo at H
  split at H <;> simp_all <;> omega

/-- The first hop of a walk and the rest of it. -/
theorem walk_cons {r h : Nat} {hs ls : List Nat} {r' : Nat} (H : walk r (h :: hs) = some (ls, r')) :
    ∃ l m ms, hopTo r h = some (l, m) ∧ walk m hs = some (ms, r') ∧ ls = l :: ms := by
  unfold walk at H
  split at H
  · rename_i l m hm
    simp only [Option.map_eq_some_iff, Prod.mk.injEq, Prod.exists] at H
    obtain ⟨ms, q, hw, rfl, rfl⟩ := H
    exact ⟨l, m, ms, hm, hw, rfl⟩
  · cases H

/-- A walk of vertical hops crosses vertical links only. -/
theorem walk_even : ∀ (hs : List Nat) {r : Nat} {ls : List Nat} {r' : Nat}, (∀ h ∈ hs, h % 2 = 0) → walk r hs = some (ls, r') →
    ∀ l ∈ ls, 56 ≤ l
  | [], r, ls, r', _, H => by unfold walk at H; cases H; simp
  | h :: hs, r, ls, r', he, H => by
    obtain ⟨l, m, ms, h1, h2, rfl⟩ := walk_cons H
    intro k hk
    rcases List.mem_cons.mp hk with rfl | hk
    · exact hopTo_even (he h (by simp)) h1
    · exact walk_even hs (fun x hx => he x (by simp [hx])) h2 k hk

/-- A walk of horizontal hops, then vertical ones, crosses horizontal links of its first row only. -/
theorem walk_row : ∀ (hs : List Nat) {vs : List Nat} {r : Nat} {ls : List Nat} {r' : Nat}, (∀ h ∈ hs, h % 2 = 1) → (∀ h ∈ vs, h % 2 = 0) →
    walk r (hs ++ vs) = some (ls, r') → ∀ l ∈ ls, l / 7 = r / 8 ∨ 56 ≤ l
  | [], vs, r, ls, r', _, hv, H => fun l hl => .inr (walk_even vs hv H l hl)
  | h :: hs, vs, r, ls, r', he, hv, H => by
    obtain ⟨l, m, ms, h1, h2, rfl⟩ := walk_cons H
    obtain ⟨a, b⟩ := hopTo_odd (he h (by simp)) h1
    intro k hk
    rcases List.mem_cons.mp hk with rfl | hk
    · exact .inl a
    · rw [← b]; exact walk_row hs (fun x hx => he x (by simp [hx])) hv h2 k hk

/-- A default route crosses horizontal links of its source's row only. -/
theorem defaultLinks_row (ni dst l : Nat) (hl : l ∈ routeLinks ni (defaultHops ni dst)) : l / 7 = ni / 4 / 8 ∨ 56 ≤ l := by
  unfold routeLinks defaultHops at hl
  rw [List.dropLast_concat] at hl
  split at hl
  · rename_i p hp
    unfold xyHops at hp
    rw [List.append_assoc] at hp
    exact walk_row _ (by intro h; simp only [List.mem_append, List.mem_replicate]; omega)
      (by intro h; simp only [List.mem_append, List.mem_replicate]; omega) hp l hl
  · cases hl

/-- A fold whose every step changes nothing changes nothing. -/
theorem foldl_same {α β : Type} (f : β → α → β) (b : β) : ∀ l : List α, (∀ x ∈ l, f b x = b) → l.foldl f b = b
  | [], _ => rfl
  | x :: l, h => by
    simp only [List.foldl_cons, h x (by simp)]
    exact foldl_same f b l (fun y hy => h y (by simp [hy]))

/-- With no route entry written, the route in force is the default one. -/
theorem routeOf_default (s : State) (ni dst : Nat) (h : s.grt.routes = []) : s.routeOf ni dst = (defaultHops ni dst, 0) := by
  have none_ : List.find? (fun _ => false) (List.range 64) = none := by decide
  unfold State.routeOf State.routeIndex State.niRoute
  simp [h, sget, RouteEntry.none, none_]

/-- No interface stands in row 5 of the mesh, so no default route crosses link 35. -/
theorem detours_row5 (s : State) (p : Nat → Bool) (h : s.grt.routes = []) : s.detours p 35 = ([], false) := by
  unfold State.detours
  apply foldl_same
  intro ni hni
  have h5 : ni / 4 / 8 ≠ 5 := by revert hni; revert ni; decide
  have : ∀ dst, (routeLinks ni (defaultHops ni dst)).contains 35 = false := by
    intro dst
    rw [Bool.eq_false_iff]
    intro hc
    have := defaultLinks_row ni dst 35 (by simpa using hc)
    omega
  simp only [routeOf_default s ni _ h, this, Bool.false_eq_true, if_false]
  rw [foldl_same]
  intro x _; rfl

/-- A flag that no step of a fold clears stays set. -/
theorem foldl_flag {α β : Type} (f : β → α → β) (flag : β → Bool) (mono : ∀ b x, flag b = true → flag (f b x) = true) :
    ∀ (l : List α) (b : β), flag b = true → flag (l.foldl f b) = true
  | [], _, h => h
  | x :: l, b, h => foldl_flag f flag mono l (f b x) (mono b x h)

/-- A flag that one element sets and no step clears is set at the end of the fold. -/
theorem foldl_flag_mem {α β : Type} (f : β → α → β) (flag : β → Bool) (mono : ∀ b x, flag b = true → flag (f b x) = true) (x : α)
    (hx : ∀ b, flag (f b x) = true) : ∀ (l : List α) (b : β), x ∈ l → flag (l.foldl f b) = true
  | y :: l, b, h => by
    rcases List.mem_cons.mp h with rfl | h
    · exact foldl_flag f flag mono l _ (hx b)
    · exact foldl_flag_mem f flag mono x hx l (f b y) h

/-- A pair whose route crosses link `l` and that has no detour around `p` cuts the link's traffic off. -/
theorem detours_cut (s : State) (p : Nat → Bool) (l ni dst : Nat) (hn : ni ∈ niList) (hd : dst ∈ niList)
    (hr : (routeLinks ni (s.routeOf ni dst).1).contains l = true) (hp : detour p ni dst = none) : (s.detours p l).2 = true := by
  unfold State.detours
  refine foldl_flag_mem _ Prod.snd (fun b x h => ?_) ni (fun b => ?_) _ _ hn
  · refine foldl_flag _ (fun a : List RouteChange × Bool × List Nat => a.2.1) (fun a y h => ?_) _ _ h
    dsimp only
    split
    · split <;> first | exact h | rfl
    · exact h
  · refine foldl_flag_mem _ (fun a : List RouteChange × Bool × List Nat => a.2.1) (fun a y h => ?_) dst (fun a => ?_) _ _ hd
    · dsimp only
      split
      · split <;> first | exact h | rfl
      · exact h
    · simp only [hr, hp, if_true]

end Sys2Proof.Machine
end

