-- ==== Sys2Proof/Laws/Stitch.lean ====
section
/-! SUPPORT. What a unit's issue can do, once for all 28 opcodes: nothing, or the operation's effect followed by the end of the unit's turn. -/

namespace Sys2Proof.Machine

/-- A unit that issues and executes: the operation runs at the start of the cycle's state, and the unit is marked issued. -/
theorem State.issue_runs {s : State} {t u opc : Nat} (h : s.Issues t u opc) (run : OpCtx → State → State) :
    s.issue t u opc run = (run (s.opCtx t u) (s.cycleOpen t u).2).slotIssued t u := by
  obtain ⟨h1, h2, h3, h4, h5, h6⟩ := h
  unfold State.nowSlot at h3
  simp only [State.issue, h1, h3, h4, Bool.not_true, Bool.false_or]
  simp only [show decide (8 ≤ u) = false by simp; omega, ne_eq, not_true, decide_false, Bool.or_false, Bool.false_eq_true, if_false]
  unfold State.cycleOpen at h5 h6
  unfold State.nowSlot at h6
  unfold State.slotIssued State.opCtx State.cycleOpen State.nowSlot
  generalize (if (s.tile t).issued = [] then s.startCycle t u else (true, s)) = r at *
  obtain ⟨go, v⟩ := r
  simp only at h5 h6 ⊢
  subst h5
  simp [h6]

/-- A tile that may not issue, a unit that has issued in this cycle, or no such unit: nothing. -/
theorem State.issue_idle {s : State} {t u : Nat} (h : s.tileReady t = false ∨ 8 ≤ u ∨ (s.tile t).issued.contains u = true) (opc : Nat)
    (run : OpCtx → State → State) : s.issue t u opc run = s := by
  unfold State.issue
  rcases h with h | h | h
  · simp [h]
  · simp [h]
  · simp only [List.contains_eq_mem, decide_eq_true_eq] at h
    simp [h]

end Sys2Proof.Machine
end

