-- ==== Sys2Proof/Laws/Survey.lean ====
section
/-! SUPPORT. The records of the staged image depend on its staged words alone. -/

namespace Sys2Proof.Machine

variable {v w : Survey}

theorem Survey.word_of_staged (h : w.staged = v.staged) (i : Nat) : w.word i = v.word i := by simp only [Survey.word, h]

theorem Survey.total_of_staged (h : w.staged = v.staged) : w.total = v.total := Survey.word_of_staged h 2

theorem Survey.tile_of_staged (h : w.staged = v.staged) (i n : Nat) : w.tile i n = v.tile i n := by
  induction n generalizing i with
  | zero => simp only [Survey.tile, Survey.total_of_staged h]
  | succ n ih => simp only [Survey.tile, Survey.word_of_staged h, Survey.total_of_staged h, ih]

theorem Survey.parse_of_staged (h : w.staged = v.staged) : w.parse = v.parse := by
  simp only [Survey.parse, Survey.total_of_staged h, Survey.tile_of_staged h]

end Sys2Proof.Machine
end

