-- ==== Sys2Proof/Tests/Slice0.lean ====
section
/-! SUPPORT. Tests: decoding, well-formedness, states that meet the hypotheses of the statements (one theorem for each statement, named
test_wit_<statement>), and single steps whose results are the spec's own. -/

namespace Sys2Proof.Tests
open Sys2Proof Sys2Proof.Machine

set_option Elab.async false

/-! ### Small states -/

/-- The device after reset in another device state, with a survey in force. -/
def base (d : DevState := .charted) : State :=
  { State.reset with sys := { State.reset.sys with dev := d, xtalStable := true }, svy := { Survey.init with committed := true } }

/-- `s` with a command posted in mailbox `mb` that wants its reply. -/
def cmdAt (mb code : Nat) (payload : List Nat) (s : State) (session : Nat := 0) : State :=
  s.postInto mb (word (code * 65536 + (code / 128 % 2) * 512 + 1024 + (2 + payload.length)) :: word (7 * 65536 + session) :: payload.map word)

/-- `s` with an expert session open. -/
def expert (s : State) : State := { s with sys := { s.sys with session := some ⟨5, 600, 0⟩ } }

/-- `s` with an open command. -/
def opened (s : State) (id code : Nat) (args : List Nat) : State :=
  { s with mbx := { s.mbx with open_ := [⟨id, 0, code, 7, 0, false, 0, none, args⟩], nextId := id + 1 } }

/-- `s` with lane `n` of class `c` (group 0) in lane state `st`, its reference good. -/
def laneIn (s : State) (n c st : Nat) : State :=
  (((s.wr (R.LNE_RATE n) (word (c * 16))).put (R.LNE_STATUS n) F.LNE_STATUS_REF_OK 1).setLaneState n st)

/-- `s` with stream `n` open: its endpoints, and GCRED, SCHED and BUFFERED as given. -/
def streamIn (s : State) (n prod cons : Nat) (gcred : Nat := 64) (sched buffered : Bool := false) : State :=
  ((((s.setStream n { Stream.closed with st := .open_ }).wr (strKey n R.STR_ENDS) (word (prod * 65536 + cons))).put (strKey n R.STR_CFG)
    F.STR_CFG_GCRED gcred).put (strKey n R.STR_CFG) F.STR_CFG_SCHED (b2n sched)).put (strKey n R.STR_CFG) F.STR_CFG_BUFFERED (b2n buffered)

/-- `s` with gate channel `g` of wale `w` bound to stream `n`. -/
def gateBound (s : State) (w g n : Nat) : State :=
  ((s.put (R.WAL_CTRL w) F.WAL_CTRL_GATE_EN 1).put (R.WAL_GATE w g) F.WAL_GATE_EN 1).put (R.WAL_GATE w g) F.WAL_GATE_STREAM n

/-- Two elements of data. -/
def el (v : Nat) : Elem := ⟨BitVec.ofNat 64 v, 0⟩

/-- `s` with a command in MB0 (an expert one within the open session). -/
def at0 (code : Nat) (payload : List Nat) (s : State) : State :=
  if code / 128 % 2 = 1 then cmdAt 0 code payload (expert s) 5 else cmdAt 0 code payload s



/-! ### Hypotheses met -/

theorem test_wit_StepRunsFront : ({ State.reset with pending := [.vddAonLost] } : State).pending = .vddAonLost :: [] := by decide
theorem test_wit_StepIdles : State.reset.pending = [] := by decide
theorem test_wit_ChecksRefuse :
    let s := cmdAt 3 0x0103 [0] { base with svy := Survey.init }
    s.startable 3 = true ∧ (s.msg 3).code = spec_SYS_STATE.code ∧ headerCheck [spec_SYS_STATE.code] (s.msg 3) = none ∧ s.queued 3 < 16 ∧
    earlyCheck spec_SYS_STATE (s.msg 3) s = some .SURVEY_MISSING := by decide
theorem test_wit_NoMessageNoEffect : (base).startable 0 = false ∧ commandOf (.sysStatus 0) = some (0, spec_SYS_STATUS) := by decide
theorem test_wit_MailboxAnswers_busy :
    let s := cmdAt 0 0x0101 [] (base.setOutq 0 (List.replicate 16 ⟨0, false, none, none, some []⟩))
    s.startable 0 = true ∧ (s.msg 0).code = spec_SYS_STATUS.code ∧ headerCheck [spec_SYS_STATUS.code] (s.msg 0) = none ∧ 16 ≤ s.queued 0 ∧
    (s.msg 0).replyWanted = true := by decide
theorem test_wit_MailboxAnswers_acknowledge : (cmdAt 19 0x0101 [] base).RegsWf := by unfold State.RegsWf; decide
theorem test_wit_MailboxAnswers_reply :
    let s := cmdAt 16 0x0101 [] base
    s.RegsWf ∧ s.serving = true ∧ s.pairRuns (pairOf 16) = true ∧ s.outq 16 = [] ∧ s.full (replyMb 16) = false ∧ (s.msg 16).replyWanted = true ∧
    ((base).msg 0).replyWanted = false := by unfold State.RegsWf; decide
/-- OFF with every monitored rail valid since time 5. -/
def offed : State := { base.powerLost with sys := { base.powerLost.sys with rails := monitoredRails, allValidAt := some 5 } }

theorem test_wit_StartUp_supplies :
    (base.sys.rails.contains (.vddio 6) = true ∧ (base.powerLost.sys.rails.filter (· ≠ Rail.vddAon)).contains .vddAon = false) ∧
    (offed.sys.dev = .off ∧ offed.sys.allValidAt = some 5) ∧ monitoredRails.contains (.vddio 6) = true := by decide
theorem test_wit_StartUp_reset :
    (State.reset.sys.dev ≠ .off ∧ State.reset.sys.perst = false ∧ State.reset.sys.xtalStable = false ∧ State.reset.endpoint = true ∧
      State.reset.get R.PCI_STATUS F.PCI_STATUS_LINK_UP = 0 ∧ State.reset.host.targetSpeed < 8) ∧
    ({ State.reset with sys := { State.reset.sys with perst := true } } : State).sys.perst = true := by decide
theorem test_wit_StartUp_images :
    let s : State := { State.reset with sys := { State.reset.sys with xtalStable := true } }
    s.sys.imagesLeft = .slotA :: [.slotB, .benchmark] ∧ s.sys.dev = .boot ∧ s.sys.xtalStable = true := by decide
/-- DORMANT. -/
def dormant : State := { base .dormant with pwr := { (base).pwr with dorm := .dormant } }

theorem test_wit_MailboxRows :
    ((base).mbxRefuses .host 7 = false ∧ busReach .host true (mbWordAddr 7 63) = true ∧ (base).senderRuns .host 7 = true) ∧
    ((base).mbxRefuses (.sheet 31) 19 = false ∧ (base).senderRuns (.sheet 31) 19 = true ∧ busReach (.sheet 31) true (mbWordAddr 19 0) = true ∧ (base).pwr.dorm = .none) ∧
    (dormant.sys.dev = .dormant ∧ dormant.pwr.dorm = .dormant ∧ dormant.full 0 = false ∧
      dormant.get R.PWR_STATUS F.PWR_STATUS_WAKE_SRC = 0) ∧
    ((cmdAt 7 0x0101 [] base).full 7 = true ∧ (cmdAt 7 0x0101 [] base).senderRuns .ubtor 7 = true) ∧
    sget (fun _ => none) ((base).setClaim 16 (some ⟨3, 9⟩)).mbx.claims 16 = some ⟨3, 9⟩ := by decide
theorem test_wit_RegisterWrites_rejected :
    (cmdAt 0 0x0101 [] base).mbxRefuses .host 0 = true ∧ busReach .host true (mbWordAddr 0 0) = true ∧
    (cmdAt 0 0x0101 [] base).senderRuns .host 0 = true ∧
    (base).mbxRefuses (.sheet 3) 20 = true ∧ busReach (.sheet 3) true (mbWordAddr 20 1) = true ∧ (base).senderRuns (.sheet 3) 20 = true := by decide
theorem test_wit_RegisterWrites_err : (base).sys.dev ≠ .off ∧ busReach .host true 0x20000 = false ∧ (base .off).sys.dev = .off := by decide
theorem test_wit_RegisterWrites_stamp : busReach .host false R.DEV_STAMP_LO = true ∧ busReach .jtag false R.DEV_STAMP_LO = true := by decide
theorem test_wit_RegisterWrites_codes :
    (base).RegsWf ∧ (base).sys.dev ≠ .off ∧ 31 < 32 ∧ 2 < 3 ∧ (sget (fun _ => (0, 0)) ((base).raise (R.SHT_STICKY 31) 2).raised (R.SHT_STICKY 31)).2 < 2 ^ 32 := by
  unfold State.RegsWf; decide +kernel
theorem test_wit_HardwareSetWins :
    (base).RegsWf ∧ 31 < 32 ∧ 2 ^ 32 - 1 < 2 ^ 32 ∧
    (let s : State := { (base).raise (R.SHT_STICKY 0) 1 with stamp := (base).stamp + 1 }
     (sget (fun _ => (0, 0)) s.raised (R.SHT_STICKY 0)).1 ≠ s.stamp) := by
  unfold State.RegsWf; decide +kernel
theorem test_wit_SysReadsAndWrites_done :
    (cmdAt 0 0x0101 [] (base .halted)).Serves 0 spec_SYS_STATUS ∧ (cmdAt 19 0x0102 [1, 2, 3] base).Serves 19 spec_SYS_ECHO ∧
    (let s := cmdAt 0 0x0180 [R.THM_CFG, 0, 1] (expert base) 5
     s.Serves 0 spec_SYS_REG_READ ∧ (s.msg 0).n 4 5 0 = 1 ∧ ((s.msg 0).regAddrs.all (fun a => a % 4 == 0 && inBlock a)) = true ∧
     (s.readAll (s.msg 0).regAddrs).isSome = true ∧ s.ubtorWaits (s.msg 0).regAddrs = none) ∧
    (let s := cmdAt 0 0x0180 [R.SHT_CTRL 3, 0, 1] ((expert base).setStage 3 .off) 5
     s.Serves 0 spec_SYS_REG_READ ∧ s.ubtorWaits (s.msg 0).regAddrs = some 3 ∧ (s.readAll (s.msg 0).regAddrs).isSome = true) ∧
    (let s := cmdAt 0 0x0181 [R.THM_CFG, 0, 1, 90] (expert base) 5
     s.Serves 0 spec_SYS_REG_WRITE ∧ (s.msg 0).n 4 5 0 = 1 ∧ (s.msg 0).length = 6 ∧
     ((s.msg 0).regAddrs.all (fun a => a % 4 == 0 && inBlock a && !noRegWrite a)) = true ∧
     (s.writeAll (s.msg 0).regWrites).isSome = true ∧ s.ubtorWaits (s.msg 0).regAddrs = none) ∧
    (let s := cmdAt 0 0x0181 [R.SHT_CTRL 3, 0, 1, 0] ((expert base).setStage 3 .off) 5
     s.Serves 0 spec_SYS_REG_WRITE ∧ s.ubtorWaits (s.msg 0).regAddrs = some 3 ∧ (s.writeAll (s.msg 0).regWrites).isSome = true) := by
  decide +kernel
theorem test_wit_SysReadsAndWrites_forbidden :
    let s := cmdAt 0 0x0181 [0xC0000, 0, 1, 90] (expert base) 5
    s.Serves 0 spec_SYS_REG_WRITE ∧ (s.msg 0).n 4 5 0 = 1 ∧ (s.msg 0).length = 6 ∧
    ((s.msg 0).regAddrs.all (fun a => a % 4 == 0 && inBlock a)) = true ∧ (s.msg 0).regAddrs.any noRegWrite = true := by decide
theorem test_wit_SysResetAndCauses :
    ((cmdAt 0 0x0104 [0xB007] base).Serves 0 spec_SYS_RESET ∧ ((cmdAt 0 0x0104 [0xB007] base).msg 0).n 2 15 0 = 0xB007 ∧
      (base).sys.resetAt = none) ∧
    ((cmdAt 0 0x0104 [1] base).Serves 0 spec_SYS_RESET ∧ ((cmdAt 0 0x0104 [1] base).msg 0).n 2 15 0 ≠ 0xB007) ∧
    (cmdAt 0 0x0105 [3] base).Serves 0 spec_SYS_CAUSE_CLEAR := by decide
/-- A survey whose POLICY record permits expert sessions. -/
def policyOn : State := { base with svy := { (base).svy with recs := [⟨10, 0, [1]⟩] } }

theorem test_wit_SessionsAndFirmware_sessions :
    ((cmdAt 0 0x0106 [3600] policyOn).Serves 0 spec_SYS_EXPERT_OPEN ∧ ((cmdAt 0 0x0106 [3600] policyOn).msg 0).n 2 15 0 ≤ 3600 ∧
      (cmdAt 0 0x0106 [3600] policyOn).policy 0 = true ∧ policyOn.sys.session = none) ∧
    ((cmdAt 0 0x0107 [5] (expert base)).Serves 0 spec_SYS_EXPERT_CLOSE ∧ (expert base).sys.session = some ⟨5, 600, 0⟩ ∧ (expert base).mbx.pairsInReset.contains 0 = false ∧
      ((cmdAt 0 0x0107 [5] (expert base)).msg 0).n 2 15 0 = 5) := by decide
theorem test_wit_SessionsAndFirmware_firmware :
    (let s := cmdAt 0 0x0108 [0, 1, 0x800000, 1] base
     s.Serves 0 spec_SYS_FW_UPDATE ∧ (s.msg 0).n 2 11 0 = 0 ∧ 0 < ((s.msg 0).w 4).toNat ∧ ((s.msg 0).w 4).toNat ≤ 0x800000 ∧
     imageSlot ((s.msg 0).b 5 0) ≠ s.sys.fwSlot ∧ s.sys.fwUpdate = none) ∧
    (let s : State := { opened base 4 0x0108 [3, 2] with sys := { (base).sys with fwUpdate := some 4 } }
     s.sys.fwUpdate = some 4 ∧ (s.openById 4).map (·.args) = some [3, ([0x51, 0xD7] : List Byte).length]) := by decide
theorem test_wit_StateOrders :
    (let s := cmdAt 0 0x0103 [0] (base .onAir)
     s.Serves 0 spec_SYS_STATE ∧ (s.msg 0).host = true ∧ s.pwr.dorm = .none ∧ s.openOf 0x0103 = none ∧ (s.msg 0).n 2 1 0 = 0) ∧
    (let s := cmdAt 0 0x0103 [1] (base .quiet)
     s.Serves 0 spec_SYS_STATE ∧ (s.msg 0).n 2 1 0 = 1 ∧ s.sys.dev = .quiet) ∧
    (let s := cmdAt 0 0x0103 [2] (base .quiet)
     s.Serves 0 spec_SYS_STATE ∧ (s.msg 0).n 2 1 0 = 2 ∧ s.sys.dev = .quiet) ∧
    (let s := cmdAt 16 0x0103 [0] (base .onAir)
     s.Serves 16 spec_SYS_STATE ∧ (s.msg 16).host = false) ∧
    (let s := cmdAt 0 0x0103 [2] (base .onAir)
     s.Serves 0 spec_SYS_STATE ∧ s.mayEnter ((s.msg 0).n 2 1 0) = false) := by decide
theorem test_wit_HeadersAndLockstep :
    (let s := cmdAt 0 0x7777 [] base
     s.startable 0 = true ∧ headerCheck commandCodes (s.msg 0) = some .BAD_COMMAND ∧ s.queued 0 < 16) ∧
    ((base).pairRuns 3 = true ∧ (base).serving = true) ∧
    ({ base with mbx := { (base).mbx with pairsInReset := [3] } } : State).mbx.pairsInReset.contains 3 = true := by decide
/-- READY, nothing staged. -/
def ready : State := { base .ready with svy := Survey.init }

theorem test_wit_SurveyCommands_staging :
    (let s := cmdAt 0 0x0201 [65532, 1] ready
     s.Serves 0 spec_SURVEY_LOAD ∧ (s.msg 0).n 2 15 0 % 4 = 0 ∧ (s.msg 0).n 2 15 0 + 4 * ((s.msg 0).length - 3) ≤ 65536) ∧
    (cmdAt 0 0x0203 [] ready).Serves 0 spec_SURVEY_ABORT ∧
    ((cmdAt 0 0x0202 [1] ready).Serves 0 spec_SURVEY_COMMIT ∧ ready.sys.dev = .ready ∧ ready.svy.committing = false ∧
      ready.svy.committed = false) ∧
    (let s : State := { ready with svy := { ready.svy with committing := true } }
     (cmdAt 0 0x0203 [] s).Serves 0 spec_SURVEY_ABORT ∧ (cmdAt 0 0x0203 [] s).svy.committing = true) ∧
    (cmdAt 0 0x0203 [] base).Serves 0 spec_SURVEY_ABORT ∧ (cmdAt 0 0x0203 [] base).svy.committed = true := by decide
theorem test_wit_SurveyCommands_ends :
    let s (args : List Nat) : State := { opened ready 4 0x0202 args with svy := { ready.svy with committing := true } }
    ((s [3, 8]).openOf 0x0202).map (·.args) = some [3, 8] ∧ ((s []).openOf 0x0202).map (·.args) = some [] ∧ (s []).svy.committing = true ∧
      (s []).mbx.pairsInReset.contains 0 = false := by
  decide
theorem test_wit_SurveyCommands_reads :
    (cmdAt 0 0x0204 [] base).Serves 0 spec_SURVEY_STATUS ∧
    (let s := cmdAt 0 0x0205 [0, 1] { base with svy := { (base).svy with words := [7] } }
     s.Serves 0 spec_SURVEY_READ ∧ (s.msg 0).n 2 15 0 + 4 * (s.msg 0).n 3 5 0 ≤ 4 * s.svy.words.length) ∧
    (cmdAt 0 0x0206 [0] base).Serves 0 spec_SURVEY_MISMATCH := by decide

/-- Tile 0 in pattern 0, its trip count 1, with opcode `opc` in slot 0 of unit 0. -/
def tileAt (opc : Nat) : State :=
  let s : State := { base with stitch := { (base).stitch with pats := [(4, 1), (0x409, BitVec.ofNat 8 (4 * opc))] } }
  s.setTile 0 { Tile.init with live := true }

theorem test_wit_TileProducts :
    (tileAt 0x01).Issues 0 0 0x01 ∧ (tileAt 0x02).Issues 0 0 0x02 ∧ (tileAt 0x03).Issues 0 0 0x03 ∧ (tileAt 0x04).Issues 0 0 0x04 ∧
    (tileAt 0x05).Issues 0 0 0x05 ∧ (tileAt 0x06).Issues 0 0 0x06 ∧ (tileAt 0x07).Issues 0 0 0x07 ∧ (tileAt 0x16).Issues 0 0 0x16 := by decide
theorem test_wit_TileLanesAndFloat :
    (tileAt 0x08).Issues 0 0 0x08 ∧ (tileAt 0x09).Issues 0 0 0x09 ∧ (tileAt 0x0A).Issues 0 0 0x0A ∧ (tileAt 0x0B).Issues 0 0 0x0B ∧
    (tileAt 0x0C).Issues 0 0 0x0C ∧ (tileAt 0x0D).Issues 0 0 0x0D := by decide
theorem test_wit_TileLanesAndFloat_rest :
    (tileAt 0x0E).Issues 0 0 0x0E ∧ (tileAt 0x0F).Issues 0 0 0x0F ∧ (tileAt 0x10).Issues 0 0 0x10 ∧ (tileAt 0x15).Issues 0 0 0x15 ∧ (tileAt 0x00).Issues 0 0 0x00 := by decide
theorem test_wit_TileLanesAndFloat_binary32 :
    (tileAt 0x20).Issues 0 0 0x20 ∧ (tileAt 0x21).Issues 0 0 0x21 ∧ (tileAt 0x22).Issues 0 0 0x22 ∧ (tileAt 0x23).Issues 0 0 0x23 ∧
    (tileAt 0x24).Issues 0 0 0x24 := by decide
/-- A tile at a SIN with an ordinary element in its input. -/
def sinAt : State := (tileAt 0x13).setTile 0 { Tile.init with live := true, inBuf := [((tileAt 0x13).icKey 0 0 0, [⟨5, 0⟩])] }

theorem test_wit_TileMemoryAndSlots :
    (tileAt 0x11).Issues 0 0 0x11 ∧ (tileAt 0x12).Issues 0 0 0x12 ∧
    (sinAt.Issues 0 0 0x13 ∧
      (let e := sinAt.opCtx 0 0
       e.x.held (e.s.icKey 0 e.p (e.w.ag % 4)) = ⟨5, 0⟩ :: [] ∧ (⟨5, 0⟩ : Elem).isSeam = false)) ∧
    (tileAt 0x11).tileReady 1 = false := by decide
/-- `sinAt` with a seam in the input in place of the element. -/
def sinSeamAt : State := (tileAt 0x13).setTile 0 { Tile.init with live := true, inBuf := [((tileAt 0x13).icKey 0 0 0, [mkSeam 5])] }

theorem test_wit_TileMemoryAndSlots_seam :
    sinSeamAt.Issues 0 0 0x13 ∧
    (let e := sinSeamAt.opCtx 0 0
     e.x.held (e.s.icKey 0 e.p (e.w.ag % 4)) = mkSeam 5 :: [] ∧ (mkSeam 5).isSeam = true) := by decide
/-- A tile at a SOUT whose channel drives output 0. -/
def soutAt : State := { tileAt 0x14 with stitch := { (tileAt 0x14).stitch with pats := [(4, 1), (0x98, 0x80), (0x409, 0x50)] } }

theorem test_wit_TileMemoryAndSlots_sout :
    soutAt.Issues 0 0 0x14 ∧
    (let e := soutAt.opCtx 0 0
     let w := e.s.applyEff 0 0 { e.gives 1 0 (codeBanks e.w.a) with lands := [] }
     let w := if e.soutElem.2 then w.walCount 0 4 else w
     (w.ocKey 0 e.p (e.w.ag % 4)).isSome = true ∧ (w.tile 0).out ((w.ocKey 0 e.p (e.w.ag % 4)).getD 0) = []) := by decide
/-- `soutAt` in a cycle that unit 7 has issued in, with elements waiting in outputs 0 and 1 of its port, the port's pointer at `ptr`. -/
def soutHeld (ptr : Nat) : State :=
  soutAt.setTile 0 { Tile.init with live := true, issued := [7], outBuf := [(0, [⟨5, 0⟩]), (1, [⟨6, 0⟩])], rr := sset (fun _ => 0) [] 0 ptr }

theorem test_wit_TileMemoryAndSlots_port :
    (let w (s : State) := (let e := s.opCtx 0 0; e.s.applyEff 0 0 { e.gives 1 0 (groupBanks e.w.a 2) with lands := [] })
     ((soutHeld 0).Issues 0 0 0x14 ∧ ((w (soutHeld 0)).tile 0).out 0 = ⟨5, 0⟩ :: [] ∧ (w (soutHeld 0)).portWins 0 0 0 = true) ∧
     ((soutHeld 1).Issues 0 0 0x14 ∧ ((w (soutHeld 1)).tile 0).out 0 = ⟨5, 0⟩ :: [] ∧ (w (soutHeld 1)).portWins 0 0 0 = false) ∧
     ((tileAt 0x14).Issues 0 0 0x14 ∧ (w (tileAt 0x14)).ocKey 0 ((tileAt 0x14).opCtx 0 0).p 0 = none)) := by decide

theorem test_wit_StitchLinksAndSwitches_accesses :
    (((base).setTile 0 { Tile.init with lastSeam := some 3 }).setTmems 0 8 [1]).tile 0 = { Tile.init with lastSeam := some 3 } ∧
    swf (fun _ => (0 : Byte)) (base).stitch.mem = true ∧ (base).RegsWf ∧ 639 < 640 ∧ 39 < 40 ∧ 65535 < 65536 ∧ 15 < 16 := by
  unfold State.RegsWf; decide +kernel
/-- Tile 0 live with an element in output 0, a credit owed there, and gates of wale 0 bound: stream 3 into it, stream 4 out of it. -/
def linked : State :=
  let s := (base).setTile 0 { Tile.init with live := true, outBuf := [(0, [el 9])], owed := [(0, 1)] }
  let s := gateBound (gateBound (streamIn (streamIn s 3 0x1000 (gateEp 0 0)) 4 (gateEp 0 8) 0x2000) 0 0 3) 0 8 4
  (s.setStream 3 { s.stream 3 with inbox := [el 7] }).setStream 4 { s.stream 4 with outbox := [el 8] }

theorem test_wit_StitchLinksAndSwitches_links :
    (linked.waleRuns (waleOf 0) = true ∧ linked.tileNull 0 = false ∧ (linked.tile 0).live = true ∧ linked.dnOpen 0 = false ∧
      (let linked := linked.dnSettle 0
       let ptr := sget (fun _ => 0) (linked.tile 0).rr 0
       (List.range 4).findSome? (fun i => (linked.linkReady 0 0 ((ptr + i) % 4)).map (fun r => ((ptr + i) % 4, r))) =
         some (0, (el 9, none)))) ∧
    (sget (fun _ => 0) (linked.tile 0).owed (4 * 0 + 0) ≠ 0 ∧ linkTo 0 0 = some (1, 2)) ∧
    (linked.gateStream 0 0 = some 3 ∧ ((linked.tile 0).held 8).length + sget (fun _ => 0) (linked.tile 0).owed 8 < 4 ∧
      (linked.strTake 3).1 = some (el 7)) ∧
    (linked.gateStream 0 8 = some 4 ∧ (linked.stream 4).outbox = el 8 :: [] ∧ (linked.strOffer 4 none (el 8)).1 = true) := by decide +kernel
theorem test_wit_StitchLinksAndSwitches_switches :
    (let d : Drain := ⟨0, 0, el 0, 0⟩
     let s := (base).setTile 0 { Tile.init with drain := some d }
     (s.tile 0).drain = some d ∧ d.left = 0 ∧ s.waleRuns (waleOf 0) = true) ∧
    (let o : PatOrder := ⟨1, 0, 5, .reg, false⟩
     let s := (base).setWale 0 { (base).wale 0 with orders := [o] }
     s.nextPattern 0 = some o ∧ (s.wale 0).shift = none ∧ s.islandRefuses 32 = false ∧ s.islandRuns 32 = true ∧ s.betweenCycles 0 o = true ∧
     ((s.reach o.at_).commitLand.setWale 0 { (s.reach o.at_).commitLand.wale 0 with orders := [] }).islandRefuses 32 = false) ∧
    (let o : PatOrder := ⟨1, 0, 5, .reg, false⟩
     let s := ((base).setWale 0 { (base).wale 0 with orders := [o] }).setStage 32 .off
     s.nextPattern 0 = some o ∧ (s.wale 0).shift = none ∧ s.islandRefuses 32 = true ∧
     ((s.reach o.at_).commitLand.setWale 0 { (s.reach o.at_).commitLand.wale 0 with orders := [] }).islandRefuses 32 = true) ∧
    (let sh : Shift := ⟨1, none, false⟩
     let s := (base).setWale 0 { (base).wale 0 with shift := some sh }
     (s.wale 0).shift = some sh ∧ s.islandRuns 32 = true) := by decide +kernel
theorem test_wit_WalCommandEffects :
    (let s := at0 0x0A01 [39] base
     s.Serves 0 spec_WAL_STATUS ∧ foreignWale (s.msg 0) s 39 = false ∧ (s.wale 39).shift = none ∧ (s.msg 0).n 2 5 0 = 39) ∧
    (let s := at0 0x0A02 [0, 1 * 65536] ((base).setBit (R.WAL_PATVALID 0 0) 0 true)
     s.Serves 0 spec_WAL_SWITCH ∧ (s.msg 0).n 3 31 16 = 1 ∧ tilesOf 0 1 = [0] ∧ s.patValid 0 0 = true) ∧
    (let s := at0 0x0A03 [0, 2 ^ 31 + 3] base
     s.Serves 0 spec_WAL_BIND ∧ bindForeign s 0 3 = false ∧ s.flag (R.WAL_GATE 0 0) F.WAL_GATE_EN = false) ∧
    (at0 0x0A04 [0, 65536 + 31] base).Serves 0 spec_WAL_STICKY_CLEAR ∧
    (let s := at0 0x0A80 [15 * 256, 16] ((base).setBit (R.WAL_STATUS 0) 15 true)
     s.Serves 0 spec_WAL_BANKMAP ∧ s.flag (R.WAL_CTRL 0) F.WAL_CTRL_LOCK = false ∧ s.tileNull 15 = true) ∧
    (at0 0x0A81 [256] base).Serves 0 spec_WAL_FREEZE ∧
    (let s := at0 0x0A82 [16 * 256] base
     s.Serves 0 spec_WAL_SHIFT ∧ (s.msg 0).n 2 12 8 = 16 ∧ s.flag (R.WAL_SHIFT 0) F.WAL_SHIFT_FUSED = false ∧ s.stage 32 = .on ∧
     s.pwr.dorm = .none ∧ s.spareHeld 0 = false) ∧
    (at0 0x0A83 [0] base).Serves 0 spec_WAL_COUNTERS := by decide +kernel
/-- Sheet 3, of the tenant with KeyID 2, has posted WAL.STICKY_CLEAR for a wale that is not its tenant's. -/
def foreign : State :=
  let s : State := cmdAt 16 0x0A04 [0, 0] { base with svy := { (base).svy with recs := [⟨9, 0, [2, 0, 8, 0, 0, 0]⟩] } }
  { s with mbx := { s.mbx with poster := [(16, some 3)] } }

theorem test_wit_WalCommandEffects_refused :
    (let s := at0 0x0A81 [40] base
     s.Serves 0 spec_WAL_FREEZE ∧ 40 ≤ (s.msg 0).n 2 5 0) ∧
    (foreign.Serves 16 spec_WAL_STICKY_CLEAR ∧ (foreign.msg 16).n 2 5 0 = 0 ∧ foreignWale (foreign.msg 16) foreign 0 = true) ∧
    (let s := at0 0x0A81 [0] ((base).setWale 0 { (base).wale 0 with shift := some ⟨1, none, false⟩ })
     s.Serves 0 spec_WAL_FREEZE ∧ foreignWale (s.msg 0) s 0 = false ∧ (s.wale 0).shift.isSome = true) ∧
    (let s := at0 0x0A04 [40, 0] base
     s.Serves 0 spec_WAL_STICKY_CLEAR ∧ 40 ≤ (s.msg 0).n 2 5 0) ∧
    (let s := at0 0x0A82 [17 * 256] base
     s.Serves 0 spec_WAL_SHIFT ∧ 16 < (s.msg 0).n 2 12 8) ∧
    (let s := at0 0x0A82 [256] ((base).setWale 0 { (base).wale 0 with shift := some ⟨1, none, false⟩ })
     s.Serves 0 spec_WAL_SHIFT ∧ (s.wale 0).shift.isSome = true) := by decide +kernel
/-- Sheet 0 clocked with plane 1 valid and, when `act`, plane 0 active; its plane control requests NORMAL on port 0. -/
def sheeted (act : Bool := true) : State :=
  let s := ((base).put (R.SHT_STATUS 0) F.SHT_STATUS_PLANE_VALID 3).put (R.SHT_STATUS 0) F.SHT_STATUS_NONE_ACTIVE (b2n (!act))
  { s with fabric := { s.fabric with ctrl := [(0x19A, 1)] } }

/-- `s` with the clock of sheet 0 stopped. -/
def clockStopped (s : State) : State := { s with pwr := { s.pwr with clkStop := [(0, true)] } }
/-- `s` with tree `tree` of sheet 0 high. -/
def treeHigh (s : State) (tree : Nat) : State := { s with fabric := { s.fabric with lck := [(tree, 1)] } }

theorem test_wit_SheetEdgesAndBlocks_clock :
    ((clockStopped (sheeted)).stage 0 = .on ∧ (((clockStopped (sheeted)).setHigh 0 [.io 1]).asyncSettle 0).islandRuns 0 = false) ∧
    (let v (s : State) := (s.setHigh 0 [.io 1]).asyncSettle 0
     let w (s : State) := (((v s).closeWindow 0).selvRegister 0).risen 0
     ((sheeted).stage 0 = .on ∧ (v (sheeted)).islandRuns 0 = true ∧ (w (sheeted)).activePlane 0 = some 0) ∧
     ((v (sheeted false)).islandRuns 0 = true ∧ (w (sheeted false)).activePlane 0 = none)) := by decide +kernel
theorem test_wit_SheetEdgesAndBlocks_falling :
    (let v (s : State) := (s.setHigh 0 []).asyncSettle 0
     (sget (fun _ => 0) (v (sheeted)).fabric.lck 3 = 0 ∧ (v (sheeted)).islandRuns 0 = true) ∧
     (let s := treeHigh (sheeted) 3
      s.stage 0 = .on ∧ (v s).islandRuns 0 = true ∧ sget (fun _ => 0) (v s).fabric.lck 3 ≠ 0 ∧ (v s).window 0 = none ∧
      (v s).activePlane 0 = some 0) ∧
     (let s := treeHigh ((sheeted).setWindow 0 (some none)) 3
      (v s).islandRuns 0 = true ∧ sget (fun _ => 0) (v s).fabric.lck 3 ≠ 0 ∧ ((v s).window 0).isSome = true)) := by decide +kernel
/-- A switch of sheet 0 to plane `p` waits for the edge after instant 5. -/
def planeOrdered (s : State) (p : Nat) : State := s.setPlaneOrders 0 [⟨p, 5, .reg, false⟩]

theorem test_wit_SheetEdgesAndBlocks_switch :
    (let o (p : Nat) : PlaneOrder := ⟨p, 5, .reg, false⟩
     let v (s : State) (p : Nat) : State :=
       (let h := s.setHigh 0 ([7].map .io ++ []); (((h.reach 5).setPlaneOrders 0 ((h.planeOrders 0).erase (o p))).commitLand))
     let s (p : Nat) := planeOrdered (sheeted) p
     ((s 1).nextPlane 0 = some (o 1) ∧ (s 1).switchReady 0 = true ∧ (v (s 1) 1).islandRefuses 0 = false ∧ (v (s 1) 1).planeValid 0 1 = true ∧
       (v (s 1) 1).activePlane 0 ≠ some 1) ∧
     ((s 0).nextPlane 0 = some (o 0) ∧ (s 0).switchReady 0 = true ∧ (v (s 0) 0).islandRefuses 0 = false ∧ (v (s 0) 0).planeValid 0 0 = true ∧
       (v (s 0) 0).activePlane 0 = some 0) ∧
     ((s 3).nextPlane 0 = some (o 3) ∧ (s 3).switchReady 0 = true ∧ (v (s 3) 3).islandRefuses 0 = false ∧
       (v (s 3) 3).planeValid 0 3 = false) ∧
     (let r := (s 1).setStage 0 .off
      r.nextPlane 0 = some (o 1) ∧ r.switchReady 0 = true ∧ (v r 1).islandRefuses 0 = true)) := by decide +kernel
theorem test_wit_SheetEdgesAndBlocks_edges :
    ((opened (sheeted) 3 0x0904 [900, 1, 1, 0, 0, 0]).openOf 0x0904 (fun o => !o.args.isEmpty)).isSome = true ∧
    (((sheeted).setNet 31 3 1).net 31 3 = 1 ∧ ((sheeted).setNet 31 3 1).islandRuns 31 = true) := by decide +kernel
theorem test_wit_RiserPorts :
    ((sheeted).riserOpen 0 0 = true ∧ sget (fun _ => 0) (sheeted).fabric.txSpent 3 < 12) ∧
    (let s : State := { sheeted with fabric := { (sheeted).fabric with txSpent := [(3, 12)] } }
     s.riserOpen 0 0 = true ∧ 12 ≤ sget (fun _ => 0) s.fabric.txSpent 3) ∧
    (let s : State := { sheeted with fabric := { (sheeted).fabric with rx := [(3, [el 4])] } }
     s.riserOpen 0 0 = true ∧ sget (fun _ => []) s.fabric.rx (4 * (40 * 0 + 0) + 3) = el 4 :: [] ∧
     s.dnOpen (tileOfRiser 0 0).1 = false ∧
     (let w := s.setTile (tileOfRiser 0 0).1 { Tile.init with dnEdge := some s.stamp }
      w.riserOpen 0 0 = true ∧ (w.dnSettle (tileOfRiser 0 0).1).dnOpen (tileOfRiser 0 0).1 = true)) := by decide +kernel
theorem test_wit_RiserPorts_credits :
    (let r := tileOfRiser 31 39
     let tk := 4 * (4 + r.2) + 3
     let s := (base).setTile r.1 { Tile.init with owed := [(tk, 1)] }
     let w := s.setWindow 31 (some none)
     sget (fun _ => 0) (s.tile r.1).owed tk ≠ 0 ∧
     (s.setTile r.1 { s.tile r.1 with owed := sset (fun _ => 0) (s.tile r.1).owed tk 0 }).window 31 = none ∧
     ((w.setTile r.1 { w.tile r.1 with owed := sset (fun _ => 0) (w.tile r.1).owed tk 0 }).window 31).isSome = true) ∧
    (let s : State := { base with fabric := { (base).fabric with disagree := [(40 * 31 + 39, some (700, false))] } }
     sget (fun _ => none) s.fabric.disagree (40 * 31 + 39) = some (700, false)) := by decide +kernel
/-- Plane 0 of sheet 0 uses ports A and B of block RAM 127 on one tree. -/
def bramUsed : State :=
  let s := sheeted
  { s with fabric := { s.fabric with ctrl := [(0x1B0 + 255, 0xC0)] } }

theorem test_wit_SheetEdgesAndBlocks :
    ((bramUsed).activePlane 0 = some 0 ∧ (bramUsed).islandRuns 0 = true ∧ (bramUsed).window 0 = none ∧
      ((bramUsed).bramCfg 0 0 127 0).used = true ∧ ((bramUsed).bramCfg 0 0 127 1).used = true ∧
      ((bramUsed).bramCfg 0 0 127 0).tree = ((bramUsed).bramCfg 0 0 127 1).tree) ∧
    (let s : State := { sheeted with fabric := { (sheeted).fabric with ctrl := [(0x1B0 + 255, 0xC1)] } }
     s.activePlane 0 = some 0 ∧ s.islandRuns 0 = true ∧ s.window 0 = none ∧ (s.bramCfg 0 0 127 0).used = true ∧
      (s.bramCfg 0 0 127 1).used = true ∧ (s.bramCfg 0 0 127 0).tree ≠ (s.bramCfg 0 0 127 1).tree) ∧
    (base).sys.dev ≠ .off ∧ busReach .ubtor false (R.SHT_STAMP_LO 31) = true ∧
    (base).RegsWf ∧ swf (fun _ => (0 : Word)) (base).latch = true := by unfold State.RegsWf; decide +kernel
theorem test_wit_ShtCommands :
    (let s := at0 0x0901 [31] base
     s.Serves 0 spec_SHT_STATUS ∧ foreignSheet (s.msg 0) s 31 = false) ∧
    (at0 0x0902 [0x71f] base).Serves 0 spec_SHT_STICKY_CLEAR ∧ (at0 0x0981 [256] base).Serves 0 spec_SHT_FREEZE ∧
    (at0 0x0982 [256] base).Serves 0 spec_SHT_COUNTERS ∧ (at0 0x0983 [31] base).Serves 0 spec_SHT_RISERS ∧
    (let s := at0 0x0980 [31, 0x10100] base
     s.Serves 0 spec_SHT_CLOCK ∧ (s.msg 0).n 3 3 0 = 0 ∧ (s.msg 0).n 3 7 4 = 0 ∧ s.flag (R.SHT_CTRL 31) F.SHT_CTRL_LOCK = false ∧
     s.clkRoot 31 = 0 ∧ s.rootLead 31 0 = 31 ∧ sget (fun _ => false) s.pwr.clkStop 31 = false) ∧
    (let s := at0 0x0903 [65536 + 10] base
     s.Serves 0 spec_SHT_RESET ∧ (s.msg 0).n 2 17 16 ≠ 0 ∧ 10 ≤ (s.msg 0).n 2 15 0 ∧ (s.msg 0).host = true ∧
     s.fabric.pulses.any (fun p => decide (p.net = (s.msg 0).n 2 17 16)) = false) := by decide +kernel
/-- SHT.RESET of net 1 and SHT.CLOCK of sheet 0 wait. -/
def shtWaits : State :=
  let s := base
  { s with fabric := { s.fabric with pulses := [⟨1, s.stamp + 10, 4⟩] },
           mbx := { s.mbx with running := [⟨4, 0, 0x0903, 7, 0, false, 0, none, [1]⟩, ⟨5, 1, 0x0980, 7, 0, false, 0, none, [0, 0x100]⟩] } }

theorem test_wit_ShtCommands_ends :
    (shtWaits.fabric.pulses.find? (fun p => decide (p.net = 1))).isSome = true ∧
    (((shtWaits.reach (shtWaits.stamp + 10)).dropNet 1 (List.range 32)).mbx.running.find? (fun o => decide (o.id = 4))).isSome = true ∧
    (shtWaits.runningOf 0x0980 (fun o => decide (o.args.getD 0 0 = 0))).isSome = true := by decide +kernel
/-- A survey with captures permitted. -/
def capOn : State := { base with svy := { (base).svy with recs := [⟨10, 0, [8]⟩] } }
/-- `s` with a capture of sheet 0 in state `st`. -/
def capIn (st : CapState) (mode : Nat) (t : Nat) : State :=
  (capOn).setCap { Capture.init with st := st, mode := mode, set := 1, t := t, recs := [(0, some ⟨0, 0, false, false, 5, 9, [], [], true⟩)] }

theorem test_wit_Captures :
    (capOn.policy 3 = true ∧ (at0 0x1801 [] capOn).Serves 0 spec_CAP_STATUS) ∧
    (let s := at0 0x1802 [1, 0, 0, 0] capOn
     s.Serves 0 spec_CAP_TAKE ∧ ((s.msg 0).w 2).toNat ≠ 0 ∧ (s.msg 0).n 3 1 0 = 0 ∧ (s.msg 0).sheet = none ∧ s.fabric.cap.st = .empty) ∧
    (let s := at0 0x1802 [1, 1, 0, 1] capOn
     s.Serves 0 spec_CAP_TAKE ∧ (s.msg 0).n 3 1 0 = 1 ∧ s.stamp + 2000 ≤ (s.msg 0).n64 4) ∧
    (let s := at0 0x1880 [1, 2, 0, 0, 3] capOn
     s.Serves 0 spec_CAP_TAKE_X ∧ ((s.msg 0).w 2).toNat ≠ 0 ∧ (s.msg 0).n 3 1 0 = 2 ∧ (s.msg 0).sheet = none ∧ s.policy 3 = true) ∧
    (let s := at0 0x1803 [0, 0x1000, 0, 0] (capIn .held 0 0)
     s.Serves 0 spec_CAP_READ ∧ s.fabric.cap.set.testBit ((s.msg 0).n 2 4 0) = true ∧ (s.msg 0).n 3 11 0 = 0 ∧ s.fabric.cap.st = .held ∧
     s.policy 3 = true) ∧
    (let s := at0 0x1804 [] (capIn .held 0 0)
     s.Serves 0 spec_CAP_RELEASE ∧ (s.msg 0).sheet = none ∧ s.openOf 0x1803 = none ∧ s.fabric.cap.st = .held ∧ s.policy 3 = true) := by
  decide +kernel
theorem test_wit_Captures_events :
    (let s := capIn .armed 0 700
     s.fabric.cap.timed = true ∧ s.fabric.cap.t ≤ 1700 ∧ 1700 ≤ s.fabric.cap.t + 1000 ∧ s.islandRuns 0 = true ∧ s.lead 0 = 0) ∧
    (let s := capIn .armed 2 0
     let s := s.put (R.SHT_STATUS 0) F.SHT_STATUS_NONE_ACTIVE 0
     s.fabric.cap.st = .armed ∧ s.fabric.cap.mode = 2 ∧ s.fabric.cap.t = 0 ∧ s.fabric.cap.trigSheet = 0 ∧ s.selvedge 0 1680 true = true) ∧
    (let s := opened (capIn .held 0 0) 6 0x1803 [0, 0x1000]
     (s.openOf 0x1803).map (·.args) = some [0, 0x1000] ∧ (s.fabric.cap.rec_ 0).isSome = true) := by decide +kernel
theorem test_wit_LaneEvents :
    (let s := laneIn base 0 1 laneTRAINING
     let o : LaneObs := ⟨0, false, none⟩
     let v := (s.laneDetect [o]).2
     let s := s.put (R.FHE_MAC 0) F.FHE_MAC_MODE 6
     let v := v.put (R.FHE_MAC 0) F.FHE_MAC_MODE 6
     s.laneClass 0 = 1 ∧ s.laneState 0 = laneTRAINING ∧ s.flag (R.LNE_STATUS 0) F.LNE_STATUS_REF_OK = true ∧ (s.lane 0).lp = .none ∧
     s.laneGroup 0 = 0 ∧ s.macMode 0 0 ≠ 0 ∧
     s.laneDetect [o] = (true, v) ∧ (v.laneUpNow 0).groupUp ((v.laneUpNow 0).groupLanes 1 0) = true) ∧
    (let s := laneIn (laneIn base 1 1 laneTRAINING) 0 1 laneTRAINING
     let o : LaneObs := ⟨0, false, none⟩
     let v := (s.laneDetect [o]).2
     let s := s.put (R.FHE_MAC 0) F.FHE_MAC_MODE 3
     let v := v.put (R.FHE_MAC 0) F.FHE_MAC_MODE 3
     s.laneClass 0 = 1 ∧ s.laneState 0 = laneTRAINING ∧ s.flag (R.LNE_STATUS 0) F.LNE_STATUS_REF_OK = true ∧ (s.lane 0).lp = .none ∧
     s.macMode 0 0 = 3 ∧ s.laneDetect [o] = (true, v) ∧
     (let w := (v.trainedFfe 0 [(0, 0x3F00#32)]).laneUpNow 0
      w.groupUp (w.groupLanes 1 0) = false)) ∧
    (let s := (laneIn base 1 2 laneTRAINING).put (R.JSD_STATUS 0) F.JSD_STATUS_STATE 4
     s.laneState 1 = laneTRAINING ∧ (s.lane 1).lp = .none ∧ s.laneClass 1 = 2 ∧ s.get (R.JSD_STATUS (s.laneGroup 1)) F.JSD_STATUS_STATE = 4) ∧
    (let s := (laneIn base 95 3 laneTRAINING).put (R.YRN_PORT 0) F.YRN_PORT_STATE 3
     s.laneState 95 = laneTRAINING ∧ s.laneClass 95 = 3 ∧ s.get (R.YRN_PORT (s.laneGroup 95)) F.YRN_PORT_STATE = 3) ∧
    ((laneIn base 0 1 laneUP).laneWatched 0 = true ∧ (laneIn base 0 1 laneUP).laneState 0 = laneUP ∧ (laneIn base 0 1 laneUP).pllRuns 0 = true) ∧
    ((laneIn base 0 1 laneDOWN).pllRuns 0 = true ∧ (laneIn base 0 1 laneDOWN).laneWatched 0 = false) ∧
    (let s := laneIn base 0 1 laneTRAINING
     s.refLanes 0 = [0] ∧ s.refLanes 1 = [] ∧ (s.put (R.LNE_STATUS 0) F.LNE_STATUS_REF_OK 1).laneState 0 = laneTRAINING ∧
     s.laneActive 0 = true ∧ s.laneClass 0 ≠ 2 ∧ s.flag (R.LNE_CTRL 0) F.LNE_CTRL_ADAPT_FREEZE = false ∧
     s.flag (R.LNE_RXEQ 0) F.LNE_RXEQ_DFE_EN = false ∧ swf resetWord s.regs = true) ∧
    (let s := (laneIn base 0 1 laneUP).setDfeTap 0 0 64
     s.laneWatched 0 = true ∧ s.laneState 0 = laneUP ∧ s.laneClass 0 ≠ 2 ∧ s.dfeTap 0 0 = 64) ∧
    (let s := laneIn base 0 1 laneDOWN
     ((s.setLane 0 { s.lane 0 with lp := .entering 2 }).lane 0).lp = .entering 2 ∧ s.laneState 0 ≠ laneUP ∧
     ((s.setLane 0 { s.lane 0 with lp := .exiting }).lane 0).lp = .exiting ∧ s.flag (R.LNE_STATUS 0) F.LNE_STATUS_REF_OK = true ∧
     (s.put (R.LNE_STATUS 0) F.LNE_STATUS_REF_OK 0).flag (R.LNE_STATUS 0) F.LNE_STATUS_REF_OK = false) ∧
    (let s := (laneIn base 0 1 laneTEST).put (R.LNE_TEST 0) F.LNE_TEST_CHK_EN 1
     s.checking 0 = true ∧ s.flag (R.LNE_TEST 0) F.LNE_TEST_CHK_LOCK = false ∧ s.get (R.LNE_TEST 0) F.LNE_TEST_LOOP ≠ 3 ∧
     (let p := (s.put (R.LNE_TEST 0) F.LNE_TEST_LOOP 3).put (R.LNE_TEST 0) F.LNE_TEST_GEN_EN 1
      p.checking 0 = true ∧ p.flag (R.LNE_TEST 0) F.LNE_TEST_CHK_LOCK = false ∧ p.pcsMatch 0 = true) ∧
     (s.put (R.LNE_TEST 0) F.LNE_TEST_CHK_LOCK 1).checking 0 = true ∧
     (s.put (R.LNE_TEST 0) F.LNE_TEST_CHK_LOCK 1).flag (R.LNE_TEST 0) F.LNE_TEST_CHK_LOCK = true) := by decide
theorem test_wit_LaneCommands :
    (let s := laneIn base 95 1 laneUP
     s.laneClass 95 ≠ 0 ∧ s.groupIdle 95 = false ∧ s.liveStreams = [] ∧ s.trainable 1 0 ≠ [] ∧
     (cmdAt 0 0x0D01 [95] s).Serves 0 spec_LNE_STATUS ∧ (cmdAt 0 0x0D02 [95] s).Serves 0 spec_LNE_POWER ∧
     (cmdAt 0 0x0D03 [95] s).Serves 0 spec_LNE_RETRAIN ∧ (cmdAt 0 0x0D04 [95] s).Serves 0 spec_LNE_BINDOFF ∧
     (cmdAt 0 0x0D83 [95] (expert s) 5).Serves 0 spec_LNE_COUNTERS ∧ ((cmdAt 0 0x0D83 [95] (expert s) 5).msg 0).b 2 8 = false) := by decide
theorem test_wit_LaneCommands_idle :
    (let s := laneIn base 0 1 laneDOWN
     s.groupIdle 0 = true ∧ s.groupMarked 0 = false ∧ (cmdAt 0 0x0D05 [0] s).Serves 0 spec_LNE_UP ∧
     (cmdAt 0 0x0D06 [0, 0x07000000] s).Serves 0 spec_LNE_TEST ∧ ((cmdAt 0 0x0D06 [0, 0x07000000] s).msg 0).n 3 27 24 = 7 ∧
     (let e := cmdAt 0 0x0D80 [256, 0, 63 * 256] (expert s) 5
      e.Serves 0 spec_LNE_EQ ∧ (e.msg 0).b 2 8 = true ∧ (e.msg 0).b 2 9 = false ∧ 24 ≤ F.LNE_TXFFE_C0.get ((e.msg 0).w 4) ∧
      ffeSum ((e.msg 0).w 4) = 63 ∧ (∀ f ∈ [F.LNE_TXFFE_CM2, F.LNE_TXFFE_CM1, F.LNE_TXFFE_C1], f.get ((e.msg 0).w 4) ≠ 32) ∧ (e.msg 0).w 4 &&& 0x3F3F3F3F = (e.msg 0).w 4 ∧ e.flag (R.LNE_CTRL 0) F.LNE_CTRL_LOCK = false) ∧
     (cmdAt 0 0x0D81 [256] (expert s) 5).Serves 0 spec_LNE_ADAPT) ∧
    (let s := laneIn base 0 2 laneTEST
     (cmdAt 0 0x0D82 [0, 0x05500000, 1, 2] (expert s) 5).Serves 0 spec_LNE_PATTERN ∧ s.laneState 0 = laneTEST) := by decide
/-- `s` with load `x` in context `c`, in state `st` of Table 7-2. -/
def loadIn (s : State) (c st : Nat) (x : LdrCtx) : State := (s.setCtx c (some x)).setCtxState c st
/-- A load from chart port 31, from host memory, and their 64-byte headers with LENGTH 64. -/
def portLoad : LdrCtx := newCtx (.port 31) false none 5
def hostLoad : LdrCtx := newCtx (.host 0 320 true) false (some 4) 5
def hdr64 : List Byte := (List.range 64).map (fun i => if i = 24 then 64 else 0)
/-- Chart port 31 enabled, plane 0 of its sheet active. -/
def granted : State := ((base).put (R.LDR_GRANT_WALES_HI 31) F.LDR_GRANT_WALES_HI_EN 1).put (R.SHT_STATUS 31) F.SHT_STATUS_NONE_ACTIVE 0

theorem test_wit_LoaderStreams_port :
    (sget (fun _ => 0) granted.ldr.drop 31 = 0 ∧ granted.portCtx 31 = none ∧ granted.portOpen 31 = true ∧ granted.freeCtx = some 0 ∧
      granted.islandRuns 31 = true ∧ granted.portsOpen 31 = true ∧ granted.lck1Fast 31 = false ∧
      granted.flag (R.LDR_GRANT_WALES_HI 31) F.LDR_GRANT_WALES_HI_EN = true) ∧
    (let s := loadIn granted 3 1 portLoad
     s.portCtx 31 = some 3 ∧ s.ctx 3 = some portLoad ∧ s.ctxState 3 = 1 ∧ s.lck1Fast 31 = false ∧ portLoad.raw.length < 64 ∧
     s.flag (R.LDR_GRANT_WALES_HI 31) F.LDR_GRANT_WALES_HI_EN = true ∧ s.islandRuns 31 = true ∧ s.portsOpen 31 = true ∧
     sget (fun _ => 0) s.ldr.drop 31 = 0) ∧
    (let s := loadIn granted 3 2 portLoad
     s.portCtx 31 = some 3 ∧ s.ctx 3 = some portLoad ∧ s.ctxState 3 = 2) ∧
    (let s : State := { granted with ldr := { granted.ldr with drop := [(31, 32)] } }
     sget (fun _ => 0) s.ldr.drop 31 ≠ 0 ∧ s.islandRuns 31 = true ∧ s.portsOpen 31 = true ∧ s.lck1Fast 31 = false ∧
     s.flag (R.LDR_GRANT_WALES_HI 31) F.LDR_GRANT_WALES_HI_EN = true) := by decide +kernel
theorem test_wit_LoaderStreams_staging :
    (let s := loadIn base 3 1 hostLoad
     s.ctx 3 = some hostLoad ∧ s.ctxState 3 = 1 ∧ (∀ p, hostLoad.src ≠ .port p) ∧ hostLoad.raw.length < 64) ∧
    (let x := { hostLoad with raw := hdr64 }
     64 ≤ x.raw.length ∧ x.raw.length = hdrLength x.raw ∧ (loadIn base 3 2 x).ctxState 3 = 2 ∧ x.ready = false ∧
     (loadIn base 3 2 x).ctx 3 = some x) := by
  refine ⟨⟨?_, ?_, ?_, ?_⟩, ?_⟩
  · decide +kernel
  · decide +kernel
  · intro p h; cases h
  · decide +kernel
  · decide +kernel
theorem test_wit_LoaderStreams_commit :
    (let x := { hostLoad with raw := hdr64, ready := true }
     let s := loadIn base 3 3 x
     s.ldr.writing = none ∧ s.nextCommit = some 3 ∧ s.ctx 3 = some x) ∧
    (let x := { hostLoad with raw := hdr64, ready := true }
     let s : State := { loadIn base 3 4 x with ldr := { (loadIn base 3 4 x).ldr with writing := some 3 } }
     s.ldr.writing = some 3 ∧ s.ctx 3 = some x ∧ x.cast = false) ∧
    (let x := { newCtx (.flash true) true none 5 with raw := hdr64, ready := true }
     let s : State := { loadIn base 3 4 x with ldr := { (loadIn base 3 4 x).ldr with writing := some 3 } }
     s.ldr.writing = some 3 ∧ s.ctx 3 = some x ∧ x.cast = true ∧ x.failed = none) := by decide +kernel
theorem test_wit_LoaderLock :
    (let s := at0 0x0880 [] base
     s.Serves 0 spec_LDR_LOCK ∧ s.RegsWf) ∧
    (let s := at0 0x0880 [] ((base).put R.LDR_CTRL F.LDR_CTRL_LOCK 1)
     s.Serves 0 spec_LDR_LOCK ∧ s.RegsWf ∧ s.flag R.LDR_CTRL F.LDR_CTRL_LOCK = true) := by unfold State.RegsWf; decide +kernel
theorem test_wit_LoaderStreams_commands :
    (at0 0x0801 [] base).Serves 0 spec_LDR_STATUS ∧
    (let s := at0 0x0802 [0x1000, 0, 67108864, 1] base
     s.Serves 0 spec_LDR_LOAD ∧ ((s.msg 0).w 2).toNat % 16 = 0 ∧ ((s.msg 0).w 4).toNat = 67108864 ∧ s.classOk 2 = true ∧ s.freeCtx = some 0) ∧
    (let s := at0 0x0803 [3] (loadIn base 3 3 hostLoad)
     s.Serves 0 spec_LDR_COMMIT ∧ s.ctx ((s.msg 0).n 2 1 0) = some hostLoad ∧ s.ctxState 3 = 3 ∧ hostLoad.ready = false) ∧
    (let s := at0 0x0804 [3] (loadIn base 3 1 hostLoad)
     s.Serves 0 spec_LDR_ABORT ∧ 1 ≤ s.ctxState ((s.msg 0).n 2 1 0) ∧ s.ctxState ((s.msg 0).n 2 1 0) ≤ 3) ∧
    (let s := at0 0x0805 [1] (base .ready)
     s.Serves 0 spec_LDR_CASTON ∧ s.sys.dev = .ready ∧ s.casting = false ∧ s.freeCtx = some 0) ∧
    (let s := at0 0x0806 [31 + 256, 1, 1, 255] base
     s.Serves 0 spec_LDR_GRANT ∧ s.flag R.LDR_CTRL F.LDR_CTRL_LOCK = false ∧
     s.grantForeign ((s.msg 0).n 2 4 0) ((s.msg 0).w 3).toNat ((s.msg 0).n64 4 % 2 ^ 40) = false) ∧
    (at0 0x0880 [] base).Serves 0 spec_LDR_LOCK ∧ (at0 0x0881 [1] base).Serves 0 spec_LDR_COUNTERS := by decide +kernel
theorem test_wit_LoaderStreams_switch :
    let s := at0 0x0904 [1, 1, 0, 0, 0, 0, 0] ((base).put (R.SHT_STATUS 0) F.SHT_STATUS_PLANE_VALID 3)
    s.Serves 0 spec_SHT_SWITCH ∧ switchFields (s.msg 0) s.commitLand = none ∧
    (let v := s.commitLand
     v.fabric.group = none ∧ (swWaleList (s.msg 0)).any (fun w => (v.wale w).shift.isSome) = false ∧
     v.riserWalk (v.walkTables none) (fun n k => (swSheets (s.msg 0)).testBit n || swNames (s.msg 0) (tileOfRiser n k).1)
      (swPair (s.msg 0) v) = none) := by decide +kernel
/-- Stream 4095 open and unbuffered between a lane and DMA queue 0, and the same stream FREE with a ring of 4096 positions. -/
def direct : State := streamIn base 4095 0x3000 0x2001
def ringed : State := (streamIn base 4095 0x3000 0x2001 64 false true).put (strKey 4095 R.STR_RING_LEN) F.STR_RING_LEN_LEN 4096

theorem test_wit_Streams_elements :
    (let ahead (s : State) := (let v := s.strSettle 4095; v.strAhead 4095 (2 * (v.stream 4095).seams.length + 1))
     (let v := direct.strSettle 4095
      (v.stream 4095).st = .open_ ∧ v.strBuffered 4095 = false ∧ (ahead direct).strBlocked 4095 = false) ∧
     (let s := streamIn base 4095 (gateEp 0 8) 0x2001 0
      let v := s.strSettle 4095
      (v.stream 4095).st = .open_ ∧ v.strBuffered 4095 = false ∧ (ahead s).strBlocked 4095 = true ∧ epStalls (v.strProducer 4095) = true) ∧
     (let s := streamIn base 4095 0x3000 0x2001 0
      let v := s.strSettle 4095
      (v.stream 4095).st = .open_ ∧ v.strBuffered 4095 = false ∧ (ahead s).strBlocked 4095 = true ∧
      epStalls (v.strProducer 4095) = false)) ∧
    (let v := ringed.strSettle 4095
     let x := v.stream 4095
     x.st = .open_ ∧ (x.seams.filter (·.2)).length < 64 ∧ v.strBuffered 4095 = true ∧ v.strSched 4095 = false ∧ (el 5).isSeam = false ∧
     (el 5).isGap = false ∧ x.dpos ≤ x.wpos ∧ x.wpos < x.dpos + v.strRingLen 4095 ∧ x.mark x.wpos = .empty) ∧
    (let v := (ringed.setStream 4095 (({ Stream.closed with st := .open_ } : Stream).setMark 0 .elem)).strSettle 4095
     let x := v.stream 4095
     x.st ≠ .closed ∧ v.strRoom 4095 = true ∧ (v.strSend 4095 true false).1 = some (mkGap 1) ∧ x.final = none ∧ v.strBuffered 4095 = true ∧
     v.strSched 4095 = false ∧ x.seams = [] ∧ x.mark x.dpos = .elem) := by decide +kernel
theorem test_wit_Streams_flits :
    (let s := direct.setStream 4095 { Stream.closed with st := .open_, pend := [⟨0, 4, 1⟩], seqIn := 7 }
     let ahead (seq : Nat) := (seq + 2 ^ 24 - (s.stream 4095).seqIn % 2 ^ 24) % 2 ^ 24
     (s.stream 4095).pend = ⟨0, 4, 1⟩ :: [] ∧ (s.stream 4095).st ≠ .closed ∧ [el 1, el 2, el 3].length ≤ 3 ∧ s.strRouted 4095 = true ∧
     ahead 7 = 0 ∧ (s.strFlitIn 4095 [el 1, el 2, el 3]).isSome = true ∧
     0 < ahead 9 ∧ ahead 9 < 2 ^ 23 ∧ (s.strFlitIn 4095 [mkGap 2, el 1]).isSome = true ∧ 2 ^ 23 ≤ ahead 6) ∧
    (let s := streamIn base 4095 0x3000 0x2001 0
     (s.stream 4095).st ≠ .closed ∧ s.strRouted 4095 = true ∧ (s.strFlitIn 4095 [el 1]).isNone = true) ∧
    (let s := ringed.setStream 4095 ((({ Stream.closed with st := .open_, seqMid := 5 } : Stream).setMark 0 .elem).setMark 1 .elem)
     let ahead (seq : Nat) := (seq + 2 ^ 24 - (s.stream 4095).seqMid % 2 ^ 24) % 2 ^ 24
     (s.stream 4095).st ≠ .closed ∧ s.strBuffered 4095 = true ∧ (s.strSettle 4095).strRoom 4095 = true ∧
     ((s.strSettle 4095).strSendMany 4095 3).1.length = 2 ∧ ahead 5 = 0 ∧ 2 ^ 23 ≤ ahead 4) ∧
    (let s := direct.setStream 4095 { Stream.closed with st := .binding, finalSent := true, inbox := [el 1] }
     (s.stream 4095).st = .binding ∧ (s.stream 4095).final = none ∧ (s.stream 4095).finalSent = true ∧
     (s.stream 4095).inbox = [el 1]) := by decide +kernel
theorem test_wit_Streams_commands :
    (let s := at0 0x0C01 [4095] direct
     s.Serves 0 spec_STR_STATUS ∧ notStreamOwner (s.msg 0) s = none) ∧
    (let s := at0 0x0C02 [2 ^ 31 + 2 ^ 24 + 4095, 0x10002001, 0, 0] base
     s.Serves 0 spec_STR_OPEN) ∧
    (let s := at0 0x0C03 [4095] direct
     s.Serves 0 spec_STR_SEAM ∧ notStreamOwner (s.msg 0) s = none ∧ (s.airActDue.stream 4095).st = .open_) ∧
    (at0 0x0C04 [10 * 65536 + 4095] direct).Serves 0 spec_STR_BINDOFF ∧
    (at0 0x0C81 [65536 + 4095] direct).Serves 0 spec_STR_COUNTERS := by decide +kernel
/-- Hypotheses of an opening with request `q` of the stream that the command names. -/
def opens (s : State) (q : OpenReq) : Bool :=
  !s.openBad q && !openDenied (s.msg 0) s q &&
    (match openTarget (s.msg 0) s with
      | some k => (match s.openPlace k q with | .ok _ => true | .error _ => false)
      | none => false)

theorem test_wit_Streams_open :
    (let s := at0 0x0C02 [2 ^ 31 + 2 * 2 ^ 24 + 4095, 0x10002001, 100000, 256] base
     s.Serves 0 spec_STR_OPEN ∧ (strOpenReq (s.msg 0)).map (opens s) = some true) ∧
    (let s := at0 0x0C80 [2 ^ 29 + 4095, 0x30002001, 0, 4096, 0, 16 * 65536 + 1] base
     s.Serves 0 spec_STR_OPEN_X ∧ opens s (strOpenXReq (s.msg 0)) = true ∧ notStreamOwner (s.msg 0) s = none) := by decide +kernel
/-- The schedule runs, with table 0 (one entry) active, table 1 READY, and entry `e` dispatched. -/
def airOn (e : AirEntry := .nop) : State :=
  let s := (((base .onAir).put R.AIR_STATUS F.AIR_STATUS_RUN 1).put (R.AIR_LEN 0) F.AIR_LEN_STATE 3).put (R.AIR_LEN 0) F.AIR_LEN_COUNT 1
  let s := ((s.put (R.AIR_LEN 1) F.AIR_LEN_STATE 2).put (R.AIR_PERIOD 0) F.AIR_PERIOD_PERIOD 245760)
  { s.setAir { s.air with due := [⟨5000, e⟩], base := 245760 } with
    svy := { s.svy with recs := [⟨8, 0, [0x02000000, 0, 0]⟩, ⟨10, 0, [8]⟩] } }
/-- An entry with an action and words. -/
def act (a w1 w2 w3 : Nat) : AirEntry := ⟨word (a * 2 ^ 28), word w1, word w2, word w3⟩

theorem test_wit_AirSchedule_actions :
    (airOn).airLive = true ∧ (airOn).air.stop = none ∧ (airOn).airRuns = true ∧ (airOn).air.due = [⟨5000, .nop⟩] ∧ (AirEntry.nop).action = 0 ∧
    [act 1 0 0 0, act 2 1 65536 0, act 3 (2 ^ 31) 0 0, act 4 1 1 0, act 5 (2 ^ 31) 0 0, act 6 0 1 0, act 7 0 0 0].map AirEntry.action =
      [1, 2, 3, 4, 5, 6, 7] ∧
    (let v := ((((streamIn (airOn (act 6 7 1 0)) 12 0x3007 0x2000).setAir { (airOn).air with due := [] }).reach
       ((airOn).stampOfAir 5000)).bump (R.AIR_CNT 0))
     v.tap 0 = none ∧ v.epStream 0x3007 = some 12 ∧ (v.stream 12).st = .open_) ∧
    (let v := (((airOn).setAir { (airOn).air with due := [] }).reach ((airOn).stampOfAir 5000)).bump (R.AIR_CNT 0)
     v.position = 0 ∧ 2 ≤ v.cascadeCount) ∧
    (let s := (airOn (act 6 7 1 0)).setTap 0 (some ⟨7, 5, 0, 1, 5⟩)
     (s.air.due.head?.map (·.e.action)) = some 6 ∧ s.airRuns = true ∧
     (((((s.setAir { s.air with due := [] }).reach (s.stampOfAir 5000)).setsDue.bump (R.AIR_CNT 0)).tap 0).isSome = true)) ∧
    (let s := { airOn with svy := { (airOn).svy with recs := [⟨10, 0, [8]⟩] } }
     s.airRuns = true ∧ s.air.stop = none ∧
     (((s.setAir { s.air with due := [] }).reach (s.stampOfAir 5000)).setsDue.bump (R.AIR_CNT 0)).cascadeCount < 2) ∧
    (let s := (airOn).setAir { (airOn).air with stop := some (5000, none) }
     s.airRuns = true ∧ s.air.due = [⟨5000, .nop⟩] ∧ s.air.stop.map (·.1) = some 5000) := by decide +kernel
theorem test_wit_AirSchedule_boundaries :
    (let b : AirBcast := ⟨7, 9, false⟩
     ((base).setAir { (base).air with bcasts := [b] }).air.bcasts = b :: [] ∧ b.swap = false) ∧
    (let b : AirBcast := ⟨7, 9, true⟩
     let v (s : State) := ((s.setAir { s.air with bcasts := [] }).reach (s.stampOfAir b.at_)).wr R.AIR_BCAST b.value
     b.swap = true ∧ (match (v airOn).airSwapOrder b.at_ none with | .ok _ => true | .error _ => false) = true ∧
     (match (v base).airSwapOrder b.at_ none with | .ok _ => true | .error _ => false) = false) ∧
    (let v (s : State) := (s.setAir { s.air with start := none }).reach (s.stampOfAir 9)
     let s (x : Nat) := ((base).put R.MER_STATUS F.MER_STATUS_STATE x).setAir { (base).air with start := some (9, 4) }
     (s 0).air.start = some (9, 4) ∧ (v (s 0)).merGood = false ∧ (s 2).air.start = some (9, 4) ∧ (v (s 2)).merGood = true) ∧
    ((base).sys.dev ≠ .off ∧ swf (fun _ => (0 : Word)) (base).latch = true ∧ busReach .ubtor false R.AIR_TIME_LO = true ∧
      busReach .ubtor false R.AIR_SWAP_LO = true) ∧
    (let s := (airOn).setAir { (airOn).air with swap := some (9, some 4), due := [] }
     s.air.swap = some (9, some 4) ∧ s.airRuns = true ∧ s.air.stop = none ∧ 9 ≤ s.air.base ∧ s.air.due = []) ∧
    (let s := (base).setAir { (base).air with stop := some (9, none) }
     s.air.stop = some (9, none) ∧ s.airFuture 9 = []) ∧
    (let x : AirSeal := ⟨1, 1, 245759, 0, 4⟩
     ((base).setAir { (base).air with sealing := some x }).air.sealing = some x ∧
     ((base).setAir { (base).air with sealing := none }).sealFails ⟨1, 1, 245759, 0, 4⟩ = some (.BAD_FIELD, 0, 0)) ∧
    (let s := (opened base 4 0x0B85 [2, 0, 4096]).setTap 2 (some ⟨7, 5, 0, 1, 5⟩)
     (s.openOf 0x0B85).map (·.args) = some [2, 0, 4096] ∧ s.tap 2 = some ⟨7, 5, 0, 1, 5⟩) := by decide +kernel
theorem test_wit_AirSchedule_seal :
    ((base).setAir { (base).air with sealing := none }).sealFails ⟨1, 1, 245760, 0, 4⟩ = none := by decide +kernel
theorem test_wit_AirCommands :
    (at0 0x0B01 [] base).Serves 0 spec_AIR_STATUS ∧
    (let s := at0 0x0B02 [0x80000000 + 0x10000000 + 0x0A000000 + 0x00200000 + 0x20000, 1, 0, 0, 0, 0, 0, 0xFFFFFF, 0, 0] base
     s.Serves 0 spec_AIR_PRESET ∧ presetBad (s.msg 0) = false ∧ s.air.swap = none ∧ s.air.sealing = none) ∧
    (let s := at0 0x0B03 [] (((base).put (R.AIR_LEN 0) F.AIR_LEN_STATE 3).put R.MER_STATUS F.MER_STATUS_STATE 2)
     s.Serves 0 spec_AIR_ENABLE ∧ s.sys.dev = .charted ∧ s.airState s.airActive = 3 ∧ s.air.start = none ∧ s.merGood = true) ∧
    (let s := at0 0x0B04 [1] airOn
     s.Serves 0 spec_AIR_DISABLE ∧ s.sys.dev = .onAir ∧ s.air.stop = none) ∧
    (let s := at0 0x0B05 [1, 0, 0] ((airOn).setAir { (airOn).air with swap := some (9, none) })
     s.Serves 0 spec_AIR_SWAP ∧ (s.msg 0).b 2 0 = true ∧ s.air.swap.isSome = true) ∧
    (let s := at0 0x0B05 [0, 9, 0] ((base).put (R.AIR_LEN 1) F.AIR_LEN_STATE 2)
     s.Serves 0 spec_AIR_SWAP ∧ (s.msg 0).b 2 0 = false ∧ (s.msg 0).n64 3 ≠ 0 ∧
     (match s.airSwapOrder ((s.msg 0).n64 3) (some (s.msg 0).id) with | .ok _ => true | .error _ => false) = true) := by decide +kernel
theorem test_wit_AirCommands_more :
    (let s := at0 0x0B80 [2 ^ 31 + 4095, 0, 0, 0, 0] base
     s.Serves 0 spec_AIR_LOAD ∧ ((s.msg 0).length - 3) % 4 = 0 ∧ (s.msg 0).n 2 11 0 + ((s.msg 0).length - 3) / 4 ≤ 4096 ∧
     s.airHeld ((s.msg 0).n 2 31 31) = false) ∧
    (let s := at0 0x0B81 [2 ^ 31 + 4096, 245760, 0] base
     s.Serves 0 spec_AIR_SEAL ∧ s.airHeld ((s.msg 0).n 2 31 31) = false ∧ s.air.sealing = none) ∧
    (let s := at0 0x0B82 [2 ^ 31 + 65536 + 4095] base
     s.Serves 0 spec_AIR_READ ∧ (s.msg 0).n 2 19 16 ≠ 0 ∧ (s.msg 0).n 2 11 0 + (s.msg 0).n 2 19 16 ≤ 4096) ∧
    (let s := at0 0x0B83 [6, 1] base
     s.Serves 0 spec_AIR_IDLE ∧ (s.msg 0).n 2 2 0 ≤ 6) ∧
    (at0 0x0B84 [1] base).Serves 0 spec_AIR_COUNTERS ∧
    (let s := at0 0x0B85 [15, 4096, 0, 0] ((airOn).setTap 15 (some ⟨7, 5, 0, 1, 5⟩))
     s.Serves 0 spec_AIR_TAP_READ ∧ (s.msg 0).n64 3 % 4096 = 0 ∧ s.policy 3 = true ∧ s.tap ((s.msg 0).n 2 3 0) = some ⟨7, 5, 0, 1, 5⟩) := by
  decide +kernel
/-- MAC 15 up. -/
def macUp : State := (base).put (R.FHE_MAC 15) F.FHE_MAC_UP 1
/-- A good frame of 64 bytes that carries nothing known. -/
def frame64 : EthFrame := ⟨true, 0, 0, List.replicate 64 0, .other⟩

theorem test_wit_Fronthaul :
    macUp.flag (R.FHE_MAC 15) F.FHE_MAC_UP = true ∧ frame64.fcs = true ∧ 64 ≤ frame64.bytes.length ∧ frame64.bytes.length ≤ 9600 ∧
    ({ frame64 with bytes := List.replicate 63 0 } : EthFrame).bytes.length < 64 ∧
    (let s : State := { laneIn base 95 1 laneTRAINING with svy := { (base).svy with recs := [⟨2, 0, [95 * 2 ^ 24 + 2 ^ 20, 0, 2 ^ 24]⟩] } }
     s.groupLanes 1 0 = [95] ∧ (laneRecOf s.svy.recs 95).map (fun r => (r.f 3 24 24, r.f 3 25 25, r.f 3 26 26, r.f 3 29 29)) = some (1, 0, 0, 0) ∧
     s.laneState 95 = laneTRAINING) ∧
    (let f : TxFrame := { TxFrame.empty 1 512 with bytes := [1] }
     let s := (macUp).setFhe { (macUp).links.fhe with txq := [(15, [f])] }
     s.flag (R.FHE_MAC 15) F.FHE_MAC_UP = true ∧ sget (fun _ => []) s.links.fhe.txq 15 = [f] ∧ f.entry = 512 ∧ f.due = none) ∧
    (let s := (streamIn base 9 0x3000 0x20FF).put (R.FHE_FLOW_KEY 511) F.FHE_FLOW_KEY_VALID 1
     s.flowStream (256 + 255) = some 9 ∧ s.flag (R.FHE_FLOW_KEY (256 + 255)) F.FHE_FLOW_KEY_VALID = true ∧
     s.get (R.FHE_FLOW_KEY (256 + 255)) F.FHE_FLOW_KEY_KIND = 0) ∧
    (at0 0x0E01 [15] base).Serves 0 spec_FHE_STATUS ∧ (at0 0x0E80 [2 ^ 31 + 511] base).Serves 0 spec_FHE_COUNTERS ∧
    (let s := at0 0x0E02 [2 ^ 31 + 255, 0, 0, 0, 0] base
     s.Serves 0 spec_FHE_FLOW ∧ (s.msg 0).b 3 31 = false ∧ s.flowStream 511 = none) := by decide +kernel
/-- Lane 95 in lane state `st` on converter link 15, configured and in link state `js`. -/
def linkIn (js : Nat) (st : Nat) (x : JsdLink := JsdLink.init) : State :=
  let s := (((base).wr (R.LNE_RATE 95) (word (2 * 16 + 15))).put (R.LNE_STATUS 95) F.LNE_STATUS_REF_OK 1).setLaneState 95 st
  let s := ((s.wr (R.JSD_LINK 15) (word (2 ^ 31 + 659520))).setJsdState 15 js).setJsdLink 15 x
  { s with svy := { s.svy with recs := [⟨2, 0, [95 * 2 ^ 24 + 2 * 2 ^ 20 + 15 * 2 ^ 16, 8110080, 0]⟩] } }

theorem test_wit_ConverterLinks :
    (let s := (base).wr R.JSD_SYSREF (word (2 ^ 31))
     s.links.jsd.sysref = none ∧ s.merRuns = true ∧ (s.rd R.JSD_SYSREF).bits 31 30 ≠ 0) ∧
    (let s := ((base).wr R.JSD_SYSREF (word (2 ^ 30))).setJsd { (base).links.jsd with shots := 1 }
     s.links.jsd.sysref = none ∧ s.merRuns = true ∧ (s.rd R.JSD_SYSREF).bits 31 30 = 1 ∧ s.links.jsd.shots ≠ 0) ∧
    (let s := (linkIn 2 laneTRAINING).put (R.JSD_LINK 15) F.JSD_LINK_LANEID 1
     let obs : List LaneObs := [⟨95, false, none⟩]
     s.jsdState 15 = 2 ∧ obs.map (·.lane) = s.jsdLanes 15 ∧ s.flag (R.JSD_LINK 15) F.JSD_LINK_LANEID = true ∧ (s.laneDetect obs).1 = true) ∧
    (let s := linkIn 2 laneTRAINING { JsdLink.init with sync := [95], emb := [95] }
     s.jsdState 15 = 2 ∧ (s.jsdLink 15).sync ≠ [] ∧ (s.jsdLink 15).emb ≠ [] ∧ (s.jsdLanes 15).all s.laneReady = true) ∧
    (let s := linkIn 3 laneUP { JsdLink.init with crc := [(95, List.replicate 15 5)] }
     s.laneClass 95 = 2 ∧ s.jsdState (s.laneGroup 95) = 3 ∧ s.laneGroup 95 = 15 ∧
     ((sget (fun _ => []) (s.jsdLink 15).crc 95).filter (fun t => decide (s.stamp < t + 1000000)) ++ [s.stamp]).length < 16) ∧
    (let s := linkIn 3 laneUP { JsdLink.init with crc := [(95, List.replicate 15 (base).stamp)] }
     16 ≤ ((sget (fun _ => []) (s.jsdLink 15).crc 95).filter (fun t => decide (s.stamp < t + 1000000)) ++ [s.stamp]).length) := by
  decide +kernel
theorem test_wit_ConverterLinks_samples :
    (let s := linkIn 3 laneUP { JsdLink.init with muted := false }
     let v := s.reach (s.stampOfAir (700 - s.ljt 15))
     s.flag (R.JSD_LINK 15) F.JSD_LINK_VALID = true ∧ 0 < jsdG (s.rd (R.JSD_LINK 15)) ∧
     0 < jsdM (s.rd (R.JSD_LINK 15)) / (2 * jsdG (s.rd (R.JSD_LINK 15))) ∧ s.jsdState 15 ≠ 0 ∧ v.epStream (0x4000 + (16 * 15 + 0)) = none ∧
     v.muteAt 15 700 = false) ∧
    (let s := linkIn 3 laneUP { JsdLink.init with muted := true }
     let v := s.reach (s.stampOfAir (700 - s.ljt 15))
     s.jsdState 15 ≠ 0 ∧ v.muteAt 15 700 = true ∧ v.muteAt 15 (700 + 2 / 2 ^ (s.rd (R.JSD_LINK 15)).bits 29 28) = true) ∧
    (let s := streamIn (linkIn 3 laneUP { JsdLink.init with muted := false }) 9 0x2000 0x40F0
     let s := (s.setStream 9 { s.stream 9 with inbox := [el 5] }).setJsdTx 240 { JsdTx.init with muted := false }
     let v := s.reach (s.stampOfAir (700 - s.ljt 15))
     let w := v.jsdDrop 15 240
     s.jsdState 15 ≠ 0 ∧ v.muteAt 15 700 = false ∧ (v.jsdTx 240).muted = false ∧ w.epStream (0x4000 + 240) = some 9 ∧
     (w.jsdTx 240).dropToSeam = false ∧ (w.jsdNext 240 9 ((w.stream 9).inbox.length + 2)).1 = some 5) ∧
    (let w : JsdWin := ⟨600, none, [0]⟩
     let s := linkIn 3 laneUP { JsdLink.init with wins := [w] }
     let s := streamIn s 9 0x30F0 0x2000
     (s.jsdLink 15).wins = [w] ∧ w.from_ ≤ 700 ∧ s.winEnd 15 w = none ∧ w.seamed.contains 0 = true ∧ s.epStream (0x3000 + (16 * 15 + 0)) = some 9 ∧
     s.jsdState 15 = 3 ∧ (s.reach (s.stampOfAir (700 + s.ljr 15))).jsdState 15 = 3) := by decide +kernel
theorem test_wit_ConverterLinks_commands :
    (at0 0x0F01 [15] base).Serves 0 spec_JSD_STATUS ∧
    (let s := at0 0x0F02 [15, 659520, 0, 0] (linkIn 1 laneTRAINING)
     s.Serves 0 spec_JSD_LINK ∧ jsdLinkBad (s.msg 0) s = none ∧ (∀ n ∈ s.jsdLanes 15, s.laneState n = laneTRAINING) ∧
     (List.range 16).any (fun j => (s.epStream (0x3000 + 16 * 15 + j)).isSome || (s.epStream (0x4000 + 16 * 15 + j)).isSome) = false ∧
     (s.msg 0).n 2 3 0 = 15 ∧ s.RegsWf) ∧
    (let s := at0 0x0F03 [245760] base
     (s.msg 0).n 2 19 0 ≠ 0 ∧ 245760 % (s.msg 0).n 2 19 0 = 0 ∧ s.Serves 0 spec_JSD_SYSREF ∧ (s.msg 0).n 2 31 30 = 0 ∧ s.jsdLinks = []) ∧
    (at0 0x0F80 [271] base).Serves 0 spec_JSD_COUNTERS := by unfold State.RegsWf; decide +kernel
theorem test_wit_TimeKeeping_second :
    let v := ((base).reach ((base).stampOfLocal (((base).localNow / 4294967296 + 1) * 4294967296))).merCarry
    let w := (v.setMer { v.mer with profile := v.get R.MER_CFG F.MER_CFG_PROFILE, outNow := v.rd R.MER_OUT }).gnssSecond
    (base).merRuns = true ∧ (base).sys.dev ≠ .boot ∧ v.mer.stepNext = none ∧ w.mer.synce.last = none ∧ w.mer.banned = none := by decide +kernel
/-- The oscillator sensor has failed `n` times. -/
def sensorFailed (n : Nat) : State := (base).setMer { (base).mer with sensorFails := n }

theorem test_wit_TimeKeeping_inputs :
    (todMsgOk (.zda false true 0) = false ∧ todMsgOk (.zda true true 0) = true ∧ (base).todHeard 3 = true) ∧
    ((base).setMer { (base).mer with gnss := { (base).mer.gnss with rate := some (2, 0) } }).todHeard 3 = false ∧
    (base).merRuns = true ∧ (base).mer.gnss.next = none ∧ (base).merRef ≠ 1 ∧ (base).svy.committed = true ∧
    ((sensorFailed 8).mer.sensorFails < 9 ∧ (sensorFailed 9).mer.sensorFails = 9 ∧ (sensorFailed 9).svy.committed = true) ∧
    ((base).put R.MER_LEAP F.MER_LEAP_PENDING 1).flag R.MER_LEAP F.MER_LEAP_PENDING = true ∧
    (State.reset.merRuns = true ∧ State.reset.svy.committed = false) := by decide +kernel
/-- The unit has been locked, with two samples of bin 65, fifteen days after t₀; an OCXO is surveyed. -/
def learning : State :=
  let s := (((base).put R.MER_STATUS F.MER_STATUS_STATE 2).put R.MER_STATUS F.MER_STATUS_SENSOR_OK 1).wr (R.MER_BIN 65) (word 20)
  let co : Contour := ⟨some 100, 60, [⟨1296000, 3, 65⟩, ⟨1296060, 4, 65⟩], false⟩
  { s.setMer { s.mer with local_ := 1296160 * 4294967296, lockedSince := some 0, contour := co } with
    stamp := 600000000000, svy := { s.svy with recs := [⟨4, 0, [2 ^ 28, 0]⟩] } }

theorem test_wit_TimeKeeping_model :
    (learning.merRuns = true ∧ learning.mer.lockedSince = some 0 ∧ 0 + 600000000000 ≤ learning.stamp ∧ learning.merState = 2 ∧
      learning.flag R.MER_STATUS F.MER_STATUS_SENSOR_OK = true ∧ learning.oscClass ≠ 0) ∧
    (((-81) * 256 : Int) ≤ 2 * (-10368) ∧ (2 * (-10368) : Int) < 181 * 256) ∧
    (learning.mer.contour.t0 = some 100 ∧ 100 + 1209600 ≤ learning.localSec ∧
     (let l := (learning.mer.contour.samples.filter (fun q => decide (learning.localSec ≤ q.t + 1209600 ∧ 10 ≤ learning.binN q.k))).map
        (fun q => (((q.t : Int) - 100), q.y - learning.binV q.k))
      let st := l.foldl (fun a q => a + q.1) 0
      let stt := l.foldl (fun a q => a + q.1 * q.1) 0
      (l.length : Int) * stt - st * st ≠ 0)) := by decide +kernel
theorem test_wit_TimeKeeping_commands :
    (at0 0x0601 [] base).Serves 0 spec_MER_STATUS ∧
    (let s := at0 0x0602 [5 * 2 ^ 28 + 24 * 65536, 0, 0, 0, 0, 0] base
     s.Serves 0 spec_MER_SELECT ∧ selectBad (s.msg 0) s = false ∧ s.position = 0 ∧ (s.msg 0).n 2 31 28 ≠ 4) ∧
    (let s := at0 0x0603 [63 * 2 ^ 24] base
     s.Serves 0 spec_MER_OUTPUTS ∧ (s.msg 0).n 2 23 16 = 0 ∧ (s.msg 0).n 2 29 24 ≠ 0) ∧
    (let s := at0 0x0604 [60 * 256 + 71] base
     s.Serves 0 spec_MER_MODEL ∧ 1 ≤ (s.msg 0).n 2 15 8 ∧ (s.msg 0).n 2 15 8 ≤ 60 ∧ (s.msg 0).n 2 7 0 + (s.msg 0).n 2 15 8 ≤ 131) ∧
    (at0 0x0605 [0x3ff] base).Serves 0 spec_MER_LEAP ∧
    (let s := at0 0x0680 [10000] base
     s.Serves 0 spec_MER_BUDGET ∧ 100 ≤ (s.msg 0).n 2 15 0 ∧ (s.msg 0).n 2 15 0 ≤ 10000) ∧
    (let s := at0 0x0681 [0xC1EA] base
     s.Serves 0 spec_MER_MODEL_CLEAR ∧ (s.msg 0).n 2 15 0 = 0xC1EA ∧ s.merState < 3) ∧
    (at0 0x0682 [1] base).Serves 0 spec_MER_COUNTERS := by decide +kernel
/-- Before a survey, the crystal stable and IRO trimmed, after `f` failed and `p` passed gates, with XTAL_OK at `ok`. -/
def gated (f p ok : Nat) : State :=
  let s : State := { State.reset with sys := { State.reset.sys with xtalStable := true } }
  let s := (s.put R.CKI_STATUS F.CKI_STATUS_IRO_TRIMMED 1).put R.CKI_STATUS F.CKI_STATUS_XTAL_OK ok
  { s with pwr := { s.pwr with failRun := f, passRun := p } }
/-- The sequencer serves a request in phase `ph`. -/
def seqServing (ph : SeqPhase) : State :=
  (base).setServing (some ⟨⟨.pwrOp, none, [71], some 4⟩, ph, (800, 800), (850, 850), [(71, 50000)], some (1, 100)⟩)

theorem test_wit_CrystalAndSequencer :
    (let s := gated 1 0 1
     s.sys.xtalStable = true ∧ s.svy.committed = false ∧ s.flag R.CKI_STATUS F.CKI_STATUS_IRO_TRIMMED = true ∧
     (1200 : Int) < ((-1201 : Int).natAbs : Int) ∧ s.flag R.CKI_STATUS F.CKI_STATUS_XTAL_OK = true ∧ 1 ≤ s.pwr.failRun) ∧
    (gated 0 5 1).pwr.failRun = 0 ∧
    (((1200 : Int).natAbs : Int) ≤ 1200 ∧ (gated 0 99 0).pwr.passRun = 99 ∧ (gated 0 99 0).flag R.CKI_STATUS F.CKI_STATUS_XTAL_OK = false) ∧
    (xtalIslands.contains 142 = true ∧ sget (fun _ => false) (gated 0 0 1).pwr.coast 142 = false) ∧
    (let s := (gated 0 0 1).coastNow 142
     s.flag R.CKI_STATUS F.CKI_STATUS_XTAL_OK = true ∧ sget (fun _ => false) s.pwr.coast 142 = true ∧ s.sys.xtalStable = true) ∧
    ((seqServing .raise).pwr.serving.map (fun v => (v.step, v.phase)) = some (some (1, 100), .raise)) ∧
    ((seqServing .freq).pwr.serving.map (fun v => (v.phase, v.todo)) = some (.freq, [(71, 50000)])) := by decide +kernel
/-- A DORMANT entry or exit in phase `p`, wake source 16 enabled. -/
def dormPhase (p : DormPhase) : State :=
  let s := (base .quiet).setBit R.PWR_WAKE 15 true
  { s with pwr := { s.pwr with dorm := p } }

theorem test_wit_IslandsAndDormant :
    ((base).pwr.dorm = .none ∧ ((base).setStage 71 .closing).stage 71 = .closing) ∧
    (let s := (base).setStage 71 .opened
     s.stage 71 = .opened ∧ sget (fun _ => false) s.pwr.held (s.leadIsland 71) = false ∧
     sget (fun _ => false) (((s.setStage (s.leadIsland 71) .off).setPsw (s.leadIsland 71) false).stageDone (s.leadIsland 71) .DONE).pwr.held
       (s.leadIsland 71) = false) ∧
    ((base).setStage 71 .powering).stage 71 = .powering ∧
    ((dormPhase .entry).pwr.dorm = .entry ∧ (dormPhase .noReturn).pwr.dorm = .noReturn ∧ (dormPhase .exitPower).pwr.dorm = .exitPower ∧
      (dormPhase .exitQuiet).pwr.dorm = .exitQuiet) ∧
    (dormPhase .dormant).bit R.PWR_WAKE (16 - 1) = true := by decide +kernel
theorem test_wit_PowerCommands :
    (at0 0x0301 [] base).Serves 0 spec_CLK_STATUS ∧
    (let s := at0 0x0302 [71] base
     s.Serves 0 spec_CLK_GATE ∧ (s.msg 0).n 2 17 16 = 0 ∧ (s.msg 0).n 2 7 0 ≤ 143 ∧ foreignIsland (s.msg 0) s ((s.msg 0).n 2 7 0) = false ∧
     s.gateClosed 0 ((s.msg 0).n 2 7 0) = false ∧ s.gateOrder 0 ((s.msg 0).n 2 7 0) ((s.msg 0).b 2 8) = false) ∧
    (let s := at0 0x0380 [71, 50000] base
     s.Serves 0 spec_CLK_FREQ ∧ (s.msg 0).n 2 6 0 ≤ 71 ∧ 50000 ≤ (s.msg 0).n 3 20 0 ∧
     (s.msg 0).n 3 20 0 ≤ s.pointKhz (s.leadIsland ((s.msg 0).n 2 6 0)) (s.effPoint (s.leadIsland ((s.msg 0).n 2 6 0))) ∧
     s.pwr.queue.length < 16) ∧
    (at0 0x0401 [] base).Serves 0 spec_PWR_STATUS ∧
    (let s := at0 0x0402 [0, 0, 128, 3] base
     s.Serves 0 spec_PWR_OP ∧ opIslands (s.msg 0) = [71] ∧ (opIslands (s.msg 0)).any (foreignIsland (s.msg 0) s) = false ∧
     s.pwr.queue.length < 16) := by decide +kernel
theorem test_wit_PowerCommands_more :
    (let s := at0 0x0403 [256 + 71] ((base).setStage 71 .off)
     s.Serves 0 spec_PWR_ISLAND ∧ (s.msg 0).n 2 6 0 = 71 ∧ foreignIsland (s.msg 0) s 71 = false ∧ s.sys.dev = .charted ∧
     (s.msg 0).b 2 8 = true ∧ s.pwr.dorm = .none ∧ sget (fun _ => none) s.pwr.stageOpen (s.leadIsland 71) = none ∧
     s.stage (s.leadIsland 71) = .off) ∧
    (let s := at0 0x0403 [71] base
     s.Serves 0 spec_PWR_ISLAND ∧ (s.msg 0).n 2 6 0 = 71 ∧ foreignIsland (s.msg 0) s 71 = false ∧ s.sys.dev = .charted ∧
     (s.msg 0).b 2 8 = false ∧ s.pwr.dorm = .none ∧ s.gatesEnabled (71 - 32) = false ∧
     sget (fun _ => none) s.pwr.stageOpen (s.leadIsland 71) = none ∧ s.stage (s.leadIsland 71) = .on) ∧
    (at0 0x0404 [0xFFFF] base).Serves 0 spec_PWR_WAKE ∧
    (let s := at0 0x0480 [1] base
     s.Serves 0 spec_PWR_AVS_READ ∧ (s.msg 0).replyWanted = true) := by decide +kernel
theorem test_wit_GraticulePackets_inject :
    (base).sys.dev ≠ .off ∧ (masterNis .dma).contains 238 = true ∧ (base).sheetPasses .dma = true ∧
    (let s := (base).put (R.SHT_STATUS 0) F.SHT_STATUS_NONE_ACTIVE 0
     s.sheetPasses (.sheet 0) = true ∧ (masterNis (.sheet 0)).contains 0 = true) ∧ (base).destNi 0xFFFFFFFFFFFF = none ∧
    (base).destNi 0x100000000 = some 193 ∧ (base).grt.changes = [] ∧ (base).reachable 238 193 = true ∧
    (base).sinkUsed 238 + sinkFlits false 128 ≤ 64 ∧
    ((base).setBit (R.GRT_FAIL 1) (49 - 32) true).reachable 238 193 = false := by decide +kernel
/-- A packet of operation `op` from interface 238 to `dst`. -/
def pkt (dst op addr : Nat) : GrtPkt := ⟨0, 238, dst, op, 4, none, 3, 3, 0, addr, [], .dma⟩
/-- `s` with that packet arrived. -/
def came (s : State) (p : GrtPkt) : State := { s with grt := { s.grt with arrived := [(p.dst, [p])] } }

theorem test_wit_GraticulePackets_hops :
    (base).routerLive 63 = true ∧ hopTo 63 7 = none ∧ hopTo 63 3 = some (55, 62) ∧ (base).routerLive 62 = true ∧
    ((base).routerRuns 95 = true ∧ (base).routersIdle 95 = true) ∧
    (sget (fun _ => 0) (base).grt.retx (2 * 111 + 1) < 3 ∧
      3 ≤ sget (fun _ => 0) ({ base with grt := { (base).grt with retx := [(223, 3)] } } : State).grt.retx (2 * 111 + 1)) := by decide +kernel
theorem test_wit_GraticulePackets_arrivals :
    (let s := came base (pkt 193 1 0x100000000)
     (s.arrivedAt 193).find? (fun p => decide (p.op ≠ 8)) = some (pkt 193 1 0x100000000) ∧ s.atDest 193 false = .deliver) ∧
    (let s := came base (pkt 238 8 0)
     (s.arrivedAt 238).find? (fun p => decide (p.op = 8)) = some (pkt 238 8 0) ∧ s.sheetPasses (pkt 238 8 0).master = true) ∧
    (let s := came ((base).setStage 0 .off) (pkt 0 1 0x800000)
     ((s.arrivedAt 0).find? (fun p => decide (p.op ≠ 8))).isSome = true ∧ inBlock 0x800000 = true ∧ s.atDest 0 true = .hold) ∧
    (let s := came ((base).setStage 0 .closing) (pkt 0 1 0x800000)
     ((s.arrivedAt 0).find? (fun p => decide (p.op ≠ 8))).isSome = true ∧ s.atDest 0 true = .abort) ∧
    (let s := came ((base).setGate 0 0 false) (pkt 0 1 0x800000)
     ((s.arrivedAt 0).find? (fun p => decide (p.op ≠ 8))).isSome = true ∧ s.atDest 0 true = .gated) ∧
    (let s := came (dormPhase .dormant) (pkt 0 1 0x800000)
     ((s.arrivedAt 0).find? (fun p => decide (p.op ≠ 8))).isSome = true ∧ s.atDest 0 true = .dormant) := by decide +kernel
theorem test_wit_GraticuleRoutes :
    (let c : RouteChange := ⟨238, 3, 193, .none, some 4⟩
     let s : State := { base with grt := { (base).grt with changes := [c] } }
     s.grt.changes.find? (fun c => decide (c.ni = 238 ∧ c.dst = 193)) = some c ∧ s.routeEmpty 238 193 = true ∧
     (s.niRoute 238 3).valid = false) ∧
    (let t : LinkTest := ⟨111, some 4, false, false, []⟩
     let s : State := { base with grt := { (base).grt with test := some t } }
     s.grt.test = some t ∧ s.grt.changes = [] ∧ t.swatch = false) ∧
    (at0 0x1901 [] base).Serves 0 spec_GRT_STATUS ∧
    (let s := at0 0x1981 [111] ((base).setBit (R.GRT_FAIL 3) 15 true)
     s.Serves 0 spec_GRT_LINK_RESTORE ∧ (s.msg 0).n 2 6 0 ≤ 111 ∧ s.linkFailed ((s.msg 0).n 2 6 0) = true ∧ s.grt.test = none) ∧
    (let s := at0 0x1982 [20 * 65536 + 44 * 256 + 238] base
     s.Serves 0 spec_GRT_ROUTE_READ ∧ isNi ((s.msg 0).n 2 7 0) = true ∧ 1 ≤ (s.msg 0).n 2 21 16 ∧ (s.msg 0).n 2 21 16 ≤ 20 ∧
     (s.msg 0).n 2 13 8 + (s.msg 0).n 2 21 16 ≤ 64) ∧
    (let s := at0 0x1983 [63 * 256 + 238, 0, 0, 0] base
     s.Serves 0 spec_GRT_ROUTE_WRITE ∧ isNi ((s.msg 0).n 2 7 0) = true ∧ (s.msg 0).b 3 31 = false) ∧
    (at0 0x1984 [1] base).Serves 0 spec_GRT_COUNTERS := by decide +kernel
theorem test_wit_GraticuleRoutes_test :
    let s := at0 0x1980 [35] base
    s.Serves 0 spec_GRT_LINK_TEST ∧ (s.msg 0).n 2 6 0 ≤ 111 ∧ s.grt.test = none ∧
    (s.detours (fun k => s.linkFailed k || decide (k = (s.msg 0).n 2 6 0)) ((s.msg 0).n 2 6 0)).2 = false := by
  have h35 : ((at0 0x1980 [35] base).msg 0).n 2 6 0 = 35 := by decide +kernel
  have hr : (at0 0x1980 [35] base).grt.routes = [] := by decide +kernel
  refine ⟨by decide +kernel, by decide +kernel, by decide +kernel, ?_⟩
  rw [h35, detours_row5 _ _ hr]
theorem test_wit_RoutesLegal :
    isNi 238 = true ∧ isNi 193 = true ∧ (detour (fun k => decide (k = 49)) 238 193).isSome = true ∧ (routeLinks 238 (defaultHops 238 193)) ≠ [] := by
  decide +kernel
/-- Channel 0 fitted with 16 GiB, plain from 8 GiB on, and a partition of KeyID 63 of 1 GiB at 0, held by a tenant of sheet 3. -/
def memoried : State :=
  let s := ((base).put R.XMC_STATUS F.XMC_STATUS_FITTED 1).put R.XMC_STATUS F.XMC_STATUS_GIB 16
  let s := ((s.put R.XMC_MAP F.XMC_MAP_P_GIB 4).put R.XMC_MAP F.XMC_MAP_PLAIN_BASE 128)
  let s := (s.put (R.MGD_PART 63) F.MGD_PART_VALID 1).put (R.MGD_PART 63) F.MGD_PART_SIZE 16
  { s with svy := { s.svy with recs := [⟨9, 0, [63, 0, 8, 0, 0, 0]⟩] } }
/-- A request of the DMA engine under KeyID `k` for four bytes at `a`. -/
def memReq (k a : Nat) (write : Bool) : MemReq := ⟨238, 3, some k, a, write, 4, if write then [1, 2, 3, 4] else [], none⟩

theorem test_wit_MemoryAccesses_store :
    (let q := memReq 63 (0x100000000 + 0xC8000000 + 63 * 0x200000 - 4) true
     q.ok = true ∧ inStore q.addr = true ∧ memoried.memServes = true ∧ memoried.keyOf q 0 = some 63 ∧ q.tag = none ∧
     q.addr % 2 ^ 32 + q.len ≤ 2 ^ 32 ∧ (List.range q.len).all (fun i => memoried.storeReach q.cls 63 (q.addr % 2 ^ 32 + i)) = true ∧
     q.write = true ∧ swf (fun _ => (0 : Byte)) memoried.store = true) ∧
    (let q := memReq 63 (0x100000000 + 0xC8000000 + 62 * 0x200000) false
     q.ok = true ∧ inStore q.addr = true ∧ memoried.keyOf q 0 = some 63 ∧ q.write = false ∧
     (List.range q.len).all (fun i => memoried.storeReach q.cls 63 (q.addr % 2 ^ 32 + i)) = true) := by decide +kernel
theorem test_wit_MemoryAccesses_external :
    (let q := memReq 63 (63 * 2 ^ 42 + 2 ^ 36 + 2 ^ 30 - 4) false
     q.ok = true ∧ inExternal q.addr = true ∧ memoried.extRoute q = .guard 63 ∧ memoried.memServes = true) ∧
    (let q := memReq 0 (2 ^ 36 + 2 ^ 33) true
     q.ok = true ∧ inExternal q.addr = true ∧ memoried.extRoute q = .plain ∧ q.write = true) ∧
    (let q := memReq 0 (2 ^ 36 + 2 ^ 33) false
     q.ok = true ∧ memoried.extRoute q = .plain ∧ q.write = false) ∧
    (let q := memReq 0 (2 ^ 36 + 2 ^ 33 - 1) false
     q.ok = true ∧ inExternal q.addr = true ∧ memoried.extRoute q = .refuse 5) ∧
    (let q := memReq 0 (2 ^ 36 + 2 ^ 34) false
     q.ok = true ∧ inExternal q.addr = true ∧ memoried.extRoute q = .refuse 1) ∧
    (let q := memReq 63 (63 * 2 ^ 42 + 2 ^ 36) true
     let s : State := { memoried with mem := { memoried.mem with guardQ := [q] } }
     s.mem.guardQ = q :: [] ∧ s.cacheRoom = true ∧ s.memServes = true ∧ s.keyOf q (keyIdOf q.addr) = some 63 ∧ q.write = true) ∧
    (base).scrubs = true := by decide +kernel
/-- A node of level 9 in the counter cache. -/
def nodeIn (modified : Bool) : State := memoried.setCached 9 0 (some ⟨[1, 0, 0, 0, 0, 0, 0, 0], modified⟩)

theorem test_wit_MemoryAccesses_eviction :
    (nodeIn false).cached 9 0 = some ⟨[1, 0, 0, 0, 0, 0, 0, 0], false⟩ ∧ (nodeIn true).cached 9 0 = some ⟨[1, 0, 0, 0, 0, 0, 0, 0], true⟩ ∧
    (nodeIn true).memServes = true ∧
    (match (nodeIn true).evict .ordinary 9 0 [1, 0, 0, 0, 0, 0, 0, 0] with | .ok _ _ => true | _ => false) = true := by decide +kernel
theorem test_wit_MemoryAccesses_commands :
    (at0 0x1101 [] base).Serves 0 spec_MEM_STATUS ∧
    (let s := at0 0x1180 [0] base
     s.Serves 0 spec_MEM_COUNTERS ∧ (s.msg 0).b 2 0 = false) ∧
    (let s := at0 0x1201 [63] base
     s.Serves 0 spec_MGD_STATUS ∧ (s.msg 0).n 2 5 0 ≠ 0) ∧
    (let s := at0 0x1280 [63, 0] (memoried.put R.MGD_STATUS F.MGD_STATUS_FRESH 1)
     s.Serves 0 spec_MGD_PARTITION ∧ s.tenants.any (fun r => decide (r.keyId = (s.msg 0).n 2 5 0)) = true ∧ (s.msg 0).n 3 9 0 = 0 ∧
     (s.msg 0).n 3 25 16 = 0 ∧ s.flag R.MGD_STATUS F.MGD_STATUS_FRESH = true) ∧
    (at0 0x1281 [1] base).Serves 0 spec_MGD_COUNTERS := by decide +kernel
theorem test_wit_TenantIsolation :
    ((memReq 63 0x100000000 true).cls = 3 ∧ (memReq 63 0x100000000 true).key = some 63 ∧
      (match exec (.storeTierAccess (memReq 63 0x100000000 true) .clean) memoried with | .next _ => true | _ => false) = true) ∧
    memoried.extRoute (memReq 63 (63 * 2 ^ 42 + 2 ^ 36) false) = .guard 63 := by decide +kernel
/-- DMA queue 31 runs with one descriptor posted. -/
def dmaPosted : State := ((base).setQState 31 2).put (R.DMA_QTAIL 31) F.DMA_QTAIL_TAIL 1
/-- DMA queue 31 has started descriptor `d`; its DIR is `dir`. -/
def dmaStarted (d : Desc) (dir : Nat) : State :=
  ((base).put (R.DMA_QCFG 31) F.DMA_QCFG_DIR dir).setDmaQ 31 { DmaQ.init with started := [d] }
/-- A descriptor with an operation, `moved` elements and its end. -/
def desc (op moved : Nat) (ended : Option (Nat × Nat)) : Desc := ⟨0, op, false, false, false, 64, 0, 0, 0, moved, false, 5, ended⟩
/-- A BAR request of `count` words at `off`. -/
def barReq (bar off count : Nat) : BarReq := ⟨bar, off, false, count, [], true⟩

theorem test_wit_HostAttachment :
    ((base).endpoint = true ∧ (barReq 2 0 1).bar = 2 ∧ (barReq 5 0 1).bar ≠ 4) ∧
    ((expert capOn).sys.session.isSome = true ∧ (expert capOn).policy 3 = true ∧ (barReq 4 0x0FFFFFFC 1).off + 4 * 1 ≤ 0x10000000 ∧
      (expert capOn).endpoint = true) ∧
    ((base).sys.session = none ∧ (base).sys.dev ≠ .off ∧ busReach .ubtor true (R.DMA_QTAIL 31) = true ∧
      busReach .ubtor true (R.DMA_QCTRL 31) = true ∧ busReach .swatch true (R.DMA_QTAIL 31) = false ∧
      busReach .swatch true (R.DMA_QCTRL 31) = false) ∧
    ((dmaPosted).engineRuns = true ∧ (dmaPosted).dmaReady = some 31) ∧
    (let s := dmaStarted (desc 1 64 (some (0, 0))) 0
     s.engineRuns = true ∧ (s.dmaQ 31).started = desc 1 64 (some (0, 0)) :: []) ∧
    (let s := dmaStarted (desc 2 3 none) 1
     (s.dmaQ 31).started = desc 2 3 none :: [] ∧ s.flag (R.DMA_QCFG 31) F.DMA_QCFG_DIR = true ∧ 0 < (desc 2 3 none).moved) ∧
    (let s := dmaStarted (desc 2 0 none) 0
     (s.dmaQ 31).started = desc 2 0 none :: [] ∧ s.flag (R.DMA_QCFG 31) F.DMA_QCFG_DIR = false ∧ (desc 2 0 none).op ≠ 1 ∧
     s.epStream (0x6000 + 31) = none) ∧
    ((opened base 4 0x1381 []).mbx.open_.map (·.code) = [0x1381]) := by decide +kernel
theorem test_wit_HostAttachment_commands :
    (at0 0x1301 [31] base).Serves 0 spec_DMA_STATUS ∧
    (let s := at0 0x1302 [0xE000001F] base
     s.Serves 0 spec_DMA_QUEUE ∧ s.keyKnown ((s.msg 0).n 2 21 16) = true ∧ s.qState ((s.msg 0).n 2 4 0) < 2 ∧
     s.epStream (0x6000 + (s.msg 0).n 2 4 0) = none) ∧
    (at0 0x1380 [1] base).Serves 0 spec_DMA_COUNTERS ∧
    (let s := at0 0x1381 [5] base
     s.Serves 0 spec_DMA_LINK ∧ 1 ≤ (s.msg 0).n 2 2 0 ∧ (s.msg 0).n 2 2 0 ≤ 5) := by decide +kernel
/-- Device `k` of a chain of eight, yarn port 1 in state `st` and step `step` towards position `peer`, on lane 95 in training. -/
def chained (k st step peer : Nat) : State :=
  let s := ((base).wr (R.LNE_RATE 95) (word (3 * 16 + 1))).setLaneState 95 laneTRAINING
  let s := ((s.put (R.YRN_PORT 1) F.YRN_PORT_STATE st).put (R.YRN_PORT 1) F.YRN_PORT_STEP step).put (R.YRN_PORT 1) F.YRN_PORT_PEER peer
  { s with svy := { s.svy with recs := [⟨8, 0, [k * 2 ^ 28 + 8 * 2 ^ 24 + 2 ^ 20, 0, 0]⟩] } }
/-- The same with port 1's hidden state. -/
def ported (k st step peer : Nat) (y : YPort) : State := (chained k st step peer).setYport 1 y
/-- A codeword held for replay, and a codeword received with number `seq`. -/
def sentCw : SentCw := ⟨0, none, none, 0, []⟩
def cwSeq (seq : Nat) (good : Bool) : YarnCodeword := ⟨good, false, seq, 0, false, false, false, none, none, 0, []⟩

theorem test_wit_YarnPorts_codewords :
    (let s := ported 0 2 5 1 { YPort.init with resend := [sentCw] }
     s.yarnUp 1 = true ∧ ((s.yarnPassAll 1).yport 1).resend = sentCw :: []) ∧
    (let s := ported 0 2 5 1 { YPort.init with unacked := List.replicate 48 sentCw }
     let y := (s.yarnPassAll 1).yport 1
     s.yarnUp 1 = true ∧ y.resend = [] ∧ y.discard = [] ∧ 48 ≤ y.unacked.length) ∧
    (let s := chained 0 2 5 1
     (cwSeq 0 false).good = false ∧ (s.yarnAck 1 (cwSeq 0 true)).yarnUp 1 = true ∧ (cwSeq 0 true).idle = false ∧
     seqAfter ((s.yarnAck 1 (cwSeq 0 true)).yport 1).lastGood 0 = 1 ∧ seqAfter ((s.yarnAck 1 (cwSeq 0 true)).yport 1).lastGood 65535 = 0 ∧
     2 ≤ seqAfter ((s.yarnAck 1 (cwSeq 0 true)).yport 1).lastGood 65486 ∧
     seqAfter ((s.yarnAck 1 (cwSeq 0 true)).yport 1).lastGood 65486 < 65488) ∧
    ((ported 0 2 5 1 { YPort.init with unacked := [sentCw] }).yport 1).unacked ≠ [] := by decide +kernel
/-- A training frame of lane 95. -/
def yframe (good : Bool) : YarnFrame := ⟨false, BitVec.ofNat 64 (2 ^ 50 + (controlCrc (2 ^ 50) + if good then 0 else 1) % 65536)⟩

theorem test_wit_YarnPorts_training :
    (let s := chained 0 1 3 1
     s.laneClass 95 = 3 ∧ s.laneGroup 95 = 1 ∧ s.laneState 95 = laneTRAINING ∧ (s.lane 95).lp = .none ∧
     s.get (R.YRN_PORT (s.laneGroup 95)) F.YRN_PORT_STATE = 1 ∧ s.get (R.YRN_PORT 1) F.YRN_PORT_STEP = 3 ∧ (yframe true).rxReady = true ∧
     (s.yport 1).ready.contains 95 = false) ∧
    (let s := chained 0 1 4 1
     s.yarnLanes 1 ≠ [] ∧ s.get (R.YRN_PORT 1) F.YRN_PORT_STATE = 1 ∧ s.get (R.YRN_PORT 1) F.YRN_PORT_STEP = 4 ∧
     (s.yarnLanes 1).all (fun n => s.laneState n == laneTRAINING && decide ((s.lane n).lp = .none)) = true ∧ (s.yport 1).wasUp = false) ∧
    (yframe false).good = false ∧ (yframe true).good = true ∧
    (let s := ported 0 1 4 1 { YPort.init with wasUp := true }
     (s.yport 1).wasUp = true ∧ s.yarnUp 1 = false) := by decide +kernel
/-- A CTRL unit for position `dst` from position `src`. -/
def cu (ack : Bool) (dst src : Nat) : CtrlUnit := ⟨ack, dst, src, true, 0, [0x01010402, 0x70000]⟩

theorem test_wit_YarnCascade_time :
    ((chained 0 2 5 1).yport 1).echo = none ∧
    (let s := ported 0 2 5 1 { YPort.init with rxTime := [.time 9 5 6] }
     (s.yport 1).rxTime = .time 9 5 6 :: [] ∧ (s.yport 1).lastTime = none) ∧
    (let s := ported 2 2 5 1 { YPort.init with rxTime := [.bcast 7 false 10000000] }
     let v := s.setYport 1 { s.yport 1 with rxTime := [] }
     (s.yport 1).rxTime = .bcast 7 false 10000000 :: [] ∧ v.position ≠ 0 ∧ v.get (R.YRN_PORT (otherPort 1)) F.YRN_PORT_PEER = 0 ∧
     v.links.yrn.lastBcast = none ∧ v.airNow < 10000000) ∧
    ((chained 2 2 5 1).upstream = some 1 ∧ (chained 2 2 5 1).cascaded = true ∧ (chained 2 2 5 1).yarnUp 1 = true) ∧
    (let s := ported 2 2 5 1 { YPort.init with rxTime := [.heartbeat 7 3 2] }
     (s.yport 1).rxTime = .heartbeat 7 3 2 :: [] ∧ (s.setYport 1 { s.yport 1 with rxTime := [] }).position ≠ 0) ∧
    (let s := ported 0 2 5 1 { YPort.init with rxTime := [.heartbeat 7 3 2] }
     (s.yport 1).rxTime = .heartbeat 7 3 2 :: [] ∧ (s.setYport 1 { s.yport 1 with rxTime := [] }).position = 0) ∧
    (let s := chained 0 2 5 1
     let s : State := { s with links := { s.links with yrn := { s.links.yrn with beats := [(7, some 5)] } } }
     sget (fun _ => none) s.links.yrn.beats 7 = some 5) := by decide +kernel
/-- A YRN.FORWARD to position 1 awaited, with its reply in MB27. -/
def replied : State :=
  let s := chained 0 2 5 1
  let s : State := { s with links := { s.links with yrn := { s.links.yrn with fwds := [⟨4, 1, 1, true⟩] } } }
  { s.postInto 27 [0x01010002, 0x70000] with mbx := { (s.postInto 27 [0x01010002, 0x70000]).mbx with poster := [(27, some 1)] } }

theorem test_wit_YarnCascade_messages :
    (let s := ported 0 2 5 1 { YPort.init with rxCtrl := [cu false 0 1] }
     s.mbx.pairsInReset.contains 2 = false ∧ headMessage (s.yport 1).rxCtrl = some (cu false 0 1 :: []) ∧ (cu false 0 1).dst = s.position ∧ s.full (26 + 1) = false) ∧
    (let s := ported 0 2 5 1 { YPort.init with rxCtrl := [cu false 3 1] }
     headMessage (s.yport 1).rxCtrl = some (cu false 3 1 :: []) ∧ (cu false 3 1).dst ≠ s.position) ∧
    (let s := ported 0 2 5 1 { YPort.init with rxCtrl := [cu true 3 1] }
     s.mbx.pairsInReset.contains 2 = false ∧ (s.yport 1).rxCtrl = cu true 3 1 :: [] ∧ (s.setYport 1 { s.yport 1 with rxCtrl := [] }).position ≠ 3) ∧
    (let m : YMsg := ⟨1, [], none⟩
     let s := ported 0 2 5 1 { YPort.init with rxCtrl := [cu true 0 1], cur := some m }
     let v := s.setYport 1 { s.yport 1 with rxCtrl := [], ctrlOwed := 1 }
     (s.yport 1).rxCtrl = cu true 0 1 :: [] ∧ v.position = 0 ∧ (v.yport 1).cur = some m ∧ m.dst = 1 ∧ m.openId = none ∧ v.links.yrn.fwds = []) ∧
    (replied.full 27 = true ∧ replied.holds 27 = false ∧ replied.serving = true ∧
      (replied.links.yrn.fwds.find? (fun f => decide (some f.target = (replied.msg 27).src))).isSome = true) := by decide +kernel
theorem test_wit_YarnCascade_commands :
    (at0 0x1001 [] base).Serves 0 spec_YRN_STATUS ∧
    (let s := at0 0x1002 [2 ^ 31 + 127] (chained 0 2 5 1)
     s.Serves 0 spec_YRN_CHANNEL ∧ s.cascaded = true ∧ s.yarnLanes ((s.msg 0).n 2 6 0 / 64) ≠ [] ∧ s.cascadeMode ≠ 3 ∧
     s.epStream (0x7000 + (s.msg 0).n 2 6 0) = none) ∧
    (let s := at0 0x1080 [1, 100000] (chained 0 2 5 1)
     s.Serves 0 spec_YRN_ASYM ∧ sgn 32 ((s.msg 0).w 3).toNat = 100000 ∧ s.cascaded = true) ∧
    (let s := at0 0x1081 [257] (chained 0 2 5 1)
     s.Serves 0 spec_YRN_COUNTERS ∧ s.cascaded = true) ∧
    (let s := at0 0x1003 [1, 0x01010402, 0x70000] ((chained 0 2 5 1).setBit R.YRN_STATUS 1 true)
     let c := s.msg 0
     s.Serves 0 spec_YRN_FORWARD ∧ s.cascaded = true ∧ c.n 2 2 0 ≠ s.position ∧ c.n 2 2 0 < s.cascadeCount ∧
     c.rest 3 = 0x01010402 :: [0x70000] ∧ Cmd.length { c with words := 0x01010402 :: [0x70000] } = c.length - 3 ∧ 5 ≤ c.length ∧
     replyLength { c with words := 0x01010402 :: [0x70000] } ≤ 61 ∧ s.yarnRoute (c.n 2 2 0) = some 1 ∧
     s.bit R.YRN_STATUS (8 + c.n 2 2 0) = false ∧ s.bit R.YRN_STATUS (c.n 2 2 0) = true) := by decide +kernel
/-- Tile 639's correctable fault (source 0x11) has a slot in the present windows. -/
def slotted (cnt : Nat) (lasting : Bool) : State :=
  let w := (base).fltW 0x11
  (base).setSlot 127 (some ⟨0x11, 65535, (base).stamp / w, cnt, ((base).stamp + w / 2) / w, cnt, lasting, (base).stamp⟩)

theorem test_wit_FaultWindows :
    (fltClass 0x60 = some 3 ∧ (base).fltWindowed 0x60 = false ∧ (base).flt.waiting = [] ∧ (base).sys.dev ≠ .off ∧
      (base).mbx.pairsInReset.contains 3 = false) ∧
    (let s := slotted 1 false
     let v := s.bump (R.FLT_COUNT 0)
     fltClass 0x11 = some 1 ∧ v.fltWindowed 0x11 = true ∧ v.slotOf 0x11 65535 = some 127 ∧
     (v.slot 127).map (fun x => decide ((x.count v.stamp (v.fltW 0x11)).cntA < v.fltT 0x11 ∧ (x.count v.stamp (v.fltW 0x11)).cntB < v.fltT 0x11)) =
       some true) ∧
    (let v := (base).setSlot 0 (some ⟨0x01, 0, (base).stamp / (base).fltW 0x01, 5, 0, 0, false, (base).stamp⟩)
     fltReported 0x01 = true ∧ (v.slot 0).isSome = true) ∧
    (let v := (slotted 3 false).bump (R.FLT_COUNT 0)
     fltReported 0x11 = false ∧ v.slotOf 0x11 65535 = some 127 ∧
     (v.slot 127).map (fun x => decide (v.fltT 0x11 ≤ (x.count v.stamp (v.fltW 0x11)).cntA) && !x.lasting) = some true) ∧
    ((slotted 1 true).mbx.pairsInReset.contains 3 = false ∧
      (sget (fun _ => none) (slotted 1 true).flt.slots 127).map (·.lasting) = some true ∧
      (sget (fun _ => none) (slotted 1 false).flt.slots 127).map (·.lasting) = some false) ∧
    (let e : FltEnd := ⟨0x11, 65535, true, false⟩
     let s : State := { base with flt := { (base).flt with ended := [e] } }
     s.flt.ended = e :: [] ∧ e.marked = false ∧ e.noSpare = true ∧ s.mbx.pairsInReset.contains 3 = false) ∧
    (let e : FltEnd := ⟨0x11, 65535, false, false⟩
     let v := slotted 1 true
     e.noSpare = false ∧ (v.logEvent 0x11 65535 1 []).slotOf 0x11 65535 = some 127) := by decide +kernel
theorem test_wit_FaultWindows_commands :
    (at0 0x1401 [] base).Serves 0 spec_FLT_STATUS ∧
    (let s := at0 0x1402 [0] base
     s.Serves 0 spec_FLT_EVENTS ∧ ((s.msg 0).w 2).toNat ≤ s.flt.seq) ∧
    (let s := at0 0x1480 [0x60, 0] base
     s.Serves 0 spec_FLT_WINDOW ∧ fltClass ((s.msg 0).n 2 7 0) ≠ none ∧ s.fltWindowed ((s.msg 0).n 2 7 0) = false) ∧
    (let s := at0 0x1480 [0x11, 0] base
     s.Serves 0 spec_FLT_WINDOW ∧ fltClass ((s.msg 0).n 2 7 0) ≠ none ∧ s.fltWindowed ((s.msg 0).n 2 7 0) = true) ∧
    (let s := at0 0x1481 [30 * 256 + 98] base
     s.Serves 0 spec_FLT_SLOTS ∧ 1 ≤ (s.msg 0).n 2 14 8 ∧ (s.msg 0).n 2 14 8 ≤ 30 ∧ (s.msg 0).n 2 6 0 + (s.msg 0).n 2 14 8 ≤ 128) ∧
    (at0 0x1482 [1] base).Serves 0 spec_FLT_COUNTERS := by decide +kernel
/-- A swatch requested, and one running at a step. -/
def swReq (kind target budget : Nat) : SwReq := ⟨.run, kind, target, budget, 5, [4], 1, false, []⟩
def swQueued (q : SwReq) : State := { base with swt := { (base).swt with queue := [q] } }
def swRunning (q : SwReq) (step : Nat) : State := { base with swt := { (base).swt with running := some ⟨q, step, 20000000, 5⟩ } }

theorem test_wit_Swatches :
    (let q := swReq 5 127 20000
     let s := swQueued q
     s.swt.running = none ∧ s.swtWorks = true ∧ s.swtNext = some q ∧ q.kind ≠ 6 ∧ s.mbx.pairsInReset.contains 3 = false ∧
     s.stepBound q.kind q.target q.step 20000000 ≤ q.budget * 1000 ∧ q.budget * 1000 < s.stepBound q.kind q.target q.step 20000001) ∧
    ((swRunning (swReq 5 127 20000) 1).swt.running.map (fun r => r.req.kind) = some 5 ∧
      (swRunning (swReq 1 1247 20000) 5).swt.running.map (fun r => (r.req.kind, r.step)) = some (1, 5)) ∧
    (let s := swRunning (swReq 1 1247 20000) 4
     s.swt.running.map (fun r => (r.req.kind, r.step)) = some (1, 4) ∧
     (s.reach (s.stamp + 10)).stepBound 1 1247 5 0 ≤ 20000000 - 10) ∧
    (let s := swRunning (swReq 4 4095 20000) 1
     (s.reach (s.stamp + 10)).sparesUsed (fun r => decide (r.kind = 4 ∧ r.target = 4095)) < 2) ∧
    (let s := swRunning (swReq 4 4095 20000) 1
     let s : State := { s with swt := { s.swt with soft := [⟨4, 4095, 0, 0⟩, ⟨4, 4095, 1, 1⟩] } }
     2 ≤ (s.reach (s.stamp + 10)).sparesUsed (fun r => decide (r.kind = 4 ∧ r.target = 4095))) := by decide +kernel
/-- A swatch of link 49, which the route from 238 to 193 crosses, queued while every link has failed. -/
def linkSwatch : State := (List.range 4).foldl (fun s k => s.wr (R.GRT_FAIL k) (word (2 ^ 32 - 1))) (swQueued (swReq 6 49 20000))

theorem test_wit_Swatches_link :
    linkSwatch.swt.running = none ∧ linkSwatch.swtWorks = true ∧ linkSwatch.swtNext = some (swReq 6 49 20000) ∧
    (let q := swReq 6 49 20000
     let r : SwRun := ⟨q, q.step, q.budget * 1000, linkSwatch.stamp⟩
     let v : State := { linkSwatch with swt := { linkSwatch.swt with queue := linkSwatch.swt.queue.erase q, running := some r } }
     (v.detours (fun k => v.linkFailed k || decide (k = q.target)) q.target).2 = true) :=
  ⟨by decide +kernel, by decide +kernel, by decide +kernel,
    detours_cut _ _ 49 238 193 (by decide) (by decide) (by decide +kernel) (by decide +kernel)⟩
/-- The rotation at wale 39, and a tile of wale 39 to retire. -/
def rotates : State := ((base).put R.SWT_ROT F.SWT_ROT_EN 1).put R.SWT_ROT F.SWT_ROT_WALE 39
def retires (fused : Nat) : State :=
  { (base).put (R.WAL_SHIFT 39) F.WAL_SHIFT_FUSED fused with swt := { (base).swt with retire := [⟨39, 15, []⟩] } }

theorem test_wit_Swatches_rotation :
    (let m : Remap := ⟨⟨4, 4095, 7, 0⟩, 7, 1, []⟩
     let s : State := { base with swt := { (base).swt with remaps := [m] } }
     s.swt.remaps = m :: [] ∧ m.repair.kind ≠ 5) ∧
    (rotates.sys.dev = .charted ∧ rotates.swt.retire = [] ∧ rotates.swt.running = none ∧ rotates.swt.queue = [] ∧
      rotates.mbx.pairsInReset.contains 3 = false ∧
      rotates.flag R.SWT_ROT F.SWT_ROT_EN = true ∧ rotates.rotWale = some 39 ∧ (rotates.wale 39).shift = none) ∧
    ((retires 1).sys.dev = .charted ∧ (retires 1).mbx.pairsInReset.contains 3 = false ∧ (retires 1).swt.retire = ⟨39, 15, []⟩ :: [] ∧ ((retires 1).wale 39).shift = none ∧
      (retires 1).swt.retiring = none ∧ (retires 1).swt.rotating = none ∧ (retires 1).canRotate 39 = false ∧ (retires 0).canRotate 39 = true) := by
  decide +kernel
theorem test_wit_SwatchCommands :
    (at0 0x1501 [] base).Serves 0 spec_SWT_STATUS ∧
    (let s := at0 0x1502 [5 * 2 ^ 28 + 127, 20000] base
     s.Serves 0 spec_SWT_RUN ∧ targetOk ((s.msg 0).n 2 31 28) ((s.msg 0).n 2 15 0) = true ∧ (s.msg 0).n 3 14 0 ≤ 20000 ∧
     s.swtCond ((s.msg 0).n 2 31 28) ((s.msg 0).n 2 15 0) = true ∧ s.swt.queue.length < 64) ∧
    (let s := at0 0x1502 [7 * 2 ^ 28 + 95, 0] base
     s.Serves 0 spec_SWT_RUN ∧ targetOk ((s.msg 0).n 2 31 28) ((s.msg 0).n 2 15 0) = true ∧
     s.swtCond ((s.msg 0).n 2 31 28) ((s.msg 0).n 2 15 0) = false) ∧
    (let s := at0 0x1503 [7] base
     s.Serves 0 spec_SWT_RESULTS ∧ 1 ≤ (s.msg 0).n 2 2 0) ∧
    (let s := at0 0x1504 [2 ^ 31, 245759] ((base).put (R.AIR_PERIOD 0) F.AIR_PERIOD_PERIOD 245760)
     s.Serves 0 spec_SWT_ROTATE ∧ (s.msg 0).n 3 19 0 < s.airPeriod s.airActive) := by decide +kernel
/-- VPP_FUSE within limits, with `n` repairs fused. -/
def vpp (n : Nat) : State :=
  { base with sys := { (base).sys with rails := [.vppFuse] }, swt := { (base).swt with fused := List.replicate n ⟨4, 0, 0, 0⟩ } }

theorem test_wit_SwatchCommands_fuse :
    (let s := at0 0x1580 [0xF05E] (vpp 256)
     s.Serves 0 spec_SWT_FUSE ∧ (s.msg 0).n 2 15 0 = 0xF05E ∧ s.swt.fuseOpen = none ∧ s.vppOk = true ∧
     s.swt.fused.length + s.unfused.length ≤ 256) ∧
    (let s := at0 0x1580 [0xF05E] base
     s.Serves 0 spec_SWT_FUSE ∧ s.vppOk = false) ∧
    (let s := at0 0x1580 [0xF05E] (vpp 257)
     s.Serves 0 spec_SWT_FUSE ∧ s.vppOk = true ∧ s.swt.fuseOpen = none ∧ 256 < s.swt.fused.length + s.unfused.length) ∧
    (let s := at0 0x1581 [0x0A4C] base
     s.Serves 0 spec_SWT_UNMARK ∧ (s.msg 0).n 2 15 0 = 0x0A4C) ∧
    (at0 0x1582 [1] base).Serves 0 spec_SWT_COUNTERS ∧
    ({ base with swt := { (base).swt with fuseOpen := some 4 } } : State).swt.fuseOpen = some 4 := by decide +kernel
/-- The thermal island with cap `c` at `p` points and what it waits for. -/
def capAt (c p : Nat) (x : CapRun) : State := ((base).put R.PWR_STATUS (capField c) p).setCapRun c x
/-- TRIPPED, cool since `t`; with `bad`, twelve sensors of tier 4 failed. -/
def coolSince (t : Nat) (bad : Bool) : State :=
  let s : State := { base .tripped with thm := { (base .tripped).thm with restartSince := some t } }
  if bad then (List.range 12).foldl (fun s i => s.put (R.THM_SENSOR (108 + i)) F.THM_SENSOR_FAILED 1) s else s

theorem test_wit_ThermalControl :
    (base).sys.dev ≠ .off ∧ (bandEdges.getD 4 0 ≤ 440 ∧ bandEdges.getD 4 0 - 8 ≤ 432 ∧ (431 : Int) < bandEdges.getD 4 0 - 8) ∧
    (((capAt 1 3 ⟨true, some 5, none⟩).capRun 1).hot = true ∧ (capAt 1 3 ⟨true, some 5, none⟩).mbx.pairsInReset.contains 3 = false ∧ (capAt 1 3 ⟨true, some 5, none⟩).cap 1 ≠ 0) ∧
    (((capAt 1 0 ⟨false, none, some 5⟩).capRun 1).cool = some 5 ∧ (capAt 1 0 ⟨false, none, some 5⟩).capFloored 1 = false ∧
      (capAt 1 0 ⟨false, none, some 5⟩).cap 1 ≠ 3) ∧
    ((coolSince 5 false).thm.restartSince = some 5 ∧ (coolSince 5 false).sys.dev = .tripped ∧ (coolSince 5 false).thm.held = false) ∧
    (let r (s : State) := s.reach (5 + s.get R.THM_CFG F.THM_CFG_RESTART_S * 1000000000)
     (List.range 5).any (r (coolSince 5 false)).tierLost = false ∧ (List.range 5).any (r (coolSince 5 true)).tierLost = true) ∧
    (at0 0x0501 [] base).Serves 0 spec_THM_STATUS ∧
    (let s := at0 0x0502 [61 * 256 + 59] base
     s.Serves 0 spec_THM_SENSORS ∧ 1 ≤ (s.msg 0).n 2 14 8 ∧ (s.msg 0).n 2 14 8 ≤ 61 ∧ (s.msg 0).n 2 6 0 + (s.msg 0).n 2 14 8 ≤ 120) ∧
    (let s := at0 0x0580 [105] base
     s.Serves 0 spec_THM_THROTTLE ∧ 85 ≤ (s.msg 0).n 2 7 0 ∧ (s.msg 0).n 2 7 0 ≤ 105) ∧
    (at0 0x0581 [1] base).Serves 0 spec_THM_COUNTERS := by decide +kernel
/-- An image write in progress. -/
def gazWrites (toB : Bool) : State := { base with gaz := { (base).gaz with writing := some ⟨toB, ⟨1, [], []⟩, some 4⟩ } }

theorem test_wit_GazetteerRecords :
    ((base).sys.dev ≠ .off ∧ (base).sys.dev ≠ .boot ∧ (base).mbx.pairsInReset.contains 3 = false) ∧
    ((gazWrites true).gaz.writing.map (·.toB) = some true ∧ (gazWrites false).gaz.writing.map (·.toB) = some false ∧
      (gazWrites true).gaz.dueAgain = false) ∧
    (let x : GazExport := ⟨4, 4096, [1]⟩
     ({ base with gaz := { (base).gaz with exporting := [x] } } : State).gaz.exporting = x :: []) ∧
    (let s := at0 0x1601 [226 * 65536 + 30] base
     s.Serves 0 spec_GAZ_READ ∧ (s.msg 0).n 2 31 30 = 0 ∧ 1 ≤ (s.msg 0).n 2 4 0 ∧ (s.msg 0).n 2 4 0 ≤ 30 ∧
     (s.msg 0).n 2 28 16 + (s.msg 0).n 2 4 0 ≤ 256) ∧
    (let s := at0 0x1601 [2 ^ 30 + 47 * 65536] base
     s.Serves 0 spec_GAZ_READ ∧ (s.msg 0).n 2 31 30 = 1 ∧ (s.msg 0).n 2 28 16 ≤ 47) ∧
    (let s := at0 0x1601 [2 ^ 31 + 7] { base with gaz := { (base).gaz with journal := List.replicate 7 [] } }
     s.Serves 0 spec_GAZ_READ ∧ (s.msg 0).n 2 31 30 = 2 ∧ 1 ≤ (s.msg 0).n 2 4 0 ∧ (s.msg 0).n 2 4 0 ≤ 7 ∧
     (s.msg 0).n 2 28 16 + (s.msg 0).n 2 4 0 ≤ s.gaz.journal.length) ∧
    (let s := at0 0x1601 [3 * 2 ^ 30] base
     s.Serves 0 spec_GAZ_READ ∧ (s.msg 0).n 2 31 30 = 3) ∧
    (let s := at0 0x1602 [4096, 0] base
     s.Serves 0 spec_GAZ_EXPORT ∧ (s.msg 0).n64 2 % 4096 = 0) ∧
    ((at0 0x1680 [] base).Serves 0 spec_GAZ_FLUSH ∧ (base).gaz.writing = none) ∧
    ((at0 0x1680 [] (gazWrites true)).Serves 0 spec_GAZ_FLUSH ∧ (gazWrites true).gaz.writing.isSome = true) := by decide +kernel
/-- The device with the datum island powered and changed by `f`. -/
def island (f : Dat → Dat) : State := { base with dat := f { (base).dat with powered := true } }

theorem test_wit_DatumMeasures :
    (let s := island id
     let d := (List.range 4).foldl (fun (d : Dat) c => d.sample c 0 0) { s.dat with active := activeSlot s.dat.slots }
     s.dat.powered = true ∧ d.inSecond < 7999 ∧ s.dat.sealing = none) ∧
    (let s := island (fun d => { d with inSecond := 7999 })
     let d := (List.range 4).foldl (fun (d : Dat) c => d.sample c 0 0) { s.dat with active := activeSlot s.dat.slots }
     d.inSecond = 7999) ∧
    (swf (fun _ => 0) (base).dat.acc = true ∧ swf (fun _ => 0) (base).dat.residue = true) ∧ (base).dat.powered = false ∧
    (20000 < (-20001 : Int).natAbs ∧ (20000 : Int).natAbs ≤ 20000 ∧ (island id).dat.onRc = false) ∧
    (let s := island (fun d => { d with onRc := true, goodSecs := 9 })
     s.dat.onRc = true ∧ 9 ≤ s.dat.goodSecs) ∧
    (let s := island (fun d => { d with onRc := true, goodSecs := 8 })
     s.dat.onRc = true ∧ s.dat.goodSecs < 9) ∧
    (let s := island (fun d => { d with pulsesDue := 1 })
     0 < s.dat.pulsesDue ∧ s.dat.pulseAt = none) ∧
    (let s := island (fun d => { d with pulsesDue := 1, pulseAt := some 0, inSecond := 16 })
     0 < s.dat.pulsesDue ∧ s.dat.pulseAt = some 0 ∧ 0 + 16 ≤ s.dat.seconds * 8000 + s.dat.inSecond) ∧
    (let s := island (fun d => { d with pulsesDue := 1, pulseAt := some 0, inSecond := 15 })
     s.dat.pulseAt = some 0 ∧ s.dat.seconds * 8000 + s.dat.inSecond < 0 + 16) := by decide +kernel
/-- Sixty staged bytes. -/
def staged60 : List Byte := List.replicate 60 1

theorem test_wit_DatumCalibration :
    ((base).dat.powered = false) ∧
    (let s := island (fun d => { d with calEn := true })
     s.dat.powered = true ∧ s.dat.calEn = true ∧ s.dat.session = false) ∧
    (let s := island (fun d => { d with calEn := true, session := true })
     s.dat.session = true ∧ 3 ≤ 3 ∧ 1 ≤ 2 ^ 24 ∧ staged60.length = 60) ∧
    (let m : CalMeasure := ⟨3, 2, 2, 5, 6⟩
     let s := island (fun d => { d with calEn := true, session := true, measure := some m })
     s.dat.measure = some m ∧ m.taken = m.n) ∧
    (let s := island (fun d => { d with calEn := true, session := true, staged := some staged60, slots := [[], [], []] })
     let s : State := { s with sys := { s.sys with rails := [.vppFuse] } }
     s.dat.staged = some staged60 ∧ s.dat.slots.length < 4 ∧ s.dat.sealing = none ∧ s.sys.rails.contains .vppFuse = true) ∧
    (let s := island (fun d => { d with calEn := true, slots := [[], [], [], []] })
     s.dat.slots.length = 4 ∧ ([0x5E, 0xA0] : List Byte) ≠ [0x5E, 0xA1]) ∧
    ((island (fun d => { d with sealing := some staged60 })).dat.sealing = some staged60) := by decide +kernel
theorem test_wit_DatumReports :
    (let s := island (fun d => { d with recDue := true })
     s.dat.recDue = true ∧ s.sys.dev ≠ .off ∧ s.full 28 = false ∧ (s.postInto 28 [0, 0]).full 28 = true) ∧
    (let e : DatEvent := ⟨0, 0, 1, 0xFF, 0⟩
     let s := island (fun d => { d with waiting := [e] })
     s.dat.waiting = e :: [] ∧ s.full 29 = false ∧ (s.postInto 29 [0, 0]).full 29 = true) ∧
    ((at0 0x1701 [] base).Serves 0 spec_DAT_STATUS ∧ (at0 0x1702 [] base).Serves 0 spec_DAT_ENERGY) ∧
    (let s := at0 0x1703 [0] base
     s.Serves 0 spec_DAT_LOG ∧ ((s.msg 0).w 2).toNat ≤ s.datNext) ∧
    (let s := at0 0x1704 [62 * 65536 + 15] base
     s.Serves 0 spec_DAT_SPLIT ∧ (s.msg 0).n 2 3 0 ≠ 0 ∧ (s.msg 0).n 2 21 16 ≤ 62) := by decide +kernel
/-- Pins 192 to 223: the last one owned by UBTOR (code 1), the one before by firmware (code 0). -/
def pinned : State := (base).put (R.PIO_CFG 223) F.PIO_CFG_OWNER 1

theorem test_wit_PinsAndHandover :
    ((pinned).sys.dev ≠ .off ∧ busReach .ubtor true (R.PIO_SET 6) = true ∧ busReach .ubtor true (R.PIO_CLR 6) = true ∧
      busReach .ubtor true (R.PIO_TGL 6) = true) ∧
    (within 0x80000000 (pinned.latchReach .ubtor 6 false) = true ∧ within 0xC0000000 (pinned.latchReach .ubtor 6 false) = false) ∧
    (let s := at0 0x0701 [223] base
     s.Serves 0 spec_PIN_STATUS ∧ (s.msg 0).n 2 7 0 ≤ 223) ∧
    (let s := at0 0x0704 [6] base
     s.Serves 0 spec_PIN_READ ∧ (s.msg 0).n 2 2 0 ≤ 6) ∧
    ([0, 1, 2].all (fun op =>
      let s := at0 0x0703 [op * 256 + 6, 0x40000000] pinned
      decide (s.Serves 0 spec_PIN_WRITE) && decide ((s.msg 0).n 2 9 8 = op) && decide ((s.msg 0).n 2 2 0 ≤ 6) &&
      within ((s.msg 0).w 3).toNat (s.latchReach .ubtor ((s.msg 0).n 2 2 0) true)) = true) ∧
    (let s := at0 0x0703 [6, 0xC0000000] pinned
     s.Serves 0 spec_PIN_WRITE ∧ within ((s.msg 0).w 3).toNat (s.latchReach .ubtor ((s.msg 0).n 2 2 0) true) = false) ∧
    (let s := at0 0x0702 [223, 2 ^ 31 + 2 ^ 28 + 1] base
     s.Serves 0 spec_PIN_ASSIGN ∧ assignBad (s.msg 0) s = none ∧ (s.msg 0).sheet = none ∧ s.hand ((s.msg 0).n 2 7 0) = none ∧
     (s.msg 0).n 3 30 28 ≠ 2 ∧ (rolesOf s.svy.recs).contains (s.pinFunc ((s.msg 0).n 2 7 0)) = false) := by decide +kernel
theorem test_wit_PinsAndHandover_more :
    (let s := at0 0x0780 [223, 0x90000] base
     s.Serves 0 spec_PIN_PAD ∧ (s.msg 0).n 2 7 0 ≤ 223 ∧ (s.msg 0).n 3 19 18 ≠ 3 ∧ (s.msg 0).b 3 16 = true) ∧
    (at0 0x0781 [1] base).Serves 0 spec_PIN_COUNTERS ∧
    (let x : Handover := ⟨1000, 1, 0, 0, 1, 0, true, 4⟩
     let s := (base).setHand 223 (some x)
     let s : State := { s with mbx := { s.mbx with running := [⟨4, 0, 0x0702, 7, 0, false, 0, none, [223]⟩] } }
     s.hand 223 = some x ∧ (s.mbx.running.find? (fun o => o.id = x.openId)).isSome = true) := by decide +kernel
theorem test_wit_StepKeepsCanonicalForm : State.reset.RegsWf ∧ State.reset.MemWf := by
  refine ⟨?_, ?_⟩
  · unfold State.RegsWf; decide +kernel
  · unfold State.MemWf; decide +kernel
theorem test_wit_DatumIsolation : ofDatum (.registerWrite .host R.DAT_LOG 4 0) = false ∧ ofDatum (.datumSample [] []) = true := by decide

/-! ### Well-formedness: every check refuses an ill-formed term and lets a well-formed one by -/

/-- A clean line of external memory. -/
def cleanLine : ExtRead := ⟨0, .clean, none⟩

/-- A read of the external memory. -/
def wfRead : MemReq := ⟨0, 0, none, 0, false, 64, [], none⟩

/-- A codeword with nothing in it. -/
def wfCw : YarnCodeword := ⟨true, false, 0, 0, false, false, true, none, none, 0, []⟩

theorem test_wf_accepts_startup : ([.supplyValid (.vddio 6), .supplyLoss .vppFuse, .powerOnResetRelease 3 3 1 3, .bootImageTried (.fail 4),
    .pcieLinkTrained 5 8, .mbxWordWrite (.sheet 31) 31 63 0, .mbxPost (.tile 639) 31 0, .registerWrite .jtag (2 ^ 48 - 1) 8 0, .sysStatus 27,
    .surveyCommitComplete ⟨[255], true, [0, 0, 0, 0, 0, 0, 0], 0, [0, 0, 0, 0, 0, 0, 0, 0], 0, []⟩] : List Instr).all WellFormed = true := by decide +kernel

theorem test_wf_refuses_masters_and_rails : ([.supplyValid (.vddio 7), .supplyLoss (.vddio 7), .mbxWordWrite (.sheet 32) 0 1 0, .mbxPost (.tile 640) 0 0,
    .mbxAckClear (.sheet 32) 0, .devStampLoRead (.tile 640), .pioSet (.sheet 32) 0 0, .ckiGateWrite (.sheet 32) 0 0,
    .datAccLoRead (.tile 640) 0 0] : List Instr).all (fun i => !WellFormed i) = true := by decide +kernel

theorem test_wf_refuses_startup : ([.powerOnResetRelease 4 0 0 0, .powerOnResetRelease 0 4 0 0, .powerOnResetRelease 0 0 2 0, .powerOnResetRelease 0 0 0 4,
    .bootImageTried (.fail 0), .bootImageTried (.fail 5), .pcieLinkTrained 0 1, .pcieLinkTrained 6 1, .pcieLinkTrained 1 3,
    .dmaLinkRetrained 6 1] : List Instr).all (fun i => !WellFormed i) = true := by decide +kernel

theorem test_wf_refuses_mailboxes : ([.mbxWordWrite .host 32 1 0, .mbxWordWrite .host 0 0 0, .mbxWordWrite .host 0 64 0, .mbxPost .host 32 0,
    .mbxAckcodeWrite .host 32 0, .fabricClaimTimeout 8, .sysStatus 15, .sysStatus 20, .sysStatus 25, .sysStatus 28, .undefinedCommand 8] : List Instr).all
    (fun i => !WellFormed i) = true := by decide +kernel

theorem test_wf_refuses_addresses : ([.registerWrite .host (2 ^ 48) 4 0, .registerWrite .host 0 3 0, .ckiGateWrite .host (2 ^ 48) 0] : List Instr).all
    (fun i => !WellFormed i) = true := by decide +kernel

theorem test_wf_refuses_commit_findings : ([.surveyCommitComplete ⟨[256], true, [], 0, [], 0, []⟩, .surveyCommitComplete ⟨[], true, [0, 0, 0, 0, 0, 0, 0, 0], 0, [], 0, []⟩,
    .surveyCommitComplete ⟨[], true, [], 0, [0, 0, 0, 0, 0, 0, 0, 0, 0], 0, []⟩] : List Instr).all (fun i => !WellFormed i) = true := by decide +kernel

theorem test_wf_refuses_lanes : ([.laneUp ⟨[⟨96, false, none⟩], []⟩, .laneUp ⟨[], [(96, 0)]⟩, .laneTrainingAttemptTimeout 96 none, .laneRetryTimer 96, .laneLos 96, .cdrUnlock 96, .pllUnlock 96 false,
    .refClockOutOfRange 12, .refClockRestored 12, .adaptationStep 96 ⟨0, [], none, 0, false⟩, .adaptationStep 0 ⟨2, [], none, 0, false⟩, .adaptationStep 0 ⟨0, List.replicate 13 0, none, 0, false⟩,
    .adaptationStep 0 ⟨0, [], none, 256, false⟩,
    .adaptLimit 96, .lowPowerEntryComplete 96, .lowPowerExitComplete 96, .checkerLockLoss 96 0, .checkerLock 96 false, .lneChkbitsLoRead 96,
    .lneCtrlLock .host 96 0] : List Instr).all (fun i => !WellFormed i) = true := by decide +kernel

theorem test_wf_refuses_tiles : ([.cmac 640 0, .cmul 0 8, .ld 0 0 3, .lut16 640 ⟨0, 0⟩, .lut16 0 ⟨8, 0⟩, .lut16 0 ⟨0, 3⟩, .outsideAccessWaitExpiry 0 65536 [] 0, .tokenDrainEnd 640, .wordLinkElement 0 6, .wordLinkCredit 0 4 0,
    .wordLinkCredit 0 0 4, .nop 640 0, .nop 0 8] : List Instr).all (fun i => !WellFormed i) = true := by decide +kernel

theorem test_wf_accepts_tiles : ([.cmac 639 7, .ld 639 7 2, .outsideAccessWaitExpiry 639 65535 [] 2, .wordLinkElement 639 5, .wordLinkCredit 639 3 3,
    .nop 639 7, .walSwitchGo 39 65535 15] : List Instr).all WellFormed = true := by decide +kernel

theorem test_wf_refuses_wales : ([.patternHardSwitchEdge 40, .gateChannelElement 40 0, .gateChannelElement 0 16, .shiftCopyEnd 40, .walSwitchGo 40 0 0, .walSwitchGo 0 65536 0,
    .walSwitchGo 0 0 16, .walCtrlLock 40] : List Instr).all (fun i => !WellFormed i) = true := by decide +kernel

theorem test_wf_refuses_sheets : ([.resetNetRelease 32 0, .resetNetRelease 0 4, .riserRxTake 32 0 0, .riserRxTake 0 40 0, .riserCreditPulse 0 0 4,
    .bramAccess 32 0 none none [] [] true, .bramAccess 0 128 none none [] [] true, .bramAccess 0 0 (some ⟨16384, false, true, 0⟩) none [] [] true,
    .bramAccess 0 0 none (some ⟨0, true, false, 2 ^ 72⟩) [] [] true, .bramAccess 0 0 none none [36864] [] true, .bramAccess 0 0 none none [] [36864] true,
    .sheetSwitchEdge 32 [] [], .sheetSwitchEdge 0 [32] [], .sheetSwitchEdge 0 [] [.io 32], .flipFlopClockEdge 0 4 false [], .flipFlopClockEdge 0 0 false [.txCredit 40 0], .sheetClockRestart 32,
    .captureInstant 32 0, .captureEdgeNoneTimeout 32, .capTrigEdge 32, .captureCopyComplete 32, .shtCtrlLock 32, .shtResetPulseEnd 4,
    .riserOrientationChange 0 40, .riserConflictTimeout 32 0, .flipFlopClockEdge 32 0 false []] : List Instr).all (fun i => !WellFormed i) = true := by decide +kernel

theorem test_wf_refuses_loads : ([.chartPortBeat 32 [], .chartPortBeat 0 [], .chartPortAbort 32, .chartPortTimeout 32, .stagingDataArrival 4 [], .stagingComplete 4 false,
    .verificationComplete 4] : List Instr).all (fun i => !WellFormed i) = true := by decide +kernel

theorem test_wf_refuses_streams : ([.streamSeamArrival 4096, .latestUsableTime 4096, .graticuleStreamFlit 4096 0 (.buffer 1), .graticuleStreamFlit 0 (2 ^ 24) (.producer [el 0]), .graticuleStreamFlit 0 0 (.buffer 4),
    .graticuleStreamFlit 0 0 (.producer []), .graticuleStreamFlit 0 0 (.producer [el 0, el 0, el 0, el 0]), .bindoffFinalSeam 4096, .bindoffTimeout 4096] : List Instr).all
    (fun i => !WellFormed i) = true := by decide +kernel

theorem test_wf_refuses_frames : ([.ethFrameReceived 16 ⟨true, 0, 0, [], .other⟩, .ethFrameReceived 0 ⟨true, 0, 0, [], .esmc 16⟩,
    .ethFrameReceived 0 ⟨true, 0, 0, [], .ptp ⟨false, 256, 0, 0, 0, .sync⟩⟩, .ethFrameReceived 0 ⟨true, 0, 0, [], .ecpri [⟨16, 0, 0, false, 0, .other⟩]⟩,
    .ethFrameReceived 0 ⟨true, 0, 0, [], .ecpri [⟨1, 65536, 0, false, 0, .other⟩]⟩, .ethFrameReceived 0 ⟨true, 0, 0, [], .ecpri [⟨1, 0, 256, false, 0, .other⟩]⟩,
    .txIqUnitFraming 256, .ptpMessage 16 ⟨false, 0, 0, 0, 0, .sync⟩, .ptpMessage 0 ⟨false, 0, 0, 0, 0, .announce 256 true none⟩, .esmcMessage 0 16,
    .todMessage ⟨9601, .zda true true 0⟩, .todMessage ⟨9600, .binary [0]⟩] : List Instr).all (fun i => !WellFormed i) = true := by decide +kernel

theorem test_wf_refuses_converters : ([.syncHeaderLock 16 [], .syncHeaderLock 0 [⟨96, false, none⟩], .embLock 16, .elasticBufferRelease 16, .crc12Error 96,
    .embLockLoss 96] : List Instr).all (fun i => !WellFormed i) = true := by decide +kernel

theorem test_wf_refuses_power : ([.generatorReferenceLoss 144, .generatorLock 144, .avsAck 2 0, .islandPowerSwitchOpen 144, .islandOff 144, .islandPowerUpComplete 144,
    .wakeEvent 0, .wakeEvent 18, .pwrAvsRead 0 (some (65536, 0, 0)), .pwrAvsRead 0 (some (0, 65536, 0)), .pwrAvsRead 0 (some (0, 0, 32768)),
    .pwrAvsRead 8 none] : List Instr).all (fun i => !WellFormed i) = true := by decide +kernel

theorem test_wf_refuses_graticule : ([.packetInjection 256 .host false 0 1 none [], .packetInjection 0 (.sheet 32) false 0 1 none [], .packetInjection 0 .host false (2 ^ 48) 1 none [],
    .packetInjection 0 .host false 0 129 none [], .packetInjection 0 .host false 0 1 (some 64) [], .packetInjection 0 .host true 0 1 none [],
    .graticuleFlitHop 64 0, .graticuleFlitHop 0 12, .responseAtSource 256, .routerSelfGate 79, .routerSelfGate 96, .linkCrcError 112 0, .linkCrcError 0 2,
    .routeChangeEffect 256 0, .routeChangeEffect 0 256] : List Instr).all (fun i => !WellFormed i) = true := by decide +kernel

theorem test_wf_refuses_requests : ([.externalAccess { wfRead with src := 256 } cleanLine, .externalAccess { wfRead with cls := 8 } cleanLine,
    .externalAccess { wfRead with key := some 64 } cleanLine, .externalAccess { wfRead with addr := 2 ^ 48 } cleanLine, .externalAccess { wfRead with len := 0 } cleanLine,
    .externalAccess { wfRead with len := 129 } cleanLine, .externalAccess { wfRead with write := true } cleanLine,
    .externalAccess wfRead ⟨0, .clean, some ([0], 0)⟩] : List Instr).all (fun i => !WellFormed i) = true := by decide +kernel

theorem test_wf_refuses_memory : ([.storeScrubPass 8 0 [], .protectedRead [⟨cleanLine, [(0, cleanLine)], [], []⟩], .protectedRead [⟨cleanLine, [(10, cleanLine)], [], []⟩],
    .protectedWrite [⟨cleanLine, [], [10], []⟩], .protectedWrite [⟨cleanLine, [], [], [(0, 3, 0)]⟩], .counterCacheEviction 0 0 ⟨cleanLine, [], [], []⟩,
    .counterCacheEviction 10 0 ⟨cleanLine, [], [], []⟩] : List Instr).all (fun i => !WellFormed i) = true := by decide +kernel

theorem test_wf_accepts_memory : ([.externalAccess wfRead cleanLine, .protectedRead [⟨cleanLine, [(9, cleanLine)], [9], [(0, 2, 0)]⟩],
    .counterCacheEviction 9 0 ⟨cleanLine, [], [], []⟩, .storeScrubPass 7 0 []] : List Instr).all WellFormed = true := by decide +kernel

theorem test_wf_refuses_host_port : ([.pcieBarRequest ⟨6, 0, false, 1, [], true⟩, .pcieBarRequest ⟨0, 0, true, 1, [], true⟩, .pcieBarRequest ⟨0, 0, false, 1, [0], true⟩,
    .bar4Read ⟨2, 0, false, 1, [], true⟩ .clean, .bar4Read ⟨4, 0, true, 1, [0], true⟩ .clean, .msixUnmask 64, .dmaQtailWrite .host 32 0, .dmaQctrlRun .host 32 0,
    .dmaDescriptorStart (some [0]), .dmaDescriptorComplete 32 ⟨[], none, [], [], [], []⟩, .dmaDescriptorComplete 0 ⟨[], none, [], [], [], [[0]]⟩,
    .d2hIdleTimeout 32, .hostReadTimeout 32 ⟨[], none, [], [], [], []⟩] : List Instr).all (fun i => !WellFormed i) = true := by decide +kernel

theorem test_wf_refuses_codewords : ([.yarnCodewordReceived 2 wfCw, .yarnCodewordReceived 0 { wfCw with seq := 65536 }, .yarnCodewordReceived 0 { wfCw with ackSeq := 65536 },
    .yarnCodewordReceived 0 { wfCw with ctrlCredit := 256 }, .yarnCodewordReceived 0 { wfCw with creditA := some ⟨64, 1⟩ },
    .yarnCodewordReceived 0 { wfCw with creditB := some ⟨0, 0⟩ }, .yarnCodewordReceived 0 { wfCw with creditB := some ⟨0, 512⟩ },
    .yarnCodewordReceived 0 { wfCw with units := List.replicate 20 (.heartbeat 0 0 0) }] : List Instr).all (fun i => !WellFormed i) = true := by decide +kernel

theorem test_wf_refuses_units : (([.elems 64 [el 0], .elems 0 [], .elems 0 [el 0, el 0, el 0, el 0], .ctrl ⟨false, 8, 0, true, 0, []⟩, .ctrl ⟨false, 0, 8, true, 0, []⟩,
    .ctrl ⟨false, 0, 0, true, 64, []⟩, .ctrl ⟨false, 0, 0, true, 0, List.replicate 8 0⟩, .time (2 ^ 80) 0 0, .time 0 (2 ^ 80) 0, .time 0 0 (2 ^ 80), .bcast 0 false (2 ^ 64),
    .heartbeat 8 0 0, .heartbeat 0 16 0, .heartbeat 0 0 16] : List YarnUnit).all fun u => !WellFormed (.yarnCodewordReceived 0 { wfCw with units := [u] })) = true := by decide +kernel

theorem test_wf_accepts_codewords : ([.yarnCodewordReceived 1 wfCw, .yarnCodewordReceived 0 { wfCw with creditA := some ⟨63, 511⟩, units := List.replicate 19 (.elems 63 [el 1, el 2, el 3]) },
    .yarnTrainingFrame 95 ⟨true, 0⟩, .heartbeatTimeout 7] : List Instr).all WellFormed = true := by decide +kernel

theorem test_wf_refuses_yarn : ([.yarnTrainingFrame 96 ⟨false, 0⟩,
    .yarnPortUp 2, .heartbeatTimeout 8, .forwardedAckReceived 2, .yrnForwardComplete 2] : List Instr).all (fun i => !WellFormed i) = true := by decide +kernel

theorem test_wf_refuses_upkeep : ([.faultEvent 256 0 [], .faultEvent 0 65536 [], .windowSlotExpiry 128, .sensorReading 0 [⟨120, none⟩], .capStepDown 2, .capStepUp 2,
    .gazImageWrite [⟨18, 0, 0⟩], .gazImageWrite [⟨0, 2, 1⟩], .islandOff 144, .lockstepDisagreement 4 0, .lockstepPairResume 4] : List Instr).all
    (fun i => !WellFormed i) = true := by decide +kernel

theorem test_wf_refuses_datum : ([.datumSample [0, 0, 0] [0, 0, 0, 0], .datumSample [8388608, 0, 0, 0] [0, 0, 0, 0], .datumSample [0, 0, 0, 0] [-8388609, 0, 0, 0],
    .calMeasure 256 0, .calStage (List.replicate 256 0), .calSeal (List.replicate 256 0), .sealProgramComplete [], .sealProgramComplete (List.replicate 61 0),
    .datAccLoRead .host 4 0, .datAccLoRead .host 0 2, .calBadFrame 256] : List Instr).all (fun i => !WellFormed i) = true := by decide +kernel

theorem test_wf_refuses_pins : ([.pioSet .host 7 0, .pioClr .host 7 0, .pioTgl .host 7 0, .pinHandoverComplete 224] : List Instr).all (fun i => !WellFormed i) = true := by decide +kernel

/-! ### The queue and the two helper names -/

/-- No row gives a command bits. -/
theorem test_no_row_has_bits : decodeTableWord 32 0x01000402 = none := by decide

theorem test_fetch_word_spells_nothing : State.reset.withFetchWord 32 0x01000402 = State.reset := by rfl

/-- The command at the front runs first. -/
theorem test_front_of_the_queue_runs :
    (match step { State.reset with pending := [.xtalStable, .perstAssert] } with
      | .next t => t.sys.xtalStable && t.pending == [.perstAssert]
      | _ => false) = true := by decide +kernel

/-! ### The worked examples of the spec -/

/-- spec/02: SYS.STATUS posted in MB0 as word 0x0101_0402 is answered in MB8 with ten words, tag and session echoed, return code DONE, and an
acknowledgement DONE. -/
theorem test_sys_status_answer :
    (let s := cmdAt 0 0x0101 [] (base .charted)
     match exec (.sysStatus 0) s with
      | .next t => [s.rd 0x0000, t.rd 0x0800, t.rd 0x0804, t.rd 0x0808, t.rd 0x2100] == [0x01010402, 0x0101000A, 0x00070000, 0, 0x80000000]
      | _ => false) = true := by decide +kernel

/-- spec/04: four products of (20 000, -12 000) and (30 000, 25 000), narrowed by 15 and by 17. -/
theorem test_beam_weight_accumulation :
    (cMul (20000, -12000) (30000, 25000), narrow16 2 15 3600000000, narrow16 2 15 560000000, narrow16 2 17 3600000000, narrow16 0 17 3600000000,
      narrow16 2 17 560000000) = ((900000000, 140000000), (32767, true), (17090, false), (27466, false), (27465, false), (4272, false)) := by decide +kernel

/-- R143: offsets 1, 2 and 3 of 12 bits, reversed and taken times 4 from 0x8000. -/
theorem test_bit_reversed_addresses : [0, 1, 2, 3].map (fun o => 0x8000 + 4 * revBits 12 o) = [0x8000, 0xA000, 0x9000, 0xB000] := by decide +kernel

/-- R340: 20 000 compressed at M = 9 takes exponent 7 and mantissa 156, and gives 19 968 back. -/
theorem test_block_floating_point :
    ((compressPrb 9 [20000]).1.param, (compressPrb 9 [20000]).1.codes, bfpValue 9 156 7) = (7, [156], (19968, false)) := by decide +kernel

/-- R500 and R508: the route of Ubtor pair 0 to sheet 13, and its detour while link 77 is tested. -/
theorem test_route_and_detour :
    (hopsWord (defaultHops 110 84), routeLinks 110 (defaultHops 110 84), (detour (fun l => l == 77) 110 84).map (fun r => (hopsWord r.1, r.1.length, r.2))) =
      (0x889, [24, 25, 77], some (0x23449, 6, 4)) := by decide +kernel

/-- R54: offset 0x0_8000_1000 under KeyID 5. -/
theorem test_external_address : (keyIdOf 0x141080001000, extOff 0x141080001000) = (5, 0x80001000) := by decide +kernel

/-- R528 and Table 16-5: a payload of 32 GiB. -/
theorem test_protected_layout :
    (payloadOf (48 * 2 ^ 30), carve (32 * 2 ^ 30), treeN (32 * 2 ^ 30) 2, treeN (32 * 2 ^ 30) 9, treeBase (32 * 2 ^ 30) 0 + 64 * 0x2000008) =
      (32 * 2 ^ 30, 220 * 2 ^ 26, 2 ^ 23, 4, 0xA80000200) := by decide +kernel

/-- R364: 32 440.32 Mbit/s from 245.76 MHz. -/
theorem test_converter_lane_rate : laneRate false 32440320 245760000 = some (132, 0) := by decide +kernel

/-- R655: a symbol error ratio of 3.2 × 10⁻⁶ counts in bin 24. -/
theorem test_symbol_error_bin : serBin 32 10000000 = 24 := by decide +kernel

/-- spec/24: H of 100 ns moves past a timed edge at 103.5 ns (taken up to 104 ns) to 112 ns. -/
theorem test_handover_avoids_an_edge : handoverAt 100 [104] = 112 := by decide +kernel

/-- Rows 52, 54 and 280 of the DDDSU frame at 120 kHz (spec/09). -/
theorem test_symbol_starts : [52, 54, 55, 70, 280].map (symStart 3) = [228224, 236992, 241376, 307392, 1228800] := by decide +kernel

/-- The preset of spec/09: DDDSU, SPLIT 10/2/2, ADV 8 768, PIN_LEAD 2 048, one sheet, one wale, 16 streams each way. -/
def dddsu : Preset :=
  { d := 3, mu := 3, splitD := 10, splitG := 2, adv := 8768, sheets := 1, tiles := 1, ulPat := 1, dlPat := 0, ulPlane := 1, dlPlane := 0, wales := 1,
    links := 1, dl := (0, 16), ul := (16, 16), tr := 1, lna := 2, pa := 3, lead := 2048 }

theorem test_preset_group :
    (let g := [1, 2, 3, 4, 5, 6, 7, 8].flatMap (fun r => dddsu.row r 0)
     g.length = 417 ∧ (g.map AirEntry.offset).take 4 = [1220032, 1220032, 1226752, 0]) := by decide +kernel

/-- The sealed slot of spec/23: channel 0 through 60 : 1 and 250 µΩ, KP 10 000, pulses of channel 0. -/
def feedSlot : List Byte :=
  let le (n : Nat) (v : Int) : List Byte := (List.range n).map (fun i => BitVec.ofInt 8 (v / 256 ^ i))
  let b := [0, 0, 0] ++ le 4 (-7864320) ++ [0, 0, 0] ++ le 4 32768000 ++ List.replicate 42 0 ++ le 2 10000 ++ le 2 1
  b ++ le 4 (crc32 b)

/-- The island measuring that feed. -/
def feed : Dat := { Dat.init with powered := true, slots := [feedSlot], active := some 0 }

/-- 48 V × 40 A over 125 µs: 239 whole millijoules of import, and of 4 001 samples' energy the first impulse. -/
theorem test_feed_energy : (sget (fun _ => 0) (feed.sample 0 (-6710886) 1342177).acc 0, sget (fun _ => 0) (feed.sample 0 (-6710886) (-1342177)).acc 1,
    (feed.addEnergy 0 0 (360000 * 2 ^ 83)).pulsesDue) = (239, 239, 1) := by decide +kernel

/-- R598: TMEM_UE (W 600 s, T 4) at 550, 580, 610 and 640 s promotes at the fourth event and not before. -/
theorem test_overlapping_windows :
    let at_ (k : Nat) (s : State) : State := { s with stamp := k * 1000000000 }
    let e1 := (at_ 550 (base .onAir)).windowEvent 0x11 87
    let e2 := (at_ 580 e1.2.2).windowEvent 0x11 87
    let e3 := (at_ 610 e2.2.2).windowEvent 0x11 87
    let e4 := (at_ 640 e3.2.2).windowEvent 0x11 87
    [e1.1, e2.1, e3.1, e4.1] = [false, false, false, true] := by decide +kernel

end Sys2Proof.Tests
end

section
/-! The words of a reply (R70): the fields of a header word built from its two halves. -/

namespace Sys2Proof

/-- A field of a word made from a number that fits is that field of the number. -/
theorem bits_word {n : Nat} (hn : n < 2 ^ 32) (hi lo : Nat) : (word n).bits hi lo = bitsOf n hi lo := by
  simp only [Word.bits, word, BitVec.toNat_ofNat, Nat.mod_eq_of_lt hn]

theorem halves_lt {h l : Nat} (hh : h < 2 ^ 16) (hl : l < 2 ^ 16) : h * 2 ^ 16 + l < 2 ^ 32 := by omega

/-- The high half of a word built from two halves. -/
theorem bits_word_halves_high {h l : Nat} (hh : h < 2 ^ 16) (hl : l < 2 ^ 16) : (word (h * 2 ^ 16 + l)).bits 31 16 = h := by
  rw [bits_word (halves_lt hh hl)]
  simp only [bitsOf]
  omega

/-- A field within the low half of a word built from two halves does not see the high half. -/
theorem bits_word_halves_low {h l hi lo : Nat} (hh : h < 2 ^ 16) (hl : l < 2 ^ 16) (hhi : hi < 16) :
    (word (h * 2 ^ 16 + l)).bits hi lo = bitsOf l hi lo := by
  rw [bits_word (halves_lt hh hl)]
  refine Nat.eq_of_testBit_eq fun i => ?_
  simp only [testBit_bitsOf, Nat.mul_comm h, Nat.testBit_two_pow_mul_add h hl]
  by_cases hi' : i < hi + 1 - lo
  · have hlow : i + lo < 16 := by omega
    simp [hi', hlow]
  · simp [hi']

namespace Machine

/-- Every return code of Table 2-5 fits the low half of word 2. -/
theorem RetCode.num_lt (rc : RetCode) : rc.num < 2 ^ 16 := by cases rc <;> decide

@[simp] theorem length_replyWords (code tag session : Nat) (rc : RetCode) (data : List Word) :
    (replyWords code tag session rc data).length = 3 + data.length := by
  simp [replyWords]; omega

/-- Settles O6: each header field is a field of the half of its word, and LENGTH stays below bit 8 for 61 words of data. -/
theorem replyHeader : Obligations.ReplyHeader := by
  unfold Obligations.ReplyHeader
  intro code tag session rc data hcode htag hsession hdata
  have hlen : 3 + data.length < 2 ^ 16 := by omega
  have hflags : bitsOf (3 + data.length) 10 8 = 0 := by simp only [bitsOf]; omega
  have hlength : bitsOf (3 + data.length) 7 0 = 3 + data.length := by simp only [bitsOf]; omega
  have hsess : bitsOf session 15 0 = session := by simp only [bitsOf]; omega
  have hrc : (word rc.num).bits 15 0 = rc.num := by
    have hnum := rc.num_lt
    rw [bits_word (by omega)]
    simp only [bitsOf]; omega
  refine ⟨bits_word_halves_high hcode hlen, ?_, ?_, bits_word_halves_high htag hsession, ?_, hrc, rfl⟩
  · rw [length_replyWords]
    exact (bits_word_halves_low hcode hlen (by decide)).trans hlength
  · exact (bits_word_halves_low hcode hlen (by decide)).trans hflags
  · exact (bits_word_halves_low htag hsession (by decide)).trans hsess

end Machine
end Sys2Proof
end

section
/-! SYS.STATUS, SYS.ECHO, SYS.REG_READ and SYS.REG_WRITE (R84, R85, R93, R94): the field checks of the register accesses pass, and what
each command's effect then answers. -/

namespace Sys2Proof.Machine

/-! ### Field checks -/

@[simp] theorem badIf_eq_none {p : Bool} : badIf p = none ↔ p = false := by cases p <;> simp [badIf]

@[simp] theorem badOrLength_eq_none {p : Bool} {c : Cmd} {len : Nat} : badOrLength p c len = none ↔ p = false ∧ c.length = len := by
  cases p <;> simp [badOrLength]

/-- What check 8 asks of the addresses a message names: each is aligned and lies in a register block. -/
theorem all_aligned_inBlock {as : List Nat} (h : ∀ a ∈ as, a % 4 = 0 ∧ inBlock a = true) :
    as.all (fun a => decide (a % 4 = 0) && inBlock a) = true := by
  simpa using h

/-! ### What the four rows answer a message that passes their checks -/

theorem exec_sysStatus_served {s : State} {mb : Nat} (h : s.Serves mb spec_SYS_STATUS) :
    exec (.sysStatus mb) s = s.done mb s [s.devState, s.sys.fwVersion, s.rd R.HALT_CAUSE, s.rd R.TRIP_CAUSE, loWord s.stamp,
      hiWord s.stamp, s.idleLeft] :=
  congrArg Host.Outcome.next (runCommand_served h rfl)

theorem exec_sysEcho_served {s : State} {mb : Nat} (h : s.Serves mb spec_SYS_ECHO) :
    exec (.sysEcho mb) s = s.done mb s ((s.msg mb).rest 2) :=
  congrArg Host.Outcome.next (runCommand_served h rfl)

/-- Once its fields pass, SYS.REG_READ waits for an island that an access meets on its way up (R95), or else reads (R93). -/
theorem exec_sysRegRead_served {s u : State} {mb : Nat} {ws : List Word} (h : s.Serves mb spec_SYS_REG_READ)
    (hlo : 1 ≤ (s.msg mb).n 4 5 0) (hhi : (s.msg mb).n 4 5 0 ≤ 61) (haddr : ∀ a ∈ (s.msg mb).regAddrs, a % 4 = 0 ∧ inBlock a = true)
    (hread : s.readAll (s.msg mb).regAddrs = some (ws, u)) :
    exec (.sysRegRead mb) s =
      match s.ubtorWaits (s.msg mb).regAddrs with
      | some j => .next (s.holdRequest j)
      | none => s.done mb u ws := by
  have hcount : ¬((s.msg mb).n 4 5 0 = 0 ∨ 61 < (s.msg mb).n 4 5 0) := by omega
  refine (congrArg Host.Outcome.next (runCommand_served h ?fields)).trans ?act
  case fields => simp [hcount, all_aligned_inBlock haddr, hread]
  case act => cases hw : s.ubtorWaits (s.msg mb).regAddrs <;> simp [hread]

/-- Once its fields pass, SYS.REG_WRITE refuses a block it may not write (R94), waits for an island that an access meets on its way up
(R95), or writes (R93). The writes are tried for an ERR response only where none is refused. -/
theorem exec_sysRegWrite_served {s : State} {mb : Nat} (h : s.Serves mb spec_SYS_REG_WRITE)
    (hlo : 1 ≤ (s.msg mb).n 4 5 0) (hhi : (s.msg mb).n 4 5 0 ≤ 59) (hlen : (s.msg mb).length = 5 + (s.msg mb).n 4 5 0)
    (haddr : ∀ a ∈ (s.msg mb).regAddrs, a % 4 = 0 ∧ inBlock a = true)
    (hwrite : (s.msg mb).regAddrs.any noRegWrite = false → (s.writeAll (s.msg mb).regWrites).isSome = true) :
    exec (.sysRegWrite mb) s =
      if (s.msg mb).regAddrs.any noRegWrite then .next (s.answer (s.msg mb) .NOT_PERMITTED [])
      else match s.ubtorWaits (s.msg mb).regAddrs with
        | some j => .next (s.holdRequest j)
        | none => s.done mb ((s.writeAll (s.msg mb).regWrites).getD s) := by
  have hcount : ¬((s.msg mb).n 4 5 0 = 0 ∨ 59 < (s.msg mb).n 4 5 0) := by omega
  refine (congrArg Host.Outcome.next (runCommand_served h ?fields)).trans ?act
  case fields =>
    cases hany : (s.msg mb).regAddrs.any noRegWrite with
    | true => simp [hcount, all_aligned_inBlock haddr, hlen, hany]
    | false => simp [hcount, all_aligned_inBlock haddr, hlen, hany, hwrite hany]
  case act =>
    cases hany : (s.msg mb).regAddrs.any noRegWrite with
    | true => simp
    | false =>
      obtain ⟨u, hu⟩ := Option.isSome_iff_exists.mp (hwrite hany)
      cases hw : s.ubtorWaits (s.msg mb).regAddrs <;> simp [hu]

/-- Settles O11: each clause reads off what its row answers a message that passes the checks. -/
theorem sysReadsAndWrites : Obligations.SysReadsAndWrites := by
  unfold Obligations.SysReadsAndWrites
  refine ⟨⟨fun _ _ h => exec_sysStatus_served h, fun _ _ h => exec_sysEcho_served h, ?read, ?write⟩, ?forbidden⟩
  case read =>
    intro s u mb ws h hlo hhi haddr hread
    have hexec := exec_sysRegRead_served h hlo hhi haddr hread
    exact ⟨fun hw => by rw [hexec, hw], fun j hw => by rw [hexec, hw]⟩
  case write =>
    intro s u mb h hlo hhi hlen haddr hwrite
    have hany : (s.msg mb).regAddrs.any noRegWrite = false :=
      List.any_eq_false.mpr fun a ha => Bool.eq_false_iff.mp (haddr a ha).2.2
    have hexec := exec_sysRegWrite_served h hlo hhi hlen (fun a ha => ⟨(haddr a ha).1, (haddr a ha).2.1⟩) (fun _ => by simp [hwrite])
    simp only [hany, hwrite, Bool.false_eq_true, if_false, Option.getD_some] at hexec
    exact ⟨fun hw => by rw [hexec, hw], fun j hw => by rw [hexec, hw]⟩
  case forbidden =>
    intro s mb h hlo hhi hlen haddr hforb
    have hany : (s.msg mb).regAddrs.any noRegWrite = true := List.any_eq_true.mpr hforb
    rw [exec_sysRegWrite_served h hlo hhi hlen haddr (by simp [hany]), if_pos hany]

end Sys2Proof.Machine
end

section
/-! Writing back what is already there changes nothing: in sparse data of the canonical form, in a word's field, and in a register. With
it, LDR.LOCK (R268): setting LOCK again has no further effect. -/

namespace Sys2Proof

/-- A field given the number it already holds leaves the word as it was. -/
theorem Fld.put_get_self (f : Fld) (w : Word) (h : f.lo ≤ f.hi) : f.put w (f.get w) = w := by
  have hbits : putBits w.toNat f.hi f.lo (f.get w) = w.toNat := by
    refine Nat.eq_of_testBit_eq fun i => ?_
    rw [testBit_putBits _ _ _ _ _ h]
    split
    next hi =>
      have hwidth : i - f.lo < f.hi + 1 - f.lo := by omega
      simp [Fld.get, testBit_bitsOf, hwidth, Nat.sub_add_cancel hi.1]
    next => rfl
  unfold Fld.put
  rw [hbits, BitVec.ofNat_toNat, BitVec.setWidth_eq]

namespace Machine

section
variable {α : Type} (d : Nat → α) {m : Sparse α} {k : Nat}

/-- Where no entry is equal to its default, a key that reads its default is not listed: there is nothing to remove. -/
theorem sdel_eq_self [DecidableEq α] (hdef : snodefault d m = true) (hk : sget d m k = d k) : sdel m k = m := by
  induction m with
  | nil => rfl
  | cons e m ih =>
    obtain ⟨k', v'⟩ := e
    simp only [snodefault, List.all_cons, Bool.and_eq_true, decide_eq_true_eq] at hdef
    obtain ⟨hv, hm⟩ := hdef
    have hne : k ≠ k' := by rintro rfl; exact hv (by simpa [sget] using hk)
    simp only [sget, hne, if_false] at hk
    simp only [sdel, hne, if_false, ih hm hk]

/-- Where keys rise, a key that does not read its default is listed: putting what it reads puts it in its own place. -/
theorem sput_sget_self (hrise : srising m none = true) (hk : sget d m k ≠ d k) : sput m k (sget d m k) = m := by
  induction m with
  | nil => exact absurd rfl hk
  | cons e m ih =>
    obtain ⟨k', v'⟩ := e
    simp only [srising, Bool.true_and] at hrise
    by_cases he : k = k'
    · subst he; simp [sput, sget]
    · simp only [sget, he, if_false] at hk ⊢
      have hlt : ¬ k < k' := fun hlt => hk (sget_of_rising d hrise hlt.le)
      simp only [sput, hlt, he, if_false, ih (srising_none hrise) hk]

/-- Writing at a key what it reads changes nothing. -/
theorem sset_sget_self [DecidableEq α] (h : swf d m = true) (k : Nat) : sset d m k (sget d m k) = m := by
  simp only [swf, Bool.and_eq_true] at h
  obtain ⟨hrise, hdef⟩ := h
  unfold sset
  split
  next hk => exact sdel_eq_self d hdef hk
  next hk => exact sput_sget_self d hrise hk

end

/-- Storing in a register the word it reads changes nothing. -/
theorem State.wr_rd_self {s : State} (h : s.RegsWf) (k : Nat) : s.wr k (s.rd k) = s := by
  unfold State.wr State.rd
  rw [sset_sget_self resetWord h]

/-- Setting a field of a register to the number it holds changes nothing. -/
theorem State.put_get_self {s : State} (h : s.RegsWf) (k : Nat) (f : Fld) (hf : f.lo ≤ f.hi) :
    s.put k f (s.get k f) = s := by
  unfold State.put State.get
  rw [Fld.put_get_self f _ hf, State.wr_rd_self h]

theorem State.flag_eq_true {s : State} {k : Nat} {f : Fld} : s.flag k f = true ↔ s.get k f = 1 := beq_iff_eq

/-- A flag set to 1 reads true. -/
theorem State.flag_put_one {s : State} (h : s.RegsWf) (k i : Nat) (hi : i < 32) : (s.put k ⟨i, i⟩ 1).flag k ⟨i, i⟩ = true := by
  rw [State.flag_eq_true, State.get_put_same h k _ 1 (Nat.le_refl i) hi]
  simp

/-- Setting a flag that reads true changes nothing. -/
theorem State.put_one_of_flag {s : State} (h : s.RegsWf) {k i : Nat} (hflag : s.flag k ⟨i, i⟩ = true) :
    s.put k ⟨i, i⟩ 1 = s := by
  rw [← State.flag_eq_true.mp hflag]
  exact State.put_get_self h k _ (Nat.le_refl i)

theorem exec_ldrLock_served {s : State} {mb : Nat} (h : s.Serves mb spec_LDR_LOCK) :
    exec (.ldrLock mb) s = s.done mb (s.put R.LDR_CTRL F.LDR_CTRL_LOCK 1) :=
  congrArg Host.Outcome.next (runCommand_served h rfl)

/-- Settles O29: LDR.LOCK puts 1 in the one-bit field LOCK, and where LOCK already reads 1 that put leaves the state as it was. -/
theorem loaderLock : Obligations.LoaderLock := by
  unfold Obligations.LoaderLock
  intro s mb hwf h
  refine ⟨exec_ldrLock_served h, State.flag_put_one hwf R.LDR_CTRL 31 (by decide), fun hlock => ?_⟩
  have hsame : s.put R.LDR_CTRL F.LDR_CTRL_LOCK 1 = s := State.put_one_of_flag hwf hlock
  rw [exec_ldrLock_served h, hsame]

end Machine
end Sys2Proof
end

section
/-! What every step keeps: one lemma for the whole dispatch, from the lemma of each row, and the statements about the queue, the canonical
form and the datum island that follow from it. -/

namespace Sys2Proof.Machine

/-- A row that keeps whatever is asked keeps the island in particular. -/
theorem KeepsOut.anyRow {p : Prop} {s : State} {o : Out} (h : KeepsOut (True, s) o) : KeepsOut (p, s) o := by
  obtain ⟨t, rfl, k⟩ := h.go
  exact .next ⟨k.pending, k.regs, k.mem, fun _ => k.dat trivial⟩

/-- A row of the island's own need not keep the island. -/
theorem KeepsOut.ofIsland {s : State} {o : Out} (h : KeepsOut (False, s) o) : KeepsOut (true = false, s) o := by
  obtain ⟨t, rfl, k⟩ := h.go
  exact .next ⟨k.pending, k.regs, k.mem, fun e => nomatch e⟩

/-- Every row answers a next state that keeps the queue and the canonical forms and, unless it is the datum island's own, the island. -/
theorem exec_keeps : (i : Instr) → (s : State) → KeepsOut (ofDatum i = false, s) (exec i s)
  | .supplyValid r, s => (execSupplyValid_keeps r s).anyRow
  | .powerOnResetRelease bootSrc xtalWait cascadeMaster ioPull, s => (execPowerOnResetRelease_keeps bootSrc xtalWait cascadeMaster ioPull s).anyRow
  | .supplyLoss r, s => (execSupplyLoss_keeps r s).anyRow
  | .vddAonLost, s => (execVddAonLost_keeps s).anyRow
  | .perstAssert, s => (execPerstAssert_keeps s).anyRow
  | .perstRelease, s => (execPerstRelease_keeps s).anyRow
  | .xtalStable, s => (execXtalStable_keeps s).anyRow
  | .bootImageTried o, s => (execBootImageTried_keeps o s).anyRow
  | .pcieLinkTrained speed width, s => (execPcieLinkTrained_keeps speed width s).anyRow
  | .mbxWordWrite m mb k v, s => (execMbxWordWrite_keeps m mb k v s).anyRow
  | .mbxPost m mb v, s => (execMbxPost_keeps m mb v s).anyRow
  | .fabricClaimTimeout mb, s => (execFabricClaimTimeout_keeps mb s).anyRow
  | .mbxAckcodeWrite m mb v, s => (execMbxAckcodeWrite_keeps m mb v s).anyRow
  | .mbxAckClear m v, s => (execMbxAckClear_keeps m v s).anyRow
  | .lockstepDisagreement pair executing, s => (execLockstepDisagreement_keeps pair executing s).anyRow
  | .lockstepPairResume pair, s => (execLockstepPairResume_keeps pair s).anyRow
  | .sessionIdleTimeout, s => (execSessionIdleTimeout_keeps s).anyRow
  | .devStampLoRead m, s => (execDevStampLoRead_keeps m s).anyRow
  | .registerWrite m a size v, s => (execRegisterWrite_keeps m a size v s).anyRow
  | .sysStatus mb, s => (execSysStatus_keeps mb s).anyRow
  | .sysEcho mb, s => (execSysEcho_keeps mb s).anyRow
  | .sysState mb, s => (execSysState_keeps mb s).anyRow
  | .sysReset mb, s => (execSysReset_keeps mb s).anyRow
  | .sysResetDelayExpiry, s => (execSysResetDelayExpiry_keeps s).anyRow
  | .sysCauseClear mb, s => (execSysCauseClear_keeps mb s).anyRow
  | .sysExpertOpen mb, s => (execSysExpertOpen_keeps mb s).anyRow
  | .sysExpertClose mb, s => (execSysExpertClose_keeps mb s).anyRow
  | .sysFwUpdate mb, s => (execSysFwUpdate_keeps mb s).anyRow
  | .fwUpdateComplete o, s => (execFwUpdateComplete_keeps o s).anyRow
  | .sysRegRead mb, s => (execSysRegRead_keeps mb s).anyRow
  | .sysRegWrite mb, s => (execSysRegWrite_keeps mb s).anyRow
  | .surveyLoad mb, s => (execSurveyLoad_keeps mb s).anyRow
  | .surveyCommit mb, s => (execSurveyCommit_keeps mb s).anyRow
  | .surveyCommitComplete h, s => (execSurveyCommitComplete_keeps h s).anyRow
  | .surveyAbort mb, s => (execSurveyAbort_keeps mb s).anyRow
  | .surveyStatus mb, s => (execSurveyStatus_keeps mb s).anyRow
  | .surveyRead mb, s => (execSurveyRead_keeps mb s).anyRow
  | .surveyMismatch mb, s => (execSurveyMismatch_keeps mb s).anyRow
  | .laneUp e, s => (execLaneUp_keeps e s).anyRow
  | .laneTrainingAttemptTimeout n wrong, s => (execLaneTrainingAttemptTimeout_keeps n wrong s).anyRow
  | .laneRetryTimer n, s => (execLaneRetryTimer_keeps n s).anyRow
  | .laneLos n, s => (execLaneLos_keeps n s).anyRow
  | .cdrUnlock n, s => (execCdrUnlock_keeps n s).anyRow
  | .pllUnlock n refOk, s => (execPllUnlock_keeps n refOk s).anyRow
  | .refClockOutOfRange k, s => (execRefClockOutOfRange_keeps k s).anyRow
  | .adaptationStep n a, s => (execAdaptationStep_keeps n a s).anyRow
  | .adaptLimit n, s => (execAdaptLimit_keeps n s).anyRow
  | .lowPowerEntryComplete n, s => (execLowPowerEntryComplete_keeps n s).anyRow
  | .lowPowerExitComplete n, s => (execLowPowerExitComplete_keeps n s).anyRow
  | .checkerLockLoss n errors, s => (execCheckerLockLoss_keeps n errors s).anyRow
  | .cmac t u, s => (execCmac_keeps t u s).anyRow
  | .cmul t u, s => (execCmul_keeps t u s).anyRow
  | .rmac t u, s => (execRmac_keeps t u s).anyRow
  | .qmac t u, s => (execQmac_keeps t u s).anyRow
  | .accrd t u, s => (execAccrd_keeps t u s).anyRow
  | .bfly2 t u, s => (execBfly2_keeps t u s).anyRow
  | .bfly4 t u, s => (execBfly4_keeps t u s).anyRow
  | .add t u, s => (execAdd_keeps t u s).anyRow
  | .sub t u, s => (execSub_keeps t u s).anyRow
  | .srs t u, s => (execSrs_keeps t u s).anyRow
  | .sls t u, s => (execSls_keeps t u s).anyRow
  | .cmp t u, s => (execCmp_keeps t u s).anyRow
  | .sel t u, s => (execSel_keeps t u s).anyRow
  | .conj t u, s => (execConj_keeps t u s).anyRow
  | .norm t u, s => (execNorm_keeps t u s).anyRow
  | .lut16 t u, s => (execLut16_keeps t u s).anyRow
  | .ld t u ecc, s => (execLd_keeps t u ecc s).anyRow
  | .st t u, s => (execSt_keeps t u s).anyRow
  | .sin t u, s => (execSin_keeps t u s).anyRow
  | .sout t u, s => (execSout_keeps t u s).anyRow
  | .movi t u, s => (execMovi_keeps t u s).anyRow
  | .twr t u, s => (execTwr_keeps t u s).anyRow
  | .fadd t u, s => (execFadd_keeps t u s).anyRow
  | .fsub t u, s => (execFsub_keeps t u s).anyRow
  | .fmul t u, s => (execFmul_keeps t u s).anyRow
  | .frsq t u, s => (execFrsq_keeps t u s).anyRow
  | .fcvt t u, s => (execFcvt_keeps t u s).anyRow
  | .outsideAccessWaitExpiry t addr store ecc, s => (execOutsideAccessWaitExpiry_keeps t addr store ecc s).anyRow
  | .tokenDrainEnd t, s => (execTokenDrainEnd_keeps t s).anyRow
  | .patternHardSwitchEdge w, s => (execPatternHardSwitchEdge_keeps w s).anyRow
  | .wordLinkElement t port, s => (execWordLinkElement_keeps t port s).anyRow
  | .wordLinkCredit t port h, s => (execWordLinkCredit_keeps t port h s).anyRow
  | .gateChannelElement w g, s => (execGateChannelElement_keeps w g s).anyRow
  | .shiftCopyEnd w, s => (execShiftCopyEnd_keeps w s).anyRow
  | .walSwitchGo w tiles pattern, s => (execWalSwitchGo_keeps w tiles pattern s).anyRow
  | .walCtrlLock w, s => (execWalCtrlLock_keeps w s).anyRow
  | .walStatus mb, s => (execWalStatus_keeps mb s).anyRow
  | .walSwitch mb, s => (execWalSwitch_keeps mb s).anyRow
  | .walBind mb, s => (execWalBind_keeps mb s).anyRow
  | .walStickyClear mb, s => (execWalStickyClear_keeps mb s).anyRow
  | .walBankmap mb, s => (execWalBankmap_keeps mb s).anyRow
  | .walFreeze mb, s => (execWalFreeze_keeps mb s).anyRow
  | .walShift mb, s => (execWalShift_keeps mb s).anyRow
  | .walCounters mb, s => (execWalCounters_keeps mb s).anyRow
  | .sheetSwitchEdge n pins high, s => (execSheetSwitchEdge_keeps n pins high s).anyRow
  | .groupSwitch, s => (execGroupSwitch_keeps s).anyRow
  | .resetNetRelease n net, s => (execResetNetRelease_keeps n net s).anyRow
  | .riserTxElement n k h e, s => (execRiserTxElement_keeps n k h e s).anyRow
  | .riserRxTake n k h, s => (execRiserRxTake_keeps n k h s).anyRow
  | .riserCreditPulse n k h, s => (execRiserCreditPulse_keeps n k h s).anyRow
  | .bramAccess n block a b upsA upsB bFirst, s => (execBramAccess_keeps n block a b upsA upsB bFirst s).anyRow
  | .sheetClockRestart n, s => (execSheetClockRestart_keeps n s).anyRow
  | .captureInstant lead edge, s => (execCaptureInstant_keeps lead edge s).anyRow
  | .captureEdgeNoneTimeout lead, s => (execCaptureEdgeNoneTimeout_keeps lead s).anyRow
  | .capTrigEdge n, s => (execCapTrigEdge_keeps n s).anyRow
  | .captureCopyComplete lead, s => (execCaptureCopyComplete_keeps lead s).anyRow
  | .shtCtrlLock n, s => (execShtCtrlLock_keeps n s).anyRow
  | .shtStampLoRead m n, s => (execShtStampLoRead_keeps m n s).anyRow
  | .shtStatus mb, s => (execShtStatus_keeps mb s).anyRow
  | .shtStickyClear mb, s => (execShtStickyClear_keeps mb s).anyRow
  | .shtReset mb, s => (execShtReset_keeps mb s).anyRow
  | .shtResetPulseEnd net, s => (execShtResetPulseEnd_keeps net s).anyRow
  | .shtClock mb, s => (execShtClock_keeps mb s).anyRow
  | .shtFreeze mb, s => (execShtFreeze_keeps mb s).anyRow
  | .shtCounters mb, s => (execShtCounters_keeps mb s).anyRow
  | .shtSwitch mb, s => (execShtSwitch_keeps mb s).anyRow
  | .shtRisers mb, s => (execShtRisers_keeps mb s).anyRow
  | .capStatus mb, s => (execCapStatus_keeps mb s).anyRow
  | .capTake mb, s => (execCapTake_keeps mb s).anyRow
  | .capTakeX mb, s => (execCapTakeX_keeps mb s).anyRow
  | .capRead mb, s => (execCapRead_keeps mb s).anyRow
  | .capReadComplete, s => (execCapReadComplete_keeps s).anyRow
  | .capRelease mb, s => (execCapRelease_keeps mb s).anyRow
  | .riserOrientationChange n k, s => (execRiserOrientationChange_keeps n k s).anyRow
  | .riserConflictTimeout n k, s => (execRiserConflictTimeout_keeps n k s).anyRow
  | .chartPortBeat n beat, s => (execChartPortBeat_keeps n beat s).anyRow
  | .chartPortAbort n, s => (execChartPortAbort_keeps n s).anyRow
  | .chartPortTimeout n, s => (execChartPortTimeout_keeps n s).anyRow
  | .stagingDataArrival c bs, s => (execStagingDataArrival_keeps c bs s).anyRow
  | .stagingComplete c err, s => (execStagingComplete_keeps c err s).anyRow
  | .verificationComplete c, s => (execVerificationComplete_keeps c s).anyRow
  | .commitStart, s => (execCommitStart_keeps s).anyRow
  | .commitComplete, s => (execCommitComplete_keeps s).anyRow
  | .ldrCtrlLock m v, s => (execLdrCtrlLock_keeps m v s).anyRow
  | .ldrStatus mb, s => (execLdrStatus_keeps mb s).anyRow
  | .ldrLoad mb, s => (execLdrLoad_keeps mb s).anyRow
  | .ldrCommit mb, s => (execLdrCommit_keeps mb s).anyRow
  | .ldrAbort mb, s => (execLdrAbort_keeps mb s).anyRow
  | .ldrCaston mb, s => (execLdrCaston_keeps mb s).anyRow
  | .ldrGrant mb, s => (execLdrGrant_keeps mb s).anyRow
  | .ldrLock mb, s => (execLdrLock_keeps mb s).anyRow
  | .ldrCounters mb, s => (execLdrCounters_keeps mb s).anyRow
  | .streamElementArrival n pos e, s => (execStreamElementArrival_keeps n pos e s).anyRow
  | .streamSeamArrival n, s => (execStreamSeamArrival_keeps n s).anyRow
  | .latestUsableTime n, s => (execLatestUsableTime_keeps n s).anyRow
  | .streamDelivery n ue, s => (execStreamDelivery_keeps n ue s).anyRow
  | .graticuleStreamFlit n seq load, s => (execGraticuleStreamFlit_keeps n seq load s).anyRow
  | .bindoffFinalSeam n, s => (execBindoffFinalSeam_keeps n s).anyRow
  | .bindoffSeamTaken n, s => (execBindoffSeamTaken_keeps n s).anyRow
  | .bindoffTimeout n, s => (execBindoffTimeout_keeps n s).anyRow
  | .strCfgOpen m v, s => (execStrCfgOpen_keeps m v s).anyRow
  | .strStatus mb, s => (execStrStatus_keeps mb s).anyRow
  | .strOpen mb, s => (execStrOpen_keeps mb s).anyRow
  | .strSeam mb, s => (execStrSeam_keeps mb s).anyRow
  | .strBindoff mb, s => (execStrBindoff_keeps mb s).anyRow
  | .strOpenX mb, s => (execStrOpenX_keeps mb s).anyRow
  | .strCounters mb, s => (execStrCounters_keeps mb s).anyRow
  | .airEntryDispatch, s => (execAirEntryDispatch_keeps s).anyRow
  | .airActionNop, s => (execAirActionNop_keeps s).anyRow
  | .airActionPlane, s => (execAirActionPlane_keeps s).anyRow
  | .airActionPattern, s => (execAirActionPattern_keeps s).anyRow
  | .airActionRelease, s => (execAirActionRelease_keeps s).anyRow
  | .airActionMute, s => (execAirActionMute_keeps s).anyRow
  | .airActionPin, s => (execAirActionPin_keeps s).anyRow
  | .airActionSample, s => (execAirActionSample_keeps s).anyRow
  | .airActionCascade, s => (execAirActionCascade_keeps s).anyRow
  | .airBcastAct, s => (execAirBcastAct_keeps s).anyRow
  | .airScheduleStart, s => (execAirScheduleStart_keeps s).anyRow
  | .airSwapBoundary, s => (execAirSwapBoundary_keeps s).anyRow
  | .airStop, s => (execAirStop_keeps s).anyRow
  | .airTimeLoRead m, s => (execAirTimeLoRead_keeps m s).anyRow
  | .airSwapLoRead m, s => (execAirSwapLoRead_keeps m s).anyRow
  | .airStatus mb, s => (execAirStatus_keeps mb s).anyRow
  | .airPreset mb, s => (execAirPreset_keeps mb s).anyRow
  | .tableSealComplete, s => (execTableSealComplete_keeps s).anyRow
  | .airEnable mb, s => (execAirEnable_keeps mb s).anyRow
  | .airDisable mb, s => (execAirDisable_keeps mb s).anyRow
  | .airSwap mb, s => (execAirSwap_keeps mb s).anyRow
  | .airLoad mb, s => (execAirLoad_keeps mb s).anyRow
  | .airSeal mb, s => (execAirSeal_keeps mb s).anyRow
  | .airRead mb, s => (execAirRead_keeps mb s).anyRow
  | .airIdle mb, s => (execAirIdle_keeps mb s).anyRow
  | .airCounters mb, s => (execAirCounters_keeps mb s).anyRow
  | .airTapRead mb, s => (execAirTapRead_keeps mb s).anyRow
  | .tapReadComplete, s => (execTapReadComplete_keeps s).anyRow
  | .ethFrameReceived mac f, s => (execEthFrameReceived_keeps mac f s).anyRow
  | .ethAutonegComplete mac bit fec, s => (execEthAutonegComplete_keeps mac bit fec s).anyRow
  | .ethFrameTransmit mac ptp, s => (execEthFrameTransmit_keeps mac ptp s).anyRow
  | .txIqUnitFraming f, s => (execTxIqUnitFraming_keeps f s).anyRow
  | .sysrefEdge, s => (execSysrefEdge_keeps s).anyRow
  | .syncHeaderLock k obs, s => (execSyncHeaderLock_keeps k obs s).anyRow
  | .embLock k, s => (execEmbLock_keeps k s).anyRow
  | .elasticBufferRelease k, s => (execElasticBufferRelease_keeps k s).anyRow
  | .crc12Error n, s => (execCrc12Error_keeps n s).anyRow
  | .embLockLoss n, s => (execEmbLockLoss_keeps n s).anyRow
  | .jsdTxSampleDue k j g t, s => (execJsdTxSampleDue_keeps k j g t s).anyRow
  | .jsdRxSample k j g t raw, s => (execJsdRxSample_keeps k j g t raw s).anyRow
  | .fheStatus mb, s => (execFheStatus_keeps mb s).anyRow
  | .fheFlow mb, s => (execFheFlow_keeps mb s).anyRow
  | .fheCounters mb, s => (execFheCounters_keeps mb s).anyRow
  | .jsdStatus mb, s => (execJsdStatus_keeps mb s).anyRow
  | .jsdLink mb, s => (execJsdLink_keeps mb s).anyRow
  | .jsdSysref mb, s => (execJsdSysref_keeps mb s).anyRow
  | .jsdCounters mb, s => (execJsdCounters_keeps mb s).anyRow
  | .localSecondBoundary p, s => (execLocalSecondBoundary_keeps p s).anyRow
  | .ppsInputEdge, s => (execPpsInputEdge_keeps s).anyRow
  | .todMessage m, s => (execTodMessage_keeps m s).anyRow
  | .ptpMessage mac m, s => (execPtpMessage_keeps mac m s).anyRow
  | .esmcMessage mac ql, s => (execEsmcMessage_keeps mac ql s).anyRow
  | .oscTempRead r, s => (execOscTempRead_keeps r s).anyRow
  | .contourLearnTick y temp, s => (execContourLearnTick_keeps y temp s).anyRow
  | .ageingFit, s => (execAgeingFit_keeps s).anyRow
  | .modelStore, s => (execModelStore_keeps s).anyRow
  | .leapSecondApply, s => (execLeapSecondApply_keeps s).anyRow
  | .iroTrimGate mrefOk err, s => (execIroTrimGate_keeps mrefOk err s).anyRow
  | .merStatus mb, s => (execMerStatus_keeps mb s).anyRow
  | .merSelect mb, s => (execMerSelect_keeps mb s).anyRow
  | .merOutputs mb, s => (execMerOutputs_keeps mb s).anyRow
  | .merModel mb, s => (execMerModel_keeps mb s).anyRow
  | .merLeap mb, s => (execMerLeap_keeps mb s).anyRow
  | .merBudget mb, s => (execMerBudget_keeps mb s).anyRow
  | .merModelClear mb, s => (execMerModelClear_keeps mb s).anyRow
  | .merCounters mb, s => (execMerCounters_keeps mb s).anyRow
  | .xtalGate mref iro, s => (execXtalGate_keeps mref iro s).anyRow
  | .xtalEdgeTimeout, s => (execXtalEdgeTimeout_keeps s).anyRow
  | .generatorReferenceLoss isl, s => (execGeneratorReferenceLoss_keeps isl s).anyRow
  | .generatorLock isl, s => (execGeneratorLock_keeps isl s).anyRow
  | .ckiGateWrite m a v, s => (execCkiGateWrite_keeps m a v s).anyRow
  | .sequencerRequestServe, s => (execSequencerRequestServe_keeps s).anyRow
  | .avsAck rail elapsed, s => (execAvsAck_keeps rail elapsed s).anyRow
  | .avsAckTimeout, s => (execAvsAckTimeout_keeps s).anyRow
  | .frequencyChangeRestart, s => (execFrequencyChangeRestart_keeps s).anyRow
  | .islandPowerSwitchOpen isl, s => (execIslandPowerSwitchOpen_keeps isl s).anyRow
  | .islandOff isl, s => (execIslandOff_keeps isl s).anyRow
  | .islandPowerUpComplete isl, s => (execIslandPowerUpComplete_keeps isl s).anyRow
  | .dormantPointOfNoReturn, s => (execDormantPointOfNoReturn_keeps s).anyRow
  | .dormantEntryComplete, s => (execDormantEntryComplete_keeps s).anyRow
  | .wakeEvent src, s => (execWakeEvent_keeps src s).anyRow
  | .dormantExitPowerUp, s => (execDormantExitPowerUp_keeps s).anyRow
  | .dormantExitComplete, s => (execDormantExitComplete_keeps s).anyRow
  | .clkStatus mb, s => (execClkStatus_keeps mb s).anyRow
  | .clkGate mb, s => (execClkGate_keeps mb s).anyRow
  | .clkFreq mb, s => (execClkFreq_keeps mb s).anyRow
  | .pwrStatus mb, s => (execPwrStatus_keeps mb s).anyRow
  | .pwrOp mb, s => (execPwrOp_keeps mb s).anyRow
  | .pwrIsland mb, s => (execPwrIsland_keeps mb s).anyRow
  | .pwrWake mb, s => (execPwrWake_keeps mb s).anyRow
  | .pwrAvsRead mb r, s => (execPwrAvsRead_keeps mb r s).anyRow
  | .packetInjection ni m write addr len key data, s => (execPacketInjection_keeps ni m write addr len key data s).anyRow
  | .graticuleFlitHop r port, s => (execGraticuleFlitHop_keeps r port s).anyRow
  | .requestAtDestination ni ecc x, s => (execRequestAtDestination_keeps ni ecc x s).anyRow
  | .responseAtSource ni, s => (execResponseAtSource_keeps ni s).anyRow
  | .routerSelfGate isl, s => (execRouterSelfGate_keeps isl s).anyRow
  | .linkCrcError l d, s => (execLinkCrcError_keeps l d s).anyRow
  | .routeChangeEffect ni dst, s => (execRouteChangeEffect_keeps ni dst s).anyRow
  | .linkTestEnd pass, s => (execLinkTestEnd_keeps pass s).anyRow
  | .grtStatus mb, s => (execGrtStatus_keeps mb s).anyRow
  | .grtLinkTest mb, s => (execGrtLinkTest_keeps mb s).anyRow
  | .grtLinkRestore mb, s => (execGrtLinkRestore_keeps mb s).anyRow
  | .grtRouteRead mb, s => (execGrtRouteRead_keeps mb s).anyRow
  | .grtRouteWrite mb, s => (execGrtRouteWrite_keeps mb s).anyRow
  | .grtCounters mb, s => (execGrtCounters_keeps mb s).anyRow
  | .storeTierAccess q ecc, s => (execStoreTierAccess_keeps q ecc s).anyRow
  | .storeScrubPass g corrected bad, s => (execStoreScrubPass_keeps g corrected bad s).anyRow
  | .spareRowRemap, s => (execSpareRowRemap_keeps s).anyRow
  | .externalAccess q x, s => (execExternalAccess_keeps q x s).anyRow
  | .protectedRead gs, s => (execProtectedRead_keeps gs s).anyRow
  | .protectedWrite gs, s => (execProtectedWrite_keeps gs s).anyRow
  | .counterCacheEviction l n g, s => (execCounterCacheEviction_keeps l n g s).anyRow
  | .memStatus mb, s => (execMemStatus_keeps mb s).anyRow
  | .memCounters mb, s => (execMemCounters_keeps mb s).anyRow
  | .mgdStatus mb, s => (execMgdStatus_keeps mb s).anyRow
  | .mgdPartition mb, s => (execMgdPartition_keeps mb s).anyRow
  | .mgdCounters mb, s => (execMgdCounters_keeps mb s).anyRow
  | .pcieBarRequest r, s => (execPcieBarRequest_keeps r s).anyRow
  | .bar4Read r ecc, s => (execBar4Read_keeps r ecc s).anyRow
  | .msixUnmask v, s => (execMsixUnmask_keeps v s).anyRow
  | .dmaQtailWrite m q v, s => (execDmaQtailWrite_keeps m q v s).anyRow
  | .dmaQctrlRun m q v, s => (execDmaQctrlRun_keeps m q v s).anyRow
  | .dmaQctrlStop m q v, s => (execDmaQctrlStop_keeps m q v s).anyRow
  | .dmaDescriptorStart d, s => (execDmaDescriptorStart_keeps d s).anyRow
  | .dmaDescriptorComplete q seen, s => (execDmaDescriptorComplete_keeps q seen s).anyRow
  | .d2hIdleTimeout q, s => (execD2hIdleTimeout_keeps q s).anyRow
  | .hostReadTimeout q seen, s => (execHostReadTimeout_keeps q seen s).anyRow
  | .dmaStatus mb, s => (execDmaStatus_keeps mb s).anyRow
  | .dmaQueue mb, s => (execDmaQueue_keeps mb s).anyRow
  | .dmaCounters mb, s => (execDmaCounters_keeps mb s).anyRow
  | .dmaLink mb, s => (execDmaLink_keeps mb s).anyRow
  | .dmaLinkRetrained speed width, s => (execDmaLinkRetrained_keeps speed width s).anyRow
  | .yarnCodewordSend p, s => (execYarnCodewordSend_keeps p s).anyRow
  | .yarnCodewordReceived p cw, s => (execYarnCodewordReceived_keeps p cw s).anyRow
  | .yarnReplayTimeout p, s => (execYarnReplayTimeout_keeps p s).anyRow
  | .yarnTrainingFrame n f, s => (execYarnTrainingFrame_keeps n f s).anyRow
  | .yarnPortUp p, s => (execYarnPortUp_keeps p s).anyRow
  | .yarnPortDown p, s => (execYarnPortDown_keeps p s).anyRow
  | .yarnTimeUnitSend p tx, s => (execYarnTimeUnitSend_keeps p tx s).anyRow
  | .yarnTimeUnitReceived p rx, s => (execYarnTimeUnitReceived_keeps p rx s).anyRow
  | .bcastReceived p, s => (execBcastReceived_keeps p s).anyRow
  | .heartbeatSend, s => (execHeartbeatSend_keeps s).anyRow
  | .heartbeatReceived p, s => (execHeartbeatReceived_keeps p s).anyRow
  | .heartbeatTimeout k, s => (execHeartbeatTimeout_keeps k s).anyRow
  | .forwardedMessageReceived p, s => (execForwardedMessageReceived_keeps p s).anyRow
  | .forwardedAckReceived p, s => (execForwardedAckReceived_keeps p s).anyRow
  | .yrnStatus mb, s => (execYrnStatus_keeps mb s).anyRow
  | .yrnChannel mb, s => (execYrnChannel_keeps mb s).anyRow
  | .yrnForward mb, s => (execYrnForward_keeps mb s).anyRow
  | .yrnForwardComplete p, s => (execYrnForwardComplete_keeps p s).anyRow
  | .yrnAsym mb, s => (execYrnAsym_keeps mb s).anyRow
  | .yrnCounters mb, s => (execYrnCounters_keeps mb s).anyRow
  | .faultEvent src inst detail, s => (execFaultEvent_keeps src inst detail s).anyRow
  | .windowSlotExpiry slot, s => (execWindowSlotExpiry_keeps slot s).anyRow
  | .lastingOutcomeEnd, s => (execLastingOutcomeEnd_keeps s).anyRow
  | .fltStatus mb, s => (execFltStatus_keeps mb s).anyRow
  | .fltEvents mb, s => (execFltEvents_keeps mb s).anyRow
  | .fltWindow mb, s => (execFltWindow_keeps mb s).anyRow
  | .fltSlots mb, s => (execFltSlots_keeps mb s).anyRow
  | .fltCounters mb, s => (execFltCounters_keeps mb s).anyRow
  | .swatchStart bound, s => (execSwatchStart_keeps bound s).anyRow
  | .swatchStepComplete o, s => (execSwatchStepComplete_keeps o s).anyRow
  | .rotationStep, s => (execRotationStep_keeps s).anyRow
  | .swtStatus mb, s => (execSwtStatus_keeps mb s).anyRow
  | .swtRun mb, s => (execSwtRun_keeps mb s).anyRow
  | .swtResults mb, s => (execSwtResults_keeps mb s).anyRow
  | .swtRotate mb, s => (execSwtRotate_keeps mb s).anyRow
  | .swtFuse mb, s => (execSwtFuse_keeps mb s).anyRow
  | .swtFuseComplete, s => (execSwtFuseComplete_keeps s).anyRow
  | .swtUnmark mb, s => (execSwtUnmark_keeps mb s).anyRow
  | .swtCounters mb, s => (execSwtCounters_keeps mb s).anyRow
  | .sensorReading base xs, s => (execSensorReading_keeps base xs s).anyRow
  | .capStepDown c, s => (execCapStepDown_keeps c s).anyRow
  | .capStepUp c, s => (execCapStepUp_keeps c s).anyRow
  | .tripRestart, s => (execTripRestart_keeps s).anyRow
  | .thmStatus mb, s => (execThmStatus_keeps mb s).anyRow
  | .thmSensors mb, s => (execThmSensors_keeps mb s).anyRow
  | .thmThrottle mb, s => (execThmThrottle_keeps mb s).anyRow
  | .thmCounters mb, s => (execThmCounters_keeps mb s).anyRow
  | .gazImageWrite ser, s => (execGazImageWrite_keeps ser s).anyRow
  | .gazImageWriteComplete, s => (execGazImageWriteComplete_keeps s).anyRow
  | .gazRead mb, s => (execGazRead_keeps mb s).anyRow
  | .gazExport mb, s => (execGazExport_keeps mb s).anyRow
  | .gazExportComplete, s => (execGazExportComplete_keeps s).anyRow
  | .gazFlush mb, s => (execGazFlush_keeps mb s).anyRow
  | .datumSample v a, s => (execDatumSample_keeps v a s).ofIsland
  | .datumPowerDown, s => (execDatumPowerDown_keeps s).ofIsland
  | .datumPowerUp, s => (execDatumPowerUp_keeps s).ofIsland
  | .datumCrystalCheck off, s => (execDatumCrystalCheck_keeps off s).ofIsland
  | .datumRomDigestCheck digest, s => (execDatumRomDigestCheck_keeps digest s).ofIsland
  | .calOpen operator, s => (execCalOpen_keeps operator s).ofIsland
  | .calMeasure ch n, s => (execCalMeasure_keeps ch n s).ofIsland
  | .calMeasureDone, s => (execCalMeasureDone_keeps s).ofIsland
  | .calStage bs, s => (execCalStage_keeps bs s).ofIsland
  | .calSeal payload, s => (execCalSeal_keeps payload s).ofIsland
  | .sealProgramComplete back, s => (execSealProgramComplete_keeps back s).ofIsland
  | .calClose, s => (execCalClose_keeps s).ofIsland
  | .datumCalEnFall, s => (execDatumCalEnFall_keeps s).ofIsland
  | .datumEnergyRecord, s => (execDatumEnergyRecord_keeps s).ofIsland
  | .datumEventPost, s => (execDatumEventPost_keeps s).ofIsland
  | .datumPulse, s => (execDatumPulse_keeps s).ofIsland
  | .datAccLoRead m c d, s => (execDatAccLoRead_keeps m c d s).anyRow
  | .datStatus mb, s => (execDatStatus_keeps mb s).anyRow
  | .datEnergy mb, s => (execDatEnergy_keeps mb s).anyRow
  | .datLog mb, s => (execDatLog_keeps mb s).anyRow
  | .datSplit mb, s => (execDatSplit_keeps mb s).anyRow
  | .pioSet m b v, s => (execPioSet_keeps m b v s).anyRow
  | .pioClr m b v, s => (execPioClr_keeps m b v s).anyRow
  | .pioTgl m b v, s => (execPioTgl_keeps m b v s).anyRow
  | .pinStatus mb, s => (execPinStatus_keeps mb s).anyRow
  | .pinAssign mb, s => (execPinAssign_keeps mb s).anyRow
  | .pinWrite mb, s => (execPinWrite_keeps mb s).anyRow
  | .pinRead mb, s => (execPinRead_keeps mb s).anyRow
  | .pinPad mb, s => (execPinPad_keeps mb s).anyRow
  | .pinCounters mb, s => (execPinCounters_keeps mb s).anyRow
  | .lneChkbitsLoRead n, s => (execLneChkbitsLoRead_keeps n s).anyRow
  | .lneCtrlLock m n v, s => (execLneCtrlLock_keeps m n v s).anyRow
  | .lneStatus mb, s => (execLneStatus_keeps mb s).anyRow
  | .lnePower mb, s => (execLnePower_keeps mb s).anyRow
  | .lneRetrain mb, s => (execLneRetrain_keeps mb s).anyRow
  | .lneBindoff mb, s => (execLneBindoff_keeps mb s).anyRow
  | .lneUp mb, s => (execLneUp_keeps mb s).anyRow
  | .lneTest mb, s => (execLneTest_keeps mb s).anyRow
  | .lneEq mb, s => (execLneEq_keeps mb s).anyRow
  | .lneAdapt mb, s => (execLneAdapt_keeps mb s).anyRow
  | .lnePattern mb, s => (execLnePattern_keeps mb s).anyRow
  | .lneCounters mb, s => (execLneCounters_keeps mb s).anyRow
  | .nop t u, s => (execNop_keeps t u s).anyRow
  | .undefinedCommand mb, s => (execUndefinedCommand_keeps mb s).anyRow
  | .pinHandoverComplete p, s => (execPinHandoverComplete_keeps p s).anyRow
  | .refClockRestored k, s => (execRefClockRestored_keeps k s).anyRow
  | .checkerLock n inv, s => (execCheckerLock_keeps n inv s).anyRow
  | .datumCalEnRise, s => (execDatumCalEnRise_keeps s).ofIsland
  | .calBadFrame type, s => (execCalBadFrame_keeps type s).ofIsland
  | .flipFlopClockEdge n tree falling high, s => (execFlipFlopClockEdge_keeps n tree falling high s).anyRow

/-- A step runs the front command, or idles; either keeps the canonical forms and leaves the queue's rest. -/
theorem step_keeps (s : State) : ∃ t, step s = .next t ∧ Keeps (False, { s with pending := s.pending.drop 1 }) t := by
  cases h : s.pending with
  | nil =>
    refine ⟨{ s with stamp := s.stamp + 1 }, by simp only [step, h], ⟨?_, id, id, False.elim⟩⟩
    simp only [h, List.drop_nil]
  | cons c rest =>
    obtain ⟨t, ht, k⟩ := (exec_keeps c { s with pending := rest }).go
    exact ⟨t, by simp only [step, h, ht], k.pending, k.regs, k.mem, False.elim⟩

/-- Settles O58: what a step keeps includes the canonical forms. -/
theorem stepKeepsCanonicalForm : Obligations.StepKeepsCanonicalForm := by
  unfold Obligations.StepKeepsCanonicalForm
  intro s ⟨hregs, hmem⟩
  obtain ⟨t, ht, k⟩ := step_keeps s
  exact ⟨t, ht, k.regs hregs, k.mem hmem⟩

/-- Settles O59: every row keeps the queue it is given, and a step gives it the queue's rest. -/
theorem stepTakesOneCommand : Obligations.StepTakesOneCommand := by
  unfold Obligations.StepTakesOneCommand
  constructor
  · intro i s
    obtain ⟨t, ht, k⟩ := (exec_keeps i s).go
    exact ⟨t, ht, k.pending⟩
  · intro s
    obtain ⟨t, ht, k⟩ := step_keeps s
    exact ⟨t, ht, k.pending⟩

/-- Settles O60: every row that is not the island's own keeps the island. -/
theorem datumIsolation : Obligations.DatumIsolation := by
  unfold Obligations.DatumIsolation
  intro i s hi
  obtain ⟨t, ht, k⟩ := (exec_keeps i s).go
  exact ⟨t, ht, k.dat hi⟩

/-- Settles O1: by the case of a queue that is not empty. -/
theorem stepRunsFront : Obligations.StepRunsFront := by
  unfold Obligations.StepRunsFront
  intro s c rest h
  simp only [step, h]

/-- Settles O2: by the case of an empty queue. -/
theorem stepIdles : Obligations.StepIdles := by
  unfold Obligations.StepIdles
  intro s h
  simp only [step, h]

/-- Settles O57: the sparse data after reset are short lists. -/
theorem resetCanonical : Obligations.ResetCanonical := by
  unfold Obligations.ResetCanonical State.RegsWf State.MemWf
  decide

end Sys2Proof.Machine
end

section
/-! Every Ubtor command row carries its command out through `runCommand`: the checks shared by all commands and the rows without a message
that may start. -/

namespace Sys2Proof.Machine

/-- A command row is `runCommand` of its descriptor, with what SYS.STATE and LNE.BINDOFF complete afterwards. -/
theorem exec_command {i : Instr} {mb : Nat} {sp : CmdSpec} (h : commandOf i = some (mb, sp)) (s : State) :
    ∃ (fields : Cmd → State → Option RetCode) (act : Cmd → State → Ans),
      exec i s = .next (afterCommand i (runCommand sp fields act mb s)) := by
  cases i <;> simp only [commandOf, reduceCtorEq, Option.some.injEq, Prod.mk.injEq] at h <;>
    (obtain ⟨rfl, rfl⟩ := h; simp only [afterCommand]; exact ⟨_, _, rfl⟩)

/-- The checks every command shares come before the command's own field checks and the host's commands. -/
theorem bodyCheck_eq_or (sp : CmdSpec) (fields : Cmd → State → Option RetCode) (c : Cmd) (s : State) :
    bodyCheck sp fields c s = (earlyCheck sp c s).or (((fields c s).filter RetCode.ofField).or
      ((if sp.hostOnly && !c.host then some .NOT_PERMITTED else none : Option RetCode).or (fields c s))) := by
  simp only [bodyCheck, earlyCheck, Option.orElse_eq_orElse, Option.orElse_eq_or, Option.or_assoc]

theorem bodyCheck_of_earlyCheck {sp : CmdSpec} {fields : Cmd → State → Option RetCode} {c : Cmd} {s : State} {rc : RetCode}
    (h : earlyCheck sp c s = some rc) : bodyCheck sp fields c s = some rc := by
  rw [bodyCheck_eq_or, h, Option.some_or]

/-- A full completion queue turns a command that wants a reply away (R76). -/
theorem runCommand_busy {sp : CmdSpec} {fields : Cmd → State → Option RetCode} {act : Cmd → State → Ans} {mb : Nat} {s : State}
    (h1 : s.startable mb = true) (h2 : (s.msg mb).code = sp.code) (h3 : headerCheck [sp.code] (s.msg mb) = none)
    (h4 : 16 ≤ s.queued mb) (h5 : (s.msg mb).replyWanted = true) :
    runCommand sp fields act mb s = (s.acknowledge (s.msg mb) .BUSY).takeId := by
  simp only [runCommand, h1, h2, h3, h4, h5, decide_true, Option.isNone_none, Bool.and_self, if_true]

/-- Settles O3: the first failing shared check is the first failing check of the command. -/
theorem checksRefuse : Obligations.ChecksRefuse := by
  unfold Obligations.ChecksRefuse
  intro s i mb sp rc hcmd hstart hcode hheader hqueue hcheck
  obtain ⟨fields, act, hexec⟩ := exec_command hcmd s
  rw [hexec, runCommand_refused hstart hcode hheader hqueue (bodyCheck_of_earlyCheck hcheck)]

/-- Settles O4: `runCommand` without such a message is the state itself. -/
theorem noMessageNoEffect : Obligations.NoMessageNoEffect := by
  unfold Obligations.NoMessageNoEffect
  intro s i mb sp hcmd hidle
  obtain ⟨fields, act, hexec⟩ := exec_command hcmd s
  rw [hexec, runCommand_idle (hidle.imp_right .inl)]

end Sys2Proof.Machine
end

section
/-! Write-1-to-clear bits against the hardware events that set them (R22). -/

namespace Sys2Proof

theorem Word.bit_eq_testBit (w : Word) (i : Nat) : Word.bit w i = w.toNat.testBit i := by simp only [Word.bit, BitVec.getLsbD]

/-- The 32-bit complement of a number. -/
theorem testBit_compl {m i : Nat} (hm : m < 2 ^ 32) (hi : i < 32) : (2 ^ 32 - 1 - m).testBit i = !m.testBit i := by
  rw [Nat.sub_sub, Nat.add_comm, Nat.testBit_two_pow_sub_succ hm, decide_eq_true hi, Bool.true_and]

/-- A word masked by the complement of `m` keeps the bits that `m` does not name. -/
theorem Word.bit_and_compl (w : Word) {m i : Nat} (hm : m < 2 ^ 32) (hi : i < 32) :
    Word.bit (word (w.toNat &&& (2 ^ 32 - 1 - m))) i = (Word.bit w i && !m.testBit i) := by
  have hlt : w.toNat &&& (2 ^ 32 - 1 - m) < 2 ^ 32 := Nat.and_lt_two_pow _ (by omega)
  rw [Word.bit_eq_testBit, Word.bit_eq_testBit, word, BitVec.toNat_ofNat, Nat.mod_eq_of_lt hlt, Nat.testBit_and, testBit_compl hm hi]

theorem and_lt_of_left_lt {m : Nat} (hm : m < 2 ^ 32) (n : Nat) : m &&& n < 2 ^ 32 := by
  rw [Nat.and_comm]; exact Nat.and_lt_two_pow _ hm

namespace Machine

/-- A value that is not the default is read back, whatever the data. -/
theorem sget_sset_of_ne {α : Type} [DecidableEq α] (d : Nat → α) (m : Sparse α) {k : Nat} {v : α} (h : v ≠ d k) :
    sget d (sset d m k v) k = v := by
  rw [sset, if_neg h, sget_sput_same]

/-- A bit that hardware set at the present stamp stays as it is. -/
theorem State.bit_clearBits_held {s : State} {k i m : Nat} (h : s.RegsWf) (hi : i < 32) (hm : m < 2 ^ 32)
    (hstamp : (sget (fun _ => (0, 0)) s.raised k).1 = s.stamp) (hset : (sget (fun _ => (0, 0)) s.raised k).2.testBit i = true) :
    (s.clearBits k m).bit k i = s.bit k i := by
  have hcompl : (2 ^ 32 - 1 - (sget (fun _ => (0, 0)) s.raised k).2).testBit i = false := by
    by_cases hlt : (sget (fun _ => (0, 0)) s.raised k).2 < 2 ^ 32
    · rw [testBit_compl hlt hi, hset]; rfl
    · rw [Nat.sub_eq_zero_of_le (by omega)]; exact Nat.zero_testBit i
  unfold State.bit State.clearBits
  rw [State.rd_wr_same h, Word.bit_and_compl _ (by rw [if_pos hstamp]; exact and_lt_of_left_lt hm _) hi, if_pos hstamp, Nat.testBit_and, hcompl]
  simp only [Bool.and_false, Bool.not_false, Bool.and_true]

/-- Any other bit clears where the write has 1. -/
theorem State.bit_clearBits {s : State} {k i m : Nat} (h : s.RegsWf) (hi : i < 32) (hm : m < 2 ^ 32)
    (hfree : (sget (fun _ => (0, 0)) s.raised k).1 ≠ s.stamp ∨
      (sget (fun _ => (0, 0)) s.raised k).2 < 2 ^ 32 ∧ (sget (fun _ => (0, 0)) s.raised k).2.testBit i = false) :
    (s.clearBits k m).bit k i = (s.bit k i && !m.testBit i) := by
  unfold State.bit State.clearBits
  rw [State.rd_wr_same h]
  by_cases hstamp : (sget (fun _ => (0, 0)) s.raised k).1 = s.stamp
  · obtain ⟨hlt, hclear⟩ := hfree.resolve_left (not_not_intro hstamp)
    have hcompl : (2 ^ 32 - 1 - (sget (fun _ => (0, 0)) s.raised k).2).testBit i = true := by
      rw [testBit_compl hlt hi, hclear]; rfl
    rw [if_pos hstamp, Word.bit_and_compl _ (and_lt_of_left_lt hm _) hi, Nat.testBit_and, hcompl, Bool.and_true]
  · rw [if_neg hstamp, Word.bit_and_compl _ hm hi]

theorem State.rd_clearBits_other (s : State) {k a : Nat} (m : Nat) (h : a ≠ k) : (s.clearBits k m).rd a = s.rd a :=
  State.rd_wr_other s _ h

/-- What is kept of a hardware event: its stamp, and the bit among those set at it. -/
theorem State.raised_raise (s : State) (k i : Nat) :
    (sget (fun _ => (0, 0)) (s.raise k i).raised k).1 = s.stamp ∧ (sget (fun _ => (0, 0)) (s.raise k i).raised k).2.testBit i = true := by
  have hset : ∀ n, (putBits n i i 1).testBit i = true := fun n => by
    rw [testBit_putBits _ _ _ _ _ (Nat.le_refl i), if_pos ⟨Nat.le_refl i, Nat.le_refl i⟩, Nat.sub_self]; rfl
  have hne : ∀ n, (s.stamp, putBits n i i 1) ≠ (0, 0) := fun n e => by
    have hbit := hset n
    rw [(Prod.mk.inj e).2, Nat.zero_testBit] at hbit
    exact nomatch hbit
  unfold State.raise
  simp only
  rw [sget_sset_of_ne (fun _ => (0, 0)) s.raised (k := k) (hne _)]
  exact ⟨rfl, hset _⟩

/-- Settles O10: the raised bit is held at its stamp, and no bit is at another. -/
theorem hardwareSetWins : Obligations.HardwareSetWins := by
  unfold Obligations.HardwareSetWins
  intro s k i m hwf hi hm
  refine ⟨?_, fun hstamp => State.bit_clearBits hwf hi hm (.inl hstamp), fun a ha => State.rd_clearBits_other s m ha⟩
  obtain ⟨hstamp, hset⟩ := s.raised_raise k i
  have hwf' : (s.raise k i).RegsWf := (hwf.setBit k i true).of_regs rfl
  rw [State.bit_clearBits_held hwf' hi hm hstamp hset]
  exact State.bit_setBit_same hwf k i true hi

end Machine
end Sys2Proof
end

section
/-! The mailbox registers: FULL, ACK and MBX_ACKCODE after each operation on a mailbox (R63), and the words of a posted message. With them,
how a command is acknowledged and answered (R69, R73, R75, R76). -/

namespace Sys2Proof.Machine

/-! ### Reads that a write does not reach -/

theorem State.bit_of_rd {s t : State} {k : Nat} (h : t.rd k = s.rd k) (i : Nat) : t.bit k i = s.bit k i := by
  unfold State.bit; rw [h]

theorem State.get_of_rd {s t : State} {k : Nat} (h : t.rd k = s.rd k) (f : Fld) : t.get k f = s.get k f := by
  unfold State.get; rw [h]

theorem State.rd_of_regs {s t : State} (h : t.regs = s.regs) (k : Nat) : t.rd k = s.rd k := by
  unfold State.rd; rw [h]

theorem State.rd_setBit_other (s : State) {k j : Nat} (i : Nat) (b : Bool) (h : j ≠ k) : (s.setBit k i b).rd j = s.rd j :=
  State.rd_put_other s _ _ h

theorem State.rd_setAck_other (s : State) {mb a : Nat} (b : Bool) (hack : a ≠ R.MBX_ACK) (hcode : a ≠ R.MBX_ACKCODE mb) :
    (s.setAck mb b).rd a = s.rd a := by
  unfold State.setAck
  rw [State.rd_put_other _ _ _ hcode, State.rd_setBit_other _ _ _ hack]

/-! ### FULL and ACK -/

/-- FULL after bit `mb` of MBX_STATUS is written. -/
theorem State.full_setFull {s : State} (h : s.RegsWf) {mb n : Nat} (hmb : mb < 32) (b : Bool) :
    (s.setBit R.MBX_STATUS mb b).full n = if n = mb then b else s.full n := by
  unfold State.full
  split
  next heq => rw [heq, State.bit_setBit_same h _ _ _ hmb]
  next hne => exact State.bit_setBit_bit h _ _ _ _ hmb hne

/-- ACK after ACK of `mb` is written. -/
theorem State.acked_setAck {s : State} (h : s.RegsWf) {mb n : Nat} (hmb : mb < 32) (b : Bool) :
    (s.setAck mb b).acked n = if n = mb then b else s.acked n := by
  have hcode : R.MBX_ACK ≠ R.MBX_ACKCODE mb := by simp only [R.MBX_ACK, R.MBX_ACKCODE]; omega
  unfold State.acked State.setAck
  rw [State.bit_put_other _ _ _ _ hcode]
  split
  next heq => rw [heq, State.bit_setBit_same h _ _ _ hmb]
  next hne => exact State.bit_setBit_bit h _ _ _ _ hmb hne

theorem State.full_setAck (s : State) (mb n : Nat) (b : Bool) : (s.setAck mb b).full n = s.full n :=
  State.bit_of_rd (State.rd_setAck_other s b (by decide) (by simp only [R.MBX_STATUS, R.MBX_ACKCODE]; omega)) n

theorem State.acked_setFull (s : State) (mb n : Nat) (b : Bool) : (s.setBit R.MBX_STATUS mb b).acked n = s.acked n :=
  State.bit_of_rd (State.rd_setBit_other s mb b (by decide)) n

/-- A word written below the status registers is none of them. -/
theorem State.full_wr_word (s : State) {a : Nat} (v : Word) (ha : a < 0x2000) (n : Nat) : (s.wr a v).full n = s.full n :=
  State.bit_of_rd (State.rd_wr_other s v (by simp only [R.MBX_STATUS]; omega)) n

theorem State.acked_wr_word (s : State) {a : Nat} (v : Word) (ha : a < 0x2000) (n : Nat) : (s.wr a v).acked n = s.acked n :=
  State.bit_of_rd (State.rd_wr_other s v (by simp only [R.MBX_ACK]; omega)) n

/-! ### The acknowledging write -/

@[simp] theorem State.yarnCtrl_regs (s : State) (d : Nat) (us : List CtrlUnit) : (s.yarnCtrl d us).regs = s.regs := by
  unfold State.yarnCtrl State.setYport; split <;> rfl

/-- The registers after the acknowledging write: code, ACK and FULL, whether or not the write also travels over a yarn port. -/
theorem State.ackWrite_regs (s : State) (mb code : Nat) : (s.ackWrite mb code).regs =
    (((s.put (R.MBX_ACKCODE mb) F.MBX_ACKCODE_CODE code).setAck mb true).setBit R.MBX_STATUS mb false).regs := by
  unfold State.ackWrite
  dsimp only
  split
  · split
    · exact State.yarnCtrl_regs _ _ _
    · rfl
  · rfl

@[simp] theorem State.acknowledge_regs (s : State) (c : Cmd) (rc : RetCode) :
    (s.acknowledge c rc).regs = (s.ackWrite c.mb rc.num).regs := by
  unfold State.acknowledge
  dsimp only
  split
  · split <;> rfl
  · rfl

theorem State.full_ackWrite {s : State} (h : s.RegsWf) {mb n : Nat} (hmb : mb < 32) (code : Nat) :
    (s.ackWrite mb code).full n = if n = mb then false else s.full n := by
  refine (State.bit_of_rd (State.rd_of_regs (State.ackWrite_regs s mb code) _) n).trans ?_
  refine (State.full_setFull ((h.put _ _ _).setAck _ _) hmb false).trans ?_
  rw [State.full_setAck]
  have hcode : R.MBX_STATUS ≠ R.MBX_ACKCODE mb := by simp only [R.MBX_STATUS, R.MBX_ACKCODE]; omega
  exact congrArg (if n = mb then false else ·) (State.bit_put_other s _ _ n hcode)

theorem State.acked_ackWrite {s : State} (h : s.RegsWf) {mb n : Nat} (hmb : mb < 32) (code : Nat) :
    (s.ackWrite mb code).acked n = if n = mb then true else s.acked n := by
  refine (State.bit_of_rd (State.rd_of_regs (State.ackWrite_regs s mb code) _) n).trans ?_
  refine (State.acked_setFull _ mb n false).trans ?_
  rw [State.acked_setAck (h.put _ _ _) hmb]
  have hcode : R.MBX_ACK ≠ R.MBX_ACKCODE mb := by simp only [R.MBX_ACK, R.MBX_ACKCODE]; omega
  exact congrArg (if n = mb then true else ·) (State.bit_put_other s _ _ n hcode)

theorem State.ackcode_ackWrite {s : State} (h : s.RegsWf) (mb code : Nat) :
    (s.ackWrite mb code).get (R.MBX_ACKCODE mb) F.MBX_ACKCODE_CODE = code % 2 ^ 16 := by
  have hstatus : R.MBX_ACKCODE mb ≠ R.MBX_STATUS := by simp only [R.MBX_STATUS, R.MBX_ACKCODE]; omega
  have hack : R.MBX_ACKCODE mb ≠ R.MBX_ACK := by simp only [R.MBX_ACK, R.MBX_ACKCODE]; omega
  have hput := h.put (R.MBX_ACKCODE mb) F.MBX_ACKCODE_CODE code
  refine (State.get_of_rd (State.rd_of_regs (State.ackWrite_regs s mb code) _) _).trans ?_
  refine (State.get_of_rd (State.rd_setBit_other _ mb false hstatus) _).trans ?_
  refine (State.get_put_field (hput.setBit _ _ _) _ _ _ _ (by decide) (by decide) (by decide)).trans ?_
  refine (State.get_of_rd (State.rd_setBit_other _ mb true hack) _).trans ?_
  exact State.get_put_same h _ _ _ (by decide) (by decide)

/-! ### A posted message -/

/-- The words of a message written in turn from word `j` on: each reads what was written, and no other address changes. -/
theorem State.rd_writeWords {s : State} (h : s.RegsWf) (mb : Nat) (ws : List Word) (j a : Nat) :
    ((ws.zipIdx j).foldl (fun t p => t.wr (mbWordAddr mb p.2) p.1) s).rd a =
      if mbWordAddr mb j ≤ a ∧ a < mbWordAddr mb (j + ws.length) ∧ a % 4 = mbWordAddr mb j % 4
      then ws.getD ((a - mbWordAddr mb j) / 4) 0 else s.rd a := by
  have hadd : ∀ i n, mbWordAddr mb (i + n) = mbWordAddr mb i + 4 * n := fun i n => by simp only [mbWordAddr]; omega
  induction ws generalizing s j with
  | nil =>
    have hlen := hadd j 0
    rw [if_neg (by simp only [List.length_nil]; omega)]
    rfl
  | cons w ws ih =>
    have hnext := hadd j 1
    have hlen := hadd (j + 1) ws.length
    have hlen' := hadd j (ws.length + 1)
    simp only [List.zipIdx_cons, List.foldl_cons, List.length_cons]
    rw [ih (h.wr _ _)]
    by_cases hfirst : a = mbWordAddr mb j
    · rw [if_neg (by omega), if_pos (by omega), hfirst, State.rd_wr_same h, Nat.sub_self]
      rfl
    · rw [State.rd_wr_other _ _ hfirst]
      by_cases hin : mbWordAddr mb j ≤ a ∧ a < mbWordAddr mb (j + (ws.length + 1)) ∧ a % 4 = mbWordAddr mb j % 4
      · rw [if_pos (by omega), if_pos hin, show (a - mbWordAddr mb j) / 4 = (a - mbWordAddr mb (j + 1)) / 4 + 1 by omega,
          List.getD_cons_succ]
      · rw [if_neg (by omega), if_neg hin]

theorem State.RegsWf.writeWords {s : State} (h : s.RegsWf) (mb : Nat) (l : List (Word × Nat)) :
    (l.foldl (fun t p => t.wr (mbWordAddr mb p.2) p.1) s).RegsWf :=
  foldl_keeps (fun _ _ h => h.wr _ _) l h

/-- The registers after a post: the words, FULL and ACK. -/
theorem State.postInto_regs (s : State) (mb : Nat) (ws : List Word) : (s.postInto mb ws).regs =
    (((ws.zipIdx.foldl (fun t p => t.wr (mbWordAddr mb p.2) p.1) s).setBit R.MBX_STATUS mb true).setAck mb false).regs := by
  unfold State.postInto
  dsimp only

/-- Below the status registers a posted message changes its own words only. -/
theorem State.rd_postInto_word {s : State} (h : s.RegsWf) {mb a : Nat} (ws : List Word) (ha : a < 0x2000) :
    (s.postInto mb ws).rd a =
      if mbWordAddr mb 0 ≤ a ∧ a < mbWordAddr mb ws.length ∧ a % 4 = 0 then ws.getD ((a - mbWordAddr mb 0) / 4) 0 else s.rd a := by
  have hack : a ≠ R.MBX_ACK := by simp only [R.MBX_ACK]; omega
  have hcode : a ≠ R.MBX_ACKCODE mb := by simp only [R.MBX_ACKCODE]; omega
  have hstatus : a ≠ R.MBX_STATUS := by simp only [R.MBX_STATUS]; omega
  rw [State.rd_of_regs (State.postInto_regs s mb ws), State.rd_setAck_other _ false hack hcode, State.rd_setBit_other _ mb true hstatus]
  rw [State.rd_writeWords h, Nat.zero_add, show mbWordAddr mb 0 % 4 = 0 by simp only [mbWordAddr]; omega]

/-- FULL after a post. -/
theorem State.full_postInto {s : State} (h : s.RegsWf) {mb n : Nat} {ws : List Word} (hmb : mb < 32) (hws : ws.length ≤ 64) :
    (s.postInto mb ws).full n = if n = mb then true else s.full n := by
  refine (State.bit_of_rd (State.rd_of_regs (State.postInto_regs s mb ws) _) n).trans ?_
  refine (State.full_setAck _ mb n false).trans ((State.full_setFull (h.writeWords mb _) hmb true).trans ?_)
  have hout : ¬(mbWordAddr mb 0 ≤ R.MBX_STATUS ∧ R.MBX_STATUS < mbWordAddr mb (0 + ws.length) ∧
      R.MBX_STATUS % 4 = mbWordAddr mb 0 % 4) := by
    simp only [mbWordAddr, R.MBX_STATUS]; omega
  have hrd := State.rd_writeWords h mb ws 0 R.MBX_STATUS
  rw [if_neg hout] at hrd
  exact congrArg (if n = mb then true else ·) (State.bit_of_rd hrd n)

/-! ### Answering a command -/

@[simp] theorem State.yarnCtrl_sys (s : State) (d : Nat) (us : List CtrlUnit) : (s.yarnCtrl d us).sys = s.sys := by
  unfold State.yarnCtrl; split <;> simp only [State.setYport_sys]

@[simp] theorem State.yarnCtrl_mbx (s : State) (d : Nat) (us : List CtrlUnit) : (s.yarnCtrl d us).mbx = s.mbx := by
  unfold State.yarnCtrl; split <;> simp only [State.setYport_mbx]

@[simp] theorem State.ackWrite_sys (s : State) (mb code : Nat) : (s.ackWrite mb code).sys = s.sys := by
  unfold State.ackWrite
  dsimp only
  split
  · split <;> simp only [State.yarnCtrl_sys, State.setBit_sys, State.setAck_sys, State.put_sys]
  · simp only [State.setBit_sys, State.setAck_sys, State.put_sys]

@[simp] theorem State.ackWrite_mbx (s : State) (mb code : Nat) : (s.ackWrite mb code).mbx = s.mbx := by
  unfold State.ackWrite
  dsimp only
  split
  · split <;> simp only [State.yarnCtrl_mbx, State.setBit_mbx, State.setAck_mbx, State.put_mbx]
  · simp only [State.setBit_mbx, State.setAck_mbx, State.put_mbx]

@[simp] theorem State.acknowledge_mbx (s : State) (c : Cmd) (rc : RetCode) : (s.acknowledge c rc).mbx = s.mbx := by
  unfold State.acknowledge
  dsimp only
  split
  · split <;> simp only [State.ackWrite_mbx]
  · simp only [State.ackWrite_mbx]

/-- Of the management state, acknowledging changes the session's idle time only. -/
@[simp] theorem State.acknowledge_dev (s : State) (c : Cmd) (rc : RetCode) : (s.acknowledge c rc).sys.dev = s.sys.dev := by
  unfold State.acknowledge
  dsimp only
  split
  · split <;> simp only [State.ackWrite_sys]
  · simp only [State.ackWrite_sys]

theorem State.serving_of_dev {s t : State} (h : t.sys.dev = s.sys.dev) : t.serving = s.serving := by
  unfold State.serving; rw [h]

theorem State.pairRuns_of {s t : State} (hdev : t.sys.dev = s.sys.dev) (hmbx : t.mbx.pairsInReset = s.mbx.pairsInReset) (p : Nat) :
    t.pairRuns p = s.pairRuns p := by
  unfold State.pairRuns; rw [hdev, hmbx]

/-- A mailbox's completions after one that is not empty is stored. -/
theorem State.outq_setOutq_cons (s : State) (mb : Nat) (m : OutMsg) (q : List OutMsg) : (s.setOutq mb (m :: q)).outq mb = m :: q :=
  sget_sset_of_ne (fun _ => []) s.mbx.outq (List.cons_ne_nil m q)

/-- The first completion of a mailbox whose reply mailbox is empty is posted there (R73). -/
theorem State.flushOne_posts {s : State} {mb : Nat} {m : OutMsg} {rest : List OutMsg} {ws : List Word} (hq : s.outq mb = m :: rest)
    (hready : m.ready = some ws) (hserve : s.serving = true) (hpair : s.pairRuns (pairOf mb) = true) (hsrc : m.src = none)
    (hempty : s.full (replyMb mb) = false) : (s.flushOne mb).regs = ((s.setOutq mb rest).postInto (replyMb mb) ws).regs := by
  simp only [State.flushOne, hq, hready, hserve, hpair, hsrc, hempty]
  rfl

end Sys2Proof.Machine
end

section
/-! How a command mailbox answers: the acknowledgement, and the reply that is posted at once (R63, R69, R70, R73, R76). -/

namespace Sys2Proof.Machine

/-- A command mailbox of the host or the fabric, and the mailbox of its replies. -/
theorem replyMb_lt {mb : Nat} (h : mb < 8 ∨ (16 ≤ mb ∧ mb < 20)) : replyMb mb < 32 ∧ replyMb mb ≠ mb := by
  unfold replyMb; split <;> omega

theorem State.msg_src {s : State} {mb : Nat} (h : mb < 24) : (s.msg mb).src = none := by
  simp only [State.msg, show ¬ 24 ≤ mb by omega, if_false]

/-- Without a completion waiting, a reply that is wanted is posted at once, on the registers that the acknowledging write leaves. -/
theorem State.answer_posts {s : State} {mb : Nat} (hmb : mb < 24) (rc : RetCode) (data : List Word) (hserve : s.serving = true)
    (hpair : s.pairRuns (pairOf mb) = true) (hq : s.outq mb = []) (hempty : (s.ackWrite mb rc.num).full (replyMb mb) = false)
    (hwant : (s.msg mb).replyWanted = true) :
    ∃ v : State, v.regs = (s.ackWrite mb rc.num).regs ∧ (s.answer (s.msg mb) rc data).regs =
      (v.postInto (replyMb mb) (replyWords (s.msg mb).code (s.msg mb).tag (s.msg mb).session rc data)).regs := by
  generalize hm : (⟨(s.msg mb).id, false, (s.msg mb).sheet, (s.msg mb).src,
    some (replyWords (s.msg mb).code (s.msg mb).tag (s.msg mb).session rc data)⟩ : OutMsg) = m
  generalize hu : ((s.acknowledge (s.msg mb) rc).takeId).setOutq mb [m] = u
  have hregs : u.regs = (s.ackWrite mb rc.num).regs := by
    rw [← hu, State.setOutq_regs, State.takeId_regs, State.acknowledge_regs]; rfl
  have hdev : u.sys.dev = s.sys.dev := by rw [← hu, State.setOutq_sys, State.takeId_sys, State.acknowledge_dev]
  have hreset : u.mbx.pairsInReset = s.mbx.pairsInReset := by
    rw [← hu, show ∀ v : State, (v.takeId.setOutq mb [m]).mbx.pairsInReset = v.mbx.pairsInReset from fun _ => rfl, State.acknowledge_mbx]
  have hold : ((s.acknowledge (s.msg mb) rc).takeId).outq mb = [] :=
    (congrArg (fun x : Mbx => sget (fun _ => []) x.outq mb) (State.acknowledge_mbx s (s.msg mb) rc)).trans hq
  have hone : u.outq mb = [m] := by rw [← hu]; exact State.outq_setOutq_cons _ mb m []
  have hanswer : s.answer (s.msg mb) rc data = u.flushOne mb := by
    have hmb' : (s.msg mb).mb = mb := rfl
    simp only [State.answer, hwant, if_true, State.pushOut, hm, hmb', hold, List.nil_append, hu, State.flush, hone, List.foldl_cons,
      List.foldl_nil]
  refine ⟨u.setOutq mb [], (State.setOutq_regs _ _ _).trans hregs, ?_⟩
  rw [hanswer]
  exact State.flushOne_posts hone (by rw [← hm]) ((State.serving_of_dev hdev).trans hserve)
    ((State.pairRuns_of hdev hreset _).trans hpair) (by rw [← hm]; exact State.msg_src hmb)
    ((State.bit_of_rd (State.rd_of_regs hregs _) _).trans hempty)

/-- Settles O5: BUSY by the rule of `runCommand`, the acknowledgement by the registers it writes, the reply as the one completion posted. -/
theorem mailboxAnswers : Obligations.MailboxAnswers := by
  unfold Obligations.MailboxAnswers
  refine ⟨?busy, ?ack, ?reply, ?unwanted⟩
  case busy =>
    intro s i mb sp hcmd hstart hcode hheader hqueue hwant
    obtain ⟨fields, act, hexec⟩ := exec_command hcmd s
    rw [hexec, runCommand_busy hstart hcode hheader hqueue hwant]
  case ack =>
    intro s mb rc hwf hmb t
    have hlt : mb < 32 := by omega
    have hregs : t.regs = (s.ackWrite mb rc.num).regs := State.acknowledge_regs s (s.msg mb) rc
    have hfull : ∀ n, t.full n = if n = mb then false else s.full n := fun n =>
      (State.bit_of_rd (State.rd_of_regs hregs _) n).trans (State.full_ackWrite hwf hlt _)
    have hacked : ∀ n, t.acked n = if n = mb then true else s.acked n := fun n =>
      (State.bit_of_rd (State.rd_of_regs hregs _) n).trans (State.acked_ackWrite hwf hlt _)
    refine ⟨by rw [hfull, if_pos rfl], by rw [hacked, if_pos rfl], ?_, fun m _ hm => by rw [hfull, hacked, if_neg hm, if_neg hm]; exact ⟨rfl, rfl⟩⟩
    exact ((State.get_of_rd (State.rd_of_regs hregs _) _).trans (State.ackcode_ackWrite hwf mb _)).trans (Nat.mod_eq_of_lt rc.num_lt)
  case reply =>
    intro s mb rc data hwf hmb hserve hpair hq hempty hwant hlen t c
    have hlt : mb < 32 := by omega
    obtain ⟨hreply, hne⟩ := replyMb_lt hmb
    have hack : ∀ n, (s.ackWrite mb rc.num).full n = if n = mb then false else s.full n := fun n => State.full_ackWrite hwf hlt _
    obtain ⟨v, hv, hregs⟩ := State.answer_posts (by omega) rc data hserve hpair hq (by rw [hack, if_neg hne, hempty]) hwant
    have hwf' : v.RegsWf := (((hwf.put _ _ _).setAck _ _).setBit _ _ _).of_regs (hv.trans (State.ackWrite_regs s mb rc.num))
    have hfull : ∀ n, t.full n = if n = replyMb mb then true else if n = mb then false else s.full n := fun n => by
      refine (State.bit_of_rd (State.rd_of_regs hregs _) n).trans ?_
      rw [← hack]
      refine (State.full_postInto hwf' hreply (by rw [length_replyWords]; omega)).trans ?_
      exact congrArg (if n = replyMb mb then true else ·) (State.bit_of_rd (State.rd_of_regs hv _) n)
    refine ⟨by rw [hfull, if_pos rfl], by rw [hfull, if_neg hne.symm, if_pos rfl], fun k hk => ?_⟩
    have haddr : mbWordAddr (replyMb mb) k < 0x2000 := by simp only [mbWordAddr]; omega
    rw [State.rd_of_regs hregs, State.rd_postInto_word hwf' _ haddr, if_pos (by rw [length_replyWords]; simp only [mbWordAddr]; omega)]
    rw [show (mbWordAddr (replyMb mb) k - mbWordAddr (replyMb mb) 0) / 4 = k by simp only [mbWordAddr]; omega]
  case unwanted =>
    intro s mb rc data hwant
    simp only [State.answer, hwant, Bool.false_eq_true, if_false]

end Sys2Proof.Machine
end

section
/-! Legal routes (R498 to R500, R509): where a walk of mesh hops ends, the default route, and the detour in two such segments. -/

namespace Sys2Proof.Machine

/-! ### Walks -/

/-- The mesh hops `hs` lead from router `r` to router `r'` inside the mesh. -/
def Reaches (r : Nat) (hs : List Nat) (r' : Nat) : Prop := ∃ ls, walk r hs = some (ls, r')

theorem Reaches.nil (r : Nat) : Reaches r [] r := ⟨[], rfl⟩

theorem Reaches.cons {r h l m r' : Nat} {hs : List Nat} (hop : hopTo r h = some (l, m)) (rest : Reaches m hs r') :
    Reaches r (h :: hs) r' := by
  obtain ⟨ls, hls⟩ := rest
  exact ⟨l :: ls, by simp only [walk, hop, hls, Option.map_some]⟩

theorem Reaches.append {r m r' : Nat} {hs ks : List Nat} (first : Reaches r hs m) (rest : Reaches m ks r') : Reaches r (hs ++ ks) r' := by
  obtain ⟨ls, hls⟩ := first
  induction hs generalizing r ls with
  | nil =>
    simp only [walk, Option.some.injEq, Prod.mk.injEq] at hls
    rw [hls.2]; exact rest
  | cons h hs ih =>
    obtain ⟨l, q, ms, hop, hq, -⟩ := walk_cons hls
    exact Reaches.cons hop (ih ms hq)

/-- Hops east stay in the mesh up to column 7. -/
theorem Reaches.east {r n : Nat} (h : r % 8 + n < 8) : Reaches r (List.replicate n 1) (r + n) := by
  induction n generalizing r with
  | zero => exact .nil r
  | succ n ih =>
    have hrest : Reaches (r + 1) (List.replicate n 1) (r + 1 + n) := ih (by omega)
    rw [show r + (n + 1) = r + 1 + n by omega]
    exact .cons (if_pos (show r % 8 < 7 by omega)) hrest

/-- Hops west stay in the mesh down to column 0. -/
theorem Reaches.west {r n : Nat} (h : n ≤ r % 8) : Reaches r (List.replicate n 3) (r - n) := by
  induction n generalizing r with
  | zero => exact .nil r
  | succ n ih =>
    have hrest : Reaches (r - 1) (List.replicate n 3) (r - 1 - n) := ih (by omega)
    rw [show r - (n + 1) = r - 1 - n by omega]
    exact .cons (if_pos (show 0 < r % 8 by omega)) hrest

/-- Hops north stay in the mesh up to row 7. -/
theorem Reaches.north {r n : Nat} (h : r / 8 + n < 8) : Reaches r (List.replicate n 0) (r + 8 * n) := by
  induction n generalizing r with
  | zero => exact .nil r
  | succ n ih =>
    have hrest : Reaches (r + 8) (List.replicate n 0) (r + 8 + 8 * n) := ih (by omega)
    rw [show r + 8 * (n + 1) = r + 8 + 8 * n by omega]
    exact .cons (if_pos (show r / 8 < 7 by omega)) hrest

/-- Hops south stay in the mesh down to row 0. -/
theorem Reaches.south {r n : Nat} (h : n ≤ r / 8) : Reaches r (List.replicate n 2) (r - 8 * n) := by
  induction n generalizing r with
  | zero => exact .nil r
  | succ n ih =>
    have hrest : Reaches (r - 8) (List.replicate n 2) (r - 8 - 8 * n) := ih (by omega)
    rw [show r - 8 * (n + 1) = r - 8 - 8 * n by omega]
    exact .cons (if_pos (show 0 < r / 8 by omega)) hrest

/-! ### X hops, then Y hops -/

/-- The route by columns, then rows, arrives. -/
theorem reaches_xyHops {a b : Nat} (ha : a < 64) (hb : b < 64) : Reaches a (xyHops a b) b := by
  have heast : Reaches a (List.replicate (b % 8 - a % 8) 1) (a + (b % 8 - a % 8)) := .east (by omega)
  have hwest : Reaches (a + (b % 8 - a % 8)) (List.replicate (a % 8 - b % 8) 3) (a + (b % 8 - a % 8) - (a % 8 - b % 8)) := .west (by omega)
  generalize hc : a + (b % 8 - a % 8) - (a % 8 - b % 8) = c at hwest
  have hrow : c / 8 = a / 8 := by omega
  have hnorth : Reaches c (List.replicate (b / 8 - a / 8) 0) (c + 8 * (b / 8 - a / 8)) := .north (by omega)
  have hsouth : Reaches (c + 8 * (b / 8 - a / 8)) (List.replicate (a / 8 - b / 8) 2) (c + 8 * (b / 8 - a / 8) - 8 * (a / 8 - b / 8)) :=
    .south (by omega)
  have hend : c + 8 * (b / 8 - a / 8) - 8 * (a / 8 - b / 8) = b := by omega
  rw [hend] at hsouth
  exact ((heast.append hwest).append hnorth).append hsouth

/-- The mesh has eight columns and eight rows. -/
theorem length_xyHops_le {a b : Nat} (ha : a < 64) (hb : b < 64) : (xyHops a b).length ≤ 14 := by
  simp only [xyHops, List.length_append, List.length_replicate]; omega

/-- Odd hops, then even hops, obey the order of R498. -/
theorem xBeforeY_append : ∀ {xs ys : List Nat}, (∀ h ∈ xs, h % 2 = 1) → (∀ h ∈ ys, h % 2 = 0) → xBeforeY (xs ++ ys) = true
  | [], [], _, _ => rfl
  | [], y :: ys, hx, hy => by
    have hys : ∀ k ∈ ys, k % 2 = 0 := fun k hk => hy k (List.mem_cons_of_mem y hk)
    have hrest : xBeforeY ([] ++ ys) = true := xBeforeY_append hx hys
    have hall : ys.all (fun k => k % 2 == 0) = true := List.all_eq_true.mpr fun k hk => beq_iff_eq.mpr (hys k hk)
    simp only [List.nil_append, xBeforeY, hall, Bool.or_true, Bool.true_and]
    exact hrest
  | x :: xs, ys, hx, hy => by
    have hrest : xBeforeY (xs ++ ys) = true := xBeforeY_append (fun k hk => hx k (List.mem_cons_of_mem x hk)) hy
    simp only [List.cons_append, xBeforeY, hx x List.mem_cons_self, hrest, beq_self_eq_true, Bool.true_or, Bool.and_true]

theorem xBeforeY_xyHops (a b : Nat) : xBeforeY (xyHops a b) = true := by
  unfold xyHops
  rw [List.append_assoc]
  apply xBeforeY_append
  all_goals
    intro h
    simp only [List.mem_append, List.mem_replicate]
    omega

/-! ### Routes -/

/-- Table 15-1 numbers its interfaces within the mesh's 64 routers. -/
theorem router_of_isNi {ni : Nat} (h : isNi ni = true) : ni / 4 < 64 := by
  have hall : ∀ n ∈ niList, n / 4 < 64 := by decide
  exact hall ni (List.contains_iff_mem.mp h)

/-- A route of mesh hops that arrive, in one or two ordered segments, followed by the ejection. -/
theorem routeOk_of_reaches {ni dst split : Nat} {mesh : List Nat} (hreach : Reaches (ni / 4) mesh (dst / 4)) (hlen : mesh.length ≤ 15)
    (hsplit : split ≤ mesh.length) (hfirst : xBeforeY (if split = 0 then mesh else mesh.take split) = true)
    (hsecond : xBeforeY (if split = 0 then [] else mesh.drop split) = true) :
    routeOk ni dst split (mesh ++ [4 + dst % 4]) = true := by
  obtain ⟨ls, hwalk⟩ := hreach
  have hlen' : (mesh ++ [4 + dst % 4]).length ≤ 16 := by simp only [List.length_append, List.length_singleton]; omega
  have hsplit' : split < (mesh ++ [4 + dst % 4]).length := by simp only [List.length_append, List.length_singleton]; omega
  simp only [routeOk, List.dropLast_concat, List.getLast?_concat, hwalk, hfirst, hsecond, hlen', hsplit', decide_true, beq_self_eq_true,
    Bool.and_true]
  exact decide_eq_true (by omega)

theorem defaultHops_ok {ni dst : Nat} (hni : isNi ni = true) (hdst : isNi dst = true) : routeOk ni dst 0 (defaultHops ni dst) = true := by
  have hlen := length_xyHops_le (router_of_isNi hni) (router_of_isNi hdst)
  exact routeOk_of_reaches (reaches_xyHops (router_of_isNi hni) (router_of_isNi hdst)) (by omega) (Nat.zero_le _)
    (xBeforeY_xyHops _ _) rfl

/-- Where a fold over options keeps its value or takes the element, its result is the first value or one of the elements. -/
theorem foldl_choice_mem {α : Type} {f : Option α → α → Option α} (hf : ∀ o x r, f o x = some r → o = some r ∨ r = x) (l : List α)
    (o : Option α) {r : α} (h : l.foldl f o = some r) : o = some r ∨ r ∈ l := by
  induction l generalizing o with
  | nil => exact .inl h
  | cons x l ih =>
    rcases ih _ h with hstep | hmem
    · exact (hf o x r hstep).imp_right fun hr : r = x => hr ▸ List.mem_cons_self
    · exact .inr (List.mem_cons_of_mem x hmem)

/-- A detour is the route over some middle router, at most 16 hops long, with no link to be avoided. -/
theorem detour_eq_some {p : Nat → Bool} {ni dst split : Nat} {hs : List Nat} (h : detour p ni dst = some (hs, split)) :
    ∃ m < 64, hs = xyHops (ni / 4) m ++ defaultHops (4 * m) dst ∧ split = (xyHops (ni / 4) m).length ∧ split ≠ 0 ∧ hs.length ≤ 16 ∧
      (routeLinks ni hs).any p = false := by
  unfold detour at h
  extract_lets def_ one rank at h
  have hmem := (foldl_choice_mem (fun o x r hr => ?step) _ none h).resolve_left nofun
  case step =>
    cases o with
    | none => exact .inr (Option.some.inj hr).symm
    | some b =>
      dsimp only at hr
      split at hr
      · exact .inr (Option.some.inj hr).symm
      · exact .inl hr
  obtain ⟨m, hm, hone⟩ := List.mem_filterMap.mp hmem
  dsimp only [one] at hone
  split at hone
  · exact nomatch hone
  next hcond =>
    obtain ⟨rfl, rfl⟩ := Prod.mk.inj (Option.some.inj hone)
    simp only [not_or, not_lt, Bool.not_eq_true] at hcond
    obtain ⟨hne, -, hlen, hany⟩ := hcond
    exact ⟨m, List.mem_range.mp hm, rfl, rfl, fun h0 => hne (List.length_eq_zero_iff.mp h0), hlen, hany⟩

/-- Settles O41: the default route is one ordered segment, a detour two, over a middle router. -/
theorem routesLegal : Obligations.RoutesLegal := by
  unfold Obligations.RoutesLegal
  refine ⟨fun ni dst hni hdst => defaultHops_ok hni hdst, fun p ni dst hs split hni hdst h => ?_⟩
  obtain ⟨m, hm, rfl, rfl, hsplit, hlen, hany⟩ := detour_eq_some h
  refine ⟨?_, fun l hl => Bool.eq_false_iff.mpr (List.any_eq_false.mp hany l hl)⟩
  have hmid : 4 * m / 4 = m := by omega
  simp only [defaultHops, hmid, ← List.append_assoc] at hlen ⊢
  simp only [List.length_append, List.length_singleton] at hlen
  refine routeOk_of_reaches ((reaches_xyHops (router_of_isNi hni) hm).append (reaches_xyHops hm (router_of_isNi hdst)))
    (by rw [List.length_append]; omega) (by rw [List.length_append]; omega) ?_ ?_
  · rw [if_neg hsplit, List.take_left]; exact xBeforeY_xyHops _ _
  · rw [if_neg hsplit, List.drop_left]; exact xBeforeY_xyHops _ _

end Sys2Proof.Machine
end

section
/-! What a command that Ubtor takes up answers, by what its own field checks and its effect say: one rule per kind of answer. -/

namespace Sys2Proof.Machine

section
variable {sp : CmdSpec} {fields : Cmd → State → Option RetCode} {act : Cmd → State → Ans} {mb : Nat} {s u : State}

/-- The effect answers a return code with data. -/
theorem runCommand_ans {rc : RetCode} {data : List Word} (h : s.Serves mb sp) (hfields : fields (s.msg mb) s = none)
    (hact : act (s.msg mb) s = .ans rc u data) : runCommand sp fields act mb s = u.answer (s.msg mb) rc data := by
  rw [runCommand_served h hfields, hact]

/-- The effect is accepted, to be completed later. -/
theorem runCommand_acc {args : List Nat} (h : s.Serves mb sp) (hfields : fields (s.msg mb) s = none)
    (hact : act (s.msg mb) s = .acc u args) : runCommand sp fields act mb s = u.accept (s.msg mb) args := by
  rw [runCommand_served h hfields, hact]

/-- The effect passes before the command is answered. -/
theorem runCommand_wait {args : List Nat} (h : s.Serves mb sp) (hfields : fields (s.msg mb) s = none)
    (hact : act (s.msg mb) s = .wait u args) : Host.Outcome.next (runCommand sp fields act mb s) = s.waits mb u args := by
  rw [runCommand_served h hfields, hact]

/-- The command's own field checks refuse it: every check shared by all commands has passed. -/
theorem runCommand_field {rc : RetCode} (h : s.Serves mb sp) (hfields : fields (s.msg mb) s = some rc) :
    runCommand sp fields act mb s = s.answer (s.msg mb) rc [] := by
  obtain ⟨hstart, hcode, hheader, hqueue, hshared⟩ := h
  refine runCommand_refused hstart hcode hheader hqueue ?_
  rw [bodyCheck_eq_or] at hshared ⊢
  obtain ⟨hearly, hrest⟩ := Option.or_eq_none_iff.mp hshared
  obtain ⟨-, hhost⟩ := Option.or_eq_none_iff.mp hrest
  rw [hearly, (Option.or_eq_none_iff.mp hhost).1, hfields]
  cases hk : rc.ofField <;> simp [hk, Option.filter]

end

@[simp] theorem badIf_true : badIf true = some .BAD_FIELD := rfl
@[simp] theorem badIf_false : badIf false = none := rfl

theorem badIf_eq_some {p : Bool} (h : p = true) : badIf p = some .BAD_FIELD := by rw [h]; rfl

end Sys2Proof.Machine
end

section
/-! The memories (spec/16): what a write leaves of every other byte, accesses at the store tier and the external memory, the guard's queue,
the MEM and MGD commands, and the isolation of tenants. -/

namespace Sys2Proof.Machine

/-! ### Bytes written -/

/-- Bytes are written in turn. -/
theorem putBytes_cons (m : Sparse Byte) (o : Nat) (b : Byte) (bs : List Byte) :
    putBytes m o (b :: bs) = putBytes (sset (fun _ => (0 : Byte)) m o b) (o + 1) bs := by
  simp only [putBytes, List.zipIdx_cons, List.foldl_cons, List.zipIdx_succ, List.foldl_map, Nat.add_zero, Nat.zero_add]
  simp only [Nat.add_assoc, Nat.add_comm 1]

/-- Bytes written leave every address outside them. -/
theorem sget_putBytes_outside (m : Sparse Byte) (o : Nat) (bs : List Byte) {a : Nat} (h : a < o ∨ o + bs.length ≤ a) :
    sget (fun _ => (0 : Byte)) (putBytes m o bs) a = sget (fun _ => (0 : Byte)) m a := by
  induction bs generalizing m o with
  | nil => rfl
  | cons b bs ih =>
    rw [List.length_cons] at h
    rw [putBytes_cons, ih _ _ (by omega), sget_sset_other _ _ _ (by omega)]

/-- Bytes written read back, each at its address. -/
theorem sget_putBytes {m : Sparse Byte} (hm : swf (fun _ => (0 : Byte)) m = true) (o : Nat) (bs : List Byte) (a : Nat) :
    sget (fun _ => (0 : Byte)) (putBytes m o bs) a =
      if o ≤ a ∧ a < o + bs.length then bs.getD (a - o) 0 else sget (fun _ => (0 : Byte)) m a := by
  split
  next hin =>
    induction bs generalizing m o with
    | nil => rw [List.length_nil] at hin; omega
    | cons b bs ih =>
      rw [List.length_cons] at hin
      rw [putBytes_cons]
      by_cases hfirst : a = o
      · rw [sget_putBytes_outside _ _ _ (by omega), hfirst, sget_sset_same _ _ _ hm, Nat.sub_self, List.getD_cons_zero]
      · rw [ih (swf_sset _ _ _ hm) _ (by omega), show a - o = a - (o + 1) + 1 by omega, List.getD_cons_succ]
  next hout => exact sget_putBytes_outside m o bs (by omega)

/-! ### The store tier -/

@[simp] theorem State.respond_store (s : State) (i d tag cls status len : Nat) (bs : List Byte) :
    (s.respond i d tag cls status len bs).store = s.store := rfl

/-- An answer goes to its master: no byte of the store tier changes. -/
@[simp] theorem State.memAnswer_store (s : State) (q : MemReq) (a : MemAns) : (s.memAnswer q a).store = s.store := by
  unfold State.memAnswer
  dsimp only
  split
  · rw [State.respond_store]
  · rfl

@[simp] theorem State.storeCe_store (s : State) (o : Nat) : (s.storeCe o).store = s.store := rfl

@[simp] theorem State.storeUe_store (s : State) (o : Nat) : (s.storeUe o).store = s.store := rfl

/-- A store-tier request changes no byte but those of a write that reaches every byte it names. -/
theorem State.storeRequest_store (s : State) (q : MemReq) (ecc : EccSeen) :
    (s.storeRequest q ecc).store = s.store ∨
      ∃ k, s.keyOf q 0 = some k ∧ (∀ i < q.len, s.storeReach q.cls k (q.addr % 2 ^ 32 + i) = true) ∧
        (s.storeRequest q ecc).store = putBytes s.store (q.addr % 2 ^ 32) (q.data.take q.len) := by
  simp only [State.storeRequest, State.memAnswer_store, State.storeAccess]
  split
  next => exact .inl rfl
  next k hk =>
    split
    next hreach =>
      obtain ⟨-, hall⟩ := hreach
      split
      next => exact .inr ⟨k, hk, fun i hi => List.all_eq_true.mp hall i (List.mem_range.mpr hi), rfl⟩
      next => left; cases ecc <;> rfl
    next => exact .inl rfl

/-- A sheet or the DMA engine under a tenant's KeyID reaches that tenant's window only (R520). -/
theorem State.storeReach_window {s : State} {cls k o : Nat} (hcls : cls = 3 ∨ cls = 5) (hk : k ≠ 0) (h : s.storeReach cls k o = true) :
    0xC8000000 + (k - 1) * 0x200000 ≤ o ∧ o < 0xC8000000 + k * 0x200000 := by
  unfold State.storeReach at h
  split at h
  · simp only [decide_eq_true_eq] at h; omega
  · split at h
    · simp only [decide_eq_true_eq] at h; omega
    · split at h
      · simp only [decide_eq_true_eq] at h; omega
      · split at h
        · simp only [Bool.and_eq_true, decide_eq_true_eq] at h
          obtain ⟨⟨-, hwin⟩, -⟩ := h
          omega
        · split at h
          · exact nomatch h
          · split at h
            · simp only [decide_eq_true_eq] at h; omega
            · simp only [decide_eq_true_eq] at h; omega

/-- A tenant's KeyID stands for itself where the address names none. -/
theorem State.keyOf_of_key {s : State} {q : MemReq} {k a : Nat} (hcls : q.cls ≠ 0) (hkey : q.key = some k) (hk : k ≠ 0) :
    s.keyOf q a = if a = k then some a else if a = 0 then some k else none := by
  simp only [State.keyOf, hkey, hcls, hk, false_and, if_false, or_false]

/-- A request whose class may use a KeyID other than 0, and that is a sheet's or the DMA engine's, carries that KeyID (R529). -/
theorem State.classMay_key {s : State} {q : MemReq} {k : Nat} (h : s.classMay q k = true) (hcls : q.cls = 3 ∨ q.cls = 5) :
    q.key = some k := by
  have hne : q.cls ≠ 0 := by omega
  simpa only [State.classMay, hcls, hne, decide_true, decide_false, Bool.true_and, Bool.false_and, Bool.or_false, beq_iff_eq] using h

/-- The guard admits a request inside the partition of the KeyID that it resolves to (Table 16-4). -/
theorem State.extRoute_guard {s : State} {q : MemReq} {k : Nat} (h : s.extRoute q = .guard k) :
    k ≠ 0 ∧ s.classMay q k = true ∧ ∃ b n, s.part k = some (b, n) ∧ b ≤ extOff q.addr ∧ extOff q.addr + q.len ≤ b + n := by
  unfold State.extRoute State.routeAt at h
  split at h
  · exact nomatch h
  · split at h
    · exact nomatch h
    · split at h <;> exact nomatch h
    next j hj _ =>
      split at h
      next b n hpart =>
        split at h
        next hcond =>
          cases h
          simp only [Bool.and_eq_true, decide_eq_true_eq] at hcond
          obtain ⟨⟨hmay, hlo⟩, hhi⟩ := hcond
          exact ⟨fun h0 => hj (by rw [h0]), hmay, b, n, hpart, hlo, hhi⟩
        next => exact nomatch h
      next => exact nomatch h

/-- Settles O43: a request under a tenant's KeyID reaches its window alone, and is admitted inside its partition alone. -/
theorem tenantIsolation : Obligations.TenantIsolation := by
  unfold Obligations.TenantIsolation
  constructor
  · intro s t q ecc k hcls hkey hk hexec a ha
    have hexec' : (if q.ok && inStore q.addr && s.memServes then Host.Outcome.next (s.storeRequest q ecc) else .next s : Out) = .next t :=
      hexec
    split at hexec'
    · cases hexec'
      rcases s.storeRequest_store q ecc with hsame | ⟨j, hj, hreach, hwrite⟩
      · rw [hsame]
      · rw [hwrite]
        rw [State.keyOf_of_key (by omega) hkey hk, if_neg (Ne.symm hk), if_pos rfl] at hj
        cases hj
        refine sget_putBytes_outside _ _ _ ?_
        by_contra hin
        have hlen : (q.data.take q.len).length ≤ q.len := by rw [List.length_take]; exact Nat.min_le_left _ _
        have hwindow := State.storeReach_window hcls hk (hreach (a - q.addr % 2 ^ 32) (by omega))
        rw [show q.addr % 2 ^ 32 + (a - q.addr % 2 ^ 32) = a by omega] at hwindow
        omega
    · cases hexec'; rfl
  · intro s q k h
    obtain ⟨hk, hmay, b, n, hpart, hlo, hhi⟩ := State.extRoute_guard h
    exact ⟨hk, b, n, hpart, hlo, hhi, State.classMay_key hmay⟩

end Sys2Proof.Machine
end

section
/-! Memory accesses and the MEM and MGD commands (R519 to R549). -/

namespace Sys2Proof.Machine

/-! ### The rows, where their occasion holds -/

theorem exec_storeTierAccess {s : State} {q : MemReq} (hok : q.ok = true) (hin : inStore q.addr = true) (hserve : s.memServes = true)
    (ecc : EccSeen) : exec (.storeTierAccess q ecc) s = .next (s.storeRequest q ecc) := by
  simp only [exec, execStoreTierAccess, hok, hin, hserve, Bool.and_self, if_true]

theorem exec_externalAccess {s : State} {q : MemReq} (hok : q.ok = true) (hin : inExternal q.addr = true) (hserve : s.memServes = true)
    (x : ExtRead) : exec (.externalAccess q x) s = .next (s.extAlong q x (s.extRoute q)) := by
  simp only [exec, execExternalAccess, State.extRequest, hok, hin, hserve, Bool.and_self, if_true]

/-- A request that reaches what it names is served (R519, R522). -/
theorem State.storeAccess_reached {s : State} {q : MemReq} {k : Nat} (hkey : s.keyOf q 0 = some k)
    (hlen : q.addr % 2 ^ 32 + q.len ≤ 2 ^ 32)
    (hreach : (List.range q.len).all (fun i => s.storeReach q.cls k (q.addr % 2 ^ 32 + i)) = true) (ecc : EccSeen) :
    s.storeAccess q ecc =
      if q.write then ({ s with store := putBytes s.store (q.addr % 2 ^ 32) (q.data.take q.len) }, ⟨0, []⟩)
      else match ecc with
        | .clean => (s, ⟨0, bytesAt s.store (q.addr % 2 ^ 32) q.len⟩)
        | .corrected => (s.storeCe (q.addr % 2 ^ 32), ⟨0, bytesAt s.store (q.addr % 2 ^ 32) q.len⟩)
        | .uncorrectable => (s.storeUe (q.addr % 2 ^ 32), ⟨6, []⟩) := by
  simp only [State.storeAccess, hkey, hlen, hreach, and_self, if_true] <;> rfl

/-- A write carries as many bytes as it names. -/
theorem MemReq.data_length {q : MemReq} (hok : q.ok = true) (hwrite : q.write = true) : q.data.length = q.len := by
  simp only [MemReq.ok, hwrite, Bool.not_true, Bool.false_or, Bool.and_eq_true, decide_eq_true_eq] at hok
  exact hok.2

/-- The guard ends the service of a request with its data, a halt, or a response ERR_DATA. -/
theorem Got.finish_eq (q : MemReq) (g : Got (List Byte)) : g.finish q = match g with
    | .ok d s => s.memAnswer q ⟨0, d⟩
    | .halt c ch s => s.enterHalted c ch
    | .noEcc _ s => s.memAnswer q ⟨6, []⟩ := by
  cases g <;> rfl

/-- The oldest admitted request is served by the row of its kind (R537). -/
theorem State.guardNext_serves {s : State} {gs : List GuardSeen} {q : MemReq} {rest : List MemReq} {k : Nat} (hq : s.mem.guardQ = q :: rest)
    (hroom : s.cacheRoom = true) (hserve : s.memServes = true) (hkey : s.keyOf q (keyIdOf q.addr) = some k) :
    s.guardNext q.write gs =
      ({ s.put R.MGD_STATUS F.MGD_STATUS_FRESH 0 with mem := { s.mem with guardQ := rest } } |>.guardServe gs k q).finish q := by
  simp only [State.guardNext, hq, hroom, hserve, State.guardTake, hkey, Option.getD_some, State.put_mem, ne_eq, not_true, Bool.true_eq_false,
    or_self, if_false]

/-- What a COUNTERS command returns and leaves, of the counters `R i` for `i` in `l`. -/
theorem State.counters_map (s : State) (R : Nat → Nat) (l : List Nat) (clear : Bool) :
    s.counters (l.map R) clear =
      (l.map (fun j => s.rd (R j)), if clear then (l.map R).foldl (fun v a => v.wr a 0) s else s) := by
  simp only [State.counters, List.map_map, Function.comp_def]

theorem exec_memCounters_served {s : State} {mb : Nat} (h : s.Serves mb spec_MEM_COUNTERS) (hkeep : (s.msg mb).b 2 0 = false) :
    exec (.memCounters mb) s = s.done mb s
      ((List.range 5).map (fun j => s.rd (R.STC_COUNT j)) ++ (List.range 4).map (fun j => s.rd (R.XMC_COUNT j))) :=
  congrArg Host.Outcome.next (runCommand_ans h rfl (by simp only [hkeep, Bool.false_eq_true, if_false]))

theorem exec_mgdStatus_served {s : State} {mb : Nat} (h : s.Serves mb spec_MGD_STATUS) (hk : (s.msg mb).n 2 5 0 ≠ 0) :
    exec (.mgdStatus mb) s = s.done mb s [s.rd R.MGD_STATUS, s.rd (R.MGD_PART ((s.msg mb).n 2 5 0))] :=
  congrArg Host.Outcome.next (runCommand_ans h (badIf_eq_none.mpr (decide_eq_false hk)) rfl)

/-- A partition of size 0 overlaps none and is not valid (R548). -/
theorem exec_mgdPartition_empty {s : State} {mb : Nat} (h : s.Serves mb spec_MGD_PARTITION)
    (htenant : s.tenants.any (fun r => decide (r.keyId = (s.msg mb).n 2 5 0)) = true) (hsize : (s.msg mb).n 3 9 0 = 0)
    (hbase : (s.msg mb).n 3 25 16 = 0) (hfresh : s.flag R.MGD_STATUS F.MGD_STATUS_FRESH = true) :
    exec (.mgdPartition mb) s = s.done mb (((s.put (R.MGD_PART ((s.msg mb).n 2 5 0)) F.MGD_PART_VALID 0).put
      (R.MGD_PART ((s.msg mb).n 2 5 0)) F.MGD_PART_BASE 0).put (R.MGD_PART ((s.msg mb).n 2 5 0)) F.MGD_PART_SIZE 0) := by
  refine congrArg Host.Outcome.next (runCommand_ans h ?fields ?act)
  case fields => simp [htenant, hsize, hbase]
  case act => simp [hfresh, hsize, hbase, b2n]

theorem exec_mgdCounters_served {s : State} {mb : Nat} (h : s.Serves mb spec_MGD_COUNTERS) :
    exec (.mgdCounters mb) s =
      s.done mb (if (s.msg mb).b 2 0 then ((List.range 6).map R.MGD_COUNT).foldl (fun v a => v.wr a 0) s else s)
        ((List.range 6).map (fun j => s.rd (R.MGD_COUNT j))) :=
  congrArg Host.Outcome.next (runCommand_ans h rfl (by simp only [State.counters_map]))

/-- Settles O42: each clause is its row at a request or command that meets its conditions. -/
theorem memoryAccesses : Obligations.MemoryAccesses := by
  unfold Obligations.MemoryAccesses
  refine ⟨?store, ?external, ?guard, ?scrub, ?evict, ?commands⟩
  case store =>
    intro s q ecc k hok hin hserve hkey htag hlen hreach
    have hexec := fun e => exec_storeTierAccess hok hin hserve e
    have hacc := fun e => State.storeAccess_reached hkey hlen hreach e
    refine ⟨fun hwrite hm => ?_, fun hread => ?_, fun hread => ?_⟩
    · have hreq : s.storeRequest q ecc =
          State.memAnswer { s with store := putBytes s.store (q.addr % 2 ^ 32) (q.data.take q.len) } q ⟨0, []⟩ := by
        simp only [State.storeRequest, hacc, hwrite, if_true]
      refine ⟨_, (hexec ecc).trans (congrArg _ hreq), ?_, ?_, fun a => ?_⟩
      · simp only [State.memAnswer, htag]
      · simp only [State.memAnswer, htag]
      · have hdata : q.data.take q.len = q.data := by rw [← MemReq.data_length hok hwrite, List.take_length]
        rw [State.memAnswer_store, hdata, sget_putBytes hm, MemReq.data_length hok hwrite]
    · rw [hexec, State.storeRequest, hacc, hread]; rfl
    · rw [hexec, State.storeRequest, hacc, hread]; rfl
  case external =>
    intro s q x hok hin hserve
    have hexec := fun x => exec_externalAccess hok hin hserve x
    refine ⟨fun k hr => ?_, fun hr hwrite => ?_, fun hr hread => ?_, fun st hr => ?_⟩
    · rw [hexec, hr]; rfl
    · rw [hexec, hr]
      simp only [State.extAlong, State.plainAccess, hwrite, if_true]
    · rw [hexec, hr]
      simp [State.extAlong, State.plainAccess, hread, State.rereads, ExtRead.ordinary]
    · rw [hexec, hr]; rfl
  case guard =>
    intro s gs q rest k hq hroom hserve hkey v after
    have hnext : Host.Outcome.next (s.guardNext q.write gs) = (.next after : Out) := by
      rw [State.guardNext_serves hq hroom hserve hkey, Got.finish_eq] <;> rfl
    exact ⟨fun hread => by rw [← hnext, hread]; rfl, fun hwrite => by rw [← hnext, hwrite]; rfl⟩
  case scrub =>
    intro s g hg hscrub v
    simp only [exec, execStoreScrubPass, hscrub, show ¬ 8 ≤ g by omega, Bool.true_eq_false, or_self, if_false]
    rfl
  case evict =>
    intro s l n c g hl hl' hserve hcached
    have hcond : ¬(l = 0 ∨ 9 < l ∨ s.memServes = false) := by simp only [hserve, Bool.true_eq_false, or_false]; omega
    refine ⟨fun hclean => ?_, fun u v hmod hevict => ?_⟩
    · simp only [exec, execCounterCacheEviction, hcond, hcached, hclean, Bool.false_eq_true, if_false]
    · simp only [exec, execCounterCacheEviction, hcond, hcached, hmod, hevict, Got.settle, if_false, if_true]
  case commands =>
    intro s mb c k
    exact ⟨fun h => congrArg Host.Outcome.next (runCommand_ans h rfl rfl), fun h => exec_memCounters_served h,
      fun h => exec_mgdStatus_served h, fun h => exec_mgdPartition_empty h, fun h => exec_mgdCounters_served h⟩

end Sys2Proof.Machine
end

section
/-! Register accesses by a master (R18, R54): where the table finds an address, and what a write there does. With them, the mailbox rows
(R61 to R66) and the register whose write shows that THM_CFG is read-only. -/

namespace Sys2Proof.Machine

/-! ### Accesses that reach a register -/

theorem State.access_of_reach {s : State} {m : Master} {a : Nat} (v : Word) (hdev : s.sys.dev ≠ .off) (halign : a % 4 = 0)
    (hreach : busReach m true a = true) : s.access m a v = State.answered m (s.regWrite m a v) := by
  simp only [State.access, State.busWrite, hdev, halign, hreach, ne_eq, not_true, Bool.not_true, Bool.false_eq_true, or_self, if_false]

theorem State.readBy_of_reach {s : State} {m : Master} {a : Nat} (hdev : s.sys.dev ≠ .off) (halign : a % 4 = 0)
    (hreach : busReach m false a = true) :
    s.readBy m a = State.answered m ((s.regRead m a).2.busOk (s.regRead m a).1) := by
  simp only [State.readBy, State.busRead, hdev, halign, hreach, ne_eq, not_true, Bool.not_true, Bool.false_eq_true, or_self, if_false]

/-- An access that no block answers within the master's reach is answered ERR. -/
theorem State.access_of_error {s : State} {m : Master} {a : Nat} (v : Word) (hdev : s.sys.dev ≠ .off)
    (h : a % 4 ≠ 0 ∨ busReach m true a = false) : s.access m a v = State.answered m s.busErr := by
  have hcond : a % 4 ≠ 0 ∨ (!busReach m true a) = true := h.imp_right fun h => by rw [h]; rfl
  simp only [State.access, State.busWrite, if_neg hdev, if_pos hcond]

/-- A response changes no register and no memory. -/
@[simp] theorem State.answered_regs (m : Master) (x : Access) : (State.answered m x).regs = x.2.regs := rfl
@[simp] theorem State.answered_mbx (m : Master) (x : Access) : (State.answered m x).mbx = x.2.mbx := rfl
@[simp] theorem State.answered_host (m : Master) (x : Access) : (State.answered m x).host = x.2.host := rfl
@[simp] theorem State.answered_pwr (m : Master) (x : Access) : (State.answered m x).pwr = x.2.pwr := rfl
@[simp] theorem State.answered_stamp (m : Master) (x : Access) : (State.answered m x).stamp = x.2.stamp := rfl
@[simp] theorem State.answered_dat (m : Master) (x : Access) : (State.answered m x).dat = x.2.dat := rfl
@[simp] theorem State.answered_latch (m : Master) (x : Access) : (State.answered m x).latch = x.2.latch := rfl
@[simp] theorem State.answered_rd (m : Master) (x : Access) (a : Nat) : (State.answered m x).rd a = x.2.rd a := rfl
@[simp] theorem State.answered_full (m : Master) (x : Access) (n : Nat) : (State.answered m x).full n = x.2.full n := rfl
@[simp] theorem State.answered_acked (m : Master) (x : Access) (n : Nat) : (State.answered m x).acked n = x.2.acked n := rfl
@[simp] theorem State.answered_get (m : Master) (x : Access) (a : Nat) (f : Fld) : (State.answered m x).get a f = x.2.get a f := rfl
@[simp] theorem State.answered_bit (m : Master) (x : Access) (a i : Nat) : (State.answered m x).bit a i = x.2.bit a i := rfl

/-! ### Mailbox words -/

theorem mbWordAddr_lt {mb k : Nat} (hmb : mb < 32) (hk : k < 64) : mbWordAddr mb k < 0x2000 := by simp only [mbWordAddr]; omega

theorem mbWordAddr_aligned (mb k : Nat) : mbWordAddr mb k % 4 = 0 := by simp only [mbWordAddr]; omega

/-- A write of a mailbox word. -/
theorem State.access_mbxWord {s : State} {m : Master} {mb k : Nat} (v : Word) (hdev : s.sys.dev ≠ .off) (hmb : mb < 32) (hk : k < 64)
    (hreach : busReach m true (mbWordAddr mb k) = true) : s.access m (mbWordAddr mb k) v = State.answered m (s.mbxWrite m mb k v) := by
  have hbox : mbWordAddr mb k / 0x100 = mb := by simp only [mbWordAddr]; omega
  have hword : mbWordAddr mb k % 0x100 / 4 = k := by simp only [mbWordAddr]; omega
  rw [State.access_of_reach v hdev (mbWordAddr_aligned mb k) hreach, State.regWrite, if_pos (mbWordAddr_lt hmb hk), hbox, hword]

/-- ACK after a post. -/
theorem State.acked_postInto {s : State} (h : s.RegsWf) {mb n : Nat} {ws : List Word} (hmb : mb < 32) (hws : ws.length ≤ 64) :
    (s.postInto mb ws).acked n = if n = mb then false else s.acked n := by
  refine (State.bit_of_rd (State.rd_of_regs (State.postInto_regs s mb ws) _) n).trans ?_
  refine (State.acked_setAck ((h.writeWords mb _).setBit _ _ _) hmb false).trans ?_
  have hout : ¬(mbWordAddr mb 0 ≤ R.MBX_ACK ∧ R.MBX_ACK < mbWordAddr mb (0 + ws.length) ∧ R.MBX_ACK % 4 = mbWordAddr mb 0 % 4) := by
    simp only [mbWordAddr, R.MBX_ACK]; omega
  have hrd := State.rd_writeWords h mb ws 0 R.MBX_ACK
  rw [if_neg hout] at hrd
  refine congrArg (if n = mb then false else ·) ((State.acked_setFull _ mb n true).trans (State.bit_of_rd hrd n))

/-- A register above the mailbox block does not change with a post. -/
theorem State.rd_postInto_other {s : State} (h : s.RegsWf) {mb a : Nat} (hmb : mb < 32) {ws : List Word} (hws : ws.length ≤ 64)
    (ha : 0x3000 ≤ a) : (s.postInto mb ws).rd a = s.rd a := by
  have hout : ¬(mbWordAddr mb 0 ≤ a ∧ a < mbWordAddr mb (0 + ws.length) ∧ a % 4 = mbWordAddr mb 0 % 4) := by
    simp only [mbWordAddr]; omega
  rw [State.rd_of_regs (State.postInto_regs s mb ws), State.rd_setAck_other _ _ (by simp only [R.MBX_ACK]; omega)
    (by simp only [R.MBX_ACKCODE]; omega), State.rd_setBit_other _ _ _ (by simp only [R.MBX_STATUS]; omega), State.rd_writeWords h, if_neg hout]

@[simp] theorem State.setClaim_regs (s : State) (mb : Nat) (c : Option Claim) : (s.setClaim mb c).regs = s.regs := rfl
@[simp] theorem State.setClaim_pwr (s : State) (mb : Nat) (c : Option Claim) : (s.setClaim mb c).pwr = s.pwr := rfl
@[simp] theorem State.setClaim_stamp (s : State) (mb : Nat) (c : Option Claim) : (s.setClaim mb c).stamp = s.stamp := rfl

@[simp] theorem State.postInto_pwr (s : State) (mb : Nat) (ws : List Word) : (s.postInto mb ws).pwr = s.pwr := by
  unfold State.postInto
  dsimp only
  simp only [State.setAck_pwr, State.setBit_pwr]
  exact foldl_keeps (P := fun t : State => t.pwr = s.pwr) (fun t p ht => by rw [State.wr_pwr, ht]) ws.zipIdx rfl

/-- The sheet that a master is, if it is one. -/
def masterSheet : Master → Option Nat
  | .sheet n => some n
  | _ => none

/-- A word other than 0 that its sender may write is stored; a sheet's claims. -/
theorem State.mbxWrite_word {s : State} {m : Master} {mb k : Nat} (v : Word) (hmay : s.mbxRefuses m mb = false) (hk : 1 ≤ k) :
    s.mbxWrite m mb k v = ((s.wr (mbWordAddr mb k) v).setClaim mb ((masterSheet m).map (fun n => ⟨n, s.stamp⟩))).busOk := by
  have hk0 : k ≠ 0 := by omega
  unfold State.mbxWrite
  rw [if_neg (Bool.eq_false_iff.mp hmay), if_pos hk0]
  cases m <;> rfl

/-- Record who posted the message of a mailbox. -/
def State.setPoster (s : State) (mb : Nat) (o : Option Nat) : State :=
  { s with mbx := { s.mbx with poster := sset (fun _ => none) s.mbx.poster mb o } }

@[simp] theorem State.setPoster_regs (s : State) (mb : Nat) (o : Option Nat) : (s.setPoster mb o).regs = s.regs := rfl
@[simp] theorem State.setPoster_pwr (s : State) (mb : Nat) (o : Option Nat) : (s.setPoster mb o).pwr = s.pwr := rfl

/-- A post, before what a wake does with it. -/
def State.posted (s : State) (m : Master) (mb : Nat) (v : Word) : State :=
  (((s.wr (mbWordAddr mb 0) v).setClaim mb none).postInto mb []).setPoster mb (masterSheet m)

theorem State.mbxYarn_of_lt (s : State) {mb : Nat} (hmb : mb < 24) : s.mbxYarn mb = s :=
  if_neg (by omega)

/-- Word 0 that its sender may write posts the message; a host's post may wake (R63, R67). -/
theorem State.mbxWrite_post {s : State} {m : Master} {mb : Nat} (v : Word) (hmay : s.mbxRefuses m mb = false) (hmb : mb < 24) :
    s.mbxWrite m mb 0 v = (if mb < 8 then (s.posted m mb v).wake 0x11 else s.posted m mb v).busOk := by
  unfold State.mbxWrite
  rw [if_neg (Bool.eq_false_iff.mp hmay)]
  extract_lets _ sheet claimed _ posted yarned
  have hsheet : sheet = masterSheet m := by cases m <;> rfl
  have hposted : posted = s.posted m mb v := by
    unfold State.posted; rw [← hsheet]; rfl
  rw [if_neg (not_not_intro rfl), show yarned = posted from State.mbxYarn_of_lt _ hmb, hposted]

/-- Registers after a post. -/
theorem State.posted_regs (s : State) (m : Master) (mb : Nat) (v : Word) :
    (s.posted m mb v).regs = (((s.wr (mbWordAddr mb 0) v).setClaim mb none).postInto mb []).regs := by
  rw [State.posted, State.setPoster_regs]

theorem State.posted_pwr (s : State) (m : Master) (mb : Nat) (v : Word) : (s.posted m mb v).pwr = s.pwr := by
  rw [State.posted, State.setPoster_pwr, State.postInto_pwr, State.setClaim_pwr, State.wr_pwr]

section
variable {s : State} (h : s.RegsWf) (m : Master) {mb : Nat} (hmb : mb < 32) (v : Word)
include h

theorem State.posted_wf : ((s.wr (mbWordAddr mb 0) v).setClaim mb none).RegsWf := (h.wr (mbWordAddr mb 0) v).of_regs rfl

include hmb

theorem State.full_posted (n : Nat) : (s.posted m mb v).full n = if n = mb then true else s.full n := by
  refine (State.bit_of_rd (State.rd_of_regs (State.posted_regs s m mb v) _) n).trans ?_
  refine (State.full_postInto (State.posted_wf h v) hmb (by decide)).trans ?_
  exact congrArg (if n = mb then true else ·) (State.full_wr_word s v (mbWordAddr_lt hmb (by decide)) n)

theorem State.acked_posted (n : Nat) : (s.posted m mb v).acked n = if n = mb then false else s.acked n := by
  refine (State.bit_of_rd (State.rd_of_regs (State.posted_regs s m mb v) _) n).trans ?_
  refine (State.acked_postInto (State.posted_wf h v) hmb (by decide)).trans ?_
  exact congrArg (if n = mb then false else ·) (State.acked_wr_word s v (mbWordAddr_lt hmb (by decide)) n)

theorem State.rd_posted_word : (s.posted m mb v).rd (mbWordAddr mb 0) = v := by
  rw [State.rd_of_regs (State.posted_regs s m mb v), State.rd_postInto_word (State.posted_wf h v) _ (mbWordAddr_lt hmb (by decide)),
    if_neg (by simp only [List.length_nil]; omega)]
  exact State.rd_wr_same h _ v

theorem State.rd_posted_other {a : Nat} (ha : 0x3000 ≤ a) : (s.posted m mb v).rd a = s.rd a := by
  have hword := mbWordAddr_lt hmb (k := 0) (by decide)
  rw [State.rd_of_regs (State.posted_regs s m mb v), State.rd_postInto_other (State.posted_wf h v) hmb (by decide) ha]
  exact State.rd_wr_other s v (by omega)

end

end Sys2Proof.Machine
end

section
/-! The mailbox rows (R61 to R66), and the access codes of THM_CFG (R645). -/

namespace Sys2Proof.Machine

/-! ### What a wake leaves -/

@[simp] theorem State.busOk_snd (s : State) (v : Word) : (s.busOk v).2 = s := rfl
@[simp] theorem State.busErr_snd (s : State) : s.busErr.2 = s := rfl

theorem State.wake_of_none {s : State} (h : s.pwr.dorm = .none) (src : Nat) : s.wake src = s := by
  simp only [State.wake, h]

/-- In DORMANT the first wake is recorded as such, and starts the exit (R479). -/
theorem State.wake_of_dormant {s : State} (h : s.pwr.dorm = .dormant) (hsrc : s.get R.PWR_STATUS F.PWR_STATUS_WAKE_SRC = 0) (src : Nat) :
    (s.wake src).pwr.dorm = .exitPower ∧ (s.wake src).regs = (s.put R.PWR_STATUS F.PWR_STATUS_WAKE_SRC src).regs := by
  simp only [State.wake, h, State.wakeSrc, hsrc, if_true, and_self]

/-! ### MBX_ACKCODE and MBX_ACK -/

/-- What the register table says of an address: its family's base, its indices, and the RW, RWL, W1C and W1S bits. -/
def regFacts (a : Nat) : Option (Nat × List Nat × List Nat) :=
  (regAt a).map (fun x => (x.1.base, x.2, [x.1.rw, x.1.rwl, x.1.w1c, x.1.w1s]))

theorem regAt_of_regFacts {a base rw_ rwl w1c w1s : Nat} {ix : List Nat} (h : regFacts a = some (base, ix, [rw_, rwl, w1c, w1s])) :
    ∃ r, regAt a = some (r, ix) ∧ r.base = base ∧ r.rw = rw_ ∧ r.rwl = rwl ∧ r.w1c = w1c ∧ r.w1s = w1s := by
  obtain ⟨⟨r, ix'⟩, hat, heq⟩ := Option.map_eq_some_iff.mp h
  simp only [Prod.mk.injEq, List.cons.injEq, and_true] at heq
  obtain ⟨hbase, rfl, hrw, hrwl, hw1c, hw1s⟩ := heq
  exact ⟨r, hat, hbase, hrw, hrwl, hw1c, hw1s⟩

theorem regFacts_MBX_ACKCODE : ∀ mb < 32, regFacts (R.MBX_ACKCODE mb) = some (R.MBX_ACKCODE 0, [mb], [0xffff, 0, 0, 0]) := by decide

theorem State.regWrite_MBX_ACKCODE (s : State) (m : Master) {mb : Nat} (hmb : mb < 32) (v : Word) :
    s.regWrite m (R.MBX_ACKCODE mb) v = s.mbxAckcode m mb v := by
  obtain ⟨r, hat, hbase, -⟩ := regAt_of_regFacts (regFacts_MBX_ACKCODE mb hmb)
  have haddr : ¬ R.MBX_ACKCODE mb < 0x2000 := by simp only [R.MBX_ACKCODE]; omega
  simp only [State.regWrite, if_neg haddr, hat, hbase]
  rfl

/-- Ubtor acknowledges a command mailbox of the host (R63). -/
theorem State.mbxAckcode_ubtor {s : State} {mb : Nat} (hmb : mb < 8) (hfull : s.full mb = true) (v : Word) :
    s.mbxAckcode .ubtor mb v = (s.ackWrite mb (v.bits 15 0)).busOk := by
  have hreceiver : s.mbxReceiver .ubtor mb = true := by
    simp only [State.mbxReceiver, Bool.and_eq_true, decide_eq_true_eq]; omega
  have hdat : s.datTaken mb = s := by
    unfold State.datTaken
    rw [if_neg (by omega), if_neg (by omega)]
  simp only [State.mbxAckcode, hreceiver, hfull, Bool.not_true, Bool.or_self, Bool.false_eq_true, if_false, hdat,
    show ¬(20 ≤ mb ∧ mb < 24) by omega, show ¬(8 ≤ mb ∧ mb < 16) by omega]

theorem State.RegsWf.ackWrite {s : State} (h : s.RegsWf) (mb code : Nat) : (s.ackWrite mb code).RegsWf :=
  (((h.put _ _ _).setAck _ _).setBit _ _ _).of_regs (State.ackWrite_regs s mb code)

/-- ACK and FULL after the ACK bits of some mailboxes are cleared in turn. -/
theorem State.foldl_clearAck {s : State} (h : s.RegsWf) (p : Nat → Bool) {l : List Nat} (hl : ∀ m ∈ l, m < 32) (n : Nat) :
    (l.foldl (fun s m => if p m then s.setAck m false else s) s).acked n = (s.acked n && !(l.contains n && p n)) ∧
    (l.foldl (fun s m => if p m then s.setAck m false else s) s).full n = s.full n := by
  induction l generalizing s with
  | nil => exact ⟨(Bool.and_true _).symm, rfl⟩
  | cons m l ih =>
    have hm : m < 32 := hl m List.mem_cons_self
    have hrest : ∀ k ∈ l, k < 32 := fun k hk => hl k (List.mem_cons_of_mem m hk)
    rw [List.foldl_cons, List.contains_cons]
    by_cases hp : p m
    · rw [if_pos hp]
      obtain ⟨hack, hfull⟩ := ih (h.setAck m false) hrest
      refine ⟨?_, hfull.trans (State.full_setAck s m n false)⟩
      rw [hack, State.acked_setAck h hm]
      by_cases hnm : n = m
      · rw [if_pos hnm, hnm, hp, beq_self_eq_true]; simp only [Bool.false_and, Bool.true_or, Bool.true_and, Bool.not_true, Bool.and_false]
      · rw [if_neg hnm, beq_false_of_ne hnm, Bool.false_or]
    · rw [if_neg hp]
      obtain ⟨hack, hfull⟩ := ih h hrest
      refine ⟨?_, hfull⟩
      rw [hack]
      by_cases hnm : n = m
      · rw [hnm, Bool.eq_false_iff.mpr hp, Bool.and_false, Bool.and_false]
      · rw [beq_false_of_ne hnm, Bool.false_or]

/-- A host's write of MBX_ACK clears its own ACK bits (R66). -/
theorem State.mbxAckClear_host (s : State) (v : Word) : s.mbxAckClear .host v =
    ((List.range 32).foldl (fun s m => if v.bit m && decide (m < 8) then s.setAck m false else s) s).busOk := rfl

theorem State.regWrite_MBX_ACK (s : State) (m : Master) (v : Word) : s.regWrite m R.MBX_ACK v = s.mbxAckClear m v := rfl

/-- Settles O8: a word, a post, a post that wakes, an acknowledgement, a clearing write and the end of a claim. -/
theorem mailboxRows : Obligations.MailboxRows := by
  unfold Obligations.MailboxRows
  refine ⟨?word, ?post, ?wake, ?ackcode, ?ackclear, ?claim⟩
  case word =>
    intro s m mb k v hdev hmb hk hk' hmay hreach hruns
    have hexec : exec (.mbxWordWrite m mb k v) s = .next (s.access m (mbWordAddr mb k) v) := if_pos ⟨hmb, hk, hk', hruns⟩
    rw [hexec, State.access_mbxWord v hdev hmb hk' hreach, State.mbxWrite_word v hmay hk]
    cases m <;> simp only [masterSheet, Option.map_none, Option.map_some]
  case post =>
    intro s m mb v hwf hdev hmb hmay hreach hruns hdorm t
    have hmb' : mb < 32 := by omega
    have ht : t = State.answered m (s.posted m mb v).busOk := by
      refine (State.access_mbxWord v hdev hmb' (by decide) hreach).trans ?_
      rw [State.mbxWrite_post v hmay hmb, State.wake_of_none ((congrArg Pwr.dorm (State.posted_pwr s m mb v)).trans hdorm), ite_self]
    have hfull : ∀ n, t.full n = if n = mb then true else s.full n := fun n => by
      rw [ht, State.answered_full, State.busOk_snd]; exact State.full_posted hwf m hmb' v n
    have hacked : ∀ n, t.acked n = if n = mb then false else s.acked n := fun n => by
      rw [ht, State.answered_acked, State.busOk_snd]; exact State.acked_posted hwf m hmb' v n
    refine ⟨if_pos ⟨hmb', hruns⟩, ?_, by rw [hfull, if_pos rfl], by rw [hacked, if_pos rfl], fun n _ hn => ?_⟩
    · rw [ht, State.answered_rd, State.busOk_snd]; exact State.rd_posted_word hwf m hmb' v
    · rw [hfull, hacked, if_neg hn, if_neg hn]; exact ⟨rfl, rfl⟩
  case wake =>
    intro s mb v hwf hdev hdorm hmb hfull hsrc t
    have hmb' : mb < 32 := by omega
    have hon : s.sys.dev ≠ .off := by rw [hdev]; exact nofun
    have hmay : s.mbxRefuses .host mb = false := by
      simp only [State.mbxRefuses, hfull, mbxSender, hmb, decide_true, Bool.not_true, Bool.or_self]
    have hreach : busReach .host true (mbWordAddr mb 0) = true := by
      have haddr := mbWordAddr_lt (k := 0) hmb' (by decide)
      simp only [busReach, inBlock, show mbWordAddr mb 0 < 0x150000 by omega, show mbWordAddr mb 0 < 0x10000 by omega, decide_true,
        Bool.true_or, Bool.and_self]
    have hpost : (s.posted .host mb v).get R.PWR_STATUS F.PWR_STATUS_WAKE_SRC = 0 :=
      (State.get_of_rd (State.rd_posted_other hwf .host hmb' v (by decide)) _).trans hsrc
    have ht : t = State.answered .host ((s.posted .host mb v).wake 0x11).busOk := by
      refine (State.access_mbxWord v hon hmb' (by decide) hreach).trans ?_
      rw [State.mbxWrite_post v hmay (by omega), if_pos hmb]
    obtain ⟨hexit, hregs⟩ := State.wake_of_dormant ((congrArg Pwr.dorm (State.posted_pwr s .host mb v)).trans hdorm) hpost 0x11
    have hwf' : (s.posted .host mb v).RegsWf :=
      (((hwf.wr (mbWordAddr mb 0) v).setBit R.MBX_STATUS mb true).setAck mb false).of_regs
        ((State.posted_regs s .host mb v).trans (State.postInto_regs _ mb []))
    refine ⟨if_pos ⟨hmb', rfl⟩, ?_, ?_, ?_⟩
    · rw [ht, State.answered_full, State.busOk_snd]
      refine (State.bit_of_rd (State.rd_of_regs hregs _) mb).trans ((State.bit_put_other _ _ _ mb (by decide)).trans ?_)
      exact (State.full_posted hwf .host hmb' v mb).trans (if_pos rfl)
    · rw [ht, State.answered_pwr, State.busOk_snd]; exact hexit
    · rw [ht, State.answered_get, State.busOk_snd]
      exact (State.get_of_rd (State.rd_of_regs hregs _) _).trans (State.get_put_same hwf' _ _ _ (by decide) (by decide))
  case ackcode =>
    intro s m mb v hwf hdev hmb hfull hm hruns t
    subst hm
    have hmb' : mb < 32 := by omega
    have hreach : busReach .ubtor true (R.MBX_ACKCODE mb) = true := by
      have haddr : R.MBX_ACKCODE mb < 0x140000 := by simp only [R.MBX_ACKCODE]; omega
      simp only [busReach, inBlock, show R.MBX_ACKCODE mb < 0x150000 by omega, show ¬ 0x140000 ≤ R.MBX_ACKCODE mb by omega, decide_true,
        decide_false, Bool.true_or, Bool.true_and, Bool.false_and, Bool.not_false]
    have halign : R.MBX_ACKCODE mb % 4 = 0 := by simp only [R.MBX_ACKCODE]; omega
    have ht : t = State.answered .ubtor (s.ackWrite mb (v.bits 15 0)).busOk := by
      refine (State.access_of_reach v hdev halign hreach).trans ?_
      rw [State.regWrite_MBX_ACKCODE s .ubtor hmb' v, State.mbxAckcode_ubtor hmb hfull]
    refine ⟨if_pos ⟨hmb', hruns⟩, ?_, ?_, ?_, fun n _ hn => ?_⟩
    · rw [ht, State.answered_full, State.busOk_snd]; exact (State.full_ackWrite hwf hmb' _).trans (if_pos rfl)
    · rw [ht, State.answered_acked, State.busOk_snd]; exact (State.acked_ackWrite hwf hmb' _).trans (if_pos rfl)
    · rw [ht, State.answered_get, State.busOk_snd]
      refine (State.ackcode_ackWrite hwf mb _).trans ?_
      simp only [Word.bits, bitsOf, pow_zero, Nat.div_one, Nat.mod_mod]
    · rw [ht, State.answered_full, State.busOk_snd]; exact (State.full_ackWrite hwf hmb' _).trans (if_neg hn)
  case ackclear =>
    intro s v hwf hdev t
    have ht : t = State.answered .host (s.mbxAckClear .host v) := by
      rw [← State.regWrite_MBX_ACK]; exact State.access_of_reach v hdev (by decide) (by decide)
    refine ⟨rfl, fun n hn => ?_⟩
    obtain ⟨hack, hfull⟩ := State.foldl_clearAck hwf (fun m => v.bit m && decide (m < 8)) (fun m hm => List.mem_range.mp hm) n
    rw [ht, State.mbxAckClear_host, State.answered_acked, State.answered_full, State.busOk_snd]
    refine ⟨hack.trans ?_, hfull⟩
    rw [show (List.range 32).contains n = true from List.contains_iff_mem.mpr (List.mem_range.mpr hn), Bool.true_and, Bool.and_comm (v.bit n)]
  case claim =>
    intro s mb c hclaim
    simp only [exec, execFabricClaimTimeout, hclaim]

/-- Refutes O9: no THM register is writable (R645). After reset THROTTLE_C reads 105, and Ubtor's write of 0 leaves it so. -/
theorem not_registerWrites : ¬ Obligations.RegisterWrites := by
  unfold Obligations.RegisterWrites
  intro ⟨_, _, ⟨hthm, _, _⟩, _⟩
  obtain ⟨_, hget, _⟩ := hthm State.reset 0 rfl nofun
  exact absurd hget (by decide +kernel)

end Sys2Proof.Machine
end

section
/-! Entry to BOOT, and the SYS commands: reset, causes, state orders, sessions, firmware updates, lockstep pairs (R46, R56, R72, R78 to
R92). -/

namespace Sys2Proof.Machine

/-! ### What an interrupt and an entry to a state leave -/

section
variable (s : State) (v : Nat)

@[simp] theorem State.msixSend_sys : (s.msixSend v).sys = s.sys := by unfold State.msixSend; dsimp only [State.hostWrite]
@[simp] theorem State.msixSend_stamp : (s.msixSend v).stamp = s.stamp := by unfold State.msixSend; dsimp only [State.hostWrite]
@[simp] theorem State.msixSend_svy : (s.msixSend v).svy = s.svy := by unfold State.msixSend; dsimp only [State.hostWrite]
@[simp] theorem State.msixSend_mbx : (s.msixSend v).mbx = s.mbx := by unfold State.msixSend; dsimp only [State.hostWrite]
@[simp] theorem State.msixSend_streams : (s.msixSend v).streams = s.streams := by unfold State.msixSend; dsimp only [State.hostWrite]

@[simp] theorem State.msix_sys : (s.msix v).sys = s.sys := by unfold State.msix; split <;> simp
@[simp] theorem State.msix_stamp : (s.msix v).stamp = s.stamp := by unfold State.msix; split <;> simp
@[simp] theorem State.msix_svy : (s.msix v).svy = s.svy := by unfold State.msix; split <;> simp
@[simp] theorem State.msix_mbx : (s.msix v).mbx = s.mbx := by unfold State.msix; split <;> simp
@[simp] theorem State.msix_streams : (s.msix v).streams = s.streams := by unfold State.msix; split <;> simp

end

section
variable (s : State) (d : DevState)

@[simp] theorem State.enter_sys : (s.enter d).sys = { s.sys with dev := d } := by
  unfold State.enter
  split
  · rename_i h; rw [← h]
  · rw [State.msix_sys]

@[simp] theorem State.enter_stamp : (s.enter d).stamp = s.stamp := by unfold State.enter; split <;> simp
@[simp] theorem State.enter_svy : (s.enter d).svy = s.svy := by unfold State.enter; split <;> simp
@[simp] theorem State.enter_mbx : (s.enter d).mbx = s.mbx := by unfold State.enter; split <;> simp
@[simp] theorem State.enter_streams : (s.enter d).streams = s.streams := by unfold State.enter; split <;> simp

end

/-! ### Entry to BOOT -/

/-- `t` differs from `s` in its registers only. -/
def State.RegsOnly (s t : State) : Prop := t = { s with regs := t.regs }

theorem State.RegsOnly.refl (s : State) : s.RegsOnly s := rfl

theorem State.RegsOnly.trans {s t u : State} (h : s.RegsOnly t) (g : t.RegsOnly u) : s.RegsOnly u := by
  unfold State.RegsOnly at *
  rw [g, h]

theorem State.RegsOnly.wr {s t : State} (h : s.RegsOnly t) (k : Nat) (v : Word) : s.RegsOnly (t.wr k v) := h.trans rfl
theorem State.RegsOnly.put {s t : State} (h : s.RegsOnly t) (k : Nat) (f : Fld) (v : Nat) : s.RegsOnly (t.put k f v) := h.trans rfl

theorem State.spareColumn_regsOnly (s : State) (n c : Nat) : s.RegsOnly ((s.spareColumn n c).getD s) := by
  simp only [State.spareColumn]
  cases spareColumns (s.get (R.SHT_REPAIR n) F.SHT_REPAIR_SPARE_AT0) (s.get (R.SHT_REPAIR n) F.SHT_REPAIR_SPARE_AT1) c with
  | none => exact .refl s
  | some p => exact (State.RegsOnly.refl s).put _ _ _ |>.put _ _ _

/-- A fused repair is written to registers (R626). -/
theorem State.fusedRepair_regsOnly (s : State) (r : Repair) : s.RegsOnly (s.fusedRepair r) := by
  unfold State.fusedRepair
  split
  · exact (State.RegsOnly.refl s).put _ _ _ |>.put _ _ _
  · exact (s.spareColumn_regsOnly _ _).put _ _ _
  · exact (State.RegsOnly.refl s).wr _ _
  · exact .refl s

theorem State.fusedRepairs_regsOnly (l : List Repair) (s : State) : s.RegsOnly (l.foldl State.fusedRepair s) := by
  induction l generalizing s with
  | nil => exact .refl s
  | cons r l ih => exact (s.fusedRepair_regsOnly r).trans (ih _)

/-- What an entry to BOOT at the stamp `now` leaves of the device's own state (R46, R49): the straps, the rails and the flash stay. -/
def Sys.atBoot (y : Sys) (now : Nat) : Sys :=
  { y with
    dev := .boot, session := none, resetAt := none, fwUpdate := none, bootAt := now, xtalStable := false, fwSlot := .slotA,
    imagesLeft := bootOrder y.straps y.prefer,
    prevSession := match y.session with | some e => e.id | none => y.prevSession }

theorem State.enterBoot_fields (s : State) (link : Bool) :
    (s.enterBoot link).sys = s.sys.atBoot s.stamp ∧
    (s.enterBoot link).stamp = s.stamp ∧ (s.enterBoot link).svy = Survey.init ∧ (s.enterBoot link).mbx.open_ = [] ∧
    (s.enterBoot link).streams = [] := by
  unfold State.enterBoot
  extract_lets +onlyGivenNames old t1 t2 t3 t4
  have h2 : t2.sys = t1.sys ∧ t2.stamp = t1.stamp ∧ t2.svy = t1.svy ∧ t2.mbx = t1.mbx ∧ t2.streams = t1.streams := by
    simp only [t2]
    split <;> simp [State.gazLoad]
  have h3 : t2.RegsOnly t3 := State.fusedRepairs_regsOnly _ _
  have h4 : t2.RegsOnly t4 := by
    refine h3.trans ?_
    simp only [t4]
    split
    · exact (State.RegsOnly.refl t3).wr _ _
    · exact .refl t3
  clear_value t4
  unfold State.RegsOnly at h4
  have hsys : t4.sys = t1.sys := by rw [h4]; exact h2.1
  have hstamp : t4.stamp = t1.stamp := by rw [h4]; exact h2.2.1
  have hsvy : t4.svy = t1.svy := by rw [h4]; exact h2.2.2.1
  have hmbx : t4.mbx = t1.mbx := by rw [h4]; exact h2.2.2.2.1
  have hstreams : t4.streams = t1.streams := by rw [h4]; exact h2.2.2.2.2
  cases link <;>
    simp [hsys, hstamp, hsvy, hmbx, hstreams, t1, old, State.bootCleared, State.dropWork, State.abandonOpen, Mbx.init, Sys.atBoot] <;> rfl

/-! ### SYS.RESET and SYS.CAUSE_CLEAR (R88, R89) -/

/-- Settles O12: a reset that falls due enters BOOT. -/
theorem sysResetAndCauses : Obligations.SysResetAndCauses := by
  unfold Obligations.SysResetAndCauses
  refine ⟨?reset, ?key, ?due, ?clear⟩
  case reset =>
    intro s mb h hkey hnone
    exact congrArg Host.Outcome.next (runCommand_ans h (badIf_eq_none.mpr (by simp [hkey])) (by simp [hnone]))
  case key =>
    intro s mb h hkey
    exact congrArg Host.Outcome.next (runCommand_field h (badIf_eq_some (by simpa using hkey)))
  case due =>
    intro s at_ hat t
    obtain ⟨hsys, hstamp, hsvy, hopen, hstreams⟩ := (s.reach at_).enterBoot_fields true
    refine ⟨by simp only [exec, execSysResetDelayExpiry, hat]; rfl, ?_, ?_, ?_, ?_, ?_, hopen, hstreams⟩
    · exact congrArg Sys.dev hsys
    · exact hstamp ▸ le_max_right _ _
    · exact congrArg Sys.resetAt hsys
    · exact congrArg Sys.session hsys
    · exact congrArg Survey.committed hsvy
  case clear =>
    intro s mb h
    exact congrArg Host.Outcome.next (runCommand_ans h rfl rfl)

/-! ### Sessions and firmware updates (R78 to R80, R90 to R92) -/

/-- A session identifier is 16 bits wide, not 0 and not the previous one (R79). -/
theorem State.sessionId_range (s : State) : 1 ≤ s.sessionId.1 ∧ s.sessionId.1 < 2 ^ 16 ∧ s.sessionId.1 ≠ s.sys.prevSession := by
  simp only [State.sessionId]
  generalize (Config.trng s.draw.1).toNat = n
  split
  · omega
  · omega

theorem exec_sysExpertOpen_served {s : State} {mb : Nat} (h : s.Serves mb spec_SYS_EXPERT_OPEN) (hidle : (s.msg mb).n 2 15 0 ≤ 3600)
    (hpolicy : s.policy 0 = true) (hnone : s.sys.session = none) :
    exec (.sysExpertOpen mb) s = s.done mb { s.sessionId.2 with sys := { s.sessionId.2.sys with
      session := some ⟨s.sessionId.1, if (s.msg mb).n 2 15 0 = 0 then 600 else (s.msg mb).n 2 15 0, s.stamp⟩ } }
      [word s.sessionId.1] := by
  refine congrArg Host.Outcome.next (runCommand_ans h (badIf_eq_none.mpr (by simpa using hidle)) ?_)
  simp [hpolicy, hnone]

theorem exec_fwUpdateComplete {s : State} {id arg : Nat} {c : OpenCmd} {image : List Byte} (hrun : s.sys.fwUpdate = some id)
    (hopen : s.openById id = some c) (hargs : c.args = [arg, image.length]) :
    let s' := { s with sys := { s.sys with fwUpdate := none } }
    exec (.fwUpdateComplete .fetchFailed) s = .next (s'.complete id .BUSY) ∧
    exec (.fwUpdateComplete (.fetched image)) s =
      if Config.fwVerifies image then
        let w := (s'.stageImage image).flashWrite (imageSlot (arg % 2 == 1)).region image
        .next ((if 2 ≤ arg then { w with sys := { w.sys with prefer := imageSlot (arg % 2 == 1) } } else w).complete id .DONE)
      else .next ((s'.stageImage image).complete id .AUTH_FAILED) := by
  refine ⟨?_, ?_⟩
  · simp only [exec, execFwUpdateComplete, hrun]
  · simp only [exec, execFwUpdateComplete, hrun, hopen, hargs, List.getD_cons_succ, List.getD_cons_zero, ne_eq, not_true, if_false]

/-- Settles O13: the rows of sessions and firmware updates where their conditions hold. -/
theorem sessionsAndFirmware : Obligations.SessionsAndFirmware := by
  unfold Obligations.SessionsAndFirmware
  refine ⟨⟨?open_, ?close, ?timeout⟩, ?update, ?complete⟩
  case open_ =>
    intro s mb h hidle hpolicy hnone
    obtain ⟨hpos, hlt, hprev⟩ := s.sessionId_range
    exact ⟨_, _, exec_sysExpertOpen_served h hidle hpolicy hnone, hpos, hlt, hprev, rfl, rfl⟩
  case close =>
    intro s mb e h hsession hid
    exact congrArg Host.Outcome.next
      (runCommand_ans h (badIf_eq_none.mpr (by simp [hsession, hid])) (by simp [State.closeSession, hsession]))
  case timeout =>
    intro s e hsession hpair
    simp only [exec, execSessionIdleTimeout, hsession, State.duty, hpair, Bool.false_eq_true, if_false, State.closeSession, State.reach,
      Session.ends]
  case update =>
    intro s mb h hzero hpos hle hslot hnone
    exact congrArg Host.Outcome.next
      (runCommand_acc h (badIf_eq_none.mpr (by simp only [decide_eq_false_iff_not]; omega)) (by simp [hslot, hnone]))
  case complete =>
    intro s id c arg image hrun hopen hargs s'
    obtain ⟨hfailed, hfetched⟩ := exec_fwUpdateComplete hrun hopen hargs
    exact ⟨hfailed, fun hbad => by rw [hfetched, hbad]; rfl, fun hgood => by rw [hfetched, hgood]; rfl⟩

/-! ### State orders (R86, R87) -/

/-- Settles O14: the order is accepted in the state from which the host may give it, and NOT_PERMITTED otherwise. -/
theorem stateOrders : Obligations.StateOrders := by
  unfold Obligations.StateOrders
  refine ⟨?accepted, ?refused⟩
  case accepted =>
    intro s mb h hhost hdorm hopen
    refine ⟨fun ht hdev => ?_, fun ht hdev => ?_, fun ht hdev => ?_⟩
    · refine congrArg (fun u => Host.Outcome.next (State.stateReached u)) (runCommand_acc h (badIf_eq_none.mpr (by simp [ht])) ?_)
      rcases hdev with hdev | hdev <;> simp [hhost, ht, State.mayEnter, hdev, hdorm, hopen, DevState.code]
    · refine congrArg (fun u => Host.Outcome.next (State.stateReached u)) (runCommand_acc h (badIf_eq_none.mpr (by simp [ht])) ?_)
      simp [hhost, ht, State.mayEnter, hdev, hdorm, hopen, DevState.code]
    · refine congrArg (fun u => Host.Outcome.next (State.stateReached u)) (runCommand_acc h (badIf_eq_none.mpr (by simp [ht])) ?_)
      simp [hhost, ht, State.mayEnter, hdev, hdorm, hopen]
  case refused =>
    intro s mb h ht hno
    refine congrArg (fun u => Host.Outcome.next (State.stateReached u)) (runCommand_ans h (badIf_eq_none.mpr ?_) ?_)
    · simp only [decide_eq_false_iff_not]; omega
    · rcases hno with hno | hno <;> simp [hno]

/-! ### Header checks and lockstep pairs (R56, R72) -/

theorem headerCheck_codes {codes : List Nat} {c : Cmd} {rc : RetCode} (h : headerCheck codes c = some rc) :
    rc = .BAD_LENGTH ∨ rc = .BAD_COMMAND := by
  unfold headerCheck at h
  split at h
  · exact .inl (Option.some.inj h).symm
  · split at h
    · exact .inr (Option.some.inj h).symm
    · split at h
      · exact .inr (Option.some.inj h).symm
      · exact absurd h nofun

/-- A message of a pair in reset does not start. -/
theorem State.startable_of_inReset {t : State} {mb : Nat} (h : t.mbx.pairsInReset.contains (pairOf mb) = true) :
    t.startable mb = false := by
  have hno : t.pairRuns (pairOf mb) = false := by simp only [State.pairRuns, h, Bool.not_true, Bool.false_and]
  simp only [State.startable, hno, Bool.and_false, Bool.false_and]

/-- Settles O15: the checks 1 to 3 and the reset of a pair. -/
theorem headersAndLockstep : Obligations.HeadersAndLockstep := by
  unfold Obligations.HeadersAndLockstep
  refine ⟨?header, ?disagree, ?resume⟩
  case header =>
    intro s mb rc hstart hcheck hqueue
    refine ⟨?_, headerCheck_codes hcheck⟩
    simp only [exec, execUndefinedCommand, hstart, hcheck, if_true, show ¬ 16 ≤ s.queued mb by omega, false_and, if_false]
  case disagree =>
    intro s pair cut hpair hruns hserving held t
    refine ⟨?_, fun mb hmb => State.startable_of_inReset (by simp [hmb, t])⟩
    simp only [exec, execLockstepDisagreement, hruns, hserving, show ¬ 4 ≤ pair by omega, Bool.true_eq_false, or_self, if_false]
    rfl
  case resume =>
    intro s pair hreset v
    refine ⟨fun hcut => ?_, fun hcut => ?_⟩
    · simp only [exec, execLockstepPairResume, hreset, hcut, if_true, Bool.false_eq_true, if_false]; rfl
    · simp only [exec, execLockstepPairResume, hreset, hcut, if_true]; rfl

end Sys2Proof.Machine
end

section
/-! Start-up, the survey commands, and the device right after reset (R96 to R118). -/

namespace Sys2Proof.Machine

/-! ### What completing a command leaves -/

/-- All of the state but registers, mailboxes and links: what an answer does not touch. -/
def State.unposted (s : State) : State := { s with regs := [], mbx := Mbx.init, links := Links.init }

@[simp] theorem State.wr_unposted (s : State) (k : Nat) (v : Word) : (s.wr k v).unposted = s.unposted := rfl
@[simp] theorem State.put_unposted (s : State) (k : Nat) (f : Fld) (v : Nat) : (s.put k f v).unposted = s.unposted :=
  s.wr_unposted k _
@[simp] theorem State.setBit_unposted (s : State) (k i : Nat) (b : Bool) : (s.setBit k i b).unposted = s.unposted :=
  s.put_unposted k _ _
@[simp] theorem State.setAck_unposted (s : State) (mb : Nat) (b : Bool) : (s.setAck mb b).unposted = s.unposted := by
  unfold State.setAck; simp only [State.put_unposted, State.setBit_unposted]
@[simp] theorem State.setOutq_unposted (s : State) (mb : Nat) (q : List OutMsg) : (s.setOutq mb q).unposted = s.unposted := rfl
@[simp] theorem State.setYport_unposted (s : State) (p : Nat) (y : YPort) : (s.setYport p y).unposted = s.unposted := rfl
@[simp] theorem State.withMbx_unposted (s : State) (m : Mbx) : State.unposted { s with mbx := m } = s.unposted := rfl

theorem foldl_unposted {β : Type} {f : State → β → State} (hf : ∀ s b, (f s b).unposted = s.unposted) (l : List β) (s : State) :
    (l.foldl f s).unposted = s.unposted :=
  foldl_keeps (P := fun t => t.unposted = s.unposted) (fun t b h => (hf t b).trans h) l rfl

@[simp] theorem State.postInto_unposted (s : State) (mb : Nat) (ws : List Word) : (s.postInto mb ws).unposted = s.unposted := by
  unfold State.postInto
  dsimp only
  rw [State.withMbx_unposted, State.setAck_unposted, State.setBit_unposted]
  exact foldl_unposted (fun t p => t.wr_unposted _ _) _ s

@[simp] theorem State.yarnPost_unposted (s : State) (m : YMsg) : (s.yarnPost m).unposted = s.unposted := by
  unfold State.yarnPost
  split
  · unfold State.yarnPump
    dsimp only
    split
    · simp only [State.setYport_unposted]
    · split <;> simp only [State.postInto_unposted, State.setYport_unposted]
  · rfl

@[simp] theorem State.flushOne_unposted (s : State) (mb : Nat) : (s.flushOne mb).unposted = s.unposted := by
  unfold State.flushOne
  split
  · split
    · split
      · rfl
      · split
        · rw [State.yarnPost_unposted, State.setOutq_unposted]
        · split
          · rfl
          · dsimp only
            rw [State.withMbx_unposted, State.postInto_unposted, State.setOutq_unposted]
    · rfl
  · rfl

@[simp] theorem State.flush_unposted (s : State) (mb : Nat) : (s.flush mb).unposted = s.unposted :=
  foldl_unposted (fun t _ => t.flushOne_unposted mb) _ s

@[simp] theorem State.complete_unposted (s : State) (id : Nat) (rc : RetCode) (data : List Word) :
    (s.complete id rc data).unposted = s.unposted := by
  unfold State.complete
  split
  · rfl
  · simp only [State.flush_unposted, State.setOutq_unposted, State.withMbx_unposted]

@[simp] theorem State.complete_svy (s : State) (id : Nat) (rc : RetCode) (data : List Word) : (s.complete id rc data).svy = s.svy :=
  (congrArg State.svy (s.complete_unposted id rc data) :)
@[simp] theorem State.complete_sys (s : State) (id : Nat) (rc : RetCode) (data : List Word) : (s.complete id rc data).sys = s.sys :=
  (congrArg State.sys (s.complete_unposted id rc data) :)

/-! ### Supplies, power-on reset, PERST#, crystal and images -/

theorem State.powerOn_sys (s : State) (st : Straps) :
    (s.powerOn st).sys = Sys.atBoot { s.sys with straps := st, hiZ := false } s.stamp := by
  unfold State.powerOn
  rw [State.gazInc_sys]
  exact (State.enterBoot_fields _ false).1

theorem State.powerOn_stamp (s : State) (st : Straps) : (s.powerOn st).stamp = s.stamp := by
  unfold State.powerOn
  rw [State.gazInc_stamp]
  exact (State.enterBoot_fields _ false).2.1

/-- A queue's state put to 0 is 0 from then on, and so is every state that was. -/
theorem State.qState_setQState_zero {s : State} (h : s.RegsWf) {q p : Nat} (hp : p = q ∨ s.qState p = 0) : (s.setQState q 0).qState p = 0 := by
  unfold State.qState State.setQState at *
  by_cases hk : R.DMA_QSTATUS p = R.DMA_QSTATUS q
  · rw [hk, State.get_put_same h _ _ _ (by decide) (by decide), Nat.zero_mod]
  · rw [State.get_put_other s _ _ _ hk]
    exact hp.resolve_left (fun hpq => hk (congrArg _ hpq))

theorem State.perst_queues {s : State} (h : s.RegsWf) (l : List Nat) :
    (l.foldl (fun v q => (v.setQState q 0).setDmaQ q DmaQ.init) s).RegsWf ∧
    (l.foldl (fun v q => (v.setQState q 0).setDmaQ q DmaQ.init) s).sys = s.sys ∧
    ∀ p, p ∈ l ∨ s.qState p = 0 → (l.foldl (fun v q => (v.setQState q 0).setDmaQ q DmaQ.init) s).qState p = 0 := by
  induction l generalizing s with
  | nil => exact ⟨h, rfl, fun p hp => hp.resolve_left List.not_mem_nil⟩
  | cons q l ih =>
    have hput : (s.setQState q 0).RegsWf := h.put _ _ _
    have hq : ((s.setQState q 0).setDmaQ q DmaQ.init).regs = (s.setQState q 0).regs := State.setDmaQ_regs _ _ _
    obtain ⟨hwf, hsys, hstate⟩ := ih (hput.of_regs hq)
    have hzero : ∀ p, p = q ∨ s.qState p = 0 → ((s.setQState q 0).setDmaQ q DmaQ.init).qState p = 0 := fun p hp =>
      (State.get_of_rd (State.rd_of_regs hq _) _).trans (State.qState_setQState_zero h hp)
    refine ⟨hwf, hsys.trans ?_, fun p hp => hstate p ?_⟩
    · rw [State.setDmaQ_sys, State.setQState, State.put_sys]
    · rcases hp with hp | hp
      · exact (List.mem_cons.mp hp).elim (fun hpq => .inr (hzero p (.inl hpq))) .inl
      · exact .inr (hzero p (.inr hp))

theorem State.pcieDown_qState (s : State) (q : Nat) : s.pcieDown.qState q = s.qState q := by
  have hk : R.DMA_QSTATUS q ≠ R.PCI_STATUS := by simp only [R.DMA_QSTATUS, R.PCI_STATUS]; omega
  unfold State.qState State.pcieDown
  rw [State.get_put_other _ _ _ _ hk, State.get_put_other _ _ _ _ hk, State.get_put_other _ _ _ _ hk]

theorem State.pcieDown_linkUp {s : State} (h : s.RegsWf) : s.pcieDown.get R.PCI_STATUS F.PCI_STATUS_LINK_UP = 0 := by
  unfold State.pcieDown
  rw [State.get_put_field ((h.put _ _ _).put _ _ _) _ _ _ _ (by decide) (by decide) (by decide),
    State.get_put_field (h.put _ _ _) _ _ _ _ (by decide) (by decide) (by decide),
    State.get_put_same h _ _ _ (by decide) (by decide), Nat.zero_mod]

theorem exec_perstAssert {s : State} (h : s.RegsWf) (hdev : s.sys.dev ≠ .off) (hperst : s.sys.perst = false) :
    let v : State := { s with sys := { s.sys with perst := true } }
    let t := ((List.range 32).foldl (fun v q => (v.setQState q 0).setDmaQ q DmaQ.init) (v.gazInc 2)).pcieDown
    exec .perstAssert s = .next t ∧ t.sys.perst = true ∧ t.get R.PCI_STATUS F.PCI_STATUS_LINK_UP = 0 ∧
      (∀ q < 32, t.qState q = 0) ∧ t.sys.dev = s.sys.dev := by
  intro v t
  have hv : (v.gazInc 2).RegsWf := h
  obtain ⟨hwf, hsys, hstate⟩ := State.perst_queues hv (List.range 32)
  have ht : t.sys = v.sys := by
    simp only [t, State.pcieDown, State.put_sys]
    exact hsys
  refine ⟨?_, ?_, State.pcieDown_linkUp hwf, fun q hq => ?_, ?_⟩
  · simp only [exec, execPerstAssert, hperst, Bool.false_eq_true, if_false, hdev]
    rfl
  · rw [ht]
  · rw [State.pcieDown_qState]
    exact hstate q (.inl (List.mem_range.mpr hq))
  · rw [ht]

theorem State.get_withSys (s : State) (y : Sys) (k : Nat) (f : Fld) : State.get { s with sys := y } k f = s.get k f := rfl

theorem exec_xtalStable {s : State} (h : s.RegsWf) (hdev : s.sys.dev ≠ .off) (hwait : s.sys.xtalStable = false) :
    let v := s.reach (s.sys.bootAt + 4 ^ s.sys.straps.xtalWait * 1000000)
    let v := (v.put R.CKI_STATUS F.CKI_STATUS_XTAL_OK 1).put R.CKI_STATUS F.CKI_STATUS_STAMP_XTAL 1
    let t : State := { v with sys := { v.sys with xtalStable := true } }
    exec .xtalStable s = .next t ∧ t.sys.xtalStable = true ∧ t.get R.CKI_STATUS F.CKI_STATUS_XTAL_OK = 1 ∧
      t.get R.CKI_STATUS F.CKI_STATUS_STAMP_XTAL = 1 ∧
      t.stamp = max s.stamp (s.sys.bootAt + 4 ^ s.sys.straps.xtalWait * 1000000) := by
  intro v v' t
  have hv : v.RegsWf := h
  have hrd : ∀ f, t.get R.CKI_STATUS f = v'.get R.CKI_STATUS f := fun f => State.get_withSys _ _ _ _
  have hgo : ¬(s.sys.dev = .off ∨ s.sys.xtalStable = true) := by simp [hdev, hwait]
  refine ⟨if_neg hgo, rfl, ?_, ?_, ?_⟩
  · rw [hrd, State.get_put_field (hv.put _ _ _) _ _ _ _ (by decide) (by decide) (by decide),
      State.get_put_same hv _ _ _ (by decide) (by decide)]
    rfl
  · rw [hrd, State.get_put_same (hv.put _ _ _) _ _ _ (by decide) (by decide)]
    rfl
  · simp only [t, v', State.put_stamp, v, State.reach]

theorem State.pcieUp_fields {s : State} (h : s.RegsWf) {speed width : Nat} (hspeed : speed ≤ 5) (hwidth : width < 16) :
    (s.pcieUp speed width).get R.PCI_STATUS F.PCI_STATUS_LINK_UP = 1 ∧
    (s.pcieUp speed width).get R.PCI_STATUS F.PCI_STATUS_SPEED = min speed s.host.targetSpeed ∧
    (s.pcieUp speed width).get R.PCI_STATUS F.PCI_STATUS_WIDTH = width := by
  have h1 := h.put R.PCI_STATUS F.PCI_STATUS_LINK_UP 1
  have h2 := h1.put R.PCI_STATUS F.PCI_STATUS_SPEED (min speed s.host.targetSpeed)
  unfold State.pcieUp
  refine ⟨?_, ?_, ?_⟩
  · rw [State.get_put_field h2 _ _ _ _ (by decide) (by decide) (by decide),
      State.get_put_field h1 _ _ _ _ (by decide) (by decide) (by decide), State.get_put_same h _ _ _ (by decide) (by decide)]
    rfl
  · rw [State.get_put_field h2 _ _ _ _ (by decide) (by decide) (by decide), State.get_put_same h1 _ _ _ (by decide) (by decide)]
    exact Nat.mod_eq_of_lt (lt_of_le_of_lt (min_le_left _ _) (lt_of_le_of_lt hspeed (by decide)))
  · rw [State.get_put_same h2 _ _ _ (by decide) (by decide)]
    exact Nat.mod_eq_of_lt (lt_of_lt_of_le hwidth (by decide))

/-- The state in which the boot ROM tries an image, its keys drawn (R540). -/
def State.keyed (s : State) : State := if s.flag R.MGD_STATUS F.MGD_STATUS_KEYS = true then s else s.drawKeys

theorem State.keyed_sys (s : State) : s.keyed.sys = s.sys := by
  unfold State.keyed
  split
  · rfl
  · simp only [State.drawKeys, State.put_sys]

theorem State.keyed_gaz (s : State) : s.keyed.gaz = s.gaz := by
  unfold State.keyed
  split
  · rfl
  · simp only [State.drawKeys, State.put_gaz]

theorem State.journal_sys (s : State) (kind sub inst : Nat) (d0 d1 : Word) : (s.journal kind sub inst d0 d1).sys = s.sys := by
  unfold State.journal; split <;> simp

theorem State.journal_length (s : State) (kind sub inst : Nat) (d0 d1 : Word) :
    s.gaz.journal.length ≤ (s.journal kind sub inst d0 d1).gaz.journal.length := by
  unfold State.journal
  split
  · simp
  · simp [State.gazInc]

theorem exec_bootImageTried {s : State} {img : Image} {rest : List Image} (himages : s.sys.imagesLeft = img :: rest)
    (hdev : s.sys.dev = .boot) (hxtal : s.sys.xtalStable = true) :
    (∀ v, exec (.bootImageTried (.pass v)) s =
      .next ({ s.keyed with sys := { s.keyed.sys with fwSlot := img, fwVersion := v, imagesLeft := [] } }.enter .ready)) ∧
    (∀ n, exec (.bootImageTried (.fail n)) s =
      let k := (s.keyed.gazInc 68).journal 0x01 (0x10 + max 1 (min n 4)) img.code 0 0
      let k : State := { k with sys := { k.sys with imagesLeft := rest } }
      .next (if rest.isEmpty then k.journal 0x02 0 0 0 0 else k)) := by
  refine ⟨fun v => ?_, fun n => ?_⟩ <;>
    simp only [exec, execBootImageTried, himages, hdev, hxtal, ne_eq, not_true, Bool.true_eq_false, or_self, if_false] <;> rfl

theorem exec_powerOnResetRelease {s : State} {b x c p at_ : Nat} (hdev : s.sys.dev = .off) (hat : s.sys.allValidAt = some at_)
    (hb : b < 4) (hx : x < 4) (hc : c < 2) (hp : p < 4) :
    exec (.powerOnResetRelease b x c p) s = .next ((s.reach (at_ + 2000000)).powerOn ⟨b, x, c, p⟩) := by
  simp only [exec, execPowerOnResetRelease, hdev, hat, Nat.mod_eq_of_lt hb, Nat.mod_eq_of_lt hx, Nat.mod_eq_of_lt hc,
    Nat.mod_eq_of_lt hp]

/-- Settles O7: each clause is its row where its occasion holds, with what an entry to BOOT and the loss of power leave. -/
theorem startUp : Obligations.StartUp := by
  unfold Obligations.StartUp
  refine ⟨⟨?valid, ?release, ?loss, ?other, ?aon⟩, ⟨?assert, ?deassert, ?xtal, ?link⟩, ?pass, ?fail⟩
  case valid =>
    intro s r hnew
    simp only [exec, execSupplyValid, hnew, Bool.false_eq_true, if_false]
  case release =>
    intro s b x c p at_ hdev hat hb hx hc hp t
    have hsys := (s.reach (at_ + 2000000)).powerOn_sys ⟨b, x, c, p⟩
    exact ⟨exec_powerOnResetRelease hdev hat hb hx hc hp, congrArg Sys.dev hsys, congrArg Sys.straps hsys, congrArg Sys.hiZ hsys,
      State.powerOn_stamp _ _⟩
  case loss =>
    intro s r hmon v t
    refine ⟨?_, rfl, rfl, rfl, rfl, rfl, rfl⟩
    simp only [exec, execSupplyLoss, hmon, if_true]
    rfl
  case other =>
    intro s r hr
    have hmon : monitoredRails.contains r = false := by rcases hr with rfl | rfl <;> decide
    simp only [exec, execSupplyLoss, hmon, Bool.false_eq_true, if_false]
  case aon =>
    intro s v t
    exact ⟨rfl, rfl, rfl, rfl, rfl, rfl⟩
  case assert =>
    intro s h hdev hperst
    exact exec_perstAssert h hdev hperst
  case deassert =>
    intro s hdev hperst v t
    obtain ⟨hsys, -⟩ := v.enterBoot_fields false
    refine ⟨?_, (congrArg Sys.perst hsys :), congrArg Sys.dev hsys, (congrArg Sys.straps hsys :), congrArg Sys.session hsys⟩
    simp only [exec, execPerstRelease, hperst, hdev, if_true, if_false]
    rfl
  case xtal =>
    intro s h hdev hwait
    exact exec_xtalStable h hdev hwait
  case link =>
    intro s speed width h hend hdown hlo hhi hwidth htarget t
    have hlt : width < 16 := by
      simp only [List.mem_cons, List.not_mem_nil, or_false] at hwidth; omega
    refine ⟨?_, State.pcieUp_fields h hhi hlt⟩
    have hflag : s.flag R.PCI_STATUS F.PCI_STATUS_LINK_UP = false := by simp [State.flag, hdown]
    have hfits : pcieFits speed width = true := by
      simp only [pcieFits, hlo, hhi, and_self, decide_true, Bool.true_and]
      exact List.contains_iff_mem.mpr hwidth
    simp only [exec, execPcieLinkTrained, hend, hflag, hfits, Bool.not_false, Bool.and_self, if_true]
    rfl
  case pass =>
    intro s img rest v himages hdev hxtal k t
    have ht := State.enter_sys { k with sys := { k.sys with fwSlot := img, fwVersion := v, imagesLeft := [] } } .ready
    exact ⟨(exec_bootImageTried himages hdev hxtal).1 v, congrArg Sys.dev ht, congrArg Sys.fwSlot ht, congrArg Sys.fwVersion ht,
      congrArg Sys.imagesLeft ht⟩
  case fail =>
    intro s img rest n himages hdev hxtal hlo hhi k k1 k2 t
    have hn : max 1 (min n 4) = n := by omega
    have hsys : k2.sys = { s.sys with imagesLeft := rest } := by
      simp only [k2, k1, State.journal_sys, State.gazInc_sys]
      exact congrArg (fun y : Sys => { y with imagesLeft := rest }) s.keyed_sys
    have htsys : t.sys = k2.sys := by
      simp only [t]
      split
      · exact State.journal_sys _ _ _ _ _ _
      · rfl
    have hjournal : s.gaz.journal.length ≤ k2.gaz.journal.length := by
      refine le_trans (le_of_eq ?_) (State.journal_length (k.gazInc 68) 0x01 (0x10 + n) img.code 0 0)
      exact (congrArg (fun g : Gaz => g.journal.length) s.keyed_gaz.symm :)
    refine ⟨?_, ?_, ?_, hjournal.trans ?_⟩
    · rw [(exec_bootImageTried himages hdev hxtal).2 n, hn]
      simp only [List.isEmpty_iff]
      rfl
    · rw [htsys, hsys]; exact hdev
    · rw [htsys, hsys]
    · simp only [t]
      split
      · exact State.journal_length _ _ _ _ _ _
      · exact le_refl _
/-! ### Staging a survey -/

/-- The staged survey after words are stored from word `o + k` on (R113). -/
theorem Survey.stageWords (ws : List Word) (o k : Nat) (v : Survey) :
    let u := (ws.zipIdx k).foldl (fun (v : Survey) p =>
      { v with staged := sset (fun _ => 0) v.staged (o + p.2) p.1, written := sset (fun _ => false) v.written (o + p.2) true }) v
    u.committed = v.committed ∧ (swf (fun _ => (0 : Word)) v.staged = true → ∀ j,
      sget (fun _ => 0) u.staged j = if o + k ≤ j ∧ j < o + k + ws.length then ws.getD (j - (o + k)) 0
        else sget (fun _ => 0) v.staged j) := by
  induction ws generalizing k v with
  | nil => exact ⟨rfl, fun _ j => (if_neg (by simp only [List.length_nil]; omega)).symm⟩
  | cons w ws ih =>
    obtain ⟨hcommitted, hstaged⟩ := ih (k + 1)
      { v with staged := sset (fun _ => 0) v.staged (o + k) w, written := sset (fun _ => false) v.written (o + k) true }
    refine ⟨hcommitted, fun hwf j => (hstaged (swf_sset _ _ _ hwf) j).trans ?_⟩
    by_cases hj : j = o + k
    · rw [if_neg (by omega), if_pos (by simp only [List.length_cons]; omega), hj, sget_sset_same _ _ _ hwf, Nat.sub_self]
      rfl
    · have hsub : ∀ n, o + (k + 1) ≤ j → j - (o + k) = n + 1 → j - (o + (k + 1)) = n := fun n _ h => by omega
      by_cases hin : o + (k + 1) ≤ j ∧ j < o + (k + 1) + ws.length
      · obtain ⟨n, hn⟩ : ∃ n, j - (o + k) = n + 1 := ⟨j - (o + k) - 1, by omega⟩
        rw [if_pos hin, if_pos (by simp only [List.length_cons]; omega), hn, hsub n hin.1 hn, List.getD_cons_succ]
      · rw [if_neg hin, if_neg (by simp only [List.length_cons]; omega), sget_sset_other _ _ _ hj]

/-- The words of a message after its first three. -/
theorem State.msg_rest (s : State) (mb : Nat) (h : (s.msg mb).length ≤ 64) :
    ((s.msg mb).rest 3).length = (s.msg mb).length - 3 ∧
    ∀ i < (s.msg mb).length - 3, ((s.msg mb).rest 3).getD i 0 = (s.msg mb).w (3 + i) := by
  have hwords : (s.msg mb).words.length = 64 := by simp [State.msg]
  refine ⟨by simp only [Cmd.rest, List.length_drop, List.length_take]; omega, fun i hi => ?_⟩
  simp only [Cmd.rest, Cmd.w, List.getD_eq_getElem?_getD, List.getElem?_drop]
  rw [List.getElem?_take_of_lt (by omega)]

theorem Serves.length_le {s : State} {mb : Nat} {sp : CmdSpec} (h : s.Serves mb sp) : (s.msg mb).length ≤ 64 := by
  obtain ⟨-, -, hheader, -⟩ := h
  by_contra hlong
  simp only [headerCheck, show (s.msg mb).length < 2 ∨ 64 < (s.msg mb).length by omega, if_true] at hheader
  exact absurd hheader nofun

theorem exec_surveyLoad_served {s : State} {mb : Nat} (h : s.Serves mb spec_SURVEY_LOAD) (halign : (s.msg mb).n 2 15 0 % 4 = 0)
    (hend : (s.msg mb).n 2 15 0 + 4 * ((s.msg mb).length - 3) ≤ 65536) (hidle : s.svy.committing = false)
    (hnone : s.svy.committed = false) :
    exec (.surveyLoad mb) s = s.done mb { s with svy := ((s.msg mb).rest 3).zipIdx.foldl (fun (v : Survey) p =>
      { v with staged := sset (fun _ => 0) v.staged ((s.msg mb).n 2 15 0 / 4 + p.2) p.1,
               written := sset (fun _ => false) v.written ((s.msg mb).n 2 15 0 / 4 + p.2) true }) s.svy } := by
  refine congrArg Host.Outcome.next (runCommand_ans h (badIf_eq_none.mpr ?_) ?_)
  · simp only [decide_eq_false_iff_not]; omega
  · simp only [State.staging, hidle, hnone, Bool.false_eq_true, if_false]

/-! ### A survey that takes force leaves the survey itself -/

theorem foldl_svy {β : Type} {f : State → β → State} (hf : ∀ s b, (f s b).svy = s.svy) (l : List β) (s : State) :
    (l.foldl f s).svy = s.svy :=
  foldl_keeps (P := fun t => t.svy = s.svy) (fun t b h => (hf t b).trans h) l rfl

theorem State.laneSurvey_svy (s : State) (r : SvyRec) : (s.laneSurvey r).svy = s.svy := by
  unfold State.laneSurvey State.setLaneState State.setLaneRate
  dsimp only
  split <;> simp

theorem State.modelCommit_svy (s : State) : s.modelCommit.svy = s.svy := by
  unfold State.modelCommit State.modelClear
  split
  · rfl
  · split
    · dsimp only
      rw [State.setMer_svy, State.put_svy, State.wr_svy, State.wr_svy]
      exact foldl_svy (fun t p => t.wr_svy _ _) _ _
    · dsimp only
      rw [State.report_svy, State.setMer_svy, State.put_svy, State.wr_svy, State.wr_svy]
      exact (foldl_svy (fun t k => t.wr_svy _ _) _ _).trans (State.setMer_svy _ _)

theorem State.pinsSurvey_svy (s : State) : s.pinsSurvey.svy = s.svy := by
  unfold State.pinsSurvey
  exact foldl_svy (fun t p => by dsimp only; split <;> exact State.wr_svy _ _ _) _ s

theorem State.memCommit_svy (s : State) (rate : Nat) : (s.memCommit rate).svy = s.svy := by
  unfold State.memCommit
  extract_lets +onlyGivenNames b mask s1 s2 p base s3 share s4
  have h3 : s3.svy = s.svy := by simp only [s3, s2, s1, State.put_svy]
  have h4 : s4.svy = s3.svy := foldl_svy (fun t x => by simp only [State.put_svy]) _ s3
  clear_value s4 s3
  show (s4.put R.MGD_STATUS F.MGD_STATUS_FRESH 1).svy = s.svy
  rw [State.put_svy, h4, h3]

theorem State.yarnCommit_svy (s : State) : s.yarnCommit.svy = s.svy := by
  unfold State.yarnCommit
  split
  · rfl
  · dsimp only
    exact (foldl_svy (fun t x => by simp only [State.put_svy]) _ _).trans (State.wr_svy _ _ _)

theorem State.surveyInForce_svy (s : State) (rate : Nat) : (s.surveyInForce rate).svy = s.svy := by
  have hlanes : s.lanesSurvey.svy = s.svy := foldl_svy State.laneSurvey_svy _ s
  have hmer : ∀ t : State, t.merCommit.svy = t.svy := fun t => by
    unfold State.merCommit
    rw [State.modelCommit_svy, State.setMer_svy, State.put_svy]
  unfold State.surveyInForce
  extract_lets +onlyGivenNames s1 s2 throttle s3
  have h1 : s1.svy = s.svy := by rw [State.pinsSurvey_svy, hmer, hlanes]
  clear_value s1
  have h2 : s2.svy = s.svy := by rw [State.yarnCommit_svy, State.memCommit_svy, h1]
  clear_value s2
  have h3 : s3.svy = s.svy := by rw [State.put_svy, h2]
  clear_value s3
  split
  · exact h3
  · exact h3

theorem State.castLoad_svy (s : State) (bench : Bool) (openId : Option Nat) : ((s.castLoad bench openId).getD s).svy = s.svy := by
  unfold State.castLoad State.claimCtx State.dropStaged
  cases s.freeCtx with
  | none => rfl
  | some c => simp

theorem State.castonAtCommit_svy (s : State) : s.castonAtCommit.svy = s.svy := by
  unfold State.castonAtCommit
  dsimp only
  split
  · exact s.castLoad_svy true none
  · split
    · exact s.castLoad_svy false none
    · rfl

/-- A strap that differs is noted; what is in force stays. -/
theorem State.strapCheck_svy (s : State) : s.strapCheck.svy.committed = s.svy.committed ∧ s.strapCheck.svy.committing = s.svy.committing ∧
    s.strapCheck.svy.recs = s.svy.recs ∧ s.strapCheck.svy.words = s.svy.words := by
  unfold State.strapCheck State.mismatch
  dsimp only
  split
  · exact ⟨rfl, rfl, rfl, rfl⟩
  · split <;> exact ⟨rfl, rfl, rfl, rfl⟩

/-! ### The end of a commit -/

theorem exec_surveyCommitComplete_invalid {s : State} {h : CommitSeen} {o : OpenCmd} {d a : Nat}
    (hpair : s.mbx.pairsInReset.contains 0 = false) (hopen : s.openOf 0x0202 = some o) (hrun : s.svy.committing = true)
    (hargs : o.args = [d, a]) : exec (.surveyCommitComplete h) s =
      .next ({ s with svy := { s.svy with committing := false, lastDetail := d } }.complete o.id .SURVEY_INVALID [word d, word a]) := by
  simp only [exec, execSurveyCommitComplete, State.duty, hpair, Bool.false_eq_true, if_false, hopen, hrun, hargs]

theorem exec_surveyCommitComplete_mismatch {s : State} {h : CommitSeen} {o : OpenCmd} {m : Mismatch}
    (hpair : s.mbx.pairsInReset.contains 0 = false) (hopen : s.openOf 0x0202 = some o) (hrun : s.svy.committing = true)
    (hargs : o.args = [])
    (hfails : hardwareFails (s.svy.parse.1.filter (fun r => typeKnown r.type)) (s.sys.straps.bootSrc.testBit 0) h = some m) :
    let v : State := { s with svy := { s.svy with committing := false } }
    let v := v.mismatch m.type m.item m.kind m.expected m.found
    let t := State.complete { v with svy := { v.svy with lastDetail := m.kind } } o.id .SURVEY_MISMATCH [word m.kind, 0]
    exec (.surveyCommitComplete h) s = .next t ∧ t.svy.committed = s.svy.committed ∧ t.svy.committing = false ∧ t.svy.lastDetail = m.kind ∧
      t.svy.words = s.svy.words := by
  intro v v' t
  have hparse : v.svy.parse = s.svy.parse := Survey.parse_of_staged rfl
  have hv' : v'.svy.committed = v.svy.committed ∧ v'.svy.committing = v.svy.committing ∧ v'.svy.words = v.svy.words := by
    simp only [v', State.mismatch]
    split <;> exact ⟨rfl, rfl, rfl⟩
  obtain ⟨hcommitted, hcommitting, hwords⟩ := hv'
  have ht : t.svy = { v'.svy with lastDetail := m.kind } := State.complete_svy _ _ _ _
  refine ⟨?_, ?_, ?_, ?_, ?_⟩
  · simp only [exec, execSurveyCommitComplete, State.duty, hpair, Bool.false_eq_true, if_false, hopen, hrun, hargs]
    simp only [v] at hparse
    simp only [hparse, hfails]
    rfl
  · rw [ht]; exact hcommitted
  · rw [ht]; exact hcommitting
  · rw [ht]
  · rw [ht]; exact hwords

theorem exec_surveyCommitComplete_passes {s : State} {h : CommitSeen} {o : OpenCmd}
    (hpair : s.mbx.pairsInReset.contains 0 = false) (hopen : s.openOf 0x0202 = some o) (hrun : s.svy.committing = true)
    (hargs : o.args = [])
    (hpass : hardwareFails (s.svy.parse.1.filter (fun r => typeKnown r.type)) (s.sys.straps.bootSrc.testBit 0) h = none) :
    let ws := (List.range (s.svy.total / 4)).map (fun i => word (s.svy.word i))
    let recs := s.svy.parse.1.filter (fun r => typeKnown r.type)
    let v : State := { s with svy := { s.svy with committing := false, committed := true, words := ws, recs := recs, siteId := word (s.svy.word 3) } }
    let t := ((v.strapCheck.surveyInForce h.rate).complete o.id .DONE [0, 0]).castonAtCommit
    exec (.surveyCommitComplete h) s = .next t ∧ t.svy.committed = true ∧ t.svy.committing = false ∧ t.svy.recs = recs ∧ t.svy.words = ws := by
  intro ws recs v t
  have ht : t.svy = v.strapCheck.svy := by
    simp only [t, State.castonAtCommit_svy, State.complete_svy, State.surveyInForce_svy]
  obtain ⟨hcommitted, hcommitting, hrecs, hwords⟩ := v.strapCheck_svy
  refine ⟨?_, ?_, ?_, ?_, ?_⟩
  · have hparse : Survey.parse { s.svy with committing := false } = s.svy.parse := Survey.parse_of_staged rfl
    simp only [exec, execSurveyCommitComplete, State.duty, hpair, Bool.false_eq_true, if_false, hopen, hrun, hargs]
    simp only [hparse, hpass]
    rfl
  · rw [ht, hcommitted]
  · rw [ht, hcommitting]
  · rw [ht, hrecs]
  · rw [ht, hwords]

theorem exec_surveyMismatch_served {s : State} {mb : Nat} (h : s.Serves mb spec_SURVEY_MISMATCH) :
    let ms := (s.svy.mismatches.drop ((s.msg mb).n 2 5 0)).take 30
    exec (.surveyMismatch mb) s = s.done mb s (word ms.length :: ms.flatMap (fun m =>
      [word (m.type * 2 ^ 16 + m.item % 256 * 2 ^ 8 + m.kind % 256), word (m.expected % 65536 * 2 ^ 16 + m.found % 65536)])) :=
  congrArg Host.Outcome.next (runCommand_ans h rfl rfl)

/-- Settles O16: loading, committing and reading the survey. -/
theorem surveyCommands : Obligations.SurveyCommands := by
  unfold Obligations.SurveyCommands
  refine ⟨⟨?load, ?abort, ?commit, ?busy, ?refused⟩, ⟨?invalid, ?mismatch, ?passes⟩, ?status, ?read, ?mismatches⟩
  case load =>
    intro s mb h halign hend hidle hnone
    obtain ⟨hcommitted, hstaged⟩ := Survey.stageWords ((s.msg mb).rest 3) ((s.msg mb).n 2 15 0 / 4) 0 s.svy
    obtain ⟨hlen, hrest⟩ := s.msg_rest mb (Serves.length_le h)
    refine ⟨_, exec_surveyLoad_served h halign hend hidle hnone, rfl, hcommitted.trans hnone, fun hwf i hi => ?_⟩
    refine (hstaged hwf _).trans ?_
    rw [if_pos (by omega), ← hrest i hi]
    exact congrArg (((s.msg mb).rest 3).getD · 0) (by omega)
  case abort =>
    intro s mb h hidle hnone
    exact congrArg Host.Outcome.next
      (runCommand_ans h rfl (by simp only [State.staging, hidle, hnone, Bool.false_eq_true, if_false]))
  case commit =>
    intro s mb h hdev hidle hnone
    refine congrArg Host.Outcome.next (runCommand_acc h rfl ?_)
    exact (if_neg (not_not_intro hdev)).trans ((if_neg (ne_true_of_eq_false hidle)).trans (if_neg (ne_true_of_eq_false hnone)))
  case busy =>
    intro s mb h hrun
    exact congrArg Host.Outcome.next (runCommand_ans h rfl (by simp only [State.staging, hrun, if_true]))
  case refused =>
    intro s mb h hidle hdone
    exact congrArg Host.Outcome.next
      (runCommand_ans h rfl (by simp only [State.staging, hidle, hdone, Bool.false_eq_true, if_false, if_true]))
  case invalid =>
    intro s h o d a hpair hopen hrun hargs
    exact exec_surveyCommitComplete_invalid hpair hopen hrun hargs
  case mismatch =>
    intro s h o m hpair hopen hrun hargs hfails
    exact exec_surveyCommitComplete_mismatch hpair hopen hrun hargs hfails
  case passes =>
    intro s h o hpair hopen hrun hargs hpass
    exact exec_surveyCommitComplete_passes hpair hopen hrun hargs hpass
  case status =>
    intro s mb h v st
    exact congrArg Host.Outcome.next (runCommand_ans h rfl rfl)
  case read =>
    intro s mb h halign hlo hhi hend
    refine congrArg Host.Outcome.next (runCommand_ans h (badIf_eq_none.mpr ?_) rfl)
    simp only [decide_eq_false_iff_not]; omega
  case mismatches =>
    intro s mb h
    have hlen : ((s.svy.mismatches.drop ((s.msg mb).n 2 5 0)).take 30).length =
        min 30 (s.svy.mismatches.length - (s.msg mb).n 2 5 0) := by simp only [List.length_take, List.length_drop]
    refine ⟨_, (exec_surveyMismatch_served h).trans (by rw [hlen]), ?_⟩
    simp only [List.length_flatMap, List.length_cons, List.length_nil, List.map_const', List.sum_replicate, hlen, smul_eq_mul]
    omega

/-! ### The device right after reset -/

/-- Settles O56: each register named is at its reset value, the rest of the state as built. -/
theorem resetState : Obligations.ResetState := by
  unfold Obligations.ResetState
  refine ⟨rfl, rfl, rfl, rfl, rfl, rfl, rfl, ?_⟩
  decide

end Sys2Proof.Machine
end

section
/-! The rows of a tile: products, lanes, binary32, memory and streams (R122 to R155). -/

namespace Sys2Proof.Machine

/-! ### What an issuing row leaves -/

section
variable {s : State} {t u opc : Nat}

/-- A row whose effect is `f` leaves what an effect `g` describes that agrees with `f` on the unit's own context. -/
theorem State.issueEff_runs {f g : OpCtx → OpEff} (h : s.Issues t u opc) (hfg : f (s.opCtx t u) = g (s.opCtx t u)) :
    Host.Outcome.next (s.issueEff t u opc f) = s.runs t u g := by
  rw [State.issueEff, State.issue_runs h, hfg]

/-- A row that does more than one effect leaves what it makes of the cycle's state, the unit marked issued. -/
theorem State.issue_next {run : OpCtx → State → State} {e : OpCtx} {v : State} (h : s.Issues t u opc) (he : s.opCtx t u = e)
    (hrun : run e e.s = v) : (.next (s.issue t u opc run) : Out) = .next (v.slotIssued t u) := by
  rw [State.issue_runs h, ← hrun, ← he]
  rfl

theorem State.issue_refused (h : s.tileReady t = false ∨ 8 ≤ u ∨ (s.tile t).issued.contains u = true) (run : OpCtx → State → State) :
    (.next (s.issue t u opc run) : Out) = .next s := congrArg _ (State.issue_idle h opc run)

end

/-! ### The obligations -/

/-- Settles O17: each row's effect is the one stated. -/
theorem tileProducts : Obligations.TileProducts := by
  unfold Obligations.TileProducts
  refine ⟨fun s t u => ⟨?cmac, ?cmul, ?rmac, ?qmac, ?accrd⟩, fun s t u => ⟨?bfly2, ?bfly4, ?twr⟩⟩
  case cmac => exact fun h => State.issueEff_runs (f := effCmac) h rfl
  case cmul => exact fun h => State.issueEff_runs (f := effCmul) h rfl
  case rmac => exact fun h => State.issueEff_runs (f := effRmac) h rfl
  case qmac => exact fun h => State.issueEff_runs (f := effQmac) h rfl
  case accrd => exact fun h => State.issueEff_runs (f := effAccrd) h rfl
  case bfly2 => exact fun h => State.issueEff_runs (f := effBfly2) h rfl
  case bfly4 =>
    exact fun h => State.issueEff_runs (f := effBfly4) h (by
      simp [effBfly4, OpEff.of, OpCtx.gives])
  case twr => exact fun h => State.issueEff_runs (f := effTwr) h rfl

theorem OpCtx.unit_opCtx (s : State) (t u : Nat) : (s.opCtx t u).u = u := rfl

/-- Settles O18: each row's effect is the one stated; LUT16 also draws an open value for an uncorrectable word. -/
theorem tileLanesAndFloat : Obligations.TileLanesAndFloat := by
  unfold Obligations.TileLanesAndFloat
  refine ⟨fun s t u => ⟨?add, ?sub, ?srs, ?sls, ?cmp, ?sel, ?conj, ?norm, ?lut, ?movi, ?nop⟩,
    fun s t u => ⟨?fadd, ?fsub, ?fmul, ?frsq, ?fcvt⟩⟩
  case add => exact fun h => State.issueEff_runs (f := effAdd) h rfl
  case sub => exact fun h => State.issueEff_runs (f := effSub) h rfl
  case srs => exact fun h => State.issueEff_runs (f := effSrs) h rfl
  case sls => exact fun h => State.issueEff_runs (f := effSls) h rfl
  case cmp => exact fun h => State.issueEff_runs (f := effCmp) h rfl
  case sel => exact fun h => State.issueEff_runs (f := effSel) h rfl
  case conj => exact fun h => State.issueEff_runs (f := effConj) h rfl
  case norm =>
    refine fun h => State.issueEff_runs (f := effNorm) h ?_
    simp only [effNorm]
    split <;> rfl
  case lut =>
    intro h e x addr eff good
    exact ⟨State.issue_next h rfl rfl, State.issue_next h rfl rfl, fun free hfree => State.issue_next h rfl (by rw [hfree]; rfl)⟩
  case movi => exact fun h => State.issueEff_runs (f := effMovi) h rfl
  case nop => exact fun h => State.issueEff_runs (f := fun _ => OpEff.of []) h rfl
  case fadd => exact fun h => State.issueEff_runs (f := effFadd) h rfl
  case fsub => exact fun h => State.issueEff_runs (f := effFsub) h rfl
  case fmul => exact fun h => State.issueEff_runs (f := effFmul) h rfl
  case frsq => exact fun h => State.issueEff_runs (f := effFrsq) h rfl
  case fcvt =>
    refine fun h => State.issueEff_runs (f := effFcvt) h ?_
    simp only [effFcvt]
    split
    · split <;> rfl
    · rfl

/-- What SOUT does with an element for the output channel `key`, if its channel drives one (R155). -/
def State.sends (w : State) (t : Nat) (key : Option Nat) (v : Elem) : State :=
  match key with
  | none => w
  | some key => match (w.tile t).out key with
    | [] => w.setOut t key [v]
    | old :: rest =>
      if w.portWins t (key / 4) (key % 4) then
        ((w.setOut t key (rest ++ [v])).linkSend t (key / 4) (key % 4) old).portMoves t (key / 4) (key % 4)
      else w.queueOut t key v

theorem exec_sout_issues {s : State} {t u : Nat} (h : s.Issues t u 0x14) :
    let e := s.opCtx t u
    let w := e.s.applyEff t u { OpEff.of [] with names := groupBanks e.w.a 2 }
    let w := if e.soutElem.2 then w.walCount t 4 else w
    exec (.sout t u) s = .next ((w.sends t (w.ocKey t e.p (e.w.ag % 4)) e.soutElem.1).slotIssued t u) := by
  refine State.issue_next h rfl ?_
  generalize s.opCtx t u = e
  cases hv : e.soutElem with | mk v seam =>
  dsimp only
  generalize (if seam = true then
    (e.s.applyEff t u { OpEff.of [] with names := groupBanks e.w.a 2 }).walCount t 4
    else e.s.applyEff t u { OpEff.of [] with names := groupBanks e.w.a 2 }) = w
  unfold State.sends
  cases w.ocKey t e.p (e.w.ag % 4) with
  | none => rfl
  | some key => cases (w.tile t).out key <;> rfl

/-- Settles O19: loads with and without ECC events, stores, the stream rows, and the cases in which nothing issues. -/
theorem tileMemoryAndSlots : Obligations.TileMemoryAndSlots := by
  unfold Obligations.TileMemoryAndSlots
  refine ⟨fun s t u => ⟨?ld, ?st, ?sin, ?sout⟩, ?idle⟩
  case ld =>
    intro free e a eff good h
    have he : s.opCtx t u = e := rfl
    have htile : e.t = t := rfl
    clear_value e
    have hgood : ∀ ecc, ecc ≠ 2 → effLd ecc (Config.freeWord 0) e = good := fun ecc hecc => by
      simp only [effLd, good, eff, htile, beq_eq_false_iff_ne.mpr hecc, Bool.false_eq_true, if_false]
      split <;> rfl
    refine ⟨State.issue_next h he ?_, State.issue_next h he ?_, fun hfree => State.issue_next h he ?_⟩
    · exact congrArg (e.s.applyEff t u) (hgood 0 (by decide))
    · exact congrArg (fun f => (e.s.applyEff t u f).report 0x10 t) (hgood 1 (by decide))
    · have hbad : effLd 2 free e = eff (free.setWidth 32) ((free >>> 32).setWidth 32) (free.setWidth 32) := by
        simp only [effLd, eff, htile, beq_self_eq_true, if_true]
        split <;> rfl
      rw [← hbad, hfree]
      rfl
  case st => exact fun h => State.issueEff_runs (f := effSt) h rfl
  case sin =>
    intro h v rest e key hheld
    have he : s.opCtx t u = e := rfl
    have hheld : (e.s.tile t).held (e.s.icKey t e.p (e.w.ag % 4)) = v :: rest := hheld
    clear_value e
    refine ⟨fun hseam => State.issue_next h he ?_, fun hseam => State.issue_next h he ?_⟩
    · simp only [hheld, hseam, Bool.false_eq_true, if_false, key]
    · simp only [hheld, hseam, if_true, key] <;> rfl
  case sout =>
    intro h e v w1 w
    have hexec : exec (.sout t u) s = .next ((w.sends t (w.ocKey t e.p (e.w.ag % 4)) v.1).slotIssued t u) :=
      (exec_sout_issues h).trans rfl
    clear_value w
    refine ⟨fun hkey => ?_, fun key hkey => ⟨fun hout => ?_, fun old more hout => ⟨fun hwins => ?_, fun hwins => ?_⟩⟩⟩
    · simp only [hexec, hkey, State.sends]
    · simp only [hexec, hkey, State.sends, hout]
    · simp only [hexec, hkey, State.sends, hout, hwins, if_true]
    · simp only [hexec, hkey, State.sends, hout, hwins, Bool.false_eq_true, if_false]
  case idle =>
    intro s t u h
    exact ⟨State.issue_refused h _, State.issue_refused h _, State.issue_refused h _, State.issue_refused h _, State.issue_refused h _,
      State.issue_refused h _, State.issue_refused h _, State.issue_refused h _⟩

end Sys2Proof.Machine
end

section
/-! Links, switches and shifts of the wales, and the WAL commands (R142 to R174). -/

namespace Sys2Proof.Machine

/-! ### Tile memory -/

/-- A byte stored in a tile's memory is read there, every other byte reads as before. -/
theorem State.tmem_setTmem {s : State} (h : swf (fun _ => (0 : Byte)) s.stitch.mem = true) (t a : Nat) (b : Byte) (t' a' : Nat) :
    (s.setTmem t a b).tmem t' a' = if t' = t ∧ a' % 131072 = a % 131072 then b else s.tmem t' a' := by
  unfold State.tmem State.setTmem
  by_cases hk : t' = t ∧ a' % 131072 = a % 131072
  · rw [if_pos hk, hk.1, hk.2]
    exact sget_sset_same _ _ _ h
  · rw [if_neg hk]
    exact sget_sset_other _ _ _ (by omega)

/-! ### The register of a switch order -/

/-- The halves of a value with GO written to WAL_SWITCH (R156). -/
theorem walSwitch_fields {tiles pattern : Nat} (ht : tiles < 65536) (hp : pattern < 16) :
    let v := word (tiles % 65536 * 2 ^ 16 + 2 ^ 8 + pattern % 16)
    v.bit 8 = true ∧ F.WAL_SWITCH_TILES.get v = tiles ∧ F.WAL_SWITCH_PATTERN.get v = pattern := by
  have hv : (word (tiles % 65536 * 2 ^ 16 + 2 ^ 8 + pattern % 16)).toNat = tiles * 65536 + 256 + pattern := by
    rw [word, BitVec.toNat_ofNat, Nat.mod_eq_of_lt ht, Nat.mod_eq_of_lt hp]
    omega
  refine ⟨?_, ?_, ?_⟩
  · rw [Word.bit_eq_testBit, Nat.testBit_eq_decide_div_mod_eq, hv]
    simp only [decide_eq_true_eq]
    omega
  · simp only [Fld.get, F.WAL_SWITCH_TILES, bitsOf, hv]
    omega
  · simp only [Fld.get, F.WAL_SWITCH_PATTERN, bitsOf, hv]
    omega

/-! ### The rows -/

theorem exec_patternHardSwitchEdge {s : State} {w : Nat} {o : PatOrder} (hnext : s.nextPattern w = some o) (hshift : (s.wale w).shift = none)
    (hready : s.islandRefuses (32 + w) = true ∨ (s.islandRuns (32 + w) = true ∧ s.betweenCycles w o = true)) :
    exec (.patternHardSwitchEdge w) s = .next (s.patternEdge w o ((s.wale w).orders.erase o)) := by
  have hgo : ((s.wale w).shift.isNone && (s.islandRefuses (32 + w) || (s.islandRuns (32 + w) && s.betweenCycles w o))) = true := by
    rcases hready with h | ⟨h, h'⟩ <;> simp [*]
  simp only [exec, execPatternHardSwitchEdge, hnext, hgo, if_true]

/-- Settles O20: each clause is its row where its occasion holds. -/
theorem stitchLinksAndSwitches : Obligations.StitchLinksAndSwitches := by
  unfold Obligations.StitchLinksAndSwitches
  refine ⟨⟨?outside, ?byte, ?lock, ?go⟩, ⟨?link, ?credit, ?gateIn, ?gateOut⟩, ?drain, ?edge, ?shift⟩
  case outside =>
    intro s t addr bs ht
    have hexec : ∀ ecc, exec (.outsideAccessWaitExpiry t addr bs ecc) s = .next ((s.setTmems t addr bs).tmemEcc t addr ecc) := fun ecc =>
      if_neg (by omega)
    exact ⟨hexec 0, hexec 1, hexec 2, fun k hk => by simp only [State.tmemEcc, hk]⟩
  case byte =>
    intro s t a b h ht
    refine ⟨s.setTmem t a b, ?_, ?_, fun t' a' hne => ?_⟩
    · exact if_neg (by omega)
    · rw [State.tmem_setTmem h, if_pos ⟨rfl, rfl⟩]
    · rw [State.tmem_setTmem h, if_neg (by omega)]
  case lock =>
    intro s w h hw
    refine ⟨s.put (R.WAL_CTRL w) F.WAL_CTRL_LOCK 1, if_neg (by omega), ?_, fun a ha => State.rd_put_other s _ _ ha⟩
    rw [State.get_put_same h _ _ _ (by decide) (by decide)]
    rfl
  case go =>
    intro s w tiles pattern hw ht hp
    obtain ⟨hgo, htiles, hpattern⟩ := walSwitch_fields ht hp
    simp only [exec, execWalSwitchGo, show ¬ 40 ≤ w by omega, if_false, State.walSwitchWrite, hgo, if_true, htiles, hpattern]
  case link =>
    intro s t port h e src ht hport hruns hnull hlive hdn u ptr hfirst v
    have hgo : ¬(640 ≤ t ∨ 6 ≤ port ∨ (!s.waleRuns (waleOf t)) = true ∨ s.tileNull t = true ∨ (!(s.tile t).live) = true ∨
        (4 ≤ port ∧ s.dnOpen t = true)) := by
      simp only [hruns, hnull, hlive, Bool.not_true, Bool.false_eq_true, false_or]
      rcases hdn with hdn | hdn
      · omega
      · simp only [hdn, Bool.false_eq_true, and_false, or_false]; omega
    simp only [exec, execWordLinkElement, hgo, if_false]
    simp only [u, ptr] at hfirst
    rw [hfirst] <;> rfl
  case credit =>
    intro s t port h t' p' hport howed hlink v
    simp only [exec, execWordLinkCredit, howed, show ¬ 4 ≤ port by omega, or_self, if_false, hlink]
    rfl
  case gateIn =>
    intro s v w g n e hg hstream t key hroom htake
    have hroom : ¬ 4 ≤ ((s.tile t).held key).length + sget (fun _ => 0) (s.tile t).owed key := by omega
    simp only [t, key] at hroom
    simp only [exec, execGateChannelElement, hstream, hg, if_true, hroom, if_false, htake]
    rfl
  case gateOut =>
    intro s v w g n e rest hg hstream hbox hoffer
    simp only [exec, execGateChannelElement, hstream, show ¬ g < 8 by omega, if_false, hbox, hoffer, if_true]
  case drain =>
    intro s t d hdrain hleft hruns
    simp only [exec, execTokenDrainEnd, hdrain, hleft, hruns, and_self, if_true]
  case edge =>
    intro s w o hnext hshift hready ts r b
    have hexec := exec_patternHardSwitchEdge hnext hshift hready
    refine ⟨fun hrefuse => ?_, fun hrefuse => ?_⟩
    · refine hexec.trans (congrArg Host.Outcome.next ?_)
      exact if_pos hrefuse
    · intro v1 v2 v3 v4
      refine hexec.trans (congrArg Host.Outcome.next ?_)
      exact if_neg (Bool.eq_false_iff.mp hrefuse)
  case shift =>
    intro s w sh hshift hruns v1 v
    simp only [exec, execShiftCopyEnd, hshift, hruns, Bool.not_true, Bool.false_eq_true, if_false]
    rfl

/-! ### The WAL commands -/

theorem waleFields_none {bad : Cmd → State → Bool} {c : Cmd} {s : State} (hw : c.n 2 5 0 < 40) (hbad : bad c s = false)
    (hown : foreignWale c s (c.n 2 5 0) = false) : waleFields bad c s = none := by
  simp only [waleFields, hbad, hown, show ¬ 40 ≤ c.n 2 5 0 by omega, Bool.false_eq_true, or_self, if_false]

theorem waleFields_badField {bad : Cmd → State → Bool} {c : Cmd} {s : State} (h : 40 ≤ c.n 2 5 0 ∨ bad c s = true) :
    waleFields bad c s = some .BAD_FIELD := if_pos h

theorem waleFields_notOwner {bad : Cmd → State → Bool} {c : Cmd} {s : State} (hw : c.n 2 5 0 < 40) (hbad : bad c s = false)
    (hown : foreignWale c s (c.n 2 5 0) = true) : waleFields bad c s = some .NOT_OWNER := by
  simp only [waleFields, hbad, hown, show ¬ 40 ≤ c.n 2 5 0 by omega, Bool.false_eq_true, or_self, if_false, if_true]

section
variable {act : Nat → Cmd → State → Ans} {c : Cmd} {s : State}

theorem unlessShifting_none (h : (s.wale (c.n 2 5 0)).shift = none) : unlessShifting act c s = act (c.n 2 5 0) c s := by
  simp only [unlessShifting, h, Option.isSome_none, Bool.false_eq_true, if_false]

theorem unlessShifting_busy (h : (s.wale (c.n 2 5 0)).shift.isSome = true) : unlessShifting act c s = .code .BUSY s := by
  simp only [unlessShifting, h, if_true]

end

/-- Settles O21: the commands on a wale that does not shift, and their refusals. -/
theorem walCommandEffects : Obligations.WalCommandEffects := by
  unfold Obligations.WalCommandEffects
  refine ⟨?effects, ?refusals⟩
  case effects =>
    intro s mb
    dsimp only
    intro hw hown hshift
    refine ⟨fun h => ?status, fun h htiles hvalid => ?switch, fun h hbind hen => ?bind, fun h => ?sticky, fun h hlock hnull => ?bankmap,
      fun h => ?freeze, fun h hupto hfused hon hdorm hspare => ?shift, fun h => ?counters⟩
    case status =>
      exact congrArg Host.Outcome.next (runCommand_ans h (waleFields_none hw rfl hown) rfl)
    case switch =>
      refine runCommand_wait h (waleFields_none hw ?_ hown) (unlessShifting_none hshift)
      have hany : (tilesOf ((s.msg mb).n 2 5 0) ((s.msg mb).n 3 31 16)).any (fun t => !s.patValid t ((s.msg mb).n 3 3 0)) = false := by
        simpa only [List.any_eq_false, Bool.not_eq_true', Bool.not_eq_false] using hvalid
      simp only [decide_eq_false htiles, hany, Bool.and_false, Bool.or_false]
    case bind =>
      refine congrArg Host.Outcome.next (runCommand_ans h ?_ ((unlessShifting_none hshift).trans ?_))
      · simp only [waleFields_none (bad := fun _ _ => false) hw rfl hown, hbind, Bool.false_eq_true, if_false]
      · simp only [hen, Bool.false_eq_true, false_and, if_false]
        split <;> rfl
    case sticky =>
      exact congrArg Host.Outcome.next (runCommand_ans h (waleFields_none hw rfl hown) (unlessShifting_none hshift))
    case bankmap =>
      refine congrArg Host.Outcome.next (runCommand_ans h ?_ ((unlessShifting_none hshift).trans ?_))
      · simp only [waleFields_none (bad := fun _ _ => false) hw rfl hown, hlock, Bool.false_eq_true, if_false]
      · simp [hnull]
    case freeze =>
      exact congrArg Host.Outcome.next (runCommand_ans h (waleFields_none hw rfl hown) (unlessShifting_none hshift))
    case shift =>
      refine congrArg Host.Outcome.next (runCommand_acc h (waleFields_none hw (decide_eq_false (by omega)) hown)
        ((unlessShifting_none hshift).trans ?_))
      simp only [hfused, hon, hdorm, hspare, Bool.false_eq_true, false_and, if_false, ne_eq, not_true, or_self]
      rfl
    case counters =>
      exact congrArg Host.Outcome.next (runCommand_ans h (waleFields_none hw rfl hown)
        ((unlessShifting_none hshift).trans (by simp only [State.counters_map])))
  case refusals =>
    intro s mb
    dsimp only
    refine ⟨fun h => ⟨fun hw => ?_, fun hw hown hbusy => ?_⟩, fun h => ⟨fun hw => ?_, fun hw hown => ?_⟩,
      fun h => ⟨fun hbad => ?_, fun hw hupto hown hbusy => ?_⟩⟩
    · exact congrArg Host.Outcome.next (runCommand_field h (waleFields_badField (.inl hw)))
    · exact congrArg Host.Outcome.next (runCommand_ans h (waleFields_none hw rfl hown) (unlessShifting_busy hbusy))
    · exact congrArg Host.Outcome.next (runCommand_field h (waleFields_badField (.inl hw)))
    · exact congrArg Host.Outcome.next (runCommand_field h (waleFields_notOwner hw rfl hown))
    · exact congrArg Host.Outcome.next (runCommand_field h (waleFields_badField (hbad.imp_right decide_eq_true)))
    · exact congrArg Host.Outcome.next
        (runCommand_ans h (waleFields_none hw (decide_eq_false (by omega)) hown) (unlessShifting_busy hbusy))

end Sys2Proof.Machine
end

section
/-! Sheets: clock and switch edges, block RAM, risers, the SHT commands and captures (R182 to R241). -/

namespace Sys2Proof.Machine

/-! ### Clock edges -/

theorem exec_flipFlopClockEdge {s : State} {n tree : Nat} (hn : n < 32) (htree : tree < 4) (hon : s.stage n = .on) (falling : Bool)
    (high : List Net) : exec (.flipFlopClockEdge n tree falling high) s =
      let v := (s.setHigh n high).asyncSettle n
      .next (if !v.islandRuns n then v else if falling then v.fallEdge n tree else if tree = 0 then v.riseEdge n else v) := by
  have hgo : ¬(32 ≤ n ∨ 4 ≤ tree ∨ s.stage n ≠ .on) := by
    simp only [hon, ne_eq, not_true, or_false]; omega
  simp only [exec, execFlipFlopClockEdge, hgo, if_false]
  split
  · rfl
  · split
    · rfl
    · split <;> rfl

theorem State.riseEdge_eq (v : State) (n : Nat) :
    let w := (v.closeWindow n).selvRegister n
    ((w.risen n).activePlane n = none → v.riseEdge n = w.risen n) ∧
    ∀ p, (w.risen n).activePlane n = some p → v.riseEdge n = ((w.risen n).clockSheet n p (w.treesRise n) false).afterEdge n := by
  refine ⟨fun h => ?_, fun p h => ?_⟩ <;> simp only [State.riseEdge, h]

theorem State.fallEdge_low {v : State} {n tree : Nat} (h : sget (fun _ => 0) v.fabric.lck (8 * n + tree) = 0) :
    v.fallEdge n tree = v := if_pos h

/-- A falling edge does nothing more while a switch window is open (R182). -/
theorem State.fallEdge_high {v : State} {n tree : Nat} (h : sget (fun _ => 0) v.fabric.lck (8 * n + tree) ≠ 0) :
    let w : State := { v with fabric := { v.fabric with lck := sset (fun _ => 0) v.fabric.lck (8 * n + tree) 0 } }
    ((w.window n).isSome = true → v.fallEdge n tree = w) ∧
    ∀ p, w.window n = none → w.activePlane n = some p → v.fallEdge n tree = (w.clockSheet n p [tree] true).asyncSettle n := by
  intro w
  have hfall : v.fallEdge n tree = match w.activePlane n, w.window n with
      | some p, none => (w.clockSheet n p [tree] true).asyncSettle n
      | _, _ => w := (if_neg h).trans rfl
  refine ⟨fun hopen => ?_, fun p hclosed hactive => ?_⟩
  · obtain ⟨x, hx⟩ := Option.isSome_iff_exists.mp hopen
    rw [hfall, hx]
    cases w.activePlane n <;> rfl
  · rw [hfall, hactive, hclosed]

/-! ### Switch edges -/

theorem exec_sheetSwitchEdge {s : State} {n : Nat} {o : PlaneOrder} (hnext : s.nextPlane n = some o) (hready : s.switchReady n = true)
    (pins : List Nat) (high : List Net) :
    exec (.sheetSwitchEdge n pins high) s = .next ((s.setHigh n (pins.map .io ++ high)).switchEdge n o) := by
  simp only [exec, execSheetSwitchEdge, hnext, hready, if_true]

/-- A switch order at its edge: refused, missed, without effect, or performed (R220, R221). -/
theorem State.switchEdge_eq (h : State) (n : Nat) (o : PlaneOrder) :
    let v := ((h.reach o.at_).setPlaneOrders n ((h.planeOrders n).erase o)).commitLand
    (v.islandRefuses n = true → h.switchEdge n o = (v.airMissed o.src).memberPast o.src true) ∧
    (v.islandRefuses n = false →
      let w := if o.late then v.report 0x24 (v.lead n) [word (satNat 32 (v.stamp - o.at_)), word o.plane] [(10, 5, 6)] else v
      (w.planeValid n o.plane = false → h.switchEdge n o = ((w.report 0x22 n).airMissed o.src).memberPast o.src true) ∧
      (w.planeValid n o.plane = true → w.activePlane n = some o.plane → h.switchEdge n o = w.memberPast o.src false) ∧
      (w.planeValid n o.plane = true → w.activePlane n ≠ some o.plane →
        h.switchEdge n o = (((w.closeWindow n).asyncSettle n).planeEdge n o.plane).memberPast o.src false)) := by
  intro v
  refine ⟨fun hrefuse => if_pos hrefuse, fun hrefuse => ?_⟩
  intro w
  have hedge : h.switchEdge n o =
      if !w.planeValid n o.plane then ((w.report 0x22 n).airMissed o.src).memberPast o.src true
      else if w.activePlane n = some o.plane then w.memberPast o.src false
      else (((w.closeWindow n).asyncSettle n).planeEdge n o.plane).memberPast o.src false :=
    if_neg (Bool.eq_false_iff.mp hrefuse)
  clear_value w
  refine ⟨fun hvalid => ?_, fun hvalid hactive => ?_, fun hvalid hactive => ?_⟩
  · rw [hedge, hvalid]; rfl
  · rw [hedge, hvalid, if_neg (by decide), if_pos hactive]
  · rw [hedge, hvalid, if_neg (by decide), if_neg hactive]

/-! ### Block RAM -/

theorem exec_bramAccess {s : State} {n block p : Nat} (hactive : s.activePlane n = some p) (hn : n < 32) (hblock : block < 128)
    (hruns : s.islandRuns n = true) (hwindow : s.window n = none) (a b : Option BramReq) (upsA upsB : List Nat) (first : Bool) :
    let ca := s.bramCfg n p block 0
    let cb := s.bramCfg n p block 1
    let a' := if ca.used then a else none
    let b' := if cb.used then b else none
    exec (.bramAccess n block a b upsA upsB first) s = .next (
      if ca.tree = cb.tree then (s.bramUpset n block (upsA ++ upsB)).bramBoth n block ca cb a' b'
      else if first then (((s.bramUpset n block upsB).bramTurn n block 1 cb b').bramUpset n block upsA).bramTurn n block 0 ca a'
      else (((s.bramUpset n block upsA).bramTurn n block 0 ca a').bramUpset n block upsB).bramTurn n block 1 cb b') := by
  intro ca cb a' b'
  have hgo : ¬(32 ≤ n ∨ 128 ≤ block ∨ (!s.islandRuns n) = true ∨ (s.window n).isSome = true) := by
    simp only [hruns, hwindow, Bool.not_true, Option.isSome_none, Bool.false_eq_true, or_false]; omega
  simp only [exec, execBramAccess, hactive, hgo, if_false]
  split
  · rfl
  · split <;> rfl

/-! ### A read of a sheet's stamp -/

theorem regFacts_SHT_STAMP_LO : ∀ n < 32, regFacts (R.SHT_STAMP_LO n) = some (R.SHT_STAMP_LO 0, [n], [0, 0, 0, 0]) := by decide

/-- A read of SHT_STAMP_LO latches the high word for its master (R22). -/
theorem State.regRead_SHT_STAMP_LO (s : State) (m : Master) {n : Nat} (hn : n < 32) :
    (s.regRead m (R.SHT_STAMP_LO n)).2 = s.setLatch m (R.SHT_STAMP_HI n) (hiWord s.stamp) := by
  obtain ⟨r, hat, hbase, -⟩ := regAt_of_regFacts (regFacts_SHT_STAMP_LO n hn)
  have haddr : ¬ R.SHT_STAMP_LO n < 0x2000 := by simp only [R.SHT_STAMP_LO]; omega
  have hdev : ¬ R.SHT_STAMP_LO 0 = R.DEV_STAMP_LO := by decide
  simp only [State.regRead, if_neg haddr, hat, hbase, State.readLatch, hdev, if_false, if_true, State.stampRead, List.getD_cons_zero]

theorem exec_shtStampLoRead {s : State} {m : Master} {n : Nat} (hn : n < 32) (hwf : swf (fun _ => (0 : Word)) s.latch = true)
    (hdev : s.sys.dev ≠ .off) (hreach : busReach m false (R.SHT_STAMP_LO n) = true) :
    ∃ u, exec (.shtStampLoRead m n) s = .next u ∧ u.latched m (R.SHT_STAMP_HI n) = hiWord s.stamp ∧ u.regs = s.regs := by
  have halign : R.SHT_STAMP_LO n % 4 = 0 := by simp only [R.SHT_STAMP_LO]; omega
  refine ⟨s.readBy m (R.SHT_STAMP_LO n), if_pos hn, ?_, ?_⟩
  · rw [State.readBy_of_reach hdev halign hreach]
    unfold State.latched
    rw [State.answered_latch, State.busOk_snd, State.regRead_SHT_STAMP_LO s m hn]
    exact sget_sset_same _ _ _ hwf
  · rw [State.readBy_of_reach hdev halign hreach, State.answered_regs, State.busOk_snd, State.regRead_SHT_STAMP_LO s m hn,
      State.setLatch_regs]

/-- Settles O22: the rows of a sheet's edges and of its block RAM, by the equations above. -/
theorem sheetEdgesAndBlocks : Obligations.SheetEdgesAndBlocks := by
  unfold Obligations.SheetEdgesAndBlocks
  refine ⟨⟨?edge, ?switch, ?group, ?release⟩, ?bram, ?lock, ?stamp⟩
  case edge =>
    intro s n tree falling high hn htree hon v
    have hexec := exec_flipFlopClockEdge hn htree hon falling high
    refine ⟨fun hstop => ?_, fun hruns => ⟨fun hrise htree' => ?_, fun hrise hzero => ?_, fun hfall => ?_⟩⟩
    · rw [hexec]; exact congrArg _ (if_pos (by rw [hstop]; rfl))
    · rw [hexec]; exact congrArg _ ((if_neg (by rw [hruns]; decide)).trans ((if_neg (by rw [hrise]; decide)).trans (if_neg htree')))
    · have hr : exec (.flipFlopClockEdge n tree falling high) s = .next (v.riseEdge n) := by
        rw [hexec]
        exact congrArg _ ((if_neg (by rw [hruns]; decide)).trans ((if_neg (by rw [hrise]; decide)).trans (if_pos hzero)))
      obtain ⟨hidle, hactive⟩ := v.riseEdge_eq n
      exact ⟨fun h => hr.trans (congrArg _ (hidle h)), fun p h => hr.trans (congrArg _ (hactive p h))⟩
    · have hf : exec (.flipFlopClockEdge n tree falling high) s = .next (v.fallEdge n tree) := by
        rw [hexec]
        exact congrArg _ ((if_neg (by rw [hruns]; decide)).trans (if_pos hfall))
      refine ⟨fun hlow => hf.trans (congrArg _ (State.fallEdge_low hlow)), fun hhigh => ?_⟩
      obtain ⟨hopen, hclosed⟩ := State.fallEdge_high hhigh
      exact ⟨fun h => hf.trans (congrArg _ (hopen h)), fun p h h' => hf.trans (congrArg _ (hclosed p h h'))⟩
  case switch =>
    intro s n o pins high hnext hready h v
    have hexec := exec_sheetSwitchEdge hnext hready pins high
    obtain ⟨hrefused, hserved⟩ := h.switchEdge_eq n o
    refine ⟨fun hr => hexec.trans (congrArg _ (hrefused hr)), fun hr => ?_⟩
    obtain ⟨hmissed, hsame, hdone⟩ := hserved hr
    exact ⟨fun hv => hexec.trans (congrArg _ (hmissed hv)), fun hv ha => hexec.trans (congrArg _ (hsame hv ha)),
      fun hv ha => hexec.trans (congrArg _ (hdone hv ha))⟩
  case group =>
    intro s o hopen a v1 v
    simp only [exec, execGroupSwitch, hopen]
    rfl
  case release =>
    intro s n net hn hnet hset hruns
    exact if_pos ⟨hn, hnet, hset, hruns⟩
  case bram =>
    intro s n block p a b upsA upsB first hactive hn hblock hruns hwindow ca cb u
    have hexec := fun x y f => exec_bramAccess hactive hn hblock hruns hwindow x y upsA upsB f
    refine ⟨fun htree => ⟨fun ha => ?_, fun hb => ?_, fun ha hb => ?_⟩, fun htree ha hb => ?_⟩
    · refine (hexec _ _ _).trans (congrArg _ ((if_pos htree).trans ?_))
      rw [if_pos ha, ite_self]
      rfl
    · refine (hexec _ _ _).trans (congrArg _ ((if_pos htree).trans ?_))
      rw [if_pos hb, ite_self]
      rfl
    · refine (hexec _ _ _).trans (congrArg _ ((if_pos htree).trans ?_))
      rw [if_pos ha, if_pos hb]
      rfl
    · intro x v y w
      refine ⟨?_, ?_, ?_, ?_⟩
      · refine (hexec _ _ _).trans (congrArg _ ((if_neg htree).trans ?_))
        rw [if_pos ha, if_pos hb]
        rfl
      · refine (hexec _ _ _).trans (congrArg _ ((if_neg htree).trans ?_))
        rw [if_pos ha, if_pos hb]
        rfl
      · refine (hexec _ _ _).trans (congrArg _ ((if_neg htree).trans ?_))
        rw [if_pos ha, ite_self]
        rfl
      · refine (hexec _ _ _).trans (congrArg _ ((if_neg htree).trans ?_))
        rw [if_pos hb, ite_self]
        rfl
  case lock =>
    intro s n h hn
    refine ⟨s.put (R.SHT_CTRL n) F.SHT_CTRL_LOCK 1, if_neg (by omega), ?_, fun a ha => State.rd_put_other s _ _ ha⟩
    rw [State.get_put_same h _ _ _ (by decide) (by decide)]
    rfl
  case stamp =>
    intro s m n hn hwf hdev hreach
    exact exec_shtStampLoRead hn hwf hdev hreach

/-! ### Risers -/

theorem State.riserOpen_range {s : State} {n k : Nat} (h : s.riserOpen n k = true) : n < 32 ∧ k < 40 := by
  simp only [State.riserOpen, Bool.and_eq_true, decide_eq_true_eq] at h
  exact h.1.1.1.1

/-- Settles O23: each clause is its row where its occasion holds. -/
theorem riserPorts : Obligations.RiserPorts := by
  unfold Obligations.RiserPorts
  refine ⟨?element, ?take, ?credit, ?orient, ?conflict⟩
  case element =>
    intro s n k h e hopen hh key spent t tk v
    have hgo : ¬((!s.riserOpen n k) = true ∨ 4 ≤ h) := by
      simp only [hopen, Bool.not_true, Bool.false_eq_true, false_or]; omega
    refine ⟨fun hroom => ?_, fun hfull => ?_⟩
    · have hroom : ¬ 12 ≤ spent := by omega
      exact (if_neg hgo).trans ((if_neg hroom).trans rfl)
    · exact (if_neg hgo).trans (if_pos hfull)
  case take =>
    intro s n k h e rest hopen hh hrx t tk v1 v
    have hgo : ¬((!s.riserOpen n k) = true ∨ 4 ≤ h) := by
      simp only [hopen, Bool.not_true, Bool.false_eq_true, false_or]; omega
    have htk : decide (16 ≤ tk) = true := by simp only [tk, decide_eq_true_eq]; omega
    have hexec : exec (.riserRxTake n k h) s = .next (v1.creditBack t tk) := by
      simp only [exec, execRiserRxTake, hrx, hgo, if_false]
      rfl
    refine ⟨fun hclosed => ?_, fun hwin => ?_⟩
    · rw [hexec, State.creditBack, htk]
      exact congrArg (fun x => Host.Outcome.next (v.setTile t x)) (if_neg (by rw [hclosed]; decide))
    · rw [hexec, State.creditBack, htk]
      exact congrArg (fun x => Host.Outcome.next (v.setTile t x)) (if_pos (by rw [hwin]; decide))
  case credit =>
    intro s n k h hn hk hh t tk key owed v howed
    have hgo : ¬(32 ≤ n ∨ 40 ≤ k ∨ 4 ≤ h) := by omega
    refine ⟨fun hclosed => ?_, fun hwin => ?_⟩
    · have hno : ¬ (v.window n).isSome = true := by rw [hclosed]; decide
      exact (if_neg hgo).trans ((if_neg howed).trans (if_neg hno))
    · exact (if_neg hgo).trans ((if_neg howed).trans (if_pos hwin))
  case orient =>
    intro s n k hn hk r o
    exact (if_neg (by omega)).trans rfl
  case conflict =>
    intro s n k since hn hk hdis v1 d v
    simp only [exec, execRiserConflictTimeout, hdis, show ¬(32 ≤ n ∨ 40 ≤ k) by omega, if_false]
    rfl

/-! ### The SHT commands -/

theorem sheetFields_none {c : Cmd} {s : State} (h : foreignSheet c s (c.n 2 4 0) = false) : sheetFields c s = none :=
  if_neg (Bool.eq_false_iff.mp h)

/-- Settles O24: each clause is its row where its occasion holds. -/
theorem shtCommands : Obligations.ShtCommands := by
  unfold Obligations.ShtCommands
  refine ⟨?commands, ?reset, ?pulse, ?restart⟩
  case commands =>
    intro s mb
    dsimp only
    intro hown
    have hfields := sheetFields_none hown
    refine ⟨fun h => ?_, fun h => ?_, fun h => ?_, fun h => ?_, fun h => ?_, fun h hroot hdiv hlock hsame hlead hstop => ?_⟩
    · exact congrArg Host.Outcome.next (runCommand_ans h hfields rfl)
    · exact congrArg Host.Outcome.next (runCommand_ans h hfields rfl)
    · exact congrArg Host.Outcome.next (runCommand_ans h hfields rfl)
    · exact congrArg Host.Outcome.next (runCommand_ans h hfields (by simp only [State.counters_map]))
    · exact congrArg Host.Outcome.next (runCommand_ans h hfields rfl)
    · refine runCommand_wait h ?_ ?_
      · have hbad : ¬(((s.msg mb).n 3 3 0 ≠ 0 ∧ (s.msg mb).n 3 3 0 < 8) ∨ (s.msg mb).n 3 7 4 ≠ 0) := by omega
        simp only [hbad, if_false, hlock, hfields, Bool.false_eq_true]
      · simp only [hstop, ne_eq, not_true, false_and, if_false, hsame, Bool.false_eq_true]
        simp only [← hsame, hlead, not_true, false_and, if_false]
  case reset =>
    intro s mb
    dsimp only
    intro h hnet hwidth hhost hfree
    refine runCommand_wait h ?_ ?_
    · have hbad : ¬((s.msg mb).n 2 17 16 = 0 ∨ (s.msg mb).n 2 15 0 < 10) := by omega
      simp only [hbad, if_false, hhost, Bool.not_true, Bool.false_eq_true]
    · simp only [hfree, Bool.false_eq_true, if_false]
  case pulse =>
    intro s net p o hpulse v1 v hrun
    simp only [exec, execShtResetPulseEnd, hpulse]
    simp only [v, v1] at hrun
    simp only [hrun, v, v1]
  case restart =>
    intro s n o hrun v
    simp only [exec, execSheetClockRestart, hrun, v]

/-! ### Captures -/

theorem capAllowed_none {s : State} (h : s.policy 3 = true) : capAllowed s = none := if_pos h

theorem foreignSheet_host {c : Cmd} (h : c.sheet = none) (s : State) (n : Nat) : foreignSheet c s n = false := by
  simp only [foreignSheet, Cmd.fabKey, h, Option.map_none]

/-- A capture that the host orders, for now, for an instant far enough off, or for a trigger, passes its checks (R214). -/
theorem capFields_host {c : Cmd} {s : State} {lead : Cmd → Nat} (hset : (c.w 2).toNat ≠ 0)
    (hmode : c.n 3 1 0 = 0 ∨ (c.n 3 1 0 = 1 ∧ s.stamp + lead c ≤ c.n64 4) ∨ c.n 3 1 0 = 2) (hhost : c.sheet = none)
    (hpolicy : s.policy 3 = true) : capFields lead c s = none := by
  have hbad : ¬((c.w 2).toNat = 0 ∨ c.n 3 1 0 = 3 ∨ (c.n 3 1 0 = 1 ∧ c.n64 4 < s.stamp + lead c)) := by omega
  simp only [capFields, hbad, if_false, capAllowed_none hpolicy, foreignSheet_host hhost, Bool.and_false]
  exact if_neg (by simp)

theorem capTake_empty {c : Cmd} {s : State} (h : s.fabric.cap.st = .empty) (lead : Nat) (ff : Bool) :
    capTake lead ff c s = .acc (s.setCap {
      st := .armed, mode := c.n 3 1 0, set := (c.w 2).toNat, trigSheet := c.n 3 12 8,
      t := if c.n 3 1 0 = 0 then s.stamp + lead else if c.n 3 1 0 = 1 then c.n64 4 else 0,
      trigger := 0, ffOnly := ff, poster := c.sheet, openId := some c.id, recs := [] }) [] := by
  simp only [capTake, h, ne_eq, not_true, if_false]

/-- Settles O25: each clause is its row where its occasion holds. -/
theorem captures : Obligations.Captures := by
  unfold Obligations.Captures
  refine ⟨?commands, ?instant, ?timeout, ?trigger, ?copied, ?read⟩
  case commands =>
    intro s mb
    dsimp only
    intro hpolicy
    have hallowed := capAllowed_none hpolicy
    refine ⟨fun h => ?_, fun h hset hmode hhost hempty => ?_, fun h hset hmode hhost hempty => ?_, fun h hset hzero hheld => ?_,
      fun h hhost hopen hheld => ?_⟩
    · exact congrArg Host.Outcome.next (runCommand_ans h hallowed rfl)
    · exact congrArg Host.Outcome.next (runCommand_acc h (capFields_host hset hmode hhost hpolicy) (capTake_empty hempty _ _))
    · exact congrArg Host.Outcome.next (runCommand_acc h (capFields_host hset hmode hhost hpolicy) (capTake_empty hempty _ _))
    · refine congrArg Host.Outcome.next (runCommand_acc h ?_ ?_)
      · simp only [hset, hzero, Bool.not_true, ne_eq, not_true, decide_false, Bool.or_self, Bool.false_eq_true, if_false, hallowed]
      · simp only [hheld, ne_eq, not_true, if_false]
    · refine congrArg Host.Outcome.next (runCommand_ans h ?_ ?_)
      · simp only [hallowed, Cmd.fabKey, hhost, Option.map_none]
        cases s.fabric.cap.poster <;> rfl
      · simp only [hopen, hheld, Option.isSome_none, Bool.false_eq_true, if_false]
  case instant =>
    intro s lead edge htimed hlo hhi hruns hlead
    exact if_pos ⟨htimed, hlo, hhi, hruns, hlead⟩
  case timeout =>
    intro s lead htimed hlead
    exact if_pos ⟨htimed, hlead⟩
  case trigger =>
    intro s n harmed hmode hzero hsheet hselv
    exact if_pos ⟨harmed, hmode, hzero, hsheet, hselv⟩
  case copied =>
    intro s lead
    rfl
  case read =>
    intro s o n at_ r hopen hargs hrec
    simp only [exec, execCapReadComplete, hopen, hargs, List.getD_cons_zero, List.getD_cons_succ, hrec]

end Sys2Proof.Machine
end

section
/-! Lanes: their events and the LNE commands (R361 to R390). -/

namespace Sys2Proof.Machine

/-! ### Lane events -/

/-- An Ethernet lane reported by its link layer whose receiver is ready to come up (R369). -/
abbrev State.laneReported (s : State) (g n : Nat) : Prop :=
  s.laneClass n = 1 ∧ s.laneState n = laneTRAINING ∧ s.flag (R.LNE_STATUS n) F.LNE_STATUS_REF_OK = true ∧ (s.lane n).lp = .none ∧
    s.laneGroup n = g

theorem exec_laneUp {s : State} {e : LaneUpSeen} {o0 : LaneObs} {v : State} (hhead : e.obs.head? = some o0)
    (hall : ∀ o ∈ e.obs, s.laneReported (s.laneGroup o0.lane) o.lane) (hmode : s.macMode (s.laneGroup o0.lane) o0.lane ≠ 0)
    (hdetect : s.laneDetect e.obs = (true, v)) :
    let g := s.laneGroup o0.lane
    let mode := s.macMode g o0.lane
    let w := e.obs.foldl (fun t o => (if mode = 6 then t else t.trainedFfe o.lane e.ffe).laneUpNow o.lane) v
    exec (.laneUp e) s = .next (if w.groupUp (w.groupLanes 1 g) then
        (if mode = 6 then (w.put (R.FHE_MAC g) F.FHE_MAC_MODE 6).put (R.FHE_MAC g) F.FHE_MAC_FEC_ON 1 else w).put
          (R.FHE_MAC g) F.FHE_MAC_UP 1
      else w).lanesDone := by
  have hready : e.obs.filter (fun o => decide (s.laneClass o.lane = 1 ∧ s.laneState o.lane = laneTRAINING ∧
      s.flag (R.LNE_STATUS o.lane) F.LNE_STATUS_REF_OK = true ∧ (s.lane o.lane).lp = .none)) = e.obs :=
    List.filter_eq_self.mpr fun o ho => by
      obtain ⟨hclass, hstate, href, hlp, -⟩ := hall o ho
      exact decide_eq_true ⟨hclass, hstate, href, hlp⟩
  have hgroup : e.obs.filter (fun o => decide (s.laneGroup o.lane = s.laneGroup o0.lane)) = e.obs :=
    List.filter_eq_self.mpr fun o ho => decide_eq_true (hall o ho).2.2.2.2
  simp only [exec, execLaneUp, hready, hhead, hgroup, hmode, if_false, hdetect, Bool.not_true, Bool.false_eq_true]

/-- What the end of a training attempt of group `g` of class `c` starts (Table 3-3). -/
def State.attemptEnds (v : State) (c g : Nat) : State :=
  match c with
  | 1 => ((v.trainable 1 g).foldl (fun s m => ((s.bump (R.LNE_COUNT m 4)).gazInc (73 + m)).laneTrain m) v).linkDown 1 g
  | 2 => v.put (R.JSD_STATUS g) F.JSD_STATUS_STATE 4
  | _ => v.yarnUntrained g

theorem exec_laneTrainingAttemptTimeout {s : State} {n : Nat} (hstate : s.laneState n = laneTRAINING) (hlp : (s.lane n).lp = .none)
    (hjesd : s.laneClass n = 2 → s.get (R.JSD_STATUS (s.laneGroup n)) F.JSD_STATUS_STATE ≠ 0) (wrong : Option Nat) :
    let v := (match wrong with | some w => s.mismatch 2 n 3 (s.laneClass n) w | none => s).lanesBusy n
    exec (.laneTrainingAttemptTimeout n wrong) s = .next (v.attemptEnds (s.laneClass n) (s.laneGroup n)) := by
  have hgo : ¬(s.laneState n ≠ laneTRAINING ∨ (s.lane n).lp ≠ .none ∨
      (s.laneClass n = 2 ∧ s.get (R.JSD_STATUS (s.laneGroup n)) F.JSD_STATUS_STATE = 0)) := by
    rintro (h | h | ⟨hclass, hzero⟩)
    · exact h hstate
    · exact h hlp
    · exact hjesd hclass hzero
  exact (if_neg hgo).trans rfl

/-- A move by at most one setting within 0 and 15 is the 4-bit value written (R366). -/
theorem ctleMove_eq (now : Nat) (d : Int) :
    (((max 0 (min 15 ((now : Int) + oneStep d))).toNat % 2 ^ 4 : Nat) : Int) = max 0 (min 15 ((now : Int) + max (-1) (min 1 d))) := by
  simp only [oneStep]
  omega

theorem State.yarnAdapt_regs (s : State) (n : Nat) (a : AdaptStep) : (s.yarnAdapt n a).regs = s.regs := by
  unfold State.yarnAdapt
  dsimp only
  split
  · exact State.setYport_regs _ _ _
  · rfl

/-- With the DFE off a step moves the CTLE alone (R366). -/
theorem exec_adaptationStep_ctle {s : State} {n : Nat} {a : AdaptStep} (hactive : s.laneActive n = true) (hclass : s.laneClass n ≠ 2)
    (hfreeze : s.flag (R.LNE_CTRL n) F.LNE_CTRL_ADAPT_FREEZE = false) (heye : a.eye = none) (hwf : s.RegsWf)
    (hdfe : s.flag (R.LNE_RXEQ n) F.LNE_RXEQ_DFE_EN = false) :
    exec (.adaptationStep n a) s = .next ((s.yarnAdapt n a).put (R.LNE_RXEQ n) F.LNE_RXEQ_CTLE_NOW
      (max 0 (min 15 ((s.get (R.LNE_RXEQ n) F.LNE_RXEQ_CTLE_NOW : Int) + oneStep a.ctle))).toNat) := by
  have hgo : ¬(s.laneClass n = 2 ∨ s.flag (R.LNE_CTRL n) F.LNE_CTRL_ADAPT_FREEZE = true) := by simp [hclass, hfreeze]
  have hget : ∀ f, (s.yarnAdapt n a).get (R.LNE_RXEQ n) f = s.get (R.LNE_RXEQ n) f := fun f =>
    State.get_of_rd (State.rd_of_regs (s.yarnAdapt_regs n a) _) f
  have hoff : ∀ x, ((s.yarnAdapt n a).put (R.LNE_RXEQ n) F.LNE_RXEQ_CTLE_NOW x).flag (R.LNE_RXEQ n) F.LNE_RXEQ_DFE_EN = false := fun x => by
    unfold State.flag at *
    rw [State.get_put_field (hwf.of_regs (s.yarnAdapt_regs n a)) _ _ _ _ (by decide) (by decide) (by decide), hget, hdfe]
  simp only [exec, execAdaptationStep, hactive, Bool.not_true, Bool.false_eq_true, if_false, heye, hgo, hget, hoff]

theorem regFacts_LNE_CTRL : ∀ n < 96, (regAt (R.LNE_CTRL n)).map (fun x => (x.1.base, x.2)) = some (R.LNE_CTRL 0, [n]) := by decide

theorem inBlock_LNE_CTRL : ∀ n < 96, inBlock (R.LNE_CTRL n) = true := by decide

theorem State.regWrite_LNE_CTRL (s : State) (m : Master) {n : Nat} (hn : n < 96) (v : Word) :
    s.regWrite m (R.LNE_CTRL n) v = (s.lneCtrlWrite n v).busOk := by
  obtain ⟨⟨r, ix⟩, hat, hfacts⟩ := Option.map_eq_some_iff.mp (regFacts_LNE_CTRL n hn)
  simp only [Prod.mk.injEq] at hfacts
  obtain ⟨hbase, rfl⟩ := hfacts
  have haddr : ¬ R.LNE_CTRL n < 0x2000 := by simp only [R.LNE_CTRL]; omega
  have hstr : ¬(0xE8000 ≤ R.LNE_CTRL n ∧ R.LNE_CTRL n < 0xF0000) := by simp only [R.LNE_CTRL]; omega
  simp only [State.regWrite, if_neg haddr, hat, hbase, if_neg hstr]
  rfl

theorem exec_lneCtrlLock {s : State} {m : Master} (hm : m = .ubtor ∨ m = .jtag ∨ m = .swatch) {n : Nat} (hn : n < 96)
    (hdev : s.sys.dev ≠ .off) (v : Word) :
    exec (.lneCtrlLock m n v) s = .next (State.answered m (s.lneCtrlWrite n (v ||| 0x80000000)).busOk) := by
  have halign : R.LNE_CTRL n % 4 = 0 := by simp only [R.LNE_CTRL]; omega
  have hreach : busReach m true (R.LNE_CTRL n) = true := by
    have haddr : 0x400000 ≤ R.LNE_CTRL n := by simp only [R.LNE_CTRL]; omega
    have hin := inBlock_LNE_CTRL n hn
    rcases hm with rfl | rfl | rfl
    · simp only [busReach, hin, Bool.true_and, Bool.not_eq_true', Bool.and_eq_false_iff, decide_eq_false_iff_not]
      omega
    · simp only [busReach, hin, Bool.true_and]
    · simp only [busReach, hin, Bool.true_and, decide_eq_true haddr]
  refine (if_pos hn).trans ?_
  rw [State.access_of_reach _ hdev halign hreach, State.regWrite_LNE_CTRL s m hn]

/-- Settles O26: each clause is its row where its occasion holds. -/
theorem laneEvents : Obligations.LaneEvents := by
  unfold Obligations.LaneEvents
  refine ⟨?up, ?attempt, ?faults, ?unwatched, ?reference, ?adapt, ?limit, ?lowPower, ?checker, ?chkbits, ?lock⟩
  case up =>
    intro s e o0 v hhead g hall mode hmode hdetect w
    have hexec := exec_laneUp hhead hall hmode hdetect
    refine ⟨fun hpart => hexec.trans ?_, fun hup => hexec.trans ?_⟩
    · exact congrArg (fun x => Host.Outcome.next (State.lanesDone x)) (if_neg (Bool.eq_false_iff.mp hpart))
    · exact congrArg (fun x => Host.Outcome.next (State.lanesDone x)) (if_pos hup)
  case attempt =>
    intro s n wrong hstate hlp v
    have hclass2 : s.laneClass n ≠ 2 → s.laneClass n = 2 → s.get (R.JSD_STATUS (s.laneGroup n)) F.JSD_STATUS_STATE ≠ 0 :=
      fun h h' => absurd h' h
    have hexec := fun hjesd => (exec_laneTrainingAttemptTimeout hstate hlp hjesd wrong).trans
      (rfl : _ = Host.Outcome.next (v.attemptEnds (s.laneClass n) (s.laneGroup n)))
    clear_value v
    refine ⟨fun hclass => ?_, fun hclass hst => ?_, fun hclass => ?_, fun hclass hst => ?_, fun hclass hst => ?_⟩
    · rw [hexec (hclass2 (by omega)), hclass]; rfl
    · rw [hexec (fun _ => hst), hclass]; rfl
    · rw [hexec (hclass2 (by omega)), hclass]; rfl
    · simp only [exec, execLaneRetryTimer, hclass, hst, hstate, hlp, and_self, decide_true, Bool.and_self, if_true]
    · simp only [exec, execLaneRetryTimer, hclass, hst, hstate, hlp, and_self, decide_true, Bool.and_self, if_true]
  case faults =>
    intro s n hwatch
    refine ⟨?_, fun hup => ?_, fun hpll => ?_⟩
    · exact if_pos hwatch
    · exact if_pos ⟨hwatch, hup⟩
    · simp only [exec, execPllUnlock, hpll, Bool.not_true, Bool.false_eq_true, if_false, State.pllLost, hwatch, if_true, Bool.false_and]
  case unwatched =>
    intro s n hpll hwatch
    simp only [exec, execPllUnlock, hpll, Bool.not_true, Bool.false_eq_true, if_false, State.pllLost, hwatch, Bool.false_and]
  case reference =>
    intro s k
    exact ⟨rfl, rfl⟩
  case adapt =>
    intro s n a hactive hclass hfreeze heye hwf hdfe
    have hregs := s.yarnAdapt_regs n a
    refine ⟨_, exec_adaptationStep_ctle hactive hclass hfreeze heye hwf hdfe, fun k hk => ?_, ?_⟩
    · rw [State.rd_put_other _ _ _ hk, State.rd_of_regs hregs]
    · rw [State.get_put_same (hwf.of_regs hregs) _ _ _ (by decide) (by decide)]
      exact ctleMove_eq _ _
  case limit =>
    intro s n hwatch hup hclass htap
    have hany : (List.range 12).any (fun j => decide (s.dfeTap n j = dfeLimit j ∨ s.dfeTap n j = -dfeLimit j)) = true :=
      List.any_eq_true.mpr ⟨0, by decide, decide_eq_true (.inl htap)⟩
    exact if_pos ⟨hwatch, hup, hclass, hany⟩
  case lowPower =>
    intro s n
    refine ⟨fun hlp hup => ?_, fun hlp => ⟨fun href => ?_, fun href => ?_⟩⟩
    · intro d
      simp only [exec, execLowPowerEntryComplete, hlp, hup, if_false, show ¬ (2 : Nat) = 1 by decide]
      rfl
    · simp only [exec, execLowPowerExitComplete, hlp, href, Bool.not_false, if_true]
    · intro v w x
      have hexec : exec (.lowPowerExitComplete n) s = .next (((if (s.lane n).down then v.setLaneState n laneDOWN
          else if s.laneClass n = 2 then (v.laneUpNow n).linkStart (s.laneClass n) (s.laneGroup n)
          else w.linkStart (s.laneClass n) (s.laneGroup n)).laneMove n).lanesDone.bindsDone) := by
        simp only [exec, execLowPowerExitComplete, hlp, href, Bool.not_true, Bool.false_eq_true, if_false]
        rfl
      rw [hexec]
      by_cases hclass : s.laneClass n = 2
      · simp only [x, hclass]
      · simp only [x, hclass, if_false]
  case checker =>
    intro s n errors inv hcheck
    refine ⟨fun hlock hmatch => ?_, fun hlock hle hloop => ?_⟩
    · refine if_pos ⟨hcheck, by rw [hlock]; decide, fun hloop => hmatch.resolve_left (fun h => h hloop)⟩
    · exact if_pos ⟨hcheck, hlock, hle, hloop⟩
  case chkbits =>
    intro s n
    rfl
  case lock =>
    intro s m n v hm hn
    refine ⟨fun hoff => (if_pos hn).trans (congrArg _ (if_pos hoff)), fun hdev => exec_lneCtrlLock hm hn hdev v⟩

/-! ### The LNE commands -/

theorem badLane_none {c : Cmd} (h : c.n 2 6 0 ≤ 95) (s : State) : badLane c s = none :=
  badIf_eq_none.mpr (decide_eq_false (Nat.not_lt.mpr h))

theorem laneUnused_used {c : Cmd} {s : State} (h : s.laneClass (c.n 2 6 0) ≠ 0) (k : Ans) : laneUnused c s k = k := if_neg h

/-- No other lane of an idle group is in TRAINING or UP. -/
theorem State.groupIdle_others {s : State} {n : Nat} (h : s.groupIdle n = true) :
    (s.lanesWith n).any (fun m => decide (m ≠ n ∧ (s.laneState m = laneTRAINING ∨ s.laneState m = laneUP))) = false := by
  simp only [State.groupIdle, List.all_eq_true, decide_eq_true_eq] at h
  simp only [List.any_eq_false, decide_eq_true_eq]
  rintro m hm ⟨-, hrun⟩
  have hidle := h m hm
  simp only [laneDOWN, laneTEST] at hidle
  simp only [laneTRAINING, laneUP] at hrun
  omega

theorem State.badPattern_ok {s : State} {n p limit : Nat} (hle : p ≤ limit)
    (h6 : p = 6 → s.flag (R.LNE_RATE n) F.LNE_RATE_PAM4 = true) : s.badPattern n p limit = false := by
  unfold State.badPattern
  rw [decide_eq_false (Nat.not_lt.mpr hle), Bool.false_or]
  by_cases hp : p = 6
  · rw [h6 hp, Bool.not_true, Bool.and_false]
  · rw [decide_eq_false hp, Bool.false_and]

/-- Settles O27: each command on a used lane. -/
theorem laneCommands : Obligations.LaneCommands := by
  unfold Obligations.LaneCommands
  intro s mb
  dsimp only
  intro hn hused
  have hlane := badLane_none hn
  have hunused := laneUnused_used hused
  refine ⟨?status, ?power, ?retrain, ?bindoff, ?up, ?test, ?eq, ?adapt, ?pattern, ?counters⟩
  case status =>
    intro h
    exact congrArg Host.Outcome.next (runCommand_ans h (hlane s) rfl)
  case power =>
    intro h hpower hidle
    have hfields : (badLane (s.msg mb) s <|> badIf (decide ((s.msg mb).n 2 17 16 = 3))) = none := by
      rw [hlane, decide_eq_false hpower]; rfl
    split
    · rename_i hall
      refine congrArg Host.Outcome.next (runCommand_ans h hfields ((hunused _).trans ?_))
      exact (if_neg (Bool.eq_false_iff.mp hidle)).trans (if_pos hall)
    · rename_i hall
      refine congrArg Host.Outcome.next (runCommand_acc h hfields ((hunused _).trans ?_))
      exact (if_neg (Bool.eq_false_iff.mp hidle)).trans (if_neg hall)
  case retrain =>
    intro h hls
    refine congrArg Host.Outcome.next (runCommand_acc h (hlane s) ((hunused _).trans (if_neg ?_)))
    rwa [List.isEmpty_iff]
  case bindoff =>
    intro h hidle
    refine congrArg (fun u => Host.Outcome.next (State.bindsDone u)) (runCommand_acc h (hlane s) ((hunused _).trans ?_))
    refine (if_neg (Bool.eq_false_iff.mp hidle)).trans ?_
    simp only [List.isEmpty_iff]
    rfl
  case up =>
    intro h hidle hmarked
    refine congrArg Host.Outcome.next (runCommand_acc h (hlane s) ((hunused _).trans (if_neg ?_)))
    have hidle : s.groupIdle (s.msg mb).lane = true := hidle
    have hmarked : s.groupMarked (s.msg mb).lane = false := hmarked
    rw [hidle, hmarked]
    decide
  case test =>
    intro h hle h6 hidle hstate hkeep
    refine congrArg Host.Outcome.next (runCommand_ans h ?_ ((hunused _).trans ((if_neg ?_).trans ?_)))
    · dsimp only [Cmd.lane]
      rw [hlane, State.badPattern_ok hle h6]; rfl
    · rintro (hrun | hany)
      · exact hrun hstate
      · exact Bool.false_ne_true ((State.groupIdle_others hidle).symm.trans hany)
    · have hon : b2n (decide ((s.msg mb).n 3 29 28 ≠ 2)) * 2 ^ 31 + b2n (decide ((s.msg mb).n 3 29 28 ≠ 2)) * 2 ^ 30 =
          if (s.msg mb).n 3 29 28 = 2 then 0 else 0xC0000000 := by
        by_cases h2 : (s.msg mb).n 3 29 28 = 2 <;> simp [h2, b2n]
      simp only [hkeep, Bool.false_eq_true, if_false, hon, Cmd.lane]
  case eq =>
    intro h htx hrx hc0 hsum hneg hbits hlock hidle
    have hok : ffeOk ((s.msg mb).w 4) = true := by
      simp only [ffeOk, Bool.and_eq_true, decide_eq_true_eq, List.all_eq_true]
      exact ⟨⟨hc0, hsum⟩, hneg⟩
    refine congrArg Host.Outcome.next (runCommand_ans h ?_ ((hunused _).trans ?_))
    · rw [hlane]
      simp only [hok, hbits, hrx, Bool.not_true, ne_eq, not_true, decide_false, Bool.or_self, Bool.and_false, Bool.false_and]
      rfl
    · have hlive : ¬(s.laneClass ((s.msg mb).n 2 6 0) ≠ 2 ∧
          (s.laneState ((s.msg mb).n 2 6 0) = laneTRAINING ∨ s.laneState ((s.msg mb).n 2 6 0) = laneUP)) := by tauto
      simp only [Cmd.lane, hlock, hlive, decide_false, hrx, htx, Bool.false_eq_true, if_false, Bool.false_and, if_true]
  case adapt =>
    intro h hclass
    exact congrArg Host.Outcome.next (runCommand_ans h (hlane s) ((hunused _).trans (if_neg hclass)))
  case pattern =>
    intro h hstate hgen hchk
    refine congrArg Host.Outcome.next (runCommand_ans h ?_ ((hunused _).trans (if_neg (not_not.mpr hstate))))
    dsimp only [Cmd.lane]
    rw [hlane, State.badPattern_ok (by omega) (by omega), State.badPattern_ok (by omega) (by omega)]
    rfl
  case counters =>
    intro h hkeep
    refine congrArg Host.Outcome.next (runCommand_ans h (hlane s) ((hunused _).trans ?_))
    simp only [State.counters_map, hkeep, Bool.false_eq_true, if_false]
    rfl

end Sys2Proof.Machine
end

section
/-! The loader: ports, staging, verification, commits and the LDR commands (R240 to R269). -/

namespace Sys2Proof.Machine

/-! ### Chart ports -/

theorem chartPort_takes {s : State} {n : Nat} {beat : List Byte} (hn : n < 32) (hlen : beat.length = 16) (hruns : s.islandRuns n = true)
    (hports : s.portsOpen n = true) (hslow : s.lck1Fast n = false)
    (hen : s.flag (R.LDR_GRANT_WALES_HI n) F.LDR_GRANT_WALES_HI_EN = true) :
    ¬(32 ≤ n ∨ beat.length ≠ 16 ∨ ¬ s.islandRuns n = true ∨ ¬ s.portsOpen n = true ∨ s.lck1Fast n = true ∨
      ¬ s.flag (R.LDR_GRANT_WALES_HI n) F.LDR_GRANT_WALES_HI_EN = true) := by
  simp [hlen, hruns, hports, hslow, hen, hn]

theorem State.portCtx_withDrop (s : State) (d : Sparse Nat) (n : Nat) :
    State.portCtx { s with ldr := { s.ldr with drop := d } } n = s.portCtx n := rfl

/-- The stream of a port is abandoned in STAGING or VERIFYING (R258). -/
theorem State.portAbandon_rejects {s : State} {n c : Nat} (hport : s.portCtx n = some c) (hst : s.ctxState c = 1 ∨ s.ctxState c = 2) :
    s.portAbandon n = State.reject { s with ldr := { s.ldr with drop := sset (fun _ => 0) s.ldr.drop n 0 } } c 0x13 .BUSY := by
  simp only [State.portAbandon, State.portCtx_withDrop, hport]
  exact if_pos hst

/-! ### Staging -/

/-- The end of a source that is not a port: an error, a wrong length, or the stream is verified (R250). -/
theorem exec_stagingComplete {s : State} {c : Nat} {x : LdrCtx} (hctx : s.ctx c = some x) (hst : s.ctxState c = 1)
    (hsrc : ∀ p, x.src ≠ .port p) (err : Bool) :
    exec (.stagingComplete c err) s = .next (if err then s.reject c 0x13 .BUSY
      else if x.raw.length < 64 ∨ x.raw.length ≠ hdrLength x.raw then s.reject c 0x03 .BAD_LENGTH else s.setCtxState c 2) := by
  cases hx : x.src with
  | port p => exact absurd hx (hsrc p)
  | flash b =>
    simp only [exec, execStagingComplete, hctx, hst, hx, ne_eq, not_true, if_false]
    split
    · rfl
    · split <;> rfl
  | host a l h =>
    simp only [exec, execStagingComplete, hctx, hst, hx, ne_eq, not_true, if_false]
    split
    · rfl
    · split <;> rfl

theorem exec_stagingDataArrival {s : State} {c : Nat} {x : LdrCtx} (hctx : s.ctx c = some x) (hst : s.ctxState c = 1)
    (hsrc : ∀ p, x.src ≠ .port p) (bs : List Byte) : exec (.stagingDataArrival c bs) s = .next (s.stageBytes c bs) := by
  cases hx : x.src with
  | port p => exact absurd hx (hsrc p)
  | flash b => simp only [exec, execStagingDataArrival, hctx, hst, hx, if_true]
  | host a l h => simp only [exec, execStagingDataArrival, hctx, hst, hx, if_true]

/-! ### Commits -/

/-- The write port takes context `c`: checks 13 to 16, then the commit begins (R253, R254). -/
def State.commitTaken (v : State) (c : Nat) (x : LdrCtx) : State :=
  match v.commitFails x with
  | .error (r, rc, wire) => (v.wr (R.LDR_CTX_WIRE c) wire).reject c r rc
  | .ok tg =>
    let w := ((v.setCtxState c 4).put (R.LDR_CTX c) F.LDR_CTX_PLANE tg).swtAbandon (fun q => decide (q.kind = 4) &&
      ((framesOf (plainOf x.raw)).getD []).any (fun f => decide (f.kind = 3 ∧ 128 * f.unit + f.block = q.target)))
    State.commitLand { w with ldr := { w.ldr with writing := some c, began := w.stamp, landed := 0 } }

theorem exec_commitStart {s : State} {c : Nat} {x : LdrCtx} (hwriting : s.ldr.writing = none) (hnext : s.nextCommit = some c)
    (hctx : s.ctx c = some x) : exec .commitStart s =
      .next ((State.switchesDue { s with ldr := { s.ldr with rrWrite := (c + 1) % 4 } }).commitTaken c x) := by
  unfold State.commitTaken
  generalize hv : State.switchesDue { s with ldr := { s.ldr with rrWrite := (c + 1) % 4 } } = v
  simp only [exec, execCommitStart]
  split
  · rename_i c' _ hc'
    obtain rfl := Option.some.inj (hnext.symm.trans hc')
    simp only [hctx, hv]
    cases v.commitFails x <;> rfl
  · rename_i hno
    exact absurd hnext (hno c hwriting)

/-! ### LDR_CTRL -/

theorem regFacts_LDR_CTRL : (regAt R.LDR_CTRL).map (fun x => (x.1.base, x.2, [x.1.rw, x.1.rwl, x.1.w1c, x.1.w1s])) =
    some (R.LDR_CTRL, [], [0, 0, 0, 0x80000000]) := by decide

/-- LOCK of LDR_CTRL is set by writing 1 to it, and nothing else of the register changes (R260). -/
theorem State.regWrite_LDR_CTRL (s : State) (m : Master) (v : Word) :
    s.regWrite m R.LDR_CTRL v =
      (s.wr R.LDR_CTRL (word (((s.rd R.LDR_CTRL).toNat &&& (2 ^ 32 - 1)) ||| (v.toNat &&& 0x80000000)))).busOk := by
  obtain ⟨⟨r, ix⟩, hat, hfacts⟩ := Option.map_eq_some_iff.mp regFacts_LDR_CTRL
  simp only [Prod.mk.injEq, List.cons.injEq, and_true] at hfacts
  obtain ⟨hbase, rfl, hrw, hrwl, hw1c, hw1s⟩ := hfacts
  have hcode : s.regWrite m R.LDR_CTRL v = (s.codeWrite r R.LDR_CTRL v).busOk := by
    simp only [State.regWrite, hat, hbase]
    rfl
  rw [hcode]
  simp only [State.codeWrite, hrw, hrwl, hw1c, hw1s, hbase, ne_eq, not_true, false_and, if_true, ite_self, Nat.or_zero,
    Nat.and_zero, Nat.sub_zero]

theorem exec_ldrCtrlLock_sets {s : State} {m : Master} (hm : m = .ubtor ∨ m = .jtag) (hwf : s.RegsWf) (hdev : s.sys.dev ≠ .off) (w : Word) :
    ∃ t, exec (.ldrCtrlLock m w) s = .next t ∧ t.get R.LDR_CTRL F.LDR_CTRL_LOCK = 1 ∧ ∀ a, a ≠ R.LDR_CTRL → t.rd a = s.rd a := by
  have hreach : busReach m true R.LDR_CTRL = true := by rcases hm with rfl | rfl <;> decide
  have hregs : (s.access m R.LDR_CTRL (w ||| 0x80000000)).regs = (s.wr R.LDR_CTRL
      (word (((s.rd R.LDR_CTRL).toNat &&& (2 ^ 32 - 1)) ||| ((w ||| 0x80000000).toNat &&& 0x80000000)))).regs := by
    rw [State.access_of_reach _ hdev (by decide) hreach, State.answered_regs, State.regWrite_LDR_CTRL, State.busOk_snd]
  refine ⟨s.access m R.LDR_CTRL (w ||| 0x80000000), rfl, ?_, fun a ha => ?_⟩
  · rw [State.get_of_rd (State.rd_of_regs hregs _), State.get, State.rd_wr_same hwf]
    have hand : (w ||| 0x80000000).toNat &&& 0x80000000 = 2 ^ 31 := by
      refine Nat.eq_of_testBit_eq fun i => ?_
      rw [BitVec.toNat_or, Nat.testBit_and, Nat.testBit_or, show (0x80000000 : Nat) = 2 ^ 31 by decide,
        show ((0x80000000 : Word)).toNat = 2 ^ 31 by decide, Nat.testBit_two_pow]
      by_cases hi : 31 = i <;> simp [hi]
    have hbit : (((s.rd R.LDR_CTRL).toNat &&& (2 ^ 32 - 1)) ||| 2 ^ 31).testBit 31 = true := by
      rw [Nat.testBit_or, Nat.testBit_two_pow_self, Bool.or_true]
    have hlt : ((s.rd R.LDR_CTRL).toNat &&& (2 ^ 32 - 1)) ||| 2 ^ 31 < 2 ^ 32 :=
      Nat.or_lt_two_pow (Nat.lt_of_le_of_lt Nat.and_le_right (by decide)) (by decide)
    rw [hand]
    simp only [Fld.get, F.LDR_CTRL_LOCK, word, BitVec.toNat_ofNat, Nat.mod_eq_of_lt hlt, bitsOf]
    rw [Nat.testBit_eq_decide_div_mod_eq, decide_eq_true_eq] at hbit
    exact hbit
  · rw [State.rd_of_regs hregs, State.rd_wr_other _ _ ha]

/-- Settles O28: each clause is its row where its occasion holds. -/
theorem loaderStreams : Obligations.LoaderStreams := by
  unfold Obligations.LoaderStreams
  refine ⟨?beat, ?abort, ?staging, ?verify, ?start, ?complete, ?lock, ?sets, ?commands⟩
  case beat =>
    intro s n c x beat hn hlen hruns hports hslow hen
    have hgo := chartPort_takes hn hlen hruns hports hslow hen
    refine ⟨fun hdrop hport hopen hfree => ?_, fun hdrop hport hctx hst hpart => ?_, fun hdrop => ?_⟩
    · simp only [exec, execChartPortBeat, hgo, if_false, hdrop, ne_eq, not_true, hport, hopen, if_true, hfree]
    · have hfull : (decide (64 ≤ x.raw.length) && x.raw.length == hdrLength x.raw) = false := by
        rcases hpart with h | h
        · rw [decide_eq_false (by omega), Bool.false_and]
        · rw [beq_false_of_ne h, Bool.and_false]
      simp only [exec, execChartPortBeat, hgo, if_false, hdrop, ne_eq, not_true, hport, hctx, hst, hfull, Bool.false_eq_true, not_false_iff,
        and_self, if_true]
    · exact (if_neg hgo).trans (if_pos hdrop)
  case abort =>
    intro s n c x hport hctx v
    refine ⟨fun hst => congrArg _ (State.portAbandon_rejects hport hst), fun hst => ?_⟩
    simp only [exec, execChartPortTimeout, hport, hctx, hst, if_true]
  case staging =>
    intro s c x bs hctx hst hsrc
    have hexec := exec_stagingComplete hctx hst hsrc
    refine ⟨exec_stagingDataArrival hctx hst hsrc bs, hexec true, fun hlen heq => ?_, fun hbad => ?_⟩
    · rw [hexec false]
      exact congrArg _ ((if_neg (by decide)).trans (if_neg (by omega)))
    · rw [hexec false]
      exact congrArg _ ((if_neg (by decide)).trans (if_pos hbad))
  case verify =>
    intro s c x hctx hst hready
    have hgo : ¬(s.ctxState c ≠ 2 ∨ x.ready = true) := by simp [hst, hready]
    simp only [exec, execVerificationComplete, hctx, hgo, if_false]
    cases s.verifyFails x.raw with
    | some r => rfl
    | none =>
      cases hx : x.src with
      | host a l held => cases held <;> rfl
      | port p => rfl
      | flash b => rfl
  case start =>
    intro s c x hwriting hnext hctx v l
    refine (exec_commitStart hwriting hnext hctx).trans (congrArg Host.Outcome.next (?_ : v.commitTaken c x = _))
    clear_value v
    unfold State.commitTaken
    cases v.commitFails x <;> rfl
  case complete =>
    intro s c x hwriting hctx l cls v1 v2 v
    refine ⟨fun hcast => ?_, fun hcast hfailed => ?_⟩
    · simp only [exec, execCommitComplete, hwriting, hctx, hcast, Bool.false_eq_true, if_false]
      rfl
    · simp only [exec, execCommitComplete, hwriting, hctx, hcast, if_true, hfailed]
      rfl
  case lock => exact fun s m w _ => rfl
  case sets => exact fun s m w hm hwf hdev => exec_ldrCtrlLock_sets hm hwf hdev w
  case commands =>
    intro s mb
    dsimp only
    refine ⟨?status, ?load, ?commit, ?abandon, ?caston, ?grant, ?locked, ?counters, ?switch⟩
    case status => exact fun h => congrArg Host.Outcome.next (runCommand_ans h rfl rfl)
    case load =>
      intro q h haddr hlen hlo hhi hclass hfree
      refine congrArg Host.Outcome.next (runCommand_acc h (badIf_eq_none.mpr (decide_eq_false (by omega))) ?_)
      have hok : (!s.classOk 1 && !s.classOk 2) = false := by rcases hclass with h | h <;> simp [h]
      simp only [hok, Bool.false_eq_true, if_false, hfree]
    case commit =>
      intro x h hctx hst hready
      exact congrArg Host.Outcome.next (runCommand_acc h rfl (by simp only [hctx, hst, hready, and_self, if_true]))
    case abandon =>
      intro h hlo hhi
      exact congrArg Host.Outcome.next (runCommand_ans h rfl (if_pos ⟨hlo, hhi⟩))
    case caston =>
      intro q h hdev hcast hfree
      refine congrArg Host.Outcome.next (runCommand_acc h rfl ?_)
      simp only [hdev, hcast, ne_eq, not_true, if_false, Bool.false_eq_true, State.castLoad, hfree, Option.map_some]
    case grant =>
      intro h hlock hown
      refine congrArg Host.Outcome.next (runCommand_ans h rfl ?_)
      simp only [hlock, hown, Bool.false_eq_true, if_false]
    case locked => exact fun h => congrArg Host.Outcome.next (runCommand_ans h rfl rfl)
    case counters => exact fun h => congrArg Host.Outcome.next (runCommand_ans h rfl (by simp only [State.counters_map]))
    case switch =>
      intro h hfields hgroup hshift hwalk
      refine congrArg Host.Outcome.next (runCommand_acc h hfields ?_)
      have hwalk' : swWalk (s.msg mb) s.commitLand = none := hwalk
      simp only [hgroup, Option.isSome_none, Bool.false_or, hshift, Bool.false_eq_true, if_false, hwalk']
      rfl

end Sys2Proof.Machine
end

section
/-! Streams: offers, deliveries, flits, bind-off and the STR commands (R273 to R305). -/

namespace Sys2Proof.Machine

/-! ### An element offered to an open stream -/

section
variable {s : State} {n : Nat}

/-- The producer's offer to an unbuffered open stream, by what its consumer grants (R276, R279). -/
theorem State.strOffer_direct (hopen : ((s.strSettle n).stream n).st = .open_) (hbuf : (s.strSettle n).strBuffered n = false) (e : Elem) :
    let v := s.strSettle n
    let w := v.strAhead n (2 * (v.stream n).seams.length + 1)
    (s.strOffer n none e).2 = if w.strBlocked n then
        if epStalls (v.strProducer n) then w
        else (w.setStream n { w.stream n with losses := (w.stream n).losses + 1, wpos := (w.stream n).wpos + 1 }).strLoss n 3
      else (w.strPass n e).strFlit n 1 := by
  intro v w
  have hoffer : s.strOffer n none e = State.strOffer.direct n e v (v.stream n) (epStalls (v.strProducer n)) := by
    simp only [State.strOffer, hopen, hbuf, Bool.false_eq_true, if_false]
    rfl
  have hdirect : State.strOffer.direct n e v (v.stream n) (epStalls (v.strProducer n)) = if w.strBlocked n then
      State.strOffer.lose n w (w.stream n) (epStalls (v.strProducer n)) else (true, (w.strPass n e).strFlit n 1) := rfl
  rw [hoffer, hdirect]
  clear_value w
  by_cases hblock : w.strBlocked n
  · rw [if_pos hblock, if_pos hblock]
    by_cases hstall : epStalls (v.strProducer n)
    · rw [State.strOffer.lose, if_pos hstall, if_pos hstall]
    · rw [State.strOffer.lose, if_neg hstall, if_neg hstall]
  · rw [if_neg hblock, if_neg hblock]

/-- The offer to a FREE buffered stream goes to its ring's writer. -/
theorem State.strOffer_ring (hopen : ((s.strSettle n).stream n).st = .open_) (hbuf : (s.strSettle n).strBuffered n = true) (e : Elem) :
    s.strOffer n none e = State.strOffer.intoRing n none e (s.strSettle n) ((s.strSettle n).stream n)
      (epStalls ((s.strSettle n).strProducer n)) := by
  simp only [State.strOffer, hopen, hbuf, if_true]

/-- A seam waits at the writer's place (R292). -/
theorem State.intoRing_seam {v : State} {x : Stream} {e : Elem} (hroom : (x.seams.filter (·.2)).length < 64) (hfree : v.strSched n = false)
    (hseam : e.isSeam = true) (stalls : Bool) :
    (State.strOffer.intoRing n none e v x stalls).2 = v.setStream n { x with seams := x.seams ++ [(x.wpos, true)] } := by
  have hfew : decide (64 ≤ (x.seams.filter (·.2)).length) = false := decide_eq_false (by omega)
  simp only [State.strOffer.intoRing, hfew, hfree, hseam, Bool.and_false, Bool.false_eq_true, if_false, if_true]

/-- An element that finds its place empty within the ring is stored there with the owner's TAG (R284). -/
theorem State.intoRing_elem {v : State} {x : Stream} {e : Elem} (hroom : (x.seams.filter (·.2)).length < 64) (hfree : v.strSched n = false)
    (hseam : e.isSeam = false) (hgap : e.isGap = false) (hlo : x.dpos ≤ x.wpos) (hhi : x.wpos < x.dpos + v.strRingLen n)
    (hempty : x.mark x.wpos = .empty) (stalls : Bool) :
    let y := { x with wpos := x.wpos + 1 }
    let g : Elem := { e with sb := BitVec.ofNat 8 (v.strTenant n % 8 * 32 + e.sb.toNat % 32) }
    (State.strOffer.intoRing n none e v x stalls).2 =
      ((v.setStream n y).setStream n { y.setMark x.wpos .elem with fillTo := max x.fillTo (x.wpos + 1) }).ringPut n x.wpos g := by
  intro y g
  have hfew : decide (64 ≤ (x.seams.filter (·.2)).length) = false := decide_eq_false (by omega)
  have hstall : (stalls && decide (x.dpos + v.strRingLen n ≤ x.wpos)) = false := by
    rw [decide_eq_false (by omega), Bool.and_false]
  have hmax : max x.wpos (x.wpos + 1) = x.wpos + 1 := by omega
  have hlate : ¬(x.wpos < x.dpos ∨ (v.strSched n = true ∧ x.wpos < x.relTo ∧
      x.pend.all (fun u => !(decide (u.start ≤ x.wpos) && decide (x.wpos < u.start + u.len))) = true)) := by
    rw [hfree]
    simp only [Bool.false_eq_true, false_and, or_false]
    omega
  have hlen : ∀ z, (v.setStream n z).strRingLen n = v.strRingLen n := fun z => rfl
  have htenant : ∀ z, (v.setStream n z).strTenant n = v.strTenant n := fun z => rfl
  have hmark : Stream.mark y x.wpos = .empty := hempty
  have hplace : ¬(x.dpos + v.strRingLen n ≤ x.wpos ∨ Stream.mark y x.wpos ≠ .empty) := by
    rw [hmark]
    simp only [ne_eq, not_true, or_false]
    omega
  simp only [y] at hplace
  simp only [State.strOffer.intoRing, hfew, hseam, hgap, hstall, Bool.and_false, Bool.false_and, Bool.false_eq_true, if_false, Option.getD_none, hmax, hlate,
    hlen, htenant, hplace, y, g]

/-! ### Deliveries and flits -/

theorem State.strHop_sends {v t : State} {ue more : Bool} {e : Elem} (hroom : v.strRoom n = true) (hsend : v.strSend n ue more = (some e, t)) :
    v.strHop n ue more =
      ((t.setStream n { t.stream n with seqMid := ((t.stream n).seqMid + 1) % 2 ^ 24 }).strPush n e).strFlit n 1 := by
  simp only [State.strHop, hroom, hsend, Bool.not_true, Bool.false_eq_true, if_false]

/-- A FREE buffered stream without a seam ahead sends the element its ring holds at the reader's place (R282). -/
theorem State.strSend_elem {v : State} (hfinal : (v.stream n).final = none) (hbuf : v.strBuffered n = true) (hfree : v.strSched n = false)
    (hseams : (v.stream n).seams = []) (helem : (v.stream n).mark (v.stream n).dpos = .elem) :
    v.strSend n false false = (some (v.ringGet n (v.stream n).dpos),
      v.setStream n { (v.stream n).setMark (v.stream n).dpos .empty with dpos := (v.stream n).dpos + 1 }) := by
  simp only [State.strSend, hseams, State.strSend.next, hbuf, hfinal, hfree, helem, State.strSend.advance]
  rfl

theorem exec_graticuleStreamFlit_producer {seq : Nat} {els : List Elem} (hopen : (s.stream n).st ≠ .closed) (hels : els ≠ [])
    (hlen : els.length ≤ 3) (hroute : s.strBuffered n = true ∨ s.strRouted n = true) :
    exec (.graticuleStreamFlit n seq (.producer els)) s = .next (s.flitOfProducer n seq els) := by
  have hgo : ¬(els = [] ∨ 3 < els.length ∨ (s.strBuffered n = false ∧ s.strRouted n = false)) := by
    rintro (h | h | ⟨h, h'⟩)
    · exact hels h
    · omega
    · rcases hroute with hr | hr <;> simp_all
  exact (if_neg hopen).trans (if_neg hgo)

theorem exec_graticuleStreamFlit_buffer {seq k : Nat} (hopen : (s.stream n).st ≠ .closed) (hbuf : s.strBuffered n = true) (hk : k ≤ 3) :
    exec (.graticuleStreamFlit n seq (.buffer k)) s = .next (s.flitOfBuffer n seq k) := by
  have hgo : ¬(s.strBuffered n = false ∨ 3 < k) := by rw [hbuf]; simp; omega
  exact (if_neg hopen).trans (if_neg hgo)

/-- The consumer takes the final seam (Table 8-5 step 3). -/
theorem State.strTake_final {e : Elem} (hbind : (s.stream n).st = .binding) (hsent : (s.stream n).finalSent = true)
    (hbox : (s.stream n).inbox = [e]) :
    let v := s.setStream n { s.stream n with inbox := [], flits := dropElems (s.stream n).flits.sum (s.stream n).flits }
    (s.strTake n).2 = (v.setStream n { v.stream n with flits := v.strFlits n }).strClose n .DONE := by
  simp only [State.strTake, hbox, hbind, hsent, and_self, if_true, List.length_nil, Nat.sub_zero]

end

/-- An opening that finds its stream and its ring's place (R301). -/
theorem openStream_opens {c : Cmd} {s : State} {q : OpenReq} {k b : Nat} (htarget : openTarget c s = some k)
    (hplace : s.openPlace k q = .ok b) (data : Nat → List Word) : openStream c s q data = .ok (s.strOpen k q b) (data k) := by
  simp only [openStream, htarget, hplace]

/-- Settles O30: each clause is its row where its occasion holds. -/
theorem streams : Obligations.Streams := by
  unfold Obligations.Streams
  refine ⟨⟨?arrival, ?delivery, ?lapse, ?producer, ?buffer, ?bindoff, ?cfg⟩, ?commands⟩
  case arrival =>
    intro s n e v x hopen
    refine ⟨fun hbuf => ?_, fun hroom hbuf hfree => ⟨?_, fun hseam hgap hlo hhi hempty => ?_⟩⟩
    · intro w
      have hexec : exec (.streamElementArrival n none e) s = .next _ := congrArg Host.Outcome.next (State.strOffer_direct hopen hbuf e)
      refine ⟨fun hfree => hexec.trans ?_, fun hblock hstall => hexec.trans ?_, fun hblock hlose => hexec.trans ?_⟩
      · exact congrArg _ (if_neg (Bool.eq_false_iff.mp hfree))
      · exact congrArg _ ((if_pos hblock).trans (if_pos hstall))
      · exact congrArg _ ((if_pos hblock).trans (if_neg (Bool.eq_false_iff.mp hlose)))
    · have hexec : exec (.streamSeamArrival n) s = .next (State.strOffer.intoRing n none (mkSeam 0) v x (epStalls (v.strProducer n))).2 :=
        congrArg (fun r => Host.Outcome.next (Prod.snd r)) (State.strOffer_ring hopen hbuf (mkSeam 0))
      rw [hexec, State.intoRing_seam hroom hfree rfl]
    · have hexec : exec (.streamElementArrival n none e) s = .next (State.strOffer.intoRing n none e v x (epStalls (v.strProducer n))).2 :=
        congrArg (fun r => Host.Outcome.next (Prod.snd r)) (State.strOffer_ring hopen hbuf e)
      rw [hexec, State.intoRing_elem hroom hfree hseam hgap hlo hhi hempty]
  case delivery =>
    intro s n v x hopen hroom
    refine ⟨fun ue e t hsend => ?_, fun hfinal hbuf hfree hseams helem => State.strSend_elem hfinal hbuf hfree hseams helem⟩
    exact congrArg Host.Outcome.next ((if_neg hopen).trans (State.strHop_sends hroom hsend))
  case lapse =>
    intro s n u rest hpend
    simp only [exec, execLatestUsableTime, hpend]
  case producer =>
    intro s n seq els hopen hels hlen hroute ahead
    have hexec := exec_graticuleStreamFlit_producer (seq := seq) hopen hels hlen hroute
    have hahead : (seq + 2 ^ 24 - (s.stream n).seqIn % 2 ^ 24) % 2 ^ 24 = ahead := rfl
    clear_value ahead
    refine ⟨fun hzero => ⟨fun hnone => ?_, fun t ht => ?_⟩, fun hpos hlt t ht => ?_, fun hbehind => ?_⟩
    · rw [hexec]
      simp only [State.flitOfProducer, hahead, hzero, if_true, hnone, show 0 < 2 ^ 23 by decide]
    · rw [hexec]
      simp only [State.flitOfProducer, hahead, hzero, if_true, ht, show 0 < 2 ^ 23 by decide]
    · rw [hexec]
      simp only [State.flitOfProducer, hahead, hlt, if_true, show ¬ ahead = 0 by omega, if_false, ht]
    · rw [hexec]
      simp only [State.flitOfProducer, hahead, show ¬ ahead < 2 ^ 23 by omega, if_false]
  case buffer =>
    intro s t n seq k els hopen hbuf hk hels hroom hmany ahead
    have hexec := exec_graticuleStreamFlit_buffer (seq := seq) hopen hbuf hk
    have hahead : (seq + 2 ^ 24 - (s.stream n).seqMid % 2 ^ 24) % 2 ^ 24 = ahead := rfl
    have hgo : ¬(els = [] ∨ (!(s.strSettle n).strRoom n) = true) := by simp [hels, hroom]
    clear_value ahead
    refine ⟨fun hzero => ?_, fun hbehind => ?_⟩
    · rw [hexec]
      simp only [State.flitOfBuffer, hahead, hzero, hmany, hgo, if_false, if_true, show 0 < 2 ^ 23 by decide]
    · rw [hexec]
      simp only [State.flitOfBuffer, hahead, hmany, hgo, show ¬ ahead < 2 ^ 23 by omega, if_false]
  case bindoff =>
    intro s n hbind
    refine ⟨fun hfinal => if_pos ⟨hbind, hfinal⟩, fun e hsent hbox => ?_, if_pos hbind⟩
    refine (if_pos ⟨hbind, hsent, by rw [hbox]; rfl⟩).trans (congrArg Host.Outcome.next ?_)
    exact State.strTake_final hbind hsent hbox
  case cfg =>
    intro s m w hm
    exact if_pos hm
  case commands =>
    intro s mb
    dsimp only
    intro hown
    refine ⟨?status, ?open_, ?openX, ?seam, ?bindoff, ?counters⟩
    case status => exact fun h => congrArg Host.Outcome.next (runCommand_ans h ((congrArg (ite _ none) hown).trans (ite_self none)) rfl)
    case open_ =>
      intro q k b h hreq hgood hallowed htarget hplace
      refine congrArg Host.Outcome.next (runCommand_ans h ?_ ?_)
      · simp only [hreq, hgood, hallowed, Bool.false_eq_true, if_false]
      · simp only [hreq]
        exact openStream_opens htarget hplace _
    case openX =>
      intro k b h hgood hallowed htarget hplace
      refine congrArg Host.Outcome.next (runCommand_ans h ?_ (openStream_opens htarget hplace _))
      simp only [hgood, hallowed, Bool.false_eq_true, if_false]
    case seam =>
      intro h hopen
      exact congrArg Host.Outcome.next (runCommand_ans h hown (if_pos hopen))
    case bindoff =>
      intro h hopen
      exact congrArg Host.Outcome.next (runCommand_acc h hown (if_pos hopen))
    case counters =>
      intro h
      refine congrArg Host.Outcome.next (runCommand_ans h hown ?_)
      simp only [State.counters, List.map_map, Function.comp_def]
      rfl

end Sys2Proof.Machine
end

section
/-! The air schedule: its engine (R308 to R325) and the AIR commands (R327 to R338). -/

namespace Sys2Proof.Machine

/-! ### Dispatch and actions -/

theorem exec_airEntryDispatch {s : State} (hlive : s.airLive = true) (hstop : s.air.stop = none) :
    let e := s.airEntry s.airTable s.air.next
    let at_ := s.air.base + e.offset
    let last := decide (s.airCount s.airTable ≤ s.air.next + 1)
    exec .airEntryDispatch s = .next ((s.reach (s.stampOfAir (at_ - 1024))).setAir { s.air with
      due := s.air.due ++ [⟨at_, e⟩], next := if last then 0 else s.air.next + 1,
      base := if last then s.air.base + s.airPeriod s.airTable else s.air.base }) := by
  refine if_neg ?_
  rw [hlive, hstop]
  simp only [Bool.not_true, Bool.false_eq_true, or_false, not_false_eq_true]

/-- The entry at the front acts while the schedule runs, unless the stop comes before its instant (R317, R321). -/
theorem State.airTake_front {s : State} {d : AirDue} {rest : List AirDue} {a : Nat} (hdue : s.air.due = d :: rest) (hruns : s.airRuns = true)
    (hstop : ∀ x, s.air.stop.map (·.1) = some x → d.at_ ≤ x) (ha : d.e.action = a) :
    s.airTake a = some (d, ((s.setAir { s.air with due := rest }).reach (s.stampOfAir d.at_)).setsDue.bump (R.AIR_CNT 0)) := by
  rw [State.airTake, hdue]
  refine if_pos ⟨ha, hruns, ?_⟩
  cases hx : s.air.stop with
  | none => rfl
  | some x =>
    have hle := hstop x.1 (by rw [hx]; rfl)
    simp only [decide_eq_false (show ¬ x.1 < d.at_ by omega), Bool.not_false]

/-- The stream that SAMPLE would copy from is not open. -/
theorem State.airSample_counts {v : State} {d : AirDue}
    (h : (v.tap (d.e.w1.bits 31 28)).isSome = true ∨ ∀ n, v.epStream (0x3000 + d.e.w1.bits 7 0) = some n → (v.stream n).st ≠ .open_) :
    v.airSample d = v.bump (R.AIR_CNT 5) := by
  refine if_pos ?_
  rcases h with h | h
  · rw [h, Bool.true_or]
  · cases hn : v.epStream (0x3000 + d.e.w1.bits 7 0) with
    | none => exact Bool.or_true _
    | some n => simp only [decide_eq_false (h n hn), Bool.not_false, Bool.or_true]

theorem State.airSample_arms {v : State} {d : AirDue} {n : Nat} (htap : v.tap (d.e.w1.bits 31 28) = none)
    (hn : v.epStream (0x3000 + d.e.w1.bits 7 0) = some n) (hopen : (v.stream n).st = .open_) :
    v.airSample d = v.setTap (d.e.w1.bits 31 28) (some ⟨d.e.w1.bits 7 0, d.at_, d.e.w2.bits 21 0, 0, 0⟩) := by
  refine if_neg ?_
  rw [htap, hn]
  simp only [decide_eq_true hopen]
  decide

/-! ### Start, swap and stop -/

theorem exec_airSwapBoundary {s : State} {b : Nat} {id : Option Nat} (hswap : s.air.swap = some (b, id)) (hruns : s.airRuns = true)
    (hstop : s.air.stop = none) (hbase : b ≤ s.air.base) (hdue : s.air.due = []) :
    let v := (s.reach (s.stampOfAir b)).airExchange
    let w := v.put (R.AIR_PHASE v.airActive) F.AIR_PHASE_PHASE (b % max 1 (v.airPeriod v.airActive))
    exec .airSwapBoundary s =
      .next (((w.setAir { w.air with swap := none }).put R.AIR_STATUS F.AIR_STATUS_SWAP_PENDING 0).completeOpt id .DONE) := by
  have hgo : ¬((!s.airRuns) = true ∨ (match s.air.stop with | some (x, _) => decide (x ≤ b) | none => false) = true ∨ s.air.base < b ∨
      s.air.due.any (fun d => decide (d.at_ < b)) = true) := by
    simp only [hruns, hstop, hdue, Bool.not_true, Bool.false_eq_true, List.any_nil, false_or, or_false]
    omega
  intro v w
  unfold exec execAirSwapBoundary
  rw [hswap]
  exact if_neg hgo

/-! ### Reads that latch -/

/-- A read that latches a high word latches it for the master that reads (R22). -/
theorem readBy_latches {s : State} {m : Master} {a hi : Nat} {v : Word} (hdev : s.sys.dev ≠ .off)
    (hwf : swf (fun _ => (0 : Word)) s.latch = true) (halign : a % 4 = 0) (hreach : busReach m false a = true)
    (hread : (s.regRead m a).2 = s.setLatch m hi v) :
    (s.readBy m a).latched m hi = v ∧ (s.readBy m a).regs = s.regs := by
  rw [State.readBy_of_reach hdev halign hreach]
  refine ⟨?_, ?_⟩
  · unfold State.latched
    rw [State.answered_latch, State.busOk_snd, hread]
    exact sget_sset_same _ _ _ hwf
  · rw [State.answered_regs, State.busOk_snd, hread, State.setLatch_regs]

theorem regFacts_AIR_TIME_LO : regFacts R.AIR_TIME_LO = some (R.AIR_TIME_LO, [], [0, 0, 0, 0]) := by decide
theorem regFacts_AIR_SWAP_LO : regFacts R.AIR_SWAP_LO = some (R.AIR_SWAP_LO, [], [0, 0, 0, 0]) := by decide

theorem State.regRead_AIR_TIME_LO (s : State) (m : Master) :
    (s.regRead m R.AIR_TIME_LO).2 = s.setLatch m R.AIR_TIME_HI (hiWord s.airNow) := by
  obtain ⟨r, hat, hbase, -⟩ := regAt_of_regFacts regFacts_AIR_TIME_LO
  have haddr : ¬ R.AIR_TIME_LO < 0x2000 := by decide
  have hdev : ¬ R.AIR_TIME_LO = R.DEV_STAMP_LO := by decide
  have hsht : ¬ R.AIR_TIME_LO = R.SHT_STAMP_LO 0 := by decide
  simp only [State.regRead, if_neg haddr, hat, hbase, State.readLatch, hdev, hsht, if_false, if_true]

theorem State.regRead_AIR_SWAP_LO (s : State) (m : Master) :
    (s.regRead m R.AIR_SWAP_LO).2 = s.setLatch m R.AIR_SWAP_HI (hiWord s.airSwapAt) := by
  obtain ⟨r, hat, hbase, -⟩ := regAt_of_regFacts regFacts_AIR_SWAP_LO
  have haddr : ¬ R.AIR_SWAP_LO < 0x2000 := by decide
  have hdev : ¬ R.AIR_SWAP_LO = R.DEV_STAMP_LO := by decide
  have hsht : ¬ R.AIR_SWAP_LO = R.SHT_STAMP_LO 0 := by decide
  have hair : ¬ R.AIR_SWAP_LO = R.AIR_TIME_LO := by decide
  simp only [State.regRead, if_neg haddr, hat, hbase, State.readLatch, hdev, hsht, hair, if_false, if_true]

/-- Settles O31: each clause is its row where its occasion holds. -/
theorem airSchedule : Obligations.AirSchedule := by
  unfold Obligations.AirSchedule
  refine ⟨?dispatch, ?act, ?bcast, ?start, ?swap, ?stop, ?sealing, ?reads, ?tap⟩
  case dispatch => intro s hlive hstop; exact exec_airEntryDispatch hlive hstop
  case act =>
    intro s d rest hdue hruns hstop v
    have htake : ∀ a, d.e.action = a → s.airTake a = some (d, v) := fun a ha => State.airTake_front hdue hruns hstop ha
    clear_value v
    have hsample (ha : d.e.action = 6) : exec .airActionSample s = .next (v.airSample d) := by
      simp only [exec, execAirActionSample, htake 6 ha]
    have hcascade (ha : d.e.action = 7) : exec .airActionCascade s = .next (v.airCascade d) := by
      simp only [exec, execAirActionCascade, htake 7 ha]
    refine ⟨fun ha => ?nop, fun ha => ?plane, fun ha => ?pattern, fun ha => ?release, fun ha => ?mute, fun ha => ?pin,
      fun ha hbusy => ?busy, fun n ha htap hn hopen => ?arms, fun ha hslave => ?slave, fun ha hmaster htwo => ?master⟩
    case nop => simp only [exec, execAirActionNop, htake 0 ha]
    case plane =>
      have hexec : exec .airActionPlane s = .next (v.airPlane d) := by simp only [exec, execAirActionPlane, htake 1 ha]
      exact hexec
    case pattern =>
      have hexec : exec .airActionPattern s = .next (v.airPattern d) := by simp only [exec, execAirActionPattern, htake 2 ha]
      exact hexec
    case release =>
      intro same slots
      have hexec : exec .airActionRelease s = .next ((v.air.due.filter same).foldl (fun w x => w.airDone.airRelease x)
          ((v.setAir { v.air with due := v.air.due.filter (fun x => !same x) }).airRelease d)) := by
        simp only [exec, execAirActionRelease, htake 3 ha, same]
      exact hexec
    case mute =>
      have hexec : exec .airActionMute s = .next (v.airMute d) := by simp only [exec, execAirActionMute, htake 4 ha]
      exact hexec
    case pin =>
      have hexec : exec .airActionPin s = .next (v.airPins d) := by simp only [exec, execAirActionPin, htake 5 ha]
      exact hexec
    case busy => rw [hsample ha, State.airSample_counts hbusy]
    case arms => rw [hsample ha, State.airSample_arms htap hn hopen]
    case slave => rw [hcascade ha, State.airCascade, if_pos hslave]
    case master =>
      rw [hcascade ha]
      exact congrArg _ (if_neg (by omega))
  case bcast =>
    intro s b rest hb v
    have hexec : exec .airBcastAct s = if b.swap then
        (match v.airSwapOrder b.at_ none with | .ok w => .next w | .error _ => .next v) else .next v := by
      simp only [exec, execAirBcastAct, hb]
      rfl
    refine ⟨fun hno => hexec.trans (if_neg (Bool.eq_false_iff.mp hno)), fun hswap => ⟨fun w hok => ?_, fun r herr => ?_⟩⟩
    · rw [hexec, if_pos hswap, hok]
    · rw [hexec, if_pos hswap, herr]
  case start =>
    intro s b id hstart v
    have hexec : exec .airScheduleStart s = if (!v.merGood) = true then .next ((v.setAir { v.air with due := [] }).complete id .BUDGET_EXCEEDED)
        else .next (((({ v with pins := { v.pins with idle := (List.range 7).map (fun k => v.rd (R.AIR_IDLE k)) } } : State).put
          R.AIR_STATUS F.AIR_STATUS_RUN 1).enter .onAir).complete id .DONE) := by
      unfold exec execAirScheduleStart
      rw [hstart]
    refine ⟨fun hbad => hexec.trans (if_pos (by rw [hbad]; rfl)), fun hgood => hexec.trans (if_neg (by rw [hgood]; decide))⟩
  case swap => intro s b id hswap hruns hstop hbase hdue; exact exec_airSwapBoundary hswap hruns hstop hbase hdue
  case stop =>
    intro s t id hstop hfuture v
    unfold exec execAirStop
    rw [hstop]
    exact if_neg (by rw [hfuture]; decide)
  case sealing =>
    intro s x hx v
    refine ⟨fun rc i w hfail => ?_, fun hpass => ?_⟩
    · simp only [exec, execTableSealComplete, hx]
      rw [show (s.setAir { s.air with sealing := none }).sealFails x = some (rc, i, w) from hfail]
    · simp only [exec, execTableSealComplete, hx]
      rw [show (s.setAir { s.air with sealing := none }).sealFails x = none from hpass]
  case reads =>
    intro s m hdev hwf
    exact ⟨fun hreach => ⟨_, rfl, readBy_latches hdev hwf (by decide) hreach (s.regRead_AIR_TIME_LO m)⟩,
      fun hreach => ⟨_, rfl, readBy_latches hdev hwf (by decide) hreach (s.regRead_AIR_SWAP_LO m)⟩⟩
  case tap =>
    intro s o x ho hx hkeep bs
    simp only [exec, execTapReadComplete, ho, hx, hkeep, Nat.zero_ne_one, if_false, bs]

/-- Settles O32: each command is served as its section of R327 to R338 says. -/
theorem airCommands : Obligations.AirCommands := by
  unfold Obligations.AirCommands
  intro s mb
  dsimp only
  refine ⟨?status, ?preset, ?enable, ?disable, ?swap, ?load, ?sealing, ?read, ?idle, ?counters, ?tap⟩
  case status => exact fun h => congrArg Host.Outcome.next (runCommand_ans h rfl rfl)
  case preset =>
    intro h hgood hswap hseal
    refine congrArg Host.Outcome.next (runCommand_acc h (badIf_eq_none.mpr hgood) ?_)
    exact (if_neg (by rw [hswap]; decide)).trans (if_neg (by rw [hseal]; decide))
  case enable =>
    intro h hdev hstate hstart hgood
    refine congrArg Host.Outcome.next (runCommand_acc h rfl ?_)
    exact (if_neg (not_not.mpr hdev)).trans ((if_neg (not_not.mpr hstate)).trans ((if_neg (by rw [hstart]; decide)).trans
      (if_neg (by rw [hgood]; decide))))
  case disable =>
    intro h hdev hstop
    refine congrArg Host.Outcome.next (runCommand_acc h rfl ?_)
    exact (if_neg (not_not.mpr hdev)).trans (if_neg (by rw [hstop]; decide))
  case swap =>
    refine fun h => ⟨fun hcancel hpending => ?_, fun v hno hat hok => ?_⟩
    · exact congrArg Host.Outcome.next (runCommand_ans h rfl ((if_pos hcancel).trans (if_pos hpending)))
    · by_cases hlive : s.airLive = true
      · rw [if_pos hlive]
        refine congrArg Host.Outcome.next (runCommand_acc h rfl ?_)
        simp only [hno, Bool.false_eq_true, if_false, hat, hok, hlive, if_true]
      · rw [if_neg hlive]
        refine congrArg Host.Outcome.next (runCommand_ans h rfl ?_)
        simp only [hno, Bool.false_eq_true, if_false, hat, hok, hlive]
  case load =>
    intro h hlen hroom hheld
    refine congrArg Host.Outcome.next (runCommand_ans h ?_ ?_)
    · exact (if_neg (not_not.mpr hlen)).trans (badIf_eq_none.mpr (decide_eq_false (by omega)))
    · exact if_neg (by rw [hheld]; decide)
  case sealing =>
    intro h hheld hseal
    refine congrArg Host.Outcome.next (runCommand_acc h rfl ?_)
    exact (if_neg (by rw [hheld]; decide)).trans (if_neg (by rw [hseal]; decide))
  case read =>
    intro h hsome hroom
    refine congrArg Host.Outcome.next (runCommand_ans h (badIf_eq_none.mpr ?_) rfl)
    rw [decide_eq_false hsome, decide_eq_false (by omega), Bool.or_false]
  case idle =>
    intro h hreg
    exact congrArg Host.Outcome.next (runCommand_ans h (badIf_eq_none.mpr (decide_eq_false (by omega))) rfl)
  case counters =>
    intro h
    refine congrArg Host.Outcome.next (runCommand_ans h rfl ?_)
    simp only [State.counters_map]
  case tap =>
    intro x h halign hpolicy hx hleft
    refine congrArg Host.Outcome.next (runCommand_acc h (badIf_eq_none.mpr (decide_eq_false (not_not.mpr halign))) ?_)
    simp only [hpolicy, hx, hleft, Bool.not_true, Bool.false_eq_true, if_false, if_true]

end Sys2Proof.Machine
end

section
/-! The fronthaul engine (R393 to R404, R418 to R421) and the JESD204C links (R407 to R425). -/

namespace Sys2Proof.Machine

/-! ### Frames -/

theorem State.macUp_of_flag {s : State} {mac : Nat} (hmac : mac < 16) (hup : s.flag (R.FHE_MAC mac) F.FHE_MAC_UP = true) :
    s.macUp mac = true := by
  rw [State.macUp, hup, decide_eq_true hmac, Bool.true_and]

/-- Where a good frame goes (Table 12-2). -/
def State.frameIn (v : State) (mac : Nat) (f : EthFrame) : State :=
  match etherKind f.bytes, f.content with
  | .ecpri, .ecpri ms => ms.foldl (fun s m => s.ecpri mac m) v
  | .ecpri, _ => v.macCount mac 4
  | .ptp udp, .ptp m => (v.ptpStampRx mac).ptpMessage mac { m with udp := udp }
  | .ptp _, _ => v.ptpStampRx mac
  | .esmc, .esmc ql => v.esmcMessage mac ql
  | .esmc, _ => v
  | .macControl, _ => v.macCount mac 4
  | .twoTags, _ => v.macCount mac 4
  | .other, _ =>
    match rxEntries.find? (fun e => v.flowOn e 2 mac) with
    | some e => v.flowSend e (markEnds (packBytes f.bytes))
    | none => v.macCount mac 4

theorem exec_ethFrameReceived {s : State} {mac : Nat} {f : EthFrame} (hup : s.macUp mac = true) :
    let v := (s.macCount mac 2 f.corrected).macCount mac 3 f.uncorrectable
    exec (.ethFrameReceived mac f) s = .next (
      if f.fcs = false ∨ f.bytes.length < 64 ∨ 9600 < f.bytes.length then v.macCount mac 1 else (v.macCount mac 0).frameIn mac f) := by
  intro v
  have hrun : ¬ (!s.macUp mac) = true := by rw [hup]; decide
  have hbad : ((!f.fcs) = true ∨ f.bytes.length < 64 ∨ 9600 < f.bytes.length) ↔
      (f.fcs = false ∨ f.bytes.length < 64 ∨ 9600 < f.bytes.length) := by rw [Bool.not_eq_true']
  refine (if_neg hrun).trans ?_
  by_cases h : f.fcs = false ∨ f.bytes.length < 64 ∨ 9600 < f.bytes.length
  · rw [if_pos h]
    exact if_pos (hbad.mpr h)
  · rw [if_neg h]
    refine (if_neg (hbad.not.mpr h)).trans ?_
    show _ = Host.Outcome.next (State.frameIn (((s.macCount mac 2 f.corrected).macCount mac 3 f.uncorrectable).macCount mac 0) mac f)
    dsimp only
    generalize ((s.macCount mac 2 f.corrected).macCount mac 3 f.uncorrectable).macCount mac 0 = u
    unfold State.frameIn
    cases etherKind f.bytes with
    | other =>
      cases rxEntries.find? (fun e => u.flowOn e 2 mac) <;> rfl
    | ecpri => cases f.content <;> rfl
    | ptp udp => cases f.content <;> rfl
    | esmc => cases f.content <;> rfl
    | macControl => rfl
    | twoTags => rfl

/-- Of a lane's modes 10GBASE-R is the only one offered (R393). -/
theorem offered_10g {r : SvyRec} (h0 : r.f 3 24 24 = 1) (h1 : r.f 3 25 25 = 0) (h2 : r.f 3 26 26 = 0) :
    (List.range 5).filter (fun b => r.f 3 (24 + b) (24 + b) == 1 && decide ((ethMode b).2.2 ≤ 1)) = [0] := by
  simp [List.range, List.range.loop, ethMode, List.filter, h0, h1, h2]

theorem exec_ethAutonegComplete_10g {s : State} {mac n : Nat} {r : SvyRec} {fec : Bool} (hlanes : s.groupLanes 1 mac = [n])
    (hrec : laneRecOf s.svy.recs n = some r) (hstate : s.laneState n = laneTRAINING) (h0 : r.f 3 24 24 = 1) (h1 : r.f 3 25 25 = 0)
    (h2 : r.f 3 26 26 = 0) (h5 : r.f 3 29 29 = 0) :
    exec (.ethAutonegComplete mac 0 fec) s = .next ((((s.setLaneRate n 10312500 false).put (R.FHE_MAC mac) F.FHE_MAC_MODE 1).put
      (R.FHE_MAC mac) F.FHE_MAC_AN_DONE 1).put (R.FHE_MAC mac) F.FHE_MAC_FEC_ON 0) := by
  have hoff := offered_10g h0 h1 h2
  simp only [exec, execEthAutonegComplete, hlanes, List.head?_cons, hrec, List.length_singleton, hoff, hstate, h5]
  rfl

/-- An answer to a delay measurement goes first (R396). -/
theorem exec_ethFrameTransmit_answer {s : State} {mac : Nat} {f : TxFrame} (hup : s.macUp mac = true)
    (hq : sget (fun _ => []) s.links.fhe.txq mac = [f]) (hentry : f.entry = 512) (hdue : f.due = none) :
    exec (.ethFrameTransmit mac false) s = .next ((s.setFhe { s.links.fhe with
      txq := sset (fun _ => []) s.links.fhe.txq mac [],
      rr := sset (fun _ => 256) s.links.fhe.rr mac (sget (fun _ => 256) s.links.fhe.rr mac) }).frameOut mac f) := by
  simp only [exec, execEthFrameTransmit, hup, hq, hentry, hdue, List.any_cons, List.find?_cons, decide_true, List.erase_cons_head, Bool.true_or,
    Bool.not_true, Bool.false_eq_true, if_false, if_true]

theorem exec_txIqUnitFraming {s : State} {f n : Nat} (hf : f < 256) (hstream : s.flowStream (256 + f) = some n)
    (hvalid : s.flag (R.FHE_FLOW_KEY (256 + f)) F.FHE_FLOW_KEY_VALID = true)
    (hkind : s.get (R.FHE_FLOW_KEY (256 + f)) F.FHE_FLOW_KEY_KIND = 0) :
    exec (.txIqUnitFraming f) s = .next ((List.range (s.stream n).inbox.length).foldl (fun v _ =>
      match v.strTake n with
      | (some x, v) => v.txTake (256 + f) (max 1 (s.strUnit n)) x
      | (none, v) => v) s) := by
  unfold exec execTxIqUnitFraming
  simp only [hstream]
  refine if_neg ?_
  rw [hvalid, hkind]
  simp only [Bool.not_true, Bool.false_eq_true, ne_eq, not_true, or_false]
  omega

/-- Settles O33: each clause is its row where its occasion holds. -/
theorem fronthaul : Obligations.Fronthaul := by
  unfold Obligations.Fronthaul
  refine ⟨?received, ?autoneg, ?ptp, ?answer, ?framing, ?commands⟩
  case received =>
    intro s mac f hmac hup v
    have hexec := exec_ethFrameReceived (f := f) (State.macUp_of_flag hmac hup)
    refine ⟨fun hbad => hexec.trans (congrArg _ (if_pos hbad)), fun hfcs hlo hhi => ?_⟩
    have hgood : ¬(f.fcs = false ∨ f.bytes.length < 64 ∨ 9600 < f.bytes.length) := by rw [hfcs]; simp; omega
    exact hexec.trans (congrArg _ (if_neg hgood))
  case autoneg =>
    intro s mac n r fec hlanes hrec hstate h0 h1 h2 h5
    exact exec_ethAutonegComplete_10g hlanes hrec hstate h0 h1 h2 h5
  case ptp =>
    intro s mac hmac hup
    exact (if_neg (by rw [State.macUp_of_flag hmac hup]; decide)).trans (if_pos rfl)
  case answer =>
    intro s mac f hmac hup hq hentry hdue
    exact exec_ethFrameTransmit_answer (State.macUp_of_flag hmac hup) hq hentry hdue
  case framing => intro s f n hf hstream hvalid hkind; exact exec_txIqUnitFraming hf hstream hvalid hkind
  case commands =>
    intro s mb
    dsimp only
    refine ⟨fun h => congrArg Host.Outcome.next (runCommand_ans h rfl rfl), fun h => ?_, fun h hclear hfree => ?_⟩
    · refine congrArg Host.Outcome.next (runCommand_ans h rfl ?_)
      simp only [State.counters_map]
    · have hfields : badIf (flowBad (s.msg mb) s) = none := badIf_eq_none.mpr (by rw [flowBad, hclear, Bool.false_and])
      refine ⟨_, congrArg Host.Outcome.next (runCommand_ans h hfields (if_neg ?_)), State.setFhe_regs _ _⟩
      rw [hfree, hclear]
      simp only [Option.isSome_none, Bool.false_and, Bool.or_self, Bool.false_eq_true, not_false_eq_true]

/-! ### JESD204C links -/

theorem exec_sysrefEdge {s : State} (hset : s.links.jsd.sysref = none) (hruns : s.merRuns = true)
    (hmode : (s.rd R.JSD_SYSREF).bits 31 30 ≠ 0) (hshots : (s.rd R.JSD_SYSREF).bits 31 30 = 1 → s.links.jsd.shots ≠ 0) :
    let w := s.rd R.JSD_SYSREF
    let at_ := edgeAfter w s.airNow
    let v := (s.setJsd { s.links.jsd with
      shots := if w.bits 31 30 = 1 then s.links.jsd.shots - 1 else s.links.jsd.shots, lastEdge := some (at_, w.bits 19 0) }).reach
      (s.stampOfAir at_)
    exec .sysrefEdge s = .next (v.jsdLinks.foldl (fun s k =>
      if s.jsdState k = 1 ∧ (!(s.jsdLanes k).isEmpty) = true ∧ (s.jsdLanes k).all s.laneReady = true then
        (s.setJsdLink k { s.jsdLink k with sync := [], emb := [] }).setJsdState k 2
      else s) v) := by
  have hgo : ¬((!s.merRuns) = true ∨ (s.rd R.JSD_SYSREF).bits 31 30 = 0 ∨ ((s.rd R.JSD_SYSREF).bits 31 30 = 1 ∧ s.links.jsd.shots = 0)) := by
    rw [hruns]
    rintro (h | h | ⟨h, h'⟩)
    · cases h
    · exact hmode h
    · exact hshots h h'
  intro w at_ v
  unfold exec execSysrefEdge
  simp only [hset]
  rw [if_neg hgo]
  simp only [v, at_, w, hset]


section
variable {s : State} {k j g : Nat}

theorem exec_syncHeaderLock {obs : List LaneObs} {v : State} (hk : k < 16) (hstate : s.jsdState k = 2)
    (hobs : obs.map (·.lane) = s.jsdLanes k) (hnamed : s.flag (R.JSD_LINK k) F.JSD_LINK_LANEID = true)
    (hdetect : s.laneDetect obs = (true, v)) :
    exec (.syncHeaderLock k obs) s = .next (v.setJsdLink k { v.jsdLink k with sync := s.jsdLanes k }) := by
  have hgo : ¬(16 ≤ k ∨ s.jsdState k ≠ 2 ∨ obs.map (·.lane) ≠ s.jsdLanes k) := by
    simp only [hstate, hobs, ne_eq, not_true, or_false]
    omega
  have hmap : obs.map (fun o => { o with pos := if s.flag (R.JSD_LINK k) F.JSD_LINK_LANEID then o.pos else none }) = obs := by
    rw [hnamed]
    exact List.map_id obs
  have hexec : exec (.syncHeaderLock k obs) s =
      let r := s.laneDetect (obs.map (fun o => { o with pos := if s.flag (R.JSD_LINK k) F.JSD_LINK_LANEID then o.pos else none }))
      if r.1 then .next (r.2.setJsdLink k { r.2.jsdLink k with sync := s.jsdLanes k }) else .next r.2 := if_neg hgo
  rw [hexec, hmap, hdetect]
  exact if_pos rfl

/-- The sample concerns a configured link, a stream of it and an antenna element of the stream. -/
theorem jsdSample_named (hk : k < 16) (hvalid : s.flag (R.JSD_LINK k) F.JSD_LINK_VALID = true) (hg : g < jsdG (s.rd (R.JSD_LINK k)))
    (hj : j < jsdM (s.rd (R.JSD_LINK k)) / (2 * jsdG (s.rd (R.JSD_LINK k)))) :
    ¬(16 ≤ k ∨ (!s.flag (R.JSD_LINK k) F.JSD_LINK_VALID) = true ∨ jsdG (s.rd (R.JSD_LINK k)) ≤ g ∨
      jsdM (s.rd (R.JSD_LINK k)) / (2 * jsdG (s.rd (R.JSD_LINK k))) ≤ j) := by
  rw [hvalid]
  simp only [Bool.not_true, Bool.false_eq_true, false_or]
  omega

/-- What endpoint `i` has to play. -/
def State.txNext (w : State) (i : Nat) : Option (BitVec 64) × State :=
  match w.epStream (0x4000 + i) with
  | some n => if (w.jsdTx i).dropToSeam then (none, w) else w.jsdNext i n ((w.stream n).inbox.length + 2)
  | none => (none, w)

/-- Endpoint `i` of link `k` plays an element, or underflows (R413). -/
def State.txPlay (k i t : Nat) (m1 m2 : Bool) : Option (BitVec 64) × State → State
  | (some d, x) =>
    let np16 := x.flag (R.JSD_LINK k) F.JSD_LINK_NP16
    let r := txConvert np16 d
    let y := if r.2 = 0 then x else x.bump (R.JSD_COUNT k 3) r.2
    let quiet := !y.onAirAt t || (y.jsdState k != 2 && y.jsdState k != 3)
    y.setJsdTx i { y.jsdTx i with last := if quiet then 0 else halves np16 m1 m2 r.1 }
  | (none, w) =>
    let x := w.bump (R.JSD_COUNT k 2) 2
    x.setJsdTx i { x.jsdTx i with last := 0, skip := if (x.jsdTx i).dropToSeam then (x.jsdTx i).skip else (x.jsdTx i).skip + 1 }

theorem exec_jsdTxSampleDue (hk : k < 16) (hvalid : s.flag (R.JSD_LINK k) F.JSD_LINK_VALID = true) (hg : g < jsdG (s.rd (R.JSD_LINK k)))
    (hj : j < jsdM (s.rd (R.JSD_LINK k)) / (2 * jsdG (s.rd (R.JSD_LINK k)))) (hstate : s.jsdState k ≠ 0) (t : Nat) :
    let i := 16 * k + j
    let v := s.reach (s.stampOfAir (t - s.ljt k))
    let m1 := v.muteAt k t
    let m2 := v.muteAt k (t + 2 / 2 ^ (s.rd (R.JSD_LINK k)).bits 29 28)
    let was := (v.jsdTx i).muted
    ((m1 && m2) = true →
      let w := (if was then v else v.jsdMute i).jsdDrop k i
      exec (.jsdTxSampleDue k j g t) s = .next (w.setJsdTx i { w.jsdTx i with last := 0 })) ∧
    ((m1 && m2) = false →
      let w := v.jsdDrop k i
      let z := State.txPlay k i t m1 m2 ((if was then w.jsdUnmute i else w).txNext i)
      exec (.jsdTxSampleDue k j g t) s = .next (if m2 then z.jsdMute i else z)) := by
  have hgo : ¬(16 ≤ k ∨ (!s.flag (R.JSD_LINK k) F.JSD_LINK_VALID) = true ∨ jsdG (s.rd (R.JSD_LINK k)) ≤ g ∨
      jsdM (s.rd (R.JSD_LINK k)) / (2 * jsdG (s.rd (R.JSD_LINK k))) ≤ j ∨ s.jsdState k = 0) := by
    have h := jsdSample_named hk hvalid hg hj
    tauto
  intro i v m1 m2 was
  refine ⟨fun hmuted => ?_, fun hplays => ?_⟩
  · exact (if_neg hgo).trans (if_pos hmuted)
  · intro w z
    refine (if_neg hgo).trans ((if_neg (Bool.eq_false_iff.mp hplays)).trans (congrArg Host.Outcome.next ?_))
    show _ = if m2 then (State.txPlay k i t m1 m2 ((if was then w.jsdUnmute i else w).txNext i)).jsdMute i
      else State.txPlay k i t m1 m2 ((if was then w.jsdUnmute i else w).txNext i)
    unfold State.txPlay State.txNext
    rfl

theorem exec_jsdRxSample {n t : Nat} {w : JsdWin} {raw : List Nat} (hk : k < 16) (hvalid : s.flag (R.JSD_LINK k) F.JSD_LINK_VALID = true)
    (hg : g < jsdG (s.rd (R.JSD_LINK k))) (hj : j < jsdM (s.rd (R.JSD_LINK k)) / (2 * jsdG (s.rd (R.JSD_LINK k))))
    (hwins : (s.jsdLink k).wins = [w]) (hfrom : w.from_ ≤ t) (hend : s.winEnd k w = none) (hseam : w.seamed.contains j = true)
    (hstream : s.epStream (0x3000 + (16 * k + j)) = some n) (hup : (s.reach (s.stampOfAir (t + s.ljr k))).jsdState k = 3) :
    let e : Elem := ⟨rxConvert ((s.rd (R.JSD_LINK k)).bit 17) raw, 0⟩
    exec (.jsdRxSample k j g t raw) s =
      .next (((s.reach (s.stampOfAir (t + s.ljr k))).strOffer n none e).2.tapTake (16 * k + j) t e.data) := by
  have hend' : (s.reach (s.stampOfAir (t + s.ljr k))).winEnd k w = none := hend
  intro e
  refine (if_neg (jsdSample_named hk hvalid hg hj)).trans ?_
  simp only [hwins, List.find?_cons, hend, decide_eq_true hfrom, Bool.and_self, hstream, hseam, hend', hup, Bool.not_true, Bool.false_eq_true,
    if_false, if_true, Bool.and_false]
  rfl

/-- JSD_LINK keeps what is written to it while the link's other registers are written (R423). -/
theorem State.rd_jsdLink_configured (hwf : s.RegsWf) (w lat win : Word) (tx rx st : Nat) :
    ((((((s.wr (R.JSD_LINK k) w).wr (R.JSD_LAT k) lat).wr (R.JSD_RXWIN k) win).put (R.JSD_STATUS k) F.JSD_STATUS_DEV_TX tx).put
      (R.JSD_STATUS k) F.JSD_STATUS_DEV_RX rx).setJsdState k st).rd (R.JSD_LINK k) = w := by
  have hstatus : R.JSD_LINK k ≠ R.JSD_STATUS k := by simp only [R.JSD_LINK, R.JSD_STATUS]; omega
  have hwin : R.JSD_LINK k ≠ R.JSD_RXWIN k := by simp only [R.JSD_LINK, R.JSD_RXWIN]; omega
  have hlat : R.JSD_LINK k ≠ R.JSD_LAT k := by simp only [R.JSD_LINK, R.JSD_LAT]; omega
  rw [State.setJsdState, State.rd_put_other _ _ _ hstatus, State.rd_put_other _ _ _ hstatus, State.rd_put_other _ _ _ hstatus,
    State.rd_wr_other _ _ hwin, State.rd_wr_other _ _ hlat, State.rd_wr_same hwf]

theorem State.setJsd_wr_regs (s : State) (x : Jsd) (a : Nat) (v : Word) : ((s.setJsd x).wr a v).regs = (s.wr a v).regs := rfl
theorem State.setJsd_wr_jsd (s : State) (x : Jsd) (a : Nat) (v : Word) : ((s.setJsd x).wr a v).links.jsd = x := rfl

end

/-- Settles O34: each clause is its row where its occasion holds. -/
theorem converterLinks : Obligations.ConverterLinks := by
  unfold Obligations.ConverterLinks
  refine ⟨?sysref, ?sync, ?emb, ?crc, ?samples, ?commands⟩
  case sysref =>
    intro s hset hruns w mode hmode hshots at_ j v
    refine (exec_sysrefEdge hset hruns hmode hshots).trans (congrArg Host.Outcome.next ?_)
    refine congrArg (fun f => List.foldl f v v.jsdLinks) (funext₂ fun s k => if_congr ?_ rfl rfl)
    rw [Bool.not_eq_true', List.isEmpty_eq_false_iff]
  case sync =>
    intro s k obs v hk hstate hobs hnamed hdetect
    exact exec_syncHeaderLock hk hstate hobs hnamed hdetect
  case emb =>
    intro s k hk hstate
    refine ⟨fun hsync => if_neg ?_, fun hemb hready => if_neg ?_⟩
    · simp only [hstate, hsync, ne_eq, not_true, or_false]
      omega
    · simp only [hstate, hemb, hready, Bool.not_true, Bool.false_eq_true, ne_eq, not_true, or_false]
      omega
  case crc =>
    intro s n hclass hstate k v ts
    have hgo : ¬(s.laneClass n ≠ 2 ∨ s.jsdState (s.laneGroup n) ≠ 3) := by simp only [hclass, hstate, ne_eq, not_true, or_self, not_false_eq_true]
    refine ⟨fun hfew => ?_, fun hmany => ?_, if_neg hgo⟩
    · exact (if_neg hgo).trans (if_neg (Nat.not_le.mpr hfew))
    · exact (if_neg hgo).trans (if_pos hmany)
  case samples =>
    intro s k j g t hk hvalid hg hj
    refine ⟨fun hstate => ?_, fun n w raw hwins hfrom hend hseam hstream _ hup => ?_⟩
    · intro i v m1 m2 was
      obtain ⟨hmuted, hplays⟩ := exec_jsdTxSampleDue hk hvalid hg hj hstate t
      refine ⟨hmuted, fun hm => ?_⟩
      have hexec := hplays hm
      intro w0 w
      have hplay : exec (.jsdTxSampleDue k j g t) s = .next (if m2 then (State.txPlay k i t m1 m2 (w.txNext i)).jsdMute i
        else State.txPlay k i t m1 m2 (w.txNext i)) := hexec
      clear_value m1 m2 w
      refine ⟨fun hnone => ?_, fun n d x hstream hdrop hnext => ?_⟩
      · have hz : w.txNext i = (none, w) := by simp only [State.txNext, hnone]
        rw [hplay, hz]
        rfl
      · have hz : w.txNext i = (some d, x) := by simp only [State.txNext, hstream, hdrop, hnext, Bool.false_eq_true, if_false]
        rw [hplay, hz]
        rfl
    · exact exec_jsdRxSample hk hvalid hg hj hwins hfrom hend hseam hstream hup
  case commands =>
    intro s mb
    dsimp only
    refine ⟨fun h => congrArg Host.Outcome.next (runCommand_ans h rfl rfl), fun h hgood htrain hfree => ?_, fun h hmode hp hdiv hlinks => ?_,
      fun h => ?_⟩
    · have htaken : ¬((List.range 16).any (fun j => (s.epStream (0x3000 + 16 * (s.msg mb).n 2 3 0 + j)).isSome ||
          (s.epStream (0x4000 + 16 * (s.msg mb).n 2 3 0 + j)).isSome) ||
          (s.jsdLanes ((s.msg mb).n 2 3 0)).any (fun n => s.laneState n == laneUP)) = true := by
        rw [hfree, Bool.false_or, List.any_eq_true]
        rintro ⟨n, hn, hup⟩
        rw [htrain n hn] at hup
        exact absurd hup (by decide)
      refine ⟨_, congrArg Host.Outcome.next (runCommand_ans h hgood (if_neg htaken)), fun hwf => ?_⟩
      exact State.rd_jsdLink_configured hwf _ _ _ _ _ _
    · have hfields : badIf (decide ((s.msg mb).n 2 31 30 = 3) || (decide ((s.msg mb).n 2 31 30 = 1) && decide ((s.msg mb).n 2 27 24 = 0)) ||
          decide ((s.msg mb).n 2 19 0 = 0) || decide (245760 % (s.msg mb).n 2 19 0 ≠ 0) || s.jsdLinks.any (fun k =>
            decide ((s.msg mb).n 2 19 0 % max 1 (jsdQ (s.rd (R.JSD_LINK k)) (s.jsdLanes k).length) ≠ 0))) = none := by
        simp [hmode, hp, hdiv, hlinks]
      exact ⟨_, congrArg Host.Outcome.next (runCommand_ans h hfields rfl), State.setJsd_wr_regs _ _ _ _, congrArg (fun x => x.sysref.map (·.1)) (State.setJsd_wr_jsd _ _ _ _)⟩
    · refine congrArg Host.Outcome.next (runCommand_ans h rfl ?_)
      simp only [State.counters_map]

end Sys2Proof.Machine
end

section
/-! The meridian unit: its second, its inputs, the contour model and the MER commands (R426 to R458). -/

namespace Sys2Proof.Machine

section
variable {s : State}

/-! ### The second boundary -/

/-- The step ordered at the last boundary, while the schedule is stopped (R431). -/
def State.stepTaken (s : State) : State :=
  match s.mer.stepNext with
  | some te =>
    let s := s.setMer { s.mer with stepNext := none }
    if s.flag R.AIR_STATUS F.AIR_STATUS_RUN then s
    else (s.setMer { s.mer with local_ := ((s.mer.local_ : Int) + te * 4294967296 / 1000000000).toNat }).bump (R.MER_COUNT 7)
  | none => s

/-- ESMC that has come and comes no more is counted once (R433). -/
def State.esmcWatch (s : State) : State :=
  if decide (s.mer.synce.last ≠ none) && !s.recent s.mer.synce.last 5000000000 && !s.mer.esmcLost then
    (s.bump (R.MER_COUNT 6)).setMer { s.mer with esmcLost := true }
  else s

/-- A reference that is not selected for now (R437). -/
def State.refBanned (s : State) (r : Nat) : Bool := match s.mer.banned with | some (b, until_) => decide (b = r ∧ s.stamp < until_) | none => false

/-- The references' flags at a boundary (R430). -/
def State.secondFlags (v : State) (gnss ptp synce : Bool) : State :=
  let v1 := (v.put R.YRN_STATUS F.YRN_STATUS_TIME_VALID (b2n v.timePort.isSome)).put R.YRN_STATUS F.YRN_STATUS_TIME_PORT
    (v.timePort.getD (v.get R.YRN_STATUS F.YRN_STATUS_TIME_PORT))
  ((v1.put R.MER_STATUS F.MER_STATUS_GNSS_OK (b2n gnss)).put R.MER_STATUS F.MER_STATUS_PTP_OK (b2n ptp)).put
    R.MER_STATUS F.MER_STATUS_SYNCE_OK (b2n synce)

/-- The reference `new` is selected at a boundary, and the state follows (Table 13-6). -/
def State.secondSelects (v : State) (p : PllSecond) (new : Nat) : State :=
  let w := (if new ≠ v.merRef then v.bump (R.MER_COUNT 0) else v).put R.MER_STATUS F.MER_STATUS_REF new
  (w.merStep p v.merRef new).merFlags p new

/-- A second boundary once its references are judged (R431). -/
def State.secondBoundary (s : State) (p : PllSecond) : State :=
  let g := s.gnssValid (s.flag R.MER_STATUS F.MER_STATUS_GNSS_OK)
  let v := s.esmcWatch.secondFlags g s.ptpValid s.synceValid
  v.secondSelects p (selectRef v.mer.profile (g && !v.refBanned 1) (s.ptpValid && !v.refBanned 2)
    (s.esmcWatch.timePort.isSome && !v.refBanned 3))

theorem State.stepTaken_none (h : s.mer.stepNext = none) : s.stepTaken = s := by
  unfold State.stepTaken
  rw [h]

theorem State.esmcWatch_unheard (h : s.mer.synce.last = none) : s.esmcWatch = s := by
  refine if_neg ?_
  rw [h, decide_eq_false (not_not.mpr rfl), Bool.false_and, Bool.false_and]
  decide

theorem State.refBanned_none (h : s.mer.banned = none) (r : Nat) : s.refBanned r = false := by
  unfold State.refBanned
  rw [h]

theorem State.secondFlags_mer (v : State) (g p e : Bool) : (v.secondFlags g p e).mer = v.mer := by
  simp only [State.secondFlags, State.put_mer]

/-- Without ESMC heard or a reference banned. -/
theorem State.secondBoundary_plain (hesmc : s.mer.synce.last = none) (hban : s.mer.banned = none) (p : PllSecond) :
    let g := s.gnssValid (s.flag R.MER_STATUS F.MER_STATUS_GNSS_OK)
    let v := s.secondFlags g s.ptpValid s.synceValid
    s.secondBoundary p = v.secondSelects p (selectRef v.mer.profile g s.ptpValid s.timePort.isSome) := by
  intro g v
  have hmer : v.mer.banned = none := (congrArg Mer.banned (s.secondFlags_mer _ _ _)).trans hban
  have hnot (r : Nat) : v.refBanned r = false := State.refBanned_none hmer r
  simp only [State.secondBoundary, State.esmcWatch_unheard hesmc]
  simp only [show s.secondFlags (s.gnssValid (s.flag R.MER_STATUS F.MER_STATUS_GNSS_OK)) s.ptpValid s.synceValid = v from rfl, hnot,
    Bool.not_false, Bool.and_true, g]

theorem exec_localSecondBoundary (hruns : s.merRuns = true) (hdev : s.sys.dev ≠ .boot) (p : PllSecond) :
    let v := (s.reach (s.stampOfLocal ((s.localNow / 4294967296 + 1) * 4294967296))).merCarry.stepTaken
    exec (.localSecondBoundary p) s =
      .next ((v.setMer { v.mer with profile := v.get R.MER_CFG F.MER_CFG_PROFILE, outNow := v.rd R.MER_OUT }).refSecond.secondBoundary p) := by
  refine if_neg ?_
  rw [hruns, beq_eq_false_iff_ne.mpr hdev]
  decide

/-! ### Inputs -/

theorem exec_ppsInputEdge (hruns : s.merRuns = true) (hnext : s.mer.gnss.next = none) :
    let at_ := ((s.stamp : Int) - sgn 16 (s.get R.MER_GNSS F.MER_GNSS_DELAY_NS)).toNat
    exec .ppsInputEdge s = .next (s.setMer { s.mer with gnss := { s.mer.gnss with edge := some at_, label := none, next := none } }) := by
  intro at_
  refine (if_neg (by rw [hruns]; decide)).trans ?_
  simp only [hnext, at_]

/-- What a reading of the oscillator's temperature does (R427). -/
theorem exec_oscTempRead (hruns : s.merRuns = true) (hsvy : s.svy.committed = true) (r : Option Int) :
    exec (.oscTempRead r) s =
      if (match r with | some t => decide (-55 * 256 ≤ t ∧ t ≤ 125 * 256) | none => false) = true then
        .next (((s.wr R.MER_TEMP (word (unsgn 16 (r.getD 0)))).put R.MER_STATUS F.MER_STATUS_SENSOR_OK 1).setMer
          { s.mer with sensorFails := 0 })
      else
        .next (if 10 ≤ s.mer.sensorFails + 1 then
          ((s.bump (R.MER_COUNT 5)).setMer { s.mer with sensorFails := s.mer.sensorFails + 1 }).put R.MER_STATUS F.MER_STATUS_SENSOR_OK 0
          else (s.bump (R.MER_COUNT 5)).setMer { s.mer with sensorFails := s.mer.sensorFails + 1 }) :=
  if_neg (by rw [hruns, hsvy]; decide)

theorem exec_leapSecondApply (hruns : s.merRuns = true) (hpending : s.flag R.MER_LEAP F.MER_LEAP_PENDING = true) :
    let l := sgn 8 (s.get R.MER_LEAP F.MER_LEAP_LEAP) + (if s.flag R.MER_LEAP F.MER_LEAP_DIR then -1 else 1)
    let v := (s.put R.MER_LEAP F.MER_LEAP_LEAP (unsgn 8 l)).put R.MER_LEAP F.MER_LEAP_PENDING 0
    exec .leapSecondApply s = .next (v.setMer { v.mer with leapStored := some (v.rd R.MER_LEAP) }) :=
  if_pos (by rw [hruns, hpending]; rfl)

/-- A gate of the ring oscillator before a survey is measured against XTAL (R448). -/
theorem exec_iroTrimGate (hruns : s.merRuns = true) (hsvy : s.svy.committed = false) (b : Bool) (err : Int) :
    let trim := s.get R.MER_IRO F.MER_IRO_IRO_TRIM
    let v := (s.put R.MER_IRO F.MER_IRO_TRIM_SRC 0).put R.MER_IRO F.MER_IRO_ERROR (unsgn 8 (satInt 8 err))
    exec (.iroTrimGate b err) s = .next (
      if 3 < err then v.put R.MER_IRO F.MER_IRO_IRO_TRIM (trim - 1)
      else if err < -3 then v.put R.MER_IRO F.MER_IRO_IRO_TRIM (min 255 (trim + 1))
      else v.put R.CKI_STATUS F.CKI_STATUS_IRO_TRIMMED 1) := by
  intro trim v
  refine (if_neg (by rw [hruns]; decide)).trans ?_
  simp only [hsvy, Bool.not_false, if_true, v, trim]

/-! ### The contour model -/

theorem contourLearns {temp : Int} {since : Nat} (hruns : s.merRuns = true) (hlock : s.mer.lockedSince = some since)
    (hlong : since + 600000000000 ≤ s.stamp) (hstate : s.merState = 2) (hsensor : s.flag R.MER_STATUS F.MER_STATUS_SENSOR_OK = true)
    (hosc : s.oscClass ≠ 0) (hlo : -81 * 256 ≤ 2 * temp) (hhi : 2 * temp < 181 * 256) :
    ¬((!s.merRuns || decide (s.merState ≠ 2) || !(match s.mer.lockedSince with | some t => decide (t + 600000000000 ≤ s.stamp) | none => false) ||
      !s.flag R.MER_STATUS F.MER_STATUS_SENSOR_OK || s.oscClass == 0 || decide (2 * temp < -81 * 256) ||
      decide (181 * 256 ≤ 2 * temp)) = true) := by
  simp only [hruns, hlock, hstate, hsensor, decide_eq_true hlong, beq_eq_false_iff_ne.mpr hosc, decide_eq_false (Int.not_lt.mpr hlo),
    decide_eq_false (Int.not_le.mpr hhi), ne_eq, not_true, decide_false, Bool.not_true, Bool.or_self, Bool.false_eq_true, not_false_eq_true]

end

/-- Settles O35: each clause is its row where its occasion holds. -/
theorem timeKeeping : Obligations.TimeKeeping := by
  unfold Obligations.TimeKeeping
  refine ⟨?second, ?inputs, ?messages, ?learn, ?fit, ?commands⟩
  case second =>
    intro s p hruns hdev v hstep u hesmc hban
    have hexec := exec_localSecondBoundary hruns hdev p
    rw [State.stepTaken_none hstep] at hexec
    exact hexec.trans (congrArg Host.Outcome.next (State.secondBoundary_plain (s := u) hesmc hban p))
  case inputs =>
    intro s hruns
    have hon : ¬(!s.merRuns) = true := by rw [hruns]; decide
    refine ⟨fun hnext => exec_ppsInputEdge hruns hnext, fun rate m => ⟨fun hbad => ?_, fun hok hheard => ?_⟩, fun bs href => ?_, fun hsvy => ?_,
      fun hpending => exec_leapSecondApply hruns hpending, fun hsvy => ?_⟩
    · refine (if_neg hon).trans (if_pos ?_)
      rcases hbad with h | h <;> simp [h]
    · exact (if_neg hon).trans (if_neg (by rw [hok, hheard]; decide))
    · exact if_neg href
    · have hread := exec_oscTempRead hruns hsvy
      refine ⟨fun t hlo hhi => ?_, fun hfew => ?_, fun hnine => ?_, if_pos (by rw [hruns, hsvy]; rfl)⟩
      · exact (hread (some t)).trans (if_pos (decide_eq_true ⟨hlo, hhi⟩))
      · exact (hread none).trans ((if_neg Bool.false_ne_true).trans (congrArg _ (if_neg (by omega))))
      · have hten : 10 ≤ s.mer.sensorFails + 1 := by omega
        refine (hread none).trans ((if_neg Bool.false_ne_true).trans (congrArg _ ((if_pos hten).trans ?_)))
        rw [hnine]
    · have htrim := exec_iroTrimGate hruns hsvy
      exact ⟨fun b => htrim b 4, fun b => htrim b (-4), fun b => htrim b 3⟩
  case messages => exact fun s mac ql m => ⟨rfl, rfl⟩
  case learn =>
    intro s y temp since hruns hlock hlong hstate hsensor hosc hlo hhi
    exact if_neg (contourLearns hruns hlock hlong hstate hsensor hosc hlo hhi)
  case fit =>
    intro s t0 hruns ht0 hlong l st sr stt str den d hden
    have hgo : ¬(!s.merRuns || decide (s.localSec < t0 + 1209600)) = true := by
      rw [hruns, decide_eq_false (by omega)]
      decide
    show execAgeingFit s = _
    unfold execAgeingFit
    dsimp only
    rw [ht0]
    exact (if_neg hgo).trans (if_neg hden)
  case commands =>
    intro s mb
    dsimp only
    refine ⟨?status, ?select, ?outputs, ?model, ?leap, ?budget, ?clear, ?counters⟩
    case status => exact fun h => congrArg Host.Outcome.next (runCommand_ans h rfl rfl)
    case select =>
      intro h hgood hport
      refine congrArg Host.Outcome.next (runCommand_ans h (badIf_eq_none.mpr hgood) ?_)
      rcases hport with ⟨hpos, hp⟩ | ⟨hpos, hp | hp⟩ <;> simp [hpos, hp]
    case outputs =>
      intro h hz hrate
      refine congrArg Host.Outcome.next (runCommand_ans h (badIf_eq_none.mpr ?_) rfl)
      simp [hz, hrate]
    case model =>
      intro h hlo hhi hend
      exact congrArg Host.Outcome.next (runCommand_ans h (badIf_eq_none.mpr (decide_eq_false (by omega))) rfl)
    case leap => exact fun h => congrArg Host.Outcome.next (runCommand_ans h rfl rfl)
    case budget =>
      intro h hlo hhi
      exact congrArg Host.Outcome.next (runCommand_ans h (badIf_eq_none.mpr (decide_eq_false (by omega))) rfl)
    case clear =>
      intro h hkey hstate
      exact congrArg Host.Outcome.next (runCommand_ans h (badIf_eq_none.mpr (decide_eq_false (not_not.mpr hkey))) (if_neg (by omega)))
    case counters =>
      intro h
      refine congrArg Host.Outcome.next (runCommand_ans h rfl ?_)
      simp only [State.counters_map]

end Sys2Proof.Machine
end

section
/-! Clocks and power: the crystal and the generators, gates, the sequencer, island power switches, DORMANT, and the CLK and PWR
commands (R460 to R491). -/

namespace Sys2Proof.Machine

section
variable {s : State}

/-! ### The crystal -/

/-- A gate that ends before a survey, with IRO trimmed, is judged by IRO alone (R460). -/
theorem exec_xtalGate_iro {iro : Int} (hstable : s.sys.xtalStable = true) (hsvy : s.svy.committed = false)
    (htrimmed : s.flag R.CKI_STATUS F.CKI_STATUS_IRO_TRIMMED = true) :
    let ok := s.flag R.CKI_STATUS F.CKI_STATUS_XTAL_OK
    let v : State := { s with pwr := { s.pwr with failRun := 0, passRun := s.pwr.passRun + 1 } }
    exec (.xtalGate none iro) s =
      if decide (1200 < (iro.natAbs : Int)) = true then
        if (ok && decide (1 ≤ s.pwr.failRun)) = true then .next s.crystalFault
        else .next { s with pwr := { s.pwr with failRun := s.pwr.failRun + 1, passRun := 0 } }
      else if (!ok && decide (100 ≤ s.pwr.passRun + 1)) = true then
        .next ((v.put R.CKI_STATUS F.CKI_STATUS_XTAL_OK 1).put R.CKI_STATUS F.CKI_STATUS_STAMP_XTAL 1)
      else .next v := by
  intro ok v
  refine (if_neg (by rw [hstable]; decide)).trans ?_
  simp only [hsvy, htrimmed, Bool.false_and, Bool.false_or, if_true, Bool.false_eq_true, if_false, ok, v]

/-! ### Gate registers -/

theorem exec_ckiGateWrite_access {m : Master} {a : Nat} {v : Word}
    (hgate : a = R.CKI_GATE_TIER ∨ a = R.CKI_GATE_GRP ∨ (List.range 5).any (fun k => decide (a = R.CKI_GATE_ISL k)) = true) :
    exec (.ckiGateWrite m a v) s = .next (s.access m a v) := if_pos hgate

/-- A register write of Ubtor or JTAG is carried out (R54). -/
theorem exec_ckiGateWrite {m : Master} {a : Nat} {v : Word} {t : State} (hdev : s.sys.dev ≠ .off) (halign : a % 4 = 0)
    (hreach : busReach m true a = true)
    (hgate : a = R.CKI_GATE_TIER ∨ a = R.CKI_GATE_GRP ∨ (List.range 5).any (fun k => decide (a = R.CKI_GATE_ISL k)) = true)
    (hwrite : s.regWrite m a v = t.busOk) : exec (.ckiGateWrite m a v) s = .next (State.answered m t.busOk) := by
  rw [exec_ckiGateWrite_access hgate, State.access_of_reach _ hdev halign hreach, hwrite]

/-- The family and the indices of the register at an address. -/
def regPlace (a : Nat) : Option (Nat × List Nat) := (regAt a).map (fun x => (x.1.base, x.2))

theorem regAt_of_regPlace {a base : Nat} {ix : List Nat} (h : regPlace a = some (base, ix)) : ∃ r, regAt a = some (r, ix) ∧ r.base = base := by
  obtain ⟨⟨r, ix'⟩, hat, heq⟩ := Option.map_eq_some_iff.mp h
  simp only [Prod.mk.injEq] at heq
  obtain ⟨hbase, rfl⟩ := heq
  exact ⟨r, hat, hbase⟩

theorem regPlace_CKI_GATE_TIER : regPlace R.CKI_GATE_TIER = some (R.CKI_GATE_TIER, []) := by decide
theorem regPlace_CKI_GATE_GRP : regPlace R.CKI_GATE_GRP = some (R.CKI_GATE_GRP, []) := by decide
theorem regPlace_CKI_GATE_ISL : ∀ k < 5, regPlace (R.CKI_GATE_ISL k) = some (R.CKI_GATE_ISL 0, [k]) := by decide

theorem State.regWrite_CKI_GATE_TIER (m : Master) (v : Word) :
    s.regWrite m R.CKI_GATE_TIER v = (s.gateWrite 2 0 4 R.CKI_GATE_TIER v).busOk := by
  obtain ⟨r, hat, hbase⟩ := regAt_of_regPlace regPlace_CKI_GATE_TIER
  simp only [State.regWrite, hat, hbase]
  rfl

theorem State.regWrite_CKI_GATE_GRP (m : Master) (v : Word) :
    s.regWrite m R.CKI_GATE_GRP v = (s.gateWrite 1 0 22 R.CKI_GATE_GRP v).busOk := by
  obtain ⟨r, hat, hbase⟩ := regAt_of_regPlace regPlace_CKI_GATE_GRP
  simp only [State.regWrite, hat, hbase]
  rfl

theorem State.regWrite_CKI_GATE_ISL (m : Master) {k : Nat} (hk : k < 5) (v : Word) :
    s.regWrite m (R.CKI_GATE_ISL k) v = (s.gateWrite 0 (32 * k) 32 (R.CKI_GATE_ISL k) v).busOk := by
  obtain ⟨r, hat, hbase⟩ := regAt_of_regPlace (regPlace_CKI_GATE_ISL k hk)
  have haddr : ¬ R.CKI_GATE_ISL k < 0x2000 := by simp only [R.CKI_GATE_ISL]; omega
  have hstr : ¬(0xE8000 ≤ R.CKI_GATE_ISL k ∧ R.CKI_GATE_ISL k < 0xF0000) := by simp only [R.CKI_GATE_ISL]; omega
  simp only [State.regWrite, if_neg haddr, hat, hbase, if_neg hstr]
  rfl

theorem reach_ckiGates : ∀ m, m = .ubtor ∨ m = .jtag →
    busReach m true R.CKI_GATE_TIER = true ∧ busReach m true R.CKI_GATE_GRP = true ∧ ∀ k < 5, busReach m true (R.CKI_GATE_ISL k) = true := by
  rintro m (rfl | rfl) <;> decide

/-! ### The sequencer -/

/-- A regulator has acknowledged its step in time (R474). -/
theorem exec_avsAck_raise {v : SeqServe} {r sent e : Nat} (hserving : s.pwr.serving = some v) (hstep : v.step = some (r, sent))
    (he : e ≤ 2000000) (hphase : v.phase = .raise) :
    exec (.avsAck r e) s = .next (((if 20000 < e then (s.reach (sent + e)).bump (R.PWR_COUNT 1) else s.reach (sent + e)).railStep r
      (if r = 0 then v.new.1 else v.new.2)).seqRaise v) := by
  have hgo : ¬(r ≠ r ∨ 2000000 < e) := by omega
  simp only [exec, execAvsAck, hserving, hstep, hgo, hphase, if_false]

theorem exec_frequencyChangeRestart {v : SeqServe} {i k : Nat} {rest : List (Nat × Nat)} (hserving : s.pwr.serving = some v)
    (hphase : v.phase = .freq) (htodo : v.todo = (i, k) :: rest) :
    let w := (s.islandParts i).foldl State.markLate s
    exec .frequencyChangeRestart s =
      .next (((w.setKhz i (min k (w.wantKhz i))).bump (R.PWR_COUNT 0)).seqFreq { v with todo := rest }) := by
  intro w
  show execFrequencyChangeRestart s = _
  unfold execFrequencyChangeRestart
  rw [hserving]
  dsimp only
  rw [hphase, htodo]

/-! ### Island power switches -/

theorem exec_islandOff_opened {i : Nat} (hi : i < 72) (hdorm : s.pwr.dorm = .none) (hstage : s.stage i = .opened) :
    let l := s.leadIsland i
    let v := ((s.setStage l .off).setPsw l false).stageDone l .DONE
    exec (.islandOff i) s = if sget (fun _ => false) v.pwr.held l = true then .next ((v.setStage l .powering).bump (R.PWR_COUNT 3)) else .next v := by
  have hgo : ¬(72 ≤ i ∨ s.pwr.dorm ≠ .none) := by
    rw [hdorm]
    simp only [ne_eq, not_true, or_false]
    omega
  intro l v
  refine (if_neg hgo).trans ?_
  rw [hstage]

/-- Every stream starts again with a seam, and both pairs resume (R480). -/
def State.liveAgain (v : State) : State :=
  [1, 2].foldl State.pairResumes (v.liveStreams.foldl (fun s n => if epKind (s.strProducer n) = 5 then s else s.strRestart n) v)

theorem State.liveAgain_eq (v : State) :
    v.liveAgain = ((v.liveStreams.foldl (fun s n => if epKind (s.strProducer n) = 5 then s else s.strRestart n) v).pairResumes 1).pairResumes 2 := by
  simp only [State.liveAgain, List.foldl_cons, List.foldl_nil]

theorem exec_dormantExitComplete (h : s.pwr.dorm = .exitQuiet) :
    exec .dormantExitComplete s = .next ({ s with pwr := { s.pwr with dorm := .none } }.enter .quiet).lanesMove.liveAgain := by
  show execDormantExitComplete s = _
  rw [execDormantExitComplete, if_pos h, State.liveAgain]

theorem exec_wakeEvent {src : Nat} (h : src = 0x11 ∨ (1 ≤ src ∧ src ≤ 16 ∧ s.bit R.PWR_WAKE (src - 1) = true)) :
    exec (.wakeEvent src) s = .next (s.wake src) := if_pos h

theorem exec_islandPowerUpComplete_powering {i : Nat} (hi : i < 72) (hdorm : s.pwr.dorm = .none) (hstage : s.stage i = .powering) :
    let l := s.leadIsland i
    let v := ((s.setStage l .on).setPsw l true).islandInit l
    exec (.islandPowerUpComplete i) s =
      .next ({ v with pwr := { v.pwr with held := sset (fun _ => false) v.pwr.held l false } }.fitRails.stageDone l .DONE) := by
  have hgo : ¬(72 ≤ i ∨ s.pwr.dorm ≠ .none) := by
    rw [hdorm]
    simp only [ne_eq, not_true, or_false]
    omega
  intro l v
  refine (if_neg hgo).trans ?_
  rw [hstage]

end

/-- Settles O36: each clause is its row where its occasion holds. -/
theorem crystalAndSequencer : Obligations.CrystalAndSequencer := by
  unfold Obligations.CrystalAndSequencer
  refine ⟨?gate, ?generators, ?writes, fun s => rfl, ?steps, ?restart⟩
  case gate =>
    intro s iro hstable hsvy htrimmed
    have hexec := exec_xtalGate_iro (iro := iro) hstable hsvy htrimmed
    refine ⟨fun hbad hok hrun => ?_, fun hbad hrun => ?_, fun hgood hpass hok => ?_⟩
    · exact hexec.trans ((if_pos (decide_eq_true hbad)).trans (if_pos (by rw [hok, decide_eq_true hrun]; rfl)))
    · refine hexec.trans ((if_pos (decide_eq_true hbad)).trans ((if_neg ?_).trans ?_))
      · rw [hrun, decide_eq_false (by omega), Bool.and_false]
        decide
      · rw [hrun]
    · refine hexec.trans ((if_neg ?_).trans ((if_pos ?_).trans ?_))
      · rw [decide_eq_false (by omega)]
        decide
      · rw [hok, hpass]
        rfl
      · rw [hpass]
  case generators =>
    intro s i hstable
    exact ⟨fun hok => if_pos (by rw [hstable, hok]; rfl), fun hlocked hruns => if_pos ⟨hlocked, hstable, hruns⟩,
      fun hok hcoast => if_pos ⟨hok, hcoast⟩⟩
  case writes =>
    intro s m v hm
    obtain ⟨htier, hgrp, hisl⟩ := reach_ckiGates m hm
    refine ⟨fun hoff => ?_, fun hdev => ⟨?_, ?_, fun k hk => ?_⟩⟩
    · have haccess : s.access m R.CKI_GATE_TIER v = s := if_pos hoff
      have hexec : exec (.ckiGateWrite m R.CKI_GATE_TIER v) s = .next (s.access m R.CKI_GATE_TIER v) := exec_ckiGateWrite_access (.inl rfl)
      rw [hexec, haccess]
    · exact exec_ckiGateWrite hdev (by decide) htier (.inl rfl) (State.regWrite_CKI_GATE_TIER m v)
    · exact exec_ckiGateWrite hdev (by decide) hgrp (.inr (.inl rfl)) (State.regWrite_CKI_GATE_GRP m v)
    · have halign : R.CKI_GATE_ISL k % 4 = 0 := by simp only [R.CKI_GATE_ISL]; omega
      have hany : (List.range 5).any (fun j => decide (R.CKI_GATE_ISL k = R.CKI_GATE_ISL j)) = true :=
        List.any_eq_true.mpr ⟨k, List.mem_range.mpr hk, decide_eq_true rfl⟩
      exact exec_ckiGateWrite hdev halign (hisl k hk) (.inr (.inr hany)) (State.regWrite_CKI_GATE_ISL m hk v)
  case steps =>
    intro s v r sent hserving hstep
    refine ⟨fun e he hphase => ?_, fun e hlo hhi hphase => ?_, ?_⟩
    · rw [exec_avsAck_raise hserving hstep (by omega) hphase, if_neg (by omega)]
    · rw [exec_avsAck_raise hserving hstep hhi hphase, if_pos hlo]
    · simp only [exec, execAvsAckTimeout, hserving, hstep]
  case restart => intro s v i k rest hserving hphase htodo; exact exec_frequencyChangeRestart hserving hphase htodo

/-- Settles O37: each clause is its row where its occasion holds. -/
theorem islandsAndDormant : Obligations.IslandsAndDormant := by
  unfold Obligations.IslandsAndDormant
  refine ⟨?islands, ?noReturn, ?entered, fun s => exec_wakeEvent (.inl rfl), fun s src hlo hhi hbit => exec_wakeEvent (.inr ⟨hlo, hhi, hbit⟩),
    ?power, ?quiet⟩
  case islands =>
    intro s i hi hdorm l
    refine ⟨fun hstage => if_pos ⟨hi, hdorm, hstage⟩, fun hstage _ hheld => ?_, fun hstage => exec_islandPowerUpComplete_powering hi hdorm hstage⟩
    exact (exec_islandOff_opened hi hdorm hstage).trans (if_neg (Bool.eq_false_iff.mp hheld))
  case noReturn =>
    intro s hdorm
    show execDormantPointOfNoReturn s = _
    rw [execDormantPointOfNoReturn, if_pos hdorm]
  case entered =>
    intro s hdorm v w p
    have hopen : (((s.stageAll .off).resetKeys [R.PWR_RAIL 0, R.PWR_RAIL 1]).allOpen).stagesDone State.stageAsksOff .DONE = w := rfl
    show execDormantEntryComplete s = _
    rw [execDormantEntryComplete, if_pos hdorm, hopen]
    clear_value w
    rfl
  case power =>
    intro s hdorm v0 v1 r0 r1 v2 v3 v
    have hexec : exec .dormantExitPowerUp s = .next ((s.allPowered v0 v1).setDorm .exitQuiet) := if_pos hdorm
    have hv : s.allPowered v0 v1 = v := rfl
    rw [hv] at hexec
    clear_value v
    exact hexec
  case quiet =>
    intro s hdorm v u
    rw [exec_dormantExitComplete hdorm]
    exact congrArg Host.Outcome.next (State.liveAgain_eq v)

/-! ### The CLK and PWR commands -/

/-- An island that the sender may order on or off (R489). -/
theorem pwrIslandFields_none {s : State} {c : Cmd} (hi : c.n 2 6 0 ≤ 71) (hown : foreignIsland c s (c.n 2 6 0) = false)
    (hdev : s.sys.dev = .charted ∨ s.sys.dev = .onAir ∨ s.sys.dev = .quiet) :
    (if 71 < c.n 2 6 0 then some RetCode.BAD_FIELD
      else if s.sys.dev ≠ .charted ∧ s.sys.dev ≠ .onAir ∧ s.sys.dev ≠ .quiet then some .NOT_PERMITTED
      else if foreignIsland c s (c.n 2 6 0) then some .NOT_OWNER else none) = none := by
  have hstate : ¬(s.sys.dev ≠ .charted ∧ s.sys.dev ≠ .onAir ∧ s.sys.dev ≠ .quiet) := by tauto
  rw [if_neg (by omega), if_neg hstate, hown, if_neg Bool.false_ne_true]

/-- Settles O38: each command is served as its section of R484 to R491 says. -/
theorem powerCommands : Obligations.PowerCommands := by
  unfold Obligations.PowerCommands
  intro s mb
  dsimp only
  refine ⟨?clkStatus, ?gate, ?freq, ?pwrStatus, ?op, ?on, ?off, ?wake, ?avs⟩
  case clkStatus => exact fun h => congrArg Host.Outcome.next (runCommand_ans h rfl rfl)
  case gate =>
    intro h hlevel hi hown hopen horder
    refine congrArg Host.Outcome.next (runCommand_ans h ?_ ?_)
    · have hhi : ¬(0 = 3 ∨ 143 < (s.msg mb).n 2 7 0) := by omega
      simp only [hlevel, hhi, hown, ne_eq, not_true, and_false, Bool.false_eq_true, if_false]
    · simp only [hlevel, hopen, horder, Bool.false_eq_true, if_false]
  case freq =>
    intro h hi hlo hhi hroom
    refine congrArg Host.Outcome.next (runCommand_acc h (badIf_eq_none.mpr ?_) ?_)
    · rw [decide_eq_false (by omega), decide_eq_false (by omega), Bool.or_false]
    · have hfull : ¬ s.seqFull = true := by rw [State.seqFull, decide_eq_false (by omega)]; decide
      exact (if_neg (by omega)).trans (if_neg hfull)
  case pwrStatus => exact fun h => congrArg Host.Outcome.next (runCommand_ans h rfl rfl)
  case op =>
    intro h hsome hown hroom
    refine congrArg Host.Outcome.next (runCommand_acc h ?_ ?_)
    · rw [if_neg (by rw [List.isEmpty_iff]; exact hsome), hown, if_neg Bool.false_ne_true]
    · have hfull : ¬ s.seqFull = true := by rw [State.seqFull, decide_eq_false (by omega)]; decide
      exact if_neg hfull
  case on =>
    intro h hi hown hdev hon hdorm hfree hstage
    refine congrArg Host.Outcome.next (runCommand_acc h (pwrIslandFields_none hi hown hdev) ?_)
    simp only [hon, hdorm, hfree, hstage]
    rfl
  case off =>
    intro h hi hown hdev hoff hdorm hgates hfree hstage
    refine congrArg Host.Outcome.next (runCommand_acc h (pwrIslandFields_none hi hown hdev) ?_)
    have hgates' : (decide (32 ≤ (s.msg mb).n 2 6 0) && s.gatesEnabled ((s.msg mb).n 2 6 0 - 32)) = false := by
      rcases hgates with hi | hg
      · rw [decide_eq_false (by omega), Bool.false_and]
      · rw [hg, Bool.and_false]
    simp only [hoff, hdorm, hgates', hfree, hstage, Bool.not_false, Bool.true_and]
    rfl
  case wake => exact fun h => congrArg Host.Outcome.next (runCommand_ans h rfl rfl)
  case avs =>
    intro mv ma t h hreply
    exact congrArg Host.Outcome.next (runCommand_ans h (badIf_eq_none.mpr (by rw [hreply]; rfl)) rfl)

end Sys2Proof.Machine
end

section
/-! The graticule: packets and flits (R494 to R508), routes, link tests and the GRT commands (R501 to R517). -/

namespace Sys2Proof.Machine

section
variable {s : State}

/-! ### Packets -/

theorem exec_requestAtDestination {ni : Nat} {p : GrtPkt} {ecc : EccSeen} {x : ExtRead}
    (hp : (s.arrivedAt ni).find? (fun p => decide (p.op ≠ 8)) = some p) :
    let v := s.dropArrived ni (fun p => decide (p.op ≠ 8))
    let i := (niIsland ni).getD 0
    let refuse (status : Nat) : State := (v.bump (R.GRT_COUNT 4)).respond ni p.src p.tag p.cls status p.len []
    let w := ((v.setStage i .on).bump (R.PWR_COUNT 3)).stageDone (s.leadIsland i) .BUSY
    ∀ d, s.atDest ni (inBlock p.addr) = d → exec (.requestAtDestination ni ecc x) s = .next (match d with
      | .deliver => v.deliverPkt ni p ecc x
      | .gated => refuse 3
      | .dormant => refuse 4
      | .hold => s.holdRequest i
      | .abort =>
        if decide (w.atDest ni (inBlock p.addr) = .gated) then (w.bump (R.GRT_COUNT 4)).respond ni p.src p.tag p.cls 3 p.len []
        else w.deliverPkt ni p ecc x) := by
  intro v i refuse w d hd
  show execRequestAtDestination ni ecc x s = _
  unfold execRequestAtDestination
  rw [hp]
  dsimp only
  rw [hd]
  cases d <;> rfl

theorem exec_responseAtSource {ni : Nat} {p : GrtPkt} (hp : (s.arrivedAt ni).find? (fun p => decide (p.op = 8)) = some p)
    (hpass : s.sheetPasses p.master = true) :
    let v := s.dropArrived ni (fun p => decide (p.op = 8))
    exec (.responseAtSource ni) s = .next { v with grt := { v.grt with
      outstanding := sset (fun _ => []) v.grt.outstanding ni ((v.grtWaiting ni).eraseP (fun o => decide (o.tag = p.tag))),
      answered := sset (fun _ => none) v.grt.answered ni (some p) } } := by
  intro v
  show execResponseAtSource ni s = _
  unfold execResponseAtSource
  rw [hp]
  exact if_neg (by rw [hpass]; decide)

/-- The router and the port exist, and the router's clock runs. -/
theorem exec_graticuleFlitHop {r port : Nat} (hr : r < 64) (hport : port < 12) (hlive : s.routerLive r = true) :
    exec (.graticuleFlitHop r port) s = if 8 ≤ port then .next (s.niServe r (port - 8))
      else if (match hopTo r port with | some (_, r') => s.routerLive r' | none => decide (4 ≤ port)) = true then .next (s.portServe r port)
      else .next s := by
  refine if_neg ?_
  rw [hlive]
  simp only [Bool.true_eq_false, or_false]
  omega

theorem exec_routeChangeEffect {ni dst : Nat} {c : RouteChange}
    (hc : s.grt.changes.find? (fun c => decide (c.ni = ni ∧ c.dst = dst)) = some c) (hempty : s.routeEmpty ni dst = true)
    (hfree : (s.niRoute ni c.index).valid = false) :
    exec (.routeChangeEffect ni dst) s = .next ((State.setRoute { s with grt := { s.grt with changes := s.grt.changes.erase c } } ni c.index
      c.entry).completeOpt c.openId .DONE) := by
  show execRouteChangeEffect ni dst s = _
  unfold execRouteChangeEffect
  rw [hc]
  exact if_pos (by rw [hempty, hfree]; rfl)

end

/-- Settles O39: each clause is its row where its occasion holds. -/
theorem graticulePackets : Obligations.GraticulePackets := by
  unfold Obligations.GraticulePackets
  refine ⟨?inject, ?hop, ?request, fun s ni p hp hpass => exec_responseAtSource hp hpass, fun s i hlo hhi hruns hidle => ?gates, ?crc⟩
  case inject =>
    intro s ni addr len dst m key write data hdev hni hlen hlen' haddr hdata hpass k cls tag p o
    have hgo : ¬(s.sys.dev = .off ∨ (masterNis m).contains ni = false ∨ len = 0 ∨ 128 < len ∨ 2 ^ 48 ≤ addr ∨
        data.length ≠ (if write then len else 0)) := by
      rw [hni]
      simp only [hdev, hlen, hdata, ne_eq, not_true, Bool.true_eq_false, false_or, or_false]
      omega
    have hexec : exec (.packetInjection ni m write addr len key data) s = match s.destNi addr with
        | none => .next (s.ownAnswer ni p 1)
        | some dst =>
          if s.grt.changes.any (fun c => decide (c.ni = ni ∧ c.dst = dst)) then .next s
          else if !s.reachable ni dst then .next ((s.bump (R.GRT_COUNT 4)).ownAnswer ni p 3)
          else if 64 < s.sinkUsed ni + sinkFlits write len then .next s
          else .next (State.sendPkt { s with grt := { s.grt with
            nextTag := sset (fun _ => 0) s.grt.nextTag ni ((tag + 1) % 1024),
            outstanding := sset (fun _ => []) s.grt.outstanding ni (s.grtWaiting ni ++ [⟨tag, dst, sinkFlits write len⟩]) } }
            { p with dst := dst }) :=
      (if_neg hgo).trans (if_neg (by rw [hpass]; decide))
    clear_value p
    refine ⟨fun hnone => ?_, fun hdst hchanges hcut => ?_, fun hdst hchanges hreach hroom => ?_⟩
    · rw [hexec, hnone]
    · rw [hexec, hdst]
      exact (if_neg (by rw [hchanges]; exact Bool.false_ne_true)).trans (if_pos (by rw [hcut]; rfl))
    · rw [hexec, hdst]
      exact (if_neg (by rw [hchanges]; exact Bool.false_ne_true)).trans ((if_neg (by rw [hreach]; decide)).trans (if_neg (by omega)))
  case hop =>
    intro s r port hr hlive
    refine ⟨fun hlo hhi => ?_, fun hlo hhi hout => ?_, fun l r' hlt hto hnext => ?_⟩
    · rw [exec_graticuleFlitHop hr hhi hlive, if_pos hlo]
    · rw [exec_graticuleFlitHop hr (by omega) hlive, if_neg (by omega), hout]
      exact if_pos (decide_eq_true hlo)
    · rw [exec_graticuleFlitHop hr (by omega) hlive, if_neg (by omega), hto]
      exact if_pos hnext
  case request =>
    intro s ni p ecc x hp v i
    have hexec := exec_requestAtDestination (ecc := ecc) (x := x) hp
    refine ⟨hexec .deliver, hexec .gated, hexec .dormant, hexec .hold, fun habort => (hexec .abort habort).trans (congrArg Host.Outcome.next ?_)⟩
    exact if_congr decide_eq_true_iff rfl rfl
  case gates => exact if_pos ⟨hlo, hhi, hruns, hidle⟩
  case crc =>
    intro s l d hl hd n
    have hgo : ¬(112 ≤ l ∨ 2 ≤ d) := by omega
    exact ⟨fun hfew => (if_neg hgo).trans (if_pos hfew), fun hmany => (if_neg hgo).trans (if_neg (Nat.not_lt.mpr hmany))⟩

/-- Settles O40: each clause is its row or command where its occasion holds. -/
theorem graticuleRoutes : Obligations.GraticuleRoutes := by
  unfold Obligations.GraticuleRoutes
  refine ⟨fun s ni dst c hc hempty hfree => exec_routeChangeEffect hc hempty hfree, ?ends, ?commands⟩
  case ends =>
    intro s t pass ht hnone hswatch
    show execLinkTestEnd pass s = _
    unfold execLinkTestEnd
    rw [ht]
    exact if_pos ⟨hnone, hswatch⟩
  case commands =>
    intro s mb
    dsimp only
    refine ⟨?status, ?test, ?restore, ?read, ?write, ?counters⟩
    case status => exact fun h => congrArg Host.Outcome.next (runCommand_ans h rfl rfl)
    case test =>
      intro h hl hidle hdetour
      refine congrArg Host.Outcome.next (runCommand_acc h (badIf_eq_none.mpr (decide_eq_false (by omega))) ?_)
      exact (if_neg (by rw [hidle]; exact Bool.false_ne_true)).trans (if_neg (Bool.eq_false_iff.mp hdetour))
    case restore =>
      intro h hl hfailed hidle
      refine congrArg Host.Outcome.next (runCommand_acc h (badIf_eq_none.mpr (decide_eq_false (by omega))) ?_)
      exact (if_neg (by rw [hfailed]; decide)).trans (if_neg (by rw [hidle]; exact Bool.false_ne_true))
    case read =>
      intro h hni hlo hhi hend
      refine congrArg Host.Outcome.next (runCommand_ans h (badIf_eq_none.mpr ?_) rfl)
      rw [hni, decide_eq_false (by omega)]
      rfl
    case write =>
      intro h hni hclear
      have hvalid : (writtenRoute (s.msg mb)).valid = false := hclear
      refine congrArg Host.Outcome.next (runCommand_acc h (badIf_eq_none.mpr ?_) ?_)
      · rw [hni, hvalid]
        rfl
      · simp only [hvalid, Bool.false_eq_true, if_false]
        rfl
    case counters =>
      intro h
      refine congrArg Host.Outcome.next (runCommand_ans h rfl ?_)
      simp only [State.counters_map]

end Sys2Proof.Machine
end

section
/-! The host's attachment: the endpoint, the DMA engine and the DMA commands (R550 to R569). -/

namespace Sys2Proof.Machine

section
variable {s : State}

/-! ### BAR requests -/

theorem exec_bar4Read (hend : s.endpoint = true) (r : BarReq) (ecc : EccSeen) :
    exec (.bar4Read r ecc) s = .next (s.tapAccess { r with bar := 4, write := false } ecc) := if_pos hend

/-- The tap buffers are read in an expert session of a survey that allows capture (R552). -/
theorem State.tapAccess_reads {r : BarReq} (hsession : s.sys.session.isSome = true) (hpolicy : s.policy 3 = true)
    (hin : r.off + 4 * r.count ≤ 0x10000000) (hread : r.write = false) :
    s.tapAccess r .clean = s.barReply 0
      ((List.range r.count).map (fun i => word (leNat (bytesAt s.store (0xE0000000 + r.off + 4 * i) 4)))) := by
  refine if_neg ?_
  have hsize : decide (barSize 4 < r.off + 4 * r.count) = false := decide_eq_false (Nat.not_lt.mpr hin)
  rw [hread, State.tapReads, hsession, hpolicy, hsize]
  decide

theorem State.tapAccess_refused {r : BarReq} (hsession : s.sys.session = none) (ecc : EccSeen) : s.tapAccess r ecc = s.barUr r := by
  refine if_pos ?_
  rw [State.tapReads, hsession]
  simp only [Option.isSome_none, Bool.false_and, Bool.not_false, Bool.or_true, Bool.true_or]

/-! ### Queue registers -/

theorem regPlace_DMA_QTAIL : ∀ q < 32, regPlace (R.DMA_QTAIL q) = some (R.DMA_QTAIL 0, [q]) := by decide
theorem regPlace_DMA_QCTRL : ∀ q < 32, regPlace (R.DMA_QCTRL q) = some (R.DMA_QCTRL 0, [q]) := by decide

theorem State.regWrite_DMA_QTAIL (m : Master) {q : Nat} (hq : q < 32) (v : Word) :
    s.regWrite m (R.DMA_QTAIL q) v = (s.dmaTailWrite q v).busOk := by
  obtain ⟨r, hat, hbase⟩ := regAt_of_regPlace (regPlace_DMA_QTAIL q hq)
  have haddr : ¬ R.DMA_QTAIL q < 0x2000 := by simp only [R.DMA_QTAIL]; omega
  have hstr : ¬(0xE8000 ≤ R.DMA_QTAIL q ∧ R.DMA_QTAIL q < 0xF0000) := by simp only [R.DMA_QTAIL]; omega
  simp only [State.regWrite, if_neg haddr, hat, hbase, if_neg hstr]
  rfl

theorem State.regWrite_DMA_QCTRL (m : Master) {q : Nat} (hq : q < 32) (v : Word) :
    s.regWrite m (R.DMA_QCTRL q) v = (s.dmaCtrlWrite q v).busOk := by
  obtain ⟨r, hat, hbase⟩ := regAt_of_regPlace (regPlace_DMA_QCTRL q hq)
  have haddr : ¬ R.DMA_QCTRL q < 0x2000 := by simp only [R.DMA_QCTRL]; omega
  have hstr : ¬(0xE8000 ≤ R.DMA_QCTRL q ∧ R.DMA_QCTRL q < 0xF0000) := by simp only [R.DMA_QCTRL]; omega
  simp only [State.regWrite, if_neg haddr, hat, hbase, if_neg hstr]
  rfl

/-- A write by a master that does not reach the address (R54). -/
theorem State.access_of_unreached {m : Master} {a : Nat} (v : Word) (hdev : s.sys.dev ≠ .off) (hreach : busReach m true a = false) :
    s.access m a v = State.answered m s.busErr := by
  simp only [State.access, State.busWrite, hdev, hreach, Bool.not_false, or_true, if_true, if_false]

/-! ### Descriptors -/

/-- The oldest started descriptor of a running queue. -/
theorem dma_works {q : Nat} (hruns : s.engineRuns = true) (hq : q < 32) : (s.engineRuns && decide (q < 32)) = true := by
  rw [hruns, decide_eq_true hq]
  rfl

theorem State.dmaWork_ended {q st info : Nat} {d : Desc} {seen : DmaSeen} (h : d.ended = some (st, info)) :
    s.dmaWork q d seen = (s, d, some (st, info)) := by
  simp only [State.dmaWork, h]

theorem State.dmaWork_unbound {q : Nat} {d : Desc} {seen : DmaSeen} (h : d.ended = none) (hop : d.op ≠ 1)
    (hstream : s.epStream (0x6000 + q) = none) : s.dmaWork q d seen = (s, d, none) := by
  simp only [State.dmaWork, h, hop, hstream, if_false]

/-- The commands that wait for the link's retraining, when DMA.LINK is the only one open. -/
theorem exec_dmaLinkRetrained {speed width : Nat} {o : OpenCmd} (hspeed : 1 ≤ speed ∧ speed ≤ 5)
    (hwidth : width = 1 ∨ width = 2 ∨ width = 4 ∨ width = 8) (hopen : s.mbx.open_ = [o]) (hcode : o.code = 0x1381) :
    exec (.dmaLinkRetrained speed width) s = .next ((s.pcieUp speed width).complete o.id .DONE) := by
  have hfits : pcieFits speed width = true := by
    unfold pcieFits
    rw [decide_eq_true hspeed]
    rcases hwidth with rfl | rfl | rfl | rfl <;> rfl
  have hwaits : (s.openOf 0x1381).isSome = true := by
    simp only [State.openOf, hopen, List.find?_cons, hcode, decide_true, Bool.and_self, Option.isSome_some]
  have hmbx : (s.pcieUp speed width).mbx.open_ = [o] := by
    simp only [State.pcieUp, State.put_mbx, hopen]
  refine (if_pos ⟨hfits, hwaits⟩).trans ?_
  simp only [hmbx, List.filter_cons, List.filter_nil, hcode, decide_true, if_true, List.foldl_cons, List.foldl_nil]

end

/-- Settles O44: each clause is its row or command where its occasion holds. -/
theorem hostAttachment : Obligations.HostAttachment := by
  unfold Obligations.HostAttachment
  refine ⟨?bars, ?queues, ?start, ?descriptors, ?retrained, ?commands⟩
  case bars =>
    intro s r hend
    have hon : ¬(!s.endpoint) = true := by rw [hend]; decide
    refine ⟨fun hbar => ?_, fun h0 h2 h4 => ?_, fun hsession hpolicy hin => ?_, fun hsession => ?_, fun v hv => if_pos ⟨hend, hv⟩⟩
    · exact (if_neg hon).trans (if_pos hbar)
    · exact (if_neg hon).trans ((if_neg (by omega)).trans (if_neg h4))
    · rw [exec_bar4Read hend, State.tapAccess_reads (r := { r with bar := 4, write := false }) hsession hpolicy hin rfl]
    · rw [exec_bar4Read hend, State.tapAccess_refused hsession]
  case queues =>
    intro s m q w hq hdev
    have htail : R.DMA_QTAIL q % 4 = 0 := by simp only [R.DMA_QTAIL]; omega
    have hctrl : R.DMA_QCTRL q % 4 = 0 := by simp only [R.DMA_QCTRL]; omega
    have hrun : exec (.dmaQctrlRun m q w) s = .next (s.access m (R.DMA_QCTRL q) (w ||| 0x80000000)) := if_pos hq
    have hstop : exec (.dmaQctrlStop m q w) s = .next (s.access m (R.DMA_QCTRL q) (w ||| 0x40000000)) := if_pos hq
    have htw : exec (.dmaQtailWrite m q w) s = .next (s.access m (R.DMA_QTAIL q) w) := if_pos hq
    refine ⟨fun hreach => ?_, fun hreach => ⟨?_, ?_⟩, fun hreach => ?_, fun hreach => ⟨?_, ?_⟩⟩
    · rw [htw, State.access_of_reach _ hdev htail hreach, State.regWrite_DMA_QTAIL m hq]
    · rw [hrun, State.access_of_reach _ hdev hctrl hreach, State.regWrite_DMA_QCTRL m hq]
    · rw [hstop, State.access_of_reach _ hdev hctrl hreach, State.regWrite_DMA_QCTRL m hq]
    · rw [htw, State.access_of_unreached _ hdev hreach]
    · rw [hrun, State.access_of_unreached _ hdev hreach]
    · rw [hstop, State.access_of_unreached _ hdev hreach]
  case start =>
    intro s q ws hruns hready head v
    show execDmaDescriptorStart (some ws) s = _
    unfold execDmaDescriptorStart
    rw [hruns, hready]
  case descriptors =>
    intro s q d rest seen hruns hq hstarted
    have hworks := dma_works hruns hq
    refine ⟨fun st info hended => ?_, fun hended hdir hop hmoved => ?_, fun hended hdir hop hstream => ?_⟩
    · simp only [exec, execDmaDescriptorComplete, decide_eq_true hq, hstarted, State.dmaWork_ended hended, hruns, Bool.and_self, Bool.not_true,
        Bool.false_eq_true, if_false]
    · show execD2hIdleTimeout q s = _
      unfold execD2hIdleTimeout
      rw [hworks, hstarted]
      exact if_pos ⟨hdir, hop, hmoved, hended⟩
    · simp only [exec, execHostReadTimeout, decide_eq_true hq, hstarted, hdir, State.dmaWork_unbound hended hop hstream, hruns,
        Bool.and_self, Bool.not_true,
        Bool.false_eq_true, if_false]
  case retrained => intro s speed width o hlo hhi hwidth hopen hcode; exact exec_dmaLinkRetrained ⟨hlo, hhi⟩ hwidth hopen hcode
  case commands =>
    intro s mb
    dsimp only
    refine ⟨fun h => congrArg Host.Outcome.next (runCommand_ans h rfl rfl), fun h hkey hstate hstream => ?_, fun h => ?_, fun h hlo hhi => ?_⟩
    · refine congrArg Host.Outcome.next (runCommand_ans h (if_pos hkey) (if_neg ?_))
      rw [hstream]
      simp only [Option.isSome_none, Bool.false_eq_true, or_false]
      omega
    · refine congrArg Host.Outcome.next (runCommand_ans h rfl ?_)
      simp only [State.counters_map]
    · exact congrArg Host.Outcome.next (runCommand_acc h (badIf_eq_none.mpr (decide_eq_false (by omega))) rfl)

end Sys2Proof.Machine
end

section
/-! The yarn ports and the cascade: codewords, training, time, broadcasts, heartbeats, forwarding and the YRN commands (R570 to R594). -/

namespace Sys2Proof.Machine

section
variable {s : State} {p : Nat}

/-! ### Codewords -/

theorem exec_yarnCodewordSend_replay {c : SentCw} {rest : List SentCw} (hup : s.yarnUp p = true)
    (hresend : ((s.yarnPassAll p).yport p).resend = c :: rest) :
    let v := s.yarnPassAll p
    let y := v.yport p
    exec (.yarnCodewordSend p) s =
      .next ((v.bump (R.YRN_COUNT p 0)).setYport p { y with resend := rest, sent := some (y.codeword c false) }) := by
  intro v y
  refine (if_neg (by rw [hup]; decide)).trans ?_
  dsimp only
  rw [hresend]

/-- With 48 codewords unacknowledged the port sends IDLE (R578). -/
theorem exec_yarnCodewordSend_idle (hup : s.yarnUp p = true) (hresend : ((s.yarnPassAll p).yport p).resend = [])
    (hdiscard : ((s.yarnPassAll p).yport p).discard = []) (hfull : 48 ≤ ((s.yarnPassAll p).yport p).unacked.length) :
    let v := s.yarnPassAll p
    let y := v.yport p
    let c : SentCw := ⟨y.returns.2.2.2.nextSeq, y.returns.1, y.returns.2.1, y.returns.2.2.1, []⟩
    exec (.yarnCodewordSend p) s = .next (v.setYport p { y.returns.2.2.2 with sent := some (y.returns.2.2.2.codeword c true) }) := by
  intro v y c
  refine (if_neg (by rw [hup]; decide)).trans ?_
  dsimp only
  rw [hresend]
  simp only [hdiscard, List.map_nil, List.foldl_nil, hfull, if_true, List.isEmpty_nil, c, y, v]

theorem exec_yarnCodewordReceived {cw : YarnCodeword} (hup : s.yarnUp p = true) (hgood : cw.good = true) (hclean : cw.corrected = false)
    (hstill : (s.yarnAck p cw).yarnUp p = true) :
    let v := s.yarnAck p cw
    let y := v.yport p
    let d := seqAfter y.lastGood cw.seq
    exec (.yarnCodewordReceived p cw) s =
      if d = 1 then
        if cw.idle then .next (v.setYport p ({ y with nak := false }.credited cw))
        else .next (cw.units.foldl (fun s u => s.yarnDeliver p u)
          ((v.bump (R.YRN_COUNT p 1)).setYport p ({ y with lastGood := cw.seq, nak := false }.credited cw)))
      else if d = 0 ∨ 65536 - 48 ≤ d then .next v
      else .next (v.setYport p { y with nak := true }) := by
  intro v y d
  have hsame : (if cw.corrected then s.bump (R.YRN_COUNT p 2) else s) = s := if_neg (Bool.eq_false_iff.mp hclean)
  refine (if_neg (by rw [hup]; decide)).trans ((if_neg (by rw [hgood]; decide)).trans ?_)
  dsimp only
  rw [hsame]
  exact if_neg (by rw [hstill]; decide)

/-! ### Training -/

/-- The lane is in training in its port. -/
theorem exec_yarnTrainingFrame {n : Nat} {f : YarnFrame} (hclass : s.laneClass n = 3) (hport : s.laneGroup n < 2)
    (hstate : s.laneState n = laneTRAINING) (hlp : (s.lane n).lp = .none)
    (htrain : s.get (R.YRN_PORT (s.laneGroup n)) F.YRN_PORT_STATE = 1) :
    let p := s.laneGroup n
    let y := s.yport p
    exec (.yarnTrainingFrame n f) s = .next ((if f.good then s.yarnFrameGood p n f
      else s.setYport p { y with frames := sset (fun _ => 0) y.frames n 0 }).yarnFrameSent p n) := by
  refine if_neg ?_
  simp only [hclass, hstate, hlp, htrain, ne_eq, not_true, false_or, or_false]
  omega

/-- Step 3 of training: the partner's requests are answered, and the step ends when every lane's partner is ready (R580). -/
theorem State.yarnFrameGood_ready {n : Nat} {f : YarnFrame} (hstep : s.get (R.YRN_PORT p) F.YRN_PORT_STEP = 3) (hrx : f.rxReady = true)
    (hnew : (s.yport p).ready.contains n = false) :
    let y := s.yport p
    let v := (s.ffeRequests n f.ffeReq).setYport p
      { y with ready := y.ready ++ [n], stats := sset (fun _ => 0) y.stats n (s.ffeStat n f.ffeReq) }
    s.yarnFrameGood p n f = if (s.yarnLanes p).all (y.ready ++ [n]).contains = true then v.put (R.YRN_PORT p) F.YRN_PORT_STEP 4 else v := by
  intro y v
  unfold State.yarnFrameGood
  rw [hstep]
  simp only [hrx, hnew, Bool.not_false, Bool.and_self, if_true, y, v]

/-- Every lane of a port in step 4 is in training. -/
theorem yarnPort_trained (hp : p < 2) (hlanes : s.yarnLanes p ≠ []) (hstate : s.get (R.YRN_PORT p) F.YRN_PORT_STATE = 1)
    (hstep : s.get (R.YRN_PORT p) F.YRN_PORT_STEP = 4)
    (hall : (s.yarnLanes p).all (fun n => s.laneState n == laneTRAINING && decide ((s.lane n).lp = .none)) = true) :
    ¬(2 ≤ p ∨ (s.yarnLanes p).isEmpty = true ∨ s.get (R.YRN_PORT p) F.YRN_PORT_STATE ≠ 1 ∨ s.get (R.YRN_PORT p) F.YRN_PORT_STEP ≠ 4 ∨
      (!((s.yarnLanes p).all (fun n => s.laneState n == laneTRAINING && decide ((s.lane n).lp = .none)))) = true) := by
  simp only [hall, hstate, hstep, List.isEmpty_iff, hlanes, ne_eq, not_true, Bool.not_true, Bool.false_eq_true, or_false]
  omega

end

/-- Settles O45: each clause is its row where its occasion holds. -/
theorem yarnPorts : Obligations.YarnPorts := by
  unfold Obligations.YarnPorts
  refine ⟨?send, ?received, ?training, ?port⟩
  case send =>
    intro s p hup v y
    exact ⟨fun c rest hresend => exec_yarnCodewordSend_replay hup hresend,
      fun hresend hdiscard hfull => exec_yarnCodewordSend_idle hup hresend hdiscard hfull⟩
  case received =>
    intro s p cw hup
    have hon : ¬(!s.yarnUp p) = true := by rw [hup]; decide
    refine ⟨fun hbad => ?_, fun hgood hclean hstill => ?_, fun hwaits => ?_⟩
    · exact (if_neg hon).trans (if_pos (by rw [hbad]; rfl))
    · have hexec := exec_yarnCodewordReceived hup hgood hclean hstill
      refine ⟨fun hnext hidle => ?_, fun hagain => ?_, fun hlo hhi => ?_⟩
      · exact hexec.trans ((if_pos hnext).trans (if_neg (Bool.eq_false_iff.mp hidle)))
      · exact hexec.trans ((if_neg (by omega)).trans (if_pos (Or.inl hagain)))
      · exact hexec.trans ((if_neg (by omega)).trans (if_neg (by omega)))
    · refine if_neg ?_
      rintro (h | h)
      · exact hon h
      · exact hwaits (List.isEmpty_iff.mp h)
  case training =>
    intro s n f hclass hport hstate hlp htrain p y
    have hexec := exec_yarnTrainingFrame (f := f) hclass hport hstate hlp htrain
    refine ⟨fun hbad => ?_, fun hgood => ?_, fun hstep hrx hnew => State.yarnFrameGood_ready hstep hrx hnew⟩
    · rw [hexec, if_neg (Bool.eq_false_iff.mp hbad)]
    · rw [hexec, if_pos hgood]
  case port =>
    intro s p hp
    refine ⟨fun hlanes hstate hstep hall => if_neg (yarnPort_trained hp hlanes hstate hstep hall), fun hwas hdown => ?_⟩
    exact congrArg Host.Outcome.next (if_pos ⟨hp, hwas, by rw [hdown]; rfl⟩)

end Sys2Proof.Machine
end

section
/-! The cascade: time transfer, broadcasts, heartbeats, forwarding and the YRN commands (R581 to R594). -/

namespace Sys2Proof.Machine

section
variable {s : State} {p : Nat}

/-- Work of an executing pair that is not in reset is done. -/
theorem State.duty_runs {k : Nat} {x : Out} (h : s.mbx.pairsInReset.contains k = false) : s.duty k x = x := if_neg (Bool.eq_false_iff.mp h)

/-! ### Time, broadcasts, heartbeats -/

/-- The first time unit of a transfer that tells of an earlier one (R581). -/
theorem exec_yarnTimeUnitReceived {rx t3 t1 t2 : Nat} {rest : List YarnUnit} (hrx : (s.yport p).rxTime = .time t3 t1 t2 :: rest)
    (hfirst : (s.yport p).lastTime = none) (ht1 : t1 ≠ 0) :
    let y := s.yport p
    let v := s.setYport p { y with rxTime := rest, echo := some ⟨t3, rx⟩, lastTime := some s.stamp, timeSince := some s.stamp }
    let asym := sgn 32 (s.rd (R.YRN_ASYM p)).toNat
    exec (.yarnTimeUnitReceived p rx) s = .next ((v.wr (R.YRN_DELAY p)
      (word (satNat 32 (yarnPs (((t2 : Int) - t1) + ((rx : Int) - t3)) asym).toNat))).wr (R.YRN_OFFSET p)
        (word (unsgn 32 (satInt 32 (yarnPs (((t2 : Int) - t1) - ((rx : Int) - t3)) asym))))) := by
  intro y v asym
  show execYarnTimeUnitReceived p rx s = _
  unfold execYarnTimeUnitReceived
  dsimp only
  rw [hrx, hfirst]
  exact if_neg ht1

theorem exec_bcastReceived {a : Nat} {w : Word} {sw : Bool} {rest : List YarnUnit} (hrx : (s.yport p).rxTime = .bcast w sw a :: rest)
    (hp : p < 2) :
    let v := s.setYport p { s.yport p with rxTime := rest }
    let u : State := { v with links := { v.links with yrn := { v.links.yrn with lastBcast := some ⟨a, w, sw⟩ } } }
    v.position ≠ 0 → v.get (R.YRN_PORT (otherPort p)) F.YRN_PORT_PEER = 0 → v.links.yrn.lastBcast = none → v.airNow < a →
    exec (.bcastReceived p) s = .next (u.bcastAdd ⟨a, w, sw⟩) := by
  intro v u hmember hend hnew hahead
  have hgo : ¬(v.position = 0 ∨ 2 ≤ p) := by omega
  show execBcastReceived p s = _
  unfold execBcastReceived
  dsimp only
  rw [hrx]
  refine (if_neg hgo).trans ?_
  rw [if_pos hend, hnew, if_neg (by exact fun h => nomatch h)]
  exact congrArg (fun x => Host.Outcome.next (State.bcastAdd x ⟨a, w, sw⟩)) (if_neg (Nat.not_le.mpr hahead))

theorem exec_heartbeatReceived {k st mer : Nat} {rest : List YarnUnit} (hrx : (s.yport p).rxTime = .heartbeat k st mer :: rest) :
    let v := s.setYport p { s.yport p with rxTime := rest }
    let w : State := { v with links := { v.links with yrn := { v.links.yrn with
      beats := sset (fun _ => none) v.links.yrn.beats k (some v.stamp) } } }
    exec (.heartbeatReceived p) s =
      if v.position ≠ 0 then .next (v.yarnTime (otherPort p) (.heartbeat k st mer))
      else if k = 0 ∨ 8 ≤ k then .next v
      else if st = 1 ∨ st = 8 ∨ st = 9 then .next (if w.bit R.YRN_STATUS k ∨ !w.bit R.YRN_STATUS (8 + k) then w.markLost k 1 st else w)
      else .next (if st = 3 ∨ st = 4 ∨ st = 5 then w.setBit R.YRN_STATUS k true else w) := by
  intro v w
  show execHeartbeatReceived p s = _
  unfold execHeartbeatReceived
  dsimp only
  rw [hrx]

/-! ### Forwarding -/

/-- A whole message stands at the head of virtual lane 2 (R585). -/
theorem exec_forwardedMessageReceived {u : CtrlUnit} {us : List CtrlUnit} (hmsg : headMessage (s.yport p).rxCtrl = some (u :: us)) (hp : p < 2)
    (hpair : s.mbx.pairsInReset.contains 2 = false) :
    let v := s.setYport p { s.yport p with
      rxCtrl := (s.yport p).rxCtrl.drop (us.length + 1), ctrlOwed := (s.yport p).ctrlOwed + (us.length + 1) }
    let w : State := { v with mbx := { v.mbx with poster := sset (fun _ => none) v.mbx.poster (26 + p) (some u.src) } }
    exec (.forwardedMessageReceived p) s =
      if u.dst ≠ s.position then .next ((v.bump (R.YRN_COUNT p 7)).yarnCtrl u.dst (u :: us))
      else if s.full (26 + p) then .next s
      else .next (w.postInto (26 + p) ((u :: us).flatMap CtrlUnit.words)) := by
  intro v w
  refine (State.duty_runs hpair).trans ?_
  dsimp only
  rw [hmsg]
  exact if_neg (Nat.not_le.mpr hp)

/-- A message waits at port `q` for the acknowledgement of position `k`. -/
def State.ackAwaited (v : State) (k q : Nat) : Bool := match (v.yport q).cur with | some m => decide (m.dst = k) | none => false

/-- The acknowledgement `u` reaches the port that has posted the message (R585). -/
def State.ackTaken (v : State) (p : Nat) (u : CtrlUnit) : Out :=
  let q := if v.ackAwaited u.src p then p else otherPort p
  if !v.ackAwaited u.src q then .next v
  else
    let id := match (v.yport q).cur with | some m => m.openId | none => none
    let w := { v with links := { v.links with yrn := { v.links.yrn with
      fwds := v.links.yrn.fwds.map (fun (f : Fwd) => if some f.openId = id then { f with acked := true } else f) } } }
    let w := w.setYport q { w.yport q with cur := none }
    .next ((w.ackWrite (24 + q) (Word.bits (u.words.headD 0) 15 0)).yarnPump q)

theorem exec_forwardedAckReceived {u : CtrlUnit} {rest : List CtrlUnit} (hrx : (s.yport p).rxCtrl = u :: rest) (hack : u.ack = true)
    (hp : p < 2) (hpair : s.mbx.pairsInReset.contains 2 = false) :
    let v := s.setYport p { s.yport p with rxCtrl := rest, ctrlOwed := (s.yport p).ctrlOwed + 1 }
    exec (.forwardedAckReceived p) s = if u.dst ≠ v.position then .next (v.yarnCtrl u.dst [u]) else v.ackTaken p u := by
  intro v
  have hgo : ¬((!u.ack) = true ∨ 2 ≤ p) := by
    rw [hack]
    simp only [Bool.not_true, Bool.false_eq_true, false_or]
    omega
  refine (State.duty_runs hpair).trans ?_
  dsimp only
  rw [hrx]
  exact if_neg hgo

theorem State.setFwds_self {v : State} {l : List Fwd} (h : l = v.links.yrn.fwds) :
    ({ v with links := { v.links with yrn := { v.links.yrn with fwds := l } } } : State) = v := by
  subst h
  rfl

/-- A message of this device's own is acknowledged while no forward is under way. -/
theorem State.ackTaken_own {v : State} {u : CtrlUnit} {m : YMsg} (hcur : (v.yport p).cur = some m) (hdst : m.dst = u.src)
    (hfwds : v.links.yrn.fwds = []) :
    v.ackTaken p u = .next (((v.setYport p { v.yport p with cur := none }).ackWrite (24 + p) (Word.bits (u.words.headD 0) 15 0)).yarnPump p) := by
  have hwaits : v.ackAwaited u.src p = true := by simp only [State.ackAwaited, hcur, decide_eq_true hdst]
  have hself := State.setFwds_self (v := v)
    (l := v.links.yrn.fwds.map (fun (f : Fwd) => if some f.openId = m.openId then { f with acked := true } else f)) (by rw [hfwds]; rfl)
  unfold State.ackTaken
  simp only [hwaits, if_true, Bool.not_true, Bool.false_eq_true, if_false, hcur]
  rw [hself]

theorem exec_yrnForwardComplete {f : Fwd} (hp : p < 2) (hfull : s.full (26 + p) = true) (hholds : s.holds (26 + p) = false)
    (hserve : s.serving = true) (hpair : s.mbx.pairsInReset.contains 2 = false)
    (hf : s.links.yrn.fwds.find? (fun f => decide (some f.target = (s.msg (26 + p)).src)) = some f) :
    let v := s.ackWrite (26 + p) 0
    let w : State := { v with links := { v.links with yrn := { v.links.yrn with
      fwds := v.links.yrn.fwds.filter (fun x => x.openId ≠ f.openId) } } }
    exec (.yrnForwardComplete p) s = .next (w.complete f.openId .DONE ((s.msg (26 + p)).rest 0)) := by
  intro v w
  have hgo : ¬(2 ≤ p ∨ (!s.full (26 + p)) = true ∨ s.holds (26 + p) = true ∨ (!s.serving) = true) := by
    rw [hfull, hholds, hserve]
    simp only [Bool.not_true, Bool.false_eq_true, or_false]
    omega
  refine (State.duty_runs hpair).trans ((if_neg hgo).trans ?_)
  dsimp only
  rw [hf]

/-- What YRN.FORWARD carries is a command for another position of the cascade (R592). -/
theorem yrnForwardFields_none {c : Cmd} {w : Word} {r : List Word} (hcascade : s.cascaded = true) (hother : c.n 2 2 0 ≠ s.position)
    (hin : c.n 2 2 0 < s.cascadeCount) (hrest : c.rest 3 = w :: r) (hlen : Cmd.length { c with words := w :: r } = c.length - 3)
    (hlong : 5 ≤ c.length) (hreply : replyLength { c with words := w :: r } ≤ 61) :
    (if !s.cascaded then some RetCode.NOT_PERMITTED
      else badIf (decide (c.n 2 2 0 = s.position ∨ s.cascadeCount ≤ c.n 2 2 0 ∨ Cmd.length { c with words := c.rest 3 } ≠ c.length - 3 ∨
        Cmd.length { c with words := c.rest 3 } < 2 ∨ 61 < replyLength { c with words := c.rest 3 }))) = none := by
  rw [if_neg (by rw [hcascade]; decide), hrest, badIf_eq_none, decide_eq_false_iff_not]
  omega

end

/-- Settles O46: each clause is its row or command where its occasion holds. -/
theorem yarnCascade : Obligations.YarnCascade := by
  unfold Obligations.YarnCascade
  refine ⟨?send, ?time, ?bcast, ?beat, ?beaten, ?lost, ?message, ?ack, ?forwarded, ?commands⟩
  case send =>
    intro s p tx hecho
    show execYarnTimeUnitSend p tx s = _
    simp only [execYarnTimeUnitSend, hecho]
  case time => intro s p rx t3 t1 t2 rest hrx hfirst ht1; exact exec_yarnTimeUnitReceived hrx hfirst ht1
  case bcast => intro s p a w sw rest hrx hp; exact exec_bcastReceived hrx hp
  case beat =>
    intro s p hup hcascade hlive
    show execHeartbeatSend s = _
    simp only [execHeartbeatSend, hup, hcascade, hlive, Bool.not_true, Bool.false_eq_true, if_false, if_true]
  case beaten =>
    intro s p k st mer rest hrx v
    have hexec := exec_heartbeatReceived hrx
    refine ⟨fun hmember => hexec.trans (if_pos hmember), fun hmaster hlo hhi hst => ?_⟩
    exact hexec.trans ((if_neg (not_not.mpr hmaster)).trans ((if_neg (by omega)).trans ((if_neg (by omega)).trans
      (congrArg Host.Outcome.next (if_pos hst)))))
  case lost =>
    intro s k t ht v w
    show execHeartbeatTimeout k s = _
    unfold execHeartbeatTimeout
    rw [ht]
  case message =>
    intro s p u us hmsg hp hpair v
    have hexec := exec_forwardedMessageReceived hmsg hp hpair
    refine ⟨fun hdst hempty => ?_, fun hdst => hexec.trans (if_pos hdst)⟩
    exact hexec.trans ((if_neg (not_not.mpr hdst)).trans (if_neg (Bool.eq_false_iff.mp hempty)))
  case ack =>
    intro s p u rest hrx hack hp hpair v
    have hexec := exec_forwardedAckReceived hrx hack hp hpair
    refine ⟨fun hother => hexec.trans (if_pos (Ne.symm hother)), fun m hdst hcur hm _ hfwds => ?_⟩
    exact hexec.trans ((if_neg (not_not.mpr hdst.symm)).trans (State.ackTaken_own hcur hm hfwds))
  case forwarded =>
    intro s p f hp hfull hholds hserve hpair hf
    exact exec_yrnForwardComplete hp hfull hholds hserve hpair hf
  case commands =>
    intro s mb
    dsimp only
    refine ⟨?status, ?channel, ?asym, ?counters, ?forward⟩
    case status => exact fun h => congrArg Host.Outcome.next (runCommand_ans h rfl rfl)
    case channel =>
      intro h hcascade hlanes hmode hfree
      refine congrArg Host.Outcome.next (runCommand_ans h (badIf_eq_none.mpr ?_) ?_)
      · rw [hcascade, Bool.true_and, List.isEmpty_eq_false_iff]
        exact hlanes
      · refine (if_neg ?_).trans (if_neg (by rw [hfree]; exact Bool.false_ne_true))
        rw [hcascade]
        simp only [Bool.not_true, Bool.false_eq_true, false_or]
        exact hmode
    case asym =>
      intro h hlo hhi hcascade
      refine congrArg Host.Outcome.next (runCommand_ans h (badIf_eq_none.mpr (decide_eq_false (by omega))) ?_)
      exact if_neg (by rw [hcascade]; decide)
    case counters =>
      intro h hcascade
      refine congrArg Host.Outcome.next (runCommand_ans h rfl ((if_neg (by rw [hcascade]; decide)).trans ?_))
      simp only [State.counters_map]
    case forward =>
      intro p w r h hcascade hother hin hrest hlen hlong hreply hroute hlost halive
      refine congrArg Host.Outcome.next
        (runCommand_acc h (yrnForwardFields_none hcascade hother hin hrest hlen hlong hreply) ?_)
      simp only [hroute, hlost, halive, hrest, Bool.not_true, Bool.false_eq_true, or_self, if_false]

end Sys2Proof.Machine
end

section
/-! The fault-window unit: its events and the FLT commands (O47). -/

namespace Sys2Proof.Machine

/-! ### Fault windows -/

section
variable {s : State} {src inst : Nat}

theorem State.slotOf_some {i : Nat} {x : Slot} (hslot : s.slotOf src inst = some i) (hx : s.slot i = some x) : x.src = src ∧ x.inst = inst := by
  have h := List.find?_some hslot
  rw [hx] at h
  exact of_decide_eq_true h

theorem State.slotFor_of_slotOf {i : Nat} (h : s.slotOf src inst = some i) : s.slotFor src inst = (some i, false) := by
  unfold State.slotFor
  rw [h]

/-- A slot that holds the event's key counts the event in both its windows (R600). -/
theorem State.windowEvent_held {i : Nat} {x : Slot} (hslot : s.slotOf src inst = some i) (hx : s.slot i = some x) (hlasting : x.lasting = false) :
    let y := x.count s.stamp (s.fltW src)
    (y.cntA < s.fltT src → y.cntB < s.fltT src → s.windowEvent src inst = (false, false, s.setSlot i (some y))) ∧
    (s.fltT src ≤ y.cntA ∨ s.fltT src ≤ y.cntB → fltReported src = false → s.windowEvent src inst =
      (true, false, ((s.setSlot i (some { y with lasting := true })).bump (R.FLT_COUNT 1)).gazInc (56 + (fltClass src).getD 0))) := by
  intro y
  have hheld : s.slotHeld i src inst = x := by rw [State.slotHeld, hx]; exact if_pos (State.slotOf_some hslot hx)
  have hy : y.lasting = false := hlasting
  have hevent : ∀ p, (decide (s.fltT src ≤ y.cntA) || decide (s.fltT src ≤ y.cntB)) = p → s.windowEvent src inst =
      if !p then (false, false, s.setSlot i (some { y with lasting := p }))
      else (true, false,
        if fltReported src then (((s.setSlot i (some { y with lasting := p })).bump (R.FLT_COUNT 1)).gazInc (56 + (fltClass src).getD 0)).setSlot i none
        else ((s.setSlot i (some { y with lasting := p })).bump (R.FLT_COUNT 1)).gazInc (56 + (fltClass src).getD 0)) := by
    intro p hp
    unfold State.windowEvent
    rw [State.slotFor_of_slotOf hslot]
    simp only [Bool.false_eq_true, if_false, hheld]
    rw [show (x.count s.stamp (s.fltW src)) = y from rfl, hy, hp]
    simp only [Bool.not_false, Bool.true_and, Bool.false_or]
  constructor
  · intro ha hb
    rw [hevent false (by rw [decide_eq_false (by omega), decide_eq_false (by omega)]; rfl), ← hy]
    exact if_pos (by rw [hy]; rfl)
  · intro hpast hreport
    rw [hevent true (by rw [Bool.or_eq_true, decide_eq_true_iff, decide_eq_true_iff]; exact hpast), hreport]
    rfl

/-- An event of a source other than KEEP that keeps nothing: counted, then windowed and recorded (R595 to R601). -/
theorem State.takeEvent_plain {detail : List Word} (hsrc : src ≠ 0x74) (hwindow : (s.bump (R.FLT_COUNT 0)).fltWindowed src = false) :
    s.takeEvent ⟨src, inst, detail, []⟩ = (s.bump (R.FLT_COUNT 0)).logEvent src inst 0 detail := by
  unfold State.takeEvent
  simp only [if_neg hsrc, hwindow, Bool.false_eq_true, if_false, List.foldl_nil]

theorem State.takeEvent_counted {detail : List Word} {u : State} (hsrc : src ≠ 0x74) (hwindow : (s.bump (R.FLT_COUNT 0)).fltWindowed src = true)
    (hevent : (s.bump (R.FLT_COUNT 0)).windowEvent src inst = (false, false, u)) :
    s.takeEvent ⟨src, inst, detail, []⟩ = u.logEvent src inst 0 detail := by
  unfold State.takeEvent
  simp only [if_neg hsrc, hwindow, if_true, hevent, List.foldl_nil, Bool.not_false, Bool.false_and]
  rfl

theorem State.takeEvent_promoted {detail : List Word} {u : State} (hsrc : src ≠ 0x74) (hwindow : (s.bump (R.FLT_COUNT 0)).fltWindowed src = true)
    (hevent : (s.bump (R.FLT_COUNT 0)).windowEvent src inst = (true, false, u)) (hreport : fltReported src = false) :
    s.takeEvent ⟨src, inst, detail, []⟩ =
      ((u.logEvent src inst 8 detail).journal 0x07 src inst (detail.getD 0 0) 0).startOutcome src inst := by
  unfold State.takeEvent
  simp only [if_neg hsrc, hwindow, if_true, hevent, hreport, List.foldl_nil, Bool.not_true, Bool.and_false, Bool.false_eq_true, if_false]
  rfl

theorem exec_faultEvent {cls : Nat} {detail : List Word} (hcls : fltClass src = some cls) (hinst : inst < 65536) (hdev : s.sys.dev ≠ .off)
    (hwaiting : s.flt.waiting = []) (hpair : s.mbx.pairsInReset.contains 3 = false) :
    exec (.faultEvent src inst detail) s = .next (s.takeEvent ⟨src, inst, detail, []⟩) := by
  have hgo : ¬((fltClass src).isNone = true ∨ 65536 ≤ inst ∨ s.sys.dev = .off) := by
    rw [hcls, Option.isNone_some]
    rintro (h | h | h)
    · exact Bool.false_ne_true h
    · omega
    · exact hdev h
  refine (State.duty_runs hpair).trans ((if_neg hgo).trans ?_)
  rw [hwaiting, List.find?_nil]

end

/-- Settles O47: an event, the expiry of a quiet key, the end of an outcome, and the FLT commands (R595 to R617). -/
theorem faultWindows : Obligations.FaultWindows := by
  unfold Obligations.FaultWindows
  refine ⟨?event, ?expiry, ?ended, ?commands⟩
  case event =>
    intro s src inst cls detail hcls hkeep hinst hdev hwaiting hpair v
    have hevent := exec_faultEvent (detail := detail) hcls hinst hdev hwaiting hpair
    refine ⟨fun hw => hevent.trans (congrArg Host.Outcome.next (State.takeEvent_plain hkeep hw)), ?_⟩
    intro i x hw hslot hx hlasting
    obtain ⟨hcount, hpromote⟩ := State.windowEvent_held hslot hx hlasting
    refine ⟨fun ha hb => ?_, fun hpast hreport => ?_⟩
    · exact hevent.trans (congrArg Host.Outcome.next (State.takeEvent_counted hkeep hw (hcount ha hb)))
    · have hu := hpromote hpast hreport
      rw [hcls, Option.getD_some] at hu
      exact hevent.trans (congrArg Host.Outcome.next (State.takeEvent_promoted hkeep hw hu hreport))
  case expiry =>
    intro s i x hslot hpair
    refine ⟨fun h => ?_, fun h => ?_⟩ <;> refine (State.duty_runs hpair).trans ?_ <;> rw [hslot] <;> dsimp only
    · exact if_neg (by rw [h]; exact Bool.false_ne_true)
    · exact if_pos h
  case ended =>
    intro s e rest hended hmarked hpair v
    refine ⟨fun h => ?_, fun i h hslot => ?_⟩ <;> refine (State.duty_runs hpair).trans ?_ <;> rw [hended] <;>
      simp only [hmarked, h, Bool.false_eq_true, if_false, if_true]
    · refine congrArg Host.Outcome.next ?_
      split <;> rfl
    · rw [show b2n false * 4 + 1 = 1 from rfl]
      rw [show ({ s with flt := { s.flt with ended := rest } } : State) = v from rfl, hslot]
  case commands =>
    intro s mb
    dsimp only
    refine ⟨?status, ?events, ?window, ?slots, ?counters⟩
    case status => exact fun h => congrArg Host.Outcome.next (runCommand_ans h rfl rfl)
    case events =>
      exact fun h hseq => congrArg Host.Outcome.next (runCommand_ans h (badIf_eq_none.mpr (decide_eq_false (by omega))) rfl)
    case window =>
      intro h hsrc
      have hfields : badIf (fltClass ((s.msg mb).n 2 7 0)).isNone = none :=
        badIf_eq_none.mpr (by rw [Option.isNone_eq_false_iff, Option.isSome_iff_ne_none]; exact hsrc)
      refine ⟨fun hw => ?_, fun hw => ?_⟩
      · exact congrArg Host.Outcome.next (runCommand_ans h hfields (if_pos (by rw [hw]; rfl)))
      · exact congrArg Host.Outcome.next (runCommand_ans h hfields (if_neg (by rw [hw]; decide)))
    case slots =>
      intro h hlo hhi hroom
      exact congrArg Host.Outcome.next (runCommand_ans h (badIf_eq_none.mpr (decide_eq_false (by omega))) rfl)
    case counters =>
      intro h
      refine congrArg Host.Outcome.next (runCommand_ans h rfl ?_)
      simp only [State.counters_map]

end Sys2Proof.Machine
end

section
/-! The swatch controller: its events (O48) and the SWT commands (O49). -/

namespace Sys2Proof.Machine

section
variable {s : State}

/-- Only a sheet is left as at DORMANT exit after its swatch (R624). -/
theorem State.swtRestore_other {r : SwRun} (h : r.req.kind ≠ 2) : s.swtRestore r = s := if_neg h

/-- A failing block row takes a spare row while fewer than two are used (R625). -/
theorem State.swtFail_block {target at_ bit : Nat} {keys : List (Nat × Nat)} :
    s.swtFail 4 target at_ bit keys =
      if s.sparesUsed (fun r => decide (r.kind = 4 ∧ r.target = target)) < 2 then
        s.remapStart ⟨4, target, bitsOf at_ 24 16, s.sparesUsed (fun r => decide (r.kind = 4 ∧ r.target = target))⟩ at_ bit keys
      else s.noSpareLeft 4 target at_ keys := rfl

theorem State.noSpareLeft_repair {kind target at_ : Nat} {keys : List (Nat × Nat)} : (s.noSpareLeft kind target at_ keys).1 ≠ 1 := by
  unfold State.noSpareLeft
  dsimp only
  split
  · exact (by decide : 3 ≠ 1)
  · exact (by decide : 2 ≠ 1)

/-- The state in which a swatch's step is judged: a LINK swatch has ended its test (R509). -/
def State.linkTested (v : State) (o : StepSeen) (r : SwRun) : State :=
  match r.req.kind, v.grt.test with
  | 6, some t => if t.swatch then v.testFinish t o.found.isNone else v
  | _, _ => v

theorem State.linkTested_other {v : State} {o : StepSeen} {r : SwRun} (h : r.req.kind ≠ 6) : v.linkTested o r = v := by
  unfold State.linkTested
  split
  · exact absurd ‹_› h
  · rfl

/-- How a swatch's step ends (R623, R625), judged in state `v`. -/
def State.swatchStep (v : State) (o : StepSeen) (r : SwRun) : Out :=
  if o.notRun then .next (((v.swtEnd r 3 0 0 0 .DONE).swtRestore r).outcomePart r.req.keys)
  else match o.found with
    | some f =>
      let p := v.swtFail r.req.kind r.req.target f.1 f.2 r.req.keys
      let u := (p.2.swtEnd r 1 p.1 f.1 f.2 (if p.1 = 1 then .DONE else .NO_SPARE)).swtRestore r
      .next (if p.1 = 1 then u.outcomePart r.req.keys else u)
    | none =>
      if (if r.req.kind = 1 then decide (5 ≤ r.step) else o.next.isNone) then
        .next (((v.swtEnd r 0 0 0 0 .DONE).swtRestore r).outcomePart r.req.keys)
      else if r.left - o.ns < v.stepBound r.req.kind r.req.target (r.step + 1) (o.next.getD 0) then
        .next (v.swtPause { r with step := r.step + 1, left := r.left - o.ns })
      else .next { v with swt := { v.swt with running := some { r with step := r.step + 1, left := r.left - o.ns } } }

theorem exec_swatchStepComplete {o : StepSeen} {r : SwRun} (hrun : s.swt.running = some r) (hkind : r.req.kind ≠ 6) :
    exec (.swatchStepComplete o) s = (s.reach (s.stamp + o.ns)).swatchStep o r := by
  have hgo : ¬(r.req.kind = 6 ∧ (!s.grt.changes.isEmpty) = true) := fun h => hkind h.1
  have hjudged : exec (.swatchStepComplete o) s = ((s.reach (s.stamp + o.ns)).linkTested o r).swatchStep o r := by
    show execSwatchStepComplete o s = _
    unfold execSwatchStepComplete
    rw [hrun]
    exact if_neg hgo
  rw [hjudged, State.linkTested_other hkind]

/-- The controller is free and works: the first request in order is taken from the queue and runs (R624). -/
theorem exec_swatchStart {bound : Nat} {q : SwReq} (hrun : s.swt.running = none) (hworks : s.swtWorks = true) (hnext : s.swtNext = some q)
    (hpair : s.mbx.pairsInReset.contains 3 = false) :
    let r : SwRun := ⟨q, q.step, q.budget * 1000, s.stamp⟩
    let v : State := { s with swt := { s.swt with queue := s.swt.queue.erase q, running := some r } }
    exec (.swatchStart bound) s =
      if q.kind = 6 ∧ (v.detours (fun k => v.linkFailed k || decide (k = q.target)) q.target).2 then
        .next ((v.swtEnd r 3 0 0 0 .DONE).outcomePart q.keys)
      else if q.budget * 1000 < v.stepBound q.kind q.target q.step bound then .next (v.swtPause r)
      else if q.kind = 6 then .next (v.testStart ⟨q.target, none, false, true, []⟩)
      else .next v := by
  intro r v
  have hgo : ¬(s.swt.running.isSome = true ∨ (!s.swtWorks) = true) := by rw [hrun, hworks]; decide
  refine (State.duty_runs hpair).trans ((if_neg hgo).trans ?_)
  rw [hnext]

/-- Rotation is enabled and idle: the wale's next step starts at its rotation instant (R620, R621). -/
theorem exec_rotationStep_rotates {w : Nat} (hdev : s.sys.dev = .charted ∨ s.sys.dev = .onAir) (hretire : s.swt.retire = [])
    (hpair : s.mbx.pairsInReset.contains 3 = false) (hqueue : s.swt.queue.any (fun q => q.cls == .rotation) = false)
    (hrun : ∀ r, s.swt.running = some r → r.req.cls ≠ .rotation) (hen : s.flag R.SWT_ROT F.SWT_ROT_EN = true)
    (hwale : s.rotWale = some w) (hshift : (s.wale w).shift = none) :
    let v := s.reach (s.rotInstant (max s.stamp (s.swt.rotLast + s.swt.rotMs * 1000000)))
    let pos := v.get (R.WAL_SHIFT w) F.WAL_SHIFT_SHIFT_AT
    let u : State := { v with swt := { v.swt with rotating := some w, rotLast := v.stamp } }
    exec .rotationStep s = .next ((u.put R.SWT_ROT F.SWT_ROT_WALE w).startShift w (if pos = 16 then 0 else pos + 1) none true) := by
  intro v pos u
  have hgo : ¬(s.sys.dev ≠ .charted ∧ s.sys.dev ≠ .onAir) := by tauto
  refine (State.duty_runs hpair).trans ((if_neg hgo).trans ?_)
  rw [hretire, hwale, hqueue, hen]
  dsimp only
  refine (if_neg ?_).trans (if_neg (by rw [hshift]; decide))
  rcases hr : s.swt.running with _ | r
  · decide
  · have hcls := hrun r hr
    simpa using hcls

/-- A retirement is due and the wale is free: the tile is shifted out, or no spare is left (R625, R627). -/
theorem exec_rotationStep_retires {x : Retire} {rest : List Retire} (hdev : s.sys.dev = .charted ∨ s.sys.dev = .onAir)
    (hretire : s.swt.retire = x :: rest) (hshift : (s.wale x.wale).shift = none) (hfree : s.swt.retiring = none)
    (hpair : s.mbx.pairsInReset.contains 3 = false) :
    let v : State := { s with swt := { s.swt with retire := rest } }
    let u := (v.reach (v.rotInstant v.stamp)).rotationOver x.wale
    exec .rotationStep s = if !v.canRotate x.wale then .next (v.noSpareLeft 1 (v.tileTarget (16 * x.wale + x.pos)) 0 x.keys).2
      else .next (({ u with swt := { u.swt with retiring := some x } } : State).startShift x.wale
        (v.tileTarget (16 * x.wale + x.pos) % 32) none true) := by
  intro v u
  have hgo : ¬(s.sys.dev ≠ .charted ∧ s.sys.dev ≠ .onAir) := by tauto
  refine (State.duty_runs hpair).trans ((if_neg hgo).trans ?_)
  rw [hretire]
  exact if_neg (by rw [hshift, hfree]; decide)

end

/-- Settles O48: how swatches start, step, end, repair, retire and rotate (R620 to R627). -/
theorem swatches : Obligations.Swatches := by
  unfold Obligations.Swatches
  refine ⟨?start, ?step, ?copied, ?rotate, ?retire⟩
  case start =>
    intro s bound q hrun hworks hnext hpair r v cut
    have h := exec_swatchStart (bound := bound) hrun hworks hnext hpair
    refine ⟨fun hkind hcut => h.trans (if_pos ⟨hkind, hcut⟩), fun hgo => ?_⟩
    have hgo' : ¬(q.kind = 6 ∧ cut = true) := by
      rintro ⟨hkind, hcut⟩
      rcases hgo with hgo | hgo
      · exact hgo hkind
      · exact Bool.false_ne_true (hgo.symm.trans hcut)
    refine ⟨fun hlong => h.trans ((if_neg hgo').trans (if_pos hlong)), fun hfits => ?_⟩
    refine h.trans ((if_neg hgo').trans ((if_neg (Nat.not_lt.mpr hfits)).trans ?_))
    exact (apply_ite Host.Outcome.next _ _ _).symm
  case step =>
    intro s o r hrun hkind v q
    have h := exec_swatchStepComplete (o := o) hrun hkind
    refine ⟨fun hnot => h.trans (if_pos hnot), fun hnot hfound hlast => ?_, fun hnot hfound htile hstep hfits => ?_, ?fails⟩
    · refine h.trans ((if_neg (by rw [hnot]; exact Bool.false_ne_true)).trans ?_)
      rw [hfound]
      refine if_pos ?_
      split at hlast
      · rw [if_pos ‹_›]; exact decide_eq_true hlast
      · rw [if_neg ‹_›, hlast]; rfl
    · refine h.trans ((if_neg (by rw [hnot]; exact Bool.false_ne_true)).trans ?_)
      rw [hfound]
      refine (if_neg ?_).trans (if_neg ?_)
      · rw [if_pos htile, decide_eq_false (by omega)]; exact Bool.false_ne_true
      · rw [htile]; exact Nat.not_lt.mpr hfits
    case fails =>
      intro at_ bit hnot hfound hblock used m u
      have hfail : exec (.swatchStepComplete o) s = _ := h.trans ((if_neg (by rw [hnot]; exact Bool.false_ne_true)).trans (by rw [hfound]))
      have hrestore : ∀ w : State, w.swtRestore r = w := fun w => State.swtRestore_other (by rw [hblock]; decide)
      dsimp only at hfail
      rw [hblock, State.swtFail_block, hrestore] at hfail
      refine ⟨fun hspare => ?_, fun hnone => ?_⟩
      · rw [if_pos hspare] at hfail
        exact hfail
      · rw [if_neg (Nat.not_lt.mpr hnone), if_neg State.noSpareLeft_repair, if_neg State.noSpareLeft_repair] at hfail
        exact hfail
  case copied =>
    intro s m rest hremaps hkind v
    show execSpareRowRemap s = _
    unfold execSpareRowRemap
    rw [hremaps]
    dsimp only
    rw [if_neg hkind]
  case rotate =>
    intro s w hdev hretire hpair hqueue hrun hen hwale hshift
    exact exec_rotationStep_rotates hdev hretire hpair hqueue hrun hen hwale hshift
  case retire =>
    intro s x rest hdev hretire hshift hfree hpair v target
    have h := exec_rotationStep_retires hdev hretire hshift hfree hpair
    exact ⟨fun hno => h.trans (if_pos (by rw [hno]; rfl)), fun hyes => h.trans (if_neg (by rw [hyes]; decide))⟩

/-- Settles O49: each SWT command is served as its section of R631 to R637 says, and fusing ends as R626 says. -/
theorem swatchCommands : Obligations.SwatchCommands := by
  unfold Obligations.SwatchCommands
  refine ⟨?commands, ?fused⟩
  case commands =>
    intro s mb
    dsimp only
    refine ⟨?status, ?run, ?results, ?rotate, ?fuse, ?unmark, ?counters⟩
    case status => exact fun h => congrArg Host.Outcome.next (runCommand_ans h rfl rfl)
    case run =>
      intro h htarget hbudget
      have hfields : badIf (!targetOk ((s.msg mb).n 2 31 28) ((s.msg mb).n 2 15 0) || decide (20000 < (s.msg mb).n 3 14 0)) = none :=
        badIf_eq_none.mpr (by rw [htarget, decide_eq_false (by omega)]; rfl)
      refine ⟨fun hcond => ?_, fun hcond hroom => ?_⟩
      · exact congrArg Host.Outcome.next (runCommand_ans h hfields (if_pos (by rw [hcond]; rfl)))
      · exact congrArg Host.Outcome.next (runCommand_acc h hfields
          ((if_neg (by rw [hcond]; decide)).trans (if_neg (fun hfull => absurd hfull.1 (Nat.not_le.mpr hroom)))))
    case results =>
      exact fun h hn => congrArg Host.Outcome.next (runCommand_ans h (badIf_eq_none.mpr (decide_eq_false (by omega))) rfl)
    case rotate =>
      exact fun h hofs => congrArg Host.Outcome.next (runCommand_ans h (badIf_eq_none.mpr (decide_eq_false (by omega))) rfl)
    case fuse =>
      intro h hkey
      have hfields : badIf (decide ((s.msg mb).n 2 15 0 ≠ 0xF05E)) = none := badIf_eq_none.mpr (decide_eq_false (by omega))
      refine ⟨fun hvpp => ?_, fun hvpp hopen hroom => ?_, fun hvpp hopen hroom => ?_⟩
      · exact congrArg Host.Outcome.next (runCommand_ans h hfields (if_pos (by rw [hvpp]; rfl)))
      · exact congrArg Host.Outcome.next (runCommand_acc h hfields ((if_neg (by rw [hvpp]; decide)).trans
          ((if_neg (by rw [hopen]; decide)).trans (if_neg (by omega)))))
      · exact congrArg Host.Outcome.next (runCommand_ans h hfields ((if_neg (by rw [hvpp]; decide)).trans
          ((if_neg (by rw [hopen]; decide)).trans (if_pos hroom))))
    case unmark =>
      exact fun h hkey => congrArg Host.Outcome.next (runCommand_ans h (badIf_eq_none.mpr (decide_eq_false (by omega))) rfl)
    case counters =>
      intro h
      refine congrArg Host.Outcome.next (runCommand_ans h rfl ?_)
      simp only [State.counters_map]
  case fused =>
    intro s id hopen n v
    show execSwtFuseComplete s = _
    unfold execSwtFuseComplete
    rw [hopen]

end Sys2Proof.Machine
end

section
/-! The thermal island's rows and THM commands (O50), the gazetteer's rows and GAZ commands (O51). -/

namespace Sys2Proof.Machine

/-! ### Isotherm bands -/

/-- As many band edges less `d` lie at or under a temperature as the first of them that does not has before it. -/
theorem lt_edgesUnder_iff (d t : Int) : ∀ k < 5, k + 1 ≤ (bandEdges.filter (fun e => decide (e - d ≤ t))).length ↔ bandEdges.getD k 0 - d ≤ t := by
  have hlen : (bandEdges.filter (fun e => decide (e - d ≤ t))).length =
      (if 0 - d ≤ t then 1 else 0) + (if 240 - d ≤ t then 1 else 0) + (if 340 - d ≤ t then 1 else 0) +
      (if 400 - d ≤ t then 1 else 0) + (if 440 - d ≤ t then 1 else 0) := by
    simp only [← List.countP_eq_length_filter, bandEdges, List.countP_cons, List.countP_nil, decide_eq_true_iff]
    omega
  intro k hk
  rw [hlen]
  interval_cases k <;> simp only [bandEdges, List.getD_cons_zero, List.getD_cons_succ] <;> split_ifs <;> omega

/-- A sensor rises at an edge and falls only 2 °C under it (R643). -/
theorem nextBand_up {b k : Nat} {t : Int} (hk : k < 5) (hedge : bandEdges.getD k 0 ≤ t) : k + 1 ≤ nextBand b t := by
  have hup := (lt_edgesUnder_iff 0 t k hk).mpr (by omega)
  have hdown := (lt_edgesUnder_iff 8 t k hk).mpr (by omega)
  simp only [sub_zero] at hup
  unfold nextBand
  dsimp only
  split <;> omega

theorem nextBand_stays {b k : Nat} {t : Int} (hb : b ≤ 5) (hk : k < b) (hedge : bandEdges.getD k 0 - 8 ≤ t) : k + 1 ≤ nextBand b t := by
  have hdown := (lt_edgesUnder_iff 8 t k (by omega)).mpr hedge
  unfold nextBand
  dsimp only
  split <;> omega

theorem nextBand_down {b k : Nat} {t : Int} (hk5 : k < 5) (hedge : t < bandEdges.getD k 0 - 8) : nextBand b t ≤ k := by
  have hup := (lt_edgesUnder_iff 0 t k hk5).not.mpr (by omega)
  have hdown := (lt_edgesUnder_iff 8 t k hk5).not.mpr (by omega)
  simp only [sub_zero] at hup
  unfold nextBand
  dsimp only
  split <;> omega

/-! ### Caps and restart -/

section
variable {s : State} {c : Nat}

theorem exec_capStepDown (hc : c < 2) (hdev : s.sys.dev ≠ .off) (hpair : s.mbx.pairsInReset.contains 3 = false)
    (hhot : (s.capRun c).hot = true) (hcap : s.cap c ≠ 0) :
    let v := match (s.capRun c).down with | some t => s.reach (t + 100000000) | none => s
    exec (.capStepDown c) s = .next ((v.setCapRun c { s.capRun c with down := some v.stamp }).capStep c (v.cap c - 1)) := by
  have hgo : ¬(2 ≤ c ∨ s.sys.dev = .off ∨ (s.capRun c).hot = false ∨ s.cap c = 0) := by
    rintro (h | h | h | h)
    · omega
    · exact hdev h
    · exact Bool.false_ne_true (h.symm.trans hhot)
    · exact hcap h
  exact (State.duty_runs hpair).trans (if_neg hgo)

theorem exec_capStepUp {t : Nat} (hc : c < 2) (hdev : s.sys.dev ≠ .off) (hpair : s.mbx.pairsInReset.contains 3 = false)
    (hcool : (s.capRun c).cool = some t) (hfloor : s.capFloored c = false) (hcap : s.cap c ≠ 3) :
    let v := s.reach (t + 1000000000)
    exec (.capStepUp c) s = .next ((v.setCapRun c { s.capRun c with cool := some v.stamp }).capStep c (v.cap c + 1)) := by
  have hgo : ¬(2 ≤ c ∨ s.sys.dev = .off ∨ s.capFloored c = true ∨ s.cap c = 3) := by
    rintro (h | h | h | h)
    · omega
    · exact hdev h
    · exact Bool.false_ne_true (hfloor.symm.trans h)
    · exact hcap h
  refine (State.duty_runs hpair).trans ?_
  dsimp only
  rw [hcool]
  exact if_neg hgo

end

/-- Settles O50: readings, bands, caps, restart and the THM commands (R638 to R650). -/
theorem thermalControl : Obligations.ThermalControl := by
  unfold Obligations.ThermalControl
  refine ⟨?reading, ?bands, ?caps, ?restart, ?commands⟩
  case reading => exact fun s base xs hdev => if_neg hdev
  case bands => exact fun b k t => ⟨nextBand_up, nextBand_stays, fun _ => nextBand_down⟩
  case caps =>
    intro s c hc hdev hpair
    exact ⟨exec_capStepDown hc hdev hpair, fun t hcool hfloor hcap => exec_capStepUp hc hdev hpair hcool hfloor hcap⟩
  case restart =>
    intro s t hsince hdev hheld v
    have hgo : ¬(s.sys.dev ≠ .tripped ∨ s.thm.held = true) := by
      rintro (h | h)
      · exact h hdev
      · exact Bool.false_ne_true (hheld.symm.trans h)
    have hrow : exec .tripRestart s =
        if (List.range 5).any v.tierLost then .next { v with thm := { v.thm with held := true } } else .next (v.enterBoot true) := by
      show execTripRestart s = _
      unfold execTripRestart
      rw [hsince]
      exact if_neg hgo
    exact ⟨fun h => hrow.trans (if_neg (by rw [h]; exact Bool.false_ne_true)), fun h => hrow.trans (if_pos h)⟩
  case commands =>
    intro s mb
    dsimp only
    refine ⟨?status, ?sensors, ?throttle, ?counters⟩
    case status => exact fun h => congrArg Host.Outcome.next (runCommand_ans h rfl rfl)
    case sensors =>
      exact fun h hlo hhi hroom => congrArg Host.Outcome.next (runCommand_ans h (badIf_eq_none.mpr (decide_eq_false (by omega))) rfl)
    case throttle =>
      exact fun h hlo hhi => congrArg Host.Outcome.next (runCommand_ans h (badIf_eq_none.mpr (decide_eq_false (by omega))) rfl)
    case counters =>
      intro h
      refine congrArg Host.Outcome.next (runCommand_ans h rfl ?_)
      simp only [State.counters_map]

/-- Settles O51: interval samples, image writes, exports and the GAZ commands (R652 to R663). -/
theorem gazetteerRecords : Obligations.GazetteerRecords := by
  unfold Obligations.GazetteerRecords
  refine ⟨?due, ?complete, ?exported, ?commands⟩
  case due =>
    intro s ser hoff hboot hpair
    exact (State.duty_runs hpair).trans (if_neg (fun h => h.elim hoff hboot))
  case complete =>
    intro s w hwriting hdue
    refine ⟨fun hb => ?_, fun hb => ?_⟩ <;> show execGazImageWriteComplete s = _ <;> unfold execGazImageWriteComplete <;> rw [hwriting] <;>
      dsimp only <;> rw [hb]
    · exact congrArg Host.Outcome.next (if_neg (ne_true_of_eq_false hdue))
    · exact congrArg Host.Outcome.next (if_neg (ne_true_of_eq_false hdue))
  case exported =>
    intro s x rest hexporting v
    show execGazExportComplete s = _
    unfold execGazExportComplete
    rw [hexporting]
  case commands =>
    intro s mb
    dsimp only
    refine ⟨?read, ?exporting, ?flush⟩
    case read =>
      intro h
      refine ⟨fun hk hlo hhi hroom => ?_, fun hk hhi => ?_, fun hk hlo hhi hroom => ?_, fun hk => ?_⟩ <;>
        refine congrArg Host.Outcome.next (runCommand_ans h (badIf_eq_none.mpr ?_) (by rw [hk]; rfl)) <;> rw [hk]
      · exact decide_eq_false (by omega)
      · exact decide_eq_false (by omega)
      · exact decide_eq_false (by omega)
      · rfl
    case exporting =>
      exact fun h haligned => congrArg Host.Outcome.next (runCommand_acc h (badIf_eq_none.mpr (decide_eq_false (by omega))) rfl)
    case flush =>
      refine fun h => ⟨fun hfree => ?_, fun w hbusy => ?_⟩
      · exact congrArg Host.Outcome.next (runCommand_acc h rfl (if_neg (by rw [hfree]; decide)))
      · exact congrArg Host.Outcome.next (runCommand_ans h rfl (if_pos (by rw [hbusy]; rfl)))

end Sys2Proof.Machine
end

section
/-! The datum island: what it measures (O52), its calibration port (O53), what it reports and the DAT commands (O54). -/

namespace Sys2Proof.Machine

/-! ### Measurement -/

theorem fullScale_bounds (x : Int) : -8388607 ≤ (fullScale x).1 ∧ (fullScale x).1 ≤ 8388607 := by
  unfold fullScale
  dsimp only
  omega

theorem fullScale_inside {x : Int} (hlo : -8388607 < x) (hhi : x < 8388607) : fullScale x = (x, false) := by
  unfold fullScale
  refine Prod.ext ?_ (decide_eq_false ?_)
  · dsimp only
    omega
  · omega

theorem Dat.event_acc (d : Dat) (kind ch data : Nat) : (d.event kind ch data).acc = d.acc := by
  unfold Dat.event; dsimp only
theorem Dat.event_residue (d : Dat) (kind ch data : Nat) : (d.event kind ch data).residue = d.residue := by
  unfold Dat.event; dsimp only
theorem Dat.event_slots (d : Dat) (kind ch data : Nat) : (d.event kind ch data).slots = d.slots := by
  unfold Dat.event; dsimp only
theorem Dat.event_seconds (d : Dat) (kind ch data : Nat) : (d.event kind ch data).seconds = d.seconds := by
  unfold Dat.event; dsimp only
theorem Dat.event_eseq (d : Dat) (kind ch data : Nat) : (d.event kind ch data).eseq = d.eseq + 1 := by
  unfold Dat.event; dsimp only

theorem Dat.addEnergy_acc (d : Dat) (c dir e : Nat) :
    (d.addEnergy c dir e).acc = sset (fun _ => 0) d.acc (2 * c + dir)
      (sget (fun _ => 0) d.acc (2 * c + dir) + (sget (fun _ => 0) d.residue (2 * c + dir) + e) / 2 ^ 83) := by
  unfold Dat.addEnergy
  exact (apply_ite Dat.acc _ _ _).trans (ite_self _)

theorem Dat.addEnergy_residue (d : Dat) (c dir e : Nat) :
    (d.addEnergy c dir e).residue = sset (fun _ => 0) d.residue (2 * c + dir) ((sget (fun _ => 0) d.residue (2 * c + dir) + e) % 2 ^ 83) := by
  unfold Dat.addEnergy
  exact (apply_ite Dat.residue _ _ _).trans (ite_self _)

/-- What is kept of `d` without VDD_DATUM, the calibration pin as `old` has it (R669). -/
def Dat.unpowered (d old : Dat) : Dat :=
  { Dat.init with
    calEn := old.calEn, residue := d.residue, acc := d.acc, slots := d.slots, log := d.log, eseq := d.eseq, seconds := d.seconds,
    waiting := d.waiting, pulses := d.pulses, rec_ := d.rec_, recSide := d.recSide, events := d.events, shares := d.shares,
    lastAcc := d.lastAcc }

theorem exec_datumPowerDown {s : State} (hpower : s.dat.powered = true) (hsealing : s.dat.sealing = none) :
    exec .datumPowerDown s = .next (s.setDat ((s.dat.event 0x02 0xFF 0).unpowered s.dat)) := by
  refine (if_pos hpower).trans ?_
  rw [hsealing]
  rfl

/-- 2 ms have passed since the last pulse (R674). -/
def Dat.pulseSpaced (d : Dat) : Bool :=
  match d.pulseAt with
  | some t => decide (t + 16 ≤ d.seconds * 8000 + d.inSecond)
  | none => true

theorem Dat.pulseSpaced_none {d : Dat} (h : d.pulseAt = none) : d.pulseSpaced = true := by
  unfold Dat.pulseSpaced
  rw [h]

theorem Dat.pulseSpaced_some {d : Dat} {t : Nat} (h : d.pulseAt = some t) :
    d.pulseSpaced = decide (t + 16 ≤ d.seconds * 8000 + d.inSecond) := by
  unfold Dat.pulseSpaced
  rw [h]

section
variable {s : State}

theorem exec_datumSample {v i : List Int} {d : Dat} (hpower : s.dat.powered = true)
    (hd : (List.range 4).foldl (fun (d : Dat) c => d.sample c (v.getD c 0) (i.getD c 0)) { s.dat with active := activeSlot s.dat.slots } = d) :
    exec (.datumSample v i) s = .next (s.setDat (if 8000 ≤ d.inSecond + 1 then
      { d with inSecond := 0, seconds := d.seconds + 1, means := d.sums, sums := [], overLast := d.overs, overs := [], recDue := true }
      else { d with inSecond := d.inSecond + 1 })) := by
  subst hd
  exact if_pos hpower

/-- The crystal's departure from the RC oscillator as the check judges it (R668). -/
theorem exec_datumCrystalCheck {off : Option Int} {bad : Bool} (hpower : s.dat.powered = true)
    (hbad : (match off with | some x => decide (20000 < x.natAbs) | none => true) = bad) :
    exec (.datumCrystalCheck off) s =
      if bad then
        .next (s.setDat (if s.dat.onRc then { s.dat with goodSecs := 0 } else { s.dat with onRc := true, goodSecs := 0 }.event 0x08 0xFF 0))
      else if s.dat.onRc then
        .next (s.setDat (if 10 ≤ s.dat.goodSecs + 1 then { s.dat with onRc := false, goodSecs := 0 }.event 0x09 0xFF 0
          else { s.dat with goodSecs := s.dat.goodSecs + 1 }))
      else .next s := by
  subst hbad
  exact if_neg (by rw [hpower]; decide)

/-- A pulse that is due goes out once 16 samples have passed since the last one (R674). -/
theorem exec_datumPulse {spaced : Bool} (hpower : s.dat.powered = true) (hdue : 0 < s.dat.pulsesDue) (hspaced : s.dat.pulseSpaced = spaced) :
    exec .datumPulse s =
      if spaced then
        .next (s.setDat { s.dat with
          pulsesDue := s.dat.pulsesDue - 1, pulses := s.dat.pulses + 1, pulseAt := some (s.dat.seconds * 8000 + s.dat.inSecond) })
      else .next s := by
  have hcond : (s.dat.powered && decide (0 < s.dat.pulsesDue) && s.dat.pulseSpaced) = spaced := by
    rw [hpower, decide_eq_true hdue, hspaced, Bool.true_and, Bool.true_and]
  rw [← hcond]
  rfl

end

/-- Settles O52: sampling, energy, power, the crystal and ROM checks and the pulses (R665 to R669, R674). -/
theorem datumMeasures : Obligations.DatumMeasures := by
  unfold Obligations.DatumMeasures
  refine ⟨?sample, ?limit, ?energy, ?down, ?up, ?crystal, ?digest, ?pulse⟩
  case sample =>
    intro s v i hpower d
    have h := exec_datumSample (v := v) (i := i) (d := d) hpower rfl
    clear_value d
    exact ⟨fun hin => h.trans (congrArg (fun x => Host.Outcome.next (s.setDat x)) (if_neg (by omega))),
      fun hend => h.trans (congrArg (fun x => Host.Outcome.next (s.setDat x)) (if_pos (by omega)))⟩
  case limit => exact fun x => ⟨(fullScale_bounds x).1, (fullScale_bounds x).2, fullScale_inside⟩
  case energy =>
    intro d c dir e _ _ hacc hresidue k r t
    refine ⟨?_, ?_, fun j hj => ⟨?_, ?_⟩⟩
    · rw [Dat.addEnergy_acc]; exact sget_sset_same _ _ _ hacc
    · rw [Dat.addEnergy_residue]; exact sget_sset_same _ _ _ hresidue
    · rw [Dat.addEnergy_acc]; exact sget_sset_other _ _ _ hj
    · rw [Dat.addEnergy_residue]; exact sget_sset_other _ _ _ hj
  case down =>
    intro s hpower hsealing
    have hdown := exec_datumPowerDown hpower hsealing
    have hacc := Dat.event_acc s.dat 0x02 0xFF 0
    have hresidue := Dat.event_residue s.dat 0x02 0xFF 0
    have hslots := Dat.event_slots s.dat 0x02 0xFF 0
    have hseconds := Dat.event_seconds s.dat 0x02 0xFF 0
    have heseq := Dat.event_eseq s.dat 0x02 0xFF 0
    generalize s.dat.event 0x02 0xFF 0 = d at *
    exact ⟨d.unpowered s.dat, hdown, rfl, hacc, hresidue, hslots, hseconds, heseq, rfl, rfl⟩
  case up => exact fun s hpower => if_neg (by rw [hpower]; exact Bool.false_ne_true)
  case crystal =>
    intro s x hpower
    have hlive (p : Bool) (hp : decide (20000 < x.natAbs) = p) := exec_datumCrystalCheck (off := some x) hpower hp
    refine ⟨fun hx hrc => ?_, fun hx hrc hgood => ?_, fun hx hrc hgood => ?_, fun hrc => ?_⟩
    · rw [hlive true (decide_eq_true hx), hrc]; rfl
    · rw [hlive false (decide_eq_false (by omega)), hrc]
      exact congrArg (fun d => Host.Outcome.next (s.setDat d)) (if_pos (by omega))
    · rw [hlive false (decide_eq_false (by omega)), hrc]
      exact congrArg (fun d => Host.Outcome.next (s.setDat d)) (if_neg (by omega))
    · rw [exec_datumCrystalCheck (off := none) hpower rfl, hrc]; rfl
  case digest =>
    intro s w hpower
    have h : exec (.datumRomDigestCheck w) s = _ := if_neg (by rw [hpower]; decide)
    rw [h]
    by_cases hw : w = Config.datDigest
    · rw [if_pos hw, decide_eq_true hw]
    · rw [if_neg hw, decide_eq_false hw]
  case pulse =>
    intro s hpower hdue now
    refine ⟨fun hat => ?_, fun t hat hlate => ?_, fun t hat hearly => ?_⟩
    · exact (exec_datumPulse (spaced := true) hpower hdue (Dat.pulseSpaced_none hat)).trans (if_pos rfl)
    · exact (exec_datumPulse (spaced := true) hpower hdue ((Dat.pulseSpaced_some hat).trans (decide_eq_true hlate))).trans (if_pos rfl)
    · have hspaced := (Dat.pulseSpaced_some hat).trans (decide_eq_false (Nat.not_le.mpr hearly))
      exact (exec_datumPulse hpower hdue hspaced).trans (if_neg Bool.false_ne_true)

/-! ### Calibration -/

section
variable {s : State}

theorem Dat.listens_eq_true {d : Dat} (hpower : d.powered = true) (hen : d.calEn = true) : d.listens = true := by
  rw [Dat.listens, hpower, hen]; rfl

theorem Dat.listens_eq_false {d : Dat} (h : d.powered = false ∨ d.calEn = false) : d.listens = false := by
  rw [Dat.listens]
  rcases h with h | h
  · rw [h, Bool.false_and]
  · rw [h, Bool.and_false]

/-- The island hears no frame while DATUM_CAL_EN is low or it has no supply (R672). -/
theorem exec_frames_unheard (h : s.dat.listens = false) (operator : Word) (ch n type : Nat) (bs p : List Byte) :
    exec (.calOpen operator) s = .next s ∧ exec (.calMeasure ch n) s = .next s ∧ exec (.calStage bs) s = .next s ∧
    exec (.calSeal p) s = .next s ∧ exec .calClose s = .next s ∧ exec (.calBadFrame type) s = .next s := by
  have hdeaf : ¬ s.dat.listens = true := by rw [h]; exact Bool.false_ne_true
  have hnot : (!s.dat.listens) = true := by rw [h]; rfl
  exact ⟨if_neg hdeaf, if_pos hnot, if_pos hnot, if_pos hnot, if_pos hnot, if_neg hdeaf⟩

variable (h : s.dat.listens = true)
include h

theorem exec_calMeasure_open {ch n : Nat} (hopen : s.dat.session = true) (hch : ch ≤ 3) (hlo : 1 ≤ n) (hhi : n ≤ 2 ^ 24) :
    exec (.calMeasure ch n) s = .next (s.setDat { s.dat with measure := some ⟨ch, n, 0, 0, 0⟩ }) :=
  (if_neg (by rw [h]; decide)).trans ((if_neg (by rw [hopen]; decide)).trans (if_neg (by omega)))

theorem exec_calMeasureDone {m : CalMeasure} (hm : s.dat.measure = some m) (htaken : m.taken = m.n) :
    exec .calMeasureDone s = .next (s.setDat ({ s.dat with measure := none }.answer 0x02 0 (meanCode m.v m.n ++ meanCode m.i m.n))) := by
  show execCalMeasureDone s = _
  unfold execCalMeasureDone
  rw [hm]
  exact if_pos ⟨h, htaken⟩

theorem exec_calStage_open {bs : List Byte} (hopen : s.dat.session = true) (hlen : bs.length = 60) :
    exec (.calStage bs) s = .next (s.setDat ({ s.dat with staged := some bs }.answer 0x03 0)) :=
  (if_neg (by rw [h]; decide)).trans ((if_neg (by rw [hopen]; decide)).trans (if_neg (fun hne => hne hlen)))

theorem exec_calSeal_starts {b : List Byte} (hopen : s.dat.session = true) (hstaged : s.dat.staged = some b) (hfree : s.dat.slots.length < 4)
    (hsealing : s.dat.sealing = none) (hvpp : s.sys.rails.contains .vppFuse = true) :
    exec (.calSeal [0x5E, 0xA1]) s =
      .next (s.setDat ({ s.dat with staged := none, sealing := some (b ++ leBytes (crc32 b) 4) }.answer 0x04 0)) := by
  have hgo : ¬((!s.dat.session) = true ∨ 4 ≤ s.dat.slots.length ∨ s.dat.sealing.isSome = true ∨ (!s.sys.rails.contains .vppFuse) = true) := by
    rw [hopen, hsealing, hvpp]
    simp only [Bool.not_true, Bool.false_eq_true, Option.isSome_none, or_false, false_or]
    omega
  refine (if_neg (by rw [h]; decide)).trans ((if_neg (fun hne => hne rfl)).trans ?_)
  dsimp only
  rw [hstaged]
  exact if_neg hgo

theorem exec_calSeal_full (hfull : s.dat.slots.length = 4) : exec (.calSeal [0x5E, 0xA1]) s = .next (s.setDat (s.dat.answer 0x04 2)) := by
  refine (if_neg (by rw [h]; decide)).trans ((if_neg (fun hne => hne rfl)).trans ?_)
  rcases s.dat.staged with _ | b
  · rfl
  · exact if_pos (Or.inr (Or.inl hfull.ge))

theorem exec_calClose_open (hopen : s.dat.session = true) :
    exec .calClose s = .next (s.setDat (({ s.dat with session := false, staged := none, measure := none }.event 0x04 0xFF 0).answer 0x05 0)) := by
  have hclose : s.dat.close = { s.dat with session := false, staged := none, measure := none }.event 0x04 0xFF 0 := if_pos hopen
  rw [← hclose]
  exact (if_neg (by rw [h]; decide)).trans (if_neg (by rw [hopen]; decide))

end

/-- Settles O53: the calibration port's frames, sessions and seals (R672, R673). -/
theorem datumCalibration : Obligations.DatumCalibration := by
  unfold Obligations.DatumCalibration
  refine ⟨fun s => rfl, fun s => rfl, ?unheard, ?heard, ?programmed⟩
  case unheard =>
    intro s operator ch n type bs p hdeaf
    exact exec_frames_unheard (Dat.listens_eq_false hdeaf) operator ch n type bs p
  case heard =>
    intro s hpower hen
    have h := Dat.listens_eq_true hpower hen
    refine ⟨fun operator => if_pos h, fun type => if_pos h, fun ch n hshut => ?_, fun ch n => exec_calMeasure_open h,
      fun m => exec_calMeasureDone h, fun bs => exec_calStage_open h, fun b => exec_calSeal_starts h, fun p hp => ?_,
      exec_calSeal_full h, exec_calClose_open h, fun hshut => ?_⟩
    · exact (if_neg (by rw [h]; decide)).trans (if_pos (by rw [hshut]; rfl))
    · exact (if_neg (by rw [h]; decide)).trans (if_pos hp)
    · exact (if_neg (by rw [h]; decide)).trans (if_pos (by rw [hshut]; rfl))
  case programmed =>
    intro s b back hsealing n
    show execSealProgramComplete back s = _
    unfold execSealProgramComplete
    dsimp only
    rw [hsealing]
    have hdata : 16 * s.dat.slots.length + s.dat.slots.length + 1 = 17 * n + 1 := by omega
    dsimp only
    rw [hdata]

/-! ### Reports -/

section
variable {s : State}

theorem exec_datumEnergyRecord (hpower : s.dat.powered = true) (hdue : s.dat.recDue = true) (hdev : s.sys.dev ≠ .off) :
    let v := s.setDat { s.dat with recDue := false }
    exec .datumEnergyRecord s = if s.full 28 = true then .next v else .next (v.postInto 28
      ([0x17400014, 0, word s.dat.seconds] ++ (List.range 8).flatMap (fun k =>
        [loWord (sget (fun _ => 0) s.dat.acc k), hiWord (sget (fun _ => 0) s.dat.acc k)]) ++ [s.dat.status])) := by
  refine (if_pos ⟨hpower, hdue⟩).trans ?_
  refine if_congr ?_ rfl rfl
  exact or_iff_right hdev

theorem exec_datumEventPost {e : DatEvent} {rest : List DatEvent} (hpower : s.dat.powered = true) (hwaiting : s.dat.waiting = e :: rest)
    (hdev : s.sys.dev ≠ .off) :
    exec .datumEventPost s = if s.full 29 = true then .next s
      else .next ((s.setDat { s.dat with waiting := rest }).postInto 29 ([0x17410006, 0] ++ e.words)) := by
  show execDatumEventPost s = _
  unfold execDatumEventPost
  rw [hwaiting]
  refine if_congr ?_ rfl rfl
  rw [hpower]
  exact (or_iff_right (by decide)).trans (or_iff_right hdev)

theorem regPlace_DAT_ACC_LO : ∀ c < 4, ∀ d < 2, regPlace (R.DAT_ACC_LO c d) = some (R.DAT_ACC_LO 0 0, [c, d]) := by decide

theorem State.regRead_DAT_ACC_LO (m : Master) {c d : Nat} (hc : c < 4) (hd : d < 2) :
    (s.regRead m (R.DAT_ACC_LO c d)).2 = s.datLatch m c d := by
  obtain ⟨r, hat, hbase⟩ := regAt_of_regPlace (regPlace_DAT_ACC_LO c hc d hd)
  have haddr : ¬ R.DAT_ACC_LO c d < 0x2000 := by unfold R.DAT_ACC_LO; omega
  rw [State.regRead, if_neg haddr, hat]
  dsimp only
  rw [hbase]
  rfl

theorem reach_datAccLo : ∀ m, m = .ubtor ∨ m = .jtag → ∀ c < 4, ∀ d < 2, busReach m false (R.DAT_ACC_LO c d) = true := by
  rintro m (rfl | rfl) <;> decide

/-- A read of an accumulator's low half latches its high half for the reader (R679). -/
theorem exec_datAccLoRead {m : Master} {c d : Nat} (hm : m = .ubtor ∨ m = .jtag) (hc : c < 4) (hd : d < 2) (hdev : s.sys.dev ≠ .off)
    (hpower : s.dat.powered = true) (hwf : swf (fun _ => (0 : Word)) s.latch = true) :
    exec (.datAccLoRead m c d) s = .next (s.readBy m (R.DAT_ACC_LO c d)) ∧
    (s.readBy m (R.DAT_ACC_LO c d)).latched m (R.DAT_ACC_HI c d) = hiWord (sget (fun _ => 0) s.dat.acc (2 * c + d)) ∧
    (s.readBy m (R.DAT_ACC_LO c d)).regs = s.regs ∧ (s.readBy m (R.DAT_ACC_LO c d)).dat = s.dat := by
  have halign : R.DAT_ACC_LO c d % 4 = 0 := by unfold R.DAT_ACC_LO; omega
  have hreach := reach_datAccLo m hm c hc d hd
  have hread : (s.regRead m (R.DAT_ACC_LO c d)).2 = s.setLatch m (R.DAT_ACC_HI c d) (hiWord (sget (fun _ => 0) s.dat.acc (2 * c + d))) := by
    rw [State.regRead_DAT_ACC_LO m hc hd, State.datLatch, if_pos hpower]
    rfl
  obtain ⟨hlatch, hregs⟩ := readBy_latches hdev hwf halign hreach hread
  refine ⟨if_pos ⟨hc, hd⟩, hlatch, hregs, ?_⟩
  rw [State.readBy_of_reach hdev halign hreach, State.answered_dat, State.busOk_snd, hread]
  rfl

end

/-- Settles O54: energy records, events, the accumulators' latched halves and the DAT commands (R674 to R681). -/
theorem datumReports : Obligations.DatumReports := by
  unfold Obligations.DatumReports
  refine ⟨?record, ?event, ?latch, ?commands⟩
  case record =>
    intro s hpower hdue hdev v
    have h := exec_datumEnergyRecord hpower hdue hdev
    exact ⟨fun hfull => h.trans (if_pos hfull), fun hfree => h.trans (if_neg (by rw [hfree]; exact Bool.false_ne_true))⟩
  case event =>
    intro s e rest hpower hwaiting hdev
    have h := exec_datumEventPost hpower hwaiting hdev
    exact ⟨fun hfull => h.trans (if_pos hfull), fun hfree => h.trans (if_neg (by rw [hfree]; exact Bool.false_ne_true))⟩
  case latch =>
    intro s m c d hm hc hd hdev hpower hwf
    exact ⟨_, exec_datAccLoRead hm hc hd hdev hpower hwf⟩
  case commands =>
    intro s mb
    dsimp only
    refine ⟨?status, ?energy, ?log, ?split⟩
    case status => exact fun h => congrArg Host.Outcome.next (runCommand_ans h rfl rfl)
    case energy => exact fun h => congrArg Host.Outcome.next (runCommand_ans h rfl rfl)
    case log =>
      exact fun h hseq => congrArg Host.Outcome.next (runCommand_ans h (badIf_eq_none.mpr (decide_eq_false (by omega))) rfl)
    case split =>
      exact fun h hch hfrom => congrArg Host.Outcome.next (runCommand_ans h (badIf_eq_none.mpr (decide_eq_false (by omega))) rfl)

end Sys2Proof.Machine
end

section
/-! Pins: the latches, handovers and the PIN commands (O55). -/

namespace Sys2Proof.Machine

/-! ### Latches -/

theorem word_or (x v : Word) : word (x.toNat ||| v.toNat) = x ||| v := by
  rw [word, ← BitVec.toNat_or, BitVec.ofNat_toNat, BitVec.setWidth_eq]

theorem word_xor (x v : Word) : word (x.toNat ^^^ v.toNat) = x ^^^ v := by
  rw [word, ← BitVec.toNat_xor, BitVec.ofNat_toNat, BitVec.setWidth_eq]

theorem word_clear (x v : Word) : word (x.toNat &&& (2 ^ 32 - 1 - v.toNat)) = x &&& ~~~v := by
  rw [word, ← BitVec.toNat_not, ← BitVec.toNat_and, BitVec.ofNat_toNat, BitVec.setWidth_eq]

section
variable {s : State} {m : Master} {b : Nat} {v : Word}

theorem regPlace_PIO_SET : ∀ b < 7, regPlace (R.PIO_SET b) = some (R.PIO_SET 0, [b]) := by decide
theorem regPlace_PIO_CLR : ∀ b < 7, regPlace (R.PIO_CLR b) = some (R.PIO_CLR 0, [b]) := by decide
theorem regPlace_PIO_TGL : ∀ b < 7, regPlace (R.PIO_TGL b) = some (R.PIO_TGL 0, [b]) := by decide

/-- The access that a write to a latch register makes (R689). -/
def State.latchAccess (s : State) (m : Master) (op b : Nat) (v : Word) : Access :=
  let x := s.latchWrite m op b v.toNat
  (⟨x.1, 0⟩, x.2)

theorem State.regWrite_PIO_SET (hb : b < 7) : s.regWrite m (R.PIO_SET b) v = s.latchAccess m 0 b v := by
  obtain ⟨r, hat, hbase⟩ := regAt_of_regPlace (regPlace_PIO_SET b hb)
  have haddr : ¬ R.PIO_SET b < 0x2000 := by simp only [R.PIO_SET]; omega
  have hstr : ¬(0xE8000 ≤ R.PIO_SET b ∧ R.PIO_SET b < 0xF0000) := by simp only [R.PIO_SET]; omega
  simp only [State.regWrite, if_neg haddr, hat, hbase, if_neg hstr]
  rfl

theorem State.regWrite_PIO_CLR (hb : b < 7) : s.regWrite m (R.PIO_CLR b) v = s.latchAccess m 1 b v := by
  obtain ⟨r, hat, hbase⟩ := regAt_of_regPlace (regPlace_PIO_CLR b hb)
  have haddr : ¬ R.PIO_CLR b < 0x2000 := by simp only [R.PIO_CLR]; omega
  have hstr : ¬(0xE8000 ≤ R.PIO_CLR b ∧ R.PIO_CLR b < 0xF0000) := by simp only [R.PIO_CLR]; omega
  simp only [State.regWrite, if_neg haddr, hat, hbase, if_neg hstr]
  rfl

theorem State.regWrite_PIO_TGL (hb : b < 7) : s.regWrite m (R.PIO_TGL b) v = s.latchAccess m 2 b v := by
  obtain ⟨r, hat, hbase⟩ := regAt_of_regPlace (regPlace_PIO_TGL b hb)
  have haddr : ¬ R.PIO_TGL b < 0x2000 := by simp only [R.PIO_TGL]; omega
  have hstr : ¬(0xE8000 ≤ R.PIO_TGL b ∧ R.PIO_TGL b < 0xF0000) := by simp only [R.PIO_TGL]; omega
  simp only [State.regWrite, if_neg haddr, hat, hbase, if_neg hstr]
  rfl

/-- A write that names a pin beyond the master's reach is answered ERR and counted (R689). -/
theorem State.latchAccess_denied (op : Nat) (h : within v.toNat (s.latchReach m b false) = false) :
    s.latchAccess m op b v = (s.bump (R.PIO_COUNT 1)).busErr := by
  have hwrite : s.latchWrite m op b v.toNat = (false, s.bump (R.PIO_COUNT 1)) := if_pos (by rw [h]; rfl)
  rw [State.latchAccess, hwrite]
  rfl

theorem State.latchAccess_set (h : within v.toNat (s.latchReach m b false) = true) :
    s.latchAccess m 0 b v = (s.wr (R.PIO_OUT b) (s.rd (R.PIO_OUT b) ||| v)).busOk := by
  have hwrite : s.latchWrite m 0 b v.toNat = (true, s.wr (R.PIO_OUT b) (word ((s.rd (R.PIO_OUT b)).toNat ||| v.toNat))) :=
    if_neg (by rw [h]; decide)
  rw [State.latchAccess, hwrite, word_or]
  rfl

theorem State.latchAccess_clear (h : within v.toNat (s.latchReach m b false) = true) :
    s.latchAccess m 1 b v = (s.wr (R.PIO_OUT b) (s.rd (R.PIO_OUT b) &&& ~~~v)).busOk := by
  have hwrite : s.latchWrite m 1 b v.toNat = (true, s.wr (R.PIO_OUT b) (word ((s.rd (R.PIO_OUT b)).toNat &&& (2 ^ 32 - 1 - v.toNat)))) :=
    if_neg (by rw [h]; decide)
  rw [State.latchAccess, hwrite, word_clear]
  rfl

theorem State.latchAccess_toggle (h : within v.toNat (s.latchReach m b false) = true) :
    s.latchAccess m 2 b v = (s.wr (R.PIO_OUT b) (s.rd (R.PIO_OUT b) ^^^ v)).busOk := by
  have hwrite : s.latchWrite m 2 b v.toNat = (true, s.wr (R.PIO_OUT b) (word ((s.rd (R.PIO_OUT b)).toNat ^^^ v.toNat))) :=
    if_neg (by rw [h]; decide)
  rw [State.latchAccess, hwrite, word_xor]
  rfl

theorem exec_pioSet (hb : b < 7) (hdev : s.sys.dev ≠ .off) (hreach : busReach m true (R.PIO_SET b) = true) :
    exec (.pioSet m b v) s = .next (State.answered m (s.latchAccess m 0 b v)) := by
  have halign : R.PIO_SET b % 4 = 0 := by simp only [R.PIO_SET]; omega
  rw [← State.regWrite_PIO_SET hb, ← State.access_of_reach v hdev halign hreach]
  exact if_pos hb

theorem exec_pioClr (hb : b < 7) (hdev : s.sys.dev ≠ .off) (hreach : busReach m true (R.PIO_CLR b) = true) :
    exec (.pioClr m b v) s = .next (State.answered m (s.latchAccess m 1 b v)) := by
  have halign : R.PIO_CLR b % 4 = 0 := by simp only [R.PIO_CLR]; omega
  rw [← State.regWrite_PIO_CLR hb, ← State.access_of_reach v hdev halign hreach]
  exact if_pos hb

theorem exec_pioTgl (hb : b < 7) (hdev : s.sys.dev ≠ .off) (hreach : busReach m true (R.PIO_TGL b) = true) :
    exec (.pioTgl m b v) s = .next (State.answered m (s.latchAccess m 2 b v)) := by
  have halign : R.PIO_TGL b % 4 = 0 := by simp only [R.PIO_TGL]; omega
  rw [← State.regWrite_PIO_TGL hb, ← State.access_of_reach v hdev halign hreach]
  exact if_pos hb

end

/-! ### Handovers -/

theorem State.setHand_mbx (s : State) (p : Nat) (h : Option Handover) : (s.setHand p h).mbx = s.mbx := rfl

/-- A handover takes effect at a bank-clock edge no earlier than the first one it could take (R691). -/
theorem handoverAt_edge (es : List Nat) : ∀ h, h % 4 = 0 → h ≤ handoverAt h es ∧ handoverAt h es % 4 = 0 := by
  induction es with
  | nil => exact fun h hmod => ⟨le_refl h, hmod⟩
  | cons e es ih =>
    intro h hmod
    unfold handoverAt
    split
    · obtain ⟨hle, hedge⟩ := ih ((e + 8 + 3) / 4 * 4) (Nat.mul_mod_left _ _)
      exact ⟨by omega, hedge⟩
    · exact ih h hmod

/-- PIN.ASSIGN by the host of a pin that no hardware check uses, to an owner other than the fabric: its handover waits (R690, R698). -/
theorem exec_pinAssign {s : State} {mb : Nat} (h : s.Serves mb spec_PIN_ASSIGN) (hfields : assignBad (s.msg mb) s = none)
    (hhost : (s.msg mb).sheet = none) (hfree : s.hand ((s.msg mb).n 2 7 0) = none) (howner : (s.msg mb).n 3 30 28 ≠ 2)
    (hroles : (rolesOf s.svy.recs).contains (s.pinFunc ((s.msg mb).n 2 7 0)) = false) :
    let c := s.msg mb
    let p := c.n 2 7 0
    let first := (s.stamp / 4 + 1) * 4
    let h := handoverAt first (s.pinEdges p)
    let v := if h = first then s else s.bump (R.PIO_COUNT 2)
    exec (.pinAssign mb) s =
      s.waits mb (v.setHand p (some ⟨h, c.n 3 30 28, 0, 0, c.n 3 7 0, c.n 3 21 20, c.b 3 31, c.id⟩)) [p] := by
  refine runCommand_wait h hfields ?_
  simp only [hhost, hfree, howner, hroles, Option.isSome_none, Bool.false_and, Bool.false_eq_true, if_false, ne_eq, not_false_eq_true, if_true,
    false_and]

/-- Settles O55: latch writes, handovers and the PIN commands (R687 to R701). -/
theorem pinsAndHandover : Obligations.PinsAndHandover := by
  unfold Obligations.PinsAndHandover
  refine ⟨?latches, ?commands, ?taken, fun h es => handoverAt_edge es h⟩
  case latches =>
    intro s m b v hb hdev a mine wrote denied
    refine ⟨fun hreach => ⟨fun hmine => ?_, fun hmine => ?_⟩, fun hreach => ⟨fun hmine => ?_, fun hmine => ?_⟩,
      fun hreach => ⟨fun hmine => ?_, fun hmine => ?_⟩⟩
    · rw [exec_pioSet hb hdev hreach, State.latchAccess_set hmine]
    · rw [exec_pioSet hb hdev hreach, State.latchAccess_denied 0 hmine]
    · rw [exec_pioClr hb hdev hreach, State.latchAccess_clear hmine]
    · rw [exec_pioClr hb hdev hreach, State.latchAccess_denied 1 hmine]
    · rw [exec_pioTgl hb hdev hreach, State.latchAccess_toggle hmine]
    · rw [exec_pioTgl hb hdev hreach, State.latchAccess_denied 2 hmine]
  case commands =>
    intro s mb
    dsimp only
    refine ⟨?status, ?read, ?write, ?assign, ?pad, ?counters⟩
    case status =>
      exact fun h hpin => congrArg Host.Outcome.next (runCommand_ans h (badIf_eq_none.mpr (decide_eq_false (by omega))) rfl)
    case read =>
      exact fun h hbank => congrArg Host.Outcome.next (runCommand_ans h (badIf_eq_none.mpr (decide_eq_false (by omega))) rfl)
    case write =>
      intro h hop hbank
      have hfields : badIf (decide ((s.msg mb).n 2 9 8 = 3) || decide (6 < (s.msg mb).n 2 2 0)) = none :=
        badIf_eq_none.mpr (by rw [decide_eq_false (by omega), decide_eq_false (by omega)]; rfl)
      refine ⟨fun hmine => ?_, fun hmine => ⟨fun hset => ?_, fun hclear => ?_, fun htoggle => ?_⟩⟩
      · exact congrArg Host.Outcome.next (runCommand_ans h hfields (if_pos (by rw [hmine]; rfl)))
      all_goals
        refine congrArg Host.Outcome.next (runCommand_ans h hfields ((if_neg (by rw [hmine]; decide)).trans ?_))
        dsimp only
      · rw [hset, ← word_or]; rfl
      · rw [hclear, ← word_clear]; rfl
      · rw [htoggle, ← word_xor]; rfl
    case assign =>
      exact fun h hfields hhost hfree howner hroles => exec_pinAssign h hfields hhost hfree howner hroles
    case pad =>
      intro h hpin hpull hwired
      refine congrArg Host.Outcome.next (runCommand_ans h (badIf_eq_none.mpr ?_) rfl)
      have hbus : (!(s.msg mb).b 3 16 && funcI2c (s.pinFunc ((s.msg mb).n 2 7 0))) = false := by
        rcases hwired with hwired | hwired
        · rw [hwired]; rfl
        · rw [hwired, Bool.and_false]
      rw [decide_eq_false (by omega), decide_eq_false hpull, hbus]
      rfl
    case counters =>
      intro h
      refine congrArg Host.Outcome.next (runCommand_ans h rfl ?_)
      simp only [State.counters_map]
  case taken =>
    intro s p x o hhand hopen v
    show execPinHandoverComplete p s = _
    unfold execPinHandoverComplete
    rw [hhand]
    dsimp only
    rw [State.bump_mbx, State.wr_mbx, State.setHand_mbx, State.reach_mbx, hopen]
    rfl

end Sys2Proof.Machine
end
